-- ==== Sys2Proof/Word.lean ====
section
/-! DEFINITION. The word types of the EXD9: bytes, 32-bit register words, partition numbers. -/

namespace Sys2Proof

/-- One byte of a frame or of the buffer space (00 R13). -/
abbrev Byte := BitVec 8

/-- One 32-bit register word (00 R13). -/
abbrev Word := BitVec 32

/-- A partition number P0 to P3, and the number of its port HP0, HP1, HP2, SP (02 R43, 04 R100). -/
abbrev Part := Fin 4

end Sys2Proof
end

