-- ==== Sys2Proof/Syntax.lean ====
section
/-! DEFINITION. The commands of the EXD9: one constructor per row of spec/opcode_table.json, with its operands. -/

namespace Sys2Proof

/-- A frame as its port received it, from select to deselect (02 R43-R69). -/
structure Frame where
  /-- The port, which is also the partition (R43). -/
  port : Part
  /-- The whole bytes that the host sent, OP first: on SP without the address bytes, and with the PEC of a write frame. -/
  bytes : List Byte
  /-- A further byte was begun and not completed (R67). -/
  partialByte : Bool := false
  /-- HSCK was high when HCS fell (R44). -/
  mode3 : Bool := false
  /-- A data edge followed the last edge of the response, or on SP a byte beyond the frame (R69). -/
  extra : Bool := false
  /-- The read data were not ready at the first response edge (R63). -/
  late : Bool := false
  /-- HCS rose before any data edge (R65). -/
  noEdges : Bool := false
  deriving DecidableEq, Repr

/-- A datum that fails its check (01 R22, R39, R40, R479): the value of a register word, or a 64-bit word of the buffer
space, by number, with a single-bit error or uncorrectable. -/
inductive Mismatch where
  | register (addr : BitVec 16)
  | buffer (w : BitVec 18) (single : Bool)
  deriving DecidableEq, Repr

/-- The blocks that take courses, in the order of the BLOCKS mask (03 R84). -/
inductive Block where
  | thm | flw | key | epd | seq | nfc | efl | gng
  deriving DecidableEq, Repr

/-- What the wake detectors see at arming: closed positions (16 r + c) and HCS0-HCS2 low (05 R139). -/
structure WakeInputs where
  closed : BitVec 160
  hcsLow : BitVec 3
  deriving DecidableEq, Repr

/-- The source of a wake event (05 Table 5-3); the alarm wakes through ALARM_FIRE. -/
inductive WakeSource where
  | key (row : Fin 10) (col : Fin 16)
  | encoder (n : Fin 3)
  | hcs (n : Fin 3)
  | gang
  deriving DecidableEq, Repr

/-- Levels and voltages that the device finds at a core start (01 R27, 05 R134, R146, 06 R180, 08 R245). -/
structure StartObs where
  encA : BitVec 3
  encB : BitVec 3
  mainMv : Nat
  bakMv : Nat
  /-- The VCCQ banks of CH0 to CH3. -/
  vccqMv : List Nat := []
  /-- SPG0 to SPG9 and, in uV, SMON0 to SMON5, which the sequencer's first step takes. -/
  spg : BitVec 10 := 0
  smonUv : List Nat := []
  deriving DecidableEq, Repr

/-- What made a panel rail fail (09 R257, R259). -/
inductive RailCause where
  | vgh | vgl | vneg | vpos | vcom | boost
  deriving DecidableEq, Repr

/-- What a setup flash operation finds in the medium (11 R311-R318). -/
structure EflObs where
  /-- Corrected bits of each row, in order. -/
  corr : List Nat := []
  /-- Rows that hold a word with two corrections, by index. -/
  twos : List Nat := []
  /-- Rows found with an uncorrectable ECC word, by index within the operation. -/
  uncorr : List Nat := []
  /-- Failing bits of each row of a margin operation. -/
  margin : List Nat := []
  /-- The first row that fails to program, by index. -/
  failRow : Option Nat := none
  /-- The erase fails. -/
  eraseFail : Bool := false
  deriving DecidableEq, Repr

/-- What a phase of channel initialisation finds on one chip enable (12 R336-R338). -/
structure InitObs where
  /-- Four bytes from READ ID at 0x20. -/
  sig : List Byte := []
  /-- Four bytes from READ ID at 0x00. -/
  ident : List Byte := []
  /-- Up to three parameter page copies. -/
  copies : List (List Byte) := []
  deriving DecidableEq, Repr

/-- One read of one slot and what the decoder makes of it (12 R350). -/
structure SlotRead where
  /-- Bytes 0 to 2,055 + P as read, before derandomising. -/
  raw : List Byte := []
  /-- Every parity check is satisfied. -/
  ok : Bool := false
  /-- The decoded codeword. -/
  word : List Byte := []
  /-- For a soft decoding: the reads at the entries named SOFT_LO and SOFT_HI (12 R353). -/
  lo : List Byte := []
  hi : List Byte := []
  deriving DecidableEq, Repr

/-- A re-read of the ladder (12 R352): at the next step, or at the soft entry that the present step names. -/
inductive RereadKind where
  | step | softLo | softHi
  deriving DecidableEq, Repr

/-- A re-read that has ended: the member of the group, which read it was, and the slots that still fail, by index. -/
structure Reread where
  member : Nat := 0
  kind : RereadKind := .step
  slots : BitVec 8 := 0
  deriving DecidableEq, Repr

/-- What an operation finds on the medium by its release point (12 R352-R358, 13 R371-R379). -/
structure NandObs where
  /-- The release is that of the second page of a cache sequence (13 R386). -/
  second : Bool := false
  /-- For each member of a group: the marker. -/
  marker : List (List Byte) := []
  /-- For each member, for each named slot: the home read, then the read at each step. -/
  hard : List (List (List SlotRead)) := []
  /-- For each member, for each named slot: the soft decoding at step 1, 2, ... -/
  soft : List (List (List SlotRead)) := []
  /-- For each member: the die reports a failure. -/
  fail : List Bool := []
  /-- The status byte. -/
  status : Byte := 0
  /-- Bytes received by a RAW script. -/
  din : List Byte := []
  /-- A WAIT of a RAW script ran out; entries before it took effect. -/
  timeoutAt : Option Nat := none
  deriving DecidableEq, Repr

/-- A work descriptor: NFC_SUB_W0 to W7 (13 R370). -/
structure Desc where
  ws : List Word
  deriving DecidableEq, Repr

/-- The commands of the EXD9. -/
inductive Instr where
  /-- NOP (R62): A NOP frame changes nothing and returns STATUS and PSEQ, which tell the host the outcome of its previous frame. -/
  | nop (f : Frame)
  /-- RD (R78): A register read frame returns the image of 1 to 64 words, taken at the end of the cycle in which the address completes. -/
  | rd (f : Frame)
  /-- WR (R79): A register write frame writes 1 to 64 words in one instant when its check passes at the rise of HCS. -/
  | wr (f : Frame)
  /-- WRM (R54): A masked register write frame applies (old AND NOT mask) OR (value AND mask) to each register of its range in one instant. -/
  | wrm (f : Frame)
  /-- BRD (R41): A bulk read frame returns 4 to 256 bytes of one row of the buffer space, or is refused whole. -/
  | brd (f : Frame)
  /-- BWR (R55): A bulk write frame stores bytes in the buffer space, and marks the guard absent in every transfer-buffer granule it touches. -/
  | bwr (f : Frame)
  /-- BWG (R55): A bulk write frame with guard stores its data and the granule guard word, and marks that guard valid. -/
  | bwg (f : Frame)
  /-- BRG (R55): A bulk read frame with guard returns data within one granule, followed by the content of that granule's guard slot. -/
  | brg (f : Frame)
  /-- PRST (R56): A port reset opcode returns the port to x1 width and TA_CYCLES 96 and sends no response. -/
  | prst (f : Frame)
  /-- REGISTER_WRITE (R17): A frame writes a register that has no row of its own, and each field acts by its access code and ownership. -/
  | registerWrite (p : Part) (seq : Byte) (addr : BitVec 16) (v : Word)
  /-- SP_CLOCK_LOW_TIMEOUT (R72): SP_SCL held low for 25 ms to 35 ms ends the service port frame with outcome SHORT. -/
  | spClockLowTimeout (bytes : List Byte)
  /-- ALERT_RESPONSE (R71): A read of the SMBus Alert Response Address while SP_ALERT_N is asserted returns the device address, and SP_ALERT_N is released if the device wins arbitration. -/
  | alertResponse (wins : Bool)
  /-- ERRCLR (R75): A write of 1 to PORT ERRCLR sets that port's ERR0 and ERR1 to 0. -/
  | errclr (p : Part) (seq : Byte) (port : Part) (v : Word)
  /-- HRST_PULSE_END (R74): The host reset pulse ends after HRST_MS milliseconds, timed by the timebase. -/
  | hrstPulseEnd (n : Fin 3)
  /-- COURSE_COMMIT (R84): A non-zero write to DEV_COURSE_COMMIT.BLOCKS assigns the next course number and captures the staged values, or queues or refuses the commit. -/
  | courseCommit (p : Part) (seq : Byte) (v : Word)
  /-- COURSE_TAKE_UP (R85): A targeted block reaches its quiescent point and brings every carried field into force in a single cycle. -/
  | courseTakeUp (b : Block)
  /-- LUN_COURSE_TAKE_UP (R86): A NAND LUN with no operation queued or running takes up the pending course. -/
  | lunCourseTakeUp (l : Fin 16)
  /-- COURSE_STALL (R88): A course still PENDING at its timeout becomes STALLED, and blocks that have not taken it up drop it. -/
  | courseStall
  /-- CAPO_TRIG (R95): A write of 1 to DEV_CAPO_TRIG.TRIG from an enabled partition triggers a capo. -/
  | capoTrig (p : Part) (seq : Byte) (v : Word)
  /-- CAPO_PIN_EDGE (R96): A qualified falling edge on CAPO while PIN_IN is 1 triggers a capo. -/
  | capoPinEdge
  /-- CAPO_DRIVE_END (R97): The device releases the CAPO line 2 µs after it began to drive it low. -/
  | capoDriveEnd
  /-- CAPO_RELEASE (R98): A write of 1 to DEV_CAPO_RELEASE from P0 frees held capo banks and clears MISSED. -/
  | capoRelease (p : Part) (seq : Byte) (v : Word)
  /-- TBASE_LATCH (R81): A write of 1 to DEV_TBASE_LATCH copies the timebase into the writing partition's latch. -/
  | tbaseLatch (p : Part) (seq : Byte) (v : Word)
  /-- CLOCK_WINDOW_CHECK (R29): At the end of each 16 ms window the AON logic compares X32 with RC32, and changes the timebase source on failure or on recovery. -/
  | clockWindowCheck (edges : Nat)
  /-- PLL_LOSS_OF_LOCK (R31): The PLL loses lock while the core runs on it, so the core changes to RC48 and NFC faults every channel. -/
  | pllLossOfLock
  /-- REGISTER_PARITY_FAULT (R40): A register word fails parity, so the fault is recorded and the owning block takes its invalid-configuration reaction. -/
  | registerParityFault (m : Mismatch)
  /-- STEWARD_LOCK (R103): A write of 1 to PART_LOCK.LOCK from P0 sets the steward's lock until a device reset. -/
  | stewardLock (p : Part) (seq : Byte) (v : Word)
  /-- OWNER_CHANGE (R107): A write of an owner field reassigns a resource, re-stages its owner-held fields and discards the old owner's undispatched work. -/
  | ownerChange (p : Part) (seq : Byte) (cls : Fin 7) (v : Word)
  /-- QUOTA_CHANGE (R108): A write of PART_XBUF words moves transfer-buffer quotas together and clears every granule that changes partition. -/
  | quotaChange (p : Part) (seq : Byte) (ws : List (Part × Word))
  /-- SLOT_SHARE_WRITE (R110): A write of PART_SLOTSp sets the guarantee and pool limit of a partition, and is refused if the guarantees would exceed 1,024. -/
  | slotShareWrite (p : Part) (seq : Byte) (t : Part) (v : Word)
  /-- LUN_MAX_WRITE (R111): A write of PART_LUN_MAX sets the queue entries per partition, and is refused if the values would sum above 64 or include 0. -/
  | lunMaxWrite (p : Part) (seq : Byte) (v : Word)
  /-- LUN_WEIGHT_WRITE (R112): A write of PART_LUN_WEIGHT sets the arbitration weights, which apply from the next choice. -/
  | lunWeightWrite (p : Part) (seq : Byte) (v : Word)
  /-- MBX_POST (R115): A write of 1 to MBX_POSTn.POST by the sender checks the slot, and posts the message or refuses it with a result code. -/
  | mbxPost (p : Part) (seq : Byte) (n : Fin 12) (v : Word)
  /-- MBX_ACK (R116): A write of a count to MBX_ACKn by the receiver frees the oldest messages of the mailbox. -/
  | mbxAck (p : Part) (seq : Byte) (n : Fin 12) (v : Word)
  /-- IRQ_COAL_WRITE (R119): A write to IRQ_COAL acts at once on the coalescing round in progress. -/
  | irqCoalWrite (p : Part) (seq : Byte) (t : Part) (v : Word)
  /-- COALESCE_TIMEOUT (R119): IRQ_COAL.TIME × 10 µs passes since the first event of the round, and the summary asserts. -/
  | coalesceTimeout (t : Part)
  /-- WDOG_KICK (R122): A write to PART_WDOG_KICKp.KICK restarts the watchdog on the expected value, and causes an expiry on a wrong one. -/
  | wdogKick (p : Part) (seq : Byte) (t : Part) (v : Word)
  /-- FLOW_RELEASE (R124): FLOW_RELEASE written with a valid kick ends the held watchdog failsafe requests on the writer's flow channels. -/
  | flowRelease (p : Part) (seq : Byte) (t : Part) (v : Word)
  /-- WDOG_WARN (R123): Half the watchdog timeout passes since the last restart, so WARNED is set and WDOG_WARN is raised. -/
  | wdogWarn (t : Part)
  /-- WDOG_EXPIRY (R123): The watchdog reaches its full timeout and takes the flow failsafe, sequencer and partition reset actions that are enabled. -/
  | wdogExpiry (t : Part)
  /-- PARTITION_RESET_REQUEST (R125): A write of PART_RST.REQ requests a reset of a partition, or is refused with DENIED. -/
  | partitionResetRequest (p : Part) (seq : Byte) (v : Word)
  /-- PARTITION_RESET_COMPLETE (R125): The reset completes once every dispatched operation of the partition has ended, and performs the completion actions of Table 4-7. -/
  | partitionResetComplete (t : Part)
  /-- MAIN_WARNING (R131): VMAIN stays below WARN for 10 µs, so PFAIL_N is asserted, MAIN_WARN is raised and work is held. -/
  | mainWarning
  /-- MAIN_WARNING_END (R131): VMAIN rises above WARN + 50 mV without a switch-over, so MAIN_BACK is raised and held work proceeds. -/
  | mainWarningEnd
  /-- SWITCH_OVER (R150): VMAIN stays below SWITCH for 10 µs, so the core stops at once and the device moves to OFF on VBAK. -/
  | switchOver
  /-- RETURN_HOLD_START (R141): VMAIN rises above RETURN and starts or restarts the return hold. -/
  | returnHoldStart
  /-- RETURN_COMPLETE (R141): VMAIN has stayed above RETURN for RET_HOLD × 10 ms, so a wake sequence starts or the device enters SLEEP. -/
  | returnComplete (active : WakeInputs)
  /-- BACKUP_SUPPLY_CHANGE (R132): VBAK becomes valid or invalid, and the AON source changes accordingly. -/
  | backupSupplyChange (valid : Bool)
  /-- COLD_START (R132): VAON falls below 1.60 V and AON state is lost, so the next supply rise is a cold start. -/
  | coldStart
  /-- VMEAS_UPDATE (R134): Every 1 ms the core updates the measurements of VMAIN and VBAK and BAK_LOW. -/
  | vmeasUpdate (mainMv bakMv : Nat)
  /-- DOZE_ENTRY (R135): After IDLE × 10 µs without activity the device enters DOZE on its own. -/
  | dozeEntry
  /-- SLEEP_REQUEST (R137): A write of 1 to PWR_SLEEP.REQ from P0 starts the wait for the sleep conditions. -/
  | sleepRequest (p : Part) (seq : Byte) (v : Word)
  /-- SLEEP_ENTRY (R137): All sleep conditions hold together, so the core stops and the device enters SLEEP or OFF. -/
  | sleepEntry (active : WakeInputs)
  /-- SLEEP_TIMEOUT (R137): WAIT_MS passes without the sleep conditions holding, so the request lapses with TIMED_OUT. -/
  | sleepTimeout
  /-- ALARM_FIRE (R140): The timebase reaches PWR_ALARM while ARMED is 1, so FIRED is set and ARMED is cleared. -/
  | alarmFire
  /-- WAKE_EVENT (R139): An enabled wake source becomes active while the detectors are armed, and a wake sequence starts. -/
  | wakeEvent (src : WakeSource)
  /-- WAKE_ARM_END (R141): The Arm phase ends after one tick with the straps sampled, and the VDDC step begins. -/
  | wakeArmEnd (straps : BitVec 2)
  /-- VDDC_READY (R142): VDDC reaches its window, and the X24 step begins. -/
  | vddcReady
  /-- X24_READY (R142): X24 has counted 1,024 clean cycles, and the PLL step begins. -/
  | x24Ready
  /-- PLL_LOCK (R142): The PLL locks, and core start begins on the PLL. -/
  | pllLock
  /-- WAKE_STEP_TIMEOUT (R143): An attempt at VDDC, X24 or the PLL times out, so a back-off, reduced mode or refusal follows. -/
  | wakeStepTimeout
  /-- BACKOFF_END (R142): The 100 ms back-off ends, and the failed step is attempted again. -/
  | backoffEnd
  /-- CORE_START (R146): The core domain is reset, the boot course is applied, core-start values are written, and the framing logic is powered. -/
  | coreStart (obs : StartObs)
  /-- RESET_N_ASSERT (R155): RESET_N is held low for at least 1 µs, so the core stops and wake sources are ignored. -/
  | resetNAssert
  /-- RESET_N_RELEASE (R155): RESET_N is released, and a wake sequence starts if VMAIN is above SWITCH. -/
  | resetNRelease
  /-- SOFTWARE_DEVICE_RESET (R152): A write of PWR_DEVRST.KEY = 0x7A5E from P0 stops the core with STOP code 4 and starts a wake sequence. -/
  | softwareDeviceReset (p : Part) (seq : Byte) (v : Word)
  /-- VDDC_FAULT (R151): VDDC leaves its window while the core runs, so the core stops with STOP code 6 and restarts. -/
  | vddcFault
  /-- PWR_THRESH_WRITE (R130): A write of PWR_THRESH sets the supervisor thresholds, or is refused whole if it breaks the threshold conditions. -/
  | pwrThreshWrite (p : Part) (seq : Byte) (v : Word)
  /-- PWR_CNTCLR (R158): A write of 1 to PWR_CNTCLR.CLEAR sets PWR_COUNTS to 0. -/
  | pwrCntclr (p : Part) (seq : Byte) (v : Word)
  /-- SEQUENCER_STEP (R162): Every 100 µs the sequencer takes its inputs, advances each rail by at most one state and drives the SEN outputs. -/
  | sequencerStep (spg : BitVec 10) (smonUv : List Nat)
  /-- RAIL_ON_REQUEST (R169): A rail's ON bit in SEQ_REQ sets its target ON, or sets LATCHED_ON. -/
  | railOnRequest (p : Part) (seq : Byte) (rails : BitVec 10)
  /-- RAIL_OFF_REQUEST (R168): A rail's OFF bit in SEQ_REQ sets the target OFF for the rail's closure, or the frame is refused. -/
  | railOffRequest (p : Part) (seq : Byte) (rails : BitVec 10)
  /-- GROUP_ON_REQUEST (R167): An ON bit in SEQ_GROUP_REQ from P0 requests ON for every rail of the group. -/
  | groupOnRequest (p : Part) (seq : Byte) (groups : BitVec 4)
  /-- GROUP_OFF_REQUEST (R167): An OFF bit in SEQ_GROUP_REQ from P0 requests OFF for every rail of the group. -/
  | groupOffRequest (p : Part) (seq : Byte) (groups : BitVec 4)
  /-- SEQ_CNTCLR (R186): A write of 1 to SEQ_CNTCLR.CLEAR from P0 sets every SEQ_RAILr_COUNT to 0. -/
  | seqCntclr (p : Part) (seq : Byte) (v : Word)
  /-- THM_SAMPLE (R189): At each sample period THM converts all eight sensors, judges their validity, forms the groups and delivers the sample. -/
  | thmSample (uv : List Nat) (dieTenths : Int)
  /-- THM_CNTCLR (R215): A write of 1 to THM_CNTCLR.CLEAR sets INVCNT0 and INVCNT1 to 0. -/
  | thmCntclr (p : Part) (seq : Byte) (v : Word)
  /-- FLOW_TICK (R198): Every 10 ms FLW takes its inputs, chooses each channel's source and computes and drives its output. -/
  | flowTick (nowUs : Nat)
  /-- FLOW_STALL (R205): The count of consecutive stall ticks reaches STALL_TIME × 10, so STALLED is set and the stall action begins. -/
  | flowStall (n : Fin 6)
  /-- STEADY_WINDOW_END (R210): A steady window of 100 ticks completes and gives an ageing sample for its band. -/
  | steadyWindowEnd (n : Fin 6)
  /-- LEARN_COMPLETE (R212): A band's sample count reaches LEARN_N, so its baseline is set and the band is marked learned. -/
  | learnComplete (n : Fin 6) (b : Fin 8)
  /-- TACH_EDGE (R200): A qualified rising edge on FTACHn is timestamped for speed measurement. -/
  | tachEdge (n : Fin 6) (us : Nat)
  /-- FSW_PERIOD_START (R196): A new switching period of FSWn starts and applies the duty and frequency in force. -/
  | fswPeriodStart (n : Fin 4) (us : Nat)
  /-- STRETCH_WINDOW_END (R204): A tach stretch window ends, and the speed is computed from its edges. -/
  | stretchWindowEnd (n : Fin 6)
  /-- STALL_CLEAR (R205): The owner clears STALLED by W1C, which ends the stall action and restarts the count. -/
  | stallClear (p : Part) (seq : Byte) (n : Fin 6) (v : Word)
  /-- FLW_CNTCLR (R216): A write of 1 to FLW_CNTCLR.CLEAR sets STALLCNT0 and STALLCNT1 to 0. -/
  | flwCntclr (p : Part) (seq : Byte) (v : Word)
  /-- KEY_FRAME_START (R221): At each scan frame start KEY takes its settings and states, runs the matcher and the encoders, and may start a pass or a probe. -/
  | keyFrameStart
  /-- KEY_PASS (R221): A pass over the enabled rows ends, and each position's sample is debounced. -/
  | keyPass (closed : BitVec 160)
  /-- WET_PROBE_COLUMN (R225): A probe column slot ends, and the column's LEAK and COMMON are recorded or skipped. -/
  | wetProbeColumn (iA iB : Int)
  /-- KEY_STUCK (R234): A key stays down for STUCK seconds, so it is masked and a STUCK event is posted. -/
  | keyStuck (pos : Nat)
  /-- AUTOLOCK (R235): No PRESS has been posted for AUTOLOCK × 10 s, and the device locks at a frame start. -/
  | autolock
  /-- KEY_LOCK (R235): A write of KEY_LOCK_CTL.LOCK = 1 from P0 locks the device. -/
  | keyLock (p : Part) (seq : Byte) (v : Word)
  /-- KEY_UNLOCK (R235): A write of KEY_LOCK_CTL.UNLOCK = 1 from P0 unlocks the device. -/
  | keyUnlock (p : Part) (seq : Byte) (v : Word)
  /-- ENCODER_EDGE (R238): A filtered change of an encoder input moves COUNT, or records an error. -/
  | encoderEdge (n : Fin 3) (a b : Bool)
  /-- ENC_VELOCITY_UPDATE (R239): Every 10 ms each encoder's VEL is updated. -/
  | encVelocityUpdate
  /-- KEY_FIFO_POP (R241): A write of n to KEY_FIFO_POP.COUNT frees the oldest entries of the issuing partition's FIFO. -/
  | keyFifoPop (p : Part) (seq : Byte) (v : Word)
  /-- KEY_CNTCLR (R247): A write of 1 to KEY_CNTCLR.CLEAR clears EMPTY_FRAMES, FAILS, UNLOCKS and ENC ERRORS. -/
  | keyCntclr (p : Part) (seq : Byte) (v : Word)
  /-- PANEL_UPDATE_REQUEST (R266): A write of EPD_REQ by a region's owner queues, absorbs or refuses an update request. -/
  | panelUpdateRequest (p : Part) (seq : Byte) (v : Word)
  /-- UPDATE_START (R268): With a request queued and the panel free, an update starts and fixes its band, timing and participating pixels. -/
  | updateStart
  /-- BLINK_DUE (R292): A blink region's due time arrives on its grid, and a toggle becomes pending or is counted LATE. -/
  | blinkDue (k : Fin 8)
  /-- BLINK_TOGGLE_START (R293): A pending blink toggle starts when the panel is free and is chosen. -/
  | blinkToggleStart
  /-- WAVEFORM_READ_DONE (R287): The read of the waveform bodies and gamma for an update completes, and frames may begin. -/
  | waveformReadDone
  /-- RAIL_UP_PHASE_END (R256): A panel rail reaches good and its STEP wait ends, so the next power-up phase or the frames begin; mv: VGH, VGL, VNEG, VPOS, VCOM in mV. -/
  | railUpPhaseEnd (mv : List Int := [])
  /-- RAIL_UP_TIMEOUT (R257): A power-up phase does not reach good within UP_TO, so the update ends with RAIL_UP. -/
  | railUpTimeout (c : RailCause) (mv : List Int := [])
  /-- PANEL_FRAME (R252): A panel frame of ROWS lines and a vertical blank is driven. -/
  | panelFrame
  /-- RAIL_LOST (R259): A panel rail leaves its window for 20 µs, or the boost hits its limit, so driving stops and the rails go down. -/
  | railLost (c : RailCause) (mv : List Int := [])
  /-- RAIL_DOWN_PHASE_END (R258): A power-down phase reaches its level or its DOWN_TO timeout, and the next phase follows. -/
  | railDownPhaseEnd (mv : List Int)
  /-- WF_RELOAD (R284): A write of 1 to EPD_WF_CTL.RELOAD from P0 starts validation of the waveform table. -/
  | wfReload (p : Part) (seq : Byte) (v : Word)
  /-- WF_VALIDATION_DONE (R284): Validation of the waveform table ends, and TABLE_OK is set or REASON names the failed check. -/
  | wfValidationDone
  /-- EPD_CNTCLR (R275): A write of 1 to EPD_CNTCLR.CLEAR sets COUNTS0 and COUNTS1 to 0. -/
  | epdCntclr (p : Part) (seq : Byte) (v : Word)
  /-- EPD_PIX_CNTCLR (R297): A write of 1 to EPD_PIX_CNTCLR.CLEAR sets EPD_PIX_STATUS to 0. -/
  | epdPixCntclr (p : Part) (seq : Byte) (v : Word)
  /-- EFL_READ (R313): A setup flash READ is submitted on an operation channel to deliver rows into granules. -/
  | eflRead (p : Part) (seq : Byte) (ch : Fin 10) (addr : BitVec 21) (count : BitVec 8) (granule : BitVec 9)
  /-- EFL_PROGRAM (R316): A setup flash PROGRAM is submitted to program granules into erased rows after guard checks. -/
  | eflProgram (p : Part) (seq : Byte) (ch : Fin 10) (addr : BitVec 21) (count : BitVec 8) (granule : BitVec 9)
  /-- EFL_ERASE (R317): A setup flash ERASE is submitted to erase and verify one sector. -/
  | eflErase (p : Part) (seq : Byte) (ch : Fin 10) (addr : BitVec 21) (count : BitVec 8) (granule : BitVec 9)
  /-- SCAN (R315): A SCAN is submitted to read rows for status and corrections without delivering data. -/
  | scan (p : Part) (seq : Byte) (ch : Fin 10) (addr : BitVec 21) (count : BitVec 8) (granule : BitVec 9)
  /-- MARGIN_PV (R318): A MARGIN_PV is submitted to read rows at the program-verify reference and count failing bits. -/
  | marginPv (p : Part) (seq : Byte) (ch : Fin 10) (addr : BitVec 21) (count : BitVec 8) (granule : BitVec 9)
  /-- MARGIN_EV (R318): A MARGIN_EV is submitted to read rows at the erase-verify reference and count bits that read 0. -/
  | marginEv (p : Part) (seq : Byte) (ch : Fin 10) (addr : BitVec 21) (count : BitVec 8) (granule : BitVec 9)
  /-- ADVANCE (R323): An ADVANCE on the log channel requests one advance of the rotating log. -/
  | advance (p : Part) (seq : Byte) (ch : Fin 10) (addr : BitVec 21) (count : BitVec 8) (granule : BitVec 9)
  /-- FORMAT (R323): A FORMAT on the log channel erases the log region and makes the log fresh. -/
  | format (p : Part) (seq : Byte) (ch : Fin 10) (addr : BitVec 21) (count : BitVec 8) (granule : BitVec 9)
  /-- EFL_OP_START (R308): An idle bank starts the queued operation of the next channel in rotation and checks its range and quota. -/
  | eflOpStart (bank : Fin 2)
  /-- EFL_OP_DONE (R310): A setup flash operation ends with a RESULT, and EFL_DONE and any EFL_WARN are raised. -/
  | eflOpDone (bank : Fin 2) (obs : EflObs)
  /-- LOG_ADVANCE (R320): After the ADV_EVERY-th logical erase, an advance of the rotating log starts before the channel's next operation. -/
  | logAdvance
  /-- LOG_ADVANCE_PHASE_END (R320): A phase of an advance ends, and the mapping changes at the commit phase. -/
  | logAdvancePhaseEnd (obs : EflObs)
  /-- LOG_RECOVERY (R322): Before the first log operation the device checks and cleans the gap and the stale pointer sector. -/
  | logRecovery (obs : EflObs)
  /-- EFL_CNTCLR (R330): A write of 1 to EFL_CNTCLR.CLEAR sets COUNTS0 and COUNTS1 to 0. -/
  | eflCntclr (p : Part) (seq : Byte) (v : Word)
  /-- BANK_CLASS_CHANGE (R27): A VCCQ bank is classed or leaves its class, so initialisation or a channel fault follows. -/
  | bankClassChange (ch : Fin 4) (mv : Nat)
  /-- CHANNEL_INIT_PHASE_END (R336): A phase of channel initialisation ends, such as settle, reset, identify, parameter or check. -/
  | channelInitPhaseEnd (ch : Fin 4) (obs : InitObs)
  /-- MODE_CHANGE (R341): With no operation running, the device runs the timing-mode change sequence on a channel, or falls back to SDR mode 0. -/
  | modeChange (ch : Fin 4) (ok : Bool)
  /-- STATUS_POLL (R342): Every POLL microseconds the device polls each busy LUN of a channel with READ STATUS ENHANCED. -/
  | statusPoll (ch : Fin 4)
  /-- LUN_TIMEOUT (R342): A LUN stays busy beyond its timeout, so TIMEOUTS increases and the LUN is reset. -/
  | lunTimeout (l : Fin 16)
  /-- CHANNEL_FAULT (R344): A channel fault discards all work on the channel and initialises it again. -/
  | channelFault (ch : Fin 4)
  /-- NAND_READ (R371): A READ descriptor is submitted to read named slots of a page into granules. -/
  | nandRead (p : Part) (seq : Byte) (d : Desc)
  /-- NAND_PROGRAM (R372): A PROGRAM descriptor is submitted to program a page from guarded granules. -/
  | nandProgram (p : Part) (seq : Byte) (d : Desc)
  /-- NAND_ERASE (R373): An ERASE descriptor is submitted to erase a block. -/
  | nandErase (p : Part) (seq : Byte) (d : Desc)
  /-- COPY (R374): A COPY descriptor is submitted to read a page and program it to a destination namespace. -/
  | copy (p : Part) (seq : Byte) (d : Desc)
  /-- VERIFY (R375): A VERIFY descriptor is submitted to run a margin verify on named slots. -/
  | verify (p : Part) (seq : Byte) (d : Desc)
  /-- STATUS (R376): A STATUS descriptor is submitted to read the LUN's status byte after earlier operations. -/
  | status (p : Part) (seq : Byte) (d : Desc)
  /-- RESET_LUN (R377): A RESET_LUN descriptor resets the LUN at acceptance and discards its work. -/
  | resetLun (p : Part) (seq : Byte) (d : Desc)
  /-- RAW (R379): A RAW descriptor from P0 runs a checked raw script of bus cycles on a LUN. -/
  | raw (p : Part) (seq : Byte) (d : Desc)
  /-- NAND_RELEASE (R383): An operation on a LUN reaches its release point, and the LUN is free for its next choice. -/
  | nandRelease (l : Fin 16) (obs : NandObs)
  /-- NFC_RING_POP (R390): A write of k to NFC_RING_POP.COUNT frees ring records, and waiting records may then be posted. -/
  | nfcRingPop (p : Part) (seq : Byte) (v : Word)
  /-- NFC_CNTCLR (R365): A write of 1 to NFC_CNTCLR.CLEAR sets NFC_COUNTS and every channel's counts to 0. -/
  | nfcCntclr (p : Part) (seq : Byte) (v : Word)
  /-- WARNCLR (R365): A write of 1 to NFC_CNTCLR.WARNCLR sets NFC_NSWARN0–3 to 0. -/
  | warnclr (p : Part) (seq : Byte) (v : Word)
  /-- CVU_START (R398): CTL.START opens a calculation, loads INIT and feeds the fold word. -/
  | cvuStart (p : Part) (seq : Byte) (u : Fin 4)
  /-- CVU_FEED (R399): FEED0 and FEED1 words enter the open calculation, least significant byte first. -/
  | cvuFeed (p : Part) (seq : Byte) (u : Fin 4) (ws : List Word)
  /-- CVU_GO (R400): CTL.GO starts a buffer run over BLEN + 1 bytes from BADDR. -/
  | cvuGo (p : Part) (seq : Byte) (u : Fin 4)
  /-- CVU_RUN_END (R400): A buffer run ends, and the unit returns to OPEN or is abandoned on a fault. -/
  | cvuRunEnd (u : Fin 4)
  /-- CVU_FINISH (R403): CTL.FINISH forms RESULT, makes the comparison and alive judgements and reports a code. -/
  | cvuFinish (p : Part) (seq : Byte) (u : Fin 4)
  /-- CVU_ABORT (R405): CTL.ABORT abandons the calculation, and the unit returns to IDLE. -/
  | cvuAbort (p : Part) (seq : Byte) (u : Fin 4)
  /-- CVU_CLEAR (R399): CTL.CLEAR sets MISMATCHES and FINISHES to 0. -/
  | cvuClear (p : Part) (seq : Byte) (u : Fin 4)
  /-- CVU_REARM (R402): CTL.REARM sets FIRST to 1 for the alive counter. -/
  | cvuRearm (p : Part) (seq : Byte) (u : Fin 4)
  /-- GANG_FRAME_TRANSMIT (R412): After idle and any back-off a member starts its pending gang frame and arbitrates bit by bit. -/
  | gangFrameTransmit (wins : Bool)
  /-- GANG_CAPO (R425): A correctly checked CAPO gang message triggers a capo while GANG_EN is 1. -/
  | gangCapo (dest : BitVec 4)
  /-- GANG_STATE (R419): A correctly checked STATE gang message records the sender's vote and power-good, and the gang state is judged. -/
  | gangState (dest : BitVec 4) (src : Fin 4) (num vote flags : Byte)
  /-- GANG_RPG (R424): A correctly checked RPG gang message records the sender's exported power-good. -/
  | gangRpg (dest : BitVec 4) (src : Fin 4) (rpg : Byte)
  /-- GANG_TIME (R422): A TIME gang message from the keystone steps the receiver's timebase when the difference exceeds 4 ticks. -/
  | gangTime (dest : BitVec 4) (src : Fin 4) (ticks : BitVec 48) (since : Nat)
  /-- GANG_HELLO (R416): A HELLO gang message is compared with the receiver's own values and sets the sender PRESENT or INCOMPATIBLE. -/
  | gangHello (dest : BitVec 4) (src : Fin 4) (devHi devLo format members : Byte) (digest : Word)
  /-- KEYFWD (R426): A KEYFWD gang message from a PRESENT member is posted as a REMOTE key event to the owner of the local group. -/
  | keyfwd (dest : BitVec 4) (src : Fin 4) (group typ subject flags : Byte) (ticks : BitVec 48)
  /-- STATE_PERIOD (R411): Every 50 ms a member queues its STATE message. -/
  | statePeriod
  /-- HELLO_PERIOD (R415): At the HELLO period a member queues its HELLO message. -/
  | helloPeriod
  /-- TIME_PERIOD (R422): Every TIME_EVERY × 10 ms the keystone queues a TIME message. -/
  | timePeriod
  /-- MEMBER_LOSS (R421): 300 ms pass without a correct frame from a PRESENT member, so it becomes LOST. -/
  | memberLoss (m : Fin 4)
  /-- DUPLICATE_CLEAR (R416): 300 ms pass without a frame that carries the member's own ID, so DUPLICATE clears. -/
  | duplicateClear
  /-- BUS_STUCK (R409): A gang line stays low for 1 ms outside a frame, so the member releases its drive and counts BUS_STUCK. -/
  | busStuck
  /-- GNG_VOTE_WRITE (R420): A write of GNG_VOTE sets the steward's vote, and the gang state is judged again. -/
  | gngVoteWrite (p : Part) (seq : Byte) (v : Word)
  /-- GNG_CNTCLR (R428): A write of 1 to GNG_CNTCLR.CLEAR sets GNG_COUNTS0–2 and GNG_TIME_STEPS to 0. -/
  | gngCntclr (p : Part) (seq : Byte) (v : Word)
  /-- AON_POWER_ON (R132): VAON rises from below 1.60 V on VMAIN or VBAK, so AON state takes its reset values, COLD is set, the timebase starts at 0 on RC32 and the device is in OFF. -/
  | aonPowerOn
  /-- RETURN_HOLD_BREAK (R141): VMAIN falls below RETURN during the return hold, and the hold is abandoned until VMAIN rises again. -/
  | returnHoldBreak
  /-- MAIN_ABOVE_SWITCH (R132): VMAIN rises above SWITCH while AON runs on VBAK, and the AON source moves back to VMAIN without losing a tick. -/
  | mainAboveSwitch
  /-- LUN_BUSY_END (R342): A busy LUN becomes ready, taken from CHn_RB_N or from a polled status, which ends an array read, program, erase or reset and lets transfers, cache choices and reset completion proceed. -/
  | lunBusyEnd (l : Fin 16) (re : Option Reread := none)
  /-- BUS_TRANSFER_END (R388): A data transfer on a channel bus ends, so the bus serves the next LUN with a transfer ready and a cached PROGRAM makes its next choice. -/
  | busTransferEnd (ch : Fin 4)
  /-- GANG_FRAME_DROPPED (R411): A received gang frame is malformed or fails its CRC-16, so it is dropped and CRC_ERR increases. -/
  | gangFrameDropped
  deriving DecidableEq, Repr

end Sys2Proof
end

