-- ==== Sys2Proof/Config.lean ====
section
/-! DEFINITION. What the spec leaves open: constants without a body, so that no proof can rest on a value. -/

namespace Sys2Proof.Config

/-- The die identity (03 Table 3-4): fixed in silicon, its value not given. -/
opaque uid : BitVec 64

/-- The n-th free value of a run: a value the spec does not state (DESIGN CHOICE, notes/assumptions/3.md).
The counter is the field freeCtr of State. -/
opaque freeValue : Nat → Nat

/-- What a block uses in place of a configuration word in force that fails parity, where its chapter states no value
(01 R40; DEDUCED, notes/assumptions/12.md): from the word's address and what it holds. -/
opaque standIn : Nat → Word → Word

/-- Byte i of the LDPC parity of a codeword, for the given parity length (12 R350): the code is not given. -/
opaque ldpcParity : Nat → List Byte → Nat → Byte

/-- The lines of a frame run from the panel's last row at this level of EGDIR (09 R252): the direction of a level is not
stated. -/
opaque gateReversed : Bool → Bool

/-- The speed FLW computes for a tach period of 0 us (07 R200): no result is stated. -/
opaque speedOfZeroPeriod : Nat → Nat

/-- The ageing band where SPEED_FULL is 0 (07 R210): no result is stated. -/
opaque bandOfZeroFull : Nat → Nat

end Sys2Proof.Config
end

