-- ==== Sys2Proof/Machine/Operands.lean ====
section
/-! DEFINITION. Operand forms: bit fields of words, byte order on wires and in the buffer space, signed
fields, saturating counters, the frame CRCs, and the sparse store (a list of key and value pairs in one canonical form). -/

namespace Sys2Proof.Machine

/-- Bits [lo+n-1:lo] of a word as a number. -/
def fld {w : Nat} (x : BitVec w) (lo n : Nat) : Nat := (x.toNat >>> lo) % 2 ^ n

/-- Bit i of a word. -/
def bit {w : Nat} (x : BitVec w) (i : Nat) : Bool := x.toNat.testBit i

/-- One field of a word under construction: lowest bit, width, value. -/
abbrev Fields := List (Nat × Nat × Nat)

/-- The number whose fields (lowest bit, width, value) are as listed; every other bit is 0. -/
def mkN (fs : Fields) : Nat := fs.foldl (fun acc f => acc ||| ((f.2.2 % 2 ^ f.2.1) <<< f.1)) 0

/-- A register word from its fields. -/
def mkW (fs : Fields) : Word := BitVec.ofNat 32 (mkN fs)

/-- The mask of bits [lo+n-1:lo]. -/
def maskW (lo n : Nat) : Word := BitVec.ofNat 32 ((2 ^ n - 1) <<< lo)

/-- Replace bits [lo+n-1:lo] of a word. -/
def putFld (x : Word) (lo n v : Nat) : Word :=
  (x &&& ~~~(maskW lo n)) ||| BitVec.ofNat 32 ((v % 2 ^ n) <<< lo)

/-- The bits of x under the mask, the bits of old elsewhere (02 R54, 00 R16). -/
def blend (old x m : Word) : Word := (old &&& ~~~m) ||| (x &&& m)

/-- 1 for true. -/
def b2n (b : Bool) : Nat := if b then 1 else 0

/-- A counter that stops at its largest value. -/
def sat (mx n : Nat) : Nat := if n ≤ mx then n else mx

/-- The code of a 12-bit conversion: pin voltage ÷ 2.500 V × 4,096, rounded down and saturating (06 R161, 07 R190). The
voltage is in uV. -/
def adcCode (uv : Nat) : Nat := sat 4095 (uv * 4096 / 2500000)

/-- The value of a two's-complement field of n bits. -/
def sgn (n v : Nat) : Int := if v % 2 ^ n < 2 ^ (n - 1) then (v % 2 ^ n : Nat) else (v % 2 ^ n : Nat) - (2 ^ n : Nat)

/-- A signed number as an n-bit field. -/
def unsgn (n : Nat) (i : Int) : Nat := (i % (2 ^ n : Nat)).toNat

/-- Division that rounds toward zero on integers. -/
def divZero (a b : Int) : Int := Int.tdiv a b

/-- The largest of two numbers. -/
def nmax (a b : Nat) : Nat := if a < b then b else a

/-- The smallest of two numbers. -/
def nmin (a b : Nat) : Nat := if a < b then a else b

/-- Integer limits: lo ≤ x ≤ hi. -/
def clampI (lo hi x : Int) : Int := if x < lo then lo else if hi < x then hi else x

/-- The numbers 0 to n-1. -/
def upto (n : Nat) : List Nat := List.range n

/-- The numbers of the bits set among the lowest n bits of x. -/
def bitsOf {w : Nat} (x : BitVec w) (n : Nat) : List Nat := (upto n).filter (fun i => bit x i)

/-- A bit vector from a predicate on bit numbers. -/
def bvOf (w : Nat) (f : Nat → Bool) : BitVec w :=
  BitVec.ofNat w ((upto w).foldl (fun acc i => if f i then acc + 2 ^ i else acc) 0)

/-- Set or clear bit i. -/
def setBit {w : Nat} (x : BitVec w) (i : Nat) (b : Bool) : BitVec w :=
  if b then x ||| BitVec.ofNat w (2 ^ i) else x &&& ~~~(BitVec.ofNat w (2 ^ i))

/-- Number of bits set. -/
def popcnt {w : Nat} (x : BitVec w) : Nat := (bitsOf x w).length

/-- The lowest bit set, or d. -/
def lowest {w : Nat} (x : BitVec w) (d : Nat) : Nat := (bitsOf x w).headD d

/-- Bytes of a word, most significant first (02 R50). -/
def beBytes (w : Word) : List Byte :=
  [BitVec.ofNat 8 (fld w 24 8), BitVec.ofNat 8 (fld w 16 8), BitVec.ofNat 8 (fld w 8 8), BitVec.ofNat 8 (fld w 0 8)]

/-- A number from bytes, most significant first. -/
def beNat (bs : List Byte) : Nat := bs.foldl (fun acc b => acc * 256 + b.toNat) 0

/-- A number from bytes, least significant first (00 R13). -/
def leNat : List Byte → Nat
  | [] => 0
  | b :: bs => b.toNat + 256 * leNat bs

/-- n bytes of a number, least significant first (00 R13). -/
def leBytes : Nat → Nat → List Byte
  | 0, _ => []
  | n + 1, v => BitVec.ofNat 8 v :: leBytes n (v / 256)

/-- A list of bytes read as register words, most significant byte first. -/
def beWords : List Byte → List Word
  | a :: b :: c :: d :: rest => BitVec.ofNat 32 (beNat [a, b, c, d]) :: beWords rest
  | _ => []

/-- A list of bytes read as words, least significant byte first. -/
def leWords : List Byte → List Word
  | a :: b :: c :: d :: rest => BitVec.ofNat 32 (leNat [a, b, c, d]) :: leWords rest
  | _ => []

/-- Do f n times. -/
def iter {α : Type} (f : α → α) : Nat → α → α
  | 0, a => a
  | n + 1, a => iter f n (f a)

/-- One shift of the frame CRC-16 (02 R57). -/
def crc16Shift (c : Nat) : Nat :=
  if 32768 ≤ c then ((c * 2) ^^^ 4129) % 65536 else c * 2

/-- One byte of the frame CRC-16 (02 R57): polynomial 0x1021, not reflected. -/
def crc16Byte (c : Nat) (b : Byte) : Nat := iter crc16Shift 8 (c ^^^ (b.toNat * 256))

/-- The frame CRC-16 over bytes, from 0xFFFF (02 R57). -/
def crc16 (bs : List Byte) : Nat := bs.foldl crc16Byte 65535

/-- One byte of the SMBus CRC-8, polynomial 0x07 (02 R68). -/
def crc8Byte (c : Nat) (b : Byte) : Nat :=
  iter (fun c => if 128 ≤ c then ((c * 2) ^^^ 7) % 256 else c * 2) 8 (c ^^^ b.toNat)

/-- The PEC over bytes (02 R68). -/
def crc8 (bs : List Byte) : Nat := bs.foldl crc8Byte 0

/-- One byte of the reflected CRC-32C, polynomial 0x1EDC6F41 (02 R55). -/
def crc32cByte (c : Nat) (b : Byte) : Nat :=
  iter (fun c => if c % 2 = 1 then (c / 2) ^^^ 0x82F63B78 else c / 2) 8 (c ^^^ b.toNat)

/-- The CRC-32C over bytes: initial value and final XOR 0xFFFF_FFFF (02 R55). -/
def crc32c (bs : List Byte) : Nat := (bs.foldl crc32cByte 0xFFFFFFFF) ^^^ 0xFFFFFFFF

/-- The value of key k in a sparse store whose unlisted keys hold d. -/
def sget {α : Type} (d : Nat → α) : List (Nat × α) → Nat → α
  | [], k => d k
  | (a, v) :: m, k => if a = k then v else sget d m k

/-- Write key k: keys stay strictly rising and no entry equals what its key holds unlisted. -/
def sset {α : Type} [DecidableEq α] (d : Nat → α) : List (Nat × α) → Nat → α → List (Nat × α)
  | [], k, v => if v = d k then [] else [(k, v)]
  | (a, w) :: m, k, v =>
    if k < a then (if v = d k then (a, w) :: m else (k, v) :: (a, w) :: m)
    else if k = a then (if v = d k then m else (k, v) :: m)
    else (a, w) :: sset d m k v

/-- The canonical form: keys above lo, strictly rising, and no entry equal to its unlisted value. -/
def swfFrom {α : Type} [DecidableEq α] (d : Nat → α) : Nat → List (Nat × α) → Bool
  | _, [] => true
  | lo, (a, v) :: m => decide (lo ≤ a) && decide (v ≠ d a) && swfFrom d (a + 1) m

/-- The store is in canonical form. -/
def swf {α : Type} [DecidableEq α] (d : Nat → α) (m : List (Nat × α)) : Bool := swfFrom d 0 m

/-- Write a run of consecutive keys. -/
def ssetRun {α : Type} [DecidableEq α] (d : Nat → α) (m : List (Nat × α)) (k : Nat) : List α → List (Nat × α)
  | [] => m
  | v :: vs => ssetRun d (sset d m k v) (k + 1) vs

/-- Read n consecutive keys. -/
def sgetRun {α : Type} (d : Nat → α) (m : List (Nat × α)) (k : Nat) : Nat → List α
  | 0 => []
  | n + 1 => sget d m k :: sgetRun d m (k + 1) n

/-- Return every key in [lo, hi) to its unlisted value. -/
def sclear {α : Type} (m : List (Nat × α)) (lo hi : Nat) : List (Nat × α) :=
  m.filter (fun e => decide (e.1 < lo) || decide (hi ≤ e.1))

/-- Add a number to a strictly rising list. -/
def insertNat (k : Nat) : List Nat → List Nat
  | [] => [k]
  | a :: l => if k < a then k :: a :: l else if k = a then a :: l else a :: insertNat k l

/-- The n-th element, or the default of its type. -/
def nth {α : Type} (l : List α) (i : Nat) (d : α) : α := l.getD i d

/-- Change the n-th element. -/
def upd {α : Type} (l : List α) (i : Nat) (f : α → α) : List α :=
  match l, i with
  | [], _ => []
  | a :: l, 0 => f a :: l
  | a :: l, i + 1 => a :: upd l i f

end Sys2Proof.Machine
end

