-- ==== Sys2Proof/Machine/RegMap.lean ====
section
/-! DEFINITION. The register map: every register of Tables 16-2 to 16-16 with its reset value and its fields, each with
its bits, access code, owner and the resource it concerns (00 R16, 04 R101, R102, 16 R429-R437). -/

namespace Sys2Proof.Machine

/-- An assignable resource (04 Table 4-2). Key resources 8 to 10 are ENC0 to ENC2; blink region k stands for the panel
region that EPD_BLINKk_CFG.PREG names (10 R292). -/
inductive Res where
  | rail (r : Nat) | flow (n : Nat) | key (g : Nat) | panel (r : Nat) | ns (s : Nat) | sfr (k : Nat) | cvu (u : Nat)
  | blink (k : Nat)
  deriving DecidableEq, Repr

/-- Who may write a field (04 R101, R102): every partition for itself, one partition, P0, or the owner of a resource. -/
inductive Own where
  | any | part (p : Nat) | steward | owner (r : Res)
  deriving DecidableEq, Repr

/-- Access codes (00 Table 0-6); LK joins another code as a flag. -/
inductive Acc where
  | ro | rw | wo | w1c | st
  deriving DecidableEq, Repr

/-- One field, or several fields of a register that behave alike. -/
structure FieldS where
  mask : Word
  acc : Acc
  lk : Bool := false
  own : Own := .steward
  conc : Option Res := none
  deriving DecidableEq, Repr

/-- One register: its reset value and its fields. Bits in no field are reserved. -/
structure RegSpec where
  reset : Word := 0
  fs : List FieldS
  deriving DecidableEq, Repr

/-- Bits of one or more (lowest bit, width) ranges. -/
def bitsM (rs : List (Nat × Nat)) : Word := rs.foldl (fun m r => m ||| maskW r.1 r.2) 0

/-- All 32 bits. -/
def allBits : Word := 0xFFFFFFFF

/-- The owner of a field that concerns r where the chapter gives it to that owner, and P0 otherwise. -/
def ownOf : Option Res → Own
  | none => .steward
  | some r => .owner r

/-- Read-only field, of P0 whatever it concerns: no chapter but 11 gives a read-only field to an owner (04 R102). -/
def fRo (m : Word) (c : Option Res := none) : FieldS := { mask := m, acc := .ro, conc := c }
/-- Read-only field of a setup flash channel, which belongs to the channel's owner (11 R306). -/
def fRoCh (m : Word) (c : Option Res) : FieldS := { mask := m, acc := .ro, own := ownOf c, conc := c }
/-- Read-only window or block word, which no partition is refused. -/
def fRoAny (m : Word) : FieldS := { mask := m, acc := .ro, own := .any }
/-- Steward field, staged and locked. -/
def fStLk (m : Word) (c : Option Res := none) : FieldS := { mask := m, acc := .st, lk := true, conc := c }
/-- Staged field of a resource's owner. -/
def fSt (m : Word) (r : Res) : FieldS := { mask := m, acc := .st, own := .owner r, conc := some r }
/-- Locked field of P0. -/
def fLk (m : Word) : FieldS := { mask := m, acc := .rw, lk := true }
/-- Read-write field. -/
def fRw (m : Word) (o : Own := .steward) (c : Option Res := none) : FieldS := { mask := m, acc := .rw, own := o, conc := c }
/-- Write-only field. -/
def fWo (m : Word) (o : Own := .steward) (c : Option Res := none) : FieldS := { mask := m, acc := .wo, own := o, conc := c }
/-- Write-1-to-clear field. -/
def fW1c (m : Word) (o : Own := .steward) (c : Option Res := none) : FieldS := { mask := m, acc := .w1c, own := o, conc := c }

/-- A register from its reset value and fields. -/
def reg (reset : Word) (fs : List FieldS) : Option RegSpec := some { reset, fs }
/-- A read-only register whose value the model computes. -/
def roReg (m : Word) : Option RegSpec := some { fs := [fRo m] }
/-- A register with a CLEAR bit at [0]. -/
def clrReg : Option RegSpec := some { fs := [fWo 1] }
/-- The RUNNING word at offset 0x0FE (03 Table 3-5). -/
def courseReg : Option RegSpec := roReg (maskW 0 17)

/-- Sender and receiver of mailbox n (04 Table 4-3). -/
def mbxSender (n : Nat) : Nat := n / 3
/-- Receiver of mailbox n. -/
def mbxReceiver (n : Nat) : Nat := if n % 3 < n / 3 then n % 3 else n % 3 + 1

/-- The bits of the capability fields of DEV_CAP k (00 Table 0-3). -/
def capMask (k : Nat) : Word :=
  nth [maskW 0 9, maskW 0 16, maskW 0 24, maskW 0 12, maskW 0 12, maskW 0 20, allBits, maskW 0 12, maskW 0 20, maskW 0 16,
    maskW 0 24, maskW 0 8, maskW 0 20, maskW 0 24, maskW 0 4, maskW 0 8] k 0

/-- DEV (16 Table 16-2, 03 Table 3-5, Table 3-6). -/
def devReg (o : Nat) : Option RegSpec :=
  if o = 0 then reg 0x0E0900B1 [fRo (bitsM [(0, 8), (16, 16)])]
  else if o = 1 ∨ o = 2 then roReg allBits
  else if 0x10 ≤ o ∧ o < 0x20 then roReg (capMask (o - 0x10))
  else if o = 0x40 then reg 0 [fWo 0xFF .any]
  else if o = 0x41 then roReg (maskW 0 26)
  else if o = 0x42 then roReg (bitsM [(0, 4), (8, 8), (16, 4)])
  else if o = 0x43 then reg 0x3E8 [fLk (maskW 0 16)]
  else if o = 0x44 then roReg (maskW 0 9)
  else if o = 0x46 then roReg allBits
  else if 0x48 ≤ o ∧ o < 0x50 then (if o % 2 = 0 then roReg (maskW 0 28) else roReg (bitsM [(0, 14), (16, 8)]))
  else if o = 0x50 then reg 0 [fWo 1 .any]
  else if o = 0x51 then roReg (maskW 0 16)
  else if o = 0x52 then clrReg
  else if o = 0x53 then reg 0x51 [fLk (bitsM [(0, 8), (16, 8)])]
  else if o = 0x54 then roReg (bitsM [(0, 2), (4, 12)])
  else if o = 0x60 then roReg allBits
  else if o = 0x61 then roReg (maskW 0 16)
  else if o = 0x62 then reg 0 [fWo 1 .any]
  else if o = 0x63 then reg 0 [fRoAny allBits]
  else if o = 0x64 then reg 0 [fRoAny (maskW 0 16)]
  else if o = 0x70 ∨ o = 0x71 then roReg (maskW 0 16)
  else if o = 0xFE then courseReg
  else if o = 0xFF then reg 0 []
  else none

/-- PART (04 Table 4-8, Table 4-9). PART_BLKSTAT has no bits, but belongs to P0 like every PART register that no partition is
bound to (04 R102). -/
def partReg (o : Nat) : Option RegSpec :=
  if o = 0 then reg 0 [fLk 1]
  else if o = 0x10 then reg 0 [fLk (maskW 0 20)]
  else if o = 0x11 then reg 0 [fLk (maskW 0 12)]
  else if o = 0x12 then reg 0 [fLk (maskW 0 22)]
  else if o = 0x13 then reg 0 [fLk (maskW 0 8)]
  else if o = 0x14 then reg 0 [fLk allBits]
  else if o = 0x15 then reg 0 [fLk (maskW 0 16)]
  else if o = 0x16 then reg 0 [fLk (maskW 0 8)]
  else if o = 0x17 then reg 0xFFF [fLk (maskW 0 12)]
  else if o = 0x18 then reg 0 [fLk (maskW 0 24)]
  else if 0x20 ≤ o ∧ o ≤ 0x26 then reg 0 [fLk (maskW 0 (nth [10, 6, 11, 4, 16, 8, 4] (o - 0x20) 0))]
  else if 0x30 ≤ o ∧ o < 0x34 then
    reg (nth [0x00800000, 0x00800080, 0x00800100, 0x00800180] (o - 0x30) 0) [fRw (bitsM [(0, 9), (16, 10)])]
  else if 0x40 ≤ o ∧ o < 0x44 then reg (if o = 0x43 then 0x00400000 else 0x01000100) [fRw (bitsM [(0, 11), (16, 11)])]
  else if o = 0x44 then roReg (bitsM [(0, 11), (16, 11)])
  else if 0x48 ≤ o ∧ o < 0x4C then roReg (bitsM [(0, 11), (16, 16)])
  else if o = 0x50 then reg 0x1448 [fRw (maskW 0 16)]
  else if o = 0x51 then reg 0x10101010 [fRw 0x7F7F7F7F]
  else if 0x60 ≤ o ∧ o < 0x64 then reg (if o = 0x60 then 0x31F01 else 0x31F00) [fLk (bitsM [(0, 1), (8, 14)])]
  else if 0x64 ≤ o ∧ o < 0x68 then reg 0 [fWo (maskW 0 9) (.part (o - 0x64))]
  else if 0x68 ≤ o ∧ o < 0x6C then roReg (bitsM [(0, 5), (8, 8), (16, 13)])
  else if 0x70 ≤ o ∧ o < 0x74 then reg 3 [fLk 3]
  else if o = 0x74 then reg 0 [fWo (maskW 0 4) .any]
  else if o = 0x75 then roReg (maskW 0 4)
  else if o = 0x76 then roReg allBits
  else if o = 0x77 then roReg (maskW 0 16)
  else if o = 0xFE then courseReg
  else if o = 0xFF then roReg 0
  else none

/-- PORT (02 Table 2-12 to Table 2-17). -/
def portReg (o : Nat) : Option RegSpec :=
  if o = 0xFE then roReg allBits
  else if o = 0xFF then roReg (maskW 0 4)
  else if o < 0x40 then
    let n := o / 16
    let k := o % 16
    if k = 0 then (if n = 3 then reg 3 [fLk 3] else reg 0x6000 [fRw (bitsM [(0, 2), (8, 8)]) (.part n)])
    else if k = 1 then (if n = 3 then none else reg 0xA1A [fLk (bitsM [(0, 6), (8, 8)])])
    else if k = 2 then (if n = 3 then roReg (bitsM [(0, 7), (8, 17)]) else roReg (bitsM [(0, 3), (8, 16)]))
    else if k = 6 then reg 0 [fWo 1 .any]
    else if k ≤ 8 then roReg allBits
    else none
  else none

/-- MBX (04 Table 4-11). -/
def mbxReg (o : Nat) : Option RegSpec :=
  if o = 0xFE then courseReg
  else if o = 0xFF then reg 0 []
  else if o < 0x30 then
    let n := o / 4
    let k := o % 4
    if k = 0 then reg 0 [fWo 1 (.part (mbxSender n))]
    else if k = 1 then reg 0 [fWo (maskW 0 4) (.part (mbxReceiver n))]
    else if k = 2 then roReg (bitsM [(0, 10), (12, 3), (16, 16)])
    else roReg allBits
  else if o < 0x34 then roReg (maskW 0 4)
  else none

/-- IRQ (04 Table 4-10, R128). -/
def irqReg (o : Nat) : Option RegSpec :=
  if o = 0xFE then reg 0 [fRoAny (maskW 0 17)]
  else if o = 0xFF then reg 0 []
  else if o < 0x100 then
    let p := o / 64
    let k := o % 64
    let own := Own.part p
    if k < 2 then reg 0 [fW1c allBits own]
    else if k < 6 then reg 0 [fRw allBits own]
    else if k = 6 then reg 1 [fRw (bitsM [(0, 8), (16, 16)]) own]
    else if k = 7 then reg 0 [{ mask := bitsM [(0, 1), (8, 8), (16, 7)], acc := .ro, own := own }]
    else if k = 8 then reg 0 [{ mask := allBits, acc := .ro, own := own }]
    else none
  else none

/-- PWR (05 Table 5-8 to Table 5-10, 01 Table 1-6). -/
def pwrReg (o : Nat) : Option RegSpec :=
  if o = 0 then roReg (maskW 0 5)
  else if o = 1 then roReg (bitsM [(0, 12), (16, 13)])
  else if o = 2 then reg 0x05373C28 [fLk allBits]
  else if o = 3 then reg 0x6403 [fLk (bitsM [(0, 2), (8, 8)])]
  else if o = 4 then reg 0x03E80000 [fWo 1, fRo 2, fW1c 4, fRw (maskW 16 16)]
  else if o = 5 then reg 0xA01 [fRw (bitsM [(0, 1), (8, 8)])]
  else if o = 8 then reg 0x3FF [fRw (maskW 0 10)]
  else if o = 9 then reg 0xFFFF03FF [fRw (bitsM [(0, 10), (16, 16)])]
  else if o = 0xA then reg 0 [fRw allBits]
  else if o = 0xB then reg 0 [fRw (maskW 0 17), fW1c (maskW 17 1)]
  else if o = 0x10 then reg 0 [fRo (bitsM [(0, 2), (8, 16)]), fW1c (maskW 2 2)]
  else if o = 0x11 then roReg (bitsM [(0, 3), (4, 3), (8, 3), (12, 2)])
  else if o = 0x12 then roReg (bitsM [(0, 4), (8, 8)])
  else if o = 0x13 then reg 0 [fW1c 3]
  else if o = 0x14 then roReg allBits
  else if o = 0x15 then clrReg
  else if o = 0x16 then reg 0xF [fLk (bitsM [(0, 4), (8, 4), (16, 4)])]
  else if o = 0x17 then reg 1 [fLk (maskW 0 10)]
  else if o = 0x18 then roReg 1
  else if o = 0x19 then reg 0 [fWo (maskW 0 16)]
  else if o = 0x1A then roReg 3
  else if 0x40 ≤ o ∧ o < 0x60 then reg 0 [fRw allBits]
  else if o = 0xFE then courseReg
  else if o = 0xFF then roReg 1
  else none

/-- One field per rail: bits lo + r of rails 0 to 9. -/
def perRail (mk : Word → Res → FieldS) (los : List Nat) : List FieldS :=
  (upto 10).map (fun r => mk (bitsM (los.map (fun lo => (lo + r, 1)))) (.rail r))

/-- SEQ (06 Table 6-7 to Table 6-11). -/
def seqReg (o : Nat) : Option RegSpec :=
  if o < 0x50 then
    let r := o / 8
    let k := o % 8
    if k = 0 then reg (if r = 0 then 0x30000 else 0x20000) [fStLk (maskW 0 19) (some (.rail r))]
    else if k = 1 then reg 0x0A000000 [fSt (bitsM [(0, 10), (12, 10), (24, 8)]) (.rail r)]
    else if k = 2 then reg 0xA0A00 [fStLk (bitsM [(0, 3), (4, 3), (8, 16)]) (some (.rail r))]
    else if k = 3 then reg 0xA00 [fStLk (bitsM [(0, 2), (4, 3), (8, 10)]) (some (.rail r))]
    else if k = 4 then reg 0 [fRo (bitsM [(0, 9), (10, 17), (28, 3)]) (some (.rail r))]
    else if k = 5 then reg 0 [fRo allBits (some (.rail r))]
    else none
  else if 0x60 ≤ o ∧ o < 0x78 then
    let k := o % 4
    if k = 0 then reg 0x10 [fStLk (bitsM [(0, 1), (4, 4)])]
    else if k = 1 then reg 0x0FFF0000 [fStLk (bitsM [(0, 12), (16, 12)])]
    else if k = 2 then roReg (maskW 0 13)
    else none
  else if o = 0x80 then reg 0 (perRail (fun m r => fWo m (.owner r) (some r)) [0, 16])
  else if o = 0x81 then reg 0 [fWo (bitsM [(0, 4), (8, 4)])]
  else if o = 0x82 then reg 0 (perRail (fun m r => fRo m (some r)) [0] ++ [fRo (maskW 10 10)])
  else if o = 0x83 then reg 0 [fStLk (maskW 0 10)]
  else if o = 0x84 then reg 0 (perRail (fun m r => fRo m (some r)) [16] ++ [fRo (bitsM [(0, 2), (4, 4)])])
  else if o = 0x85 then clrReg
  else if 0x88 ≤ o ∧ o < 0x90 then (if o % 2 = 0 then roReg (bitsM [(0, 4), (4, 3), (8, 3), (16, 16)]) else roReg allBits)
  else if o = 0xFE then courseReg
  else if o = 0xFF then reg 0 (perRail (fun m r => fRo m (some r)) [0, 16])
  else none

/-- THM (07 Table 7-4, Table 7-5). -/
def thmReg (o : Nat) : Option RegSpec :=
  if o = 0 then reg 5 [fStLk (maskW 0 7)]
  else if o = 1 then roReg (maskW 0 16)
  else if o ≤ 4 then roReg allBits
  else if o = 5 then clrReg
  else if 8 ≤ o ∧ o < 0x1A then
    (if (o - 8) % 9 = 8 then reg 0x7FFF [fStLk (maskW 0 16)] else reg 0x7FFF7FFF [fStLk allBits])
  else if 0x20 ≤ o ∧ o < 0x28 then reg 0x96D83241 [fStLk (bitsM [(0, 2), (4, 28)])]
  else if 0x28 ≤ o ∧ o < 0x30 then roReg allBits
  else if 0x30 ≤ o ∧ o < 0x34 then reg 0x147FFF00 [fStLk allBits]
  else if 0x34 ≤ o ∧ o < 0x38 then roReg (bitsM [(0, 19), (20, 3), (24, 4)])
  else if o = 0xFE then courseReg
  else if o = 0xFF then roReg (bitsM [(0, 11), (16, 8)])
  else none

/-- One field per flow channel: bits lo + n of channels 0 to 5. -/
def perFlow (los : List Nat) : List FieldS :=
  (upto 6).map (fun n => fRo (bitsM (los.map (fun lo => (lo + n, 1)))) (some (.flow n)))

/-- FLW (07 Table 7-6 to Table 7-10). -/
def flwReg (o : Nat) : Option RegSpec :=
  if o < 0x60 then
    let n := o / 16
    let k := o % 16
    let r := Res.flow n
    if k = 0 then reg 0x1400 [fSt (bitsM [(0, 3), (8, 7)]) r]
    else if k = 1 then reg 0x100100 [fSt allBits r]
    else if k = 2 then reg 0x7864503C [fSt allBits r]
    else if k ≤ 4 then reg 0 [fSt allBits r]
    else if k = 5 then reg 0 [fRw (maskW 0 16) (.owner r) (some r)]
    else if k = 6 then
      (if n < 4 then reg 0x441901 [fStLk (bitsM [(0, 2), (8, 8), (16, 7), (24, 2)]) (some r)]
       else reg 0x440001 [fStLk (bitsM [(0, 2), (16, 7), (24, 2)]) (some r)])
    else if k = 7 then reg 0x3E8FA000 [fStLk (maskW 0 30) (some r)]
    else if k = 8 then reg 0xC81E0000 [fStLk allBits (some r)]
    else if k = 9 then
      (if n < 4 then reg 0x143C19 [fStLk (maskW 0 24) (some r)]
       else reg 0x3FF0000 [fStLk (bitsM [(0, 10), (16, 10)]) (some r)])
    else if k = 10 then reg 0x80A1770 [fStLk (bitsM [(0, 23), (24, 8)]) (some r)]
    else if k = 11 then
      reg 0 [fRo (bitsM [(0, 3), (4, 4), (9, 3), (24, 8)]) (some r),
             fW1c (bitsM [(8, 1), (16, 8)]) (.owner r) (some r)]
    else if k = 12 then reg 0 [fRo (maskW 0 26) (some r)]
    else none
  else if o < 0x90 then reg 0 [fRw allBits .steward (some (.flow ((o - 0x60) / 8)))]
  else if o = 0xA0 then reg 0 (perFlow [0, 8, 16, 24])
  else if o = 0xA1 then reg 0 ((upto 4).map (fun n => fRo (maskW (8 * n) 8) (some (.flow n))))
  else if o = 0xA2 then reg 0 ((upto 2).map (fun n => fRo (maskW (8 * n) 8) (some (.flow (n + 4)))))
  else if o = 0xA3 then clrReg
  else if o = 0xFE then courseReg
  else if o = 0xFF then reg 0 (perFlow [0] ++ [fRo (maskW 8 2)])
  else none

/-- KEY (08 Table 8-8 to Table 8-10). -/
def keyReg (o : Nat) : Option RegSpec :=
  if o = 0 then reg 0x3FF0408 [fStLk (bitsM [(0, 6), (8, 5), (16, 10)])]
  else if o = 1 then roReg (bitsM [(0, 2), (4, 12)])
  else if o = 2 then roReg allBits
  else if o = 3 then clrReg
  else if 8 ≤ o ∧ o < 0x10 then reg 0x1E3C1E14 [fSt (maskW 0 31) (.key (o - 8))]
  else if o = 0x10 then reg 0x22222222 ((upto 8).map (fun g => fSt (maskW (4 * g) 4) (.key g)))
  else if o = 0x20 then reg 0xA5001E [fStLk (bitsM [(0, 12), (16, 12)])]
  else if o = 0x21 then reg 0xA [fStLk (maskW 0 12)]
  else if o = 0x22 ∨ o = 0x23 then roReg allBits
  else if 0x30 ≤ o ∧ o < 0x40 then roReg (maskW 0 28)
  else if 0x40 ≤ o ∧ o < 0x68 then reg 0 [fStLk 0x3F3F3F3F]
  else if 0x68 ≤ o ∧ o < 0x72 then roReg allBits
  else if o = 0x78 then reg 0 [fWo 3]
  else if o = 0x79 then roReg (bitsM [(0, 1), (4, 20)])
  else if o = 0x7A then reg 0x140000 [fStLk (bitsM [(0, 4), (8, 16)])]
  else if 0x80 ≤ o ∧ o < 0x90 then (if o % 2 = 0 then reg 0xFFFFFFFF [fStLk allBits] else reg 0xA [fStLk (maskW 0 7)])
  else if 0x90 ≤ o ∧ o < 0x9C then
    let n := (o - 0x90) / 4
    let k := o % 4
    let r := Res.key (8 + n)
    if k = 0 then reg 0xA0404 [fSt (bitsM [(0, 4), (8, 4), (16, 9)]) r]
    else if k = 1 then reg 0 [fRo allBits (some r)]
    else if k = 2 then reg 0 [fRo (maskW 0 16) (some r)]
    else none
  else if 0xA0 ≤ o ∧ o < 0xB0 then reg 0 [fRoAny allBits]
  else if o = 0xB0 then reg 0 [fRoAny (bitsM [(0, 7), (8, 8)])]
  else if o = 0xB1 then reg 0 [fWo (maskW 0 7) .any]
  else if o = 0xB4 then roReg allBits
  else if o = 0xFE then courseReg
  else if o = 0xFF then reg 0 ((upto 8).map (fun g => fRo (maskW g 1) (some (.key g))) ++ [fRo (bitsM [(8, 1), (12, 2)])])
  else none

/-- One field per panel region: bits lo + r of regions 0 to 3. -/
def perPanel (mk : Word → Res → FieldS) (los : List Nat) : List FieldS :=
  (upto 4).map (fun r => mk (bitsM (los.map (fun lo => (lo + r, 1)))) (.panel r))

/-- EPD (09 Table 9-6 to Table 9-8, 10 Table 10-7, Table 10-8). -/
def epdReg (o : Nat) : Option RegSpec :=
  if o = 0 then reg 0 [fStLk 7]
  else if o = 1 then reg 0x1E00280 [fStLk (bitsM [(0, 10), (16, 9)])]
  else if o = 2 then reg 0x243208 [fStLk (maskW 0 24)]
  else if o = 3 then reg 0x3201E0 [fStLk (maskW 0 24)]
  else if o = 4 then reg 0 [fStLk (maskW 0 6)]
  else if o = 8 then reg 0x140A0A04 [fStLk (bitsM [(0, 4), (8, 24)])]
  else if o = 9 then reg 0 [fStLk (maskW 0 8)]
  else if 0x10 ≤ o ∧ o < 0x18 then reg 0x7F [fStLk (maskW 0 24)]
  else if o = 0x18 then reg 0xD80001 [fStLk (bitsM [(0, 4), (8, 20)])]
  else if 0x20 ≤ o ∧ o < 0x28 then
    let r := (o - 0x20) / 2
    reg (if o = 0x20 then 0x27F0000 else if o = 0x21 then 0x1DF0000 else 1)
      [fStLk (bitsM [(0, 10), (16, 10)]) (some (.panel r))]
  else if o = 0x28 then reg 0 (perPanel (fun m r => fWo m (.owner r) (some r)) [0, 8])
  else if o = 0x29 then reg 0 ([fRo (bitsM [(0, 3), (12, 5), (20, 12)])] ++ perPanel (fun m r => fRo m (some r)) [4, 8])
  else if o = 0x2A then roReg (bitsM [(0, 5), (8, 3), (16, 16)])
  else if o = 0x2B then roReg (maskW 0 16)
  else if o = 0x2C then roReg allBits
  else if o = 0x2D then roReg (maskW 0 24)
  else if o = 0x2E then clrReg
  else if 0x30 ≤ o ∧ o < 0x40 then reg 0 [fRo allBits (some (.panel ((o - 0x30) / 4)))]
  else if 0x40 ≤ o ∧ o < 0x44 then roReg allBits
  else if o = 0x50 then reg 0x1101 [fStLk (bitsM [(0, 3), (8, 3), (12, 3)])]
  else if o = 0x51 then reg 0 [fStLk allBits]
  else if o = 0x52 then reg 0x1F [fStLk (bitsM [(0, 5), (8, 5), (16, 6)])]
  else if o = 0x53 then reg 0 (perPanel (fun m r => fRw m (.owner r) (some r)) [0])
  else if o = 0x54 then clrReg
  else if o = 0x55 then roReg (bitsM [(0, 3), (4, 3), (8, 3), (12, 20)])
  else if o = 0x56 then roReg (maskW 0 20)
  else if o = 0x57 then roReg allBits
  else if o = 0x58 then clrReg
  else if 0x60 ≤ o ∧ o < 0x80 then
    let r := Res.blink ((o - 0x60) / 4)
    let k := o % 4
    if k ≤ 1 then reg 1 [fSt (bitsM [(0, 10), (16, 10)]) r]
    else if k = 2 then reg 2 [fSt (bitsM [(0, 6), (7, 1), (16, 16)]) r, fStLk (maskW 8 2) (some r)]
    else reg 0 [fRo (bitsM [(0, 2), (8, 24)]) (some r)]
  else if o = 0xFE then courseReg
  else if o = 0xFF then roReg 7
  else none

/-- EFL (11 Table 11-10, Table 11-11). -/
def eflReg (o : Nat) : Option RegSpec :=
  if o = 0 then reg 4 [fStLk (bitsM [(0, 6), (8, 8)])]
  else if o = 1 then roReg (bitsM [(0, 2), (4, 10)])
  else if o = 2 ∨ o = 3 then roReg allBits
  else if o = 4 then clrReg
  else if o = 8 then roReg (bitsM [(0, 2), (4, 10)])
  else if 9 ≤ o ∧ o < 0xC then roReg allBits
  else if 0x10 ≤ o ∧ o < 0x18 then reg 0 [fRo (bitsM [(0, 10), (16, 10)]) (some (.sfr (o - 0x10)))]
  else if o = 0x18 then roReg (bitsM [(0, 10), (16, 7)])
  else if o = 0x19 then roReg (bitsM [(0, 19), (24, 8)])
  else if o = 0x1A then roReg allBits
  else if o = 0x1B then roReg (maskW 0 24)
  else if 0x20 ≤ o ∧ o < 0x70 then
    let c := (o - 0x20) / 8
    let k := o % 8
    let conc := if 1 ≤ c ∧ c ≤ 8 then some (Res.sfr (c - 1)) else none
    if k = 0 then reg 0 [fRw (maskW 0 21) (ownOf conc) conc]
    else if k = 1 then reg 0 [fWo (bitsM [(0, 4), (8, 8), (16, 9)]) (ownOf conc) conc]
    else if k = 2 then reg 0 [fRoCh (bitsM [(0, 2), (4, 11), (16, 16)]) conc]
    else if k = 3 then reg 0 [fRoCh (maskW 0 27) conc]
    else if k = 4 then reg 0 [fRoCh (bitsM [(0, 6), (8, 17)]) conc]
    else none
  else if o = 0xFE then courseReg
  else if o = 0xFF then roReg 3
  else none

/-- NFC global block (12 Table 12-9, Table 12-10, 13 Table 13-11). -/
def nfcReg (o : Nat) : Option RegSpec :=
  if o = 0 then reg 5 [fStLk (maskW 0 8)]
  else if o = 1 then roReg (bitsM [(0, 10), (16, 16)])
  else if o = 2 then reg 0x0A320A14 [fStLk allBits]
  else if o = 3 then roReg allBits
  else if o = 4 then reg 0 [fWo 3]
  else if o = 8 then reg 0 [fRw (bitsM [(0, 2), (8, 5), (16, 1)])]
  else if o = 9 then reg 0 [fStLk allBits]
  else if o = 0xA then reg 0 [fStLk 0x1F1F1F1F]
  else if o = 0xC then reg 0 [fRw (bitsM [(0, 4), (8, 7)])]
  else if o = 0xD then reg 0xFFFFFFFF [fStLk allBits]
  else if o = 0xE then roReg (maskW 0 8)
  else if 0x10 ≤ o ∧ o < 0x40 then
    let s := (o - 0x10) / 3
    if (o - 0x10) % 3 = 2 then reg 0x10000840 [fSt (maskW 0 9) (.ns s), fStLk (maskW 9 23) (some (.ns s))]
    else reg 0 [fStLk allBits (some (.ns s))]
  else if 0x40 ≤ o ∧ o < 0x44 then
    reg 0 ((upto 4).map (fun j => fRo (maskW (8 * j) 8) (some (.ns (4 * (o - 0x40) + j)))))
  else if o = 0x50 then reg 1 [fStLk 3]
  else if 0x58 ≤ o ∧ o < 0x60 then reg 0 [fRw allBits .any]
  else if o = 0x60 then reg 0 [fWo 1 .any]
  else if o = 0x61 then reg 0 [fRoAny (bitsM [(0, 4), (8, 8), (16, 10)])]
  else if o = 0x62 then reg 0x20000 [fRoAny (maskW 0 29)]
  else if o = 0x63 then reg 0 [fWo (maskW 0 9) .any]
  else if o = 0x64 then reg 0 [fRw (maskW 0 10) .any]
  else if o = 0x65 then reg 0 [fRoAny (bitsM [(0, 3), (4, 8), (16, 16)])]
  else if o = 0x66 then reg 0 [fRw (maskW 0 4) .any]
  else if o = 0x67 then roReg 0x7F7F7F7F
  else if o = 0x68 ∨ o = 0x69 then roReg allBits
  else if o = 0xFE then courseReg
  else if o = 0xFF then roReg (maskW 0 16)
  else none

/-- NFC channel sub-block (12 Table 12-11, Table 12-12). -/
def nfcChReg (o : Nat) : Option RegSpec :=
  if o = 0 then reg 0 [fStLk (bitsM [(0, 3), (4, 3), (8, 1), (12, 2)])]
  else if o = 1 then roReg (maskW 0 9)
  else if o = 2 then roReg allBits
  else if 4 ≤ o ∧ o < 8 then reg 1 [fStLk (bitsM [(0, 1), (4, 2)])]
  else if 8 ≤ o ∧ o < 0xC then roReg (bitsM [(0, 3), (4, 2), (16, 16)])
  else if 0xC ≤ o ∧ o < 0x10 then roReg (bitsM [(0, 11), (12, 20)])
  else if 0x10 ≤ o ∧ o < 0x14 then roReg (maskW 0 27)
  else if 0x14 ≤ o ∧ o < 0x18 then roReg allBits
  else if o = 0xFE then courseReg
  else if o = 0xFF then roReg (maskW 0 4)
  else none

/-- CVU (14 Table 14-3 to Table 14-5). -/
def cvuReg (o : Nat) : Option RegSpec :=
  if o < 0x40 then
    let r := Res.cvu (o / 16)
    let k := o % 16
    let own := Own.owner r
    if k = 0 then reg 0 [fWo (bitsM [(0, 6), (8, 3)]) own (some r)]
    else if k ≤ 2 then reg 0 [fWo allBits own (some r)]
    else if k = 3 then reg 0 [fRw (bitsM [(0, 2), (4, 4), (8, 9)]) own (some r)]
    else if k = 4 then reg 0xFFFFFFFF [fRw allBits own (some r)]
    else if k ≤ 6 then reg 0 [fRw allBits own (some r)]
    else if k = 7 then reg 0 [fRw (maskW 0 24) own (some r)]
    else if k = 8 then reg 0 [fRw (maskW 0 18) own (some r)]
    else if k = 9 then reg 0 [fRo allBits (some r)]
    else if k = 10 then reg 0 [fRo (bitsM [(0, 2), (4, 4), (11, 21)]) (some r), fW1c (maskW 8 3) own (some r)]
    else none
  else if o = 0xFE then courseReg
  else if o = 0xFF then reg 0 ((upto 4).map (fun u => fRo (bitsM [(u, 1), (4 + u, 1), (8 + u, 1)]) (some (.cvu u))))
  else none

/-- GNG (15 Table 15-5, Table 15-6). -/
def gngReg (o : Nat) : Option RegSpec :=
  if o = 0 then reg 0xA00 [fStLk (bitsM [(0, 3), (4, 16)])]
  else if o = 1 then reg 2 [fRw 7]
  else if o = 2 then roReg (bitsM [(0, 3), (4, 18), (24, 4)])
  else if o = 3 then roReg allBits
  else if o = 4 then roReg (maskW 0 24)
  else if 5 ≤ o ∧ o < 8 then roReg allBits
  else if o = 8 then roReg (maskW 0 16)
  else if o = 9 then clrReg
  else if 0x10 ≤ o ∧ o < 0x14 then roReg (bitsM [(0, 3), (4, 24)])
  else if 0x14 ≤ o ∧ o < 0x1C then roReg allBits
  else if o = 0xFE then courseReg
  else if o = 0xFF then roReg 3
  else none

/-- The primary register at a word address; none for a reserved word (16 R429, R433). -/
def primReg (a : Nat) : Option RegSpec :=
  let o := a % 0x200
  if o ≥ 0x100 then none
  else match a / 0x200 with
    | 0 => devReg o | 1 => partReg o | 2 => portReg o | 3 => mbxReg o | 4 => irqReg o | 5 => pwrReg o
    | 6 => seqReg o | 7 => thmReg o | 8 => flwReg o | 9 => keyReg o | 10 => epdReg o | 11 => eflReg o
    | 12 => nfcReg o | 13 => nfcChReg o | 14 => nfcChReg o | 15 => nfcChReg o | 16 => nfcChReg o
    | 17 => cvuReg o | 18 => gngReg o
    | _ => none

/-- The ST fields of a register. -/
def stFields (r : RegSpec) : List FieldS := r.fs.filter (fun f => f.acc == .st)

/-- All bits of a list of fields. -/
def fsMask (fs : List FieldS) : Word := fs.foldl (fun m f => m ||| f.mask) 0

/-- The address is a staged image (16 R430). -/
def isStaged (a : Nat) : Bool := decide (0x100 ≤ a % 0x200 ∧ a % 0x200 < 0x1C0)

/-- The register whose staged image lies at the address (16 R430). -/
def stagedReg (a : Nat) : Option RegSpec :=
  if isStaged a then
    match primReg (a - 0x100) with
    | some r => if (stFields r).isEmpty then none else some { reset := r.reset &&& fsMask (stFields r), fs := stFields r }
    | none => none
  else none

/-- Where the copies of a block's capo bank come from, from offset 0x1C4 (16 R432). -/
def capoCopies (blk : Nat) : List Nat :=
  match blk with
  | 0 => [0x42, 0x41]
  | 1 => [0x248, 0x249, 0x24A, 0x24B, 0x268, 0x269, 0x26A, 0x26B]
  | 2 => [0x403, 0x404, 0x413, 0x414, 0x423, 0x424, 0x433, 0x434]
  | 3 => (upto 12).map (fun n => 0x602 + 4 * n)
  | 4 => [0x800, 0x801, 0x840, 0x841, 0x880, 0x881, 0x8C0, 0x8C1]
  | 5 => [0xA00, 0xA01]
  | 6 => (upto 10).map (fun r => 0xC04 + 8 * r) ++ (upto 6).map (fun m => 0xC62 + 4 * m) ++ [0xC82]
  | 7 => (upto 8).map (fun s => 0xE28 + s) ++ (upto 4).map (fun g => 0xE34 + g)
  | 8 => (upto 6).map (fun n => 0x100C + 16 * n) ++ (upto 6).map (fun n => 0x100B + 16 * n)
  | 9 => [0x1268, 0x1269, 0x126A, 0x126B, 0x126C, 0x1222, 0x1291, 0x1295, 0x1299, 0x1279, 0x1201]
  | 10 => [0x1429, 0x142A, 0x1440, 0x1441, 0x1442, 0x1443] ++ (upto 8).map (fun k => 0x1463 + 4 * k)
  | 11 => [0x1601, 0x1619] ++ (upto 10).map (fun c => 0x1622 + 8 * c)
  | 12 => [0x1801, 0x1803, 0x1840, 0x1841, 0x1842, 0x1843]
  | 13 => [0x1A01, 0x1A02, 0x1A08, 0x1A09, 0x1A0A, 0x1A0B]
  | 14 => [0x1C01, 0x1C02, 0x1C08, 0x1C09, 0x1C0A, 0x1C0B]
  | 15 => [0x1E01, 0x1E02, 0x1E08, 0x1E09, 0x1E0A, 0x1E0B]
  | 16 => [0x2001, 0x2002, 0x2008, 0x2009, 0x200A, 0x200B]
  | 17 => [0x220A, 0x221A, 0x222A, 0x223A, 0x2209, 0x2219, 0x2229, 0x2239]
  | 18 => [0x2402, 0x2410, 0x2411, 0x2412, 0x2413, 0x2407]
  | _ => []

/-- The fields of the four stamp words (03 Table 3-6). -/
def stampMask (k : Nat) : Word := nth [allBits, allBits, maskW 0 21, maskW 0 17] k 0

/-- The capo bank register at an address: read-only, with the hiding of the register copied. -/
def capoReg (a : Nat) : Option RegSpec :=
  let o := a % 0x200
  if o < 0x1C0 ∨ 0x2600 ≤ a then none
  else if o < 0x1C4 then some { fs := [fRo (stampMask (o - 0x1C0))] }
  else match (capoCopies (a / 0x200))[o - 0x1C4]? with
    | some src => (primReg src).map (fun r => { fs := r.fs.map (fun f => { f with acc := .ro, own := if f.own = .any then .any else .steward }) })
    | none => none

/-- The register at any word address: primary, staged image or capo bank; none for a reserved word (16 R433;
DEDUCED, notes/assumptions/23.md). -/
def regAt (a : Nat) : Option RegSpec :=
  if 0x2600 ≤ a then none
  else if a % 0x200 < 0x100 then primReg a
  else if isStaged a then stagedReg a
  else capoReg a

/-- Virtual word addresses of the ladder entries: 0x10000 + 64 × ladder + 2 × entry + word (12 R365). -/
def ladderAddr (ladder entry word : Nat) : Nat := 0x10000 + 64 * ladder + 2 * entry + word

/-- Virtual word addresses of the substitution entries: 0x20000 + 128 × LUN + entry. -/
def bbtAddr (lun entry : Nat) : Nat := 0x20000 + 128 * lun + entry

/-- The staged image of an address: + 0x100, and for the entry windows + 0x8000. -/
def stagedOf (a : Nat) : Nat := if a < 0x10000 then a + 0x100 else a + 0x8000

/-- What a stored word holds when nothing has been written since the device reset (16 R435). -/
def regReset (a : Nat) : Word :=
  if a < 0x10000 then
    match (if isStaged a then stagedReg a else primReg a) with
    | some r => r.reset
    | none => 0
  else if a < 0x20000 then 0
  else 0xFFFFFFFF

end Sys2Proof.Machine
end

