-- ==== Sys2Proof/Machine/Types.lean ====
section
/-! DEFINITION. The parts of the state, block by block: plain data, every field at its value after a device reset. -/

namespace Sys2Proof.Machine

/-- A field captured by a course: primary word, mask, staged value (03 R83). -/
structure Carry where
  addr : Nat
  mask : Word
  val : Word
  deriving DecidableEq, Repr

/-- The course now PENDING, and the record of the latest (03 R82-R92, Table 3-5). -/
structure CourseSt where
  /-- Latest assigned number. -/
  number : Nat := 0
  blocks : BitVec 8 := 0
  owner : Part := 0
  /-- 0 IDLE, 1 PENDING, 2 COMPLETE, 3 STALLED. -/
  state : Nat := 0
  taken : BitVec 8 := 0
  blocking : Nat := 15
  /-- The stored words, staged images and owner words among them, as they stood at the commit instant (R83). -/
  image : List (Nat × Word) := []
  /-- The words that failed parity at the commit instant. -/
  imageBad : List Nat := []
  /-- The commit instant, in ticks. -/
  commitTick : Nat := 0
  /-- N of R88, from the MS in force at the commit. -/
  limit : Nat := 0
  queued : Option (BitVec 8) := none
  /-- Latest four ended courses: number, blocks, owner, outcome, ms, taken. -/
  log : List (Word × Word) := [(0, 0), (0, 0), (0, 0), (0, 0)]
  stalls : Nat := 0
  refused : Nat := 0
  /-- RUNNING of THM, FLW, KEY, EPD, SEQ, NFC, EFL, GNG. -/
  running : List Nat := [0, 0, 0, 0, 0, 0, 0, 0]
  /-- EFL banks that have taken the pending course up (11 R309). -/
  eflTaken : BitVec 2 := 0
  deriving DecidableEq, Repr

/-- The capo (03 R94-R99, Table 3-6). -/
structure CapoSt where
  seq : BitVec 16 := 0
  held : Bool := false
  missed : Nat := 0
  missedSrc : BitVec 4 := 0
  /-- The device drives CAPO low (R97). -/
  driving : Bool := false
  /-- Neither an edge on CAPO nor the device's drive has come since the device reset: PIN_LEVEL reads its reset value
  (Table 3-6, 16 R435; DESIGN CHOICE, notes/assumptions/7.md). -/
  pinReset : Bool := true
  /-- Sources triggered in the present instant: write, pin, gang, fault. -/
  trig : BitVec 4 := 0
  /-- Copies in every block's capo bank; unlisted words read 0. -/
  bank : List (Nat × Word) := []
  deriving DecidableEq, Repr

/-- DEV: parity record and timebase latches (01 R40, 03 R81). -/
structure DevSt where
  parityAddr : Nat := 0
  parityCount : Nat := 0
  latches : List (BitVec 48) := [0, 0, 0, 0]
  deriving DecidableEq, Repr

/-- One port, HP0 to HP2 or SP (02 Table 2-15, Table 2-16). -/
structure PortSt where
  width : BitVec 2 := 0
  mode3 : Bool := false
  lastStatus : Byte := 0x30
  lastSeq : Byte := 0
  frames : Word := 0
  /-- CRC, SHORT, LONG, FORMAT, DENIED, MASKED, LATE or PEC, OTHER. -/
  errs : List Nat := [0, 0, 0, 0, 0, 0, 0, 0]
  failHdr : Word := 0
  failInfo : Word := 0
  /-- The bytes the device sent in its latest response. -/
  resp : List Byte := []
  /-- SP only: whether the device acknowledged each byte of the latest transfer after its address byte, and, in a read
  frame, the read address (R69). -/
  acks : List Bool := []
  /-- HP only: the tick at which the running HRST pulse ends (R74). -/
  hrstEnd : Option Nat := none
  /-- SP only: SP_ALERT_N was released by a won Alert Response (R71). -/
  alertOff : Bool := false
  deriving DecidableEq, Repr

/-- The watchdog of one partition (04 R121-R124). -/
structure WdogSt where
  running : Bool := false
  start : Nat := 0
  /-- The timeout of the count in progress, in ticks. -/
  limit : Nat := 262144
  warned : Bool := false
  /-- Flow channels on which its failsafe request is held. -/
  held : BitVec 6 := 0
  expectA5 : Bool := false
  wrongKick : Bool := false
  expiries : Nat := 0
  /-- It has expired since its last restart (R124): an expiry without ACT_RESET restarts it at once (R121, R123). -/
  expired : Bool := false
  deriving DecidableEq, Repr

/-- PART: partition resets, watchdogs, refused submissions (04). -/
structure PartSt where
  inReset : BitVec 4 := 0
  rstCount : List Nat := [0, 0, 0, 0]
  rstCause : List Nat := [0, 0, 0, 0]
  wdog : List WdogSt := [{ running := true }, {}, {}, {}]
  slotRefused : List Nat := [0, 0, 0, 0]
  deriving DecidableEq, Repr

/-- One mailbox (04 Table 4-11). -/
structure MbxSt where
  wr : Nat := 0
  rd : Nat := 0
  held : Nat := 0
  result : Nat := 0
  next : BitVec 16 := 0
  refused : Nat := 0
  discarded : Nat := 0
  deriving DecidableEq, Repr

/-- The interrupt controller of one partition (04 R118, R119, Table 4-10). -/
structure IrqSt where
  pend : BitVec 64 := 0
  en : BitVec 64 := 0
  imm : BitVec 64 := 0
  count : Nat := 1
  time : Nat := 0
  /-- Sources whose condition has occurred in the present instant (R118). -/
  raised : BitVec 64 := 0
  /-- Active sources at the end of the latest instant. -/
  prev : BitVec 64 := 0
  /-- Pending sources at the end of the latest instant. -/
  lastPend : BitVec 64 := 0
  events : Nat := 0
  /-- Tick of the first event of the round. -/
  first : Option Nat := none
  /-- COALESCE_TIMEOUT has come in this round. -/
  timeUp : Bool := false
  summary : Bool := false
  asserts : Word := 0
  deriving DecidableEq, Repr

/-- The buffer space (01 Table 1-8, R42, R479; 02 R55). -/
structure BufSt where
  mem : List (Nat × Byte) := []
  written : BitVec 512 := 0
  guardOk : BitVec 512 := 0
  guards : List (Nat × Word) := []
  /-- Numbers of the 64-bit words marked uncorrectable. -/
  bad : List Nat := []
  /-- Numbers of the 64-bit words that hold a single-bit error, which SECDED corrects at each read (01 R39, R479). -/
  soft : List Nat := []
  /-- Single-bit errors corrected (01 R39). -/
  corrected : Nat := 0
  deriving DecidableEq, Repr

/-- Power phases (05 Table 5-2, Table 5-4): dead is VAON lost, held is stopped by RESET_N. -/
inductive Phase where
  | dead | off | sleep | refusal | held | arm | vddc | x24 | pll | backVddc | backX24 | backPll | coreStart | run
  deriving DecidableEq, Repr

/-- The always-on domain (01 Table 1-3, 05). -/
structure Aon where
  phase : Phase := .run
  srcVbak : Bool := false
  /-- VMAIN is above SWITCH. -/
  mainOk : Bool := true
  /-- Tick at which the return hold in progress started. -/
  holdStart : Option Nat := none
  warn : Bool := false
  bakValid : Bool := false
  resetLow : Bool := false
  /-- Ticks of the oscillator since AON power-on, never stepped (15 R423). -/
  osc : Nat := 0
  tbase : BitVec 48 := 0
  /-- Timebase on RC32. -/
  onRc32 : Bool := false
  goodWins : Nat := 0
  /-- AON register words by word address; unlisted words hold their reset values. -/
  regs : List (Nat × Word) := []
  stop : Nat := 0
  wake : BitVec 8 := 0x80
  cold : Bool := true
  refusedSeen : Bool := false
  switchovers : Nat := 0
  warnings : Nat := 0
  refusals : Nat := 0
  vddcFaults : Nat := 0
  deriving DecidableEq, Repr

/-- The rest of the always-on domain: wake sequence, detectors, held outputs (05 R139-R148, 06 R178, 09 R250). -/
structure AonHold where
  vddcTries : Nat := 1
  x24Tries : Nat := 1
  pllTries : Nat := 1
  outcome : Nat := 0
  straps : BitVec 2 := 0
  armed : Bool := false
  /-- Rows captured as excluded: those that held a masked key at the stop for SLEEP (08 R244). -/
  keyExcl : BitVec 10 := 0
  fsLevels : BitVec 4 := 0xF
  /-- SEN levels captured at the core stop. -/
  senCap : BitVec 10 := 0
  panelPol : BitVec 32 := 0
  panelGdir : Bool := false
  locked : Bool := false
  /-- A cold start whose first return has not completed (05 R141). -/
  coldWake : Bool := false
  /-- The alarm has fired in OFF since it was entered (05 R140). -/
  timerOff : Bool := false
  /-- A wake sequence was abandoned; its causes stand. -/
  aborted : Bool := false
  /-- The refusal state was left by a switch-over (R145). -/
  afterRefusal : Bool := false
  deriving DecidableEq, Repr

/-- PWR, the part lost with the core (05 Table 5-9, 01 Table 1-6). -/
structure PwrSt where
  doze : Bool := false
  vmain : Nat := 0
  vbak : Nat := 0
  /-- VMAIN and VBAK have been measured since the device reset (05 R134). -/
  measured : Bool := false
  rc48 : Bool := false
  pllLoss : Bool := false
  x32Fail : Bool := false
  x32Switches : Nat := 0
  pllLosses : Nat := 0
  waiting : Bool := false
  timedOut : Bool := false
  /-- A software device reset was written in this instant. -/
  devrst : Bool := false
  deriving DecidableEq, Repr

/-- Rail states (06 Table 6-3). -/
inductive RailState where
  | off | wait | delay | rising | on | drain | offDelay | discharge | minoff | retryWait | faulted | adopt
  deriving DecidableEq, Repr

/-- Take-downs, weakest first (06 R175). -/
inductive Down where
  | none | keep | retry | latch | group | sys
  deriving DecidableEq, Repr

/-- One rail (06 Table 6-3, Table 6-10). -/
structure RailSt where
  st : RailState := .off
  target : Bool := false
  latched : Bool := false
  /-- Steps since the state was entered. -/
  age : Nat := 0
  /-- The good condition in the latest step and for how many steps it has held its value. -/
  good : Bool := false
  run : Nat := 0
  pinGood : Bool := false
  tries : Nat := 0
  lastFault : Nat := 0
  nTimeout : Nat := 0
  nPin : Nat := 0
  nMon : Nat := 0
  nRetry : Nat := 0
  /-- A fault of kind 1 to 3 is recorded and its episode has not ended (R174). -/
  episode : Bool := false
  /-- The take-down that holds the rail. -/
  down : Down := .none
  /-- The faulted rail of a retry: DISCHARGE leads to RETRY_WAIT. -/
  retryTo : Bool := false
  blocking : Nat := 0
  /-- Consecutive steps ON with the good condition true (R173). -/
  onGood : Nat := 0
  deriving DecidableEq, Repr

/-- One analogue monitor (06 R161). -/
structure MonSt where
  code : Nat := 0
  inWin : Bool := false
  run : Nat := 0
  deriving DecidableEq, Repr

/-- The rail sequencer (06). -/
structure SeqSt where
  rails : List RailSt := List.replicate 10 {}
  mons : List MonSt := List.replicate 6 {}
  /-- Requests since the latest step: ON and OFF rails, in order. -/
  reqs : List (BitVec 10 × BitVec 10) := []
  /-- Watchdog actions since the latest step: 1 GROUP_OFF or 2 SYSTEM_RESET, and the group. -/
  acts : List (Nat × Nat) := []
  /-- The first step since core start is still to come (R180). -/
  first : Bool := true
  resetting : Bool := false
  rpgIn : BitVec 4 := 0
  /-- Gang state taken up in the latest step. -/
  gangPrev : Nat := 0
  rpgOut : Bool := false
  flog : List (Word × Word) := [(0, 0), (0, 0), (0, 0), (0, 0)]
  bootSource : Nat := 2
  bootReason : Nat := 0
  adopted : BitVec 10 := 0
  /-- Rails quarantined in the latest step (R481). -/
  quar : BitVec 10 := 0
  deriving DecidableEq, Repr

/-- One temperature sensor (07 R189-R193). -/
structure SenSt where
  temp : Nat := 0
  code : Nat := 0
  valid : Bool := false
  reason : Nat := 7
  /-- T of the previous sample, where the SLEW test may use it. -/
  prev : Option Int := none
  goodRun : Nat := 0
  everBad : Bool := false
  invCount : Nat := 0
  deriving DecidableEq, Repr

/-- One aggregation group (07 R194): 0 UNUSED, 1 INVALID, 2 NORMAL, 3 HOT. -/
structure GrpSt where
  state : Nat := 0
  temp : Int := -32768
  source : Nat := 0
  nValid : Nat := 0
  deriving DecidableEq, Repr

/-- THM (07). -/
structure ThmSt where
  sens : List SenSt := List.replicate 8 {}
  grps : List GrpSt := List.replicate 4 {}
  samples : Word := 0
  /-- A period has been sampled since core start. -/
  begun : Bool := false
  deriving DecidableEq, Repr

/-- The drive of one flow channel (07 R199-R209). -/
structure FlowDrive where
  u : Nat := 0
  uReq : Nat := 0
  integ : Int := 0
  source : Nat := 0
  cause : BitVec 4 := 0
  stalled : Bool := false
  stallRun : Nat := 0
  nStalls : Nat := 0
  taken : Bool := false
  ramping : Bool := false
  speed : Nat := 0
  /-- The speed was newly computed since the previous tick. -/
  fresh : Bool := false
  /-- The two latest qualified edges, in us, latest first. -/
  edges : List Nat := []
  deriving DecidableEq, Repr

/-- Ageing of one flow channel (07 R210-R213). -/
structure FlowAge where
  n : Nat := 0
  demand : Nat := 0
  sumU : Nat := 0
  sumS : Nat := 0
  acc : List Nat := List.replicate 8 0
  learnCnt : List Nat := List.replicate 8 0
  ageing : BitVec 8 := 0
  learned : BitVec 8 := 0
  deriving DecidableEq, Repr

/-- The switched output of FLOW0 to FLOW3: the period in progress (07 R196, R203, R204). Times of a period are in 1/1,000 of it. -/
structure FswSt where
  duty : Nat := 0
  freq : Nat := 25
  /-- ON time of the present period. -/
  on : Nat := 0
  /-- t_on of the stretch cycle, fixed as it begins. -/
  ton : Nat := 0
  /-- Period number within the stretch cycle, and its length; 0: no cycle runs. -/
  pos : Nat := 0
  len : Nat := 0
  pulse : Nat := 0
  debt : Nat := 0
  /-- The stretch fields or FREQ changed: the cycle restarts at the next period. -/
  restart : Bool := false
  winStart : Nat := 0
  winEnd : Nat := 0
  winEdges : List Nat := []
  deriving DecidableEq, Repr

/-- FLW (07). -/
structure FlwSt where
  drive : List FlowDrive := List.replicate 6 {}
  age : List FlowAge := List.replicate 6 {}
  fsw : List FswSt := List.replicate 4 {}
  /-- FVS0 and FVS1 output codes; none while not driven. -/
  fvs : List (Option Nat) := [none, none]
  ageSrc : Nat := 0
  deriving DecidableEq, Repr

/-- Debounce states (08 Table 8-4). -/
inductive KeyState where
  | up | pressPending | down | releasePending
  deriving DecidableEq, Repr

/-- One matrix position (08 R229-R234). -/
structure KeySt where
  st : KeyState := .up
  /-- Tick of the candidate sample. -/
  cand : Nat := 0
  /-- Release-before-report (R231). -/
  rbr : Bool := false
  /-- GHOST_HELD (R232). -/
  ghost : Bool := false
  masked : Bool := false
  /-- The partition that received its PRESS. -/
  reported : Option Part := none
  /-- Its candidate was the first sample after core start. -/
  firstCand : Bool := false
  deriving DecidableEq, Repr

/-- One column's probe result (08 R225-R227): wet state 0 DRY, 1 SUSPECT, 2 FILM. -/
structure ColSt where
  leak : Nat := 0
  common : Int := 0
  stale : Bool := false
  saturated : Bool := false
  state : Nat := 0
  deriving DecidableEq, Repr

/-- One encoder (08 R238, R239). -/
structure EncSt where
  a : Bool := false
  b : Bool := false
  count : BitVec 16 := 0
  errors : Nat := 0
  ref : BitVec 16 := 0
  vel : Int := 0
  /-- COUNT at the latest velocity updates, latest first. -/
  hist : List (BitVec 16) := []
  deriving DecidableEq, Repr

/-- One event FIFO (08 R240-R242): entries oldest first. -/
structure FifoSt where
  entries : List (Word × Word × Word × Word) := []
  nextSeq : Byte := 0
  drops : Nat := 0
  loss : Bool := false
  deriving DecidableEq, Repr

/-- The unlock matcher (08 R237). -/
structure MatchSt where
  idle : Bool := true
  step : Nat := 0
  /-- Sample tick at which the chord was first held. -/
  heldFrom : Option Nat := none
  /-- Sample tick at which the previous step ended. -/
  stepEnd : Nat := 0
  /-- Positions DOWN at the previous frame start. -/
  prevDown : BitVec 160 := 0
  deriving DecidableEq, Repr

/-- An ENC event that the frame in progress has produced and not yet posted (08 R239, R240). -/
structure EncDue where
  n : Nat
  detents : Int
  always : Bool
  vel : Nat
  tick : Nat
  deriving DecidableEq, Repr

/-- KEY (08). -/
structure KeyBlk where
  keys : List (Nat × KeySt) := []
  cols : List ColSt := List.replicate 16 {}
  /-- Wet states at the start of the frame. -/
  frameWet : List Nat := List.replicate 16 0
  suspended : BitVec 8 := 0
  encs : List EncSt := List.replicate 3 {}
  fifos : List FifoSt := List.replicate 4 {}
  mtch : MatchSt := {}
  fails : Nat := 0
  unlocks : Nat := 0
  frames : Word := 0
  emptyFrames : Nat := 0
  /-- A pass of the frame in progress has started, with its tick (oscillator, timebase). -/
  passStart : Option (Nat × Nat) := none
  /-- The frame in progress has its sample. -/
  sampled : Bool := false
  /-- A frame is in progress. -/
  inFrame : Bool := false
  /-- Tick of the latest sample (oscillator, timebase); none before the first after core start. -/
  lastSample : Option (Nat × Nat) := none
  /-- Closed positions of the latest sample. -/
  closed : BitVec 160 := 0
  /-- Next column of an unfinished probe. -/
  probe : Option Nat := none
  /-- What the grant in progress still has for probe slots, in us (R223). -/
  grantLeft : Nat := 0
  /-- ENC events of the frame in progress, which follow its group events (R240). -/
  encDue : List EncDue := []
  /-- Forwarded events that GNG takes at the next gang frame boundary, oldest first (15 R426): GROUP, TYPE, SUBJECT, FLAGS,
  TICKS. -/
  fwdDue : List (Nat × Nat × Nat × Nat × Nat) := []
  probes : Word := 0
  /-- Start of the lock idle time (R235). -/
  idleFrom : Nat := 0
  src : Nat := 0
  deriving DecidableEq, Repr

/-- Phases of an update or toggle (09 Table 9-4). -/
inductive EpdPhase where
  | up1 | up2 | up3 | up4 | frames | down1 | down2 | down3 | down4
  deriving DecidableEq, Repr

/-- A pixel taking part: what its start fixed (10 R283, R288, R289). -/
structure PixRun where
  /-- Index of the pixel word, y × COLS + x. -/
  idx : Nat
  /-- Destination level. -/
  dest : Nat
  /-- Tally at the end. -/
  tally : Int
  /-- Drive sequence: code and frames. -/
  seq : List (Nat × Nat)
  /-- Offset of its body in the waveform table. -/
  body : Nat
  /-- Its body was read uncorrectable (R293). -/
  ecc : Bool
  deriving DecidableEq, Repr

/-- The running update or blink toggle (09 R269, Table 9-5). -/
structure UpdSt where
  toggle : Bool := false
  subject : Nat := 0
  owner : Part := 0
  seq : Nat := 0
  course : Nat := 0
  /-- TEMP field. -/
  temp : Nat := 0
  band : Nat := 0
  clamped : Bool := false
  fallback : Bool := false
  full : Bool := false
  vcom : Nat := 0
  drive : Nat := 0
  /-- Frames to drive, and frames driven. -/
  total : Nat := 0
  done : Nat := 0
  downSlow : Bool := false
  start : Nat := 0
  phase : EpdPhase := .up1
  /-- The waveform read of R287 is complete; Up 4 is complete. -/
  readDone : Bool := false
  upDone : Bool := false
  outcome : Nat := 1
  sats : Nat := 0
  /-- GRANT fixed at the start, in 10 us. -/
  grant : Nat := 50
  /-- Some pixel's destination is an ALT level. -/
  towardAlt : Bool := false
  pix : List PixRun := []
  deriving DecidableEq, Repr

/-- One blink region (10 R292-R295). -/
structure BlinkSt where
  pending : Bool := false
  /-- The pending toggle is a return toggle (R295). -/
  ret : Bool := false
  showingAlt : Bool := false
  late : Nat := 0
  toggles : BitVec 16 := 0
  /-- Tick at which the grid starts. -/
  grid : Nat := 0
  deriving DecidableEq, Repr

/-- EPD (09, 10). -/
structure EpdSt where
  queued : BitVec 4 := 0
  qfull : BitVec 4 := 0
  run : Option UpdSt := none
  lastSeq : Nat := 0
  /-- Records of regions 0 to 3, four words each, then the latest of all. -/
  recs : List (List Word) := List.replicate 4 [0, 0, 0, 0]
  lastRec : List Word := [0, 0, 0, 0]
  /-- Latest voltages of VGH, VGL, VNEG, VPOS and VCOM in mV (R255). -/
  railMv : List Int := [0, 0, 0, 0, 0]
  lastFault : Nat := 0
  railFaults : Nat := 0
  tempRefused : Nat := 0
  absorbed : Nat := 0
  discarded : Nat := 0
  refused : Nat := 0
  clamped : Nat := 0
  fallback : Nat := 0
  deriving DecidableEq, Repr

/-- EPD pixels, waveforms and blink (10). -/
structure PixSt where
  tableOk : Bool := false
  validating : Bool := false
  /-- The validation that runs answers a RELOAD. -/
  reload : Bool := false
  changed : Bool := false
  /-- The region was written, and no RELOAD has succeeded since (R286). -/
  stale : Bool := false
  reason : Nat := 0
  inks : Nat := 0
  bands : Nat := 0
  tableId : Nat := 0
  tableLen : Nat := 0
  /-- The gamma store; none: no table. -/
  gamma : Option (List Byte) := none
  wfEcc : Nat := 0
  secdedLost : Nat := 0
  sats : Nat := 0
  blinks : List BlinkSt := List.replicate 8 {}
  lastRegion : Nat := 3
  lastBlink : Nat := 7
  /-- The kind that started most recently is a blink toggle. -/
  lastKindBlink : Bool := true
  /-- What waits for the free panel became due in one instant (09 R268). -/
  tie : Bool := false
  prevBand : Option Nat := none
  deriving DecidableEq, Repr

/-- The setup flash medium (11 R299-R301), which keeps its content without power. -/
structure FlashSt where
  /-- Bytes that do not read 0xFF. -/
  mem : List (Nat × Byte) := []
  /-- Row markers other than 0xFFFF. -/
  markers : List (Nat × BitVec 16) := []
  /-- Numbers of the 16-byte ECC words that cannot be corrected. -/
  bad : List Nat := []
  /-- Rows left undefined by an interrupted program or erase (R319). -/
  undef : List Nat := []
  /-- Rows whose program failed its verify: data undefined, marker not written (R300, R316). -/
  unmarked : List Nat := []
  deriving DecidableEq, Repr

/-- One setup flash operation channel (11 R306-R318): state 0 IDLE, 1 QUEUED, 2 RUNNING, 3 DONE. -/
structure EflChan where
  state : Nat := 0
  op : Nat := 0
  result : Nat := 0
  warn : Bool := false
  torn : Bool := false
  reduced : Bool := false
  course : Nat := 0
  rep0 : Word := 0
  rep1 : Word := 0
  issuer : Part := 0
  addr : Nat := 0
  count : Nat := 0
  granule : Nat := 0
  /-- Physical address, known from the start of the operation. -/
  phys : Nat := 0
  /-- Stages 1 and 2 of a PROGRAM: its data, and its result where they end it. -/
  data : List Byte := []
  early : Nat := 0
  /-- Target rows that stage 2 found TORN. -/
  tornRows : Nat := 0
  /-- The issuer's partition was reset: the result is dropped (R310, Table 4-7). -/
  dropped : Bool := false
  deriving DecidableEq, Repr

/-- One setup flash bank (11 R308, R309, R312). -/
structure EflBank where
  /-- Channel running in the bank. -/
  chan : Option Nat := none
  last : Nat := 9
  cfg : Word := 4
  course : Nat := 0
  suspended : Bool := false
  deriving DecidableEq, Repr

/-- Phases of an advance (11 Table 11-7). -/
inductive AdvPhase where
  | checkGap | prepare | copy | commit | clean | cleanPtr
  deriving DecidableEq, Repr

/-- The rotating log (11 R320-R324): state 0 none, 1 RECOVERING, 2 READY, 3 ADVANCING, 4 FORMATTING, 5 FAULT. -/
structure LogSt where
  base : Nat := 0
  span : Nat := 0
  gap : Nat := 0
  start : Nat := 0
  state : Nat := 0
  erases : Nat := 0
  seq : Nat := 0
  /-- Pointer sector (0 or 1) and row of the adopted record. -/
  recAt : Option (Nat × Nat) := none
  phase : Option AdvPhase := none
  /-- The phase in progress has started, not held by the warning. -/
  started : Bool := true
  /-- Ring index from which the running advance copies. -/
  source : Nat := 0
  /-- The running advance changes the pointer sector. -/
  swap : Bool := false
  dropped : Nat := 0
  recoveries : Nat := 0
  fails : Nat := 0
  deriving DecidableEq, Repr

/-- EFL (11). -/
structure EflSt where
  chans : List EflChan := List.replicate 10 {}
  banks : List EflBank := List.replicate 2 {}
  log : LogSt := {}
  warnRows : Nat := 0
  uncorrRows : Nat := 0
  programFails : Nat := 0
  eraseFails : Nat := 0
  suspends : Nat := 0
  tornRows : Nat := 0
  guardFails : Nat := 0
  bootSource : Nat := 0
  reasonA : Nat := 1
  reasonB : Nat := 1
  locked : Bool := false
  layoutOk : Bool := false
  gen : Nat := 0
  applied : Word := 0
  rejected : Word := 0
  /-- BASE and COUNT of SFR0 to SFR7. -/
  sfrs : List (Nat × Nat) := List.replicate 8 (0, 0)
  deriving DecidableEq, Repr

/-- Phases of channel initialisation (12 Table 12-3); none: the bank is not classed. -/
inductive InitPhase where
  | none | settle | reset | identify | parameter | check | mode | ready
  deriving DecidableEq, Repr

/-- A cycle, a run of data, or a wait of the NAND bus (12 Table 12-2, 13 Table 13-6). -/
inductive NandCycle where
  | cmd (v : Byte)
  | addr (v : Byte)
  | dout (bs : List Byte)
  | din (n : Nat)
  | wait (n : Nat)
  | delay (n : Nat)
  deriving DecidableEq, Repr

/-- One NAND channel (12 R336-R344, Table 12-12): class 0 ABSENT, 1 1.8 V, 2 3.3 V. -/
structure NfcChan where
  vccq : Nat := 0
  fault : Bool := false
  fallback : Bool := false
  iface : Bool := false
  mode : Nat := 0
  init : InitPhase := .none
  /-- The chip enable whose phases run. -/
  ce : Nat := 0
  /-- READ ID at 0x20 of that chip enable gave the ONFI signature. -/
  sigOk : Bool := false
  /-- A mode change is due before the next dispatch (R341, R380). -/
  modeDue : Bool := false
  /-- LUN index whose transfer holds the bus; the index served last (13 R388). -/
  bus : Option Nat := none
  served : Nat := 3
  /-- What the device sent in the latest instant in which it sent anything, each with its chip enable, and that instant. -/
  sent : List (Nat × List NandCycle) := []
  sentAt : Nat := 0
  faults : Nat := 0
  fallbacks : Nat := 0
  resets : Nat := 0
  timeouts : Nat := 0
  /-- Course in force for the channel's fields. -/
  running : Nat := 0
  deriving DecidableEq, Repr

/-- Where a dispatched operation stands on its LUN (13 R383-R388). -/
inductive Stage where
  | waitIn | xferIn | array | waitOut | xferOut | last
  deriving DecidableEq, Repr

/-- A RAW script entry: KIND, VALUE, COUNT (13 Table 13-6). -/
abbrev RawEntry := Nat × Nat × Nat

/-- An operation, linked group or cached operation on a LUN. -/
structure RunSt where
  /-- Slots of its members, in plane order. -/
  members : List Nat
  /-- Operation code, and the program phase of a COPY. -/
  op : Nat
  prog : Bool := false
  stage : Stage
  /-- It continues a cache sequence (R386, R387). -/
  cached : Bool := false
  /-- READ CACHE END has made it the last page of its sequence (R386). -/
  seqEnd : Bool := false
  /-- The bytes that the device sends to the die as they were checked, one page per member (12 R345, 13 R372), or the data area
  of a RAW script (R378, R379). -/
  image : List (List Byte) := []
  /-- Ladder step that the read of each member has reached, and the re-reads made for it (12 R352). -/
  steps : List Nat := []
  reads : List (List (RereadKind × BitVec 8)) := []
  /-- The re-read whose slots are still to be transferred: member, and mask of the slots (12 R352). -/
  again : Option (Nat × BitVec 8) := none
  /-- A RAW script as it was checked, and how many of its entries have been sent (13 R378, R379). -/
  script : List RawEntry := []
  sent : Nat := 0
  deriving DecidableEq, Repr

/-- One LUN (12 R336-R344, 13 R382-R387): state codes of Table 12-12. -/
structure NfcLun where
  state : Nat := 0
  geom0 : Word := 0
  geom1 : Word := 0
  ident : Word := 0
  /-- LUNs per chip enable, and whether RESET LUN is listed, from the parameter page. -/
  perCe : Nat := 0
  resetLun : Bool := false
  /-- Row address cycles, from the parameter page (R334). -/
  rowCycles : Nat := 3
  /-- Ladder entry at which the die reads (R354). -/
  entry : Nat := 0
  /-- Value and reliability bits of each slot of the latest soft decoding (R353). -/
  softIn : List (List Byte × List Byte) := []
  /-- The geometry passes R338. -/
  geomOk : Bool := false
  /-- A parameter page copy was accepted in this initialisation. -/
  paramOk : Bool := false
  /-- Geometry and identity recorded when first initialised. -/
  known : Option (Word × Word × Word) := none
  /-- READY before the channel fault being recovered from. -/
  wasReady : Bool := false
  /-- Course in force, course pending, admission hold (03 R86). -/
  running : Nat := 0
  pending : Bool := false
  held : Bool := false
  /-- Words in force for this LUN that differ from the block's (03 R86). -/
  diffs : List (Nat × Word) := []
  /-- The operation that runs, the one chosen after it, and the one chosen after that (13 R386, R387). -/
  cur : Option RunSt := none
  nxt : Option RunSt := none
  nn : Option RunSt := none
  /-- Counters c_p of 04 R112, and the contending set they belong to. -/
  cnt : List Int := [0, 0, 0, 0]
  contend : BitVec 4 := 0
  /-- A LUN reset runs; it has ended and waits for the mode sequence. -/
  resetting : Bool := false
  resetDone : Bool := false
  deriving DecidableEq, Repr

/-- One operation in flight (13 R367, R370, R389): states 1 WAITING, 2 QUEUED, 3 DISPATCHED, 4 ENDED. -/
structure Flight where
  num : Nat
  issuer : Part
  desc : List Byte
  st : Nat := 1
  /-- It holds an entry in the queue of its LUN, and of its destination LUN. -/
  srcQ : Bool := false
  dstQ : Bool := false
  /-- The operation that each entry stands for has been dispatched; it holds the entry to its end (04 R111). -/
  srcRun : Bool := false
  dstRun : Bool := false
  /-- COPY: the read phase has ended OK. -/
  readDone : Bool := false
  /-- Number of its linked group, 0 for none. -/
  group : Nat := 0
  /-- Its group is open. -/
  opened : Bool := false
  /-- It has waited for an admission hold (R393). -/
  held : Bool := false
  /-- Its partition is in reset: it ends without a record. -/
  silent : Bool := false
  /-- It has ended in the present instant (R391). -/
  fresh : Bool := false
  status : Nat := 0
  /-- A result known before the medium is used (R372, R379). -/
  early : Nat := 0
  warn : Bool := false
  soft : Bool := false
  unwritten : Bool := false
  reduced : Bool := false
  cache : Bool := false
  pass : Bool := false
  subst : Bool := false
  step : Nat := 0
  info : Nat := 0
  corr : Nat := 0
  course : Nat := 0
  ticks : Nat := 0
  deriving DecidableEq, Repr

/-- The windows and ring of one partition (13 R368, R390, Table 13-11). -/
structure NfcWin where
  subW : List Word := List.replicate 8 0
  result : Nat := 0
  submits : Nat := 0
  slot : Nat := 0
  head : Nat := 0
  count : Nat := 0
  /-- PHASE of the next record. -/
  phase : Bool := true
  slotSel : Word := 0
  qsel : Word := 0
  discards : Nat := 0
  deriving DecidableEq, Repr

/-- NFC (12, 13). -/
structure NfcSt where
  chans : List NfcChan := List.replicate 4 {}
  luns : List NfcLun := List.replicate 16 {}
  /-- Operations in flight, in submission order. -/
  flight : List Flight := []
  /-- Slots in ENDED, in ending order. -/
  ended : List Nat := []
  nextGroup : Nat := 1
  wins : List NfcWin := List.replicate 4 {}
  /-- CHANNEL_FAULTS, LUN_RESETS, TIMEOUTS, MODE_FALLBACKS. -/
  counts : List Nat := [0, 0, 0, 0]
  nsWarn : List Nat := List.replicate 16 0
  /-- Course in force for NFC_CFG and NFC_QCFG. -/
  running : Nat := 0
  deriving DecidableEq, Repr

/-- One check-value unit (14): state 0 IDLE, 1 OPEN, 2 RUNNING, 3 DONE. -/
structure CvuUnit where
  st : Nat := 0
  /-- Accumulator A and the data byte count. -/
  acc : Nat := 0xFF
  bytes : Nat := 0
  /-- The data byte at CTR_POS, once fed. -/
  ctr : Option Byte := none
  code : Nat := 0
  mismatch : Bool := false
  aliveErr : Bool := false
  unwritten : Bool := false
  first : Bool := true
  lastCtr : Nat := 0
  mismatches : Nat := 0
  finishes : Nat := 0
  result : Word := 0
  parity : Bool := false
  /-- FINISH was written with GO. -/
  finishAfter : Bool := false
  /-- BADDR and BLEN + 1 at GO. -/
  runAddr : Nat := 0
  runLen : Nat := 0
  deriving DecidableEq, Repr

/-- One gang member as seen here (15 Table 15-4, Table 15-6): status 0 ABSENT, 1 PRESENT, 2 LOST, 3 INCOMPATIBLE. -/
structure MemSt where
  status : Nat := 0
  vote : Nat := 0
  rpg : Bool := false
  stepping : Byte := 0
  format : Byte := 0
  members : BitVec 4 := 0
  digest : Word := 0
  seen : Word := 0
  /-- Tick of the latest correct frame. -/
  last : Nat := 0
  /-- Tick at which its latest STATE ended. -/
  stateAt : Option Nat := none
  deriving DecidableEq, Repr

/-- GNG (15): state 0 DISABLED, 1 FORMING, 2 HOLD, 3 RUN, 4 SAFE. -/
structure GngSt where
  mems : List MemSt := List.replicate 4 {}
  state : Nat := 0
  /-- Every ID in MEMBERS has been PRESENT together once since link enable. -/
  formed : Bool := false
  /-- This member's own HELLO has gone out since link enable: it is PRESENT to itself. -/
  selfOn : Bool := false
  /-- A frame of another member that won the arbitration is on the bus. -/
  busy : Bool := false
  keystone : Option Nat := none
  mmMember : Nat := 0
  mmField : Nat := 0
  /-- Tick of the latest frame carrying this member's own ID. -/
  dup : Option Nat := none
  digest : Word := 0
  /-- FORMAT of the boot course in force, 0 for none. -/
  format : Byte := 0
  /-- SEQ of the next STATE. -/
  seq : Byte := 0
  pendCapo : Bool := false
  pendState : Bool := false
  pendRpg : Bool := false
  pendTime : Bool := false
  pendHello : Bool := false
  /-- The HELLO is owed ahead of every frame but CAPO (R415). -/
  owed : Bool := false
  /-- Forwarded events, oldest first: GROUP, TYPE, SUBJECT, FLAGS, TICKS. -/
  fwd : List (Nat × Nat × Nat × Nat × Nat) := []
  /-- Frames sent: the bytes of the latest one. -/
  sent : List Byte := []
  steps : Nat := 0
  jumps : Nat := 0
  lastStep : Word := 0
  tx : Nat := 0
  rx : Nat := 0
  crcErr : Nat := 0
  arbLoss : Nat := 0
  losses : Nat := 0
  busStuck : Nat := 0
  fwdDrops : Nat := 0
  dupSeen : Nat := 0
  /-- Effective vote and exported power-good last announced. -/
  lastVote : Nat := 2
  lastRpg : Bool := false
  deriving DecidableEq, Repr

end Sys2Proof.Machine
end

