-- ==== Sys2Proof/Machine/State.lean ====
section
/-! DEFINITION. The state of the device as plain data, the reasons a step can stop, and the state after reset. -/

namespace Sys2Proof.Machine

/-- The core domain, which every core stop loses (01 R24, 05 R146). -/
structure CoreSt where
  /-- In-force and staged register words by word address; unlisted words hold their reset values. -/
  regs : List (Nat × Word) := []
  /-- Words that fail parity (01 R40). -/
  parity : List Nat := []
  course : CourseSt := {}
  capo : CapoSt := {}
  dev : DevSt := {}
  ports : List PortSt := List.replicate 4 {}
  part : PartSt := {}
  mbxs : List MbxSt := List.replicate 12 {}
  irq : List IrqSt := List.replicate 4 {}
  buf : BufSt := {}
  pwr : PwrSt := {}
  seq : SeqSt := {}
  thm : ThmSt := {}
  flw : FlwSt := {}
  key : KeyBlk := {}
  epd : EpdSt := {}
  pix : PixSt := {}
  efl : EflSt := {}
  nfc : NfcSt := {}
  cvu : List CvuUnit := List.replicate 4 {}
  gng : GngSt := {}
  deriving DecidableEq, Repr

/-- The device: the always-on domain, the core domain, the setup flash medium, the waiting commands,
and the model's counter of free values (DESIGN CHOICE, notes/assumptions/3.md). -/
structure State where
  aon : Aon := {}
  hold : AonHold := {}
  core : CoreSt := {}
  flash : FlashSt := {}
  pending : List Instr := []
  freeCtr : Nat := 0
  deriving DecidableEq, Repr

/-- Faults of a step. There are none: the spec gives every command an effect in every state. -/
inductive Fault where
  deriving DecidableEq, Repr

/-- Refusals of a step. -/
inductive Refusal where
  /-- Raised by exec on a command whose meaning is not modelled; no command is left so. Safe: the run ends. -/
  | notModelled (mnemonic : String)
  deriving DecidableEq, Repr

/-- The interrupt controllers at the end of the first core start: WAKE_DONE is raised in every partition (01 R36). -/
def State.resetIrq : IrqSt := { pend := 1, lastPend := 1 }

/-- The state right after a device reset: the end of the core start of the first cold start, on the PLL, with an
erased setup flash and no boot course (05 R146; DESIGN CHOICE, notes/assumptions/1.md). -/
def State.reset : State := { core := { irq := List.replicate 4 State.resetIrq } }

end Sys2Proof.Machine
end

