-- ==== Sys2Proof/Machine/Ops.lean ====
section
/-! DEFINITION. Named operations over the state: registers, owners and hiding, interrupt sources, capo triggers, time,
free values. -/

namespace Sys2Proof.Machine

/-- Change the core domain. -/
def modC (s : State) (f : CoreSt → CoreSt) : State := { s with core := f s.core }

/-- Change the always-on domain. -/
def modA (s : State) (f : Aon → Aon) : State := { s with aon := f s.aon }

/-- Change the rest of the always-on domain. -/
def modH (s : State) (f : AonHold → AonHold) : State := { s with hold := f s.hold }

/-- The core runs and the framing logic is powered (01 R36). -/
def coreUp (s : State) : Bool := s.aon.phase == .run

/-- Oscillator ticks: every interval in ticks counts these (15 R423; DESIGN CHOICE,
notes/assumptions/4.md). -/
def now (s : State) : Nat := s.aon.osc

/-- The 48-bit timebase: stamps carry it (15 R423). -/
def stamp (s : State) : Nat := s.aon.tbase.toNat

/-- The a-th free value of the present command: a value the spec leaves open (DESIGN CHOICE, notes/assumptions/3.md). -/
def free (s : State) (a : Nat) : Nat := Config.freeValue (s.freeCtr * 4294967296 + a)

/-- A stored core register word: in force at its primary address, staged at + 0x100. -/
def rd (s : State) (a : Nat) : Word := sget regReset s.core.regs a

/-- Bits [lo+n-1:lo] of a stored word. -/
def rf (s : State) (a lo n : Nat) : Nat := fld (rd s a) lo n

/-- A configuration word as its block uses it. A word that fails parity is not used: THM takes the reset value of THM_CFG
(07 R482), and for every other word what stands in is a free value (01 R40; DEDUCED, notes/assumptions/12.md). -/
def used (s : State) (a : Nat) : Word :=
  if s.core.parity.elem a then (if a = 0xE00 then regReset a else Config.standIn a (rd s a)) else rd s a

/-- Bits of a configuration word as its block uses it. -/
def uf (s : State) (a lo n : Nat) : Nat := fld (used s a) lo n

/-- Words that satisfy t pass their parity again: they have been written (01 R40). -/
def passes (s : State) (t : Nat → Bool) : State := modC s (fun c => { c with parity := c.parity.filter (fun k => !t k) })

/-- The word fails parity. -/
def badW (s : State) (a : Nat) : Bool := s.core.parity.elem a

/-- Set a stored core register word. -/
def setR (s : State) (a : Nat) (v : Word) : State := modC s (fun c => { c with regs := sset regReset c.regs a v })

/-- Set bits [lo+n-1:lo] of a stored word. -/
def setRF (s : State) (a lo n v : Nat) : State := setR s a (putFld (rd s a) lo n v)

/-- An always-on register word (01 R26). -/
def ard (s : State) (a : Nat) : Word := sget regReset s.aon.regs a

/-- Bits of an always-on word. -/
def arf (s : State) (a lo n : Nat) : Nat := fld (ard s a) lo n

/-- An always-on configuration word as its block uses it: a word that fails parity is not used (01 R40; DEDUCED,
notes/assumptions/12.md). The list of failed words is core state, so a stopped core leaves none. -/
def aused (s : State) (a : Nat) : Word := if s.core.parity.elem a then Config.standIn a (ard s a) else ard s a

/-- Bits of an always-on configuration word as its block uses it. -/
def auf (s : State) (a lo n : Nat) : Nat := fld (aused s a) lo n

/-- Set an always-on register word. -/
def setA (s : State) (a : Nat) (v : Word) : State := modA s (fun x => { x with regs := sset regReset x.regs a v })

/-- The word at the address is held in the always-on domain (05 Table 5-8). -/
def isAon (a : Nat) : Bool :=
  [0xA02, 0xA03, 0xA05, 0xA08, 0xA09, 0xA0A, 0xA0B, 0xA16, 0xA17].elem a || decide (0xA40 ≤ a ∧ a < 0xA60)

/-- A stored word in whichever domain holds it. -/
def stored (s : State) (a : Nat) : Word := if isAon a then ard s a else rd s a

/-- Set a stored word in whichever domain holds it. -/
def setStored (s : State) (a : Nat) (v : Word) : State := if isAon a then setA s a v else setR s a v

/-- The steward's lock is set (04 R103). -/
def locked (s : State) : Bool := bit (used s 0x200) 0

/-- The owner of a resource (04 Table 4-2); a blink region has the owner of its panel region (10 R292). -/
def ownerN (s : State) : Res → Nat
  | .rail r => uf s 0x210 (2 * r) 2
  | .flow n => uf s 0x211 (2 * n) 2
  | .key g => uf s 0x212 (2 * g) 2
  | .panel r => uf s 0x213 (2 * r) 2
  | .ns i => uf s 0x214 (2 * i) 2
  | .sfr k => uf s 0x215 (2 * k) 2
  | .cvu u => uf s 0x216 (2 * u) 2
  | .blink k => uf s 0x213 (2 * uf s (0x1462 + 4 * k) 8 2) 2

/-- The partition that may write a field, for writer p (04 R101, R102). -/
def writerOf (s : State) (p : Nat) : Own → Nat
  | .any => p
  | .part q => q
  | .steward => 0
  | .owner r => ownerN s r

/-- The hide bit of a resource (04 R106). -/
def hideBit (s : State) : Res → Bool
  | .rail r => bit (used s 0x220) r
  | .flow n => bit (used s 0x221) n
  | .key g => bit (used s 0x222) g
  | .panel r => bit (used s 0x223) r
  | .ns i => bit (used s 0x224) i
  | .sfr k => bit (used s 0x225) k
  | .cvu u => bit (used s 0x226) u
  | .blink k => bit (used s 0x223) (uf s (0x1462 + 4 * k) 8 2)

/-- The resource is hidden from partition p (04 R106). -/
def hidden (s : State) (p : Nat) (r : Res) : Bool := hideBit s r && p != 0 && p != ownerN s r

/-- Replace half k of a 64-bit word. -/
def putHalf (x : BitVec 64) (k : Nat) (w : Word) : BitVec 64 :=
  if k = 0 then BitVec.ofNat 64 (w.toNat + 4294967296 * fld x 32 32) else BitVec.ofNat 64 (fld x 0 32 + 4294967296 * w.toNat)

/-- Word k of the interrupt window of partition p as the controller uses it, v being what it holds: a word that fails parity
is not used (01 R40; DEDUCED, notes/assumptions/12.md). -/
def irqWord (s : State) (p k : Nat) (v : Word) : Word :=
  let a := 0x800 + 64 * p + k
  if badW s a then Config.standIn a v else v

/-- The enable or immediate bits of partition p as the controller uses them, from the two words at offset k. -/
def irqBits (s : State) (p k : Nat) (x : BitVec 64) : BitVec 64 :=
  putHalf (putHalf x 0 (irqWord s p k (BitVec.ofNat 32 (fld x 0 32)))) 1 (irqWord s p (k + 1) (BitVec.ofNat 32 (fld x 32 32)))

/-- The interrupt controller of partition p with its EN, IMM and COAL words as it uses them (01 R40). -/
def irqUsed (s : State) (p : Nat) (q : IrqSt) : IrqSt :=
  let coal := irqWord s p 6 (mkW [(0, 8, q.count), (16, 16, q.time)])
  { q with en := irqBits s p 2 q.en, imm := irqBits s p 4 q.imm, count := fld coal 0 8, time := fld coal 16 16 }

/-- The condition of a source occurs (04 R118): its pending bit is set, and the occurrence is noted for the event count. -/
def IrqSt.set (q : IrqSt) (src : Nat) : IrqSt :=
  { q with pend := setBit q.pend src true, raised := setBit q.raised src true }

/-- Set the pending bit of a source in a partition (04 R118). -/
def raise (s : State) (p src : Nat) : State := modC s (fun c => { c with irq := upd c.irq p (fun q => q.set src) })

/-- Set it in every partition. -/
def raiseAll (s : State) (src : Nat) : State := modC s (fun c => { c with irq := c.irq.map (fun q => q.set src) })

/-- Owner + P0 routing (04 R120). -/
def raiseOwner0 (s : State) (r : Res) (src : Nat) : State :=
  let s := raise s (ownerN s r) src
  raise s 0 src

/-- Owner routing (04 R120). -/
def raiseOwner (s : State) (r : Res) (src : Nat) : State := raise s (ownerN s r) src

/-- Record a fault of a capo class 16 to 23 (03 R95). -/
def capoFault (s : State) (cls : Nat) : State :=
  if bit (used s 0x53) cls then modC s (fun c => { c with capo := { c.capo with trig := setBit c.capo.trig 3 true } }) else s

/-- Trigger a capo from source 0 write, 1 pin, 2 gang. -/
def capoTrigger (s : State) (src : Nat) : State :=
  modC s (fun c => { c with capo := { c.capo with trig := setBit c.capo.trig src true } })

/-- Apply f to the state once for each element. -/
def forAll {α : Type} (l : List α) (s : State) (f : State → α → State) : State := l.foldl f s

/-- Apply f where b holds. -/
def whenS (b : Bool) (s : State) (f : State → State) : State := if b then f s else s

/-- The core runs on RC48 in reduced mode (01 R31). -/
def reduced (s : State) : Bool := s.core.pwr.rc48

/-- The warning holds program and erase work (05 R149). -/
def heldNvm (s : State) : Bool := s.aon.warn && bit (aused s 0xA03) 0

/-- The warning holds panel starts (05 R149). -/
def heldEpd (s : State) : Bool := s.aon.warn && bit (aused s 0xA03) 1

/-- BAK_LOW of PWR_STATUS: the latest VBAK value against the field in force (05 R134). -/
def bakLow (s : State) : Bool := s.core.pwr.measured && decide (s.core.pwr.vbak < auf s 0xA03 8 8 * 20)

/-- The device is locked (08 R235): key-lock state is always-on. -/
def keyLocked (s : State) : Bool := s.hold.locked

/-- The own member ID: the straps (15 R415). -/
def selfId (s : State) : Nat := s.hold.straps.toNat

/-- What an unlisted byte of the buffer space reads as: 0x00 (01 R42), and 0x2000 in every pixel word (10 R278). -/
def bufReset (a : Nat) : Byte := if 0x100000 ≤ a ∧ a < 0x196000 ∧ a % 2 = 1 then 0x20 else 0

/-- A byte of the buffer space. -/
def bufByte (s : State) (a : Nat) : Byte := sget bufReset s.core.buf.mem a

/-- Bytes of the buffer space. -/
def bufBytes (s : State) (a n : Nat) : List Byte := sgetRun bufReset s.core.buf.mem a n

/-- The number of 64-bit words (as byte address / 8) of a range. -/
def wordsOf (a n : Nat) : List Nat := if n = 0 then [] else (upto ((a + n - 1) / 8 - a / 8 + 1)).map (fun i => a / 8 + i)

/-- Some SECDED word of the range is uncorrectable (01 R479). -/
def bufBad (s : State) (a n : Nat) : Bool := (wordsOf a n).any (fun w => s.core.buf.bad.elem w)

/-- Words with a single-bit error in a range. -/
def bufSoft (b : BufSt) (a n : Nat) : List Nat := (wordsOf a n).filter (fun w => b.soft.elem w)

/-- The device reads the range under SECDED: each single-bit error met is corrected and counted (01 R39). The stored word
keeps it (DESIGN CHOICE, notes/assumptions/9.md). -/
def bufTouch (s : State) (a n : Nat) : State :=
  modC s (fun c => { c with buf := { c.buf with corrected := c.buf.corrected + (bufSoft c.buf a n).length } })

/-- Store bytes. A SECDED word that is not written whole is read and corrected first. An uncorrectable one stays so unless
all its 8 bytes are written (01 R39, R479). -/
def bufStore (s : State) (a : Nat) (bs : List Byte) : State :=
  let full := fun w => decide (a ≤ 8 * w ∧ 8 * w + 8 ≤ a + bs.length)
  modC s (fun c => { c with buf := { c.buf with
    mem := ssetRun bufReset c.buf.mem a bs
    bad := c.buf.bad.filter (fun w => !full w)
    soft := c.buf.soft.filter (fun w => !(wordsOf a bs.length).elem w)
    corrected := c.buf.corrected + ((bufSoft c.buf a bs.length).filter (fun w => !full w)).length } })

/-- First granule and number of granules of the quota of a partition (04 R108). -/
def quota (s : State) (p : Nat) : Nat × Nat := (uf s (0x230 + p) 0 9, uf s (0x230 + p) 16 10)

/-- The granule lies in the quota of the partition. -/
def inQuota (s : State) (p g : Nat) : Bool :=
  let q := quota s p
  decide (q.1 ≤ g ∧ g < q.1 + q.2)

/-- Granules that a byte range of the transfer buffer touches. -/
def granulesOf (a n : Nat) : List Nat :=
  if n = 0 then [] else (upto ((a + n - 1) / 512 - a / 512 + 1)).map (fun i => a / 512 + i)

/-- The device writes a granule: data, written bit, and a guard over the data or none (13 R371). -/
def granuleFill (s : State) (g : Nat) (bs : List Byte) (guardOk : Bool) : State :=
  let s := bufStore s (512 * g) bs
  modC s (fun c => { c with buf := { c.buf with
    written := setBit c.buf.written g true
    guardOk := setBit c.buf.guardOk g guardOk
    guards := sset (fun _ => 0) c.buf.guards g (if guardOk then BitVec.ofNat 32 (crc32c bs) else 0) } })

/-- Clear a granule: data 0x00, written bit and guard cleared (01 R42, 04 R108). -/
def granuleClear (s : State) (g : Nat) : State :=
  modC s (fun c => { c with buf := { c.buf with
    mem := sclear c.buf.mem (512 * g) (512 * g + 512)
    written := setBit c.buf.written g false
    guardOk := setBit c.buf.guardOk g false
    guards := sset (fun _ => 0) c.buf.guards g 0
    bad := c.buf.bad.filter (fun w => decide (w / 64 ≠ g))
    soft := c.buf.soft.filter (fun w => decide (w / 64 ≠ g)) } })

/-- A 64-bit word of the buffer space comes to hold a single-bit error, or becomes uncorrectable (01 R22, R39, R479). -/
def bufFail (s : State) (w : Nat) (single : Bool) : State :=
  modC s (fun c => { c with buf :=
    if single then (if c.buf.bad.elem w then c.buf else { c.buf with soft := insertNat w c.buf.soft })
    else { c.buf with bad := insertNat w c.buf.bad, soft := c.buf.soft.filter (fun x => x != w) } })

/-- The 512 bytes of a granule. -/
def granuleBytes (s : State) (g : Nat) : List Byte := bufBytes s (512 * g) 512

/-- The guard of the granule is valid and matches its data (01 Table 1-7, stages I6 and I11). -/
def guardGood (s : State) (g : Nat) : Bool :=
  bit s.core.buf.guardOk g && decide ((sget (fun _ => 0) s.core.buf.guards g).toNat = crc32c (granuleBytes s g))

end Sys2Proof.Machine
end

