-- ==== Sys2Proof/Machine/FlashOps.lean ====
section
/-! DEFINITION. The setup flash medium: rows, markers, row status, reads (11 R299-R301, R311, R319). -/

namespace Sys2Proof.Machine

/-- What an unlisted byte of the array reads as: erased (11 R299; DESIGN CHOICE, notes/assumptions/5.md). -/
def flashErased (_ : Nat) : Byte := 0xFF

/-- What one read of a row gives: 0 PROGRAMMED, 1 ERASED, 2 TORN; data with 0x00 in uncorrectable words; those words. -/
structure RowView where
  status : Nat
  bytes : List Byte
  bad : List Nat
  deriving DecidableEq, Repr

/-- The status that a marker and the data give (11 R300, R301). -/
def markStatus (mk : BitVec 16) (allOnes : Bool) : Nat :=
  if popcnt (mk ^^^ 0x3C5A) ≤ 2 then 0
  else if 14 ≤ popcnt mk && allOnes then 1 else 2

/-- Bytes of a row with 0x00 in the bytes of the listed words. -/
def zeroWords (bs : List Byte) (bad : List Nat) : List Byte :=
  bs.zipIdx.map (fun e => if bad.elem (e.2 / 16) then 0 else e.1)

/-- Nothing fixes what the row holds: an operation on it was interrupted, or its program failed (11 R300, R319). -/
def rowOpen (s : State) (row : Nat) : Bool := s.flash.undef.elem row || s.flash.unmarked.elem row

/-- One read of a row. A row left undefined by an interrupted program or erase reads as free values (11 R319), and so does
one whose program failed, which has no committed marker (11 R300, R316). -/
def rowView (s : State) (row : Nat) : RowView :=
  if rowOpen s row then
    let f := fun k => free s (0x1000000 + 1024 * row + k)
    let st := if s.flash.undef.elem row then f 0 % 3 else 1 + f 0 % 2
    if st = 1 then { status := 1, bytes := List.replicate 256 0xFF, bad := [] }
    else
      let bad := (upto 16).filter (fun w => f (1 + w) % 2 == 1)
      { status := st, bytes := zeroWords ((upto 256).map (fun i => BitVec.ofNat 8 (f (32 + i)))) bad, bad := bad }
  else
    let bad := (upto 16).filter (fun w => s.flash.bad.elem (16 * row + w))
    let bs := sgetRun flashErased s.flash.mem (256 * row) 256
    let st := markStatus (sget (fun _ => 0xFFFF) s.flash.markers row) (bs.all (fun b => b == 0xFF) && bad.isEmpty)
    { status := st, bytes := zeroWords bs bad, bad := bad }

/-- A read of n bytes at a setup flash address: the data, and whether some word of them is uncorrectable in a row that
counts (torn rows count for window reads alone, 11 R301, R311). -/
def flashRead (s : State) (torn : Bool) (a n : Nat) : List Byte × Bool :=
  if n = 0 then ([], false)
  else
    let rows := (upto ((a + n - 1) / 256 - a / 256 + 1)).map (fun i => a / 256 + i)
    let vs := rows.map (fun r => (r, rowView s r))
    let bytes := vs.foldr (fun v acc => v.2.bytes ++ acc) []
    let bad := vs.any (fun v => (v.2.status == 0 || (torn && v.2.status == 2)) &&
      v.2.bad.any (fun w => decide (a ≤ 256 * v.1 + 16 * w + 15) && decide (256 * v.1 + 16 * w < a + n)))
    ((bytes.drop (a % 256)).take n, bad)

/-- The rows [lo, hi) are erased. -/
def flashErase (s : State) (lo hi : Nat) : State :=
  { s with flash := { s.flash with
    mem := sclear s.flash.mem (256 * lo) (256 * hi)
    markers := sclear s.flash.markers lo hi
    bad := s.flash.bad.filter (fun w => decide (w / 16 < lo) || decide (hi ≤ w / 16))
    undef := s.flash.undef.filter (fun r => decide (r < lo) || decide (hi ≤ r))
    unmarked := s.flash.unmarked.filter (fun r => decide (r < lo) || decide (hi ≤ r)) } }

/-- One row is programmed with 256 bytes and its marker committed (11 R300). -/
def flashProgramRow (s : State) (row : Nat) (bs : List Byte) : State :=
  { s with flash := { s.flash with
    mem := ssetRun flashErased s.flash.mem (256 * row) bs
    markers := sset (fun _ => 0xFFFF) s.flash.markers row 0x3C5A
    unmarked := s.flash.unmarked.filter (fun r => r != row) } }

/-- The rows of an operation that was interrupted read as free values from then on (11 R319). -/
def flashUndef (s : State) (rows : List Nat) : State :=
  { s with flash := { s.flash with undef := rows.foldl (fun l r => insertNat r l) s.flash.undef } }

/-- A row fails its program verify: its data are undefined, and its marker is not written (11 R300, R316). -/
def flashUnmark (s : State) (row : Nat) : State :=
  { s with flash := { s.flash with unmarked := insertNat row s.flash.unmarked } }

/-- A margin read at the erase-verify reference has met no failing bit in the rows: one that nothing fixed is erased, so that
it may be programmed again (11 R319; DEDUCED, notes/assumptions/15.md). -/
def flashClean (s : State) (rows : List Nat) : State :=
  rows.foldl (fun s r => if rowOpen s r then flashErase s r (r + 1) else s) s

/-- Data bits of a row that are 0: they read 0 at the erase-verify reference (11 R318). -/
def rowZeros (s : State) (row : Nat) : Nat :=
  if rowOpen s row then 0
  else (sgetRun flashErased s.flash.mem (256 * row) 256).foldl (fun n b => n + (8 - popcnt b)) 0

/-- The log lies in this bank. -/
def logBank (s : State) : Nat := s.core.efl.log.base / 256

/-- The bank runs, or has suspended, a PROGRAM, an ERASE or an advance phase (11 R311). -/
def bankWrites (s : State) (b : Nat) : Bool :=
  let run := match (nth s.core.efl.banks b {}).chan with
    | some c => [2, 3, 9].elem (nth s.core.efl.chans c {}).op
    | none => false
  let l := s.core.efl.log
  run || (l.phase.isSome && l.started && logBank s == b)

/-- EPD reads the waveform region: it validates the table, or the running update's read is not complete (10 R284, R287). -/
def epdReading (s : State) : Bool :=
  s.core.pix.validating || (match s.core.epd.run with
    | some u => !u.readDone
    | none => false)

/-- A program or erase on bank 0 is suspended by an EPD read, unless one holds it already (11 R312). -/
def flashSuspend (s : State) : State :=
  if bankWrites s 0 && !(nth s.core.efl.banks 0 {}).suspended then
    modC s (fun c => { c with efl := { c.efl with
      suspends := sat 65535 (c.efl.suspends + 1)
      banks := upd c.efl.banks 0 (fun b => { b with suspended := true }) } })
  else s

/-- A read has ended: the suspended operation resumes when no read is left. -/
def flashResume (s : State) : State :=
  if epdReading s then s
  else modC s (fun c => { c with efl := { c.efl with banks := upd c.efl.banks 0 (fun b => { b with suspended := false }) } })

end Sys2Proof.Machine
end

