-- ==== Sys2Proof/Machine/KeyOps.lean ====
section
/-! DEFINITION. Keys and encoders: event FIFOs, debounce, ghosts, lock and matcher, wet probe, encoders (08). -/

namespace Sys2Proof.Machine

/-- The map byte of a position (08 R218): group, EN, ALWAYS, FWD. -/
def keyMap (s : State) (pos : Nat) : BitVec 8 := BitVec.ofNat 8 (uf s (0x1240 + pos / 4) (8 * (pos % 4)) 8)
/-- The key group of a position. -/
def keyGroup (s : State) (pos : Nat) : Nat := fld (keyMap s pos) 0 3
/-- The position is enabled. -/
def keyEn (s : State) (pos : Nat) : Bool := bit (keyMap s pos) 3
/-- The position is always reported. -/
def keyAlways (s : State) (pos : Nat) : Bool := bit (keyMap s pos) 4
/-- The position's row is scanned. -/
def keyRowEn (s : State) (row : Nat) : Bool := bit (used s 0x1200) (16 + row)
/-- The state of a position. -/
def keyOf (s : State) (pos : Nat) : KeySt := sget (fun _ => {}) s.core.key.keys pos

/-- Change the key block. -/
def modK (s : State) (f : KeyBlk → KeyBlk) : State := modC s (fun c => { c with key := f c.key })
/-- Set the state of a position. -/
def setKey (s : State) (pos : Nat) (k : KeySt) : State :=
  modK s (fun b => { b with keys := sset (fun _ => {}) b.keys pos k })

/-- The column set of a group (08 R218). -/
def columnSet (s : State) (g : Nat) : BitVec 16 :=
  bvOf 16 (fun c => (upto 10).any (fun r => keyRowEn s r && keyEn s (16 * r + c) && keyGroup s (16 * r + c) == g))

/-- The probe set: the union of the column sets (08 R225). -/
def probeSet (s : State) : BitVec 16 :=
  bvOf 16 (fun c => (upto 10).any (fun r => keyRowEn s r && keyEn s (16 * r + c)))

/-- An interval of d milliseconds in ticks (08 R229). -/
def msTicks (d : Nat) : Nat := d * 32768 / 1000

/-- Word 0 of an entry from TYPE, SUBJECT, FLAGS, SEQ (08 Table 8-5). -/
def fifoW0 (typ subj flags seq : Nat) : Word := mkW [(0, 8, typ), (8, 8, subj), (16, 8, flags), (24, 8, seq)]

/-- Post an entry to the FIFO of partition p, or drop it (08 R240, R242; DEDUCED, notes/assumptions/25.md). -/
def fifoPost (s : State) (p typ subj flags data tick vel : Nat) : State :=
  let q := nth s.core.key.fifos p {}
  if 64 ≤ q.entries.length then
    let s := modK s (fun b => { b with fifos := upd b.fifos p (fun q => { q with drops := sat 255 (q.drops + 1), loss := true }) })
    raise s p 24
  else
    let fl := if q.loss then flags ||| 16 else flags
    let e := (fifoW0 typ subj fl q.nextSeq.toNat, mkW [(0, 16, nth s.core.course.running 2 0), (16, 16, data)],
      BitVec.ofNat 32 tick, mkW [(0, 16, tick / 4294967296), (16, 16, vel)])
    let s := modK s (fun b => { b with fifos := upd b.fifos p (fun q =>
      { q with entries := q.entries ++ [e], nextSeq := q.nextSeq + 1, loss := false }) })
    raise s p 23

/-- Merge an ENC event with DATA d into the newest entry, where R239 allows it; none where it does not. -/
def encMerge (s : State) (p n : Nat) (d : Int) (tick vel : Nat) : Option State :=
  let q := nth s.core.key.fifos p {}
  match q.entries.getLast? with
  | some (w0, w1, _, _) =>
    if 2 ≤ q.entries.length ∧ fld w0 0 8 = 0x10 ∧ fld w0 8 8 = n ∧ !bit w0 22 then
      let sum := unsgn 16 (clampI (-127) 127 (sgn 16 (fld w1 16 16) + d))
      let e := (putFld w0 19 1 1, putFld w1 16 16 sum, BitVec.ofNat 32 tick,
        mkW [(0, 16, tick / 4294967296), (16, 16, vel)])
      let s := modK s (fun b => { b with fifos := upd b.fifos p (fun q => { q with entries := q.entries.dropLast ++ [e] }) })
      some (raise s p 23)
    else none
  | none => none

/-- An event that GNG is to forward waits for the next gang frame boundary (01 Table 1-2, 08 R243, 15 R426). -/
def keyFwd (s : State) (pos typ flags tick : Nat) : State :=
  if bit (keyMap s pos) 5 && bit (used s 0x2400) 2 then
    modK s (fun b => { b with fwdDue := b.fwdDue ++ [(keyGroup s pos, typ, pos, flags, tick)] })
  else s

/-- FLAGS of a position's event: ALWAYS and LOCKED as they stand, with more bits (08 Table 8-5). -/
def keyFlags (s : State) (pos extra : Nat) : Nat := extra + 2 * b2n (keyAlways s pos) + 4 * b2n (keyLocked s)

/-- Post an event of a position to partition p and pass it to GNG. -/
def keyPost (s : State) (p pos typ extra tick : Nat) : State :=
  let fl := keyFlags s pos extra
  let lossy := if (nth s.core.key.fifos p {}).loss then 16 else 0
  let s := fifoPost s p typ pos fl 0 tick 0
  keyFwd s pos typ (fl + lossy) tick

/-- PRESS and RELEASE of the position are posted (08 R218, R228, R231, R234, R236). -/
def keyReports (s : State) (pos : Nat) (k : KeySt) : Bool :=
  keyEn s pos && !k.rbr && !k.masked && !bit s.core.key.suspended (keyGroup s pos) && !(keyLocked s && !keyAlways s pos)

/-- (r, c) is ambiguous in a sample (08 R232). -/
def keyAmbig (closed : BitVec 160) (pos : Nat) : Bool :=
  let r := pos / 16
  let c := pos % 16
  let cols := (upto 16).filter (fun x => x != c && bit closed (16 * r + x))
  if cols.isEmpty then false
  else (upto 10).any (fun y => y != r && bit closed (16 * y + c) && cols.any (fun x => bit closed (16 * y + x)))

/-- Set a key to release-before-report (08 R231). -/
def keyRbr (s : State) (pos : Nat) : State :=
  let k := keyOf s pos
  if k.st = .up then s else setKey s pos { k with rbr := true }

/-- Every position for which the state is held. -/
def heldKeys (s : State) : List Nat := s.core.key.keys.map (fun e => e.1)

/-- One sample of one position (08 Table 8-4, R229-R234). t: its tick; n: closed positions of the matrix. -/
def keySample (s : State) (closed : BitVec 160) (n t st0 : Nat) (first : Bool) (pos : Nat) : State :=
  let k := keyOf s pos
  let on := bit closed pos
  let g := keyGroup s pos
  let cfg := used s (0x1208 + g)
  let owner := ownerN s (.key g)
  let lockout := bit cfg 7
  let wet := nth s.core.key.frameWet (pos % 16) 0 != 0
  let deb := msTicks (if wet then fld cfg 16 8 else fld cfg 0 7)
  let ghosted := !lockout && on && keyAmbig closed pos
  let post := fun (s : State) (typ extra : Nat) => keyPost s owner pos typ extra st0
  let ghost := fun (s : State) =>
    let s := setKey s pos { k with ghost := true }
    whenS (keyEn s pos && !k.ghost && !k.rbr) s (fun s => post s 5 0)
  match k.st with
  | .up =>
    if !on then (if k.ghost then setKey s pos { k with ghost := false } else s)
    else if ghosted then ghost s
    else setKey s pos { k with st := .pressPending, cand := t, ghost := false, firstCand := first }
  | .pressPending =>
    if !on then setKey s pos {}
    else if k.ghost && !ghosted then setKey s pos { k with cand := t, ghost := false, firstCand := first }
    else if k.ghost then s
    else if t - k.cand < deb then s
    else if ghosted then ghost s
    else if lockout && decide (2 < n) then
      let s := setKey s pos { k with rbr := true }
      whenS (keyEn s pos && !k.rbr) s (fun s => post s 6 0)
    else
      let say := keyReports s pos k
      let s := setKey s pos { k with st := .down, reported := if say then some (Fin.ofNat 4 owner) else none }
      whenS say s (fun s =>
        let s := modK s (fun b => { b with idleFrom := now s })
        post s 1 (b2n wet + 128 * b2n k.firstCand))
  | .down => if on then s else setKey s pos { k with st := .releasePending, cand := t }
  | .releasePending =>
    if on then setKey s pos { k with st := .down }
    else if t - k.cand < msTicks (fld cfg 8 8) then s
    else
      let say := keyReports s pos k
      let s := setKey s pos {}
      if k.masked then whenS (keyEn s pos) s (fun s => post s 4 0)
      else whenS say s (fun s => post s 2 0)

/-- An ENC event is posted, or merged into the newest entry (08 R239). While the device is locked, an encoder that is not
ALWAYS posts nothing, a LOCK of the same frame included (08 R236). -/
def encPost (s : State) (e : EncDue) : State :=
  if keyLocked s && !e.always then s
  else
    let p := ownerN s (.key (8 + e.n))
    let d := clampI (-127) 127 e.detents
    match encMerge s p e.n d e.tick e.vel with
    | some s => s
    | none => fifoPost s p 0x10 e.n (2 * b2n e.always + 4 * b2n (keyLocked s)) (unsgn 16 d) e.tick e.vel

/-- The ENC events of the frame follow its group events: they are posted when its pass has ended, and in a frame without
one when the next frame start ends the frame's posting (08 R221, R240; DEDUCED, notes/assumptions/25.md). -/
def encFlush (s : State) : State := modK (s.core.key.encDue.foldl encPost s) (fun b => { b with encDue := [] })

/-- A pass over the enabled rows ends and gives its sample (08 R221). -/
def keyPassOp (s : State) (closedIn : BitVec 160) : State :=
  match s.core.key.passStart with
  | none => s
  | some (t, st0) =>
    let closed := bvOf 160 (fun i => bit closedIn i && keyRowEn s (i / 16))
    let n := popcnt closed
    let first := s.core.key.lastSample.isNone
    let s := (upto 160).foldl (fun s pos =>
      if keyRowEn s (pos / 16) then keySample s closed n t st0 first pos else s) s
    encFlush (modK s (fun b => { b with passStart := none, sampled := true, lastSample := some (t, st0), closed := closed }))

/-- A key is down for STUCK seconds: it is masked (08 R234). -/
def keyStuckOp (s : State) (pos : Nat) : State :=
  let k := keyOf s pos
  if pos < 160 ∧ (k.st = .down ∨ k.st = .releasePending) ∧ k.masked = false then
    let s := setKey s pos { k with masked := true }
    whenS (keyEn s pos && !k.rbr) s (fun s => keyPost s (ownerN s (.key (keyGroup s pos))) pos 3 0 (stamp s))
  else s

/-- Post a lock event to all four FIFOs (08 R235). -/
def lockPost (s : State) (typ : Nat) : State :=
  let s := (upto 4).foldl (fun s p => fifoPost s p typ 0 0 0 (stamp s) 0) s
  raiseAll s 26

/-- Change the lock state, held in AON. -/
def setLocked (s : State) (b : Bool) : State := modH s (fun h => { h with locked := b })

/-- The matcher returns to IDLE. -/
def matchIdle (s : State) : State := modK s (fun b => { b with mtch := { b.mtch with idle := true, step := 0, heldFrom := none } })

/-- The device locks (08 R235, R236). -/
def lockOp (s : State) : State :=
  if keyLocked s then s
  else
    let s := setLocked s true
    let s := (heldKeys s).foldl (fun s pos => if keyAlways s pos then s else keyRbr s pos) s
    lockPost (matchIdle s) 0x20

/-- The device unlocks (08 R235, R237). -/
def unlockOp (s : State) : State :=
  if keyLocked s then
    let s := setLocked s false
    let s := (heldKeys s).foldl keyRbr s
    let s := modK (matchIdle s) (fun b => { b with idleFrom := now s })
    lockPost s 0x21
  else s

/-- The positions of chord k (08 R237). -/
def chord (s : State) (k : Nat) : BitVec 160 :=
  let w := used s (0x1280 + 2 * k)
  bvOf 160 (fun i => (upto 4).any (fun j => fld w (8 * j) 8 == i))

/-- The matcher fails. -/
def matchFail (s : State) : State := modK (matchIdle s) (fun b => { b with fails := sat 255 (b.fails + 1) })

/-- The matcher at a frame start (08 R237). -/
def matcherOp (s : State) : State :=
  let steps := uf s 0x127A 0 4
  if !keyLocked s || steps == 0 then s
  else
    let m := s.core.key.mtch
    let t := match s.core.key.lastSample with
      | some x => x.1
      | none => now s
    let mine := fun pos => keyEn s pos && !keyAlways s pos && !(keyOf s pos).masked
    let dn := bvOf 160 (fun i => (keyOf s i).st == .down && mine i)
    let setM := fun (s : State) (m : MatchSt) => modK s (fun b => { b with mtch := m })
    if m.idle then
      let clear := (heldKeys s).all (fun pos => !(mine pos) || (keyOf s pos).st == .up)
      if clear then setM s { idle := false, step := 0, heldFrom := none, stepEnd := t, prevDown := dn } else s
    else
      let c := chord s m.step
      let cp := if m.step = 0 then 0 else chord s (m.step - 1)
      let stray := dn &&& ~~~m.prevDown &&& ~~~(c ||| cp)
      let held := c &&& ~~~dn == 0
      let s := setM s { m with prevDown := dn }
      if stray ≠ 0 then matchFail s
      else match m.heldFrom with
        | some h =>
          if !held then matchFail s
          else if msTicks (uf s (0x1281 + 2 * m.step) 0 7 * 100) ≤ t - h then
            (if steps ≤ m.step + 1 then
              let s := unlockOp s
              modK s (fun b => { b with unlocks := sat 255 (b.unlocks + 1) })
            else setM s { m with step := m.step + 1, heldFrom := none, stepEnd := t, prevDown := dn })
          else s
        | none =>
          if held then setM s { m with heldFrom := some t, prevDown := dn }
          else if decide (0 < m.step) && decide (msTicks (uf s 0x127A 16 8 * 100) ≤ t - m.stepEnd) then matchFail s
          else s

/-- Suspension and resumption of one group at a frame start (08 R228). -/
def suspendOp (s : State) (g : Nat) : State :=
  let need := uf s 0x1210 (4 * g) 4
  let film := (bitsOf (columnSet s g) 16).filter (fun c => (nth s.core.key.cols c {}).state == 2)
  let susp := need != 0 && decide (need ≤ film.length)
  let was := bit s.core.key.suspended g
  let p := ownerN s (.key g)
  if susp = was then s
  else
    let s := modK s (fun b => { b with suspended := setBit b.suspended g susp })
    let s := fifoPost s p (if susp then 8 else 9) g 0 0 (stamp s) 0
    let s := if susp then s
      else (heldKeys s).foldl (fun s pos =>
        let k := keyOf s pos
        if keyGroup s pos = g ∧ (k.st = .down ∨ k.st = .pressPending) then keyRbr s pos else s) s
    raise s p 25

/-- What an encoder gives at a frame start (08 R239): REF moves, and its event is due. -/
def encFrameOp (s : State) (n : Nat) : State :=
  let e := nth s.core.key.encs n {}
  let cfg := used s (0x1290 + 4 * n)
  let det := nmax 1 (fld cfg 0 3)
  let m := divZero (sgn 16 (e.count - e.ref).toNat) det
  if m = 0 then s
  else
    let s := modK s (fun b => { b with encs := upd b.encs n (fun e => { e with ref := e.ref + BitVec.ofInt 16 (m * det) }) })
    if keyLocked s && !bit cfg 24 then s
    else
      modK s (fun b => { b with encDue := b.encDue ++ [⟨n, m, bit cfg 24, unsgn 16 e.vel, stamp s⟩] })

/-- EPD leaves the pads to KEY continuously: no update runs, or its rails rise or fall (09 R253). -/
def padsFree (s : State) : Bool :=
  match s.core.epd.run with
  | some r => r.phase != .frames
  | none => true

/-- The device locks on its own: AUTOLOCK is non-zero, and no PRESS has been posted for AUTOLOCK × 10 s (08 R235). -/
def autolockDue (s : State) : Bool :=
  let auto := uf s 0x127A 8 8
  auto != 0 && decide (auto * 10 * 32768 ≤ now s - s.core.key.idleFrom)

/-- A scan frame starts; the course has been taken up (08 R221-R225, R235-R240). -/
def keyFrameOp (s : State) : State :=
  let s := modK (encFlush s) (fun b => { b with
    emptyFrames := if b.inFrame && !b.sampled then sat 255 (b.emptyFrames + 1) else b.emptyFrames
    frames := b.frames + 1, inFrame := true, sampled := false
    frameWet := b.cols.map (fun c => c.state) })
  let s := whenS (autolockDue s) s lockOp
  let s := matcherOp s
  let s := (upto 8).foldl suspendOp s
  let s := (upto 3).foldl encFrameOp s
  let every := uf s 0x1200 8 5
  let set := probeSet s
  let due := every != 0 && s.core.key.frames.toNat % every == 0 && s.core.key.probe.isNone && set != 0
  let s := whenS due s (fun s => modK s (fun b => { b with probe := some (lowest set 0) }))
  modK s (fun b => { b with passStart := if padsFree s then some (now s, stamp s) else none })

/-- An EPD update or toggle starts or leaves its frames: a pass in progress is abandoned, and the continuous grant
carries a new one (08 R224, 09 R253). -/
def keyPadsChange (s : State) : State :=
  let s := modK s (fun b => { b with grantLeft := 0 })
  let k := s.core.key
  if k.inFrame && !k.sampled then
    modK s (fun b => { b with passStart := if padsFree s then some (now s, stamp s) else none })
  else s

/-- A grant in vertical blank starts: it carries the pass when the frame has none and it is long enough, and its remainder
carries probe slots (08 R223). -/
def keyGrant (s : State) (us : Nat) : State :=
  let k := s.core.key
  let pass := 25 * ((upto 10).filter (fun r => keyRowEn s r)).length
  if k.inFrame && !k.sampled && k.passStart.isNone && decide (pass ≤ us) then
    modK s (fun b => { b with passStart := some (now s, stamp s), grantLeft := us - pass })
  else modK s (fun b => { b with grantLeft := us })

/-- A probe column slot of 60 us has room: the pass of the frame is over, and KEY holds the pads for the whole frame, or the
grant in progress still has a whole slot (08 R222, R223, Table 8-3). -/
def probeSlot (s : State) : Bool := s.core.key.passStart.isNone && (padsFree s || decide (60 ≤ s.core.key.grantLeft))

/-- The wet state after a new LEAK (08 R227). -/
def wetState (sus film hyst st leak : Nat) : Nat :=
  if film ≤ leak then 2
  else if leak < sus - hyst then 0
  else if st = 0 ∧ sus ≤ leak then 1
  else if st = 2 ∧ leak < film - hyst then 1
  else st

/-- A probe column slot ends (08 R223, R225-R227). The rounding of a half unit is a free value, and so is a COMMON that its
12 bits cannot hold (DESIGN CHOICE, notes/assumptions/13.md). -/
def probeColOp (s : State) (iA iB : Int) : State :=
  match if probeSlot s then s.core.key.probe else none with
  | none => s
  | some c =>
    let busy := (upto 10).any (fun r =>
      let k := keyOf s (16 * r + c)
      bit s.core.key.closed (16 * r + c) || k.st != .up || k.masked)
    let old := nth s.core.key.cols c {}
    let up : Int := (free s 0 % 2 : Nat)
    let comm := (iA + iB + up) / 2
    let new : ColSt :=
      if busy then { old with stale := true }
      else if 4095 < iA.natAbs ∨ 4095 < iB.natAbs then { old with stale := false, saturated := true }
      else
        let leak := ((iA - iB + up) / 2).toNat
        { leak := leak
          common := if -2048 ≤ comm ∧ comm ≤ 2047 then comm else sgn 12 (free s 1)
          stale := false, saturated := false
          state := wetState (uf s 0x1220 0 12) (uf s 0x1220 16 12) (uf s 0x1221 0 12) old.state leak }
    let next := (bitsOf (probeSet s) 16).filter (fun x => decide (c < x))
    let s := modK s (fun b => { b with
      cols := upd b.cols c (fun _ => new)
      probe := next.head?
      grantLeft := b.grantLeft - 60
      probes := if next.isEmpty then b.probes + 1 else b.probes })
    if new.state = old.state then s
    else (upto 8).foldl (fun s g => if bit (columnSet s g) c then raiseOwner s (.key g) 25 else s) s

/-- Place of (A, B) in the rising sequence 00, 01, 11, 10 (08 R238). -/
def grayIdx (a b : Bool) : Nat := if a then (if b then 2 else 3) else (if b then 1 else 0)

/-- A filtered change of an encoder's inputs (08 R238). -/
def encEdgeOp (s : State) (n : Nat) (a b : Bool) : State :=
  let dir := bit (used s (0x1290 + 4 * n)) 3
  modK s (fun k => { k with encs := upd k.encs n (fun e =>
    let d := (grayIdx a b + 4 - grayIdx e.a e.b) % 4
    let e' := { e with a := a, b := b }
    if d = 0 then e'
    else if d = 2 then { e' with errors := sat 65535 (e.errors + 1) }
    else if (d = 1) != dir then { e' with count := e.count + 1 }
    else { e' with count := e.count - 1 }) })

/-- VEL of one encoder (08 R239): the rounding of the quotient is a free value. -/
def velOf (win : Nat) (change : Int) (up : Nat) : Int :=
  clampI (-32767) 32767 ((change * 100 + ((win - 1) * (up % 2) : Nat)) / (win : Int))

/-- The velocity update of every 10 ms (08 R239). -/
def encVelOp (s : State) : State :=
  modK s (fun k => { k with encs := k.encs.zipIdx.map (fun x =>
    let e := x.1
    let win := nmax 1 (uf s (0x1290 + 4 * x.2) 16 8)
    let past := nth e.hist (win - 1) 0
    { e with vel := velOf win (sgn 16 (e.count - past).toNat) (free s x.2), hist := (e.count :: e.hist).take 256 }) })

/-- A write of n to KEY_FIFO_POP frees the oldest entries (08 R241). -/
def fifoPopOp (s : State) (p n : Nat) : State :=
  modK s (fun b => { b with fifos := upd b.fifos p (fun q => { q with entries := q.entries.drop n }) })

/-- CLEAR of KEY_CNTCLR (08 Table 8-10). -/
def keyCntclrOp (s : State) : State :=
  modK s (fun b => { b with emptyFrames := 0, fails := 0, unlocks := 0, encs := b.encs.map (fun e => { e with errors := 0 }) })

/-- REF of an encoder is set to COUNT. -/
def encRef (s : State) (n : Nat) : State :=
  modK s (fun b => { b with encs := upd b.encs n (fun e => { e with ref := e.count }) })

/-- The owner of key group g has changed from partition old (08 Edges). -/
def keyGroupMoved (s : State) (old g : Nat) : State :=
  (heldKeys s).foldl (fun s pos =>
    let k := keyOf s pos
    if keyGroup s pos = g ∧ (k.st = .down ∨ k.st = .releasePending) then
      let s := whenS (keyReports s pos k) s (fun s => keyPost s old pos 2 32 (stamp s))
      keyRbr s pos
    else s) s

/-- KEY takes up a course (08 Edges): a position that moves, is disabled or changes ALWAYS while its key is not UP. -/
def hookKey (old s : State) : State :=
  (heldKeys s).foldl (fun s pos =>
    let k := keyOf s pos
    let gone := keyEn old pos && !keyEn s pos
    if k.st ≠ .up ∧ (keyGroup old pos ≠ keyGroup s pos ∨ gone ∨ keyAlways old pos ≠ keyAlways s pos) then
      let p := ownerN s (.key (keyGroup old pos))
      let s := if k.reported = some (Fin.ofNat 4 p) ∧ k.rbr = false ∧ k.masked = false then keyPost s p pos 2 32 (stamp s) else s
      keyRbr s pos
    else s) s

/-- The partition's reset is complete (08 Edges). -/
def keyPartReset (s : State) (p : Nat) : State :=
  let s := (heldKeys s).foldl (fun s pos => if ownerN s (.key (keyGroup s pos)) = p then keyRbr s pos else s) s
  (upto 3).foldl (fun s n => if ownerN s (.key (8 + n)) = p then encRef s n else s) s

/-- A partition's FIFO is emptied (04 Table 4-7, 08 R240). -/
def keyFifoReset (s : State) (p : Nat) : State :=
  modK s (fun b => { b with fifos := upd b.fifos p (fun q => { q with entries := [], nextSeq := 0, loss := false }) })

/-- KEY at core start (08 R239, R245): the encoders take the levels they find, and the first frame starts. -/
def keyStart (s : State) (a b : BitVec 3) : State :=
  keyFrameOp <| modK s (fun k => { k with
    idleFrom := now s
    encs := k.encs.zipIdx.map (fun x => { x.1 with a := bit a x.2, b := bit b x.2 }) })

/-- Positions named in the used steps, read through w. -/
def chordNames (w : Nat → Word) (k : Nat) : List Nat :=
  ((upto 4).map (fun j => fld (w (0x1280 + 2 * k)) (8 * j) 8)).filter (fun x => x != 0xFF)

/-- The staged words of the steps and the map, read through w, break R248: a step below STEPS without a position, or a
named position out of range, disabled or ALWAYS. -/
def chordsBad (w : Nat → Word) : Bool :=
  (upto (nmin 8 (fld (w 0x127A) 0 4))).any (fun k =>
    let ns := chordNames w k
    ns.isEmpty || ns.any (fun p =>
      decide (160 ≤ p) || (let b := fld (w (0x1240 + p / 4)) (8 * (p % 4)) 8
        !b.testBit 3 || b.testBit 4)))

/-- A staged KEY word of value v is acceptable (08 R248). -/
def keyWordOk (s : State) (a : Nat) (v : Word) : Bool :=
  let w := fun p => if p = a then v else rd s (p + 0x100)
  let o := a % 0x200
  if o = 0 then decide (4 ≤ fld v 0 6 ∧ fld v 0 6 ≤ 32) && decide (fld v 8 5 ≤ 16) && fld v 16 10 != 0
  else if 8 ≤ o ∧ o < 0x10 then
    decide (5 ≤ fld v 0 7 ∧ fld v 0 7 ≤ 80) && decide (10 ≤ fld v 8 8 ∧ fld v 8 8 ≤ 160)
      && decide (fld v 0 7 ≤ fld v 16 8 ∧ fld v 16 8 ≤ 160) && decide (5 ≤ fld v 24 7 ∧ fld v 24 7 ≤ 120)
  else if o = 0x20 ∨ o = 0x21 then
    decide (fld (w 0x1221) 0 12 < fld (w 0x1220) 0 12) && decide (fld (w 0x1220) 0 12 < fld (w 0x1220) 16 12)
  else if 0x40 ≤ o ∧ o < 0x68 then !chordsBad w
  else if o = 0x7A then decide (fld v 0 4 ≤ 8) && fld v 16 8 != 0 && !chordsBad w
  else if 0x80 ≤ o ∧ o < 0x90 then
    (if o % 2 = 0 then
      (chordNames w ((o - 0x80) / 2)).all (fun p => decide (p < 160) &&
        (let b := fld (w (0x1240 + p / 4)) (8 * (p % 4)) 8
         b.testBit 3 && !b.testBit 4))
        && !(decide ((o - 0x80) / 2 < fld (w 0x127A) 0 4) && (chordNames w ((o - 0x80) / 2)).isEmpty)
     else decide (1 ≤ fld v 0 7 ∧ fld v 0 7 ≤ 100))
  else if o = 0x90 ∨ o = 0x94 ∨ o = 0x98 then decide (1 ≤ fld v 0 3 ∧ fld v 0 3 ≤ 4) && fld v 16 8 != 0
  else true

end Sys2Proof.Machine
end

