-- ==== Sys2Proof/Machine/EpdOps.lean ====
section
/-! DEFINITION. The panel: pixels, waveforms, updates, rails, blink regions (09, 10). -/

namespace Sys2Proof.Machine

/-- Change EPD. -/
def modE (s : State) (f : EpdSt → EpdSt) : State := modC s (fun c => { c with epd := f c.epd })
/-- Change the pixel and waveform state. -/
def modP (s : State) (f : PixSt → PixSt) : State := modC s (fun c => { c with pix := f c.pix })

/-- COLS and ROWS in force. -/
def epdCols (s : State) : Nat := uf s 0x1401 0 10
/-- ROWS in force. -/
def epdRows (s : State) : Nat := uf s 0x1401 16 9

/-- A rectangle: X0, X1, Y0, Y1. -/
structure Rect where
  x0 : Nat
  x1 : Nat
  y0 : Nat
  y1 : Nat
  deriving DecidableEq, Repr

/-- A rectangle from its X and Y words. -/
def rectOf (x y : Word) : Rect := { x0 := fld x 0 10, x1 := fld x 16 10, y0 := fld y 0 10, y1 := fld y 16 10 }
/-- The rectangle is empty (09 R265). -/
def rectEmpty (r : Rect) : Bool := decide (r.x1 < r.x0) || decide (r.y1 < r.y0)
/-- The pixel lies in the rectangle. -/
def inRect (r : Rect) (x y : Nat) : Bool := decide (r.x0 ≤ x ∧ x ≤ r.x1 ∧ r.y0 ≤ y ∧ y ≤ r.y1)
/-- Two rectangles overlap. -/
def rectsMeet (a b : Rect) : Bool :=
  !rectEmpty a && !rectEmpty b && decide (a.x0 ≤ b.x1 ∧ b.x0 ≤ a.x1 ∧ a.y0 ≤ b.y1 ∧ b.y0 ≤ a.y1)
/-- a lies within b. -/
def rectWithin (a b : Rect) : Bool := decide (b.x0 ≤ a.x0 ∧ a.x1 ≤ b.x1 ∧ b.y0 ≤ a.y0 ∧ a.y1 ≤ b.y1)

/-- Panel region r in force. -/
def panelRect (s : State) (r : Nat) : Rect := rectOf (used s (0x1420 + 2 * r)) (used s (0x1421 + 2 * r))
/-- Blink region k in force. -/
def blinkRect (s : State) (k : Nat) : Rect := rectOf (used s (0x1460 + 4 * k)) (used s (0x1461 + 4 * k))

/-- The pixel indices of a rectangle, row by row (10 R277). -/
def rectIdx (s : State) (r : Rect) : List Nat :=
  if rectEmpty r then []
  else (upto (r.y1 + 1 - r.y0)).foldr (fun dy acc =>
    (upto (r.x1 + 1 - r.x0)).map (fun dx => (r.y0 + dy) * epdCols s + r.x0 + dx) ++ acc) []

/-- The panel region that holds pixel index i, for indices within the panel. -/
def regionOfPix (s : State) (i : Nat) : Option Nat :=
  let c := epdCols s
  if c = 0 ∨ c * epdRows s ≤ i then none
  else (upto 4).find? (fun r => inRect (panelRect s r) (i % c) (i / c))

/-- The byte address of a pixel word. -/
def pixAddr (i : Nat) : Nat := 0x100000 + 2 * i
/-- A pixel word (10 Table 10-2). -/
def pixWord (s : State) (i : Nat) : Nat := leNat (bufBytes s (pixAddr i) 2)
/-- Store a pixel word. -/
def setPix (s : State) (i w : Nat) : State := bufStore s (pixAddr i) (leBytes 2 w)

/-- CUR of a pixel word. -/
def pixCur (w : Nat) : Nat := w % 16
/-- TGT of a pixel word. -/
def pixTgt (w : Nat) : Nat := w / 16 % 16
/-- TALLY of a pixel word as a field. -/
def pixTally (w : Nat) : Nat := w / 256 % 64
/-- The pixel is UNKNOWN (10 R278). -/
def pixUnknown (w : Nat) : Bool := pixTally w == 32
/-- BLINK of a pixel word. -/
def pixBlink (w : Nat) : Bool := w.testBit 14
/-- DIRTY of a pixel word. -/
def pixDirty (w : Nat) : Bool := w.testBit 15
/-- A pixel word from its fields. -/
def mkPix (cur tgt tally : Nat) (blink dirty : Bool) : Nat :=
  mkN [(0, 4, cur), (4, 4, tgt), (8, 6, tally), (14, 1, b2n blink), (15, 1, b2n dirty)]
/-- The pixel becomes UNKNOWN; TGT, BLINK and DIRTY are kept (10 Edges). -/
def pixLost (w : Nat) : Nat := mkPix (pixCur w) (pixTgt w) 32 (pixBlink w) (pixDirty w)

/-- The ink of pixel index i (10 R279). -/
def pixInk (s : State) (i : Nat) : Nat :=
  let c := nmax 1 (epdCols s)
  let e := 4 * (i / c % nmax 1 (uf s 0x1450 12 3)) + i % c % nmax 1 (uf s 0x1450 8 3)
  uf s 0x1451 (2 * e) 2

/-- The level that the gamma store gives an ink's value; a byte above 0x0F gives a free level (10 Table 10-3). -/
def gammaLevel (s : State) (g : List Byte) (ink v : Nat) : Nat :=
  let b := (nth g (256 * ink + v) 0).toNat
  if b < 16 then b else free s (0x4000 + 256 * ink + v) % 16

/-- A host write of a pixel word (10 R280). gamma: the region writes in gamma mode. -/
def pixWrite (s : State) (gamma : Bool) (i v : Nat) : State :=
  let w := pixWord s i
  let tgt := if gamma then gammaLevel s (s.core.pix.gamma.getD []) (pixInk s i) (v % 256) else v / 16 % 16
  let dirty := v.testBit 15 || tgt != pixTgt w || pixUnknown w
  setPix s i (mkPix (pixCur w) tgt (pixTally w) (v.testBit 14) dirty)

/-- Address of the waveform region (11 Table 11-2). -/
def wfBase : Nat := 0x010000
/-- Bytes of the waveform region. -/
def wfSize : Nat := 0x80000

/-- Bytes of the waveform table, and whether the read met an uncorrectable word. -/
def wfRead (s : State) (off n : Nat) : List Byte × Bool := flashRead s false (wfBase + off) n
/-- A little-endian number of the table. -/
def wfNat (s : State) (off n : Nat) : Nat := leNat (wfRead s off n).1

/-- Signed frame sum of phase bytes (10 R289): VPOS frames count as positive. -/
def phaseSum (ph : List Byte) : Int :=
  ph.foldl (fun acc b =>
    let n : Int := (b.toNat % 64 + 1 : Nat)
    if b.toNat / 64 = 1 then acc + n else if b.toNat / 64 = 2 then acc - n else acc) 0
/-- Drive sequence of phase bytes: code and frames. -/
def phaseSeq (ph : List Byte) : List (Nat × Nat) := ph.map (fun b => (b.toNat / 64, b.toNat % 64 + 1))
/-- Frames of a drive sequence. -/
def seqFrames (q : List (Nat × Nat)) : Nat := q.foldl (fun acc p => acc + p.2) 0

/-- Offset of a directory entry (10 Table 10-5). -/
def dirOff (s : State) (ink band f t : Nat) : Nat :=
  wfNat s 28 4 + 4 * (((ink * wfNat s 6 1 + band) * 17 + f) * 16 + t)

/-- The body of a transition: its offset, its phase bytes, and whether it or its entry was read uncorrectable. -/
def wfBody (s : State) (ink band f t : Nat) : Nat × List Byte × Bool :=
  let e := wfRead s (dirOff s ink band f t) 4
  let off := leNat (e.1.take 3)
  let h := wfRead s off 4
  let n := (nth h.1 0 0).toNat
  let b := wfRead s (off + 4) n
  if e.2 then (0x1000000 + dirOff s ink band f t, [], true) else (off, b.1, h.2 || b.2)

/-- The bodies that the directory entries of a band name, which an update reads (10 R287), each once, and whether it was read
uncorrectable; R293 counts those. -/
def wfBodies (s : State) (band : Nat) : List (Nat × Bool) :=
  ((upto (s.core.pix.inks * 272)).map (fun e =>
    let b := wfBody s (e / 272) band (e / 16 % 17) (e % 16)
    (b.1, b.2.2))).eraseDups

/-- The balancing unit of an ink, negative or positive: its phase bytes (10 Table 10-4). -/
def balUnit (s : State) (ink : Nat) (neg : Bool) : List Byte :=
  let o := 32 + 20 * ink
  (wfRead s (o + (if neg then 4 else 12)) (wfNat s (o + (if neg then 0 else 1)) 1)).1

/-- What the start fixes for one pixel (10 R288, R289): the run, and one saturation or none. -/
def pixStart (s : State) (band i w dest : Nat) : PixRun × Nat :=
  let ink := pixInk s i
  let f := if pixUnknown w then 16 else pixCur w
  let body := wfBody s ink band f dest
  if body.2.2 then ({ idx := i, dest := dest, tally := 0, seq := [], body := body.1, ecc := true }, 0)
  else
    let t0 : Int := if pixUnknown w then 0 else sgn 6 (pixTally w)
    let n := divZero (phaseSum body.2.1) (nmax 1 (wfNat s 8 1) : Nat)
    let t := t0 + n
    let beyond := decide (uf s 0x1452 0 5 < t.natAbs)
    let k := if beyond then nmin (t.natAbs - uf s 0x1452 8 5) (uf s 0x1452 16 6) else 0
    let unit := if k = 0 then [] else balUnit s ink (decide (0 < t))
    let t1 := t - t.sign * (k : Nat)
    let t2 := if 31 < t1.natAbs then t1.sign * 31 else t1
    ({ idx := i, dest := dest, tally := t2, seq := phaseSeq (body.2.1 ++ (List.replicate k unit).flatten)
       body := body.1, ecc := false }, b2n (decide (31 < t1.natAbs)))

/-- The 64-bit words that hold the pixels. -/
def pixWords (idx : List Nat) : List Nat := (idx.map (fun i => pixAddr i / 8)).eraseDups

/-- The four pixels of each uncorrectable word among those of the pixels become UNKNOWN, each word counting once (01 R39, 10
Edges). -/
def pixReplace (s : State) (idx : List Nat) : State :=
  ((pixWords idx).filter (fun w => s.core.buf.bad.elem w)).foldl (fun s w =>
    let i0 := (8 * w - 0x100000) / 2
    let s := bufStore s (8 * w) ((upto 4).foldr (fun j acc => leBytes 2 (pixLost (pixWord s (i0 + j))) ++ acc) [])
    modP s (fun p => { p with secdedLost := sat 255 (p.secdedLost + 1) })) s

/-- EPD reads the words of the pixels: single-bit errors are corrected and counted, uncorrectable words replaced (01 R39, 10
Edges). -/
def pixSecded (s : State) (idx : List Nat) : State :=
  pixReplace ((pixWords idx).foldl (fun s w => bufTouch s (8 * w) 8) s) idx

/-- UPPER of band b in 0.1 C, signed (09 R262). -/
def bandUpper (s : State) (b : Nat) : Int := sgn 8 (uf s (0x1410 + b) 0 8) * 10

/-- The raw band of a temperature, and CLAMPED (09 R262). -/
def rawBand (s : State) (t : Int) : Nat × Bool :=
  let n := nmax 1 (uf s 0x1418 0 4)
  if t < sgn 8 (uf s 0x1418 16 8) * 10 then (0, true)
  else match (upto n).find? (fun b => decide (t ≤ bandUpper s b)) with
    | some b => (b, false)
    | none => (n - 1, true)

/-- The band used, with the hysteresis about the previous one (09 R262). -/
def bandUsed (s : State) (t : Int) : Nat :=
  let raw := (rawBand s t).1
  let hyst : Int := (uf s 0x1418 8 8 : Nat)
  match s.core.pix.prevBand with
  | some p =>
    if uf s 0x1418 0 4 ≤ p then raw
    else if p < raw ∧ t ≤ bandUpper s p + hyst then p
    else if raw < p ∧ bandUpper s (p - 1) - hyst < t then p
    else raw
  | none => raw

/-- The four words of a record (09 Table 9-5). -/
def updRecord (s : State) (u : UpdSt) : List Word :=
  let ms := (now s - u.start) * 1000 / 32768
  [mkW [(0, 16, u.seq), (16, 16, u.course)],
   mkW [(0, 16, u.temp), (16, 3, u.band), (19, 1, b2n u.toggle), (20, 4, u.subject), (24, 2, u.owner.val),
     (26, 3, u.outcome), (29, 1, b2n u.clamped), (30, 1, b2n u.fallback), (31, 1, b2n u.full)],
   mkW [(0, 8, u.vcom), (8, 8, u.drive), (16, 12, sat 4095 u.done), (28, 1, b2n (reduced s)), (29, 1, b2n u.downSlow)],
   mkW [(0, 16, sat 65535 ms), (16, 16, sat 65535 u.sats)]]

/-- Raise EPD_DONE in the owner of a region. -/
def epdDone (s : State) (r : Nat) : State := raiseOwner s (.panel r) 27

/-- Write the record of an update or toggle, count it, and raise what it raises (09 R271, R272). -/
def epdRecord (s : State) (u : UpdSt) : State :=
  let rec4 := updRecord s u
  let s := modE s (fun e => { e with
    run := none
    recs := if u.toggle then e.recs else upd e.recs u.subject (fun _ => rec4)
    lastRec := rec4
    railFaults := if u.outcome = 2 ∨ u.outcome = 3 then sat 255 (e.railFaults + 1) else e.railFaults
    tempRefused := if u.outcome = 4 then sat 255 (e.tempRefused + 1) else e.tempRefused
    clamped := if u.clamped then sat 255 (e.clamped + 1) else e.clamped
    fallback := if u.fallback then sat 255 (e.fallback + 1) else e.fallback })
  let s := whenS (u.outcome == 2 || u.outcome == 3) s (fun s => raiseAll s 28)
  whenS (!u.toggle) s (fun s => epdDone s u.subject)

/-- The changes of the end to the pixels that took part (09 R273, 10 R290, R293). -/
def epdPixEnd (s : State) (u : UpdSt) : State :=
  u.pix.foldl (fun s p =>
    let w := pixWord s p.idx
    if u.outcome = 3 then setPix s p.idx (pixLost w)
    else if u.outcome = 1 then
      setPix s p.idx (mkPix p.dest (pixTgt w) (if p.ecc then 32 else unsgn 6 p.tally) (pixBlink w) (pixDirty w && u.toggle))
    else s) s

/-- An update or toggle ends (09 R271, 10 R290). -/
def epdEnd (s : State) (u : UpdSt) : State :=
  let s := epdPixEnd (pixSecded s (u.pix.map (fun p => p.idx))) u
  let done := u.outcome == 1
  let s := whenS done s (fun s => modP s (fun p => { p with
    sats := sat 65535 (p.sats + u.sats)
    blinks := if u.toggle then upd p.blinks u.subject (fun b =>
      { b with toggles := b.toggles + 1, showingAlt := u.towardAlt }) else p.blinks }))
  epdRecord s u

/-- The sample, band, codes and timing that a start fixes; outcome 4 where it does not start (09 R261-R264, R269). -/
def epdFix (s : State) (toggle : Bool) (subject owner : Nat) (full : Bool) : UpdSt :=
  let q := nth s.core.thm.sens 7 {}
  let fb := bit (used s 0x1418) 27
  let t := sgn 16 q.temp
  let seq := (s.core.epd.lastSeq + 1) % 65536
  let base : UpdSt := { toggle := toggle, subject := subject, owner := Fin.ofNat 4 owner, seq := seq
                        course := nth s.core.course.running 3 0, full := full, start := now s
                        grant := uf s 0x1403 16 8 }
  if q.valid || fb then
    let b := if q.valid then bandUsed s t else uf s 0x1418 24 3
    let vc := clampI 0 255 ((uf s 0x1409 0 8 : Nat) + sgn 8 (uf s (0x1410 + b) 8 8))
    { base with
      temp := if q.valid then q.temp else 0x8000, band := b, fallback := !q.valid
      clamped := q.valid && (rawBand s t).2
      vcom := vc.toNat, drive := uf s (0x1410 + b) 16 8 }
  else { base with temp := 0x8000, outcome := 4 }

/-- A start with its pixels as (index, destination): it reads the waveforms, computes the sequences and tallies and
runs, or ends at once (09 R269, 10 R283-R289). -/
def epdBegin (s : State) (u : UpdSt) (pix : List (Nat × Nat)) (towardAlt : Bool) : State :=
  let s := modE s (fun e => { e with lastSeq := u.seq })
  if u.outcome = 4 then epdRecord s u
  else
    let s := modP s (fun p => { p with prevBand := some u.band })
    let g := wfRead s (wfNat s 24 4) (wfNat s 5 1 * 256)
    let s := if g.2 then s else modP s (fun p => { p with gamma := some g.1 })
    let runs := pix.map (fun p => pixStart s u.band p.1 (pixWord s p.1) p.2)
    let eccs := if pix.isEmpty then 0 else ((wfBodies s u.band).filter (fun b => b.2)).length
    let s := modP s (fun p => { p with wfEcc := sat 255 (p.wfEcc + eccs) })
    let u := { u with
      pix := runs.map (fun r => r.1)
      sats := runs.foldl (fun n r => n + r.2) 0
      total := runs.foldl (fun n r => nmax n (seqFrames r.1.seq)) 0
      towardAlt := towardAlt }
    if pix.isEmpty then epdEnd s u
    else
      let s := flashSuspend s
      keyPadsChange (modE s (fun e => { e with run := some u }))

/-- The region that the rotation chooses (09 R268). -/
def nextRegion (s : State) : Option Nat :=
  ((upto 4).map (fun i => (s.core.pix.lastRegion + 1 + i) % 4)).find? (fun r => bit s.core.epd.queued r)

/-- The blink region that the rotation chooses (10 R294). -/
def nextBlink (s : State) : Option Nat :=
  ((upto 8).map (fun i => (s.core.pix.lastBlink + 1 + i) % 8)).find? (fun k => (nth s.core.pix.blinks k {}).pending)

/-- The panel is free to start, apart from what is queued (09 R268, 10 R285, 05 R149). -/
def panelFree (s : State) : Bool :=
  s.core.epd.run.isNone && !heldEpd s && s.core.pix.tableOk && !s.core.pix.validating

/-- A request is queued or a toggle becomes pending. On a free panel with nothing else waiting it would start in that very
instant: what else becomes due before a start does so in the same instant (09 R268). -/
def noteDue (s : State) : State :=
  modP s (fun p => { p with tie := panelFree s && (p.tie || (s.core.epd.queued == 0 && (nextBlink s).isNone)) })

/-- A region update may start: its turn between the kinds has come (10 R294), or both became due in one instant (09 R268).
KEY's slot in progress has ended (R224): that wait is time alone, and the command comes after it. -/
def updateDue (s : State) : Bool :=
  panelFree s && s.core.epd.queued != 0 && ((nextBlink s).isNone || s.core.pix.lastKindBlink || s.core.pix.tie)

/-- A blink toggle may start. -/
def toggleDue (s : State) : Bool :=
  panelFree s && (nextBlink s).isSome && (s.core.epd.queued == 0 || !(s.core.pix.lastKindBlink || s.core.pix.tie))

/-- The update of the chosen region starts; the course has been taken up (09 R269). -/
def updateStartOp (s : State) : State :=
  match nextRegion s with
  | none => s
  | some r =>
    let full := bit s.core.epd.qfull r
    let s := modP s (fun p => { p with tie := false })
    let s := modE s (fun e => { e with queued := setBit e.queued r false, qfull := setBit e.qfull r false })
    let idx := rectIdx s (panelRect s r)
    let s := pixSecded s idx
    let u := epdFix s false r (ownerN s (.panel r)) full
    let pix := (idx.filter (fun i => full || pixDirty (pixWord s i) || pixUnknown (pixWord s i))).map
      (fun i => (i, pixTgt (pixWord s i)))
    let s := if u.outcome = 4 then s else modP s (fun p => { p with lastRegion := r, lastKindBlink := false })
    epdBegin s u pix false

/-- The chosen blink region's toggle starts; the course has been taken up (10 R293, R295). -/
def toggleStartOp (s : State) : State :=
  match nextBlink s with
  | none => s
  | some k =>
    let ret := (nth s.core.pix.blinks k {}).ret
    let s := modP s (fun p => { p with blinks := upd p.blinks k (fun b => { b with pending := false, ret := false }), tie := false })
    let idx := rectIdx s (blinkRect s k)
    let s := pixSecded s idx
    let u := epdFix s true k (ownerN s (.blink k)) false
    let alt := fun i => uf s (0x1462 + 4 * k) (16 + 4 * pixInk s i) 4
    let cand := idx.filter (fun i => let w := pixWord s i; !pixDirty w && !pixUnknown w && (ret || pixBlink w))
    let dest := fun i => let w := pixWord s i
      if !ret && pixCur w == pixTgt w then alt i else pixTgt w
    let pix := (cand.map (fun i => (i, dest i))).filter (fun p => p.2 != pixCur (pixWord s p.1))
    let toAlt := !ret && pix.any (fun p => pixCur (pixWord s p.1) == pixTgt (pixWord s p.1))
    let s := if u.outcome = 4 then s else modP s (fun p => { p with lastBlink := k, lastKindBlink := true })
    epdBegin s u pix toAlt

/-- A request for the regions of a mask (09 R266, 10 R285). -/
def epdRequestOp (s : State) (req full : BitVec 4) : State :=
  (bitsOf req 4).foldl (fun s r =>
    let e := s.core.epd
    if rectEmpty (panelRect s r) || !bit (used s 0x1400) 0 || !s.core.pix.tableOk then
      modE s (fun e => { e with refused := sat 255 (e.refused + 1) })
    else if bit e.queued r then
      modE s (fun e => { e with absorbed := sat 255 (e.absorbed + 1), qfull := if bit full r then setBit e.qfull r true else e.qfull })
    else modE (noteDue s) (fun e => { e with queued := setBit e.queued r true, qfull := setBit e.qfull r (bit full r) })) s

/-- Discard the queued requests of a mask, counting each (09 R267). -/
def epdDiscard (s : State) (m : BitVec 4) : State :=
  modE s (fun e => { e with
    discarded := sat 255 (e.discarded + popcnt (e.queued &&& m))
    queued := e.queued &&& ~~~m, qfull := e.qfull &&& ~~~m })

/-- TABLE_OK becomes 0: queued requests are discarded (10 R285). -/
def tableLost (s : State) : State := epdDiscard (modP s (fun p => { p with tableOk := false })) 0xF

/-- A blink region's due time arrives (10 R285, R292, R294). -/
def blinkDueOp (s : State) (k : Nat) : State :=
  let b := nth s.core.pix.blinks k {}
  if bit (used s (0x1462 + 4 * k)) 7 && decide (b.grid ≤ now s) then
    let late := b.pending || !s.core.pix.tableOk || !bit (used s 0x1400) 0
    modP (whenS (!late) s noteDue) (fun p => { p with blinks := upd p.blinks k (fun b =>
      if late then { b with late := sat 255 (b.late + 1) } else { b with pending := true, ret := false }) })
  else s

/-- Change the running update, if one runs. -/
def modRun (s : State) (f : UpdSt → UpdSt) : State :=
  modE s (fun e => { e with run := e.run.map f })

/-- The frames begin, or the way down where there is none to drive (10 R287, R288). -/
def framesBegin (s : State) : State :=
  let s := modRun s (fun u => { u with phase := if u.total = 0 then .down1 else .frames })
  keyPadsChange s

/-- The waveform read of the running update is complete (10 R287). -/
def waveReadOp (s : State) : State :=
  match s.core.epd.run with
  | some u =>
    if u.readDone then s
    else
      let s := flashResume (modRun s (fun u => { u with readDone := true }))
      if u.upDone ∧ u.phase = .up4 then framesBegin s else s
  | none => s

/-- The set voltage of VGH in mV (09 R255). -/
def vghSet (s : State) : Int := 20000 + 500 * (uf s 0x1408 0 4 : Nat)

/-- Set voltages of VGH, VGL, VNEG and VPOS in mV for a drive code (09 R255). -/
def railSet (s : State) (drive : Nat) : List Int :=
  let vpos : Int := 10000 + 20 * (drive : Nat)
  [vghSet s, if vghSet s < 21000 then 800 - vghSet s else -20000, -vpos, vpos]

/-- The panel rails that are regulated to a set value in a phase: VGH, VGL, VNEG, VPOS, VCOM (09 Table 9-4). -/
def railsOn : EpdPhase → BitVec 5
  | .up1 | .down3 => 0b00011
  | .up2 | .down2 => 0b00111
  | .up3 | .down1 => 0b01111
  | .up4 | .frames => 0b11111
  | .down4 => 0

/-- A panel rail at v mV lies in its good window: within 5 % of its set value, or within 50 mV for VCOM, whose set value is
-3.000 V x CODE / 255 (09 R255). -/
def railWithin (s : State) (u : UpdSt) (i : Nat) (v : Int) : Bool :=
  if i = 4 then decide ((255 * v + 3000 * (u.vcom : Int)).natAbs ≤ 50 * 255)
  else let g := nth (railSet s u.drive) i 0
    decide (20 * (v - g).natAbs ≤ g.natAbs)

/-- EPD_RAIL_STATUS.GOOD (09 R255): a rail that is not regulated has no set value and is not good (DEDUCED,
notes/assumptions/14.md). -/
def railGood (s : State) : BitVec 5 :=
  match s.core.epd.run with
  | some u => bvOf 5 (fun i => bit (railsOn u.phase) i && railWithin s u i (nth s.core.epd.railMv i 0))
  | none => 0

/-- The voltages of the panel rails are observed. -/
def railSee (s : State) (mv : List Int) : State := modE s (fun e => { e with railMv := mv })

/-- Every rail of the phase is good (09 R255, Table 9-4). -/
def railsGood (s : State) (u : UpdSt) : Bool := railGood s == railsOn u.phase

/-- A power-up phase ends with its rails good (09 Table 9-4). -/
def railUpOp (s : State) (mv : List Int) : State :=
  let s := railSee s mv
  match s.core.epd.run with
  | some u =>
    if railsGood s u then
      match u.phase with
      | .up1 => modRun s (fun u => { u with phase := .up2 })
      | .up2 => modRun s (fun u => { u with phase := .up3 })
      | .up3 => modRun s (fun u => { u with phase := .up4 })
      | .up4 =>
        let s := modRun s (fun u => { u with upDone := true })
        if u.readDone then framesBegin s else s
      | _ => s
    else s
  | none => s

/-- LAST_FAULT of a rail cause (09 Table 9-8). -/
def railCauseCode : RailCause → Nat
  | .vgh => 1 | .vgl => 2 | .vneg => 3 | .vpos => 4 | .vcom => 5 | .boost => 6

/-- A power-up phase times out: it has not reached good (09 R257). -/
def railUpTimeoutOp (s : State) (c : RailCause) (mv : List Int) : State :=
  let s := railSee s mv
  match s.core.epd.run with
  | some u =>
    let down : Option EpdPhase := match u.phase with
      | .up1 => some .down4
      | .up2 => some .down3
      | .up3 => some .down2
      | .up4 => if u.upDone then none else some .down1
      | _ => none
    match down with
    | some ph =>
      if railsGood s u then s
      else flashResume (modE s (fun e => { e with
        lastFault := railCauseCode c, run := some { u with phase := ph, outcome := 2, readDone := true } }))
    | none => s
  | none => s

/-- A rail is lost during the frames: the rail named is outside its window, or the boost meets its limit (09 R259). -/
def railLostOp (s : State) (c : RailCause) (mv : List Int) : State :=
  let s := railSee s mv
  match s.core.epd.run with
  | some u =>
    if u.phase = .frames ∧ (c = .boost ∨ bit (railGood s) (railCauseCode c - 1) = false) then
      let s := modE s (fun e => { e with
        lastFault := railCauseCode c
        run := some { u with phase := .down1, outcome := 3 } })
      keyPadsChange s
    else s
  | none => s

/-- The rails have reached the level that ends a power-down phase (09 Table 9-4). -/
def railDownReached (ph : EpdPhase) (mv : List Int) : Bool :=
  let v := fun i => nth mv i 0
  match ph with
  | .down1 => decide ((v 4).natAbs ≤ 50)
  | .down2 => decide (v 3 < 1000)
  | .down3 => decide (-1000 < v 2)
  | .down4 => decide (v 0 < 1000 ∧ -1000 < v 1)
  | _ => true

/-- A power-down phase ends, at its level or at its timeout (09 R258, Table 9-4); after the last the update ends. -/
def railDownOp (s : State) (mv : List Int) : State :=
  let s := railSee s mv
  match s.core.epd.run with
  | some u =>
    let u' := { u with downSlow := u.downSlow || !railDownReached u.phase mv }
    let go := fun (ph : EpdPhase) => modE s (fun e => { e with run := some { u' with phase := ph } })
    match u.phase with
    | .down1 => go .down2
    | .down2 => go .down3
    | .down3 => go .down4
    | .down4 => epdEnd s u'
    | _ => s
  | none => s

/-- The pixels of a running update whose word is uncorrectable receive 0b00 from here on, and become UNKNOWN (09 Edges). -/
def runSecded (s : State) : State :=
  match s.core.epd.run with
  | some u =>
    let lost := fun (p : PixRun) => s.core.buf.bad.elem (pixAddr p.idx / 8)
    let s' := modRun s (fun u => { u with pix := u.pix.map (fun p => if lost p then { p with seq := [], ecc := true } else p) })
    pixSecded s' (u.pix.map (fun p => p.idx))
  | none => s

/-- A frame is driven, and its vertical blank gives KEY one grant (09 R252, R253). -/
def panelFrameOp (s : State) : State :=
  match s.core.epd.run with
  | some u =>
    if u.phase = .frames then
      let s := runSecded s
      let s := keyGrant s (10 * u.grant)
      let last := decide (u.total ≤ u.done + 1)
      let s := modRun s (fun u => { u with done := u.done + 1, phase := if last then .down1 else .frames })
      whenS last s keyPadsChange
    else s
  | none => s

/-- Offsets of all directory entries (10 Table 10-5). -/
def dirEntries (s : State) : Nat := wfNat s 5 1 * wfNat s 6 1 * 17 * 16

/-- The phase bytes hold no code 0b11. -/
def codesOk (ph : List Byte) : Bool := ph.all (fun b => decide (b.toNat / 64 ≠ 3))

/-- Header check of Table 10-6 REASON 1. -/
def wfHeaderOk (s : State) : Bool :=
  let b := (wfRead s 0 128).1
  let at' := fun i => (nth b i 0).toNat
  let inks := at' 5
  let zero := fun lo hi => (upto (hi - lo)).all (fun i => at' (lo + i) == 0)
  decide (at' 0 = 0x42 ∧ at' 1 = 0x57 ∧ at' 2 = 0x46 ∧ at' 3 = 0x54 ∧ at' 4 = 1)
    && decide (1 ≤ inks ∧ inks ≤ 4 ∧ inks = uf s 0x1450 0 3)
    && decide (1 ≤ at' 6 ∧ at' 6 ≤ 8 ∧ uf s 0x1418 0 4 ≤ at' 6)
    && at' 7 == 16 && decide (1 ≤ at' 8 ∧ at' 8 ≤ 64) && zero 9 12 && zero 18 20 && zero 112 128
    && wfNat s 24 4 % 4 == 0 && wfNat s 28 4 % 4 == 0
    && (upto 4).all (fun i =>
      let o := 32 + 20 * i
      if inks ≤ i then zero o (o + 20)
      else decide (1 ≤ at' o ∧ at' o ≤ 8) && decide (1 ≤ at' (o + 1) ∧ at' (o + 1) ≤ 8) && zero (o + 2) (o + 4)
        && zero (o + 4 + at' o) (o + 12) && zero (o + 12 + at' (o + 1)) (o + 20))

/-- Length check of Table 10-6 REASON 2. -/
def wfLengthOk (s : State) : Bool :=
  let n := wfNat s 12 4
  decide (128 ≤ n ∧ n ≤ wfSize) && decide (wfNat s 24 4 + wfNat s 5 1 * 256 ≤ n) && decide (wfNat s 28 4 + 4 * dirEntries s ≤ n)

/-- One directory entry passes REASON 4. -/
def wfEntryOk (s : State) (e : Nat) : Bool :=
  let v := wfNat s (wfNat s 28 4 + 4 * e) 4
  let off := v % 16777216
  let n := wfNat s 12 4
  decide (v < 16777216) && off % 4 == 0 && decide (off + 4 ≤ n) && decide (off + 4 + wfNat s off 1 ≤ n)

/-- One directory entry's body passes REASON 5. -/
def wfBodyOk (s : State) (e : Nat) : Bool :=
  let off := wfNat s (wfNat s 28 4 + 4 * e) 3
  let n := wfNat s off 1
  decide (1 ≤ n ∧ n ≤ 128) && wfNat s (off + 1) 3 == 0 && codesOk (wfRead s (off + 4) n).1

/-- One ink's balancing units pass REASON 6. -/
def wfUnitOk (s : State) (ink : Nat) : Bool :=
  let u : Int := (wfNat s 8 1 : Nat)
  codesOk (balUnit s ink true) && codesOk (balUnit s ink false)
    && decide (phaseSum (balUnit s ink true) = -u) && decide (phaseSum (balUnit s ink false) = u)

/-- The first check of Table 10-6 that fails, 0 for none. A check whose bytes are uncorrectable gives 7
(DEDUCED, notes/assumptions/14.md). -/
def wfReason (s : State) : Nat :=
  if (wfRead s 0 128).2 then 7
  else if !wfHeaderOk s then 1
  else if !wfLengthOk s then 2
  else
    let n := wfNat s 12 4
    let all := wfRead s 0 n
    if all.2 then 7
    else if crc32c (all.1.take 20 ++ all.1.drop 24) ≠ wfNat s 20 4 then 3
    else if !(upto (dirEntries s)).all (wfEntryOk s) then 4
    else if !(upto (dirEntries s)).all (wfBodyOk s) then 5
    else if !(upto (wfNat s 5 1)).all (wfUnitOk s) then 6
    else 0

/-- Validation starts (10 R284): by RELOAD, at core start or on a course. CHANGED counts from here (DEDUCED,
notes/assumptions/14.md). -/
def wfValidateStart (s : State) (reload : Bool) : State :=
  let s := whenS (!s.core.pix.validating) s flashSuspend
  modP s (fun p => { p with validating := true, reload := reload || (p.validating && p.reload), changed := false })

/-- Validation ends (10 R284, R286): after a write of the region only a RELOAD that has met no other restores TABLE_OK. -/
def wfValidateEnd (s : State) : State :=
  if s.core.pix.validating then
    let why := wfReason s
    let stale := s.core.pix.stale && !(s.core.pix.reload && !s.core.pix.changed)
    let s := flashResume (modP s (fun p => { p with validating := false, reload := false, reason := why }))
    if why = 0 then
      let s := modP s (fun p => { p with
        inks := wfNat s 5 1, bands := wfNat s 6 1, tableId := wfNat s 16 2, tableLen := wfNat s 12 4
        gamma := some (wfRead s (wfNat s 24 4) (wfNat s 5 1 * 256)).1 })
      if stale then tableLost s else modP s (fun p => { p with tableOk := true, stale := false })
    else tableLost s
  else s

/-- A program or erase starts in the waveform region (10 R286): the table is no longer trusted, a RELOAD in progress no longer
restores it, whatever restarts the validation, and a waveform read in progress counts as uncorrectable, with every body
that it reads (R287, R293). -/
def wfRegionWritten (s : State) : State :=
  let s := tableLost (modP s (fun p => { p with changed := true, stale := true, reload := false }))
  match s.core.epd.run with
  | some u =>
    if u.readDone then s
    else
      let n := ((wfBodies s u.band).filter (fun b => !b.2)).length
      let s := modRun s (fun u => { u with pix := u.pix.map (fun p => { p with ecc := true, seq := [] }), total := 0 })
      modP s (fun p => { p with wfEcc := sat 255 (p.wfEcc + n) })
  | none => s

/-- CLEAR of EPD_CNTCLR (09 Table 9-8). -/
def epdCntclrOp (s : State) : State :=
  modE s (fun e => { e with railFaults := 0, tempRefused := 0, absorbed := 0, discarded := 0, refused := 0, clamped := 0, fallback := 0 })

/-- CLEAR of EPD_PIX_CNTCLR (10 Table 10-8). -/
def pixCntclrOp (s : State) : State := modP s (fun p => { p with wfEcc := 0, secdedLost := 0, sats := 0 })

/-- The AON copy of the panel control levels (09 R250). -/
def panelCopy (s : State) : State := modH s (fun h => { h with panelPol := used s 0x1404, panelGdir := bit (used s 0x1400) 1 })

/-- EPD takes up a course (09 R250, R267, Edges; 10 R278, R284, R292, R295). -/
def hookEpd (old s : State) : State :=
  let ch := fun a => decide (rd old a ≠ rd s a)
  -- the copy in AON
  let s := whenS (ch 0x1404 || bit (rd old 0x1400) 1 != bit (rd s 0x1400) 1) s panelCopy
  -- a new geometry
  let s := whenS (ch 0x1401) s (fun s => modC s (fun c => { c with buf := { c.buf with
    mem := sclear c.buf.mem 0x100000 0x196000
    bad := c.buf.bad.filter (fun w => decide (8 * w < 0x100000) || decide (0x196000 ≤ 8 * w))
    soft := c.buf.soft.filter (fun w => decide (8 * w < 0x100000) || decide (0x196000 ≤ 8 * w)) } }))
  -- regions made empty
  let s := epdDiscard s (bvOf 4 (fun r => !rectEmpty (panelRect old r) && rectEmpty (panelRect s r)))
  -- blink enables
  let s := (upto 8).foldl (fun s k =>
    let was := bit (rd old (0x1462 + 4 * k)) 7
    let is := bit (rd s (0x1462 + 4 * k)) 7
    modP s (fun p => { p with blinks := upd p.blinks k (fun b =>
      if is && !was then { b with grid := now s }
      else if was && !is && b.pending then { b with ret := true } else b) })) s
  -- EN cleared
  let off := bit (rd old 0x1400) 0 && !bit (rd s 0x1400) 0
  let s := whenS off s (fun s =>
    let s := epdDiscard s 0xF
    modP s (fun p => { p with blinks := p.blinks.map (fun b => { b with pending := false, ret := false }) }))
  -- INKS or NBANDS
  let again := decide (rf old 0x1450 0 3 ≠ rf s 0x1450 0 3) || decide (rf old 0x1418 0 4 ≠ rf s 0x1418 0 4)
  whenS again s (fun s => wfValidateStart s false)

/-- The owner of a panel region changes, or its partition is reset: its queued request is discarded (09 Edges). -/
def epdRegionMoved (s : State) (r : Nat) : State := epdDiscard s (setBit 0 r true)

/-- Conditions of 09 R276 over words read through w. -/
def epdStageOk (w : Nat → Word) : Bool :=
  let cols := fld (w 0x1401) 0 10
  let rows := fld (w 0x1401) 16 9
  let div := fld (w 0x1402) 0 8
  let frate := fld (w 0x1402) 8 8
  let gck := fld (w 0x1402) 16 4
  let le := fld (w 0x1402) 20 4
  let line := fld (w 0x1403) 0 16
  let grant := fld (w 0x1403) 16 8
  let nb := fld (w 0x1418) 0 4
  let rect := fun r => rectOf (w (0x1420 + 2 * r)) (w (0x1421 + 2 * r))
  let panel : Rect := { x0 := 0, x1 := cols - 1, y0 := 0, y1 := rows - 1 }
  decide (cols % 8 = 0 ∧ 8 ≤ cols ∧ cols ≤ 640 ∧ 1 ≤ rows ∧ rows ≤ 480)
    && decide (4 ≤ div ∧ div ≤ 100 ∧ 25 ≤ frate ∧ frate ≤ 85 ∧ 1 ≤ gck ∧ 1 ≤ le ∧ 10 ≤ grant)
    && decide (gck + cols / 8 + le + 8 ≤ line)
    && decide (frate * (rows * line * div + (grant * 10 + 20) * 100) ≤ 100000000)
    && decide (fld (w 0x1408) 0 4 ≤ 8 ∧ 1 ≤ fld (w 0x1408) 16 8 ∧ 1 ≤ fld (w 0x1408) 24 8)
    && (upto 8).all (fun b => decide (fld (w (0x1410 + b)) 16 8 ≤ 250))
    && decide (1 ≤ nb ∧ nb ≤ 8 ∧ fld (w 0x1418) 24 3 < nb ∧ fld (w 0x1418) 8 8 ≤ 50)
    && (upto (nb - 1)).all (fun b => decide (sgn 8 (fld (w (0x1410 + b)) 0 8) < sgn 8 (fld (w (0x1411 + b)) 0 8)))
    && (upto 4).all (fun r => rectEmpty (rect r) || rectWithin (rect r) panel)
    && (upto 4).all (fun r => (upto r).all (fun q => !rectsMeet (rect r) (rect q)))

/-- Conditions of 10 R298 over words read through w. -/
def pixStageOk (w : Nat → Word) : Bool :=
  let inks := fld (w 0x1450) 0 3
  let tw := fld (w 0x1450) 8 3
  let th := fld (w 0x1450) 12 3
  let entry := fun e => fld (w 0x1451) (2 * e) 2
  let lim := fld (w 0x1452) 0 5
  let rect := fun k => rectOf (w (0x1460 + 4 * k)) (w (0x1461 + 4 * k))
  let en := fun k => bit (w (0x1462 + 4 * k)) 7
  let preg := fun k => let r := fld (w (0x1462 + 4 * k)) 8 2; rectOf (w (0x1420 + 2 * r)) (w (0x1421 + 2 * r))
  decide (1 ≤ inks ∧ inks ≤ 4 ∧ 1 ≤ tw ∧ tw ≤ 4 ∧ 1 ≤ th ∧ th ≤ 4)
    && (upto 16).all (fun e => if e % 4 < tw ∧ e / 4 < th then decide (entry e < inks) else entry e == 0)
    && decide (1 ≤ lim ∧ fld (w 0x1452) 8 5 ≤ lim)
    && (upto 8).all (fun k =>
      let c := w (0x1462 + 4 * k)
      decide (1 ≤ fld c 0 6 ∧ fld c 0 6 ≤ 32) && (upto 4).all (fun i => decide (i < inks) || fld c (16 + 4 * i) 4 == 0)
        && (!en k || (!rectEmpty (rect k) && rectWithin (rect k) (preg k)))
        && (upto k).all (fun j => !(en k && en j && rectsMeet (rect k) (rect j))))

/-- A staged EPD word of value v is acceptable (09 R276, 10 R298). -/
def epdWordOk (s : State) (a : Nat) (v : Word) : Bool :=
  let w := fun p => if p = a then v else rd s (p + 0x100)
  if a < 0x1450 then epdStageOk w else pixStageOk w

end Sys2Proof.Machine
end

