-- ==== Sys2Proof/Machine/EflOps.lean ====
section
/-! DEFINITION. The setup flash: operation channels, banks, the rotating log (11 R306-R324). -/

namespace Sys2Proof.Machine

/-- Change EFL. -/
def modF (s : State) (f : EflSt → EflSt) : State := modC s (fun c => { c with efl := f c.efl })
/-- Change a channel. -/
def modCh (s : State) (c : Nat) (f : EflChan → EflChan) : State := modF s (fun e => { e with chans := upd e.chans c f })
/-- Change a bank. -/
def modBank (s : State) (b : Nat) (f : EflBank → EflBank) : State := modF s (fun e => { e with banks := upd e.banks b f })
/-- Change the log. -/
def modLog (s : State) (f : LogSt → LogSt) : State := modF s (fun e => { e with log := f e.log })
/-- A channel. -/
def chOf (s : State) (c : Nat) : EflChan := nth s.core.efl.chans c {}
/-- The log. -/
def logOf (s : State) : LogSt := s.core.efl.log

/-- EFL_CFG as bank b uses it. -/
def eflCfg (s : State) (b : Nat) : Word := if badW s 0x1600 then used s 0x1600 else (nth s.core.efl.banks b {}).cfg

/-- BASE and COUNT of an SFR. -/
def sfrOf (s : State) (k : Nat) : Nat × Nat := nth s.core.efl.sfrs k (0, 0)

/-- W = SPAN - 1 (11 R320). -/
def logW (s : State) : Nat := (logOf s).span - 1

/-- Physical sector of a logical sector (11 R320). -/
def logSector (s : State) (j : Nat) : Nat :=
  let l := logOf s
  let q := (j + l.start) % nmax 1 (logW s)
  l.base + 2 + (if q < l.gap then q else q + 1)

/-- The bank that an operation of channel c at an address targets; one without a region targets bank 0
(DEDUCED, notes/assumptions/15.md). -/
def eflTarget (s : State) (c addr : Nat) : Nat :=
  if c = 0 then addr / 1048576 % 2
  else if c = 9 then (if (logOf s).span = 0 then 0 else logBank s)
  else (sfrOf s (c - 1)).1 / 256 % 2

/-- The sector is placed: it belongs to an SFR or to the log (11 R303). -/
def sectorPlaced (s : State) (k : Nat) : Bool :=
  s.core.efl.sfrs.any (fun r => decide (r.1 ≤ k ∧ k < r.1 + r.2))
    || ((logOf s).span != 0 && decide ((logOf s).base ≤ k ∧ k < (logOf s).base + (logOf s).span + 2))

/-- The region of channel 0 that holds a sector (11 Table 11-2): boot A, waveforms, maps, boot B, unplaced general space. -/
def sysRegion (s : State) (k : Nat) : Option Nat :=
  if k < 16 then some 0 else if k < 144 then some 1 else if k < 160 then some 2
  else if k < 256 then (if sectorPlaced s k then none else some 4)
  else if k < 272 then some 3
  else if k < 512 then (if sectorPlaced s k then none else some 5)
  else none

/-- Bytes that an operation covers. -/
def eflLen (op count : Nat) : Nat :=
  match op with
  | 1 => 512 * (count + 1)
  | 2 => 512 * (count + 1)
  | 3 => 4096
  | 4 => 256 * (count + 1)
  | 5 => 256 * (count + 1)
  | 6 => 256 * (count + 1)
  | _ => 0

/-- Alignment, COUNT and GRANULE rules of Table 11-4. -/
def eflFormOk (op addr count granule : Nat) : Bool :=
  match op with
  | 1 => addr % 512 == 0 && decide (count ≤ 7)
  | 2 => addr % 512 == 0 && decide (count ≤ 7)
  | 3 => addr % 4096 == 0 && count == 0 && granule == 0
  | 4 => addr % 256 == 0 && granule == 0
  | 5 => addr % 256 == 0 && granule == 0
  | 6 => addr % 256 == 0 && granule == 0
  | _ => addr == 0 && count == 0 && granule == 0

/-- The range lies in the channel's region and in one bank (11 R308, R323). -/
def eflRangeOk (s : State) (c op addr count : Nat) : Bool :=
  let n := eflLen op count
  if c = 9 then
    (logOf s).span != 0 && (decide (7 < op) ||
      (decide ((addr + n - 1) / 4096 = addr / 4096) && decide (addr / 4096 < logW s)))
  else if c = 0 then
    match sysRegion s (addr / 4096) with
    | some r => (upto ((addr + n - 1) / 4096 - addr / 4096 + 1)).all (fun i => sysRegion s (addr / 4096 + i) == some r)
    | none => false
  else decide (addr + n ≤ (sfrOf s (c - 1)).2 * 4096)

/-- Physical address of an operation whose range is sound. -/
def eflPhys (s : State) (c addr : Nat) : Nat :=
  if c = 0 then addr
  else if c = 9 then logSector s (addr / 4096) * 4096 + addr % 4096
  else (sfrOf s (c - 1)).1 * 4096 + addr

/-- The granules of a READ or PROGRAM. -/
def eflGranules (q : EflChan) : List Nat :=
  if q.op = 1 ∨ q.op = 2 then (upto (q.count + 1)).map (fun i => q.granule + i) else []

/-- The rows of an operation. -/
def eflRows (q : EflChan) : List Nat := (upto (eflLen q.op q.count / 256)).map (fun i => q.phys / 256 + i)

/-- A submission (11 R307): the new state, and whether it is turned away (MASKED). -/
def eflSubmit (s : State) (p c addr op count granule : Nat) : State × Bool :=
  let q := chOf s c
  if op = 0 then (s, false)
  else if q.state = 1 ∨ q.state = 2 ∨ op = 7 ∨ 9 < op ∨ (8 ≤ op ∧ c ≠ 9) then (s, true)
  else (modCh s c (fun _ => { state := 1, op := op, issuer := Fin.ofNat 4 p, addr := addr, count := count, granule := granule }), false)

/-- The owner of a channel's region. -/
def chOwner (s : State) (c : Nat) : Nat := if 1 ≤ c ∧ c ≤ 8 then ownerN s (.sfr (c - 1)) else 0

/-- An operation ends (11 R310). warn: a row reached the threshold or a margin read found a failing bit. Of an operation that
a reset has dropped, RESULT and EFL_DONE are all that is dropped; its WARN, TORN, reports, counts and EFL_WARN are given
(04 R125 says only that its status is dropped; DESIGN CHOICE, notes/assumptions/15.md). -/
def eflFinish (s : State) (b c result : Nat) (warn : Bool) : State :=
  let q := chOf s c
  let s := modBank s b (fun k => { k with chan := none })
  let result := if q.dropped then 9 else result
  let s := modCh s c (fun k => { k with state := 3, result := result })
  let s := whenS (!q.dropped) s (fun s => raise s q.issuer.val 29)
  whenS (warn || [5, 6, 7].elem result) s (fun s => raise (raise s (chOwner s c) 30) 0 30)

/-- The log may run an operation of channel 9 (11 R322, R323): no advance or recovery is due. -/
def logFree (s : State) : Bool :=
  let l := logOf s
  let every := fld (eflCfg s (logBank s)) 8 8
  l.phase.isNone && l.state != 1 && !(l.state == 2 && every != 0 && decide (every ≤ l.erases))

/-- The queued operation of channel c may start in bank b now. -/
def eflReady (s : State) (b c : Nat) : Bool :=
  let q := chOf s c
  q.state == 1 && eflTarget s c q.addr == b && !(heldNvm s && [2, 3, 8, 9].elem q.op)
    && (c != 9 || logFree s)

/-- A phase of an advance runs in bank b; one that waits for the warning's end does not (11 Table 11-7, Edges). -/
def advRuns (s : State) (b : Nat) : Bool := (logOf s).phase.isSome && (logOf s).started && logBank s == b

/-- Bank b is idle (11 R308). -/
def bankIdle (s : State) (b : Nat) : Bool := (nth s.core.efl.banks b {}).chan.isNone && !advRuns s b

/-- Bank b is between two operations: idle, or between two phases of the advance that an ADVANCE runs (11 R309). -/
def bankBetween (s : State) (b : Nat) : Bool :=
  !advRuns s b && (match (nth s.core.efl.banks b {}).chan with
    | none => true
    | some c => c == 9 && (chOf s c).op == 8)

/-- A program or erase has started in bank b: an EPD read in progress suspends it (11 R312). -/
def opStarted (s : State) (b : Nat) : State := whenS (b == 0 && epdReading s) s flashSuspend

/-- Stages 1 and 2 of a PROGRAM: its result where they end it (11 R316). -/
def programEarly (s : State) (q : EflChan) : Nat :=
  let gs := eflGranules q
  if gs.any (fun g => bufBad s (512 * g) 512) then 8
  else if !gs.all (guardGood s) then 3
  else if !(eflRows q).all (fun r => (rowView s r).status == 1) then 4
  else 0

/-- Where the next pointer record goes: pointer sector 0 or 1, row, and whether it changes the sector (11 R321). -/
def nextRecord (s : State) : Nat × Nat × Bool :=
  let l := logOf s
  match l.recAt with
  | none => (0, 0, false)
  | some (sec, row) =>
    match ((upto 16).filter (fun r => decide (row < r))).find? (fun r => (rowView s (16 * (l.base + sec) + r)).status == 1) with
    | some r => (sec, r, false)
    | none => (1 - sec, 0, true)

/-- An advance starts (11 Table 11-7). -/
def advStart (s : State) : State :=
  let l := logOf s
  let s := modLog s (fun x => { x with
    state := 3, phase := some .checkGap, started := true, erases := 0
    source := if l.gap = 0 then logW s else l.gap - 1, swap := (nextRecord s).2.2 })
  opStarted s (logBank s)

/-- An idle bank starts the next queued operation in rotation (11 R308). -/
def eflStartOp (s : State) (b : Nat) : State :=
  if !bankIdle s b then s
  else
    match ((upto 10).map (fun i => ((nth s.core.efl.banks b {}).last + 1 + i) % 10)).find? (eflReady s b) with
    | none => s
    | some c =>
      let s := modBank s b (fun k => { k with chan := some c, last := c })
      let s := modCh s c (fun q => { q with state := 2, course := (nth s.core.efl.banks b {}).course, reduced := reduced s })
      let q := chOf s c
      let okRange := eflFormOk q.op q.addr q.count q.granule && eflRangeOk s c q.op q.addr q.count
      if !okRange then eflFinish s b c 1 false
      else if !(eflGranules q).all (inQuota s q.issuer.val) then eflFinish s b c 2 false
      else if c = 9 ∧ (logOf s).state = 5 ∧ q.op ≠ 9 then eflFinish s b c 10 false
      else
        let s := modCh s c (fun q => { q with phys := eflPhys s c q.addr })
        let q := chOf s c
        let early := if q.op = 2 then programEarly s q else 0
        let torn := if early = 4 then ((eflRows q).filter (fun r => (rowView s r).status == 2)).length else 0
        let s := if q.op = 2 then (eflGranules q).foldl (fun s g => bufTouch s (512 * g) 512) s else s
        let s := modCh s c (fun x => { x with
          early := early, tornRows := torn
          data := if q.op = 2 ∧ early = 0 then (eflGranules q).foldr (fun g acc => granuleBytes s g ++ acc) [] else [] })
        let s := if q.op = 8 then advStart s
          else if q.op = 9 then modLog s (fun l => { l with state := 4 }) else s
        let s := opStarted s b
        whenS ((q.op == 2 || q.op == 3) && early == 0 && c == 0 && sysRegion s (q.addr / 4096) == some 1) s wfRegionWritten

/-- The words of row i that an operation found uncorrectable: at least one, which ones are free values. -/
def foundBad (s : State) (obs : EflObs) (i : Nat) : List Nat :=
  if obs.uncorr.elem i then
    (upto 16).filter (fun w => w == free s (0x2000 + 2 * i) % 16 || (free s (0x2001 + 2 * i)).testBit w)
  else []

/-- Row i of an operation as it was read. -/
def foundRow (s : State) (obs : EflObs) (i row : Nat) : RowView :=
  let v := rowView s row
  let bad := foundBad s obs i
  { status := if v.status = 1 ∧ bad ≠ [] then 2 else v.status
    bytes := zeroWords v.bytes bad, bad := v.bad ++ bad }

/-- Index of the first largest number. -/
def firstMax (l : List Nat) : Nat :=
  match l.max? with
  | some m => (l.findIdx? (fun x => x == m)).getD 0
  | none => 0

/-- Largest of a list, 0 for none. -/
def listMax (l : List Nat) : Nat := l.foldl nmax 0

/-- A READ delivers its granules in order while they stay in the quota (11 R313, R314): the state, the number of rows
read, and whether a granule had left. -/
def eflDeliver (s : State) (p : Nat) : List (Nat × List Byte) → Nat → State × Nat × Bool
  | [], n => (s, n, false)
  | (g, bs) :: rest, n =>
    if inQuota s p g then eflDeliver (granuleFill s g bs true) p rest (n + 2) else (s, n + 2, true)

/-- READ and SCAN end (11 R313, R315, R317). -/
def eflReadDone (s : State) (b c : Nat) (obs : EflObs) : State :=
  let q := chOf s c
  let rows := eflRows q
  let vs := rows.zipIdx.map (fun e => foundRow s obs e.2 e.1)
  let gran := (eflGranules q).zipIdx.map (fun e =>
    (e.1, (nth vs (2 * e.2) { status := 0, bytes := [], bad := [] }).bytes ++
          (nth vs (2 * e.2 + 1) { status := 0, bytes := [], bad := [] }).bytes))
  let d := if q.op = 1 then eflDeliver s q.issuer.val gran 0 else (s, rows.length, false)
  let s := d.1
  let vs := vs.take d.2.1
  let cs := (upto vs.length).map (fun i => nth obs.corr i 0)
  let ew := fld (eflCfg s b) 0 6
  let warnRows := ((upto vs.length).filter (fun i => decide (ew ≤ nth cs i 0) || obs.twos.elem i)).length
  let erased := (vs.filter (fun v => v.status == 1)).length
  let torn := (vs.filter (fun v => v.status == 2)).length
  let unc := (vs.filter (fun v => v.status == 0 && !v.bad.isEmpty)).length
  let firstE := vs.findIdx? (fun v => v.status == 1)
  let s := modCh s c (fun k => { k with
    warn := decide (0 < warnRows), torn := decide (0 < torn)
    rep0 := mkW [(0, 9, erased), (9, 9, torn), (18, 9, unc)]
    rep1 := mkW ([(0, 6, sat 63 (listMax cs)), (8, 8, firstMax cs)] ++
      (if q.op = 4 then [(16, 8, firstE.getD 0), (24, 1, b2n firstE.isSome)] else [])) })
  let s := modF s (fun e => { e with
    warnRows := sat 255 (e.warnRows + warnRows), tornRows := sat 255 (e.tornRows + torn)
    uncorrRows := sat 255 (e.uncorrRows + unc) })
  eflFinish s b c (if d.2.2 then 2 else if 0 < unc then 7 else 0) (decide (0 < warnRows))

/-- Failing bits of n rows from a row on, in a margin operation (11 R318). MARGIN_EV counts at least the data bits that are 0,
and MARGIN_PV none in an ERASED row; the command says the rest. -/
def marginCounts (s : State) (pv : Bool) (obs : EflObs) (row n : Nat) : List Nat :=
  (upto n).map (fun i =>
    let m := nth obs.margin i 0
    if !pv then nmax m (rowZeros s (row + i)) else if (foundRow s obs i (row + i)).status = 1 then 0 else m)

/-- MARGIN_EV of n rows leaves those without a failing bit fit to program (11 R319). -/
def marginClean (s : State) (row : Nat) (counts : List Nat) : State :=
  flashClean s (((upto counts.length).filter (fun i => nth counts i 1 == 0)).map (fun i => row + i))

/-- Margin operations end (11 R317, R318). A failing bit gives MARGIN, an uncorrectable word beside it too (DEDUCED,
notes/assumptions/15.md). -/
def eflMarginDone (s : State) (b c : Nat) (obs : EflObs) : State :=
  let q := chOf s c
  let rows := eflRows q
  let pv := q.op == 5
  let ms := marginCounts s pv obs (q.phys / 256) rows.length
  let vs := if pv then rows.zipIdx.map (fun e => foundRow s obs e.2 e.1) else []
  let unc := (vs.filter (fun v => v.status == 0 && !v.bad.isEmpty)).length
  let torn := (vs.filter (fun v => v.status == 2)).length
  let ew := fld (eflCfg s b) 0 6
  let warnRows := if pv then
    ((upto rows.length).filter (fun i => decide (ew ≤ nth obs.corr i 0) || obs.twos.elem i)).length else 0
  let s := whenS (!pv) s (fun s => marginClean s (q.phys / 256) ms)
  let s := modCh s c (fun k => { k with
    warn := decide (0 < warnRows), torn := decide (0 < torn)
    rep1 := mkW [(0, 6, sat 63 (listMax ms)), (8, 8, firstMax ms)] })
  let s := modF s (fun e => { e with
    warnRows := sat 255 (e.warnRows + warnRows), tornRows := sat 255 (e.tornRows + torn)
    uncorrRows := sat 255 (e.uncorrRows + unc) })
  eflFinish s b c (if 0 < listMax ms then 11 else if 0 < unc then 7 else 0) (decide (0 < warnRows) || decide (0 < listMax ms))

/-- Program rows in order up to a row that fails its verify (11 R316). -/
def programRows (s : State) (row : Nat) (chunks : List (Option (List Byte))) (fail : Option Nat) : State :=
  chunks.zipIdx.foldl (fun s e =>
    match e.1 with
    | none => s
    | some bs =>
      match fail with
      | some k => if e.2 < k then flashProgramRow s (row + e.2) bs else if e.2 = k then flashUnmark s (row + e.2) else s
      | none => flashProgramRow s (row + e.2) bs) s

/-- 256-byte chunks. -/
def chunks256 (bs : List Byte) : List (List Byte) :=
  (upto (bs.length / 256)).map (fun i => (bs.drop (256 * i)).take 256)

/-- Count a failure of a program (5) or an erase (6). -/
def eflCountFail (s : State) (result : Nat) : State :=
  modF s (fun e => { e with
    programFails := if result = 5 then sat 255 (e.programFails + 1) else e.programFails
    eraseFails := if result = 6 then sat 255 (e.eraseFails + 1) else e.eraseFails })

/-- A PROGRAM ends (11 R316). -/
def eflProgramDone (s : State) (b c : Nat) (obs : EflObs) : State :=
  let q := chOf s c
  if q.early ≠ 0 then
    let s := whenS (q.early == 3) s (fun s => modF s (fun e => { e with guardFails := sat 255 (e.guardFails + 1) }))
    let s := modF (modCh s c (fun k => { k with torn := decide (0 < q.tornRows) }))
      (fun e => { e with tornRows := sat 255 (e.tornRows + q.tornRows) })
    eflFinish s b c q.early false
  else
    let chunks := chunks256 q.data
    let fail := obs.failRow.filter (fun k => decide (k < chunks.length))
    let s := programRows s (q.phys / 256) (chunks.map some) fail
    let res := if fail.isSome then 5 else 0
    eflFinish (eflCountFail s res) b c res false

/-- The sectors [k, k + n) are erased, or left undefined where the erase fails. -/
def eraseSectors (s : State) (k n : Nat) (fail : Bool) : State :=
  let s := flashErase s (16 * k) (16 * (k + n))
  if fail then flashUndef s ((upto (16 * n)).map (fun i => 16 * k + i)) else s

/-- An ERASE ends (11 R317, R323). -/
def eflEraseDone (s : State) (b c : Nat) (obs : EflObs) : State :=
  let q := chOf s c
  let s := eraseSectors s (q.phys / 4096) 1 obs.eraseFail
  let s := whenS (c == 9 && !obs.eraseFail && !q.dropped) s (fun s => modLog s (fun l => { l with erases := sat 255 (l.erases + 1) }))
  let res := if obs.eraseFail then 6 else 0
  eflFinish (eflCountFail s res) b c res false

/-- A FORMAT ends (11 R323, R324). -/
def eflFormatDone (s : State) (b : Nat) (obs : EflObs) : State :=
  let l := logOf s
  let s := eraseSectors s l.base (l.span + 2) obs.eraseFail
  let s := modLog s (fun l => if obs.eraseFail then { l with state := 5, recAt := none }
    else { l with state := 2, gap := l.span - 1, start := 0, seq := 0, erases := 0, recAt := none })
  let res := if obs.eraseFail then 6 else 0
  eflFinish (eflCountFail s res) b 9 res false

/-- The operation running in a bank ends (11 R310). A suspended one does not end (R312). -/
def eflDoneOp (s : State) (b : Nat) (obs : EflObs) : State :=
  match (nth s.core.efl.banks b {}).chan with
  | none => s
  | some c =>
    if (nth s.core.efl.banks b {}).suspended then s
    else match (chOf s c).op with
      | 1 => eflReadDone s b c obs
      | 2 => eflProgramDone s b c obs
      | 3 => eflEraseDone s b c obs
      | 4 => eflReadDone s b c obs
      | 5 => eflMarginDone s b c obs
      | 6 => eflMarginDone s b c obs
      | 9 => eflFormatDone s b obs
      | _ => s

/-- An automatic advance starts before the next operation of the channel (11 R323). -/
def logAdvanceOp (s : State) : State :=
  let l := logOf s
  let every := fld (eflCfg s (logBank s)) 8 8
  if l.state = 2 ∧ l.span ≠ 0 ∧ every ≠ 0 ∧ every ≤ l.erases ∧ bankIdle s (logBank s) ∧ heldNvm s = false
  then advStart s else s

/-- An advance fails (11 R324). The ADVANCE operation, if one runs it, ends with the phase's result. -/
def advFail (s : State) (result : Nat) : State :=
  let b := logBank s
  let s := eflCountFail (modLog s (fun l => { l with state := 5, phase := none, fails := sat 255 (l.fails + 1) })) result
  match (nth s.core.efl.banks b {}).chan with
  | some 9 => eflFinish s b 9 result false
  | _ => s

/-- The next phase of an advance is due (11 Table 11-7). -/
def advNext (s : State) (ph : AdvPhase) : State := modLog s (fun l => { l with phase := some ph, started := false })

/-- A phase that is due starts: it waits while the warning holds, and while its bank runs another operation (11 Edges). -/
def advTry (s : State) : State :=
  if (logOf s).phase.isSome && !(logOf s).started && !heldNvm s && bankBetween s (logBank s) then
    opStarted (modLog s (fun l => { l with started := true })) (logBank s)
  else s

/-- MARGIN_EV of the gap finds a failing bit (11 Table 11-7, R322). -/
def gapDirty (s : State) (obs : EflObs) : Bool :=
  decide (0 < listMax (marginCounts s false obs (16 * ((logOf s).base + 2 + (logOf s).gap)) 16))

/-- MARGIN_EV of the gap: on any failing bit EFL_WARN is raised (11 R310) and the gap is erased. -/
def gapCheck (s : State) (obs : EflObs) : State :=
  let k := (logOf s).base + 2 + (logOf s).gap
  if gapDirty s obs then raise (eraseSectors s k 1 obs.eraseFail) 0 30
  else marginClean s (16 * k) (marginCounts s false obs (16 * k) 16)

/-- An advance is complete. -/
def advEnd (s : State) : State :=
  let b := logBank s
  let s := modLog s (fun l => { l with state := 2, phase := none, started := true })
  match (nth s.core.efl.banks b {}).chan with
  | some 9 => eflFinish s b 9 0 false
  | _ => s

/-- The bytes of a pointer record (11 R321). -/
def recordBytes (seq gap start : Nat) : List Byte :=
  let head := leBytes 4 0x504C5742 ++ leBytes 4 seq ++ leBytes 1 gap ++ leBytes 1 start ++ List.replicate 6 0
  let tail := List.replicate 236 (0 : Byte)
  head ++ leBytes 4 (crc32c (head ++ tail)) ++ tail

/-- GAP and START after the advance in progress (11 R320). -/
def advMapping (s : State) : Nat × Nat :=
  let l := logOf s
  if l.gap = 0 then (logW s, (l.start + 1) % nmax 1 (logW s)) else (l.gap - 1, l.start)

/-- A sector is wholly ERASED. -/
def sectorErased (s : State) (k : Nat) : Bool := (upto 16).all (fun r => (rowView s (16 * k + r)).status == 1)

/-- What the copy phase of an advance writes: the rows it copies (11 Table 11-7). -/
def gapRows (s : State) (obs : EflObs) : List (Option (List Byte)) :=
  (upto 16).map (fun i =>
    let v := foundRow s obs i (16 * ((logOf s).base + 2 + (logOf s).source) + i)
    if v.status = 0 ∧ v.bad = [] then some v.bytes else none)

/-- A phase of an advance ends (11 Table 11-7). One that waits, or that an EPD read has suspended (R312), does not end. -/
def advPhaseOp (s : State) (obs : EflObs) : State :=
  let l := logOf s
  if !l.started || (nth s.core.efl.banks (logBank s) {}).suspended then s
  else match l.phase with
    | none => s
    | some .checkGap =>
      let dirty := gapDirty s obs
      let s := gapCheck s obs
      if dirty && obs.eraseFail then advFail s 6
      else
        let other := l.base + 1 - (match l.recAt with
          | some (sec, _) => sec
          | none => 0)
        advNext s (if l.swap && !sectorErased s other then .prepare else .copy)
    | some .prepare =>
      let other := l.base + 1 - (match l.recAt with
        | some (sec, _) => sec
        | none => 0)
      let s := eraseSectors s other 1 obs.eraseFail
      if obs.eraseFail then advFail s 6 else advNext s .copy
    | some .copy =>
      let rows := gapRows s obs
      let drops := (rows.filter (fun r => r.isNone)).length
      let s := programRows s (16 * (l.base + 2 + l.gap)) rows obs.failRow
      if obs.failRow.isSome then advFail s 5
      else advNext (modLog s (fun l => { l with dropped := sat 255 (l.dropped + drops) })) .commit
    | some .commit =>
      let at' := nextRecord s
      let m := advMapping s
      let row := 16 * (l.base + at'.1) + at'.2.1
      if obs.failRow.isSome then advFail (flashUnmark s row) 5
      else
        let s := flashProgramRow s row (recordBytes (l.seq + 1) m.1 m.2)
        advNext (modLog s (fun l => { l with gap := m.1, start := m.2, seq := l.seq + 1, recAt := some (at'.1, at'.2.1) })) .clean
    | some .clean =>
      let s := eraseSectors s (l.base + 2 + l.source) 1 obs.eraseFail
      if obs.eraseFail then advFail s 6
      else if l.swap then advNext s .cleanPtr else advEnd s
    | some .cleanPtr =>
      let old := l.base + 1 - (match l.recAt with
        | some (sec, _) => sec
        | none => 0)
      let s := eraseSectors s old 1 obs.eraseFail
      if obs.eraseFail then advFail s 6 else advEnd s

/-- A valid pointer record: SEQ, GAP, START (11 R321). -/
def recordOf (s : State) (row : Nat) : Option (Nat × Nat × Nat) :=
  let v := rowView s row
  let seq := leNat ((v.bytes.drop 4).take 4)
  let gap := (nth v.bytes 8 0).toNat
  let start := (nth v.bytes 9 0).toNat
  if v.status = 0 ∧ v.bad = [] ∧ v.bytes = recordBytes seq gap start ∧ gap ≤ logW s ∧ start < logW s then
    some (seq, gap, start) else none

/-- The log at core start: the adopted record, or fresh, or FAULT (11 R322, R324). -/
def logAdopt (s : State) : State :=
  let l := logOf s
  if l.span = 0 then s
  else
    let cand := (upto 32).filterMap (fun i =>
      (recordOf s (16 * l.base + i)).map (fun r => (i / 16, i % 16, r)))
    let best := cand.foldl (fun (b : Option (Nat × Nat × Nat × Nat × Nat)) c =>
      match b with
      | none => some c
      | some x => if x.2.2.1 < c.2.2.1 then some c else some x) none
    match best with
    | some (sec, row, seq, gap, start) =>
      modLog s (fun l => { l with state := 1, seq := seq, gap := gap, start := start, recAt := some (sec, row) })
    | none =>
      if sectorErased s l.base && sectorErased s (l.base + 1) then
        modLog s (fun l => { l with state := 1, seq := 0, gap := logW s, start := 0, recAt := none })
      else modLog s (fun l => { l with state := 5, recAt := none })

/-- Recovery before the first log operation (11 R322). -/
def logRecoveryOp (s : State) (obs : EflObs) : State :=
  let l := logOf s
  if l.state = 1 ∧ l.span ≠ 0 ∧ bankIdle s (logBank s) ∧ heldNvm s = false then
    let dirty := gapDirty s obs
    let s := gapCheck s obs
    let other := match l.recAt with
      | some (sec, _) => some (l.base + 1 - sec)
      | none => none
    let wipe := match other with
      | some k => !sectorErased s k
      | none => false
    let s := if wipe then eraseSectors s (other.getD 0) 1 obs.eraseFail else s
    let failed := (dirty || wipe) && obs.eraseFail
    let s := whenS failed s (fun s => eflCountFail s 6)
    modLog s (fun l => { l with state := if failed then 5 else 2, recoveries := sat 255 (l.recoveries + 1) })
  else s

/-- A queued operation of channel c ends DISCARDED (11 Edges). quiet: its partition is in reset. -/
def eflDiscard (s : State) (c : Nat) (quiet : Bool) : State :=
  let q := chOf s c
  if q.state = 1 then
    let s := modCh s c (fun k => { k with state := 3, result := 9 })
    whenS (!quiet) s (fun s => raise s q.issuer.val 29)
  else s

/-- A reset of partition p starts (04 Table 4-7): its queued operations are discarded, a running one's result is dropped. -/
def eflPartReset (s : State) (p : Nat) : State :=
  (upto 10).foldl (fun s c =>
    let q := chOf s c
    if q.issuer.val ≠ p then s
    else if q.state = 1 then eflDiscard s c true
    else if q.state = 2 then modCh s c (fun k => { k with dropped := true })
    else s) s

/-- Partition p has an operation running on the array (04 R125). -/
def eflBusyFor (s : State) (p : Nat) : Bool := s.core.efl.chans.any (fun q => q.state == 2 && q.issuer.val == p)

/-- Work that the warning holds back is waiting (11 Table 11-11 HELD). -/
def eflHeld (s : State) : Bool :=
  let l := logOf s
  heldNvm s && (s.core.efl.chans.any (fun q => q.state == 1 && [2, 3, 8, 9].elem q.op)
    || (l.phase.isSome && !l.started) || (l.state == 1 && (chOf s 9).state == 1)
    || (l.state == 2 && fld (eflCfg s (logBank s)) 8 8 != 0 && decide (fld (eflCfg s (logBank s)) 8 8 ≤ l.erases)))

/-- A program of rows in order is cut short (11 R316, R319): how many rows are done, and whether the next one was under
program, are free values; that row may read as any status from then on. -/
def programCut (s : State) (key row : Nat) (chunks : List (Option (List Byte))) : State :=
  let x := free s key % (2 * chunks.length + 1)
  let s := programRows s row (chunks.take (x / 2)) none
  match nth chunks (x / 2) none with
  | some _ => if x % 2 = 1 then flashUndef s [row + x / 2] else s
  | none => s

/-- The core stops while the array is worked on: the rows it may leave in any status (11 R319). -/
def eflInterrupt (s : State) : State :=
  let s := (upto 2).foldl (fun s b =>
    match (nth s.core.efl.banks b {}).chan with
    | some c =>
      let q := chOf s c
      if q.op = 2 ∧ q.early = 0 then programCut s (0x7000 + b) (q.phys / 256) ((chunks256 q.data).map some)
      else if q.op = 3 then flashUndef s (eflRows q)
      else if q.op = 9 then flashUndef s ((upto (16 * ((logOf s).span + 2))).map (fun i => 16 * (logOf s).base + i))
      else s
    | none => s) s
  let l := logOf s
  let sector := fun k => (upto 16).map (fun i => 16 * k + i)
  let sec := match l.recAt with
    | some (x, _) => x
    | none => 0
  if !l.started then s
  else match l.phase with
    | none => s
    | some .checkGap => flashUndef s (sector (l.base + 2 + l.gap))
    | some .prepare => flashUndef s (sector (l.base + 1 - sec))
    | some .copy => programCut s 0x7002 (16 * (l.base + 2 + l.gap)) (gapRows s { uncorr := (upto 16).filter (fun i => (free s 0x7003).testBit i) })
    | some .commit => flashUndef s [16 * (l.base + (nextRecord s).1) + (nextRecord s).2.1]
    | some .clean => flashUndef s (sector (l.base + 2 + l.source))
    | some .cleanPtr => flashUndef s (sector (l.base + 1 - sec))

/-- CLEAR of EFL_CNTCLR (11 Table 11-11). -/
def eflCntclrOp (s : State) : State :=
  modF s (fun e => { e with warnRows := 0, uncorrRows := 0, programFails := 0, eraseFails := 0, suspends := 0, tornRows := 0, guardFails := 0 })

/-- A layout section is acceptable (11 R303, R304), from its words. -/
def layoutOk (bs : List Byte) : Bool :=
  let w := fun i => leNat ((bs.drop (4 + 4 * i)).take 4)
  let place := fun i => (w i % 1024, if i < 8 then w i / 65536 % 1024 else w i / 65536 % 128)
  let size := fun i => let p := place i; if i < 8 then p.2 else if p.2 = 0 then 0 else p.2 + 2
  let reserved := fun i => if i < 8 then (w i / 1024 % 64 == 0 && decide (w i < 67108864)) else (w i / 1024 % 64 == 0 && decide (w i < 8388608))
  let within := fun i =>
    let b := (place i).1
    let e := b + size i
    size i == 0 || (decide (160 ≤ b) && decide (e ≤ 256)) || (decide (272 ≤ b) && decide (e ≤ 512))
  bs.length == 40 && bs.take 4 == [1, 8, 0, 0]
    && (upto 9).all (fun i => reserved i && (decide (0 < (place i).2) || (place i).1 == 0) && within i)
    && ((place 8).2 == 0 || decide (4 ≤ (place 8).2 ∧ (place 8).2 ≤ 64))
    && (upto 9).all (fun i => (upto i).all (fun j =>
      size i == 0 || size j == 0 || decide ((place i).1 + size i ≤ (place j).1) || decide ((place j).1 + size j ≤ (place i).1)))

/-- Apply a layout section (11 R304). -/
def layoutApply (s : State) (bs : List Byte) : State :=
  let w := fun i => leNat ((bs.drop (4 + 4 * i)).take 4)
  modF s (fun e => { e with
    layoutOk := true
    sfrs := (upto 8).map (fun k => (w k % 1024, w k / 65536 % 1024))
    log := { e.log with base := w 8 % 1024, span := w 8 / 65536 % 128 } })

/-- A staged EFL_CFG of value v is acceptable (11 R331). -/
def eflWordOk (v : Word) : Bool := decide (1 ≤ fld v 0 6 ∧ fld v 0 6 ≤ 32)

end Sys2Proof.Machine
end

