-- ==== Sys2Proof/Machine/ThmOps.lean ====
section
/-! DEFINITION. Temperature inputs and aggregation groups: conversion, validity, groups (07 R189-R195, R482). -/

namespace Sys2Proof.Machine

/-- Curve point i of curve c as THM uses it, in 0.1 C (07 R190). -/
def curvePoint (s : State) (c i : Nat) : Int := sgn 16 (uf s (0xE08 + 9 * c + i / 2) (16 * (i % 2)) 16)

/-- A word of curve c fails parity. -/
def curveBad (s : State) (c : Nat) : Bool := (upto 9).any (fun i => badW s (0xE08 + 9 * c + i))

/-- The temperature of a code on a curve (07 R190): the division truncates toward zero. -/
def curveTemp (s : State) (c code : Nat) : Int :=
  let k := code / 256
  curvePoint s c k + divZero ((curvePoint s c (k + 1) - curvePoint s c k) * (code % 256 : Nat)) 256

/-- A word that the sensor is judged through fails parity (07 R482). -/
def senFailed (s : State) (k : Nat) : Bool := badW s (0xE20 + k) || (k != 6 && curveBad s (uf s (0xE20 + k) 1 1))

/-- The sensor is disabled, by EN or by a failed word it is judged through (07 R192, R482). -/
def senOff (s : State) (k : Nat) : Bool := senFailed s k || !bit (rd s (0xE20 + k)) 0

/-- The first test of R192 that a sample fails: 1 OPEN, 2 SHORT, 3 RANGE, 4 SLEW; 0 for a good sample. -/
def senTest (s : State) (k : Nat) (q : SenSt) (code : Nat) (t : Int) : Nat :=
  let cfg := rd s (0xE20 + k)
  let lim := (fld cfg 8 8 * uf s 0xE00 0 7 + 99) / 100
  if k != 6 && decide (0xFE0 ≤ code) then 1
  else if k != 6 && decide (code ≤ 0x1F) then 2
  else if t < sgn 8 (fld cfg 16 8) * 10 ∨ (fld cfg 24 8 * 10 : Nat) < t then 3
  else match q.prev with
    | some tp => if fld cfg 8 8 ≠ 0 ∧ (lim : Int) < (t - tp).natAbs then 4 else 0
    | none => 0

/-- One sensor takes its sample (07 R190-R193). -/
def senSample (s : State) (k : Nat) (q : SenSt) (code : Nat) (die : Int) : SenSt :=
  let t := if k = 6 then clampI (-32768) 32767 die else curveTemp s (uf s (0xE20 + k) 1 1) code
  let shown := { q with temp := unsgn 16 t, code := if k = 6 then 0 else code }
  let lose := fun (x : SenSt) => { x with valid := false, invCount := if q.valid then sat 255 (q.invCount + 1) else q.invCount }
  if senOff s k then lose { shown with reason := 6, prev := none, goodRun := 0 }
  else
    let why := senTest s k q code t
    let prev := if why = 1 ∨ why = 2 then none else some t
    if why ≠ 0 then lose { shown with reason := why, prev := prev, goodRun := 0, everBad := true }
    else if q.valid || !q.everBad || decide (rf s (0xE20 + k) 4 4 ≤ q.goodRun + 1) then
      { shown with valid := true, reason := 0, prev := prev, goodRun := q.goodRun + 1 }
    else { shown with valid := false, reason := 5, prev := prev, goodRun := q.goodRun + 1 }

/-- The members of group g: mask bits, none while its word fails parity. -/
def grpMembers (s : State) (g : Nat) : Nat := if badW s (0xE30 + g) then 0 else rf s (0xE30 + g) 0 8

/-- One group from its sensors (07 R194, R482). -/
def grpSample (s : State) (sens : List SenSt) (g : Nat) (q : GrpSt) : GrpSt :=
  let cfg := rd s (0xE30 + g)
  let mem := (upto 8).filter (fun k => (fld cfg 0 8).testBit k)
  let val := mem.filter (fun k => (nth sens k {}).valid)
  if badW s (0xE30 + g) then { state := 1, nValid := 0 }
  else if mem.isEmpty then {}
  else match val with
    | [] => { state := 1 }
    | k0 :: rest =>
      let tOf := fun k => sgn 16 (nth sens k {}).temp
      let best := rest.foldl (fun b k => if tOf b < tOf k then k else b) k0
      let t := tOf best
      let lim := sgn 16 (fld cfg 8 16)
      let hot := if q.state = 3 then decide (lim - (fld cfg 24 8 : Nat) ≤ t) else decide (lim ≤ t)
      { state := if hot then 3 else 2, temp := t, source := best, nValid := val.length }

/-- A group is not empty (07 R195): a failed word counts as a group in use. -/
def grpUsed (s : State) (g : Nat) : Bool := badW s (0xE30 + g) || grpMembers s g != 0

/-- New sensor and group states take effect, with the interrupts and the capo fault of R195. -/
def thmDeliver (s : State) (sens : List SenSt) : State :=
  let q := s.core.thm
  let grps := q.grps.zipIdx.map (fun e => grpSample s sens e.2 e.1)
  let lostMember := (upto 8).any (fun k => (nth q.sens k {}).valid && !(nth sens k {}).valid &&
    (upto 4).any (fun g => (grpMembers s g).testBit k))
  let entersInv := (upto 4).any (fun g => (nth grps g {}).state == 1 && (nth q.grps g {}).state != 1)
  let entersHot := (upto 4).any (fun g => (nth grps g {}).state == 3 && (nth q.grps g {}).state != 3)
  let s := modC s (fun c => { c with thm := { c.thm with sens := sens, grps := grps } })
  let s := whenS (lostMember || entersInv) s (fun s => raiseAll s 18)
  let s := whenS entersInv s (fun s => capoFault s 19)
  whenS entersHot s (fun s => raiseAll s 19)

/-- The sample of one period: conversion, judgement, groups, delivery; the period before it is completed
(07 R189-R195, Table 7-5; DEDUCED, notes/assumptions/24.md). uv: the ball voltages. -/
def thmSampleOp (s : State) (uv : List Nat) (die : Int) : State :=
  let sens := s.core.thm.sens.zipIdx.map (fun e => senSample s e.2 e.1 (adcCode (nth uv e.2 0)) die)
  let s := thmDeliver s sens
  modC s (fun c => { c with thm := { c.thm with samples := if c.thm.begun then c.thm.samples + 1 else c.thm.samples, begun := true } })

/-- The reaction of THM to a failed word in force (07 R482): sensors judged through it become invalid with reason DISABLED,
and its group INVALID, at once. -/
def thmParity (s : State) : State :=
  let sens := s.core.thm.sens.zipIdx.map (fun e =>
    if senFailed s e.2 then
      { e.1 with
        valid := false, reason := 6, prev := none, goodRun := 0
        invCount := if e.1.valid then sat 255 (e.1.invCount + 1) else e.1.invCount }
    else e.1)
  thmDeliver s sens

/-- CLEAR of THM_CNTCLR (07 Table 7-5). -/
def thmCntclrOp (s : State) : State :=
  modC s (fun c => { c with thm := { c.thm with sens := c.thm.sens.map (fun q => { q with invCount := 0 }) } })

/-- THM takes up a course: nothing but the new words, which its next sample uses (07 Edges). -/
def hookThm (_old s : State) : State := s

end Sys2Proof.Machine
end

