-- ==== Sys2Proof/Machine/FlwOps.lean ====
section
/-! DEFINITION. Flow channels: demand, precedence, ramp, tach, stretching, stall and ageing (07 R196-R213). -/

namespace Sys2Proof.Machine

/-- Word k of channel n: FLW_CHn_CTL is word 0. -/
def flwA (n k : Nat) : Nat := 0x1000 + 16 * n + k

/-- Configuration words of the channel in force that fail parity, as word numbers (07 R208). -/
def flwFailed (s : State) (n : Nat) : List Nat := (upto 11).filter (fun k => badW s (flwA n k))

/-- The channel is measured continuously: FVS channels, and FSW channels at a duty of 0 or 1,000 (07 R200). -/
def tachCont (s : State) (n : Nat) : Bool :=
  if n < 4 then let d := (nth s.core.flw.fsw n {}).duty; d == 0 || d == 1000 else true

/-- The speed of count revolutions-worth of edges over a time in us; no result is stated for a time of 0 (07 R200, R204). -/
def tachSpeed (ppr count us : Nat) : Nat :=
  if us = 0 then Config.speedOfZeroPeriod count % 65536 else sat 65535 (60000000 * count / (ppr * us))

/-- The speed of continuous measurement at a time (07 R200). -/
def contSpeed (ppr nowUs : Nat) (edges : List Nat) : Nat :=
  match edges with
  | e2 :: e1 :: _ =>
    let p := nmax (e2 - e1) (nowUs - e2)
    if 1048575 < p then 0 else tachSpeed ppr 1 p
  | _ => 0

/-- Change the drive record of channel n. -/
def modDrive (s : State) (n : Nat) (f : FlowDrive → FlowDrive) : State :=
  modC s (fun c => { c with flw := { c.flw with drive := upd c.flw.drive n f } })

/-- Change the ageing record of channel n. -/
def modAge (s : State) (n : Nat) (f : FlowAge → FlowAge) : State :=
  modC s (fun c => { c with flw := { c.flw with age := upd c.flw.age n f } })

/-- Change the switched output of channel n. -/
def modFsw (s : State) (n : Nat) (f : FswSt → FswSt) : State :=
  modC s (fun c => { c with flw := { c.flw with fsw := upd c.flw.fsw n f } })

/-- The drive record of channel n. -/
def driveOf (s : State) (n : Nat) : FlowDrive := nth s.core.flw.drive n {}

/-- The ageing record of channel n. -/
def ageOf (s : State) (n : Nat) : FlowAge := nth s.core.flw.age n {}

/-- The curve C of R199 at a temperature in 0.1 C. What is truncated toward zero is the quotient, on a falling segment too,
where R199 could also mean the sum (DEDUCED, notes/assumptions/24.md). -/
def flowCurve (s : State) (n : Nat) (t : Int) : Nat :=
  let tk := fun k => (uf s (flwA n 2) (8 * k) 8 * 10 : Nat) - (400 : Int)
  let dk := fun k => uf s (flwA n (3 + k / 2)) (16 * (k % 2)) 16
  if t ≤ tk 0 then dk 0
  else if tk 3 ≤ t then dk 3
  else
    let seg := fun k => (dk k + divZero (((dk (k + 1) : Int) - dk k) * (t - tk k)) (tk (k + 1) - tk k)).toNat
    if t < tk 1 then seg 0 else if t < tk 2 then seg 1 else seg 2

/-- The failsafe causes of rank 3 and the parity cause: bits stall, watchdog, group, parity (07 R206, R207). -/
def flowCause (s : State) (n : Nat) : BitVec 4 :=
  let d := driveOf s n
  let act := uf s (flwA n 6) 24 2
  let g := uf s (flwA n 6) 20 3
  let mode := uf s (flwA n 0) 0 2
  let gst := (nth s.core.thm.grps g {}).state
  bvOf 4 (fun i => nth [d.stalled && act == 1, s.core.part.wdog.any (fun w => bit w.held n),
    (decide (g < 4) && decide (gst ≤ 1)) || (decide (4 ≤ g) && decide (2 ≤ mode)), !(flwFailed s n).isEmpty] i false)

/-- The source of the drive (07 Table 7-3): 0 to 3 the mode, 4 FAILSAFE, 5 STALL_OFF, 6 PARITY. -/
def flowSource (s : State) (n : Nat) : Nat :=
  let c := flowCause s n
  if bit c 3 then 6
  else if (driveOf s n).stalled && uf s (flwA n 6) 24 2 == 2 then 5
  else if c &&& 7 ≠ 0 then 4
  else uf s (flwA n 0) 0 2

/-- The demand of the mode (07 R199). -/
def flowDemand (s : State) (n : Nat) : Nat :=
  let mode := uf s (flwA n 0) 0 2
  let tgt := uf s (flwA n 5) 0 16
  let c := flowCurve s n (nth s.core.thm.grps (uf s (flwA n 6) 20 3) {}).temp
  if mode = 0 then 0 else if mode = 1 then tgt else if mode = 2 then c else nmax tgt c

/-- A field in per mille; more than 1,000 acts as 1,000 (07 Table 7-1). -/
def permille (v : Nat) : Nat := nmin 1000 v

/-- u_req and the trial integrator of a rank 4 channel with its demand (07 R201). -/
def flowLoop (s : State) (n : Nat) (d : FlowDrive) (dem : Nat) : Nat × Int :=
  let lo : Int := (permille (uf s (flwA n 7) 0 10) * 100 : Nat)
  let hi : Int := (permille (uf s (flwA n 7) 10 10) * 100 : Nat)
  if dem = 0 then (0, 0)
  else if uf s (flwA n 0) 2 1 = 0 then ((clampI lo hi (dem * 100 : Nat)).toNat, d.integ)
  else
    let e : Int := (dem : Int) - d.speed
    let it := if d.fresh then clampI lo hi (d.integ + divZero ((uf s (flwA n 1) 16 16 : Nat) * e) 16) else d.integ
    ((clampI lo hi (divZero ((uf s (flwA n 1) 0 16 : Nat) * e) 16 + it)).toNat, it)

/-- Move the drive toward u_req by at most r (07 R202). -/
def rampTo (u req r : Nat) : Nat := if u ≤ req then nmin req (u + r) else nmax req (u - r)

/-- The stall action begins: flag, count, interrupt, capo fault (07 R205). -/
def flowStallOp (s : State) (n : Nat) : State :=
  let s := modDrive s n (fun d => { d with stalled := true, stallRun := 0, nStalls := sat 255 (d.nStalls + 1) })
  let s := raiseOwner0 s (.flow n) 20
  capoFault s 18

/-- The count of stall ticks has reached STALL_TIME × 10 (07 R205). -/
def flowStallDue (s : State) (n : Nat) : Bool :=
  !(driveOf s n).stalled && decide (uf s (flwA n 8) 16 9 * 10 ≤ (driveOf s n).stallRun) && decide (0 < (driveOf s n).stallRun)

/-- The baseline of a band is set and the band is marked learned (07 R212). -/
def learnOp (s : State) (n b : Nat) : State :=
  let a := 0x1060 + 8 * n + b
  let s := setRF s a 0 16 (uf s a 16 16)
  modAge s n (fun g => { g with learned := setBit g.learned b true })

/-- A band has reached LEARN_N samples and is not yet learned (07 R212). -/
def learnDue (s : State) (n b : Nat) : Bool :=
  bit (used s (flwA n 10)) 22 && !bit (ageOf s n).learned b && decide (uf s (flwA n 10) 24 8 ≤ nth (ageOf s n).learnCnt b 0)
    && decide (0 < nth (ageOf s n).learnCnt b 0)

/-- A complete steady window gives its sample (07 R210-R213), and the next tick starts a new window. -/
def steadyOp (s : State) (n : Nat) : State :=
  let g := ageOf s n
  let um := g.sumU / 100
  let sm := g.sumS / 100
  let full := uf s (flwA n 10) 0 16
  let q := nmin 65535 (64 * um / sm)
  let b := nmin 7 (if full = 0 then Config.bandOfZeroFull sm else 8 * sm / full)
  let a := 0x1060 + 8 * n + b
  let acc := nth g.acc b 0
  let acc' := if uf s a 16 16 = 0 then 16 * q else acc + q - acc / 16
  let cur := acc' / 16
  let learn := bit (used s (flwA n 10)) 22
  let s := setRF s a 16 16 cur
  let s := modAge s n (fun g => { g with
    n := 0, sumU := 0, sumS := 0, acc := upd g.acc b (fun _ => acc')
    learnCnt := if learn then upd g.learnCnt b (fun k => sat 255 (k + 1)) else g.learnCnt })
  let s := whenS (learnDue s n b) s (fun s => learnOp s n b)
  let old := !learn && uf s a 0 16 != 0 && decide (uf s a 0 16 * (100 + uf s (flwA n 10) 16 6) < cur * 100)
  let s' := whenS (old && !bit g.ageing b) s (fun s => raiseOwner0 s (.flow n) 21)
  whenS old s' (fun s => modAge s n (fun g => { g with ageing := setBit g.ageing b true }))

/-- The tick takes a channel's drive (07 R198-R209). At the first one an FSW output is taken over at its latch level, which lasts
until the next period starts (R209). -/
def flowChannel (s : State) (nowUs n : Nat) : State :=
  let d0 := driveOf s n
  let first := !d0.taken
  let u0 := if first then (if n < 4 then (if bit s.hold.fsLevels n then 100000 else 0)
    else permille (uf s (flwA n 7) 20 10) * 100) else d0.u
  let ppr := uf s (flwA n 6) 0 2 + 1
  let cont := tachCont s n
  let d1 := { d0 with
    taken := true, u := u0
    integ := if first then (u0 : Nat) else d0.integ
    speed := if cont then contSpeed ppr nowUs d0.edges else d0.speed
    fresh := cont || d0.fresh }
  let cause := flowCause s n
  let src := flowSource s n
  let back := !first && decide (4 ≤ d0.source) && decide (src < 4)
  let crossed := !first && (decide (4 ≤ d0.source) != decide (4 ≤ src))
  let d2 := if back then { d1 with integ := (u0 : Nat) } else d1
  let dem := flowDemand s n
  let loop := uf s (flwA n 0) 2 1 == 1
  let hard := (flwFailed s n).any (fun k => k == 7 || k == 8)
  let fsReq := if hard then 100000 else permille (uf s (flwA n 7) 20 10) * 100
  let fsR := if hard then 1000 else uf s (flwA n 8) 25 7 * 10
  let lp := flowLoop s n d2 dem
  let req := if src = 5 then 0 else if 4 ≤ src then fsReq else lp.1
  let u := if src = 5 then 0 else if 4 ≤ src then rampTo u0 req fsR else rampTo u0 req (uf s (flwA n 0) 8 7 * 10)
  let integ := if 4 ≤ src then d2.integ else if dem = 0 then 0 else if loop && u == req then lp.2 else d2.integ
  let stallTick := uf s (flwA n 8) 0 16 != 0 && decide (0 < u) && decide (d2.speed < uf s (flwA n 8) 0 16)
  let d3 := { d2 with
    u := u, uReq := req, integ := integ, source := src, cause := cause, ramping := decide (u ≠ req), fresh := false
    stallRun := if d2.stalled then 0 else if stallTick then d2.stallRun + 1 else 0 }
  let s := modDrive s n (fun _ => d3)
  let s := whenS (first && decide (n < 4)) s (fun s => modFsw s n (fun w => { w with duty := u0 / 100, on := u0 / 100 }))
  let s := whenS crossed s (fun s => raiseOwner0 s (.flow n) 22)
  let s := whenS (flowStallDue s n) s (fun s => flowStallOp s n)
  -- ageing
  let g := ageOf s n
  let err := ((dem : Int) - d3.speed).natAbs
  let steady := decide (src < 4) && loop && dem != 0 && (g.n == 0 || g.demand == dem) && u == req && decide (err * 50 ≤ dem)
  let s := modAge s n (fun g => if steady then
      { g with
        n := g.n + 1, demand := dem
        sumU := (if g.n = 0 then 0 else g.sumU) + u, sumS := (if g.n = 0 then 0 else g.sumS) + d3.speed }
    else { g with n := 0, sumU := 0, sumS := 0 })
  let s := whenS (decide (100 ≤ (ageOf s n).n)) s (fun s => steadyOp s n)
  -- output
  if n < 4 then s
  else
    let v0 := uf s (flwA n 9) 0 10
    let v1 := uf s (flwA n 9) 16 10
    let num : Int := (v0 * 100000 : Nat) + ((v1 : Int) - v0) * u
    let code := ((2 * num + 100000) / 200000).toNat
    modC s (fun c => { c with flw := { c.flw with fvs := upd c.flw.fvs (n - 4) (fun _ => some code) } })

/-- The control tick for every channel (07 R198; DEDUCED, notes/assumptions/24.md). -/
def flowTickOp (s : State) (nowUs : Nat) : State := (upto 6).foldl (fun s n => flowChannel s nowUs n) s

/-- A qualified edge (07 R200, R204): within the window of a stretched channel, at any time of a continuous one. -/
def tachEdgeOp (s : State) (n us : Nat) : State :=
  if tachCont s n then modDrive s n (fun d => { d with edges := us :: d.edges.take 1 })
  else
    let w := nth s.core.flw.fsw n {}
    if w.winEnd ≠ 0 ∧ w.winStart ≤ us ∧ us ≤ w.winEnd then
      let s := modFsw s n (fun w => { w with winEdges := w.winEdges ++ [us] })
      modDrive s n (fun d => { d with edges := us :: d.edges.take 1 })
    else s

/-- A stretch window ends and gives the speed; S holds until then (07 R204). -/
def stretchEndOp (s : State) (n : Nat) : State :=
  let w := nth s.core.flw.fsw n {}
  if w.winEnd = 0 ∨ tachCont s n then s
  else
    let ppr := uf s (flwA n 6) 0 2 + 1
    let k := w.winEdges.length
    let sp := match w.winEdges, w.winEdges.getLast? with
      | a :: _ :: _, some b => tachSpeed ppr (k - 1) (b - a)
      | _, _ => 0
    let s := modDrive s n (fun d => { d with speed := sp, fresh := true })
    modFsw s n (fun w => { w with winEnd := 0, winStart := 0, winEdges := [] })

/-- A new period of FSWn starts: duty and frequency in force, stretch cycle, repayment (07 R196, R203). The repayment of a
cycle goes by the t_on with which the cycle began; a new duty sets the ON pulse of the period alone. A cycle whose
EVERY is less than the k periods of its own pulse is k periods long (DEDUCED, notes/assumptions/24.md). -/
def fswPeriodOp (s : State) (n us : Nat) : State :=
  let duty := (driveOf s n).u / 100
  let freq := uf s (flwA n 6) 8 8
  modFsw s n (fun w =>
    if duty = 0 ∨ 1000 ≤ duty then
      { duty := duty, freq := freq, on := duty }
    else
      let fresh := w.restart || w.len == 0 || decide (w.len ≤ w.pos)
      let st := used s (flwA n 9)
      let ms := fld st 16 8 + fld st 8 8
      let l := nmax (ms * freq) duty
      let w := if fresh then
          { w with
            pos := 0, ton := duty, pulse := (l + 999) / 1000, len := nmax (fld st 0 8) ((l + 999) / 1000)
            debt := l - (l + 999) / 1000 * duty, restart := false
            winStart := us + fld st 16 8 * 1000, winEnd := us + ms * 1000, winEdges := [] }
        else w
      if fresh then { w with duty := duty, freq := freq, on := nmin 1000 l, pos := 1 }
      else if w.pos < w.pulse then
        { w with duty := duty, freq := freq, on := nmin 1000 (ms * freq - 1000 * w.pos), pos := w.pos + 1 }
      else
        let rep := nmin w.debt w.ton
        { w with duty := duty, freq := freq, on := duty - rep, debt := w.debt - rep, pos := w.pos + 1 })

/-- FLW takes up a course (07 Edges, R212): stretch restart, LOOP, LEARN. -/
def hookFlw (old s : State) : State :=
  (upto 6).foldl (fun s n =>
    let ch := fun k => decide (rd old (flwA n k) ≠ rd s (flwA n k))
    let s := whenS (decide (n < 4) && (ch 9 || decide (rf old (flwA n 6) 8 8 ≠ rf s (flwA n 6) 8 8))) s
      (fun s => modFsw s n (fun w => { w with restart := true }))
    let s := whenS (decide (rf old (flwA n 0) 2 1 ≠ rf s (flwA n 0) 2 1)) s
      (fun s => modDrive s n (fun d => { d with integ := (d.u : Nat) }))
    whenS (!bit (rd old (flwA n 10)) 22 && bit (rd s (flwA n 10)) 22) s (fun s =>
      let s := modAge s n (fun g => { g with learned := 0, learnCnt := List.replicate 8 0, acc := List.replicate 8 0 })
      (upto 8).foldl (fun s b => setRF s (0x1060 + 8 * n + b) 16 16 0) s)) s

/-- CLEAR of FLW_CNTCLR (07 Table 7-10). -/
def flwCntclrOp (s : State) : State :=
  modC s (fun c => { c with flw := { c.flw with drive := c.flw.drive.map (fun d => { d with nStalls := 0 }) } })

/-- A write of FLW_AGEn_b sets its accumulator to 16 × CURRENT (07 R211). -/
def ageWritten (s : State) (n b : Nat) : State :=
  modAge s n (fun g => { g with acc := upd g.acc b (fun _ => 16 * rf s (0x1060 + 8 * n + b) 16 16) })

/-- STALLED is cleared: the count starts again from 0 (07 R205). -/
def stallCleared (s : State) (n : Nat) : State := modDrive s n (fun d => { d with stalled := false, stallRun := 0 })

/-- A staged THM or FLW word of value v is acceptable (07 R217). -/
def thmFlwOk (s : State) (a : Nat) (v : Word) : Bool :=
  let o := a % 0x200
  let stg := fun p => rd s (p + 0x100)
  if a / 0x200 = 7 then
    if o = 0 then decide (1 ≤ fld v 0 7 ∧ fld v 0 7 ≤ 100)
    else if 0x20 ≤ o ∧ o < 0x28 then
      decide (1 ≤ fld v 4 4) && decide (sgn 8 (fld v 16 8) ≤ (fld v 24 8 : Nat))
    else true
  else
    let n := o / 16
    let k := o % 16
    if k = 0 then decide (1 ≤ fld v 8 7 ∧ fld v 8 7 ≤ 100) && !(decide (2 ≤ fld v 0 2) && fld (stg (flwA n 6)) 20 3 == 4)
    else if k = 2 then
      decide (fld v 0 8 ≤ fld v 8 8) && decide (fld v 8 8 ≤ fld v 16 8) && decide (fld v 16 8 ≤ fld v 24 8)
    else if k = 6 then
      (decide (4 ≤ n) || decide (8 ≤ fld v 8 8 ∧ fld v 8 8 ≤ 250)) && decide (fld v 20 3 ≤ 4)
        && !(fld v 20 3 == 4 && decide (2 ≤ fld (stg (flwA n 0)) 0 2)) && fld v 24 2 != 3
    else if k = 7 then decide (fld v 0 10 ≤ fld v 10 10)
    else if k = 8 then decide (5 ≤ fld v 16 9 ∧ fld v 16 9 ≤ 300) && decide (1 ≤ fld v 25 7 ∧ fld v 25 7 ≤ 100)
    else if k = 9 ∧ n < 4 then fld v 0 8 != 0 && fld v 8 8 != 0
    else if k = 10 then decide (5 ≤ fld v 16 6 ∧ fld v 16 6 ≤ 50) && fld v 24 8 != 0
    else true

end Sys2Proof.Machine
end

