-- ==== Sys2Proof/Machine/GngOps.lean ====
section
/-! DEFINITION. The gang link: members, keystone, gang state, time, frames sent and received (15). -/

namespace Sys2Proof.Machine

/-- Change the gang link. -/
def modG (s : State) (f : GngSt → GngSt) : State := modC s (fun c => { c with gng := f c.gng })

/-- Change the record of a member. -/
def modMem (s : State) (m : Nat) (f : MemSt → MemSt) : State := modG s (fun g => { g with mems := upd g.mems m f })

/-- GNG_CFG.EN. -/
def gngEn (s : State) : Bool := bit (used s 0x2400) 0

/-- GNG_CFG.MEMBERS. -/
def gngMembers (s : State) : Nat := uf s 0x2400 4 4

/-- Status of member m (15 Table 15-4). This member is ABSENT to itself until its own HELLO has gone out, PRESENT from there
on (15 worked example, step 1), and INCOMPATIBLE while DUPLICATE stands (R416; DEDUCED, notes/assumptions/18.md). -/
def memStatus (s : State) (m : Nat) : Nat :=
  if m = selfId s then
    (if !gngEn s then 0 else if s.core.gng.dup.isSome then 3 else if s.core.gng.selfOn then 1 else 0)
  else (nth s.core.gng.mems m {}).status

/-- Members named by MEMBERS. -/
def gangIds (s : State) : List Nat := (upto 4).filter (fun m => (gngMembers s).testBit m)

/-- A PRESENT member's digest differs from the own one (15 R419). -/
def digestDiffers (s : State) : Bool :=
  (upto 4).any (fun m => m != selfId s && memStatus s m == 1 && (nth s.core.gng.mems m {}).digest != s.core.gng.digest)

/-- An ID in MEMBERS is LOST. -/
def anyLost (s : State) : Bool := (gangIds s).any (fun m => memStatus s m == 2)

/-- The gang is FORMING (15 R419). -/
def gangForming (s : State) : Bool :=
  gngEn s && (!s.core.gng.formed || (gangIds s).any (fun m => memStatus s m == 3))

/-- GNG_VOTE.VOTE. -/
def ownVote (s : State) : Nat := uf s 0x2401 0 3

/-- The own vote is raised to HOLD (15 R420). -/
def voteForced (s : State) : Bool := ownVote s == 3 && gngEn s && (gangForming s || anyLost s || digestDiffers s)

/-- The effective vote (15 R420). -/
def effVote (s : State) : Nat := if voteForced s then 2 else ownVote s

/-- The latest STATE of a member ended within the 100 ms before now (15 R419). -/
def stateFresh (s : State) (m : Nat) : Bool :=
  match (nth s.core.gng.mems m {}).stateAt with
  | some t => decide ((now s - t) * 1000 ≤ 100 * 32768)
  | none => false

/-- RUN may be entered (15 R419). -/
def runEntry (s : State) : Bool :=
  effVote s == 3 &&
  (gangIds s).all (fun m => memStatus s m == 1 && (nth s.core.gng.mems m {}).vote == 3 && stateFresh s m)

/-- The gang state from what is known now (15 R419). A vote that is neither RUN nor SAFE counts as HOLD. -/
def gangJudged (s : State) : Nat :=
  if !gngEn s then 0
  else if gangForming s then 1
  else
    let others := (upto 4).filter (fun m => m != selfId s && memStatus s m == 1)
    let votes := effVote s :: others.map (fun m => (nth s.core.gng.mems m {}).vote)
    if votes.any (fun v => v == 4) then 4
    else if votes.any (fun v => v != 3) || anyLost s || digestDiffers s then 2
    else if s.core.gng.state == 3 || runEntry s then 3 else 2

/-- The state is judged, and GNG_STATE raised where it changes (15 R419, R420). -/
def gangJudge (s : State) : State :=
  let s := if gngEn s && (gangIds s).all (fun m => memStatus s m == 1) then modG s (fun g => { g with formed := true }) else s
  let n := gangJudged s
  if n = s.core.gng.state then s else raiseAll (modG s (fun g => { g with state := n })) 36

/-- The PRESENT member with the lowest ID (15 R418). -/
def keystoneOf (s : State) : Option Nat := (upto 4).find? (fun m => memStatus s m == 1)

/-- The keystone is elected again; a new keystone owes a TIME at once, and a member that is no keystone owes none
(15 R418, R422). -/
def electKeystone (s : State) : State :=
  let k := keystoneOf s
  let me := k == some (selfId s)
  modG s (fun g => { g with keystone := k, pendTime := me && (g.pendTime || g.keystone != k) })

/-- Set the status of a member other than this one, with what follows from a change (15 R418, R421, R422). -/
def setMemStatus (s : State) (m st : Nat) : State :=
  if (nth s.core.gng.mems m {}).status = st then s
  else
    let s := modMem s m (fun q => { q with status := st, rpg := q.rpg && st != 2 })
    let s := electKeystone s
    let s := if st = 1 ∧ s.core.gng.keystone = some (selfId s) then modG s (fun g => { g with pendTime := true }) else s
    raiseAll s 37

/-- MISMATCH_FIELD and MISMATCH_MEMBER (15 R416). -/
def setMismatch (s : State) (m f : Nat) : State :=
  let old := s.core.gng.mmField
  let s := modG s (fun g => { g with mmMember := m, mmField := f })
  if old = f then s else raiseAll s 39

/-- A correctly checked frame has been received: RX, and its sender's SEEN (15 R411, R421). src: its SRC byte, none for CAPO. -/
def gangHeard (s : State) (src : Option Nat) : State :=
  let s := modG s (fun g => { g with rx := (g.rx + 1) % 65536 })
  match src with
  | none => s
  | some m =>
    if m = selfId s then
      -- DUPLICATE (15 R416)
      let new := s.core.gng.dup.isNone
      let s := modG s (fun g => { g with dup := some (now s), dupSeen := sat 255 (g.dupSeen + 1) })
      let s := electKeystone (setMismatch s m 5)
      gangJudge (if new then raiseAll s 37 else s)
    else modMem s m (fun q => { q with seen := BitVec.ofNat 32 (stamp s), last := now s })

/-- The frame is received, and addressed to this member (15 R411). -/
def gangFor (s : State) (dest : BitVec 4) : Bool := gngEn s && bit dest (selfId s)

/-- A received frame: heard in any case, acted on where it is addressed to this member. -/
def gangRx (s : State) (dest : BitVec 4) (src : Option Nat) (act : State → State) : State :=
  if gngEn s then
    let s := gangHeard s src
    if gangFor s dest then act s else s
  else s

/-- CAPO (15 R425, 03 R95). -/
def gangCapoOp (s : State) (dest : BitVec 4) : State :=
  gangRx s dest none (fun s => if bit (used s 0x53) 6 then capoTrigger s 2 else s)

/-- STATE (15 R419, R424). -/
def gangStateOp (s : State) (dest : BitVec 4) (src : Nat) (vote flags : Byte) : State :=
  gangRx s dest (some src) (fun s =>
    let s := if src != selfId s && memStatus s src == 1 then
        modMem s src (fun q => { q with vote := if vote.toNat < 8 then vote.toNat else 0, rpg := bit flags 0, stateAt := some (now s) })
      else s
    gangJudge s)

/-- RPG (15 R424). -/
def gangRpgOp (s : State) (dest : BitVec 4) (src : Nat) (rpg : Byte) : State :=
  gangRx s dest (some src) (fun s =>
    if src != selfId s && memStatus s src == 1 then modMem s src (fun q => { q with rpg := rpg == 1 }) else s)

/-- The alarm value (05 Table 5-8). -/
def alarmValue (s : State) : Nat := (aused s 0xA0A).toNat + 4294967296 * auf s 0xA0B 0 16

/-- ARMED, and the timebase has reached the alarm (05 R140). -/
def alarmDue (s : State) : Bool := bit (aused s 0xA0B) 16 && decide (alarmValue s ≤ stamp s)

/-- FIRED is set and ARMED cleared (05 R140). -/
def alarmFlags (s : State) : State := setA s 0xA0B (putFld (ard s 0xA0B) 16 2 2)

/-- Step the timebase by d ticks (15 R422, R423, 05 R140). -/
def stepTime (s : State) (d : Int) : State :=
  let s := modA s (fun a => { a with tbase := BitVec.ofInt 48 ((a.tbase.toNat : Int) + d) })
  let lim := clampI (-2147483648) 2147483647 d
  let s := modG s (fun g => { g with steps := sat 65535 (g.steps + 1), lastStep := BitVec.ofInt 32 lim })
  let s := if d.natAbs > 32768 then raiseAll (modG s (fun g => { g with jumps := sat 255 (g.jumps + 1) })) 38 else s
  if alarmDue s then alarmFlags s else s

/-- TIME from the keystone (15 R422). since: ticks from the START of the frame to its end. -/
def gangTimeOp (s : State) (dest : BitVec 4) (src ticks since : Nat) : State :=
  gangRx s dest (some src) (fun s =>
    if src != selfId s && memStatus s src == 1 && s.core.gng.keystone == some src then
      let d : Int := (ticks : Int) - ((stamp s : Int) - (since : Int))
      if d.natAbs > 4 then stepTime s d else s
    else s)

/-- HELLO (15 R415, R416, R420). -/
def gangHelloOp (s : State) (dest : BitVec 4) (src : Nat) (devHi devLo format members : Byte) (digest : Word) : State :=
  let owes := memStatus s src != 1
  gangRx s dest (some src) (fun s =>
    let s := if owes then modG s (fun g => { g with owed := true, pendHello := true }) else s
    let s :=
      if src = selfId s then s
      else
        let s := modMem s src (fun q => { q with
          stepping := devLo, format := format, members := BitVec.ofNat 4 members.toNat, digest := digest })
        let f := if devHi ≠ 0x09 ∨ devLo ≠ 0xB1 then 1
          else if format ≠ s.core.gng.format then 2
          else if members.toNat ≠ gngMembers s then 3
          else if digest ≠ s.core.gng.digest then 4 else 0
        let s := if f ≠ 0 then setMismatch s src f
          else if s.core.gng.mmField ≠ 5 ∧ s.core.gng.mmMember = src then setMismatch s src 0 else s
        if (gngMembers s).testBit src then setMemStatus s src (if 1 ≤ f ∧ f ≤ 3 then 3 else 1) else s
    gangJudge s)

/-- KEYFWD (15 R426). A GROUP above 7 names no local group. -/
def keyfwdOp (s : State) (dest : BitVec 4) (src : Nat) (group typ subject flags : Byte) (ticks : BitVec 48) : State :=
  gangRx s dest (some src) (fun s =>
    if src != selfId s && memStatus s src == 1 && decide (group.toNat < 8) then
      fifoPost s (ownerN s (.key group.toNat)) typ.toNat subject.toNat (flags.toNat ||| 0x40) src ticks.toNat 0
    else s)

/-- A frame is dropped (15 R411). -/
def gangDropOp (s : State) : State :=
  if gngEn s then modG s (fun g => { g with crcErr := sat 255 (g.crcErr + 1) }) else s

/-- A member is lost (15 R421). -/
def memberLossOp (s : State) (m : Nat) : State :=
  if gngEn s ∧ m ≠ selfId s ∧ memStatus s m = 1 then
    gangJudge (modG (setMemStatus s m 2) (fun g => { g with losses := sat 255 (g.losses + 1) }))
  else s

/-- DUPLICATE clears, and the own ID is PRESENT again, if it was (15 R416, R421). -/
def dupClearOp (s : State) : State :=
  if s.core.gng.dup.isSome then
    let s := modG s (fun g => { g with dup := none })
    let s := if s.core.gng.mmField = 5 then setMismatch s s.core.gng.mmMember 0 else s
    let s := electKeystone s
    gangJudge (if memStatus s (selfId s) = 1 then raiseAll s 37 else s)
  else s

/-- This member's own HELLO has gone out: it is PRESENT to itself, which is a change of a member's status the first time
(15 R418, R421, worked example, step 1; DEDUCED, notes/assumptions/18.md). -/
def selfHello (s : State) : State :=
  let old := memStatus s (selfId s)
  let s := modG s (fun g => { g with selfOn := true })
  if memStatus s (selfId s) = old then s else raiseAll (electKeystone s) 37

/-- One forwarded event reaches the queue of GNG, or is dropped (15 R426). -/
def fwdTake (g : GngSt) (e : Nat × Nat × Nat × Nat × Nat) : GngSt :=
  if 16 ≤ g.fwd.length then { g with fwdDrops := sat 255 (g.fwdDrops + 1) } else { g with fwd := g.fwd ++ [e] }

/-- A gang frame boundary: the bus is idle, and GNG takes what KEY has for it (01 Table 1-2, 15 R426). -/
def gangPass (s : State) : State :=
  let s := modG s (fun g => { g with busy := false })
  if gngEn s then modK (modG s (fun g => s.core.key.fwdDue.foldl fwdTake g)) (fun b => { b with fwdDue := [] }) else s

/-- A line is stuck low outside a frame (15 R409, Edges). -/
def busStuckOp (s : State) : State :=
  if gngEn s then modG s (fun g => { g with busStuck := sat 255 (g.busStuck + 1) }) else s

/-- STATE_PERIOD (15 R411). -/
def statePeriodOp (s : State) : State := if gngEn s then modG s (fun g => { g with pendState := true }) else s

/-- HELLO_PERIOD (15 Table 15-1). -/
def helloPeriodOp (s : State) : State := if gngEn s then modG s (fun g => { g with pendHello := true }) else s

/-- TIME_PERIOD (15 R422): the keystone alone. -/
def timePeriodOp (s : State) : State :=
  if gngEn s ∧ s.core.gng.keystone = some (selfId s) then modG s (fun g => { g with pendTime := true }) else s

/-- The pending frame to send next: CAPO, an owed HELLO (15 R415), then the lowest TYPE, an order that no rule gives to a member's
own frames (DESIGN CHOICE, notes/assumptions/18.md). -/
def gangNext (s : State) : Option Nat :=
  let g := s.core.gng
  if !gngEn s then none
  else if g.pendCapo then some 1
  else if g.owed then some 5
  else if g.pendState then some 2
  else if g.pendRpg then some 3
  else if g.pendTime && g.keystone == some (selfId s) then some 4
  else if g.pendHello then some 5
  else if g.fwd ≠ [] then some 6
  else none

/-- n bytes of a number, most significant first (15 R411). -/
def beBytesN (n v : Nat) : List Byte := (leBytes n v).reverse

/-- The payload of the pending frame of a type (15 Table 15-3). -/
def gangPayload (s : State) (typ : Nat) : List Byte :=
  let g := s.core.gng
  let src : Byte := BitVec.ofNat 8 (selfId s)
  match typ with
  | 2 => [src, g.seq, BitVec.ofNat 8 (effVote s), BitVec.ofNat 8 (b2n s.core.seq.rpgOut + 2 * b2n (voteForced s))]
  | 3 => [src, BitVec.ofNat 8 (b2n s.core.seq.rpgOut)]
  | 4 => src :: beBytesN 6 (stamp s)
  | 5 => [src, 0x09, 0xB1, g.format, BitVec.ofNat 8 (gngMembers s)] ++ beBytesN 4 g.digest.toNat
  | 6 => match g.fwd with
    | (grp, t, subj, fl, tick) :: _ =>
      [src, BitVec.ofNat 8 grp, BitVec.ofNat 8 t, BitVec.ofNat 8 subj, BitVec.ofNat 8 fl] ++ beBytesN 6 tick
    | [] => [src]
  | _ => []

/-- The bytes of a gang frame (15 R411). -/
def gangFrame (s : State) (typ : Nat) : List Byte :=
  let pl := gangPayload s typ
  let dest := if typ = 6 then uf s 0x2400 16 4 else 15
  let body := BitVec.ofNat 8 (16 * typ + dest) :: BitVec.ofNat 8 pl.length :: pl
  body ++ beBytesN 2 (crc16 body)

/-- The pending frame is started and wins, or loses and stays pending while the winner's frame is on the bus (15 R412-R415).
No frame starts while one is on the bus (R413). A frame that wins ends at a frame boundary. -/
def gangTransmitOp (s : State) (wins : Bool) : State :=
  match gangNext s with
  | none => s
  | some typ =>
    if s.core.gng.busy then s
    else if !wins then modG s (fun g => { g with arbLoss := sat 255 (g.arbLoss + 1), busy := true })
    else gangPass <|
      let bs := gangFrame s typ
      let ev := effVote s
      let rpg := s.core.seq.rpgOut
      let s := modG s (fun g => { g with tx := (g.tx + 1) % 65536, sent := bs })
      match typ with
      | 1 => modG s (fun g => { g with pendCapo := false })
      | 2 =>
        let s := modG s (fun g => { g with pendState := false, seq := g.seq + 1 })
        gangJudge (modMem s (selfId s) (fun q => { q with vote := ev, rpg := rpg, stateAt := some (now s) }))
      | 3 => modG s (fun g => { g with pendRpg := false })
      | 4 => modG s (fun g => { g with pendTime := false })
      | 5 => gangJudge (selfHello (modG s (fun g => { g with pendHello := false, owed := false })))
      | _ => modG s (fun g => { g with fwd := g.fwd.drop 1 })

/-- MEMBERS or EN change in force: every member ABSENT, this one too, the gang FORMING or DISABLED (15 R427). A link that
is off has no frame pending (DESIGN CHOICE, notes/assumptions/18.md). -/
def gangRestart (s : State) : State :=
  let en := gngEn s
  let s := modG s (fun g => { g with
    mems := g.mems.map (fun q => { q with status := 0, rpg := false, stateAt := none })
    formed := false
    selfOn := false
    dup := none
    keystone := none
    pendCapo := en && g.pendCapo
    pendState := en && g.pendState
    pendRpg := en && g.pendRpg
    pendTime := false
    pendHello := en && g.pendHello
    owed := en && g.owed })
  let s := if s.core.gng.mmField = 5 then setMismatch s s.core.gng.mmMember 0 else s
  let n := gangJudged s
  if n = s.core.gng.state then s else raiseAll (modG s (fun g => { g with state := n })) 36

/-- GNG takes up a course (15 R427). -/
def hookGng (old s : State) : State :=
  if gngEn old = gngEn s ∧ gngMembers old = gngMembers s then s else gangRestart s

/-- GNG_VOTE has been written: the state is judged where the effective vote has changed (15 R419, R420). -/
def voteWritten (old s : State) : State := if effVote old = effVote s then s else gangJudge s

/-- CLEAR of GNG_CNTCLR (15 R428). -/
def gngCntclrOp (s : State) : State :=
  modG s (fun g => { g with
    steps := 0, jumps := 0, tx := 0, rx := 0, crcErr := 0, arbLoss := 0, losses := 0, busStuck := 0, fwdDrops := 0, dupSeen := 0 })

/-- At the end of an instant: a changed vote or power-good is owed (15 Table 15-3), and a capo taken locally (R425). -/
def gangSettle (s : State) (capoTaken : Bool) : State :=
  let ev := effVote s
  let rpg := s.core.seq.rpgOut
  let en := gngEn s
  modG s (fun g => { g with
    pendState := g.pendState || (en && (g.lastVote != ev || g.lastRpg != rpg))
    pendRpg := g.pendRpg || (en && g.lastRpg != rpg)
    pendCapo := g.pendCapo || (en && capoTaken)
    lastVote := ev
    lastRpg := rpg })

/-- A staged GNG_CFG of value v is acceptable (15 R428). -/
def gngWordOk (s : State) (v : Word) : Bool :=
  decide (1 ≤ fld v 8 8 ∧ fld v 8 8 ≤ 100) && !(bit v 0 && !bit v (4 + selfId s)) && !bit v (16 + selfId s)

end Sys2Proof.Machine
end

