-- ==== Sys2Proof/Machine/NfcMedia.lean ====
section
/-! DEFINITION. NAND media: descriptors, words in force per LUN, page layout, randomiser, guards, decoding, page status
(12 R345-R361, 13 R370). -/

namespace Sys2Proof.Machine

/-- Change NFC. -/
def modN (s : State) (f : NfcSt → NfcSt) : State := modC s (fun c => { c with nfc := f c.nfc })
/-- Change LUN l. -/
def modLun (s : State) (l : Nat) (f : NfcLun → NfcLun) : State := modN s (fun n => { n with luns := upd n.luns l f })
/-- Change channel c. -/
def modChan (s : State) (c : Nat) (f : NfcChan → NfcChan) : State := modN s (fun n => { n with chans := upd n.chans c f })
/-- LUN l. -/
def lunOf (s : State) (l : Nat) : NfcLun := nth s.core.nfc.luns l {}
/-- Channel c. -/
def chanOf (s : State) (c : Nat) : NfcChan := nth s.core.nfc.chans c {}

/-- A word in force for LUN l (03 R86, 12 Edges). -/
def lw (s : State) (l a : Nat) : Word := sget (fun a => used s a) (lunOf s l).diffs a
/-- Bits of a word in force for LUN l. -/
def lf (s : State) (l a lo n : Nat) : Nat := fld (lw s l a) lo n

/-- Address of NFC_CHn_LUNk_CFG of LUN l. -/
def lunCfgA (l : Nat) : Nat := 0x1A04 + 0x200 * (l / 4) + l % 4
/-- The LUN is enabled. -/
def lunEn (s : State) (l : Nat) : Bool := bit (used s (lunCfgA l)) 0
/-- The ladder of the LUN. -/
def lunLadder (s : State) (l : Nat) : Nat := uf s (lunCfgA l) 4 2

/-- Byte i of a descriptor. -/
def d8 (d : List Byte) (i : Nat) : Nat := (nth d i 0).toNat
/-- Bytes i and i + 1 of a descriptor. -/
def d16 (d : List Byte) (i : Nat) : Nat := d8 d i + 256 * d8 d (i + 1)

/-- Bytes per page of data: 2, 4, 8, 16 KiB (12 Table 12-12). -/
def pageBytes (s : State) (l : Nat) : Nat := 2048 * 2 ^ fld (lunOf s l).geom0 0 2
/-- Codeword slots of a page (12 R345). -/
def pageSlots (s : State) (l : Nat) : Nat := 2 ^ fld (lunOf s l).geom0 0 2
/-- Planes of a LUN. -/
def planesOf (s : State) (l : Nat) : Nat := 2 ^ fld (lunOf s l).geom0 2 2
/-- Spare bytes per page. -/
def spareBytes (s : State) (l : Nat) : Nat := fld (lunOf s l).geom0 16 16
/-- Blocks per LUN. -/
def blocksOf (s : State) (l : Nat) : Nat := fld (lunOf s l).geom1 0 16
/-- Pages per block. -/
def pagesOf (s : State) (l : Nat) : Nat := fld (lunOf s l).geom1 16 11
/-- The LUN is READY. -/
def lunReady (s : State) (l : Nat) : Bool := (lunOf s l).state == 2

/-- Parity bytes of an option (12 Table 12-5). -/
def parityLen (opt : Nat) : Nat := nth [128, 192, 256, 320] opt 128

/-- A parity option fits a page (12 R346). -/
def parityFits (slots p total : Nat) : Bool := decide (slots * (2056 + p) + 16 ≤ total)

/-- The three words of namespace n in force for LUN l. -/
def nsLuns (s : State) (l n : Nat) : Word := lw s l (0x1810 + 3 * n)
/-- FIRST and LAST. -/
def nsRange (s : State) (l n : Nat) : Word := lw s l (0x1811 + 3 * n)
/-- NFC_NSs_CFG. -/
def nsCfg (s : State) (l n : Nat) : Word := lw s l (0x1812 + 3 * n)

/-- The block actually addressed: single-level substitution (12 R361). -/
def substBlock (s : State) (l b : Nat) : Nat :=
  match (upto 128).find? (fun e => let w := used s (bbtAddr l e); w != 0xFFFFFFFF && fld w 0 16 == b) with
  | some e => fld (used s (bbtAddr l e)) 16 16
  | none => b

/-- The address word of a page (12 R348). -/
def pageAddrWord (l b p : Nat) : Nat := l * 268435456 + b * 1024 + p

/-- One step of the randomiser (12 R349). -/
def lfsrStep (s : Nat) : Nat :=
  (s * 2) % 4294967296 + b2n ((s.testBit 31 != s.testBit 21) != (s.testBit 1 != s.testBit 0))

/-- n bytes of the randomiser sequence from a state. -/
def lfsrBytes : Nat → Nat → List Byte
  | 0, _ => []
  | n + 1, s => let s := iter lfsrStep 8 s; BitVec.ofNat 8 s :: lfsrBytes n s

/-- The seed of a page (12 R349). -/
def pageSeed (l b p salt : Nat) : Nat :=
  let x := (pageAddrWord l b p) ^^^ (salt * 65537)
  if x = 0 then 0xFFFFFFFF else x

/-- XOR of two byte lists. -/
def xorBytes (a b : List Byte) : List Byte := (a.zip b).map (fun x => x.1 ^^^ x.2)

/-- The page guard of a slot (12 R348). -/
def slotGuard (l b p : Nat) (tag data : List Byte) : Nat := crc32c (leBytes 4 (pageAddrWord l b p) ++ tag ++ data)

/-- The bytes of one slot before randomising (12 Table 12-4). -/
def slotBytes (l b p ns i par : Nat) (data : List Byte) : List Byte :=
  let tag : List Byte := [BitVec.ofNat 8 ns, BitVec.ofNat 8 i, 1, 0]
  let head := data ++ leBytes 4 (slotGuard l b p tag data) ++ tag
  head ++ (upto par).map (Config.ldpcParity par head)

/-- The commit marker (12 R347). -/
def commitMarker : List Byte := (List.replicate 8 [(0x5A : Byte), 0xC3]).flatten

/-- Bits in which two byte lists differ. -/
def diffBits (a b : List Byte) : Nat := ((a.zip b).map (fun x => popcnt (x.1 ^^^ x.2))).foldl (· + ·) 0

/-- The marker: 0 committed, 1 erased, 2 torn (12 R347). -/
def markerOf (m : List Byte) : Nat :=
  let m := (m ++ List.replicate 16 0).take 16
  if diffBits m commitMarker ≤ 8 then 0
  else if diffBits m (List.replicate 16 0xFF) ≤ 8 then 1 else 2

/-- The page image that a PROGRAM sends: every slot, randomised, then the marker and the 0xFF fill (12 R345, 13 R372). -/
def pageImage (s : State) (l ns b p first : Nat) (named : List (List Byte)) : List Byte :=
  let cfg := nsCfg s l ns
  let par := parityLen (fld cfg 9 2)
  let n := pageSlots s l
  let slots := (upto n).foldr (fun i acc =>
    let data := if i < first then List.replicate 2048 (0xFF : Byte)
      else (named[i - first]?).getD (List.replicate 2048 0xFF)
    slotBytes l b p ns i par data ++ acc) []
  let sent := if bit cfg 11 then xorBytes slots (lfsrBytes slots.length (pageSeed l b p (fld (nsLuns s l ns) 16 16))) else slots
  sent ++ commitMarker ++ List.replicate (pageBytes s l + spareBytes s l - sent.length - 16) 0xFF

/-- What a read makes of one slot: decoded data or the raw data after derandomising, the corrected count, and where it
did not decode whether its parity checks held. -/
structure SlotRes where
  decoded : Bool
  data : List Byte
  corr : Nat
  parityOk : Bool

/-- Where a slot is read from: LUN, physical block, page, namespace, slot, parity bytes, seed and RAND. -/
structure SlotCtx where
  l : Nat
  b : Nat
  p : Nat
  ns : Nat
  i : Nat
  par : Nat
  rand : Bool
  seed : Nat

/-- What the soft decoder takes (12 R353): the value of each bit is that of the read at step k, and its reliability is high, a
1 here, where every read gives the same value. With one named entry that one comparison decides. -/
def softInput (k : List Byte) (named : List (List Byte)) : List Byte × List Byte :=
  (k, k.zipIdx.map (fun e => named.foldl (fun acc r => acc &&& ~~~(e.1 ^^^ nth r e.2 0)) 0xFF))

/-- Raw bytes of a slot after derandomising (12 R349). -/
def derand (c : SlotCtx) (raw : List Byte) : List Byte :=
  if c.rand then xorBytes raw ((lfsrBytes ((c.i + 1) * (2056 + c.par)) c.seed).drop (c.i * (2056 + c.par))) else raw

/-- The decoded codeword satisfies the page guard, NSID and CWI (12 R348). -/
def codewordGuardOk (c : SlotCtx) (w : List Byte) : Bool :=
  let data := w.take 2048
  let tag := (w.drop 2052).take 4
  decide (leNat ((w.drop 2048).take 4) = slotGuard c.l c.b c.p tag data) && d8 tag 0 == c.ns && d8 tag 1 == c.i

/-- One decoding of one slot (12 R350). r: the attempt; hard: the hard read against which corrections count. -/
def slotDecode (c : SlotCtx) (r hard : SlotRead) : SlotRes :=
  let raw := derand c hard.raw
  if r.ok && codewordGuardOk c r.word then
    { decoded := true, data := r.word.take 2048, corr := diffBits (r.word.take (2056 + c.par)) raw, parityOk := true }
  else { decoded := false, data := (raw ++ List.replicate 2048 0).take 2048, corr := 0, parityOk := r.ok }

/-- The ladder entry k of the LUN's ladder names a soft entry. -/
def softNamed (s : State) (l k : Nat) : Bool :=
  let w := lw s l (ladderAddr (lunLadder s l) k 1)
  fld w 16 5 != 0 || fld w 24 5 != 0

/-- The soft entries that ladder entry k of the LUN names (12 Table 12-7). -/
def softEntries (s : State) (l k : Nat) : Nat × Nat :=
  let w := lw s l (ladderAddr (lunLadder s l) k 1)
  (fld w 16 5, fld w 24 5)

/-- The bits that the soft decoding at step k of a read works on (12 R353). -/
def softBits (s : State) (l k : Nat) (hard soft : List SlotRead) : List Byte × List Byte :=
  let e := softEntries s l k
  let r := nth soft (k - 1) {}
  softInput (nth hard k {}).raw ((if e.1 ≠ 0 then [r.lo] else []) ++ (if e.2 ≠ 0 then [r.hi] else []))

/-- Steps that a ladder read may take: min(RETRY_MAX, STEPS) (12 R352). -/
def ladderLen (s : State) (l ns : Nat) : Nat := nmin (fld (nsCfg s l ns) 14 5) (lf s l 0x180A (8 * lunLadder s l) 5)

/-- Zero bits of a slot's raw bytes (12 Table 12-8). -/
def zeroBits (bs : List Byte) : Nat := diffBits bs (List.replicate bs.length 0xFF)

/-- What a read of a page gives: the status of Table 12-8 as an outcome code, slot results, step, soft, largest count, and the
re-reads that it took, each with the slots transferred again. -/
structure PageRes where
  status : Nat
  slots : List SlotRes
  step : Nat
  soft : Bool
  corr : Nat
  reads : List (RereadKind × BitVec 8) := []

/-- The slots that have not decoded, as a mask. -/
def failMask (ctxs : List SlotCtx) (rs : List SlotRes) : BitVec 8 :=
  bvOf 8 (fun i => (rs.zip ctxs).any (fun e => e.2.i == i && !e.1.decoded))

/-- The ladder of R352 over the named slots: from step k, with `fuel` steps left. A re-read transfers the slots that fail when
it is made; both soft re-reads of a step those that its hard decode leaves. -/
def ladderRun (s : State) (l : Nat) (ctxs : List SlotCtx) (useSoft : Bool) (hard soft : List (List SlotRead)) :
    Nat → Nat → List SlotRes → Bool → List (RereadKind × BitVec 8) → List SlotRes × Nat × Bool × List (RereadKind × BitVec 8)
  | 0, k, res, sf, rd => (res, k - 1, sf, rd)
  | fuel + 1, k, res, sf, rd =>
    if res.all (fun r => r.decoded) then (res, k - 1, sf, rd)
    else
      let hr := fun i => nth (nth hard i []) k {}
      let r1 := (res.zip ctxs).zipIdx.map (fun e => if e.1.1.decoded then e.1.1 else slotDecode e.1.2 (hr e.2) (hr e.2))
      let doSoft := useSoft && softNamed s l k && !r1.all (fun r => r.decoded)
      let r2 := if doSoft then
          (r1.zip ctxs).zipIdx.map (fun e =>
            if e.1.1.decoded then e.1.1
            else
              let r := slotDecode e.1.2 (nth (nth soft e.2 []) (k - 1) {}) (hr e.2)
              if r.decoded then r else e.1.1)
        else r1
      let e := softEntries s l k
      let softs := if doSoft then (if e.1 ≠ 0 then [(RereadKind.softLo, failMask ctxs r1)] else []) ++
        (if e.2 ≠ 0 then [(RereadKind.softHi, failMask ctxs r1)] else []) else []
      ladderRun s l ctxs useSoft hard soft fuel (k + 1) r2 (sf || doSoft) (rd ++ (.step, failMask ctxs res) :: softs)

/-- A read of the named slots of one page (12 R352-R358). margin: the single read of a VERIFY at that entry. -/
def pageRead (s : State) (l ns b p first n : Nat) (margin : Option Nat) (marker : List Byte)
    (hard soft : List (List SlotRead)) : PageRes :=
  let cfg := nsCfg s l ns
  let par := parityLen (fld cfg 9 2)
  let seed := pageSeed l b p (fld (nsLuns s l ns) 16 16)
  let ctxs : List SlotCtx := (upto n).map (fun i =>
    { l := l, b := b, p := p, ns := ns, i := first + i, par := par, rand := bit cfg 11, seed := seed })
  let hr := fun i => nth (nth hard i []) 0 {}
  let home := ctxs.zipIdx.map (fun e => slotDecode e.1 (hr e.2) (hr e.2))
  let mk := markerOf marker
  let step0 := margin.getD 0
  let worst := fun (rs : List SlotRes) => rs.foldl (fun a r => nmax a r.corr) 0
  if mk = 1 ∧ (upto n).all (fun i => decide (zeroBits ((hr i).raw.take (2056 + par)) ≤ fld cfg 24 8)) = true then
    { status := 1, slots := ctxs.map (fun _ => { decoded := true, data := List.replicate 2048 0xFF, corr := 0, parityOk := true })
      step := step0, soft := false, corr := 0 }
  else if mk ≠ 0 then { status := 2, slots := home, step := step0, soft := false, corr := worst home }
  else
    let steps := if margin.isSome then 0
      else ladderLen s l ns
    let r := ladderRun s l ctxs (bit cfg 12) hard soft steps 1 home false []
    let bad := r.1.filter (fun x => !x.decoded)
    { status := if bad.isEmpty then 0 else if bad.all (fun x => x.parityOk) then 4 else 3
      slots := r.1, step := if margin.isSome then step0 else r.2.1, soft := r.2.2.1, corr := worst r.1, reads := r.2.2.2 }

/-- CRC-16 of a parameter page copy (12 R337): polynomial 0x8005, initial value 0x4F4E. -/
def paramCrc (bs : List Byte) : Nat :=
  bs.foldl (fun c b => iter (fun c => if 32768 ≤ c then ((c * 2) ^^^ 0x8005) % 65536 else c * 2) 8 (c ^^^ (b.toNat * 256))) 0x4F4E

/-- The first copy whose CRC matches its bytes 254-255 (12 R337). -/
def paramCopy (copies : List (List Byte)) : Option (List Byte) :=
  (copies.take 3).find? (fun c => c.length == 256 && decide (paramCrc (c.take 254) = d16 c 254))

/-- Highest bit set of a mask, none where it is 0. -/
def topBit (m n : Nat) : Option Nat := ((upto n).filter (fun i => m.testBit i)).getLast?

/-- The geometry words and judgement from a parameter page (12 R338, Table 12-12). The offsets are those of ONFI 4.2
(PRESUMED, notes/assumptions/16.md). -/
structure ParamRes where
  ok : Bool
  perCe : Nat
  resetLun : Bool
  rowCycles : Nat
  geom0 : Word
  geom1 : Word

/-- Read a parameter page copy. -/
def paramRead (c : List Byte) : ParamRes :=
  let n32 := fun i => leNat ((c.drop i).take 4)
  let data := n32 80
  let spare := d16 c 84
  let pages := n32 92
  let blocks := n32 96
  let luns := d8 c 100
  let row := d8 c 101 % 16
  let col := d8 c 101 / 16
  let planeBits := d8 c 113
  let sdr := (topBit (d16 c 129) 6).getD 0
  let ddr2 := topBit (d8 c 142) 8
  let size := (upto 4).find? (fun i => data == 2048 * 2 ^ i)
  { ok := size.isSome && parityFits (data / 2048) 128 (data + spare) && decide (pages ≤ 1024 ∧ blocks ≤ 65535)
      && (luns == 1 || luns == 2) && decide (col ≤ 2 ∧ row ≤ 3) && decide (planeBits ≤ 2)
    perCe := luns
    rowCycles := row
    resetLun := (d16 c 8).testBit 9
    geom0 := mkW [(0, 2, size.getD 0), (2, 2, planeBits), (4, 4, d8 c 102), (8, 3, sdr), (12, 4, ddr2.getD 15), (16, 16, spare)]
    geom1 := mkW [(0, 16, blocks), (16, 11, pages)] }

end Sys2Proof.Machine
end

