-- ==== Sys2Proof/Machine/NfcBus.lean ====
section
/-! DEFINITION. The NAND bus: addresses and the cycles of every command that the device issues (12 R334, R335, R339, R341,
R342, R354, Table 12-2, 13 R378). -/

namespace Sys2Proof.Machine

/-- Bits that hold every number up to n. -/
def bitsFor (n : Nat) : Nat := ((upto 17).find? (fun k => decide (n < 2 ^ k))).getD 17

/-- The row address of page p of block b on LUN l: (u x 2^B + b) x 2^Q + p (12 R339). -/
def rowAddress (s : State) (l b p : Nat) : Nat :=
  (l % 2 * 2 ^ bitsFor (blocksOf s l - 1) + b) * 2 ^ bitsFor (pagesOf s l - 1) + p

/-- Address cycles of a number, lowest byte first. -/
def addrBytes (n v : Nat) : List NandCycle := (leBytes n v).map NandCycle.addr

/-- The row address cycles: 3, or 2 where the parameter page gives 2 (12 R334). -/
def rowCycles (s : State) (l row : Nat) : List NandCycle := addrBytes (if (lunOf s l).rowCycles = 2 then 2 else 3) row

/-- A column and a row address (12 R334). -/
def fullAddr (s : State) (l col row : Nat) : List NandCycle := addrBytes 2 col ++ rowCycles s l row

/-- READ, or multi-plane READ, of the rows of a group. -/
def readCycles (s : State) (l : Nat) : List Nat → List NandCycle
  | [] => []
  | [r] => .cmd 0x00 :: fullAddr s l 0 r ++ [.cmd 0x30]
  | r :: rest => .cmd 0x00 :: fullAddr s l 0 r ++ [.cmd 0x32] ++ readCycles s l rest

/-- CHANGE READ COLUMN ENHANCED, and n bytes. -/
def columnCycles (s : State) (l col row n : Nat) : List NandCycle := .cmd 0x06 :: fullAddr s l col row ++ [.cmd 0xE0, .din n]

/-- PAGE PROGRAM without its last confirmation: page images to the rows of a group. -/
def programCycles (s : State) (l : Nat) : List (Nat × List Byte) → List NandCycle
  | [] => []
  | [r] => .cmd 0x80 :: fullAddr s l 0 r.1 ++ [.dout r.2]
  | r :: rest => .cmd 0x80 :: fullAddr s l 0 r.1 ++ [.dout r.2, .cmd 0x11] ++ programCycles s l rest

/-- BLOCK ERASE, or multi-plane. -/
def eraseCycles (s : State) (l : Nat) : List Nat → List NandCycle
  | [] => []
  | [r] => .cmd 0x60 :: rowCycles s l r ++ [.cmd 0xD0]
  | r :: rest => .cmd 0x60 :: rowCycles s l r ++ [.cmd 0xD1] ++ eraseCycles s l rest

/-- READ STATUS ENHANCED to a LUN. -/
def statusCycles (s : State) (l : Nat) : List NandCycle := .cmd 0x78 :: rowCycles s l (rowAddress s l 0 0) ++ [.din 1]

/-- RESET LUN where the parameter page lists it, RESET otherwise (12 R343). -/
def resetCycles (s : State) (l : Nat) : List NandCycle :=
  if (lunOf s l).resetLun then .cmd 0xFA :: rowCycles s l (rowAddress s l 0 0) else [.cmd 0xFF]

/-- READ ID at both addresses (12 Table 12-3). -/
def identifyCycles : List NandCycle := [.cmd 0x90, .addr 0x20, .din 4, .cmd 0x90, .addr 0x00, .din 4]

/-- READ PARAMETER PAGE: up to three copies of 256 bytes. -/
def parameterCycles : List NandCycle := [.cmd 0xEC, .addr 0x00, .din 768]

/-- SET FEATURES. -/
def setFeature (f : Byte) (ps : List Byte) : List NandCycle := [.cmd 0xEF, .addr f, .dout ps]

/-- The cycles that apply ladder entry k to LUN l (12 Table 12-7): none where FEATURE is 0x00. LUN SET FEATURES names the LUN in
a first address cycle (PRESUMED, notes/assumptions/16.md). -/
def entryCycles (s : State) (l k : Nat) : List NandCycle :=
  let a := lw s l (ladderAddr (lunLadder s l) k 0)
  let b := lw s l (ladderAddr (lunLadder s l) k 1)
  let f : Byte := BitVec.ofNat 8 (fld a 0 8)
  let ps : List Byte := [BitVec.ofNat 8 (fld a 8 8), BitVec.ofNat 8 (fld a 16 8), BitVec.ofNat 8 (fld a 24 8), BitVec.ofNat 8 (fld b 0 8)]
  if f = 0 then []
  else if bit b 8 then [.cmd 0xD5, .addr (BitVec.ofNat 8 (l % 2)), .addr f, .dout ps] else setFeature f ps

/-- Feature 0x02 for NV-DDR2: differential DQS and RE, VREFQ, the ODT of NFC_CHn_CFG, no warm-up cycles (12 R334, R341). The
places of the bits are those of ONFI 4.2 (PRESUMED, notes/assumptions/16.md). -/
def ddr2Feature (odt : Nat) : List NandCycle := setFeature 0x02 [BitVec.ofNat 8 (7 + 16 * odt), 0, 0, 0]

/-- Feature 0x01: the timing mode (12 R341). -/
def timingFeature (ddr : Bool) (mode : Nat) : List NandCycle :=
  setFeature 0x01 [BitVec.ofNat 8 (if ddr then mode + 0x20 else mode), 0, 0, 0]

/-- The device sends cycles on channel c to chip enable ce; what it sends in one instant is kept together. -/
def sendTo (s : State) (c ce : Nat) (cy : List NandCycle) : State :=
  if cy.isEmpty then s
  else modChan s c (fun x => { x with
    sent := (if x.sentAt = s.freeCtr then x.sent else []) ++ [(ce, cy)], sentAt := s.freeCtr })

/-- The device sends cycles to the chip enable of LUN l. -/
def sendLun (s : State) (l : Nat) (cy : List NandCycle) : State := sendTo s (l / 4) (l % 4 / 2) cy

/-- The die of LUN l comes to read at ladder entry k. -/
def applyEntry (s : State) (l k : Nat) : State := modLun (sendLun s l (entryCycles s l k)) l (fun x => { x with entry := k })

/-- The home entry is applied again where the die has been left at another (12 R354). -/
def applyHome (s : State) (l : Nat) : State := if (lunOf s l).entry = 0 then s else applyEntry s l 0

end Sys2Proof.Machine
end

