-- ==== Sys2Proof/Machine/NfcOps.lean ====
section
/-! DEFINITION. The NAND work queue and the channels: slots, submission, linked groups, choice, dispatch, ends, rings,
discards, LUN resets, channel faults, initialisation, mode changes (12 R336-R344, 13). -/

namespace Sys2Proof.Machine

/-- Operation code of a flight. -/
def fOp (f : Flight) : Nat := d8 f.desc 0
/-- LUN of a flight. -/
def fLun (f : Flight) : Nat := d8 f.desc 5
/-- Destination LUN of a COPY. -/
def fDLun (f : Flight) : Nat := d8 f.desc 17
/-- The flight is a COPY. -/
def fCopy (f : Flight) : Bool := fOp f == 4
/-- The flight uses LUN l, or a COPY goes to it. -/
def fOn (f : Flight) (l : Nat) : Bool := fLun f == l || (fCopy f && fDLun f == l)
/-- Named slots: how many. -/
def fSlots (f : Flight) : Nat := d8 f.desc 13 + 1

/-- The flight that holds a slot. -/
def flightOf (s : State) (num : Nat) : Option Flight := s.core.nfc.flight.find? (fun f => f.num == num)
/-- Change the flight that holds a slot. -/
def modFl (s : State) (num : Nat) (f : Flight → Flight) : State :=
  modN s (fun n => { n with flight := n.flight.map (fun x => if x.num = num then f x else x) })

/-- The granules that an operation uses (13 R368, 04 R108). -/
def granulesUsed (d : List Byte) : List Nat :=
  let op := d8 d 0
  if op = 1 ∨ op = 2 ∨ op = 4 then (upto (4 * (d8 d 13 + 1))).map (fun i => d16 d 14 + i)
  else if op = 15 then d16 d 14 :: (upto (d8 d 26 + 1)).map (fun i => d16 d 24 + i)
  else []

/-- The bytes of a descriptor that an OP uses (13 Table 13-5). -/
def usedBytes (op : Nat) : List Nat :=
  match op with
  | 1 => upto 16
  | 2 => upto 16
  | 3 => upto 10
  | 4 => upto 24
  | 5 => upto 14
  | 6 => upto 6
  | 7 => [0, 1, 2, 3, 5]
  | 15 => [0, 1, 2, 3, 5, 14, 15, 24, 25, 26]
  | _ => []

/-- Field ranges and zero bytes of a descriptor (13 Table 13-4). -/
def descOk (d : List Byte) : Bool :=
  let u := usedBytes (d8 d 0)
  !u.isEmpty && decide (d8 d 1 ≤ 1) && decide (d8 d 4 ≤ 15 ∧ d8 d 5 ≤ 15 ∧ d16 d 6 = 0)
    && decide (d16 d 8 ≤ 65534 ∧ d16 d 10 ≤ 1023 ∧ d8 d 12 ≤ 7 ∧ d8 d 13 ≤ 7 ∧ d16 d 14 ≤ 511)
    && decide (d8 d 16 ≤ 15 ∧ d8 d 17 ≤ 15 ∧ d16 d 18 = 0 ∧ d16 d 20 ≤ 65534 ∧ d16 d 22 ≤ 1023)
    && decide (d16 d 24 ≤ 511 ∧ d8 d 26 ≤ 39) && (upto 32).all (fun i => u.elem i || d8 d i == 0)

/-- Partition p may submit the operation (13 Table 13-5). -/
def issuerOk (s : State) (p : Nat) (d : List Byte) : Bool :=
  let own := fun n => ownerN s (.ns n) == p
  let l := d8 d 5
  match d8 d 0 with
  | 4 => own (d8 d 4) && own (d8 d 16)
  | 6 => own (d8 d 4) && bit (nsLuns s l (d8 d 4)) l
  | 7 => p == 0 || (upto 16).all (fun n => !(bit (nsCfg s l n) 13 && bit (nsLuns s l n) l) || own n)
  | 15 => p == 0
  | _ => own (d8 d 4)

/-- RANGE test of one side of an operation: namespace, LUN, block, page, slots (13 Table 13-3). -/
def sideOk (s : State) (op ns l b page first n : Nat) : Bool :=
  bit (nsCfg s l ns) 13 && bit (nsLuns s l ns) l
    && (op == 6 || decide (fld (nsRange s l ns) 0 16 ≤ b ∧ b ≤ fld (nsRange s l ns) 16 16))
    && (!lunReady s l || op == 6 || (decide (op = 3 ∨ page < pagesOf s l) && decide (op = 3 ∨ first + n ≤ pageSlots s l)))

/-- RANGE test of a descriptor. -/
def descRange (s : State) (d : List Byte) : Bool :=
  let op := d8 d 0
  if op = 7 ∨ op = 15 then true
  else sideOk s op (d8 d 4) (d8 d 5) (d16 d 8) (d16 d 10) (d8 d 12) (d8 d 13 + 1)
    && (op != 4 || sideOk s op (d8 d 16) (d8 d 17) (d16 d 20) (d16 d 22) (d8 d 12) (d8 d 13 + 1))

/-- Members of the open linked group of partition p. -/
def openGroup (s : State) (p : Nat) : List Flight := s.core.nfc.flight.filter (fun f => f.opened && f.issuer.val == p)

/-- Plane of a flight's block after substitution (12 R339). -/
def planeOf (s : State) (d : List Byte) : Nat := substBlock s (d8 d 5) (d16 d 8) % planesOf s (d8 d 5)

/-- LINK rules for a submission (13 R381). -/
def linkOk (s : State) (p : Nat) (d : List Byte) : Bool :=
  let g := openGroup s p
  let link := d8 d 1 == 1
  let op := d8 d 0
  let l := d8 d 5
  if g.isEmpty ∧ link = false then true
  else if !lunReady s l && g.isEmpty then decide (1 ≤ op ∧ op ≤ 3)
  else
    let planes := planesOf s l
    let n := g.length + 1
    let size := if link then decide (n < nmax 3 (planes + 1)) else n == 2 || n == planes
    decide (1 ≤ op ∧ op ≤ 3) && decide (2 ≤ planes) && size && decide (n ≤ planes)
      && g.all (fun f => fOp f == op && d8 f.desc 4 == d8 d 4 && fLun f == l && d16 f.desc 10 == d16 d 10
        && planeOf s f.desc != planeOf s d)

/-- Slots held by partition p. -/
def slotsHeld (s : State) (p : Nat) : Nat := (s.core.nfc.flight.filter (fun f => f.issuer.val == p)).length
/-- G_p and M_p. -/
def slotShare (s : State) (p : Nat) : Nat × Nat := (uf s (0x240 + p) 0 11, uf s (0x240 + p) 16 11)
/-- Pool slots in use (04 R109). -/
def poolUsed (s : State) : Nat := (upto 4).foldl (fun n q => n + (slotsHeld s q - (slotShare s q).1)) 0
/-- A submission of partition p may take a slot (04 R109). One that the rule accepts while all 1,024 are held is refused too
(DESIGN CHOICE, notes/assumptions/29.md). -/
def slotFree (s : State) (p : Nat) : Bool :=
  let g := slotShare s p
  let t := slotsHeld s p
  let pool := 1024 - (upto 4).foldl (fun n q => n + (slotShare s q).1) 0
  decide (s.core.nfc.flight.length < 1024)
    && (decide (t < g.1) || (decide (poolUsed s < pool) && decide (t - g.1 < g.2)))

/-- The lowest free slot. -/
def lowestSlot (s : State) : Nat :=
  ((upto 1024).find? (fun n => !(s.core.nfc.flight.any (fun f => f.num == n)))).getD 0

/-- Entries of partition p in the queue of LUN l, the running operation's with them (04 R111 and worked example, 13 R385). -/
def entriesOf (s : State) (l p : Nat) : Nat :=
  (s.core.nfc.flight.filter (fun f => f.issuer.val == p && ((f.srcQ && fLun f == l) || (f.dstQ && fDLun f == l)))).length

/-- The completion record of a flight (13 Table 13-8). COURSE of one that was never dispatched is 0 (DESIGN CHOICE,
notes/assumptions/29.md). -/
def recordOfFlight (f : Flight) (phase : Bool) : List Byte :=
  let disc := f.status == 8
  leBytes 4 (mkN [(0, 16, d16 f.desc 2), (16, 10, f.num), (28, 4, fOp f)])
    ++ leBytes 4 (mkN [(0, 8, f.status), (8, 1, b2n f.warn), (9, 1, b2n f.soft), (10, 1, b2n f.unwritten),
      (11, 1, b2n f.reduced), (12, 1, b2n f.cache), (13, 1, b2n f.pass), (14, 1, b2n f.subst), (15, 1, b2n phase),
      (16, 8, if disc then 0 else f.step), (24, 8, if disc then 0 else f.info)])
    ++ leBytes 4 (mkN [(0, 16, if disc then 0 else f.corr), (16, 16, f.course)]) ++ leBytes 4 f.ticks

/-- Change the windows of partition p. -/
def modWin (s : State) (p : Nat) (f : NfcWin → NfcWin) : State := modN s (fun n => { n with wins := upd n.wins p f })

/-- Post the record of an ended flight (13 R390). -/
def postOne (s : State) (f : Flight) : State :=
  let p := f.issuer.val
  let w := nth s.core.nfc.wins p {}
  let s := bufStore s (0x084000 + p * 0x1000 + 16 * w.head) (recordOfFlight f w.phase)
  let s := modWin s p (fun w => { w with
    head := (w.head + 1) % 256, count := w.count + 1
    phase := if w.head = 255 then !w.phase else w.phase
    discards := if f.status = 8 then (w.discards + 1) % 256 else w.discards })
  let s := modN s (fun n => { n with
    flight := n.flight.filter (fun x => x.num != f.num), ended := n.ended.filter (fun x => x != f.num) })
  raise s p 31

/-- Where the record of a flight stands among those of one instant (13 R382, R391): by slot, a linked group by its lowest slot
and in plane order within. -/
def endKey (s : State) (f : Flight) : Nat :=
  if f.group = 0 then 8 * f.num
  else
    let ms := (s.core.nfc.flight.filter (fun x => x.group == f.group && x.fresh)).map (fun x => x.num)
    8 * ms.foldl nmin f.num + planeOf s f.desc

/-- Insert a flight by its key. -/
def insertByKey (s : State) (f : Flight) : List Flight → List Flight
  | [] => [f]
  | g :: rest => if endKey s f < endKey s g then f :: g :: rest else g :: insertByKey s f rest

/-- Slots of the flights that ended in this instant, in the order of their records. -/
def freshOrder (s : State) : List Nat :=
  ((s.core.nfc.flight.filter (fun f => f.fresh)).foldl (fun l f => insertByKey s f l) []).map (fun f => f.num)

/-- The end of an instant for the rings: records go out in ending order while their rings have space (13 R391). -/
def postAll (s : State) : State :=
  let new := freshOrder s
  let s := modN s (fun n => { n with
    ended := n.ended.filter (fun x => !new.elem x) ++ new
    flight := n.flight.map (fun f => { f with fresh := false }) })
  s.core.nfc.ended.foldl (fun s num =>
    match flightOf s num with
    | some f => if (nth s.core.nfc.wins f.issuer.val {}).count < 256 then postOne s f else s
    | none => s) s

/-- A flight ends with a status. One whose partition is in reset frees its slot without a record (04 Table 4-7). Every record of
an operation that ends on RC48 carries REDUCED (13 Edges). -/
def endFlight (s : State) (num status : Nat) : State :=
  match flightOf s num with
  | none => s
  | some f =>
    if f.silent then
      modN s (fun n => { n with flight := n.flight.filter (fun x => x.num != num), ended := n.ended.filter (fun x => x != num) })
    else
      let s := modFl s num (fun f => { f with
        st := 4, status := status, srcQ := false, dstQ := false, opened := false, fresh := true
        reduced := f.reduced || reduced s, ticks := stamp s % 4294967296 })
      modN s (fun n => { n with ended := n.ended.filter (fun x => x != num) ++ [num] })

/-- Several flights end. -/
def endAll (s : State) (es : List (Nat × Nat)) : State := es.foldl (fun s e => endFlight s e.1 e.2) s

/-- Slots of the flights that satisfy a test, ascending. -/
def slotsWhere (s : State) (t : Flight → Bool) : List Nat :=
  (s.core.nfc.flight.filter t).foldl (fun l f => insertNat f.num l) []

/-- Discard flights as one event (13 R392). -/
def discardFlights (s : State) (t : Flight → Bool) : State := endAll s ((slotsWhere s t).map (fun n => (n, 8)))

/-- Drop every operation that runs or waits on LUN l, and its hold on the bus. -/
def lunIdle (s : State) (l : Nat) : State :=
  let s := modLun s l (fun x => { x with cur := none, nxt := none, nn := none })
  modChan s (l / 4) (fun c => { c with bus := if c.bus = some (l % 4) then none else c.bus })

/-- The LUNs that a reset of LUN l reaches (12 R343). -/
def resetReach (s : State) (l : Nat) : List Nat :=
  if (lunOf s l).resetLun then [l] else [l - l % 2, l - l % 2 + 1].filter (fun k => k == l || lunReady s k || (lunOf s k).resetting)

/-- A LUN reset starts (12 R343): work on every LUN it reaches is discarded, but for the listed flights. -/
def lunResetOp (s : State) (l : Nat) (keep : List Nat) : State :=
  let rs := resetReach s l
  let s := sendLun s l (resetCycles s l)
  let s := rs.foldl (fun s k =>
    let s := lunIdle s k
    modLun s k (fun x => { x with state := 1, resetting := true, resetDone := false })) s
  let s := modN s (fun n => { n with counts := upd n.counts 1 (fun c => sat 255 (c + rs.length)) })
  let s := modChan s (l / 4) (fun c => { c with resets := sat 255 (c.resets + rs.length) })
  discardFlights s (fun f => rs.any (fOn f) && !keep.elem f.num)

/-- The chip enable of channel c that the phases of initialisation take next, from chip enable e. -/
def nextCe (s : State) (c e : Nat) : Option Nat :=
  ((upto 2).filter (fun k => decide (e ≤ k))).find? (fun k => lunEn s (4 * c + 2 * k) || lunEn s (4 * c + 2 * k + 1))

/-- Initialisation goes on with the Reset phase of the next chip enable, or with the Mode phase (12 Table 12-3). -/
def initGo (s : State) (c e : Nat) : State :=
  let s := match nextCe s c e with
    | some k => sendTo s c k [.cmd 0xFF]
    | none => s
  modChan s c (fun x => match nextCe s c e with
    | some k => { x with init := .reset, ce := k }
    | none => { x with init := .mode })

/-- A channel fault (12 R344). failed: the LUN whose reset failed. -/
def channelFaultOp (s : State) (c : Nat) (failed : Option Nat) : State :=
  let luns := (upto 4).map (fun k => 4 * c + k)
  let bad := slotsWhere s (fun f => luns.any (fOn f))
  let s := endAll s (bad.map (fun n =>
    match flightOf s n with
    | some f => (n, if fOp f = 7 ∧ failed = some (fLun f) ∧ f.st ≠ 4 then 9 else 8)
    | none => (n, 8)))
  let s := luns.foldl (fun s l =>
    let s := lunIdle s l
    modLun s l (fun x => { x with
      resetting := false, resetDone := false
      wasReady := x.wasReady || x.state == 2 || x.known.isSome && x.state == 1
      state := if lunEn s l && x.state != 7 then 1 else x.state
      geomOk := false, paramOk := false })) s
  let s := modN s (fun n => { n with counts := upd n.counts 0 (fun k => sat 255 (k + 1)) })
  let up := (chanOf s c).vccq != 0
  let s := modChan s c (fun x => { x with
    faults := sat 255 (x.faults + 1), fault := true, iface := false, mode := 0, modeDue := false, bus := none, init := .none })
  let s := capoFault (raiseAll s 33) 22
  whenS up s (fun s => initGo s c 0)

/-- The class of a bank (01 R27): 0 ABSENT, 1 for 1.8 V, 2 for 3.3 V. -/
def bankClass (mv : Nat) : Nat := if 1650 ≤ mv ∧ mv ≤ 1950 then 1 else if 3000 ≤ mv ∧ mv ≤ 3600 then 2 else 0

/-- A bank is classed anew (01 R27, 12 R336, R344). -/
def bankClassOp (s : State) (c mv : Nat) : State :=
  let k := bankClass mv
  let was := (chanOf s c).vccq
  let s := modChan s c (fun x => { x with vccq := k })
  if k = was then s
  else if was = 0 then
    let s := (upto 4).foldl (fun s i => modLun s (4 * c + i) (fun x =>
      { x with state := if lunEn s (4 * c + i) && x.state != 7 then 1 else x.state })) s
    modChan s c (fun x => { x with init := .settle })
  else channelFaultOp s c none

/-- LUNs of chip enable e of channel c that are initialised. -/
def ceLuns (s : State) (c e : Nat) : List Nat :=
  [4 * c + 2 * e, 4 * c + 2 * e + 1].filter (fun l => lunEn s l && (lunOf s l).state != 7)

/-- A LUN leaves initialisation in a state; one that was READY before a channel fault is FAULTED instead (12 R344). -/
def lunOut (s : State) (l st : Nat) : State :=
  modLun s l (fun x => { x with state := if x.wasReady ∧ st ≠ 5 then 7 else st, wasReady := false })

/-- A phase of channel initialisation ends (12 Table 12-3, R336-R338). -/
def initPhaseOp (s : State) (c : Nat) (obs : InitObs) : State :=
  let x := chanOf s c
  let ls := ceLuns s c x.ce
  match x.init with
  | .settle => initGo s c 0
  | .reset => modChan (sendTo s c x.ce identifyCycles) c (fun x => { x with init := .identify })
  | .identify =>
    if obs.sig = [0x4F, 0x4E, 0x46, 0x49] then
      let s := ls.foldl (fun s l => modLun s l (fun x => { x with ident := BitVec.ofNat 32 (leNat (obs.ident.take 4)) })) s
      modChan (sendTo s c x.ce parameterCycles) c (fun x => { x with init := .parameter, sigOk := true })
    else
      let s := ls.foldl (fun s l => lunOut s l 0) s
      initGo (modChan s c (fun x => { x with sigOk := false })) c (x.ce + 1)
  | .parameter =>
    match paramCopy obs.copies with
    | none => initGo (ls.foldl (fun s l => lunOut s l 3) s) c (x.ce + 1)
    | some cp =>
      let r := paramRead cp
      let s := ls.foldl (fun s l => modLun s l (fun x => { x with
        paramOk := true, geomOk := r.ok, perCe := r.perCe, resetLun := r.resetLun, rowCycles := r.rowCycles, geom0 := r.geom0, geom1 := r.geom1 })) s
      modChan s c (fun x => { x with init := .check })
  | .check =>
    let s := ls.foldl (fun s l =>
      let y := lunOf s l
      if !y.geomOk then lunOut s l 4
      else if l % 2 = 1 ∧ y.perCe = 1 then lunOut (modLun s l (fun y => { y with geomOk := false })) l 0
      else match y.known with
        | some k => if k = (y.geom0, y.geom1, y.ident) then s else lunOut (modLun s l (fun y => { y with geomOk := false })) l 5
        | none => modLun s l (fun y => { y with known := some (y.geom0, y.geom1, y.ident) })) s
    initGo s c (x.ce + 1)
  | _ => s

/-- The LUN passed Check and is in use. -/
def lunPassed (s : State) (l : Nat) : Bool :=
  let x := lunOf s l
  lunEn s l && x.geomOk && (x.state == 1 || x.state == 2)

/-- The effective mode of a channel: NV-DDR2 or not, and the mode (12 R340). -/
def effectiveMode (s : State) (c : Nat) : Bool × Nat :=
  let cfg := used s (0x1A00 + 0x200 * c)
  let ls := ((upto 4).map (fun k => 4 * c + k)).filter (lunPassed s)
  let ddr := ls.map (fun l => fld (lunOf s l).geom0 12 4)
  if bit cfg 8 && (chanOf s c).vccq == 1 && !reduced s && ddr.all (fun m => m != 15) then
    (true, ddr.foldl nmin (fld cfg 4 3))
  else
    let m := (ls.map (fun l => fld (lunOf s l).geom0 8 3)).foldl nmin (fld cfg 0 3)
    (false, nmin (if reduced s then 3 else 5) m)

/-- An operation runs on the channel, or a LUN of it is being reset. -/
def chanBusy (s : State) (c : Nat) : Bool :=
  (upto 4).any (fun k => let x := lunOf s (4 * c + k); x.cur.isSome || x.nxt.isSome || x.resetting)

/-- The sequence of R341 on channel c: RESET in NV-DDR2, the features, the read-back, and RESET again where it differs. -/
def modeSend (s : State) (c : Nat) (ok : Bool) : State :=
  let m := effectiveMode s c
  let luns := ((upto 4).map (fun k => 4 * c + k)).filter (lunPassed s)
  let ces := (luns.map (fun l => l % 4 / 2)).eraseDups
  let reset := fun (s : State) => ces.foldl (fun s e => sendTo s c e [.cmd 0xFF]) s
  let each := fun (s : State) (cy : List NandCycle) => luns.foldl (fun s l => sendLun s l cy) s
  let s := whenS (chanOf s c).iface s reset
  let s := whenS m.1 s (fun s => each s (ddr2Feature (uf s (0x1A00 + 0x200 * c) 12 2)))
  let s := each (each s (timingFeature m.1 m.2)) [.cmd 0xEE, .addr 0x01, .din 4]
  whenS (!ok) s reset

/-- The mode change of a channel (12 R341); LUNs that passed Check or finished a reset become READY. -/
def modeChangeOp (s : State) (c : Nat) (ok : Bool) : State :=
  let x := chanOf s c
  if chanBusy s c || !(x.modeDue || x.init == .mode) then s
  else
    let m := effectiveMode s c
    let initial := x.init == .mode
    let s := modChan (modeSend s c ok) c (fun x => { x with
      modeDue := false
      iface := ok && m.1, mode := if ok then m.2 else 0
      fallback := !ok, fallbacks := if ok then x.fallbacks else sat 255 (x.fallbacks + 1)
      init := if initial then .ready else x.init, fault := if initial then false else x.fault })
    let s := whenS (!ok) s (fun s => raiseAll (modN s (fun n => { n with counts := upd n.counts 3 (fun k => sat 255 (k + 1)) })) 33)
    let back := ((upto 4).map (fun k => 4 * c + k)).filter (fun l =>
      (initial && lunPassed s l && (lunOf s l).state == 1) || (lunOf s l).resetDone)
    let s := back.foldl (fun s l =>
      modLun (applyHome s l) l (fun y => { y with state := 2, resetDone := false, wasReady := false })) s
    endAll s ((slotsWhere s (fun f => fOp f == 7 && f.st == 3 && back.elem (fLun f))).map (fun n => (n, 0)))

/-- Partition p's oldest entry in the queue of LUN l that is not dispatched, and whether it is there for the program phase of a COPY (13 R384). -/
def oldestEntry (s : State) (l p : Nat) : Option (Flight × Bool) :=
  match s.core.nfc.flight.find? (fun f => f.issuer.val == p
      && ((f.srcQ && !f.srcRun && fLun f == l) || (f.dstQ && !f.dstRun && fDLun f == l))) with
  | some f => some (f, !(f.srcQ && !f.srcRun && fLun f == l))
  | none => none

/-- Partition p has a dispatchable operation in the queue of LUN l (13 R384). -/
def dispatchable (s : State) (l p : Nat) : Bool :=
  match oldestEntry s l p with
  | some (f, prog) => !(heldNvm s && [2, 3, 4, 15].elem (fOp f)) && (!prog || f.readDone)
  | none => false

/-- The contending partitions of LUN l (04 R112). -/
def contendSet (s : State) (l : Nat) : BitVec 4 := bvOf 4 (dispatchable s l)

/-- The counters return to 0 whenever the contending set changes (04 R112). -/
def contendUpdate (s : State) (l : Nat) : State :=
  let m := contendSet s l
  if m = (lunOf s l).contend then s else modLun s l (fun x => { x with contend := m, cnt := [0, 0, 0, 0] })

/-- The weight of partition p. -/
def lunWeight (s : State) (p : Nat) : Int := (uf s 0x250 (4 * p) 4 : Nat)

/-- The choice of R112: the winner, with the counters updated; none where nobody contends. -/
def chooseLun (s : State) (l : Nat) : Option Nat × State :=
  let s := contendUpdate s l
  let m := contendSet s l
  let ps := bitsOf m 4
  let total := ps.foldl (fun n p => n + lunWeight s p) 0
  let cnt := (lunOf s l).cnt.zipIdx.map (fun e => if bit m e.2 then e.1 + lunWeight s e.2 else e.1)
  match ps with
  | [] => (none, s)
  | p0 :: rest =>
    let win := rest.foldl (fun b p => if nth cnt b 0 < nth cnt p 0 then p else b) p0
    (some win, modLun s l (fun x => { x with cnt := upd cnt win (fun c => c - total) }))

/-- The entries of a RAW script up to END; none where no END comes within 128 entries (13 R378). -/
def rawEntries : Nat → List Byte → Option (List RawEntry)
  | 0, _ => none
  | n + 1, bs =>
    let e : RawEntry := (d8 bs 0, d8 bs 1, d16 bs 2)
    if e.1 = 0 then some [e] else (rawEntries n (bs.drop 4)).map (fun l => e :: l)

/-- The script's entries pass the checks of R379; ptr is the data pointer, size the data area. -/
def rawCheck (size : Nat) : Nat → List RawEntry → Bool
  | _, [] => true
  | ptr, (k, v, n) :: rest =>
    decide (k ≤ 6)
      && (if k = 0 then v == 0 && n == 0 else if k = 1 ∨ k = 2 then n == 0 else v == 0)
      && (if k = 3 ∨ k = 4 then decide (ptr + n ≤ size) && rawCheck size (ptr + n) rest else rawCheck size ptr rest)

/-- The data ranges (pointer, count) of the entries of a kind. -/
def rawRanges (kind : Nat) : Nat → List RawEntry → List (Nat × Nat)
  | _, [] => []
  | ptr, (k, _, n) :: rest =>
    let p' := if k = 3 ∨ k = 4 then ptr + n else ptr
    if k = kind ∧ n ≠ 0 then (ptr, n) :: rawRanges kind p' rest else rawRanges kind p' rest

/-- The granules that byte ranges of the data area reach. -/
def rangeGranules (base : Nat) (rs : List (Nat × Nat)) : List Nat :=
  (rs.foldr (fun r acc => (granulesOf r.1 r.2).map (fun g => base + g) ++ acc) []).eraseDups

/-- The script of a RAW operation. -/
def rawScript (s : State) (d : List Byte) : Option (List RawEntry) :=
  match rawEntries 128 (granuleBytes s (d16 d 14)) with
  | some es => if rawCheck (512 * (d8 d 26 + 1)) 0 es then some es else none
  | none => none

/-- A result that a RAW operation has before its first cycle (13 R379), 0 for none. -/
def rawEarly (s : State) (d : List Byte) : Nat :=
  if bufBad s (512 * d16 d 14) 512 then 5
  else match rawScript s d with
    | none => 14
    | some es =>
      let gs := rangeGranules (d16 d 24) (rawRanges 3 0 es)
      if gs.any (fun g => bufBad s (512 * g) 512) then 5 else if gs.all (guardGood s) then 0 else 4

/-- The commands of a script need the mode sequence afterwards (13 R380). -/
def rawNeedsMode : List RawEntry → Bool
  | [] => false
  | (k, v, _) :: rest =>
    (k == 1 && (v == 0xFF || v == 0xFA || ((v == 0xEF || v == 0xD5) &&
      (match rest.find? (fun e => e.1 == 1 || e.1 == 2) with
       | some (2, a, _) => a == 1 || a == 2
       | _ => false)))) || rawNeedsMode rest

/-- Granules of a PROGRAM or of the program phase of a COPY. -/
def progGranules (f : Flight) : List Nat := (upto (4 * fSlots f)).map (fun i => d16 f.desc 14 + i)

/-- What a dispatch knows of a program before the medium is used (13 R372): 5 BUFFER_ECC, 4 GUARD, 0 to go on. -/
def progEarly (s : State) (f : Flight) : Nat :=
  let gs := progGranules f
  if gs.any (fun g => bufBad s (512 * g) 512) then 5 else if gs.all (guardGood s) then 0 else 4

/-- The page image of a program (13 R372, R374). -/
def progImage (s : State) (f : Flight) : List Byte :=
  let cp := fCopy f
  let l := if cp then fDLun f else fLun f
  let ns := if cp then d8 f.desc 16 else d8 f.desc 4
  let b := substBlock s l (if cp then d16 f.desc 20 else d16 f.desc 8)
  let p := if cp then d16 f.desc 22 else d16 f.desc 10
  pageImage s l ns b p (d8 f.desc 12) ((upto (fSlots f)).map (fun i => bufBytes s (512 * (d16 f.desc 14 + 4 * i)) 2048))

/-- Substitution applies to the source, or to the destination of a COPY. -/
def fSubst (s : State) (f : Flight) : Bool :=
  (decide (fOp f ≤ 5) && substBlock s (fLun f) (d16 f.desc 8) != d16 f.desc 8)
    || (fCopy f && substBlock s (fDLun f) (d16 f.desc 20) != d16 f.desc 20)

/-- The flights that one choice dispatches: a flight, or its whole linked group in plane order (13 R382). -/
def dispatchGroup (s : State) (f : Flight) : List Flight :=
  if f.group = 0 then [f]
  else
    let ms := s.core.nfc.flight.filter (fun x => x.group == f.group)
    (upto 4).foldr (fun pl acc => ms.filter (fun x => planeOf s x.desc == pl) ++ acc) []

/-- The LUN, block and page that a flight's run uses: those of the destination for the program phase of a COPY. -/
def runPage (s : State) (f : Flight) (prog : Bool) : Nat × Nat × Nat :=
  if fCopy f && prog then (fDLun f, substBlock s (fDLun f) (d16 f.desc 20), d16 f.desc 22)
  else (fLun f, substBlock s (fLun f) (d16 f.desc 8), d16 f.desc 10)

/-- The row addresses of the members of a run that are not ended before the medium is used. -/
def runRows (s : State) (r : RunSt) : List Nat :=
  (r.members.filterMap (flightOf s)).filterMap (fun f =>
    if f.early ≠ 0 then none else let q := runPage s f r.prog; some (rowAddress s q.1 q.2.1 q.2.2))

/-- The bus cycles of a RAW entry at a data pointer; area: the data area (13 Table 13-6). -/
def rawCycle (area : List Byte) (ptr : Nat) (e : RawEntry) : List NandCycle :=
  match e.1 with
  | 1 => [.cmd (BitVec.ofNat 8 e.2.1)]
  | 2 => [.addr (BitVec.ofNat 8 e.2.1)]
  | 3 => [.dout ((area.drop ptr).take e.2.2)]
  | 4 => [.din e.2.2]
  | 5 => [.wait e.2.2]
  | 6 => [.delay e.2.2]
  | _ => []

/-- The entry moves data over the bus. -/
def rawMoves (e : RawEntry) : Bool := (e.1 == 3 || e.1 == 4) && e.2.2 != 0

/-- The data pointer after the first n entries of a script. -/
def rawPtr (es : List RawEntry) (n : Nat) : Nat := (es.take n).foldl (fun p e => if e.1 = 3 ∨ e.1 = 4 then p + e.2.2 else p) 0

/-- How many entries of a script follow at once, and where it then stands: a WAIT that has begun, a transfer that wants the bus,
or the end. -/
def rawGo : List RawEntry → Nat × Stage
  | [] => (0, .last)
  | e :: rest =>
    if e.1 = 0 then (1, .last)
    else if rawMoves e then (0, .waitIn)
    else if e.1 = 5 then (1, .array)
    else let q := rawGo rest
      (q.1 + 1, q.2)

/-- Entries [from, from + n) of the script of a run, as cycles. -/
def rawCycles (r : RunSt) (start n : Nat) : List NandCycle :=
  ((upto n).map (fun i => match r.script[start + i]? with
    | some e => rawCycle (nth r.image 0 []) (rawPtr r.script (start + i)) e
    | none => [])).flatten

/-- The script of a RAW run goes on: what follows at once is sent (13 R378). -/
def rawAdvance (s : State) (l : Nat) (r : RunSt) : RunSt × State :=
  let q := rawGo (r.script.drop r.sent)
  ({ r with sent := r.sent + q.1, stage := q.2 }, sendLun s l (rawCycles r r.sent q.1))

/-- A run that a LUN holds as its running one starts on the medium (12 R335, R358): the cycles that go out before any transfer
of data. -/
def runStart (s : State) (l : Nat) (r : RunSt) : State :=
  match r.members.filterMap (flightOf s) with
  | [] => s
  | f :: _ =>
    if r.op = 5 then
      let e := fld (nsCfg s l (d8 f.desc 4)) 19 5
      let s := if e = 0 then s else applyEntry s l e
      sendLun s l (readCycles s l (runRows s r))
    else if r.op = 6 then sendLun s l (statusCycles s l)
    else if r.op = 15 then
      if f.early ≠ 0 then s
      else
        let q := rawAdvance s l r
        modLun q.2 l (fun x => { x with cur := some q.1 })
    else if r.op = 3 then sendLun s l (eraseCycles s l (runRows s r))
    else if r.op = 2 ∨ r.prog then s
    else sendLun s l (readCycles s l (runRows s r))

/-- The operation on the medium that a dispatch gives, and the state with its flights DISPATCHED (13 R383). -/
def dispatchRun (s : State) (l : Nat) (f : Flight) (prog : Bool) : RunSt × State :=
  let ms := dispatchGroup s f
  let op := fOp f
  let programs := op == 2 || (op == 4 && prog)
  let s := ms.foldl (fun s m =>
    let early := if programs then progEarly s m else if op = 15 then rawEarly s m.desc else 0
    let read := if programs then progGranules m else if op = 15 then d16 m.desc 14 :: (match rawScript s m.desc with
      | some es => rangeGranules (d16 m.desc 24) (rawRanges 3 0 es)
      | none => []) else []
    let unw := read.any (fun g => !bit s.core.buf.written g)
    let s := read.foldl (fun s g => bufTouch s (512 * g) 512) s
    modFl s m.num (fun x => { x with
      st := 3, srcRun := x.srcRun || !prog, dstRun := x.dstRun || prog
      early := early, unwritten := x.unwritten || unw
      reduced := x.reduced || reduced s, subst := fSubst s m
      course := if prog then x.course else (lunOf s l).running })) s
  let es := ms.map (fun m => match flightOf s m.num with
    | some x => x.early
    | none => 0)
  let allEarly := es.all (fun e => e != 0)
  let stage : Stage := if allEarly || op == 6 then .last else if programs then .waitIn else .array
  ({ members := ms.map (fun m => m.num), op := op, prog := prog, stage := stage
     steps := List.replicate ms.length 0, reads := List.replicate ms.length []
     script := if op = 15 ∧ allEarly = false then (rawScript s f.desc).getD [] else []
     image := if programs then ((ms.zip es).filter (fun e => e.2 == 0)).map (fun e => progImage s e.1)
       else if op = 15 ∧ allEarly = false then [bufBytes s (512 * d16 f.desc 24) (512 * (d8 f.desc 26 + 1))] else [] }, s)

/-- One choice of a LUN: the run it gives. -/
def chooseRun (s : State) (l : Nat) : Option RunSt × State :=
  match chooseLun s l with
  | (none, s) => (none, s)
  | (some p, s') =>
    match oldestEntry s' l p with
    | none => (none, s')
    | some (f, prog) =>
      let r := dispatchRun s' l f prog
      (some r.1, contendUpdate r.2 l)

/-- The LUN may start an operation now. -/
def lunCanStart (s : State) (l : Nat) : Bool :=
  let x := lunOf s l
  x.state == 2 && x.cur.isNone && x.nxt.isNone && !x.resetting && !(chanOf s (l / 4)).modeDue

/-- Every idle LUN makes its choice (13 R384). -/
def dispatchAll (s : State) : State :=
  (upto 16).foldl (fun s l =>
    if lunCanStart s l then
      let r := chooseRun s l
      match r.1 with
      | some run => runStart (modLun r.2 l (fun x => { x with cur := some run })) l run
      | none => r.2
    else contendUpdate s l) s

/-- The limit MAXp of a LUN queue (04 R111). -/
def lunMax (s : State) (p : Nat) : Nat := uf s 0x251 (8 * p) 7

/-- The LUN queues have room for these members, and no admission hold stands (13 Table 13-2). -/
def admitOk (s : State) (ms : List Flight) : Bool :=
  ms.all (fun f => !(lunOf s (fLun f)).held && (!fCopy f || !(lunOf s (fDLun f)).held))
    && (match ms with
      | f :: _ =>
        let p := f.issuer.val
        decide (entriesOf s (fLun f) p + ms.length ≤ lunMax s p)
          && (!fCopy f || decide (entriesOf s (fDLun f) p + 1 ≤ lunMax s p))
      | [] => false)

/-- Waiting operations enter the LUN queues in submission order (13 R367, R385, R393). -/
def admitAll (s : State) : State :=
  (s.core.nfc.flight.foldl (fun (acc : State × List (Nat × Nat)) f0 =>
    let s := acc.1
    let stuck := acc.2
    match flightOf s f0.num with
    | none => acc
    | some f =>
      if f.st ≠ 1 then acc
      else
        let p := f.issuer.val
        let keys := (p, fLun f) :: (if fCopy f then [(p, fDLun f)] else [])
        let ms := if f.group = 0 then [f] else s.core.nfc.flight.filter (fun x => x.group == f.group)
        let onHold := (lunOf s (fLun f)).held || (fCopy f && (lunOf s (fDLun f)).held)
        let s := if onHold then modFl s f.num (fun x => { x with held := true }) else s
        if f.opened || keys.any (fun k => stuck.elem k) || !admitOk s ms then (s, keys ++ stuck)
        else
          let bad := ms.filter (fun x => x.held && !descRange s x.desc)
          if bad.isEmpty then
            (ms.foldl (fun s m => modFl s m.num (fun x => { x with st := 2, srcQ := true, dstQ := fCopy x, held := false })) s, stuck)
          else (endAll s (ms.map (fun m => (m.num, if bad.any (fun b => b.num == m.num) then 13 else 12))), stuck)) (s, [])).1

/-- The run waits for the bus. -/
def ready : Option RunSt → Bool
  | some r => r.stage == .waitIn || r.stage == .waitOut
  | none => false

/-- The LUN index wants the bus: a transfer of the running operation, or of the second of a cache sequence. -/
def wantsBus (x : NfcLun) : Bool :=
  ready x.cur || (match x.nxt with
    | some r => r.cached && ready x.nxt
    | none => false)

/-- The transfer of a run begins. -/
def xferStart (r : RunSt) : RunSt :=
  match r.stage with
  | .waitIn => { r with stage := .xferIn }
  | .waitOut => { r with stage := .xferOut }
  | _ => r

/-- The cycles of a transfer that begins: page images out; pages, or the failing slots of a re-read, in with their marker (12
R345, R352, Table 12-2); a RAW script's own transfer. -/
def xferSend (s : State) (l : Nat) (r : RunSt) : State :=
  if r.op = 15 then sendLun s l (rawCycles r r.sent 1)
  else if r.stage = .waitIn then sendLun s l (programCycles s l ((runRows s r).zip r.image))
  else
    (r.members.zipIdx.filterMap (fun e => (flightOf s e.1).map (fun f => (f, e.2)))).foldl (fun s e =>
      let f := e.1
      let cfg := nsCfg s l (d8 f.desc 4)
      let size := 2056 + parityLen (fld cfg 9 2)
      let row := rowAddress s l (substBlock s l (d16 f.desc 8)) (d16 f.desc 10)
      match r.again with
      | some (m, mask) =>
        if m = e.2 then
          sendLun s l (((bitsOf mask 8).map (fun i => columnCycles s l (i * size) row size)).flatten)
        else s
      | none => sendLun s l (columnCycles s l (d8 f.desc 12 * size) row (fSlots f * size)
          ++ columnCycles s l (pageSlots s l * size) row 16)) s

/-- A free bus serves the next LUN with a transfer ready (13 R388). -/
def grantBus (s : State) (c : Nat) : State :=
  let x := chanOf s c
  if x.bus.isSome then s
  else match ((upto 4).map (fun i => (x.served + 1 + i) % 4)).find? (fun k => wantsBus (lunOf s (4 * c + k))) with
    | none => s
    | some k =>
      let s := modChan s c (fun x => { x with bus := some k, served := k })
      let y := lunOf s (4 * c + k)
      let s := match (if ready y.cur then y.cur else y.nxt) with
        | some r => xferSend s (4 * c + k) r
        | none => s
      modLun s (4 * c + k) (fun y =>
        match y.cur with
        | some r => if r.stage = .waitIn ∨ r.stage = .waitOut then { y with cur := some (xferStart r) }
          else { y with nxt := y.nxt.map xferStart }
        | none => { y with nxt := y.nxt.map xferStart })

/-- What NFC does at the end of every instant that may unblock work: admission, choices, transfers. -/
def nfcService (s : State) : State :=
  let s := admitAll s
  let s := dispatchAll s
  let s := admitAll s
  let s := (upto 16).foldl contendUpdate s
  (upto 4).foldl grantBus s

/-- The run is a single operation of code op, on the page after that of run r in the same block. -/
def isNextPage (s : State) (r r2 : RunSt) : Bool :=
  match r.members, r2.members with
  | [a], [b] =>
    match flightOf s a, flightOf s b with
    | some fa, some fb =>
      r2.op == r.op && substBlock s (fLun fa) (d16 fa.desc 8) == substBlock s (fLun fb) (d16 fb.desc 8)
        && d16 fb.desc 10 == d16 fa.desc 10 + 1
    | _, _ => false
  | _, _ => false

/-- The choice that comes forward while run r goes on (13 R386, R387): a cache successor follows, any other waits for the release
point. second: r is itself the second of a sequence. A sequence that READ CACHE END has ended takes no successor. None is made
while a mode change is due (12 R341, 13 R380). -/
def earlyChoice (s : State) (l : Nat) (second : Bool) (r : RunSt) : State :=
  let x := lunOf s l
  if (chanOf s (l / 4)).modeDue || (if second then x.nn.isSome else x.nxt.isSome) then s
  else
    let c := chooseRun s l
    match c.1 with
    | none => c.2
    | some r2 =>
      let s := c.2
      let seq := isNextPage s r r2 && r2.stage != .last && !r.seqEnd
      let s := if seq then (r.members ++ r2.members).foldl (fun s n => modFl s n (fun f => { f with cache := true })) s else s
      let s := if seq && r.op == 1 && !second then sendLun s l [.cmd 0x31] else s
      let r2 := { r2 with cached := seq }
      if second then modLun s l (fun x => { x with nn := some r2 }) else modLun s l (fun x => { x with nxt := some r2 })

/-- The run reads pages under the ladder. -/
def ladderReads (r : RunSt) : Bool := r.op == 1 || (r.op == 4 && !r.prog)

/-- The ladder entry of a re-read of member m at its step (12 R352), none where the ladder has none there: each soft entry that
the present step names in turn, then the next step. -/
def rereadEntry (s : State) (l : Nat) (r : RunSt) (m : Nat) (kind : RereadKind) : Option Nat :=
  match (r.members[m]?).bind (flightOf s) with
  | none => none
  | some f =>
    let k := nth r.steps m 0
    let e := softEntries s l k
    let soft := bit (nsCfg s l (d8 f.desc 4)) 12 && decide (1 ≤ k)
    let done := fun (q : RereadKind) => ((nth r.reads m []).reverse.takeWhile (fun x => x.1 != .step)).any (fun x => x.1 == q)
    let lo := soft && e.1 != 0 && !done .softLo
    let hi := soft && e.2 != 0 && !done .softHi
    match kind with
    | .step => if k < ladderLen s l (d8 f.desc 4) ∧ lo = false ∧ hi = false then some (k + 1) else none
    | .softLo => if lo then some e.1 else none
    | .softHi => if hi ∧ lo = false then some e.2 else none

/-- Run r can re-read: it waits for its decodes, a ladder stands ahead, and a cache sequence behind it has moved its second page
first (13 R386). -/
def canReread (s : State) (l : Nat) (r : RunSt) : Bool :=
  ladderReads r && r.stage == .last
    && (match (lunOf s l).nxt with
      | some n => !n.cached || n.stage == .last
      | none => true)
    && (upto r.members.length).any (fun m => [RereadKind.step, .softLo, .softHi].any (fun k => (rereadEntry s l r m k).isSome))

/-- A re-read ends (12 R352): the entry has been applied and the page read again, and the slots that still fail are to be
transferred. -/
def rereadOp (s : State) (l : Nat) (r : RunSt) (q : Reread) : State :=
  match (r.members[q.member]?).bind (flightOf s), rereadEntry s l r q.member q.kind with
  | some f, some e =>
    if canReread s l r && q.slots != 0 then
      let s := applyEntry s l e
      let s := sendLun s l (readCycles s l [rowAddress s l (substBlock s l (d16 f.desc 8)) (d16 f.desc 10)])
      modLun s l (fun x => { x with cur := some { r with
        stage := .waitOut, again := some (q.member, q.slots)
        steps := if q.kind = .step then upd r.steps q.member (fun k => k + 1) else r.steps
        reads := upd r.reads q.member (fun l => l ++ [(q.kind, q.slots)]) } })
    else s
  | _, _ => s

/-- A LUN becomes ready (12 R342): the end of a reset, of an array read, of a re-read, of a program, of an erase, or of a WAIT
of a RAW script. -/
def busyEndOp (s : State) (l : Nat) (re : Option Reread) : State :=
  let x := lunOf s l
  if x.resetting then
    let s := modLun s l (fun x => { x with resetting := false, resetDone := true })
    modChan s (l / 4) (fun c => { c with modeDue := true })
  else
    let ended : RunSt → RunSt := fun r => { r with stage := if r.op = 2 ∨ r.op = 3 ∨ r.prog then Stage.last else Stage.waitOut }
    match x.cur with
    | none => s
    | some r =>
      match re with
      | some q => rereadOp s l r q
      | none =>
        if r.stage = .array ∧ r.op = 15 then
          let q := rawAdvance s l r
          modLun q.2 l (fun x => { x with cur := some q.1 })
        else if r.stage = .array then
          let s := modLun s l (fun x => { x with cur := some (ended r) })
          if r.op = 1 ∧ bit (used s 0x1850) 0 = true then earlyChoice s l false r else s
        else match x.nxt with
          | some n =>
            if n.cached ∧ n.stage = .array then
              let s := modLun s l (fun x => { x with nxt := some (ended n) })
              if n.op = 1 ∧ bit (used s 0x1850) 0 = true then earlyChoice s l true n else s
            else s
          | none => s

/-- A transfer of the run has ended. -/
def xferDone (r : RunSt) : RunSt :=
  if r.op = 15 then { r with sent := r.sent + 1, stage := .array }
  else { r with stage := if r.stage = .xferIn then Stage.array else Stage.last, again := none }

/-- The confirmation of a PROGRAM whose data have gone out: cache program where its successor follows (13 R387). -/
def confirmCycles (r : RunSt) (follower : Option RunSt) : List NandCycle :=
  if r.stage = .xferIn ∧ r.op ≠ 15 then
    (match follower with
     | some n => if n.cached then [.cmd 0x15] else [.cmd 0x10]
     | none => [.cmd 0x10])
  else []

/-- A page of a cache read has been transferred (13 R386). Where the page after its successor has been chosen too, the sequence
goes on with it; else READ CACHE END makes the successor the last. second: the page is itself the second. -/
def cacheGoesOn (s : State) (l : Nat) (second : Bool) (r : RunSt) : State :=
  let x := lunOf s l
  let last := fun (o : Option RunSt) => o.map (fun n => { n with seqEnd := true })
  let follows : Option RunSt → Bool := fun o => match o with
    | some n => n.cached && n.op == 1
    | none => false
  if r.stage ≠ .xferOut ∨ r.again ≠ none ∨ follows (if second then x.nn else x.nxt) = false then s
  else if !second && follows x.nn then sendLun s l [.cmd 0x31]
  else modLun (sendLun s l [.cmd 0x3F]) l (fun x => if second then { x with nn := last x.nn } else { x with nxt := last x.nxt })

/-- A data transfer on the bus of channel c ends (13 R387, R388). -/
def busEndOp (s : State) (c : Nat) : State :=
  match (chanOf s c).bus with
  | none => s
  | some k =>
    let l := 4 * c + k
    let s := modChan s c (fun x => { x with bus := none })
    let moving : Option RunSt → Bool := fun o => match o with
      | some r => r.stage == .xferIn || r.stage == .xferOut
      | none => false
    let prog : RunSt → Bool := fun r => decide (r.stage = .xferIn ∧ r.op = 2) && bit (used s 0x1850) 1
    let x := lunOf s l
    if moving x.cur then
      let s := modLun s l (fun x => { x with cur := x.cur.map xferDone })
      match x.cur with
      | some r =>
        if r.op = 15 then
          let q := rawAdvance s l (xferDone r)
          modLun q.2 l (fun x => { x with cur := some q.1 })
        else
          let s := if prog r then earlyChoice s l false r else s
          let s := sendLun s l (confirmCycles r (lunOf s l).nxt)
          cacheGoesOn s l false r
      | none => s
    else if moving x.nxt then
      let s := modLun s l (fun x => { x with nxt := x.nxt.map xferDone })
      match x.nxt with
      | some r =>
        let s := if prog r then earlyChoice s l true r else s
        cacheGoesOn (sendLun s l (confirmCycles r (lunOf s l).nn)) l true r
      | none => s
    else s

/-- Deliver the data of a READ into its granules (13 R371). An operation of a partition in reset runs to its end too (13 Table
13-10). -/
def readDeliver (s : State) (f : Flight) (r : PageRes) : State :=
  r.slots.zipIdx.foldl (fun s e =>
    (upto 4).foldl (fun s j =>
      granuleFill s (d16 f.desc 14 + 4 * e.2 + j) ((e.1.data.drop (512 * j)).take 512) e.1.decoded) s) s

/-- A granule that a DIN reached gets its written bit and a guard over its bytes as they stand (13 R379). -/
def granuleSeal (s : State) (g : Nat) : State :=
  let s := bufTouch s (512 * g) 512
  modC s (fun c => { c with buf := { c.buf with
    written := setBit c.buf.written g true
    guardOk := setBit c.buf.guardOk g true
    guards := sset (fun _ => 0) c.buf.guards g (BitVec.ofNat 32 (crc32c (granuleBytes s g))) } })

/-- The page read that a flight's release finds. m: its place in the group. -/
def flightRead (s : State) (f : Flight) (m : Nat) (margin : Option Nat) (obs : NandObs) : PageRes :=
  let l := fLun f
  pageRead s l (d8 f.desc 4) (substBlock s l (d16 f.desc 8)) (d16 f.desc 10) (d8 f.desc 12) (fSlots f) margin
    (nth obs.marker m []) (nth obs.hard m []) (nth obs.soft m [])

/-- INFO: the slots that did not decode. -/
def slotInfo (first : Nat) (rs : List SlotRes) : Nat :=
  rs.zipIdx.foldl (fun n e => if e.1.decoded then n else n + 2 ^ (first + e.2)) 0

/-- One member reaches its release point: the flight with its results, its outcome, none where a COPY goes on to its
program phase (13 R371-R379). -/
def releaseOne (s : State) (l : Nat) (r : RunSt) (m num : Nat) (obs : NandObs) : State × Option Nat :=
  match flightOf s num with
  | none => (s, none)
  | some f =>
    if f.early ≠ 0 then (s, some f.early)
    else if r.op = 1 ∨ (r.op = 4 ∧ r.prog = false) then
      let q := flightRead s f m none obs
      let ew := fld (nsCfg s l (d8 f.desc 4)) 0 9
      let warn := q.status == 0 && (decide (ew ≤ q.corr) || q.step != 0 || q.soft)
      let s := readDeliver s f q
      let s := modFl s num (fun f => { f with
        warn := warn, soft := q.soft, step := q.step, corr := q.corr, info := slotInfo (d8 f.desc 12) q.slots })
      let s := whenS (warn && !f.silent) s (fun s => raise s f.issuer.val 32)
      let s := whenS warn s (fun s => modN s (fun n => { n with nsWarn := upd n.nsWarn (d8 f.desc 4) (fun k => sat 255 (k + 1)) }))
      let s := whenS q.soft s (fun s => modLun s l (fun x => { x with
        softIn := (upto (fSlots f)).map (fun i => softBits s l q.step (nth (nth obs.hard m []) i []) (nth (nth obs.soft m []) i [])) }))
      if r.op = 4 ∧ q.status = 0 then (modFl s num (fun f => { f with readDone := true, srcQ := false }), none)
      else (s, some q.status)
    else if r.op = 5 then
      let cfg := nsCfg s l (d8 f.desc 4)
      let q := flightRead s f m (some (fld cfg 19 5)) obs
      (modFl s num (fun f => { f with
        step := q.step, corr := q.corr, info := slotInfo (d8 f.desc 12) q.slots
        pass := q.status == 0 && decide (q.corr < fld cfg 0 9) }), some q.status)
    else if r.op = 6 then (modFl s num (fun f => { f with info := obs.status.toNat }), some 0)
    else if r.op = 15 then
      let es := r.script.take (obs.timeoutAt.getD 129)
      let base := d16 f.desc 24
      let din := rawRanges 4 0 es
      let res := din.foldl (fun (acc : State × List Byte) q =>
        (bufStore acc.1 (512 * base + q.1) ((acc.2 ++ List.replicate q.2 0).take q.2), acc.2.drop q.2)) (s, obs.din)
      let s := (rangeGranules base din).foldl granuleSeal res.1
      let s := modFl s num (fun f => { f with corr := din.foldl (fun n q => n + q.2) 0 % 65536 })
      let s := whenS (rawNeedsMode es) s (fun s => modChan s (l / 4) (fun c => { c with modeDue := true }))
      (s, some (if obs.timeoutAt.isSome then 11 else 0))
    else
      let failed := nth obs.fail m false
      (s, some (if failed then (if r.op = 3 then 7 else 6) else 0))

/-- What the run has done on the medium is what its result needs (12 R352, 13 R378): the re-reads of its ladder are those of the
result, with the slots that failed; a script stands at its end, or in the WAIT that runs out. -/
def releaseReady (s : State) (r : RunSt) (obs : NandObs) : Bool :=
  match (if r.op = 15 then obs.timeoutAt else none) with
  | some k => r.stage == .array && r.sent == k + 1
  | none => r.stage == .last && (!ladderReads r || r.members.zipIdx.all (fun e =>
    match flightOf s e.1 with
    | some f => decide (f.early ≠ 0) || (flightRead s f e.2 none obs).reads == nth r.reads e.2 []
    | none => true))

/-- The LUN after its running operation, or the second of a cache sequence, has reached its release point: what was chosen next
moves up, and starts where it has not. Where the second goes first, its own successor is in no sequence (13 R389). -/
def lunNext (s : State) (l : Nat) (second : Bool) : State :=
  if second then
    let s := match (lunOf s l).nn with
      | some r => r.members.foldl (fun s n => modFl s n (fun f => { f with cache := false })) s
      | none => s
    modLun s l (fun x => { x with nxt := x.nn.map (fun r => { r with cached := false, seqEnd := false }), nn := none })
  else
    let s := modLun s l (fun x => { x with cur := x.nxt, nxt := x.nn, nn := none })
    match (lunOf s l).cur with
    | some r => if r.cached then s else runStart s l r
    | none => s

/-- An operation reaches its release point (13 Table 13-7): records are posted, the home entry is applied again after a margin
verify and after a read that applied another (12 R354), and the LUN goes on. -/
def releaseOp (s : State) (l : Nat) (obs : NandObs) : State :=
  let x := lunOf s l
  let pick := if obs.second then x.nxt.filter (fun r => r.cached) else x.cur
  match pick with
  | none => s
  | some r =>
    if !releaseReady s r obs then s
    else
      let res := r.members.zipIdx.foldl (fun (acc : State × List (Nat × Nat)) e =>
        let q := releaseOne acc.1 l r e.2 e.1 obs
        (q.1, match q.2 with
          | some st => acc.2 ++ [(e.1, st)]
          | none => acc.2)) (s, [])
      let s := if r.op = 5 ∨ r.reads.any (fun l => !l.isEmpty) = true then applyEntry res.1 l 0 else res.1
      endAll (lunNext s l obs.second) res.2

/-- A LUN stays busy beyond its timeout (12 R342, R343), in an array operation or in a re-read of the ladder. NFC_TIMEOUT has no
field for RAW, whose WAITs bound their own time (13 Table 13-6). -/
def timeoutOp (s : State) (l : Nat) : State :=
  let x := lunOf s l
  let inArray : Option RunSt → Bool := fun o => match o with
    | some r => r.op != 15 && (r.stage == .array || canReread s l r)
    | none => false
  let count := fun (s : State) =>
    let s := modN s (fun n => { n with counts := upd n.counts 2 (fun k => sat 255 (k + 1)) })
    modChan s (l / 4) (fun c => { c with timeouts := sat 255 (c.timeouts + 1) })
  if x.resetting then channelFaultOp s (l / 4) (some l)
  else
    let ms := if inArray x.cur then (x.cur.map (fun r => r.members)).getD []
      else if inArray (x.nxt.filter (fun r => r.stage == .array)) then (match x.nxt with
        | some r => if r.cached then r.members else []
        | none => []) else []
    if ms.isEmpty then s
    else
      let s := lunResetOp (count s) l ms
      endAll s (ms.map (fun n => (n, 11)))

/-- Judge a submission: the code of Table 13-3 (13 R368). -/
def submitCode (s : State) (p : Nat) (d : List Byte) : Nat :=
  if !descOk d then 2
  else if !issuerOk s p d then 3
  else if !descRange s d then 4
  else if !(granulesUsed d).all (inQuota s p) then 5
  else if !linkOk s p d then 6
  else if !slotFree s p then 1
  else 0

/-- The outcome of an operation accepted on a LUN that is not READY (13 R369). -/
def absentOutcome (s : State) (l : Nat) : Nat := if (chanOf s (l / 4)).vccq = 0 then 9 else 10

/-- A submission (13 R368, R369, R377, R381). -/
def submitOp (s : State) (p : Nat) (d : List Byte) : State :=
  let code := submitCode s p d
  let s := modWin s p (fun w => { w with result := code, submits := (w.submits + 1) % 256 })
  let g := openGroup s p
  if code = 6 then endAll s (g.map (fun f => (f.num, 12)))
  else if code = 1 then
    let s := modC s (fun c => { c with part := { c.part with slotRefused := upd c.part.slotRefused p (fun n => sat 65535 (n + 1)) } })
    raise s p 15
  else if code ≠ 0 then s
  else
    let num := lowestSlot s
    let l := d8 d 5
    let link := d8 d 1 == 1
    let grp := if g.isEmpty then (if link && lunReady s l then s.core.nfc.nextGroup else 0) else (g.map (fun f => f.group)).headD 0
    let f : Flight := { num := num, issuer := Fin.ofNat 4 p, desc := d, group := grp, opened := decide (grp ≠ 0) }
    let s := modWin s p (fun w => { w with slot := num })
    let s := modN s (fun n => { n with
      flight := n.flight ++ [f], nextGroup := if g.isEmpty && grp != 0 then n.nextGroup + 1 else n.nextGroup })
    let s := if grp ≠ 0 ∧ link = false then
        modN s (fun n => { n with flight := n.flight.map (fun x => if x.group = grp then { x with opened := false } else x) }) else s
    if !lunReady s l then endAll s [(num, absentOutcome s l)]
    else if d8 d 0 = 4 ∧ lunReady s (d8 d 17) = false then endAll s [(num, absentOutcome s (d8 d 17))]
    else if d8 d 0 = 7 then
      lunResetOp (modFl s num (fun f => { f with st := 3, reduced := reduced s, course := (lunOf s l).running })) l [num]
    else s

/-- A write of k to NFC_RING_POP frees the oldest records (13 R390); the end of the instant posts what waits. -/
def ringPopOp (s : State) (p k : Nat) : State := modWin s p (fun w => { w with count := w.count - k })

/-- A reset of partition p starts: its work is discarded, and what is dispatched runs to its end first, both phases of a COPY
(04 Table 4-7, 13 Table 13-10). -/
def nfcPartReset (s : State) (p : Nat) : State :=
  let mine := s.core.nfc.flight.filter (fun f => f.issuer.val == p)
  let gone := (mine.filter (fun f => f.st != 3)).map (fun f => f.num)
  modN s (fun n => { n with
    flight := (n.flight.filter (fun f => !gone.elem f.num)).map (fun f => if f.issuer.val = p then { f with silent := true } else f)
    ended := n.ended.filter (fun x => !gone.elem x) })

/-- Partition p has work on the medium (04 R125). -/
def nfcBusyFor (s : State) (p : Nat) : Bool := s.core.nfc.flight.any (fun f => f.issuer.val == p && f.silent)

/-- The reset of partition p is complete: its ring and windows (13 R390, R394). -/
def nfcPartDone (s : State) (p : Nat) : State :=
  let s := bufStore s (0x084000 + p * 0x1000) (List.replicate 4096 0)
  modWin s p (fun w => { discards := w.discards })

/-- The owner of a namespace changes (04 R107, 13 Table 13-10): the old owner's undispatched work on it is discarded. -/
def nsMoved (s : State) (old n : Nat) : State :=
  discardFlights s (fun f => f.issuer.val == old && decide (f.st ≤ 2) && decide (fOp f ≤ 6)
    && (d8 f.desc 4 == n || (fCopy f && d8 f.desc 16 == n)))

/-- No operation is queued or running on LUN l (03 R86): a reset discards its work, and the LUN is quiet in that very instant (03
Edges). -/
def lunQuiet (s : State) (l : Nat) : Bool :=
  let x := lunOf s l
  x.cur.isNone && x.nxt.isNone
    && !s.core.nfc.flight.any (fun f => (f.srcQ && fLun f == l) || (f.dstQ && fDLun f == l))

/-- A program or erase runs on some channel (12 R364). -/
def nvmRunning (s : State) : Bool :=
  s.core.nfc.luns.any (fun x =>
    let w : Option RunSt → Bool := fun o => match o with
      | some r => r.op == 15 || ((r.op == 2 || r.op == 3 || r.prog) && r.stage != .waitIn)
      | none => false
    w x.cur || (w x.nxt && (match x.nxt with
      | some r => r.cached
      | none => false)))

/-- Work that the warning holds back is waiting (05 R149). -/
def nfcHeld (s : State) : Bool :=
  heldNvm s && s.core.nfc.flight.any (fun f => decide (f.st ≤ 2) && [2, 3, 4, 15].elem (fOp f))

/-- CLEAR of NFC_CNTCLR (12 Table 12-10). -/
def nfcCntclrOp (s : State) : State :=
  modN s (fun n => { n with
    counts := [0, 0, 0, 0]
    chans := n.chans.map (fun c => { c with faults := 0, fallbacks := 0, resets := 0, timeouts := 0 }) })

/-- WARNCLR of NFC_CNTCLR. -/
def nfcWarnclrOp (s : State) : State := modN s (fun n => { n with nsWarn := List.replicate 16 0 })

/-- Conditions of 12 R360 over words read through w (staged images). -/
def nsStageOk (s : State) (w : Nat → Word) : Bool :=
  let en := fun n => bit (w (0x1812 + 3 * n)) 13
  let mask := fun n => w (0x1810 + 3 * n)
  let first := fun n => fld (w (0x1811 + 3 * n)) 0 16
  let last := fun n => fld (w (0x1811 + 3 * n)) 16 16
  (upto 16).all (fun n =>
    let c := w (0x1812 + 3 * n)
    decide (1 ≤ fld c 0 9) && decide (fld c 14 5 ≤ 24) && decide (fld c 19 5 ≤ 24) &&
    (!en n || (fld (mask n) 0 16 != 0 && decide (first n ≤ last n)
      && (upto 16).all (fun l => !bit (mask n) l ||
        ((!lunPassed s l || (decide (last n < blocksOf s l)
          && parityFits (pageSlots s l) (parityLen (fld c 9 2)) (pageBytes s l + spareBytes s l)))
        && (upto 128).all (fun e =>
          let b := w (bbtAddr l e)
          b == 0xFFFFFFFF || decide (fld b 16 16 < first n) || decide (last n < fld b 16 16))))
      && (upto n).all (fun m => !en m || fld (mask m &&& mask n) 0 16 == 0 || decide (last m < first n) || decide (last n < first m)))))

/-- READ STATUS ENHANCED goes to each busy LUN of the channel while two or more are busy (12 R342). What it finds comes with the
commands that end a busy time. A LUN whose read may re-read counts as busy (DEDUCED, notes/assumptions/16.md). -/
def pollOp (s : State) (c : Nat) : State :=
  let busy : Nat → Option RunSt → Bool := fun l o => match o with
    | some r => r.stage == .array || canReread s l r
    | none => false
  let ls := ((upto 4).map (fun k => 4 * c + k)).filter (fun l =>
    let x := lunOf s l
    x.resetting || busy l x.cur || busy l (x.nxt.filter (fun r => r.cached && r.stage == .array)))
  if ls.length < 2 then s else ls.foldl (fun s l => sendLun s l (statusCycles s l)) s

/-- A staged substitution entry of LUN l is acceptable (12 R362). The block count and the planes bind from the LUN's Check on: the
boot course carries entries before it (19 R474; DEDUCED, notes/assumptions/16.md). -/
def bbtOk (s : State) (l e : Nat) (v : Word) (w : Nat → Word) : Bool :=
  let bad := fld v 0 16
  let spare := fld v 16 16
  v == 0xFFFFFFFF ||
    ((!lunPassed s l || (decide (bad < blocksOf s l ∧ spare < blocksOf s l) && bad % planesOf s l == spare % planesOf s l))
      && bad != spare
      && (upto 128).all (fun k =>
        let x := w (bbtAddr l k)
        (k == e || x == 0xFFFFFFFF || (fld x 0 16 != bad && fld x 16 16 != spare))
          && (x == 0xFFFFFFFF || fld x 0 16 != spare))
      && (upto 16).all (fun n => !(bit (w (0x1812 + 3 * n)) 13 && bit (w (0x1810 + 3 * n)) l)
        || decide (spare < fld (w (0x1811 + 3 * n)) 0 16) || decide (fld (w (0x1811 + 3 * n)) 16 16 < spare)))

/-- A staged NFC word of value v is acceptable (12 R360, R362). -/
def nfcWordOk (s : State) (a : Nat) (v : Word) : Bool :=
  let w := fun p => if p = a then v else rd s (stagedOf p)
  if 0x20000 ≤ a then bbtOk s ((a - 0x20000) / 128) ((a - 0x20000) % 128) v w
  else if 0x1810 ≤ a ∧ a < 0x1840 then nsStageOk s w
  else true

end Sys2Proof.Machine
end

