-- ==== Sys2Proof/Machine/SeqOps.lean ====
section
/-! DEFINITION. The rail sequencer: one step of 100 us, requests, take-downs and faults (06). -/

namespace Sys2Proof.Machine

/-- The four configuration words of a rail in force: DEP, TIME, PG, FAULT. -/
def railDep (s : State) (r : Nat) : Word := used s (0xC00 + 8 * r)
/-- SEQ_RAILr_TIME. -/
def railTime (s : State) (r : Nat) : Word := used s (0xC01 + 8 * r)
/-- SEQ_RAILr_PG. -/
def railPg (s : State) (r : Nat) : Word := used s (0xC02 + 8 * r)
/-- SEQ_RAILr_FAULT. -/
def railFault (s : State) (r : Nat) : Word := used s (0xC03 + 8 * r)

/-- SENr is high in the state (06 Table 6-3). -/
def senHigh : RailState → Bool
  | .rising | .on | .drain | .offDelay | .adopt => true
  | _ => false

/-- The rail counts off (06 R166). -/
def countsOff : RailState → Bool
  | .off | .wait | .delay | .minoff | .retryWait | .faulted => true
  | _ => false

/-- The rail is going down (06 R169). -/
def goingDown : RailState → Bool
  | .drain | .offDelay | .discharge => true
  | _ => false

/-- Code of a rail state (06 Table 6-3). -/
def railCode : RailState → Nat
  | .off => 0 | .wait => 1 | .delay => 2 | .rising => 3 | .on => 4 | .drain => 5 | .offDelay => 6 | .discharge => 7
  | .minoff => 8 | .retryWait => 9 | .faulted => 10 | .adopt => 11

/-- Strength of a take-down (06 R175). -/
def downRank : Down → Nat
  | .none => 0 | .keep => 1 | .retry => 2 | .latch => 3 | .group => 4 | .sys => 5

/-- A take-down that latches (06 R480). -/
def latching : Down → Bool
  | .latch | .group => true
  | _ => false

/-- One closure step: rails with a prerequisite in the set join it. -/
def closureStep (s : State) (m : BitVec 10) : BitVec 10 :=
  bvOf 10 (fun x => bit m x || (upto 10).any (fun r => bit m r && bit (railDep s x) r))

/-- The closure of a set of rails (06 R166). -/
def closureOf (s : State) (m : BitVec 10) : BitVec 10 := iter (closureStep s) 10 m

/-- The rails of a group. -/
def groupRails (s : State) (g : Nat) : BitVec 10 := bvOf 10 (fun r => fld (railDep s r) 14 2 == g)

/-- The rail is quarantined: a word that governs it fails parity (06 R481). -/
def railQuar (s : State) (r : Nat) : Bool :=
  let bad := fun a => s.core.parity.elem a
  let mon := fld (railPg s r) 4 3
  let named := decide (fld (railPg s r) 0 2 ≥ 2)
  bad (0xC00 + 8 * r) || bad (0xC01 + 8 * r) || bad (0xC02 + 8 * r) || bad (0xC03 + 8 * r)
    || (named && (bad (0xC60 + 4 * mon) || bad (0xC61 + 4 * mon)))

/-- One monitor takes its sample of a pin voltage (06 R161). -/
def monStep (s : State) (m : Nat) (q : MonSt) (uv : Nat) : MonSt :=
  let cfg := used s (0xC60 + 4 * m)
  let win := used s (0xC61 + 4 * m)
  if bit cfg 0 then
    let code := adcCode uv
    let inside := decide (fld win 0 12 ≤ code ∧ code ≤ fld win 16 12)
    if inside = q.inWin then { code, inWin := q.inWin, run := 0 }
    else if fld cfg 4 4 ≤ q.run + 1 then { code, inWin := inside, run := 0 }
    else { code, inWin := q.inWin, run := q.run + 1 }
  else {}

/-- The good condition from the pin and monitor inputs and SENr (06 Table 6-2). -/
def goodCond (pg : Word) (pin : Bool) (mons : List MonSt) (sen : Bool) : Bool :=
  let mon := (nth mons (fld pg 4 3) {}).inWin
  match fld pg 0 2 with
  | 0 => sen
  | 1 => pin
  | 2 => mon
  | _ => pin && mon

/-- What has moved a rail in a step: nothing yet, a request, or a fault reaction. A rail moves at most once (06 R162). -/
inductive Moved where
  | no | asked | forced
  deriving DecidableEq, Repr

/-- A rail at work in a step: its record, and what has moved it. -/
abbrev RailW := RailSt × Moved

/-- Enter a state. -/
def railTo (st : RailState) (by_ : Moved) (r : RailSt) : RailW := ({ r with st := st }, by_)

/-- What a step knows about one rail's fault: the kind, the reaction code recorded and the take-down to apply. -/
structure RailFaultW where
  rail : Nat
  kind : Nat
  reaction : Nat
  down : Down
  /-- The rail itself is cut at once (R171). -/
  root : Bool

/-- A take-down of the given strength acts on one rail (06 R171, R480). A quarantined rail leaves a state with SENr low
for none of them but DELAY (R481): a latching take-down takes its target away there and records no latch, so that it is no
FAULTED rail after its quarantine (DEDUCED, notes/assumptions/22.md). -/
def downOne (d : Down) (root quar : Bool) (w : RailW) : RailW :=
  let r := w.1
  if downRank d < downRank r.down then w
  else
    let off := latching d || d == .sys
    let r := if off then { r with target := false, latched := false } else r
    let fell := if latching d then RailState.faulted else .off
    match r.st with
    | .off | .faulted => (r, w.2)
    | .wait | .retryWait => if off && !quar then railTo fell .forced { r with retryTo := false } else (r, w.2)
    | .delay => railTo (if off && !quar then fell else .wait) .forced r
    | .minoff => (if off then { r with down := d } else r, w.2)
    | .discharge => (if off then { r with down := d, retryTo := false } else r, w.2)
    | .rising | .adopt | .on | .drain =>
      if root then railTo .discharge .forced { r with down := d, retryTo := d == .retry }
      else if r.st = .drain then ({ r with down := d, retryTo := false }, w.2)
      else railTo .drain .forced { r with down := d, retryTo := false }
    | .offDelay => railTo .discharge .forced { r with down := d, retryTo := root && d == .retry }

/-- A take-down of a set of rails; the root rail, if any, is cut at once. -/
def downSet (quar : BitVec 10) (d : Down) (root : Option Nat) (m : BitVec 10) (ws : List RailW) : List RailW :=
  ws.zipIdx.map (fun e => if bit m e.2 then downOne d (root == some e.2) (bit quar e.2) e.1 else e.1)

/-- An ON request for one rail (06 R169, R170, R173). anyDown: some rail was going down in the previous step. A rail that a
latching take-down has reached, in this step too, and that was not FAULTED before takes no request. A quarantined rail takes
the target and keeps its state (R481), and so does one that has moved in this step already (R162): it moves in the next. -/
def onOne (anyDown quar : Bool) (w : RailW) : RailW :=
  let r := w.1
  if r.target || r.latched || latching r.down || r.down == .sys || (w.2 == .forced && r.st == .faulted) then w
  else if countsOff r.st && r.st != .minoff && !anyDown then
    let r := { r with target := true, down := .none, tries := if r.st = .off ∨ r.st = .faulted then 0 else r.tries }
    if quar || r.st == .wait || w.2 != .no then (r, w.2) else railTo .wait .asked r
  else ({ r with latched := true }, w.2)

/-- An OFF request reaches one rail of a closure (06 R168, R170, R481, Edges). old: the rail at the end of the previous
step; a rail that an earlier request of the same step took to WAIT is back where it was. -/
def offOne (quar : Bool) (old : RailSt) (w : RailW) : RailW :=
  let r := { w.1 with target := false, latched := false }
  if !w.1.target && !w.1.latched then w
  else if w.2 = .forced then ({ r with retryTo := false }, w.2)
  else match r.st with
    | .wait =>
      if old.st = .off ∨ old.st = .faulted then ({ r with st := old.st, tries := old.tries }, .no)
      else if quar then (r, w.2) else railTo .off .asked r
    | .delay | .retryWait => if quar then (r, w.2) else railTo .off .asked { r with retryTo := false }
    | .rising | .adopt => railTo .discharge .asked { r with retryTo := false }
    | .on => railTo .drain .asked { r with retryTo := false }
    | .discharge => ({ r with retryTo := false }, w.2)
    | _ => (r, w.2)

/-- The prerequisite bits of a rail that are not satisfied (06 R163). -/
def unmet (dep : Word) (okLocal : BitVec 10) (rpg : BitVec 4) : Nat :=
  (upto 14).foldl (fun acc i =>
    if bit dep i && !(if i < 10 then bit okLocal i else bit rpg (i - 10)) then acc + 2 ^ i else acc) 0

/-- The fault that a rail raises in this step from its state at the end of the previous one (06 Table 6-4, R171-R174).
remoteLost: a remote prerequisite ceased; nowSafe: the gang state has become SAFE. -/
def railFaultOf (s : State) (r : Nat) (x : RailSt) (remoteLost nowSafe : Bool) : List RailFaultW :=
  let pg := railPg s r
  let fw := railFault s r
  let degl := fld pg 8 8
  let pinSrc := fld pg 0 2 == 1 || fld pg 0 2 == 3
  let lossKind := if pinSrc && !x.pinGood then 2 else 3
  let escal : Nat × Down := match fld fw 16 2 with
    | 0 => (4, .latch)
    | 1 => (2, .group)
    | _ => (3, .sys)
  let react : Nat × Down := match fld fw 0 2 with
    | 0 => (0, .none)
    | 1 => if x.tries < fld fw 4 3 then (1, .retry) else escal
    | 2 => (2, .group)
    | _ => (3, .sys)
  let lost := !x.good && decide (degl ≤ x.run) && !x.episode
  let own : List RailFaultW :=
    match x.st with
    | .rising | .adopt =>
      if x.good && decide (degl ≤ x.run) then []
      else if fld pg 16 8 * 100 ≤ x.age + 1 && !x.episode then
        [{ rail := r, kind := 1, reaction := react.1, down := react.2, root := true }] else []
    | .on => if lost then [{ rail := r, kind := lossKind, reaction := react.1, down := react.2, root := true }] else []
    | .drain | .offDelay =>
      if lost && x.down == .none then
        (if react.2 == .latch || react.2 == .retry then [{ rail := r, kind := lossKind, reaction := 0, down := .none, root := true }]
         else [{ rail := r, kind := lossKind, reaction := react.1, down := react.2, root := true }])
      else []
    | _ => []
  let up := x.st == .rising || x.st == .adopt || x.st == .on
  let remote : List RailFaultW :=
    if remoteLost && up && bit (railDep s r) 18 then [{ rail := r, kind := 5, reaction := 5, down := .keep, root := false }] else []
  let safe : List RailFaultW :=
    if nowSafe && !bit (railDep s r) 17 && (up || x.st == .delay) then
      [{ rail := r, kind := 6, reaction := 5, down := .keep, root := false }] else []
  own ++ remote ++ safe

/-- Push a fault record and count it (06 R177). -/
def railRecord (s : State) (rail kind reaction : Nat) : State :=
  let a := mkW [(0, 4, rail), (4, 3, kind), (8, 3, reaction), (16, 16, nth s.core.course.running 4 0)]
  let b := BitVec.ofNat 32 (stamp s)
  let s := modC s (fun c => { c with seq := { c.seq with
    flog := (a, b) :: c.seq.flog.take 3
    rails := upd c.seq.rails rail (fun x => { x with
      lastFault := kind
      nTimeout := if kind = 1 then sat 255 (x.nTimeout + 1) else x.nTimeout
      nPin := if kind = 2 then sat 255 (x.nPin + 1) else x.nPin
      nMon := if kind = 3 then sat 255 (x.nMon + 1) else x.nMon
      episode := x.episode || decide (kind ≤ 3) }) } })
  let s := if rail < 10 then raiseOwner0 s (.rail rail) 16 else raise s 0 16
  capoFault s 17

/-- The natural change of a rail that nothing else has moved in this step (06 Table 6-3, R169, R481). A quarantined rail
takes a latched ON as its target and keeps its state. A rail that an ignored fault has brought to ON in the step of an OFF
request goes to DRAIN in the next (R162, R168). -/
def railNatural (s : State) (r : Nat) (quar gate anyDown dependentsOff : Bool) (un : Nat) (w : RailW) : RailW × List Nat :=
  let x := w.1
  if w.2 ≠ .no then (w, [])
  else
    let go := fun st (x : RailSt) => (railTo st .asked x, ([] : List Nat))
    let pg := railPg s r
    let tm := railTime s r
    let degl := fld pg 8 8
    let age := x.age + 1
    -- LATCHED_ON is honoured: no rail is going down, and the rail's own MINOFF has ended
    let honour := x.latched && !anyDown
    let aim := fun (x : RailSt) => { x with target := true, latched := false, down := .none }
    let up := fun (x : RailSt) => (railTo .wait .asked (aim x), [17])
    let stay := fun (x : RailSt) => if honour then ((aim x, Moved.no), [17]) else (w, [])
    match x.st with
    | .off => if quar then stay { x with tries := 0 } else if x.target then go .wait x else if honour then up { x with tries := 0 } else (w, [])
    | .faulted => if quar then stay { x with tries := 0 } else if x.target then go .wait x else if honour then up { x with tries := 0 } else (w, [])
    | .wait => if quar then stay x
               else if !x.target then (if honour then stay x else go .off x)
               else if un = 0 && gate then go .delay x else (w, [])
    | .delay => if quar then go .wait x
                else if !x.target then go .off x
                else if un ≠ 0 || !gate then go .wait x
                else if nmax 1 (fld tm 0 10 * 10) ≤ age then go .rising x else (w, [])
    | .rising | .adopt => if !quar && x.good && decide (degl ≤ x.run) then go .on x else (w, [])
    | .on => if x.target then (w, []) else go .drain { x with retryTo := false }
    | .drain => if dependentsOff then go (if x.down == .none then .offDelay else .discharge) x else (w, [])
    | .offDelay => if (if quar then 1 else nmax 1 (fld tm 12 10 * 10)) ≤ age then go .discharge x else (w, [])
    | .discharge =>
      let off := if quar then true else !x.good && decide (degl ≤ x.run)
      let stray := !quar && x.good && decide (fld pg 16 8 * 100 ≤ age)
      if off || stray then
        (railTo (if x.retryTo then .retryWait else .minoff) .asked { x with down := if x.retryTo then .none else x.down },
         if stray && !off then [4] else [])
      else (w, [])
    | .minoff =>
      if (if quar then 1000 else nmax 1 (fld tm 24 8 * 100)) ≤ age then
        (if x.target then go .wait { x with down := .none }
         else if latching x.down then go .faulted { x with down := .none }
         else if honour then up x
         else go .off { x with down := .none })
      else (w, [])
    | .retryWait =>
      if !quar && decide (nmax (fld (railFault s r) 8 8) (fld tm 24 8) * 100 ≤ age) then
        go .wait { x with retryTo := false, down := .none }
      else (w, [])

/-- End of a step for one rail: age, good condition, runs, episode and tries (06 R160, R173, R174). The 10 s of R173 run from
the step in which the rail is ON and the condition is true. The condition is
followed while the rail is quarantined too; only its judgement waits (R481; DEDUCED, notes/assumptions/22.md). -/
def railEnd (first : Bool) (old x : RailSt) (pg : Word) (pin : Bool) (mons : List MonSt) (un : Nat) : RailSt :=
  let sen := senHigh x.st
  let g := goodCond pg pin mons sen
  let run := if g = x.good then x.run + 1 else 1
  let x := { x with good := g, run := run }
  let onGood := if old.st == .on && x.st == .on && old.good && x.good then x.onGood + 1 else 0
  { x with
    age := if x.st = old.st ∧ first = false then old.age + 1 else 0
    pinGood := pin
    onGood := onGood
    tries := if decide (100000 ≤ onGood) then 0 else x.tries
    episode := x.episode && sen && !(x.good && decide (fld pg 8 8 ≤ x.run))
    blocking := if x.st == .wait then un else 0 }

/-- The remote prerequisite bits satisfied now (06 R163): member PRESENT, link enabled, power-good. -/
def rpgNow (s : State) : BitVec 4 :=
  bvOf 4 (fun m => bit (used s 0x2400) 0 && (nth s.core.gng.mems m {}).status == 1 && (nth s.core.gng.mems m {}).rpg)

/-- Apply one fault's reaction to the rails at work; the strongest is applied first by the caller (06 R172, R175). A rail that a
stronger take-down of another rail has reached in this step stays on its path through DRAIN, though it raises a fault of its own
with a weaker reaction, which R171 and R175 leave open (DEDUCED, notes/assumptions/22.md). -/
def railReact (s : State) (ws : List RailW) (f : RailFaultW) : List RailW :=
  let root := if f.root then some f.rail else none
  let downSet := downSet s.core.seq.quar
  match f.down with
  | .none => ws
  | .keep => downSet .keep none (closureOf s (setBit 0 f.rail true)) ws
  | .retry =>
    let x := (nth ws f.rail ({}, .no)).1
    if downRank .retry < downRank x.down then ws
    else
      let ws := downSet .retry root (closureOf s (setBit 0 f.rail true)) ws
      upd ws f.rail (fun w => ({ w.1 with tries := w.1.tries + 1, nRetry := sat 255 (w.1.nRetry + 1) }, w.2))
  | .latch => downSet .latch root (closureOf s (setBit 0 f.rail true)) ws
  | .group => downSet .group root (closureOf s (groupRails s (fld (railDep s f.rail) 14 2))) ws
  | .sys => downSet .sys root (BitVec.allOnes 10) ws

/-- The requests of one frame: ON, then the closures of OFF (06 R167-R170). R167 says only of a rail's own two bits that OFF
acts: an ON of another rail in the closure of an OFF of the frame is lost too (DEDUCED, notes/assumptions/22.md). -/
def railRequest (s : State) (anyDown : Bool) (old : List RailSt) (ws : List RailW) (q : BitVec 10 × BitVec 10) : List RailW :=
  let on := q.1 &&& ~~~q.2
  let off := closureOf s q.2
  let quar := bit s.core.seq.quar
  let ws := ws.zipIdx.map (fun e => if bit on e.2 then onOne anyDown (quar e.2) e.1 else e.1)
  ws.zipIdx.map (fun e => if bit off e.2 then offOne (quar e.2) (nth old e.2 {}) e.1 else e.1)

/-- One sequencer step: inputs, at most one state per rail, outputs (06 R162-R181). -/
def seqStep (s : State) (spg : BitVec 10) (smon : List Nat) : State :=
  let q := s.core.seq
  let mons := q.mons.zipIdx.map (fun e => monStep s e.2 e.1 (nth smon e.2 0))
  let pin := fun r => bit spg r != bit (railPg s r) 2
  let quarM := bvOf 10 (railQuar s)
  let rpg := rpgNow s
  let gang := s.core.gng.state
  let nowSafe := gang == 4 && q.gangPrev != 4
  let old := q.rails
  let okLocal := bvOf 10 (fun r =>
    let x := nth old r {}
    x.st == .on && (bit quarM r || goodCond (railPg s r) (pin r) mons true))
  let anyDown := old.any (fun x => goingDown x.st)
  -- faults of every rail, from the values through the previous step
  let faults := (upto 10).foldl (fun acc r =>
    if bit quarM r then acc
    else
      let dep := railDep s r
      let lostR := (upto 4).any (fun k => bit dep (10 + k) && bit q.rpgIn k && !bit rpg k)
      acc ++ railFaultOf s r (nth old r {}) lostR nowSafe) []
  let s := modC s (fun c => { c with seq := { c.seq with mons := mons, quar := quarM, rpgIn := rpg, gangPrev := gang } })
  let s := faults.foldl (fun s f => railRecord s f.rail f.kind f.reaction) s
  -- watchdog actions
  let s := q.acts.foldl (fun s a =>
    if a.1 = 1 then railRecord s (lowest (groupRails s a.2) 15) 7 2 else s) s
  let ws : List RailW := s.core.seq.rails.zipIdx.map (fun e =>
    let x := e.1
    -- an ignored power-up fault goes to ON (Table 6-5)
    if faults.any (fun f => f.rail == e.2 && f.kind == 1 && f.down == .none) then railTo .on .forced x
    else if q.first && bit (railDep s e.2) 16 && !bit quarM e.2 then ({ x with target := true }, .no) else (x, .no))
  let sysReq := q.acts.any (fun a => a.1 == 2) || faults.any (fun f => f.down == .sys)
  let byRank := fun d => faults.filter (fun f => f.down == d)
  let ws := (byRank .sys).foldl (railReact s) ws
  let ws := if sysReq then downSet quarM .sys none (BitVec.allOnes 10) ws else ws
  let ws := (q.acts.filter (fun a => a.1 == 1)).foldl (fun ws a => downSet quarM .group none (closureOf s (groupRails s a.2)) ws) ws
  let ws := (byRank .group).foldl (railReact s) ws
  let ws := (byRank .latch).foldl (railReact s) ws
  let ws := (byRank .retry).foldl (railReact s) ws
  let ws := (byRank .keep).foldl (railReact s) ws
  -- requests
  let ws := if q.resetting || sysReq then ws else q.reqs.foldl (railRequest s anyDown old) ws
  -- every other rail
  let uns := (upto 10).map (fun r => unmet (railDep s r) okLocal rpg)
  let depOff := fun r => (upto 10).all (fun x => !bit (railDep s x) r || countsOff (nth old x {}).st)
  let nat := ws.zipIdx.map (fun e =>
    let r := e.2
    let gate := bit (railDep s r) 17 || !bit (used s 0x2400) 0 || gang == 3
    railNatural s r (bit quarM r) gate anyDown (depOff r) (nth uns r 0) e.1)
  let rails := nat.zipIdx.map (fun e =>
    railEnd q.first (nth old e.2 {}) e.1.1.1 (railPg s e.2) (pin e.2) mons (nth uns e.2 0))
  let exp := uf s 0xC83 0 10
  let rpgOut := exp != 0 && !s.core.parity.elem 0xC83 &&
    (upto 10).all (fun r => !exp.testBit r || ((nth rails r {}).st == .on && (nth rails r {}).good))
  let s := modC s (fun c => { c with seq := { c.seq with
    rails := rails, rpgOut := rpgOut, reqs := [], acts := [], first := false, resetting := c.seq.resetting || sysReq } })
  -- stray records and interrupts
  (upto 10).foldl (fun s r =>
    let evs := (nth nat r (({}, .no), [])).2
    let s := if evs.elem 4 then railRecord s r 4 0 else s
    let nst := (nth rails r {}).st
    let ost := (nth old r {}).st
    if evs.elem 17 || (nst != ost && (nst == .on || nst == .off || nst == .faulted)) then raiseOwner s (.rail r) 17 else s) s

/-- A SYSTEM_RESET take-down has taken every rail down (06 R181). -/
def seqAllDown (s : State) : Bool := s.core.seq.resetting && s.core.seq.rails.all (fun x => countsOff x.st)

/-- SEQ takes up a course: a new PG_SRC, MON or PG_POL restarts the deglitch count (06 Edges). -/
def hookSeq (old s : State) : State :=
  modC s (fun c => { c with seq := { c.seq with
    rails := c.seq.rails.zipIdx.map (fun e =>
      let a := rd old (0xC02 + 8 * e.2) &&& 0x77
      let b := rd s (0xC02 + 8 * e.2) &&& 0x77
      if a ≠ b ∧ (e.1.st = .rising ∨ e.1.st = .on ∨ e.1.st = .adopt) then { e.1 with run := 0 } else e.1) } })

/-- The OFF bits of a frame are refused: a partition other than P0 would take down another's rail (06 R168). -/
def offDenied (s : State) (p : Nat) (off : BitVec 10) : Bool :=
  p != 0 && (bitsOf (closureOf s off) 10).any (fun r => ownerN s (.rail r) != p && (nth s.core.seq.rails r {}).target)

/-- The requests that one frame has queued past the first n act together: an ON beside an OFF in one frame is ignored
(06 R167). -/
def railMerge (n : Nat) (s : State) : State :=
  let l := s.core.seq.reqs
  if l.length ≤ n + 1 then s
  else
    let one := (l.drop n).foldl (fun a q => (a.1 ||| q.1, a.2 ||| q.2)) (0, 0)
    modC s (fun c => { c with seq := { c.seq with reqs := l.take n ++ [one] } })

/-- Queue a request for the next step (06 R167). -/
def railRequestPush (s : State) (on off : BitVec 10) : State :=
  if on = 0 ∧ off = 0 then s
  else modC s (fun c => { c with seq := { c.seq with reqs := c.seq.reqs ++ [(on, off)] } })

/-- The rails of a set of groups. -/
def groupsRails (s : State) (gs : BitVec 4) : BitVec 10 := bvOf 10 (fun r => bit gs (fld (railDep s r) 14 2))

/-- The rails whose SENr is held high through a core stop: high at the stop, and named in PWR_RAIL_HOLD (06 R178). -/
def senHeld (s : State) : BitVec 10 := bvOf 10 (fun r => bit s.hold.senCap r && bit (aused s 0xA17) r)

/-- SEQ at core start: a rail whose SENr was held high through the stop enters ADOPT with target ON (06 R179). -/
def seqStart (held : BitVec 10) (s : State) : State :=
  modC s (fun c => { c with seq := { c.seq with
    adopted := held
    rails := c.seq.rails.zipIdx.map (fun e => if bit held e.2 then { e.1 with st := .adopt, target := true } else e.1) } })

/-- SENr levels while the core runs (06 R159). -/
def senLevels (s : State) : BitVec 10 := bvOf 10 (fun r => senHigh (nth s.core.seq.rails r {}).st)

/-- A staged SEQ word would break R188: the lowest reason code of 06 Table 6-11 BOOTSTAT, 0 for none. 2 range, 3 reserved bit,
4 self or cyclic prerequisite, 5 own remote bit, 6 monitor reference. A MON of 6 or 7 counts as out of range, not as a monitor
reference (DEDUCED, notes/assumptions/22.md). The words are read through w. -/
def seqReasons (self : Nat) (w : Nat → Word) : List Nat :=
  let rails := upto 10
  let mons := upto 6
  let dep := fun r => w (0xC00 + 8 * r)
  let range := rails.any (fun r =>
      let t := w (0xC01 + 8 * r)
      let pg := w (0xC02 + 8 * r)
      let f := w (0xC03 + 8 * r)
      decide (1000 < fld t 0 10) || decide (1000 < fld t 12 10) || fld pg 8 8 == 0 || fld pg 16 8 == 0 || fld f 8 8 == 0
        || decide (6 ≤ fld pg 4 3) || fld f 16 2 == 3)
    || mons.any (fun m => fld (w (0xC60 + 4 * m)) 4 4 == 0)
  let step := fun (m : BitVec 10) => bvOf 10 (fun x => bit m x || (upto 10).any (fun r => bit m r && bit (dep x) r))
  let cyc := rails.any (fun r =>
    let next := bvOf 10 (fun x => bit (dep x) r)
    bit (iter step 10 next) r)
  let own := rails.any (fun r => bit (dep r) (10 + self))
  let monRef := rails.any (fun r =>
    let pg := w (0xC02 + 8 * r)
    decide (2 ≤ fld pg 0 2) && decide (fld pg 4 3 < 6) && !bit (w (0xC60 + 4 * fld pg 4 3)) 0)
  (if range then [2] else []) ++ (if cyc then [4] else []) ++ (if own then [5] else []) ++ (if monRef then [6] else [])

/-- The staged SEQ word at primary address a would take value v: accepted (06 R188; the caller has checked reserved bits).
Only what this write itself would do is judged, not what other staged words already hold. -/
def seqWordOk (s : State) (a : Nat) (v : Word) : Bool :=
  let w := fun p => if p = a then v else rd s (p + 0x100)
  let r := (a - 0xC00) / 8
  let mon := (a - 0xC60) / 4
  let names := fun pg m => decide (2 ≤ fld pg 0 2) && fld pg 4 3 == m
  if a < 0xC50 then
    match a % 8 with
    | 0 =>
      let step := fun (m : BitVec 10) => bvOf 10 (fun x => bit m x || (upto 10).any (fun k => bit m k && bit (w (0xC00 + 8 * x)) k))
      !bit (iter step 10 (bvOf 10 (fun x => bit (w (0xC00 + 8 * x)) r))) r && !bit v (10 + selfId s)
    | 1 => decide (fld v 0 10 ≤ 1000) && decide (fld v 12 10 ≤ 1000)
    | 2 => fld v 8 8 != 0 && fld v 16 8 != 0 && decide (fld v 4 3 < 6)
        && !(upto 6).any (fun m => names v m && !bit (w (0xC60 + 4 * m)) 0)
    | _ => fld v 8 8 != 0 && fld v 16 2 != 3
  else if 0xC60 ≤ a ∧ a < 0xC78 ∧ a % 4 = 0 then
    fld v 4 4 != 0
      && !(bit (rd s (a + 0x100)) 0 && !bit v 0 && (upto 10).any (fun k => names (w (0xC02 + 8 * k)) mon))
  else true

end Sys2Proof.Machine
end

