-- ==== Sys2Proof/Machine/Course.lean ====
section
/-! DEFINITION. Courses: what a commit captures, take-up block by block, bank by bank and LUN by LUN, completion, stall
(03 R82-R93). -/

namespace Sys2Proof.Machine

/-- Change the course record. -/
def modCourse (s : State) (f : CourseSt → CourseSt) : State := modC s (fun c => { c with course := f c.course })

/-- Bit of the course block mask for a word address; entry windows belong to NFC (03 Table 3-2). -/
def courseBlock (a : Nat) : Option Nat :=
  if 0x10000 ≤ a then some 5
  else match a / 0x200 with
    | 6 => some 4 | 7 => some 0 | 8 => some 1 | 9 => some 2 | 10 => some 3 | 11 => some 6 | 18 => some 7
    | n => if 12 ≤ n ∧ n ≤ 16 then some 5 else none

/-- The fields of a word that partition p carries: its ST fields that p owns (03 R83). -/
def carryMask (s : State) (p a : Nat) : Word :=
  if 0x10000 ≤ a then (if p = 0 then allBits else 0)
  else match primReg a with
    | some r => fsMask ((stFields r).filter (fun f => writerOf s p f.own == p))
    | none => 0

/-- The primary address of a stored key, staged or not. -/
def primOf (k : Nat) : Nat :=
  if k < 0x10000 then (if isStaged k then k - 0x100 else k)
  else if (k / 0x8000) % 2 = 1 then k - 0x8000 else k

/-- The stored words as they stood at the commit instant of the course (03 R83). -/
def atCommit (s : State) : State :=
  modC s (fun c => { c with regs := c.course.image, parity := c.course.imageBad })

/-- What the pending course carries of a word: the ST fields that the committing partition owned at the commit instant, with
the staged values of that instant (03 R83). A word is carried whether or not its staged value differs from the one in
force, so that one which has failed parity since is in force again with the course (01 R40, 06 R481, 07 R208). -/
def carryOf (s : State) (a : Nat) : Option Carry :=
  match courseBlock a with
  | none => none
  | some b =>
    let m := carryMask (atCommit s) s.core.course.owner.val a
    if bit s.core.course.blocks b && m != 0 then some ⟨a, m, rd (atCommit s) (stagedOf a)⟩ else none

/-- The words on which bringing a carried value into force can have an effect: every other word is in force as it was staged. -/
def courseWords (s : State) : List Nat :=
  let l := (s.core.course.image ++ s.core.regs).map (fun e => primOf e.1) ++ s.core.parity
    ++ (s.core.nfc.luns.map (fun x => x.diffs.map (fun e => e.1))).flatten
  l.foldl (fun acc a => insertNat a acc) [0x1600]

/-- What the pending course carries (03 R83). -/
def courseCarry (s : State) : List Carry := (courseWords s).filterMap (carryOf s)

/-- Carried words that satisfy t come into force, whole (03 R85). -/
def courseApply (s : State) (t : Nat → Bool) : State :=
  ((courseCarry s).filter (fun c => t c.addr)).foldl (fun s c =>
    modC (setR s c.addr (blend (rd s c.addr) c.val c.mask)) (fun k => { k with parity := k.parity.filter (fun a => a != c.addr) })) s

/-- Block b publishes the number of the course (03 R85). -/
def coursePublish (s : State) (b : Nat) : State :=
  modCourse s (fun c => { c with running := upd c.running b (fun _ => c.number), taken := setBit c.taken b true })

/-- Block b is targeted by the pending course and has not taken it up. -/
def courseDue (s : State) (b : Nat) : Bool :=
  s.core.course.state == 1 && bit s.core.course.blocks b && !bit s.core.course.taken b

/-- The hook of a block whose words have just changed. -/
def courseHook (b : Nat) (old s : State) : State :=
  match b with
  | 0 => hookThm old s
  | 1 => hookFlw old s
  | 2 => hookKey old s
  | 3 => hookEpd old s
  | 4 => hookSeq old s
  | 7 => hookGng old s
  | _ => s

/-- A block other than NFC and EFL takes the course up. -/
def takeUpRaw (s : State) (b : Nat) : State :=
  if courseDue s b then
    let s := if b = 2 then encFlush s else s
    let n := coursePublish (courseApply s (fun a => courseBlock a == some b)) b
    courseHook b s n
  else s

/-- An idle bank of the setup flash takes the course up; the second one publishes it (11 R309). -/
def eflTakeBank (s : State) (b : Nat) : State :=
  if courseDue s 6 && bankBetween s b && !bit s.core.course.eflTaken b then
    let cs := (courseCarry s).filter (fun c => c.addr == 0x1600)
    let n := s.core.course.number
    let s := modBank s b (fun k => { k with cfg := cs.foldl (fun w c => blend w c.val c.mask) k.cfg, course := n })
    let s := modCourse s (fun c => { c with eflTaken := setBit c.eflTaken b true })
    if s.core.course.eflTaken = 3 then coursePublish (courseApply s (fun a => courseBlock a == some 6)) 6 else s
  else s

/-- Both banks, where idle. -/
def eflTakeRaw (s : State) : State := eflTakeBank (eflTakeBank s 0) 1

/-- The word is one that each LUN takes up for itself while the others do not: namespace words, NFC_TIMEOUT,
NFC_LADDER_CFG, entries of its ladder (12 Edges). -/
def lunShared (s : State) (l a : Nat) : Bool :=
  decide (0x1810 ≤ a ∧ a < 0x1840) || a == 0x1802 || a == 0x180A
    || (decide (0x10000 ≤ a ∧ a < 0x20000) && (a - 0x10000) / 64 == lunLadder s l)

/-- The word is the LUN's own: its configuration word, its substitution entries. -/
def lunOwn (l a : Nat) : Bool := a == lunCfgA l || decide (bbtAddr l 0 ≤ a ∧ a < bbtAddr l 128)

/-- The fields of a channel come into force when its last LUN has taken up (12 Edges). -/
def chanTake (s : State) (c : Nat) : State :=
  let a := 0x1A00 + 0x200 * c
  let n := s.core.course.number
  let s1 := courseApply s (fun x => x == a)
  modChan s1 c (fun k => { k with running := n, modeDue := k.modeDue || (rd s a != rd s1 a && k.init == .ready) })

/-- The word came into force with a LUN or with the last LUN of a channel (12 Edges). -/
def lunTaken (a : Nat) : Bool :=
  (upto 16).any (fun l => lunOwn l a) || (upto 4).any (fun c => a == 0x1A00 + 0x200 * c)

/-- NFC_CFG and all that no single LUN is affected by come into force with the last LUN, and NFC publishes (03 R86). -/
def nfcPublish (s : State) : State :=
  let s := courseApply s (fun a => courseBlock a == some 5 && !lunTaken a)
  let s := modN s (fun n => { n with
    running := s.core.course.number
    luns := n.luns.map (fun x => { x with diffs := x.diffs.filter (fun e => decide (rd s e.1 ≠ e.2)) }) })
  coursePublish s 5

/-- LUN l has no operation queued or running, or is absent (03 R86). -/
def lunMayTake (s : State) (l : Nat) : Bool :=
  courseDue s 5 && (lunOf s l).pending && (lunQuiet s l || (lunOf s l).state == 0 || (chanOf s (l / 4)).vccq == 0)

/-- A LUN takes the course up (03 R86). -/
def lunTakeRaw (s : State) (l : Nat) : State :=
  if lunMayTake s l then
    let s := courseApply s (lunOwn l)
    let n := s.core.course.number
    let en := lunEn s l
    let cs := (courseCarry s).filter (fun c => lunShared s l c.addr)
    let s := modLun s l (fun x => { x with
      running := n
      pending := false
      held := false
      diffs := cs.foldl (fun o c => sset (fun a => rd s a) o c.addr (blend (lw s l c.addr) c.val c.mask)) x.diffs
      state := if x.state = 7 then 7 else if !en then 6 else if x.state = 6 then 0 else x.state })
    let s := if (upto 4).any (fun k => (lunOf s (4 * (l / 4) + k)).pending) then s else chanTake s (l / 4)
    if s.core.nfc.luns.any (fun x => x.pending) then s else nfcPublish s
  else s

/-- Every LUN that may. -/
def nfcTakeRaw (s : State) : State := (upto 16).foldl lunTakeRaw s

/-- An entry of the course log goes in (03 Table 3-5). -/
def courseLog (c : CourseSt) (outcome t : Nat) : CourseSt :=
  let ms := nmin 16383 (((t - c.commitTick) * 1000 + 16384) / 32768)
  let a := mkW [(0, 16, c.number), (16, 8, c.blocks.toNat), (24, 2, c.owner.val), (26, 2, outcome)]
  let b := mkW [(0, 14, ms), (16, 8, c.taken.toNat)]
  { c with log := (a, b) :: c.log.take 3 }

/-- The course is COMPLETE once every targeted block has published (03 R87). -/
def courseComplete (s : State) : State :=
  let c := s.core.course
  if c.state = 1 ∧ c.blocks &&& ~~~c.taken = 0 then
    let s := modCourse s (fun c => { courseLog c 1 (now s) with state := 2, image := [], imageBad := [] })
    raise s c.owner.val 6
  else s

/-- A course is assigned its number and captures its values; idle blocks take it up at once (03 R84-R86). -/
def courseAssign (s : State) (p : Part) (blocks : BitVec 8) : State :=
  let ms := uf s 0x43 0 16
  let s := modCourse s (fun c => { c with
    number := if c.number = 65535 then 1 else c.number + 1
    blocks := blocks
    owner := p
    state := 1
    taken := 0
    blocking := 15
    image := s.core.regs
    imageBad := s.core.parity
    commitTick := now s
    limit := (ms * 32768 + 999) / 1000
    eflTaken := 0 })
  let s := if bit blocks 5 then modN s (fun n => { n with
      luns := n.luns.map (fun x => { x with pending := true, held := true })
      flight := n.flight.map (fun f => if f.st = 1 then { f with held := true } else f) }) else s
  let s := if s.core.epd.run.isNone then takeUpRaw s 3 else s
  let s := if s.core.gng.busy then s else takeUpRaw s 7
  let s := eflTakeRaw s
  let s := nfcTakeRaw s
  courseComplete s

/-- The queued commit of P0 is assigned when the running course has ended (03 R90). -/
def courseNext (s : State) : State :=
  match s.core.course.queued with
  | some b => if s.core.course.state = 1 then s else courseAssign (modCourse s (fun c => { c with queued := none })) 0 b
  | none => s

/-- Completion, and the queued commit after it. -/
def courseCheck (s : State) : State := courseNext (courseComplete s)

/-- Block b takes the pending course up at its quiescent point (03 R85; DEDUCED, notes/assumptions/19.md). -/
def takeUp (s : State) (b : Nat) : State := if courseDue s b then courseCheck (takeUpRaw s b) else s

/-- GNG, where no frame is on the bus (15 R427). -/
def gngCourse (s : State) : State := if s.core.gng.busy then s else takeUp s 7

/-- A gang frame has ended: GNG takes the pending course up after what the frame did (15 R427). -/
def gangBoundary (s : State) : State := gngCourse (gangPass s)

/-- EPD, where no update runs. -/
def epdCourse (s : State) : State := if s.core.epd.run.isNone then takeUp s 3 else s

/-- EFL, bank by bank. -/
def eflCourse (s : State) : State := if courseDue s 6 then courseCheck (eflTakeRaw s) else s

/-- One LUN (03 R86). -/
def lunTakeUp (s : State) (l : Nat) : State := if lunMayTake s l then postAll (nfcService (courseCheck (lunTakeRaw s l))) else s

/-- NFC, LUN by LUN. -/
def nfcCourse (s : State) : State := if courseDue s 5 then courseCheck (nfcTakeRaw s) else s

/-- NFC goes on after whatever has changed its work: admission, dispatch, buses, take-up, and admission again; then the records of
the instant go out. -/
def nfcAfter (s : State) : State :=
  let s := nfcService s
  postAll (if courseDue s 5 then nfcService (nfcCourse s) else s)

/-- The quiescent point of a block: it takes the pending course up (03 Table 3-2). -/
def courseTakeUpOp (s : State) (b : Nat) : State :=
  if b = 3 then epdCourse s else if b = 5 then nfcAfter s else if b = 6 then eflCourse s else if b = 7 then gngCourse s else takeUp s b

/-- The course stalls (03 R88, R89). An EFL bank that has taken the course up keeps its EFL_CFG and its number, though EFL then
publishes the previous one: R88 and R89 speak of blocks and LUNs only (DESIGN CHOICE, notes/assumptions/19.md). -/
def courseStallOp (s : State) : State :=
  let c := s.core.course
  if c.state = 1 then
    let s := modCourse s (fun c => { courseLog c 2 (now s) with
      state := 3, blocking := lowest (c.blocks &&& ~~~c.taken) 15, stalls := sat 65535 (c.stalls + 1), image := [], imageBad := [] })
    let s := modN s (fun n => { n with luns := n.luns.map (fun x => { x with pending := false, held := false }) })
    let s := raise s c.owner.val 5
    let s := raise s 0 5
    postAll (nfcService (courseNext (capoFault s 23)))
  else s

/-- A write of a mask to DEV_COURSE_COMMIT (03 R84, R90): the new state, and whether it is refused. -/
def courseCommitOp (s : State) (p : Part) (blocks : BitVec 8) : State × Bool :=
  if blocks = 0 then (s, false)
  else
    let c := s.core.course
    if c.state ≠ 1 then (courseAssign s p blocks, false)
    else if p = 0 ∧ c.owner ≠ 0 ∧ c.queued = none then (modCourse s (fun c => { c with queued := some blocks }), false)
    else (modCourse s (fun c => { c with refused := sat 65535 (c.refused + 1) }), true)

end Sys2Proof.Machine
end

