-- ==== Sys2Proof/Machine/CvuOps.lean ====
section
/-! DEFINITION. The check-value units: algorithms, feeding, buffer runs, finish, abandonment (14). -/

namespace Sys2Proof.Machine

/-- Word k of unit u: CVUu_CTL is word 0 (14 Table 14-3). -/
def cvuA (u k : Nat) : Nat := 0x2200 + 16 * u + k

/-- Change a unit. -/
def modU (s : State) (u : Nat) (f : CvuUnit → CvuUnit) : State := modC s (fun c => { c with cvu := upd c.cvu u f })

/-- A unit. -/
def cvuOf (s : State) (u : Nat) : CvuUnit := nth s.core.cvu u {}

/-- Width W of an algorithm (14 Table 14-2). -/
def cvuWidth (poly : Nat) : Nat := match poly with | 0 => 8 | 1 => 16 | _ => 32

/-- Polynomial of a not reflected algorithm, and POLY_R of a reflected one (14 R397). -/
def cvuPoly (poly : Nat) : Nat := match poly with | 0 => 0x2F | 1 => 0x1021 | 2 => 0xEDB88320 | _ => 0x82F63B78

/-- The final XOR (14 Table 14-2). -/
def cvuXor (poly : Nat) : Nat := match poly with | 0 => 0xFF | 1 => 0 | _ => 0xFFFFFFFF

/-- One byte enters the accumulator (14 R397). -/
def cvuByte (poly acc : Nat) (b : Byte) : Nat :=
  let w := cvuWidth poly
  if poly < 2 then
    iter (fun a => if a.testBit (w - 1) then ((a * 2) ^^^ cvuPoly poly) % 2 ^ w else a * 2 % 2 ^ w) 8 (acc ^^^ (b.toNat <<< (w - 8)))
  else
    iter (fun a => if a.testBit 0 then (a / 2) ^^^ cvuPoly poly else a / 2) 8 (acc ^^^ b.toNat)

/-- POLY of a unit. -/
def cvuAlg (s : State) (u : Nat) : Nat := rf s (cvuA u 3) 0 2

/-- A at INIT: its low W bits (14 R397). -/
def cvuInit (s : State) (u : Nat) : Nat := (rd s (cvuA u 4)).toNat % 2 ^ cvuWidth (cvuAlg s u)

/-- One data byte of a unit: accumulator, count, alive counter byte (14 R397, R402). -/
def cvuData (poly pos : Nat) (q : CvuUnit) (b : Byte) : CvuUnit :=
  { q with acc := cvuByte poly q.acc b, bytes := q.bytes + 1, ctr := if q.bytes = pos then some b else q.ctr }

/-- Data bytes enter the calculation in order. -/
def cvuFeedOp (s : State) (u : Nat) (bs : List Byte) : State :=
  modU s u (fun q => bs.foldl (cvuData (cvuAlg s u) (rf s (cvuA u 3) 8 8)) q)

/-- START (14 R398, R401). -/
def cvuStartOp (s : State) (u : Nat) : State :=
  let fold := if bit (rd s (cvuA u 3)) 4 then leBytes 4 (rd s (cvuA u 5)).toNat else []
  let a := fold.foldl (cvuByte (cvuAlg s u)) (cvuInit s u)
  modU s u (fun q => { q with st := 1, acc := a, bytes := 0, ctr := none, finishAfter := false })

/-- Abandonment, with a code, of a calculation in progress (14 R405, 04 Table 4-7); a unit in IDLE or DONE has none
(DEDUCED, notes/assumptions/17.md). -/
def cvuAbandon (s : State) (u code : Nat) : State :=
  if (cvuOf s u).st = 1 ∨ (cvuOf s u).st = 2 then
    modU s u (fun q => { q with st := 0, acc := cvuInit s u, code := code, finishAfter := false })
  else s

/-- ABORT (14 R405). -/
def cvuAbortOp (s : State) (u : Nat) : State := cvuAbandon s u 9

/-- The owner changes or its partition is reset (14 R405). -/
def cvuMoved (s : State) (u : Nat) : State := modU (cvuAbandon s u 9) u (fun q => { q with first := true })

/-- CLEAR (14 Table 14-4). -/
def cvuClearOp (s : State) (u : Nat) : State := modU s u (fun q => { q with mismatches := 0, finishes := 0 })

/-- REARM (14 R402). -/
def cvuRearmOp (s : State) (u : Nat) : State := modU s u (fun q => { q with first := true })

/-- The alive judgement: SHORT 5, ALIVE 4, accepted 0 (14 R402). -/
def aliveJudge (cfg : Word) (q : CvuUnit) : Nat × CvuUnit :=
  if bit cfg 6 then
    match q.ctr with
    | none => (5, q)
    | some b =>
      let c := if bit cfg 16 then b.toNat / 16 else b.toNat % 16
      let r := if q.first || c == (q.lastCtr + 1) % 16 then 0 else 4
      (r, { q with first := false, lastCtr := c })
  else (0, q)

/-- FINISH (14 R403). -/
def cvuFinishOp (s : State) (u : Nat) : State :=
  let cfg := rd s (cvuA u 3)
  let poly := fld cfg 0 2
  let q := cvuOf s u
  let res := q.acc ^^^ cvuXor poly
  let differs := bit cfg 7 && (rd s (cvuA u 6)).toNat % 2 ^ cvuWidth poly != res
  let j := aliveJudge cfg q
  let code := if j.1 ≠ 0 then j.1 else if differs then 2 else if bit cfg 7 then 1 else 3
  let err := decide (j.1 ≠ 0) || differs
  let s := modU s u (fun _ => { j.2 with
    st := 3
    code := code
    finishAfter := false
    result := BitVec.ofNat 32 res
    finishes := (q.finishes + 1) % 256
    mismatch := q.mismatch || differs
    aliveErr := q.aliveErr || decide (j.1 ≠ 0)
    mismatches := if err then sat 255 (q.mismatches + 1) else q.mismatches })
  let s := if bit cfg 5 then setR s (cvuA u 5) (rd s (cvuA u 5) + 1) else s
  let s := if err then raiseOwner0 s (.cvu u) 34 else s
  raiseOwner s (.cvu u) 35

/-- Some byte of a flash range lies in a region hidden from partition p (04 R106, 11 R303). Addresses are within the array. -/
def flashHidden (s : State) (p a n : Nat) : Bool :=
  (upto 8).any (fun k =>
    let r := nth s.core.efl.sfrs k (0, 0)
    hidden s p (.sfr k) && decide (a < 4096 * (r.1 + r.2)) && decide (4096 * r.1 < a + n))

/-- The range of a run is allowed at GO (14 R400). -/
def cvuRangeOk (s : State) (u a n : Nat) : Bool :=
  let o := ownerN s (.cvu u)
  if a + n ≤ 0x40000 then (granulesOf a n).all (fun g => inQuota s o g)
  else decide (0x200000 ≤ a ∧ a + n ≤ 0x400000) && !flashHidden s o (a - 0x200000) n

/-- GO (14 R400). The second value: the run started, or did not. -/
def cvuGoOp (s : State) (u : Nat) (finish : Bool) : State :=
  let a := rf s (cvuA u 7) 0 24
  let n := rf s (cvuA u 8) 0 18 + 1
  if cvuRangeOk s u a n then modU s u (fun q => { q with st := 2, runAddr := a, runLen := n, finishAfter := finish })
  else raiseOwner (modU s u (fun q => { q with code := 6 })) (.cvu u) 35

/-- The run ends well: OPEN, and DONE where FINISH came with GO (14 R398, R400). -/
def cvuRunOk (s : State) (u : Nat) (bs : List Byte) (unwritten : Bool) : State :=
  let fin := (cvuOf s u).finishAfter
  let s := cvuFeedOp s u bs
  let s := modU s u (fun q => { q with st := 1, unwritten := q.unwritten || unwritten, finishAfter := false })
  let s := raiseOwner s (.cvu u) 35
  if fin then cvuFinishOp s u else s

/-- The run of a unit ends (14 R400). It waits, changing nothing, while a bank that it reads is written. -/
def cvuRunEndOp (s : State) (u : Nat) : State :=
  let q := cvuOf s u
  if q.st ≠ 2 then s
  else
    let a := q.runAddr
    let n := q.runLen
    let fault := fun c => raiseOwner (cvuAbandon s u c) (.cvu u) 35
    if a < 0x40000 then
      let gs := granulesOf a n
      let o := ownerN s (.cvu u)
      -- the first granule in order that stops the run
      let part := fun g => (nmax a (512 * g), nmin (a + n) (512 * g + 512) - nmax a (512 * g))
      let halt := fun g => if !inQuota s o g then some 6 else if bufBad s (part g).1 (part g).2 then some 7 else none
      -- the granules read before that one, and that one too where a word of it is what stops the run: up to that word
      let done := gs.takeWhile (fun g => (halt g).isNone)
      let met := gs.take (done.length + b2n (gs.findSome? halt == some 7))
      let un := met.any (fun g => !bit s.core.buf.written g)
      let upTo := fun g => match (wordsOf (part g).1 (part g).2).find? (fun w => s.core.buf.bad.elem w) with
        | some w => 8 * w - (part g).1
        | none => (part g).2
      let touched := met.foldl (fun s g => bufTouch s (part g).1 (upTo g)) s
      match gs.findSome? halt with
      | some c => modU (raiseOwner (cvuAbandon touched u c) (.cvu u) 35) u (fun k => { k with unwritten := q.unwritten || un })
      | none =>
        let bs := (upto n).map (fun i => if bit s.core.buf.written ((a + i) / 512) then bufByte s (a + i) else 0)
        cvuRunOk touched u bs un
    else
      let f := a - 0x200000
      let last := f + n - 1
      if (decide (f < 0x100000) && bankWrites s 0) || (decide (0x100000 ≤ last) && bankWrites s 1) then s
      else
        let r := flashRead s true f n
        if r.2 then fault 8 else cvuRunOk s u r.1 false

/-- CTL and FEED words of one frame act on a unit (14 R399, R404): the new state and whether something was MASKED.
feeds: the FEED words written, in address order. -/
def cvuCtlOp (s : State) (u : Nat) (ctl : Word) (feeds : List Word) : State × Bool :=
  let s := if bit ctl 3 then cvuAbortOp s u else s
  let s := if bit ctl 4 then cvuClearOp s u else s
  let s := if bit ctl 5 then cvuRearmOp s u else s
  let par := (cvuOf s u).parity
  let mStart := bit ctl 0 && ((cvuOf s u).st == 2 || par)
  let s := if bit ctl 0 && !mStart then cvuStartOp s u else s
  let mFeed := !feeds.isEmpty && (cvuOf s u).st != 1
  let whole := (feeds.map (fun w => leBytes 4 w.toNat)).flatten
  let last := fld ctl 8 3
  let drop := if 1 ≤ last ∧ last ≤ 3 ∧ feeds ≠ [] then 4 - last else 0
  let s := if !feeds.isEmpty && !mFeed then cvuFeedOp s u (whole.take (whole.length - drop)) else s
  let mGo := bit ctl 2 && ((cvuOf s u).st != 1 || par)
  let goes := bit ctl 2 && !mGo
  let open1 := (cvuOf s u).st == 1
  let s := if goes then cvuGoOp s u (bit ctl 1) else s
  let mFin := bit ctl 1 && !goes && !open1
  let s := if bit ctl 1 && !goes && !mFin then cvuFinishOp s u else s
  (s, mStart || mFeed || mGo || mFin)

/-- A configuration word of the unit fails parity (14 R405). -/
def cvuParityOp (s : State) (u : Nat) : State :=
  let s := cvuAbandon s u 10
  let s := modU s u (fun q => { q with parity := true })
  raiseOwner0 s (.cvu u) 34

/-- Some unit runs (05 R137). -/
def cvuRunning (s : State) : Bool := s.core.cvu.any (fun q => q.st == 2)

end Sys2Proof.Machine
end

