-- ==== Sys2Proof/Machine/Flags.lean ====
section
/-! DEFINITION. What registers read: every status register computed from the state, windows bound to the reading
partition, hidden fields, and the levels of the signals to the hosts (chapters 02 to 16, Registers). -/

namespace Sys2Proof.Machine

/-- One bit per true element. -/
def bitsN (w : Nat) (f : Nat → Bool) : Nat := (bvOf w f).toNat

/-- Number of active sources, and the lowest (04 Table 4-10). -/
def irqActive (q : IrqSt) : BitVec 64 := q.pend &&& q.en

/-- The summary of P3 drives SP_ALERT_N unless a won Alert Response released it (02 R71). -/
def spAlert (s : State) : Bool := (nth s.core.irq 3 {}).summary && !(nth s.core.ports 3 {}).alertOff

/-- NWP is asserted (05 R148, 12 R364). -/
def nwpLow (s : State) : Bool :=
  !coreUp s || s.core.nfc.chans.any (fun c => c.init == .settle || c.fault) || (heldNvm s && !nvmRunning s)

/-- A panel start waits for the end of the warning (09 Edges). -/
def epdHeldStart (s : State) : Bool :=
  heldEpd s && (s.core.epd.queued != 0 || s.core.pix.blinks.any (fun b => b.pending))

/-- Work is held by the warning (05 R149). -/
def holdingWork (s : State) : Bool := s.aon.warn && (eflHeld s || nfcHeld s || epdHeldStart s)

/-- DEV (03 Table 3-5, Table 3-6, 00 Table 0-3). PIN_LEVEL of DEV_CAPO_STATUS reads its reset value 0 until an
edge or the device's own drive has shown the line's level, and is free after that while the device does not drive the line
(16 R435; DESIGN CHOICE, notes/assumptions/7.md). -/
def devLive (s : State) (p o : Nat) : Option Word :=
  let c := s.core.course
  if o = 0 then some 0x0E0900B1
  else if o = 1 then some (BitVec.ofNat 32 (fld Config.uid 0 32))
  else if o = 2 then some (BitVec.ofNat 32 (fld Config.uid 32 32))
  else if 0x10 ≤ o ∧ o < 0x20 then
    (([0x143, 0x1024, 0x400400, 0x624, 0x46A, 0x4B000, 0x1E00280, 0x484, 0x20800, 0x100, 0x83100A, 0x48, 0x4080C, 0x8010, 4, 1] : List Word))[o - 0x10]?
  else if o = 0x41 then some (mkW [(0, 16, c.number), (16, 8, c.blocks.toNat), (24, 2, c.owner.val)])
  else if o = 0x42 then some (mkW [(0, 3, c.state), (3, 1, b2n c.queued.isSome), (8, 8, c.taken.toNat), (16, 4, c.blocking)])
  else if o = 0x44 then some (match c.queued with
    | some b => mkW [(0, 8, b.toNat), (8, 1, 1)]
    | none => 0)
  else if o = 0x46 then some (mkW [(0, 16, c.stalls), (16, 16, c.refused)])
  else if 0x48 ≤ o ∧ o < 0x50 then
    let e := nth c.log ((o - 0x48) / 2) (0, 0)
    some (if o % 2 = 0 then e.1 else e.2)
  else if o = 0x51 then some (mkW [(0, 16, s.core.capo.seq.toNat)])
  else if o = 0x54 then
    some (mkW [(0, 1, b2n s.core.capo.held), (1, 1, b2n (!s.core.capo.driving && !s.core.capo.pinReset && free s 0x6000 % 2 == 1)),
      (4, 4, s.core.capo.missedSrc.toNat), (8, 8, s.core.capo.missed)])
  else if o = 0x60 then some (BitVec.ofNat 32 (stamp s))
  else if o = 0x61 then some (BitVec.ofNat 32 (stamp s / 4294967296))
  else if o = 0x63 then some (BitVec.ofNat 32 (nth s.core.dev.latches p 0).toNat)
  else if o = 0x64 then some (BitVec.ofNat 32 ((nth s.core.dev.latches p 0).toNat / 4294967296))
  else if o = 0x70 then some (BitVec.ofNat 32 s.core.dev.parityAddr)
  else if o = 0x71 then some (BitVec.ofNat 32 s.core.dev.parityCount)
  else if o = 0xFE then some 0
  else none

/-- REMAIN of a watchdog, in units of 512 ticks, rounded down (DEDUCED, notes/assumptions/26.md). -/
def wdogRemain (s : State) (w : WdogSt) : Nat := if w.running then (w.limit - (now s - w.start)) / 512 else 0

/-- PART (04 Table 4-9). -/
def partLive (s : State) (o : Nat) : Option Word :=
  if o = 0x44 then
    let g := (upto 4).foldl (fun n q => n + (slotShare s q).1) 0
    some (mkW [(0, 11, 1024 - g), (16, 11, poolUsed s)])
  else if 0x48 ≤ o ∧ o < 0x4C then some (mkW [(0, 11, slotsHeld s (o - 0x48)), (16, 16, nth s.core.part.slotRefused (o - 0x48) 0)])
  else if 0x68 ≤ o ∧ o < 0x6C then
    let w := nth s.core.part.wdog (o - 0x68) {}
    some (mkW [(0, 1, b2n w.running), (1, 1, b2n w.warned), (2, 1, b2n (w.held != 0)), (3, 1, b2n w.expectA5),
      (4, 1, b2n w.wrongKick), (8, 8, w.expiries), (16, 13, wdogRemain s w)])
  else if o = 0x75 then some (mkW [(0, 4, s.core.part.inReset.toNat)])
  else if o = 0x76 then some (mkW ((upto 4).map (fun q => (8 * q, 8, nth s.core.part.rstCount q 0))))
  else if o = 0x77 then some (mkW ((upto 4).map (fun q => (4 * q, 4, nth s.core.part.rstCause q 0))))
  else none

/-- PORT (02 Table 2-15, Table 2-16, Table 2-17). -/
def portLive (s : State) (o : Nat) : Option Word :=
  if o = 0xFE then some 0
  else if o = 0xFF then some (mkW [(0, 4, bitsN 4 (fun k => (nth s.core.ports k {}).errs.any (fun e => e != 0)))])
  else
    let n := o / 16
    let q := nth s.core.ports n {}
    let e := fun i => nth q.errs i 0
    match o % 16 with
    | 2 =>
      let hi := [(8, 8, q.lastStatus.toNat), (16, 8, q.lastSeq.toNat)]
      some (mkW (if n = 3 then hi ++ [(0, 7, 0x58 + selfId s), (24, 1, b2n (spAlert s))]
        else hi ++ [(0, 2, q.width.toNat), (2, 1, b2n q.mode3)]))
    | 3 => some q.frames
    | 4 => some (mkW [(0, 8, e 0), (8, 8, e 1), (16, 8, e 2), (24, 8, e 3)])
    | 5 => some (mkW [(0, 8, e 4), (8, 8, e 5), (16, 8, e 6), (24, 8, e 7)])
    | 7 => some q.failHdr
    | 8 => some q.failInfo
    | _ => none

/-- MBX_RXNEXTp (04 R117). -/
def rxNext (s : State) (p : Nat) : Nat :=
  let ms := (upto 12).filter (fun n => mbxReceiver n == p && (nth s.core.mbxs n {}).held != 0)
  let prio := fun n => uf s 0x218 (2 * n) 2
  match ms with
  | [] => 15
  | m :: rest => rest.foldl (fun best n => if prio best < prio n then n else best) m

/-- MBX (04 Table 4-11). -/
def mbxLive (s : State) (o : Nat) : Option Word :=
  if o < 0x30 then
    let m := nth s.core.mbxs (o / 4) {}
    if o % 4 = 2 then some (mkW [(0, 3, m.wr), (3, 3, m.rd), (6, 4, m.held), (12, 3, m.result), (16, 16, m.next.toNat)])
    else if o % 4 = 3 then some (mkW [(0, 16, m.refused), (16, 16, m.discarded)])
    else none
  else if o < 0x34 then some (BitVec.ofNat 32 (rxNext s (o - 0x30)))
  else none

/-- IRQ windows (04 Table 4-10). -/
def irqLive (s : State) (o : Nat) : Option Word :=
  if o = 0xFE ∨ o = 0xFF ∨ 0x100 ≤ o then none
  else
    let q := nth s.core.irq (o / 64) {}
    let half := fun (x : BitVec 64) (k : Nat) => BitVec.ofNat 32 (fld x (32 * k) 32)
    let act := irqActive (irqUsed s (o / 64) q)
    match o % 64 with
    | 0 => some (half q.pend 0)
    | 1 => some (half q.pend 1)
    | 2 => some (half q.en 0)
    | 3 => some (half q.en 1)
    | 4 => some (half q.imm 0)
    | 5 => some (half q.imm 1)
    | 6 => some (mkW [(0, 8, q.count), (16, 16, q.time)])
    | 7 => some (mkW [(0, 1, b2n q.summary), (8, 8, q.events), (16, 6, lowest act 0), (22, 1, b2n (act == 0))])
    | 8 => some q.asserts
    | _ => none

/-- PWR (05 Table 5-9, Table 5-10, 01 Table 1-6). -/
def pwrLive (s : State) (o : Nat) : Option Word :=
  let w := s.core.pwr
  let a := s.aon
  if o = 0 then some (mkW [(0, 1, b2n w.doze), (1, 1, b2n a.warn), (2, 1, b2n a.bakValid), (3, 1, b2n (bakLow s)), (4, 1, b2n (holdingWork s))])
  else if o = 1 then some (mkW [(0, 12, w.vmain), (16, 13, w.vbak)])
  else if o = 4 then some (putFld (putFld (rd s 0xA04) 1 1 (b2n w.waiting)) 2 1 (b2n w.timedOut))
  else if o = 0x10 then
    some (mkW [(0, 1, b2n w.rc48), (1, 1, b2n a.onRc32), (2, 1, b2n w.pllLoss), (3, 1, b2n w.x32Fail),
      (8, 8, w.x32Switches), (16, 8, w.pllLosses)])
  else if o = 0x11 then
    some (mkW [(0, 3, s.hold.vddcTries), (4, 3, s.hold.x24Tries), (8, 3, s.hold.pllTries), (12, 2, s.hold.outcome)])
  else if o = 0x12 then some (mkW [(0, 4, a.stop), (8, 8, a.wake.toNat)])
  else if o = 0x13 then some (mkW [(0, 1, b2n a.cold), (1, 1, b2n a.refusedSeen)])
  else if o = 0x14 then some (mkW [(0, 8, a.switchovers), (8, 8, a.warnings), (16, 8, a.refusals), (24, 8, a.vddcFaults)])
  else if o = 0x18 then some (mkW [(0, 1, b2n s.hold.locked)])
  else if o = 0x1A then some (mkW [(0, 2, s.hold.straps.toNat)])
  else if o = 0xFF then some (mkW [(0, 1, b2n w.rc48)])
  else none

/-- RUNNING and PENDING at 0x0FE of a course-taking block, by course bit (03 Table 3-5). -/
def courseWord (s : State) (b : Nat) : Word :=
  mkW [(0, 16, nth s.core.course.running b 0), (16, 1, b2n (courseDue s b))]

/-- SEQ (06 Table 6-10, Table 6-11). -/
def seqLive (s : State) (o : Nat) : Option Word :=
  let q := s.core.seq
  if o < 0x50 then
    let x := nth q.rails (o / 8) {}
    if o % 8 = 4 then
      some (mkW [(0, 4, railCode x.st), (4, 1, b2n (senHigh x.st)), (5, 1, b2n x.pinGood), (6, 1, b2n x.good), (7, 1, b2n x.target),
        (8, 1, b2n x.latched), (10, 14, x.blocking), (24, 3, x.tries), (28, 3, x.lastFault)])
    else if o % 8 = 5 then some (mkW [(0, 8, x.nTimeout), (8, 8, x.nPin), (16, 8, x.nMon), (24, 8, x.nRetry)])
    else none
  else if 0x60 ≤ o ∧ o < 0x78 ∧ o % 4 = 2 then
    let m := nth q.mons ((o - 0x60) / 4) {}
    some (mkW [(0, 12, m.code), (12, 1, b2n m.inWin)])
  else if o = 0x82 then
    some (mkW [(0, 10, bitsN 10 (fun r => (nth q.rails r {}).good)), (10, 4, q.rpgIn.toNat), (14, 1, b2n q.rpgOut),
      (15, 1, b2n (q.rails.any (fun x => goingDown x.st))), (16, 3, s.core.gng.state), (19, 1, b2n q.resetting)])
  else if o = 0x84 then some (mkW [(0, 2, q.bootSource), (4, 4, q.bootReason), (16, 10, q.adopted.toNat)])
  else if 0x88 ≤ o ∧ o < 0x90 then
    let e := nth q.flog ((o - 0x88) / 2) (0, 0)
    some (if o % 2 = 0 then e.1 else e.2)
  else if o = 0xFE then some (courseWord s 4)
  else if o = 0xFF then
    some (mkW [(0, 10, bitsN 10 (fun r => (nth q.rails r {}).st == .faulted)), (16, 10, bitsN 10 (railQuar s))])
  else none

/-- THM (07 Table 7-5). -/
def thmLive (s : State) (o : Nat) : Option Word :=
  let t := s.core.thm
  let inv := bitsN 4 (fun g => (nth t.grps g {}).state == 1)
  if o = 1 then
    some (mkW [(0, 8, bitsN 8 (fun k => (nth t.sens k {}).valid)), (8, 4, inv), (12, 4, bitsN 4 (fun g => (nth t.grps g {}).state == 3))])
  else if o = 2 then some t.samples
  else if o = 3 ∨ o = 4 then some (mkW ((upto 4).map (fun j => (8 * j, 8, (nth t.sens (4 * (o - 3) + j) {}).invCount))))
  else if 0x28 ≤ o ∧ o < 0x30 then
    let q := nth t.sens (o - 0x28) {}
    some (mkW [(0, 16, q.temp), (16, 12, q.code), (28, 1, b2n q.valid), (29, 3, q.reason)])
  else if 0x34 ≤ o ∧ o < 0x38 then
    let g := nth t.grps (o - 0x34) {}
    some (mkW [(0, 16, unsgn 16 g.temp), (16, 3, g.state), (20, 3, g.source), (24, 4, g.nValid)])
  else if o = 0xFE then some (courseWord s 0)
  else if o = 0xFF then
    some (mkW [(0, 4, inv), (4, 4, bitsN 4 (fun g => badW s (0xE30 + g))), (8, 2, bitsN 2 (curveBad s)),
      (10, 1, b2n (badW s 0xE00)), (16, 8, bitsN 8 (fun k => badW s (0xE20 + k)))])
  else none

/-- FLW (07 Table 7-10). -/
def flwLive (s : State) (o : Nat) : Option Word :=
  let f := s.core.flw
  let d := fun n => nth f.drive n {}
  let a := fun n => nth f.age n {}
  if o < 0x60 then
    let n := o / 16
    if o % 16 = 11 then
      some (mkW [(0, 3, (d n).source), (4, 4, (d n).cause.toNat), (8, 1, b2n (d n).stalled), (9, 1, b2n (d n).taken),
        (10, 1, b2n (d n).ramping), (11, 1, b2n ((a n).n != 0)), (16, 8, (a n).ageing.toNat), (24, 8, (a n).learned.toNat)])
    else if o % 16 = 12 then some (mkW [(0, 16, (d n).speed), (16, 10, (d n).u / 100)])
    else none
  else if o = 0xA0 then
    some (mkW [(0, 6, bitsN 6 (fun n => (d n).source == 4 || (d n).source == 6)), (8, 6, bitsN 6 (fun n => (d n).stalled)),
      (16, 6, bitsN 6 (fun n => (a n).ageing != 0)), (24, 6, bitsN 6 (fun n => (d n).taken))])
  else if o = 0xA1 then some (mkW ((upto 4).map (fun n => (8 * n, 8, (d n).nStalls))))
  else if o = 0xA2 then some (mkW ((upto 2).map (fun n => (8 * n, 8, (d (n + 4)).nStalls))))
  else if o = 0xFE then some (courseWord s 1)
  else if o = 0xFF then some (mkW [(0, 6, bitsN 6 (fun n => !(flwFailed s n).isEmpty)), (8, 2, f.ageSrc)])
  else none

/-- KEY (08 Table 8-10). -/
def keyLive (s : State) (p o : Nat) : Option Word :=
  let k := s.core.key
  if o = 1 then
    some (mkW [(0, 1, b2n (!padsFree s)), (1, 1, b2n k.probe.isSome), (4, 4, k.probe.getD 0), (8, 8, k.emptyFrames)])
  else if o = 2 then some k.frames
  else if o = 0x22 then
    some (mkW [(0, 16, bitsN 16 (fun c => (nth k.cols c {}).state == 1)), (16, 16, bitsN 16 (fun c => (nth k.cols c {}).state == 2))])
  else if o = 0x23 then some k.probes
  else if 0x30 ≤ o ∧ o < 0x40 then
    let c := nth k.cols (o - 0x30) {}
    some (mkW [(0, 12, c.leak), (12, 1, b2n c.stale), (13, 1, b2n c.saturated), (14, 2, c.state), (16, 12, unsgn 12 c.common)])
  else if 0x68 ≤ o ∧ o < 0x6D then
    some (mkW [(0, 32, bitsN 32 (fun j => let q := keyOf s (32 * (o - 0x68) + j); q.st == .down || q.st == .releasePending))])
  else if 0x6D ≤ o ∧ o < 0x72 then some (mkW [(0, 32, bitsN 32 (fun j => (keyOf s (32 * (o - 0x6D) + j)).masked))])
  else if o = 0x79 then
    some (mkW [(0, 1, b2n (keyLocked s)), (4, 3, k.mtch.step), (7, 1, b2n k.mtch.idle), (8, 8, k.fails), (16, 8, k.unlocks)])
  else if 0x90 ≤ o ∧ o < 0x9C then
    let e := nth k.encs ((o - 0x90) / 4) {}
    if o % 4 = 1 then some (mkW [(0, 16, e.count.toNat), (16, 16, e.errors)])
    else if o % 4 = 2 then some (mkW [(0, 16, unsgn 16 e.vel)])
    else none
  else if 0xA0 ≤ o ∧ o < 0xB0 then
    match (nth k.fifos p {}).entries[(o - 0xA0) / 4]? with
    | some e => some (match o % 4 with | 0 => e.1 | 1 => e.2.1 | 2 => e.2.2.1 | _ => e.2.2.2)
    | none => some 0
  else if o = 0xB0 then
    let q := nth k.fifos p {}
    some (mkW [(0, 7, q.entries.length), (8, 8, q.nextSeq.toNat)])
  else if o = 0xB4 then some (mkW ((upto 4).map (fun q => (8 * q, 8, (nth k.fifos q {}).drops))))
  else if o = 0xFE then some (courseWord s 2)
  else if o = 0xFF then some (mkW [(0, 8, k.suspended.toNat), (8, 1, b2n (keyLocked s)), (12, 2, k.src)])
  else none

/-- EPD_STATUS.STATE (09 Table 9-8). -/
def epdState (s : State) : Nat :=
  match s.core.epd.run with
  | none => b2n (epdHeldStart s)
  | some u => match u.phase with
    | .up1 | .up2 | .up3 | .up4 => 2
    | .frames => 3
    | _ => 4

/-- EPD (09 Table 9-8, 10 Table 10-8). -/
def epdLive (s : State) (o : Nat) : Option Word :=
  let e := s.core.epd
  let x := s.core.pix
  if o = 0x29 then
    let u := e.run
    some (mkW [(0, 3, epdState s), (4, 4, e.queued.toNat), (8, 4, e.qfull.toNat), (12, 4, (u.map (fun r => r.subject)).getD 0),
      (16, 1, b2n ((u.map (fun r => r.toggle)).getD false)), (20, 12, (u.map (fun r => r.done)).getD 0)])
  else if o = 0x2A then
    let on := match e.run with
      | some u => (match u.phase with
        | .up4 | .frames => (u.vcom, u.drive)
        | .up2 | .up3 | .down1 | .down2 => (0, u.drive)
        | _ => (0, 0))
      | none => (0, 0)
    some (mkW [(0, 5, (railGood s).toNat), (8, 3, e.lastFault), (16, 8, on.1), (24, 8, on.2)])
  else if o = 0x2B then some (mkW [(0, 16, e.lastSeq)])
  else if o = 0x2C then some (mkW [(0, 8, e.railFaults), (8, 8, e.tempRefused), (16, 8, e.absorbed), (24, 8, e.discarded)])
  else if o = 0x2D then some (mkW [(0, 8, e.refused), (8, 8, e.clamped), (16, 8, e.fallback)])
  else if 0x30 ≤ o ∧ o < 0x40 then some (nth (nth e.recs ((o - 0x30) / 4) []) (o % 4) 0)
  else if 0x40 ≤ o ∧ o < 0x44 then some (nth e.lastRec (o - 0x40) 0)
  else if o = 0x55 then
    some (mkW [(0, 1, b2n x.tableOk), (1, 1, b2n x.validating), (2, 1, b2n x.changed), (4, 3, x.reason), (8, 3, x.inks),
      (12, 4, x.bands), (16, 16, x.tableId)])
  else if o = 0x56 then some (mkW [(0, 20, x.tableLen)])
  else if o = 0x57 then some (mkW [(0, 8, x.wfEcc), (8, 8, x.secdedLost), (16, 16, x.sats)])
  else if 0x60 ≤ o ∧ o < 0x80 ∧ o % 4 = 3 then
    let b := nth x.blinks ((o - 0x60) / 4) {}
    some (mkW [(0, 1, b2n b.showingAlt), (1, 1, b2n b.pending), (8, 8, b.late), (16, 16, b.toggles.toNat)])
  else if o = 0xFE then some (courseWord s 3)
  else if o = 0xFF then
    let hv := match e.run with
      | some u => u.phase != .down4
      | none => false
    some (mkW [(0, 1, b2n e.run.isSome), (1, 1, b2n hv), (2, 1, b2n (epdHeldStart s))])
  else none

/-- EFL (11 Table 11-11). -/
def eflLive (s : State) (o : Nat) : Option Word :=
  let e := s.core.efl
  let bank := fun b => nth e.banks b {}
  if o = 1 then
    some (mkW [(0, 1, b2n (!bankIdle s 0)), (1, 1, b2n (!bankIdle s 1)), (4, 4, ((bank 0).chan).getD 15),
      (8, 4, ((bank 1).chan).getD 15), (12, 1, b2n (eflHeld s)), (13, 1, b2n (e.banks.any (fun b => b.suspended)))])
  else if o = 2 then some (mkW [(0, 8, e.warnRows), (8, 8, e.uncorrRows), (16, 8, e.programFails), (24, 8, e.eraseFails)])
  else if o = 3 then some (mkW [(0, 16, e.suspends), (16, 8, e.tornRows), (24, 8, e.guardFails)])
  else if o = 8 then
    some (mkW [(0, 2, e.bootSource), (4, 4, e.reasonA), (8, 4, e.reasonB), (12, 1, b2n e.locked), (13, 1, b2n e.layoutOk)])
  else if o = 9 then some (BitVec.ofNat 32 e.gen)
  else if o = 0xA then some e.applied
  else if o = 0xB then some e.rejected
  else if 0x10 ≤ o ∧ o < 0x18 then
    let r := nth e.sfrs (o - 0x10) (0, 0)
    some (mkW [(0, 10, r.1), (16, 10, r.2)])
  else if o = 0x18 then some (mkW [(0, 10, e.log.base), (16, 7, e.log.span)])
  else if o = 0x19 then some (mkW [(0, 8, e.log.gap), (8, 8, e.log.start), (16, 3, e.log.state), (24, 8, e.log.erases)])
  else if o = 0x1A then some (BitVec.ofNat 32 e.log.seq)
  else if o = 0x1B then some (mkW [(0, 8, e.log.dropped), (8, 8, e.log.recoveries), (16, 8, e.log.fails)])
  else if 0x20 ≤ o ∧ o < 0x70 then
    let c := nth e.chans ((o - 0x20) / 8) {}
    match o % 8 with
    | 2 => some (mkW [(0, 2, c.state), (4, 4, c.op), (8, 4, c.result), (12, 1, b2n c.warn), (13, 1, b2n c.torn),
        (14, 1, b2n c.reduced), (16, 16, c.course)])
    | 3 => some c.rep0
    | 4 => some c.rep1
    | _ => none
  else if o = 0xFE then some (courseWord s 6)
  else if o = 0xFF then
    some (mkW [(0, 1, b2n (courseDue s 6 && !bit s.core.course.eflTaken 0)), (1, 1, b2n (courseDue s 6 && !bit s.core.course.eflTaken 1))])
  else none

/-- The virtual address that NFC_LADDER_SEL names; entries above 24 are reserved (12 R351). -/
def ladderSel (s : State) : Option Nat :=
  if uf s 0x1808 8 5 < 25 then some (ladderAddr (uf s 0x1808 0 2) (uf s 0x1808 8 5) (uf s 0x1808 16 1)) else none

/-- The virtual address that NFC_BBT_SEL names. -/
def bbtSel (s : State) : Nat := bbtAddr (uf s 0x180C 0 4) (uf s 0x180C 8 7)

/-- LUNk_STATE.STATE: DISABLED where EN is 0 (12 Table 12-12). -/
def lunState (s : State) (l : Nat) : Nat := if lunEn s l then (lunOf s l).state else 6

/-- NFC global block (12 Table 12-10, 13 Table 13-11). -/
def nfcLive (s : State) (p o : Nat) : Option Word :=
  let n := s.core.nfc
  let w := nth n.wins p {}
  let ready := bitsN 16 (fun l => lunState s l == 2)
  if o = 1 then
    some (mkW [(0, 4, bitsN 4 (fun c => (upto 4).any (fun k => lunState s (4 * c + k) == 2))),
      (4, 4, bitsN 4 (fun c => (nth n.chans c {}).fault)), (8, 1, b2n (nwpLow s)), (9, 1, b2n (reduced s)), (16, 16, ready)])
  else if o = 3 then some (mkW ((upto 4).map (fun i => (8 * i, 8, nth n.counts i 0))))
  else if o = 9 then
    some (match ladderSel s with
    | some a => (match (upto 16).find? (fun l => lunLadder s l == uf s 0x1808 0 2) with
      | some l => lw s l a
      | none => rd s a)
    | none => 0)
  else if o = 0xD then some (rd s (bbtSel s))
  else if o = 0xE then
    some (mkW [(0, 8, ((upto 128).filter (fun e => rd s (bbtAddr (uf s 0x180C 0 4) e) != 0xFFFFFFFF)).length)])
  else if 0x40 ≤ o ∧ o < 0x44 then some (mkW ((upto 4).map (fun j => (8 * j, 8, nth n.nsWarn (4 * (o - 0x40) + j) 0))))
  else if 0x58 ≤ o ∧ o < 0x60 then some (nth w.subW (o - 0x58) 0)
  else if o = 0x61 then some (mkW [(0, 4, w.result), (8, 8, w.submits), (16, 10, w.slot)])
  else if o = 0x62 then
    let ended := (n.ended.filter (fun k => match flightOf s k with
      | some f => f.issuer.val == p
      | none => false)).length
    some (mkW [(0, 8, w.head), (8, 9, w.count), (17, 1, b2n w.phase), (18, 11, ended)])
  else if o = 0x64 then some w.slotSel
  else if o = 0x65 then
    some (match flightOf s (fld w.slotSel 0 10) with
    | some f => if f.issuer.val = p then mkW [(0, 3, f.st), (4, 4, fOp f), (8, 4, fLun f), (16, 16, d16 f.desc 2)] else 0
    | none => 0)
  else if o = 0x66 then some w.qsel
  else if o = 0x67 then some (mkW ((upto 4).map (fun q => (8 * q, 7, entriesOf s (fld w.qsel 0 4) q))))
  else if o = 0x68 then some (mkW ((upto 4).map (fun q => (8 * q, 8, unsgn 8 (nth (lunOf s (fld w.qsel 0 4)).cnt q 0)))))
  else if o = 0x69 then some (mkW ((upto 4).map (fun q => (8 * q, 8, (nth n.wins q {}).discards))))
  else if o = 0xFE then some (courseWord s 5)
  else if o = 0xFF then some (mkW [(0, 16, bitsN 16 (fun l => (lunOf s l).pending))])
  else none

/-- NFC channel sub-block (12 Table 12-12). -/
def nfcChLive (s : State) (c o : Nat) : Option Word :=
  let x := chanOf s c
  if o = 1 then
    some (mkW [(0, 2, x.vccq), (2, 1, b2n x.fault), (3, 1, b2n x.fallback), (4, 1, b2n x.iface), (5, 3, x.mode), (8, 1, b2n x.iface)])
  else if o = 2 then some (mkW [(0, 8, x.faults), (8, 8, x.fallbacks), (16, 8, x.resets), (24, 8, x.timeouts)])
  else if 8 ≤ o ∧ o < 0xC then
    let l := 4 * c + (o - 8)
    some (mkW [(0, 3, lunState s l), (4, 1, b2n (lunOf s l).held), (5, 1, b2n (lunOf s l).pending), (16, 16, (lunOf s l).running)])
  else if 0xC ≤ o ∧ o < 0x10 then some (lunOf s (4 * c + (o - 0xC))).geom0
  else if 0x10 ≤ o ∧ o < 0x14 then some (lunOf s (4 * c + (o - 0x10))).geom1
  else if 0x14 ≤ o ∧ o < 0x18 then some (lunOf s (4 * c + (o - 0x14))).ident
  else if o = 0xFE then
    some (mkW [(0, 16, x.running), (16, 1, b2n ((upto 4).any (fun k => (lunOf s (4 * c + k)).pending)))])
  else if o = 0xFF then some (mkW [(0, 4, bitsN 4 (fun k => lunState s (4 * c + k) == 2))])
  else none

/-- CVU (14 Table 14-5). -/
def cvuLive (s : State) (o : Nat) : Option Word :=
  if o < 0x40 then
    let q := cvuOf s (o / 16)
    match o % 16 with
    | 9 => some q.result
    | 10 => some (mkW [(0, 2, q.st), (4, 4, q.code), (8, 1, b2n q.mismatch), (9, 1, b2n q.aliveErr), (10, 1, b2n q.unwritten),
        (11, 1, b2n q.first), (12, 4, q.lastCtr), (16, 8, q.mismatches), (24, 8, q.finishes)])
    | _ => none
  else if o = 0xFF then
    some (mkW [(0, 4, bitsN 4 (fun u => (cvuOf s u).st == 2)), (4, 4, bitsN 4 (fun u => (cvuOf s u).st == 1)),
      (8, 4, bitsN 4 (fun u => (cvuOf s u).parity))])
  else none

/-- GNG (15 Table 15-6). BUSY is 1 between a lost arbitration and the end of the frame that won it: every other frame takes
one instant. -/
def gngLive (s : State) (o : Nat) : Option Word :=
  let g := s.core.gng
  if o = 2 then
    some (mkW [(0, 3, g.state), (4, 2, selfId s), (6, 2, g.keystone.getD 0), (8, 1, b2n g.keystone.isSome), (9, 3, if gngEn s then effVote s else 0),
      (12, 4, bitsN 4 (fun m => memStatus s m == 1)), (16, 4, bitsN 4 (fun m => memStatus s m == 2)), (20, 2, g.mmMember),
      (24, 3, g.mmField), (27, 1, b2n (voteForced s))])
  else if o = 3 then some g.digest
  else if o = 4 then some (mkW [(0, 16, g.steps), (16, 8, g.jumps)])
  else if o = 5 then some g.lastStep
  else if o = 6 then some (mkW [(0, 16, g.tx), (16, 16, g.rx)])
  else if o = 7 then some (mkW [(0, 8, g.crcErr), (8, 8, g.arbLoss), (16, 8, g.losses), (24, 8, g.busStuck)])
  else if o = 8 then some (mkW [(0, 8, g.fwdDrops), (8, 8, g.dupSeen)])
  else if 0x10 ≤ o ∧ o < 0x14 then
    let m := o - 0x10
    let q := nth g.mems m {}
    some (mkW [(0, 2, memStatus s m), (2, 1, b2n (m == selfId s)), (4, 3, q.vote), (7, 1, b2n q.rpg), (8, 8, q.stepping.toNat),
      (16, 8, q.format.toNat), (24, 4, q.members.toNat)])
  else if 0x14 ≤ o ∧ o < 0x18 then some (nth g.mems (o - 0x14) {}).digest
  else if 0x18 ≤ o ∧ o < 0x1C then some (nth g.mems (o - 0x18) {}).seen
  else if o = 0xFE then some (courseWord s 7)
  else if o = 0xFF then some (mkW [(0, 1, b2n g.busy), (1, 1, b2n (gangNext s).isSome)])
  else none

/-- The value of a primary register as partition p reads it, hiding aside (16 R429). -/
def regValue (s : State) (p a : Nat) : Word :=
  let o := a % 0x200
  let v := match a / 0x200 with
    | 0 => devLive s p o | 1 => partLive s o | 2 => portLive s o | 3 => mbxLive s o | 4 => irqLive s o | 5 => pwrLive s o
    | 6 => seqLive s o | 7 => thmLive s o | 8 => flwLive s o | 9 => keyLive s p o | 10 => epdLive s o | 11 => eflLive s o
    | 12 => nfcLive s p o | 13 => nfcChLive s 0 o | 14 => nfcChLive s 1 o | 15 => nfcChLive s 2 o | 16 => nfcChLive s 3 o
    | 17 => cvuLive s o | 18 => gngLive s o
    | _ => none
  v.getD (stored s a)

/-- The value of any word as partition p reads it, hiding aside: primary, staged image or capo bank. -/
def wordValue (s : State) (p a : Nat) : Word :=
  if 0x2600 ≤ a then 0
  else if a % 0x200 < 0x100 then (if (primReg a).isSome then regValue s p a else 0)
  else if isStaged a then
    (if a = 0x1909 then (match ladderSel s with
      | some v => rd s (stagedOf v)
      | none => 0)
     else if a = 0x190D then rd s (stagedOf (bbtSel s))
     else if (stagedReg a).isSome then rd s a else 0)
  else sget (fun _ => 0) s.core.capo.bank a

/-- Bits of KEY_DOWN, KEY_MASKED and the capo copies of KEY_DOWN that belong to groups hidden from p (08 R247). -/
def keyHidden (s : State) (p a : Nat) : Word :=
  let i := if 0x1268 ≤ a ∧ a < 0x126D then some (a - 0x1268)
    else if 0x126D ≤ a ∧ a < 0x1272 then some (a - 0x126D)
    else if 0x13C4 ≤ a ∧ a < 0x13C9 then some (a - 0x13C4) else none
  match i with
  | some i => BitVec.ofNat 32 (bitsN 32 (fun j => hidden s p (.key (keyGroup s (32 * i + j)))))
  | none => 0

/-- The resource that a field concerns is hidden from p. -/
def fieldHidden (s : State) (p : Nat) (f : FieldS) : Bool :=
  match f.conc with
  | some r => hidden s p r
  | none => false

/-- A read of the word by p is refused: its fields all concern one resource, which is hidden (04 R106). -/
def readHidden (s : State) (p a : Nat) : Bool :=
  match regAt a with
  | some r => (match r.fs with
    | f :: rest => fieldHidden s p f && rest.all (fun g => g.conc == f.conc)
    | [] => false)
  | none => false

/-- The word shows EPD_LASTREC, or its capo copy, while that holds a record of a region hidden from p (09 Edges). -/
def lastRecHidden (s : State) (p a : Nat) : Bool :=
  let of := fun (w : Word) => hidden s p (if bit w 19 then .blink (fld w 20 4) else .panel (fld w 20 4))
  if 0x1440 ≤ a ∧ a < 0x1444 then of (nth s.core.epd.lastRec 1 0)
  else if 0x15C6 ≤ a ∧ a < 0x15CA then of (sget (fun _ => 0) s.core.capo.bank 0x15C7)
  else false

/-- What a read of a word returns to p: fields of hidden resources and WO fields read 0 (04 R106, 00 R16). -/
def readWord (s : State) (p a : Nat) : Word :=
  match regAt a with
  | some r =>
    let m := fsMask (r.fs.filter (fun f => f.acc != .wo && !fieldHidden s p f))
    if lastRecHidden s p a then 0 else wordValue s p a &&& m &&& ~~~(keyHidden s p a)
  | none => 0

/-- The word fails parity as its owner reads it (02 Table 2-5): windows onto entries stand for the entry. -/
def wordBad (s : State) (a : Nat) : Bool :=
  if a = 0x1809 then (match ladderSel s with
    | some v => badW s v
    | none => false)
  else if a = 0x180D then badW s (bbtSel s)
  else badW s a

/-- Signals to host n (02 R73, R74): HIRQ asserted, HRST asserted. -/
def hirq (s : State) (n : Nat) : Bool := coreUp s && (nth s.core.irq n {}).summary
/-- HRST of port n is asserted (02 R74). -/
def hrst (s : State) (n : Nat) : Bool :=
  match (nth s.core.ports n {}).hrstEnd with
  | some _ => coreUp s
  | none => false

end Sys2Proof.Machine
end

