-- ==== Sys2Proof/Machine/Settle.lean ====
section
/-! DEFINITION. The end of every instant: the capo that its triggers take, what the gang link owes, the interrupt
summaries, DOZE (03 R77, R94-R98, 04 R118, R119, 05 R135, 15 R425). -/

namespace Sys2Proof.Machine

/-- The bit of the course mask for a block number, if the block runs courses. -/
def blockCourse (blk : Nat) : Option Nat := courseBlock (0x200 * blk)

/-- RUNNING, TARGET and PENDING that block blk stamps (03 Table 3-6): TARGET is the number of the pending course, whether or
not the block still waits for it (03 Edges). -/
def stampCourse (s : State) (blk : Nat) : Nat × Nat × Bool :=
  match blockCourse blk with
  | none => (0, 0, false)
  | some b =>
    let run := if 13 ≤ blk ∧ blk ≤ 16 then (chanOf s (blk - 13)).running else nth s.core.course.running b 0
    let pend := if 13 ≤ blk ∧ blk ≤ 16 then (upto 4).any (fun k => (lunOf s (4 * (blk - 13) + k)).pending) else courseDue s b
    (run, if s.core.course.state = 1 then s.core.course.number else 0, pend)

/-- The stamp and copies of one block's bank at a capo of a sequence number and source mask (03 R94, Table 3-6). The copies
of IRQ_PEND hold the pending bits before the source of the capo itself is raised (DESIGN CHOICE, notes/assumptions/27.md). -/
def capoBlock (s : State) (num : Nat) (src : BitVec 4) (blk : Nat) : List (Nat × Word) :=
  let base := 0x200 * blk
  let c := stampCourse s blk
  let stampWords := [mkW [(0, 16, num), (16, 16, c.1)], BitVec.ofNat 32 (stamp s),
    mkW [(0, 16, stamp s / 4294967296), (16, 4, src.toNat), (20, 1, 1)], mkW [(0, 16, c.2.1), (16, 1, b2n c.2.2)]]
  let ws := stampWords ++ (capoCopies blk).map (regValue s 0)
  (ws.zipIdx.map (fun e => (base + 0x1C0 + e.2, e.1))).filter (fun e => e.2 != 0)

/-- Every block's bank. -/
def capoBanks (s : State) (num : Nat) (src : BitVec 4) : List (Nat × Word) :=
  ((upto 19).map (capoBlock s num src)).flatten

/-- A capo is taken in this instant: a trigger while no bank is held (03 R98). -/
def capoTakes (s : State) : Bool := s.core.capo.trig != 0 && !s.core.capo.held

/-- The capo record after the triggers of this instant (03 R94-R98). -/
def capoAfter (s : State) : CapoSt :=
  let c := s.core.capo
  let cfg := used s 0x53
  if c.trig = 0 then c
  else if c.held then { c with trig := 0, missed := sat 255 (c.missed + 1), missedSrc := c.missedSrc ||| c.trig }
  else { c with
    trig := 0
    seq := c.seq + 1
    held := bit cfg 7
    driving := c.driving || (bit cfg 5 && c.trig != 2)
    pinReset := c.pinReset && !(bit cfg 5 && c.trig != 2)
    bank := capoBanks s (c.seq + 1).toNat c.trig }

/-- What the interrupt controller makes of its pending bits at the end of an instant (04 R118, R119). The events of the
instant: active sources whose condition occurred in it, pending already or not (04 worked example, step 5), and sources
that became active by their enable bit. -/
def irqAfter (t : Nat) (q : IrqSt) : IrqSt :=
  let act := q.pend &&& q.en
  let new := act &&& (q.raised ||| ~~~q.prev)
  if act = 0 then { q with raised := 0, prev := 0, lastPend := q.pend, events := 0, first := none, timeUp := false, summary := false }
  else
    let events := sat 255 (q.events + popcnt new)
    let first := if q.first.isNone ∧ new ≠ 0 then some t else q.first
    let late := match first with
      | some t0 => decide (q.time * 10 * 32768 ≤ (t - t0) * 1000000)
      | none => false
    let sum := q.summary || act &&& q.imm != 0 || (decide (1 ≤ events) && (decide (q.count ≤ events) || q.timeUp || late))
    { q with
      raised := 0
      prev := act
      lastPend := q.pend
      events := events
      first := first
      summary := sum
      asserts := if sum && !q.summary then q.asserts + 1 else q.asserts }

/-- The controller of partition p at the end of the instant: its words in force stay as they are. -/
def irqNext (s : State) (p : Nat) (q : IrqSt) : IrqSt :=
  { irqAfter (now s) (irqUsed s p q) with en := q.en, imm := q.imm, count := q.count, time := q.time }

/-- Work that ends DOZE or keeps the device out of it (05 R135). -/
def workPresent (s : State) : Bool :=
  !s.core.nfc.flight.isEmpty || s.core.efl.chans.any (fun q => q.state == 1 || q.state == 2) || s.core.efl.log.phase.isSome
    || s.core.cvu.any (fun q => q.st == 1 || q.st == 2) || s.core.epd.run.isSome

/-- The pending bits with the capo's own source added (04 Table 4-6). -/
def irqWithCapo (s : State) : List IrqSt :=
  if capoTakes s then s.core.irq.map (fun q => q.set 7) else s.core.irq

/-- The ports: SP_ALERT_N may assert again once a further source is pending in P3 (02 R71). -/
def portsAfter (s : State) : List PortSt :=
  let q := nth (irqWithCapo s) 3 {}
  if q.pend &&& ~~~q.lastPend = 0 then s.core.ports else upd s.core.ports 3 (fun p => { p with alertOff := false })

/-- The gang link at the end of an instant (15 R425, Table 15-3). -/
def gngAfter (s : State) : GngSt :=
  (gangSettle s (capoTakes s && bit (used s 0x2400) 1 && s.core.capo.trig != 4)).core.gng

/-- The end of an instant. -/
def settle (s : State) : State :=
  { s with
    freeCtr := s.freeCtr + 1
    core := { s.core with
      capo := capoAfter s
      gng := gngAfter s
      ports := portsAfter s
      irq := (irqWithCapo s).zipIdx.map (fun e => irqNext s e.2 e.1)
      pwr := { s.core.pwr with doze := s.core.pwr.doze && !workPresent s, devrst := false } } }

/-- One command's instant: its effect, and the end of the instant (03 R77; DEDUCED, notes/assumptions/8.md). -/
def instant (f : State → State) (s : State) : Host.Outcome State Fault Refusal := .next (settle (f s))

/-- A command of the core: without effect while the core does not run (01 R36). -/
def whenCore (f : State → State) (s : State) : State := if coreUp s then f s else s

/-- One tick of the always-on oscillator, which an idle step stands for (DESIGN CHOICE, notes/assumptions/2.md). -/
def tickOp (s : State) : State :=
  if s.aon.phase = .dead then s else modA s (fun a => { a with osc := a.osc + 1, tbase := a.tbase + 1 })

end Sys2Proof.Machine
end

