-- ==== Sys2Proof/Machine/PartOps.lean ====
section
/-! DEFINITION. Partitions: re-staging, owner changes, quotas, mailboxes, watchdogs, partition resets (04). -/

namespace Sys2Proof.Machine

/-- Change PART. -/
def modPart (s : State) (f : PartSt → PartSt) : State := modC s (fun c => { c with part := f c.part })

/-- Change a watchdog. -/
def modWdog (s : State) (p : Nat) (f : WdogSt → WdogSt) : State := modPart s (fun q => { q with wdog := upd q.wdog p f })

/-- A watchdog. -/
def wdogOf (s : State) (p : Nat) : WdogSt := nth s.core.part.wdog p {}

/-- Partition p is in reset (04 R125). -/
def inReset (s : State) (p : Nat) : Bool := bit s.core.part.inReset p

/-- The primary words that are listed, staged or in force. -/
def listedWords (s : State) : List Nat := s.core.regs.foldl (fun acc e => insertNat (primOf e.1) acc) []

/-- Staged fields under the mask of each word take their values in force (04 R107, Table 4-7). -/
def restage (s : State) (mask : Nat → Word) : State :=
  (listedWords s).foldl (fun s a =>
    let m := mask a
    if m = 0 then s else setR s (stagedOf a) (blend (rd s (stagedOf a)) (rd s a) m)) s

/-- The resource that a field is owned through, a blink region standing for its panel region. -/
def fieldRes (s : State) (f : FieldS) : Option Res :=
  match f.own with
  | .owner (.blink k) => some (.panel (uf s (0x1462 + 4 * k) 8 2))
  | .owner r => some r
  | _ => none

/-- Owner-held ST fields of resource r in word a. -/
def resMask (s : State) (r : Res) (a : Nat) : Word :=
  match primReg a with
  | some q => fsMask ((stFields q).filter (fun f => fieldRes s f == some r))
  | none => 0

/-- Resource r has moved from partition old to partition new, the owner words holding the new owner already
(04 R107 and the chapters' edges). -/
def resMoved (s : State) (r : Res) (old new : Nat) : State :=
  let s := restage s (resMask s r)
  let s := match r with
    | .ns n => nsMoved s old n
    | .key g => if g < 8 then keyGroupMoved s old g else encRef s (g - 8)
    | .panel q => epdRegionMoved s q
    | .sfr k => eflDiscard s (k + 1) false
    | .cvu u => cvuMoved s u
    | _ => s
  raise (raise s old 14) new 14

/-- The resource numbered i of owner class cls, 0 rails to 6 check units. -/
def classRes (cls i : Nat) : Res :=
  match cls with
  | 0 => .rail i | 1 => .flow i | 2 => .key i | 3 => .panel i | 4 => .ns i | 5 => .sfr i | _ => .cvu i

/-- Number of resources of an owner class. -/
def classSize (cls : Nat) : Nat := nth [10, 6, 11, 4, 16, 8, 4] cls 0

/-- The owner word of a class has changed from old to its present value (04 R107). -/
def ownersMoved (s : State) (cls : Nat) (old : Word) : State :=
  let w := used s (0x210 + cls)
  (upto (classSize cls)).foldl (fun s i =>
    let a := fld old (2 * i) 2
    let b := fld w (2 * i) 2
    if a = b then s else resMoved s (classRes cls i) a b) s

/-- The partition whose quota holds granule g. -/
def quotaOwner (q : List (Nat × Nat)) (g : Nat) : Option Nat :=
  (upto 4).find? (fun p => decide ((nth q p (0, 0)).1 ≤ g ∧ g < (nth q p (0, 0)).1 + (nth q p (0, 0)).2))

/-- The four quotas from their words. -/
def quotasOf (w : Nat → Word) : List (Nat × Nat) := (upto 4).map (fun p => (fld (w p) 0 9, fld (w p) 16 10))

/-- New quotas are acceptable (04 R108): in range, without overlap, moving no granule that a work slot references. -/
def quotasOk (s : State) (old new : List (Nat × Nat)) : Bool :=
  new.all (fun q => decide (q.1 + q.2 ≤ 512)) &&
  (upto 4).all (fun i => (upto 4).all (fun j =>
    let a := nth new i (0, 0)
    let b := nth new j (0, 0)
    i == j || a.2 == 0 || b.2 == 0 || decide (a.1 + a.2 ≤ b.1) || decide (b.1 + b.2 ≤ a.1))) &&
  s.core.nfc.flight.all (fun f => (granulesUsed f.desc).all (fun g => quotaOwner old g == quotaOwner new g))

/-- Quota words written together (04 R108): those accepted, with every granule that changes partition cleared. A written word
passes its parity again (01 R40). -/
def quotaWrite (s : State) (ws : List (Nat × Word)) : State × Bool :=
  let cur := fun p => used s (0x230 + p)
  let new := fun p => match ws.find? (fun e => e.1 == p) with
    | some e => e.2
    | none => cur p
  let qo := quotasOf cur
  let qn := quotasOf new
  let put := fun (s : State) =>
    ws.foldl (fun s e => setR s (0x230 + e.1) e.2) (passes s (fun k => ws.any (fun e => 0x230 + e.1 == k)))
  if qo = qn then (put s, true)
  else if quotasOk s qo qn then
    let s := put s
    ((upto 512).foldl (fun s g => if quotaOwner qo g = quotaOwner qn g then s else granuleClear s g) s, true)
  else (s, false)

/-- A post to mailbox n (04 R115, Table 4-5). -/
def mbxPostOp (s : State) (n : Nat) : State :=
  let m := nth s.core.mbxs n {}
  let a := 0x080000 + 0x200 * n + 0x40 * m.wr
  let bs := bufBytes s a 64
  let rcv := mbxReceiver n
  let code :=
    if inReset s rcv then 5
    else if !bit (used s 0x217) n then 4
    else if 8 ≤ m.held then 3
    else if bufBad s a 64 then 7
    else if 56 < (nth bs 2 0).toNat ∨ nth bs 3 0 ≠ 0 then 6
    else if leNat (bs.drop 60) ≠ crc32c (bs.take 60) then 1
    else if leNat (bs.take 2) ≠ m.next.toNat then 2
    else 0
  let s := if code = 3 ∨ code = 4 ∨ code = 5 then s else bufTouch s a 64
  let upd1 := fun (f : MbxSt → MbxSt) (s : State) => modC s (fun c => { c with mbxs := upd c.mbxs n f })
  if code = 0 then
    let s := upd1 (fun q => { q with wr := (q.wr + 1) % 8, held := q.held + 1, next := q.next + 1, result := 0 }) s
    raise s rcv (if uf s 0x218 (2 * n) 2 = 3 then 12 else 11)
  else
    let s := upd1 (fun q => { q with result := code, refused := sat 65535 (q.refused + 1) }) s
    raise s (mbxSender n) 13

/-- An acknowledge of k messages of mailbox n (04 R116). -/
def mbxAckOp (s : State) (n k : Nat) : State :=
  let m := nth s.core.mbxs n {}
  let f := nmin k m.held
  if f = 0 then s
  else
    let s := modC s (fun c => { c with mbxs := upd c.mbxs n (fun q => { q with rd := (q.rd + f) % 8, held := q.held - f }) })
    raise s (mbxSender n) 13

/-- Mailbox n is emptied by its receiver's reset (04 R116, Table 4-7). -/
def mbxEmpty (s : State) (n : Nat) : State :=
  let m := nth s.core.mbxs n {}
  if m.held = 0 then s
  else
    let s := modC s (fun c => { c with mbxs := upd c.mbxs n (fun q =>
      { q with rd := q.wr, held := 0, discarded := sat 65535 (q.discarded + q.held) }) })
    raise s (mbxSender n) 13

/-- The watchdog of p starts its full timeout, expecting 0x5A, where it is enabled (04 R121, R122). -/
def wdogStart (s : State) (p : Nat) : State :=
  let cfg := used s (0x260 + p)
  modWdog s p (fun w => { w with
    running := bit cfg 0, start := now s, limit := (fld cfg 8 8 + 1) * 8192, warned := false, expectA5 := false, expired := false })

/-- The framing state of a port after its partition's reset (02 R47, R56, Edges): x1 width and TA_CYCLES 96, whatever its
configuration word held. -/
def portReset (s : State) (p : Nat) : State :=
  let s := modC s (fun c => { c with ports := upd c.ports p (fun q => { q with lastStatus := 0x30, lastSeq := 0 }) })
  if p < 3 then setR (passes s (fun k => k == 0x400 + 0x10 * p)) (0x400 + 0x10 * p) 0x6000 else s

/-- A host reset pulse of port n starts, or runs on (02 R74). -/
def hrstPulse (s : State) (n : Nat) : State :=
  let ms := nmax 1 (uf s (0x401 + 0x10 * n) 8 8)
  modC s (fun c => { c with ports := upd c.ports n (fun q => { q with hrstEnd := some (now s + ms * 32768 / 1000) }) })

/-- A reset of partition p starts, or is absorbed (04 R125, Table 4-7; DEDUCED, notes/assumptions/26.md). The stopped watchdog
loses WARNED and expects 0x5A, the kick that acts next (R122; DEDUCED, notes/assumptions/26.md). -/
def partResetStart (s : State) (p cause : Nat) : State :=
  let s := modPart s (fun q => { q with rstCause := upd q.rstCause p (fun _ => cause) })
  if inReset s p then s
  else
    let s := modPart s (fun q => { q with
      inReset := setBit q.inReset p true, rstCount := upd q.rstCount p (fun n => sat 255 (n + 1)) })
    let s := modWdog s p (fun w => { w with running := false, warned := false, expectA5 := false })
    let s := passes s (fun k => decide (0x802 + 64 * p ≤ k ∧ k ≤ 0x806 + 64 * p))
    let s := portReset s p
    let s := restage s (carryMask s p)
    let s := ((upto 12).filter (fun n => mbxReceiver n == p)).foldl mbxEmpty s
    let s := nfcPartReset s p
    let s := eflPartReset s p
    let s := ((upto 4).filter (fun r => ownerN s (.panel r) == p)).foldl epdRegionMoved s
    let s := keyFifoReset s p
    let s := ((upto 4).filter (fun u => ownerN s (.cvu u) == p)).foldl cvuMoved s
    let s := modC s (fun c => { c with
      dev := { c.dev with latches := upd c.dev.latches p (fun _ => 0) }
      irq := upd c.irq p (fun q => { asserts := q.asserts }) })
    if p < 3 ∧ bit (used s (0x270 + p)) 0 then hrstPulse s p else s

/-- The reset of partition p may complete (04 R125). -/
def partResetDue (s : State) (p : Nat) : Bool := inReset s p && !nfcBusyFor s p && !eflBusyFor s p

/-- The reset of partition p completes (04 R125, Table 4-7). -/
def partResetDone (s : State) (p : Nat) : State :=
  if partResetDue s p then
    let s := modPart s (fun q => { q with inReset := setBit q.inReset p false })
    let s := nfcPartDone s p
    let q := quota s p
    let s := (upto q.2).foldl (fun s i => granuleClear s (q.1 + i)) s
    let s := keyPartReset s p
    let s := wdogStart s p
    let s := ((upto 4).filter (fun x => x != p)).foldl (fun s x => raise s x 10) s
    nfcAfter s
  else s

/-- The watchdog of p expires (04 R123). cause: 0 timeout, 1 wrong kick. Without ACT_RESET it restarts at once, and has not
expired since that restart (04 R121, R124). The next kick is 0x5A (04 R122). -/
def wdogExpire (s : State) (p cause : Nat) : State :=
  if (wdogOf s p).running then
    let cfg := used s (0x260 + p)
    let s := modWdog s p (fun w => { w with expiries := sat 255 (w.expiries + 1), wrongKick := decide (cause = 1), expired := true, expectA5 := false })
    let s := capoFault s 20
    let s := if bit cfg 16 then
        modWdog s p (fun w => { w with held := w.held ||| bvOf 6 (fun n => ownerN s (.flow n) == p) })
      else s
    let s := if fld cfg 18 2 = 1 ∨ fld cfg 18 2 = 2 then
        modC s (fun c => { c with seq := { c.seq with acts := c.seq.acts ++ [(fld cfg 18 2, fld cfg 20 2)] } })
      else s
    if bit cfg 17 then nfcAfter (partResetStart s p 3)
    else wdogStart s p
  else s

/-- Half the timeout of the watchdog of p has passed (04 R123). -/
def wdogWarnOp (s : State) (p : Nat) : State :=
  let w := wdogOf s p
  if w.running ∧ w.warned = false then raise (modWdog s p (fun w => { w with warned := true })) p 9 else s

/-- A write of PART_WDOG_KICKp by p: KICK and FLOW_RELEASE (04 R122, R124). -/
def wdogKickOp (s : State) (p : Nat) (v : Word) : State :=
  let k := fld v 0 8
  let w := wdogOf s p
  let good := w.running && k == (if w.expectA5 then 0xA5 else 0x5A)
  let release := bit v 8 && (good || (k == 0 && !w.expired))
  let s := if good then modWdog (wdogStart s p) p (fun q => { q with expectA5 := !w.expectA5 })
    else if k = 0 then s else wdogExpire s p 1
  if release then
    modPart s (fun q => { q with wdog := q.wdog.map (fun x => { x with held := x.held &&& ~~~(bvOf 6 (fun n => ownerN s (.flow n) == p)) }) })
  else s

/-- PART_WDOG_CFGp has been written: setting EN starts the count (04 R121). -/
def wdogCfgWritten (s : State) (p : Nat) (old : Word) : State :=
  if !bit old 0 && bit (used s (0x260 + p)) 0 && !inReset s p then wdogStart s p else s

/-- The bits of a PART_RST write that partition p may not set (04 R125). -/
def rstDenied (s : State) (p : Nat) (v : Word) : Bool :=
  p != 0 && (bitsOf v 4).any (fun t => t != p || !bit (used s (0x270 + p)) 1)

/-- A write of PART_RST.REQ by p (04 R125). -/
def rstWriteOp (s : State) (p : Nat) (v : Word) : State :=
  (bitsOf v 4).foldl (fun s t => partResetStart s t (if p = 0 then 1 else 2)) s

end Sys2Proof.Machine
end

