-- ==== Sys2Proof/Machine/RegWrite.lean ====
section
/-! DEFINITION. Register writes: the words of one frame judged for ownership, then stored by access code, then acting
(00 R16-R20, 02 R54, R60, 04 R101-R105, 16 R433, and the refusals of every chapter). -/

namespace Sys2Proof.Machine

/-- The words that one frame writes, in address order, with the value that each register would take. -/
abbrev Writes := List (Nat × Word)

/-- The fields of one access code. -/
def accMask (r : RegSpec) (t : FieldS → Bool) : Word := fsMask (r.fs.filter t)

/-- The value that WRM gives a register (02 R54): bits of WO and W1C fields count as 0 in the old value. -/
def wrmValue (s : State) (p a : Nat) (m v : Word) : Word :=
  match regAt a with
  | some r => blend (wordValue s p a &&& ~~~(accMask r (fun f => f.acc == .wo || f.acc == .w1c))) v m
  | none => v &&& m

/-- A write of v would change the field, which holds the bits of old (04 R105). -/
def fieldMoves (s : State) (staged : Bool) (f : FieldS) (old v : Word) : Bool :=
  let differs := (old ^^^ v) &&& f.mask != 0
  if f.lk && locked s then false
  else match f.acc with
    | .ro => false
    | .st => staged && differs
    | .rw => differs
    | .wo => v &&& f.mask != 0
    | .w1c => v &&& f.mask != 0

/-- Refusals that a chapter states beside the ownership of fields (02 R75, 03 R95, 04 R125, 06 R168). R75 names the ERRCLR
registers of the host ports only; P3 clears PORT_SP_ERRCLR as they do theirs (DESIGN CHOICE, notes/assumptions/23.md). -/
def specialDenied (s : State) (p a : Nat) (v : Word) : Bool :=
  if a = 0x50 then bit v 0 && !bit (used s 0x53) p
  else if a = 0x274 then rstDenied s p v
  else if a = 0xC80 then offDenied s p (BitVec.ofNat 10 (fld v 16 10))
  else if 0x400 ≤ a ∧ a < 0x440 ∧ a % 16 = 6 then p != 0 && p != (a - 0x400) / 16
  else false

/-- The register holds fields of several resources (04 R105). -/
def severalRes (r : RegSpec) : Bool := r.fs.any (fun f => r.fs.any (fun g => f.conc.isSome && g.conc.isSome && f.conc != g.conc))

/-- A write of v by p is refused (04 R105): by a partition that owns no field of the register, unless it holds fields of
several resources; and otherwise where it would change a field that p does not own. -/
def wordDenied (s : State) (p a : Nat) (v : Word) : Bool :=
  match regAt a with
  | none => false
  | some r =>
    let bad := fun (f : FieldS) => writerOf s p f.own != p
    (!r.fs.isEmpty && r.fs.all bad && !severalRes r)
      || r.fs.any (fun f => bad f && fieldMoves s (isStaged a) f (wordValue s p a) v) || specialDenied s p a v

/-- Keep bits [lo+n-1:lo] of old where b holds; the flag records it. -/
def keepIf (b : Bool) (old : Word) (lo n : Nat) (x : Word × Bool) : Word × Bool :=
  if b then (putFld x.1 lo n (fld old lo n), true) else x

/-- Values that a register's description refuses or limits: the word that is stored, and whether something is MASKED
(03 R88, 04 Table 4-9, 4-10, R110-R112, 05 R130, Table 5-9, 15 R428). -/
def fixWord (s : State) (a : Nat) (old new : Word) : Word × Bool :=
  let whole := fun (bad : Bool) => if bad then (old, true) else (new, false)
  let f := fun lo n => fld new lo n
  if a = 0x43 then
    (if f 0 16 < 100 then (putFld new 0 16 100, true) else if 10000 < f 0 16 then (putFld new 0 16 10000, true) else (new, false))
  else if a = 0x400 ∨ a = 0x410 ∨ a = 0x420 then keepIf (f 0 2 == 3) old 0 2 (new, false)
  else if 0x240 ≤ a ∧ a < 0x244 then
    let g := (upto 4).foldl (fun n q => n + (if 0x240 + q = a then f 0 11 else uf s (0x240 + q) 0 11)) 0
    whole (decide (1024 < g))
  else if a = 0x250 then (upto 4).foldl (fun x p => keepIf (f (4 * p) 4 == 0) old (4 * p) 4 x) (new, false)
  else if a = 0x251 then
    whole ((upto 4).any (fun p => f (8 * p) 7 == 0) || decide (64 < f 0 7 + f 8 7 + f 16 7 + f 24 7))
  else if 0x260 ≤ a ∧ a < 0x264 then
    keepIf (bit old 0 && !bit new 0) old 0 1 (keepIf (f 18 2 == 3) old 18 2 (new, false))
  else if 0x800 ≤ a ∧ a < 0x900 ∧ a % 64 = 6 then keepIf (f 0 8 == 0) old 0 8 (new, false)
  else if a = 0xA02 then
    whole (!(decide (20 ≤ f 0 8 ∧ f 0 8 ≤ 60 ∧ 50 ≤ f 8 8 ∧ f 8 8 ≤ 80 ∧ 30 ≤ f 16 8 ∧ f 16 8 ≤ 80 ∧ 1 ≤ f 24 8 ∧ f 24 8 ≤ 100
      ∧ f 0 8 + 10 ≤ f 8 8 ∧ f 0 8 + 10 ≤ f 16 8)))
  else if a = 0xA03 then keepIf (decide (f 8 8 < 95) || decide (200 < f 8 8)) old 8 8 (new, false)
  else if a = 0xA04 then
    (if f 16 16 < 10 then (putFld new 16 16 10, true) else if 10000 < f 16 16 then (putFld new 16 16 10000, true) else (new, false))
  else if a = 0xA05 then keepIf (f 8 8 == 0) old 8 8 (new, false)
  else if a = 0x2401 then keepIf (f 0 3 != 2 && f 0 3 != 3 && f 0 3 != 4) old 0 3 (new, false)
  else (new, false)

/-- Change the interrupt controller of partition p. -/
def modIrq (s : State) (p : Nat) (f : IrqSt → IrqSt) : State := modC s (fun c => { c with irq := upd c.irq p f })

/-- Store the RW bits of a primary register: new is the register's word with them in place. The written word passes its
parity (01 R40). -/
def storeRw (s : State) (p a : Nat) (m new : Word) : State :=
  let s := if m = 0 then s else passes s (fun k => k == a)
  if m = 0 then s
  else if 0x800 ≤ a ∧ a < 0x900 then
    let t := (a - 0x800) / 64
    match a % 64 with
    | 2 => modIrq s t (fun q => { q with en := putHalf q.en 0 new })
    | 3 => modIrq s t (fun q => { q with en := putHalf q.en 1 new })
    | 4 => modIrq s t (fun q => { q with imm := putHalf q.imm 0 new })
    | 5 => modIrq s t (fun q => { q with imm := putHalf q.imm 1 new })
    | 6 => modIrq s t (fun q => { q with count := fld new 0 8, time := fld new 16 16 })
    | _ => s
  else if 0x1858 ≤ a ∧ a < 0x1860 then modWin s p (fun w => { w with subW := upd w.subW (a - 0x1858) (fun _ => new) })
  else if a = 0x1864 then modWin s p (fun w => { w with slotSel := new })
  else if a = 0x1866 then modWin s p (fun w => { w with qsel := new })
  else setStored s a (blend (stored s a) new m)

/-- Write-1-to-clear: the bits of v clear (00 R16). -/
def clearBits (s : State) (a : Nat) (v : Word) : State :=
  if v = 0 then s
  else if 0x800 ≤ a ∧ a < 0x900 then
    let k := a % 64
    modIrq s ((a - 0x800) / 64) (fun q => { q with pend := putHalf q.pend k (BitVec.ofNat 32 (fld q.pend (32 * k) 32) &&& ~~~v) })
  else if a = 0xA04 then modC s (fun c => { c with pwr := { c.pwr with timedOut := c.pwr.timedOut && !bit v 2 } })
  else if a = 0xA0B then setA s a (ard s a &&& ~~~v)
  else if a = 0xA10 then
    modC s (fun c => { c with pwr := { c.pwr with pllLoss := c.pwr.pllLoss && !bit v 2, x32Fail := c.pwr.x32Fail && !bit v 3 } })
  else if a = 0xA13 then modA s (fun x => { x with cold := x.cold && !bit v 0, refusedSeen := x.refusedSeen && !bit v 1 })
  else if 0x1000 ≤ a ∧ a < 0x1060 then
    let n := (a - 0x1000) / 16
    let s := if bit v 8 then stallCleared s n else s
    modAge s n (fun g => { g with ageing := g.ageing &&& ~~~(BitVec.ofNat 8 (fld v 16 8)) })
  else if 0x2200 ≤ a ∧ a < 0x2240 then
    modU s ((a - 0x2200) / 16) (fun q => { q with
      mismatch := q.mismatch && !bit v 8, aliveErr := q.aliveErr && !bit v 9, unwritten := q.unwritten && !bit v 10 })
  else s

/-- CFG and INIT of a check unit keep their values while the unit is OPEN or RUNNING (14 R404). -/
def cvuHeld (s : State) (a : Nat) : Bool :=
  decide (0x2200 ≤ a ∧ a < 0x2240) && (a % 16 == 3 || a % 16 == 4)
    && ((cvuOf s ((a - 0x2200) / 16)).st == 1 || (cvuOf s ((a - 0x2200) / 16)).st == 2)

/-- The owner has written a failed configuration word of a check unit: BLKSTAT.PARITY clears with the last of them
(14 R405). -/
def cvuRepaired (s : State) (a : Nat) : State :=
  if 0x2200 ≤ a ∧ a < 0x2240 ∧ badW s a then
    let u := (a - 0x2200) / 16
    modU s u (fun q => { q with parity := (upto 6).any (fun k => cvuA u (3 + k) != a && badW s (cvuA u (3 + k))) })
  else s

/-- One word at a primary offset is stored by access code. pre: the state before the frame. -/
def writePrimary (pre s : State) (p a : Nat) (r : RegSpec) (v : Word) : State × Bool :=
  let open1 := p == 0 && !locked pre
  let held := wordValue pre p a
  let rw := accMask r (fun f => f.acc == .rw && (!f.lk || open1))
  let keep := accMask r (fun f => f.acc == .ro || f.acc == .st || (f.lk && !open1))
  let kept := (v ^^^ held) &&& keep != 0
  if 0x230 ≤ a ∧ a < 0x234 then (s, kept)
  else if cvuHeld pre a then (s, true)
  else
    let x := if rw = 0 then (held, false) else fixWord s a held (blend held v rw)
    let s := cvuRepaired s a
    let s := storeRw s p a rw x.1
    (clearBits s a (v &&& accMask r (fun f => f.acc == .w1c)), kept || x.2)

/-- The checks on a staged word of value v, at its primary address (06 R188, 07 R217, 08 R248, 09 R276, 10 R298, 11 R331,
12 R360, R362, 15 R428). -/
def stagedOk (s : State) (a : Nat) (v : Word) : Bool :=
  match courseBlock a with
  | some 4 => seqWordOk s a v
  | some 0 => thmFlwOk s a v
  | some 1 => thmFlwOk s a v
  | some 2 => keyWordOk s a v
  | some 3 => epdWordOk s a v
  | some 6 => eflWordOk v
  | some 5 => nfcWordOk s a v
  | some 7 => gngWordOk s v
  | _ => true

/-- A set reserved bit refuses the whole staged word: in every chapter but for NFC, where only namespace words say so. -/
def reservedRefused (a : Nat) : Bool := !(decide (0x1800 ≤ a ∧ a < 0x2200)) || decide (0x1810 ≤ a ∧ a < 0x1840) || a == 0x1850

/-- One word of a staged image is stored, or refused whole. -/
def writeStaged (pre s : State) (p a : Nat) (r : RegSpec) (v : Word) : State × Bool :=
  let prim := if a = 0x1909 then ladderSel pre else if a = 0x190D then some (bbtSel pre) else some (a - 0x100)
  match prim with
  | none => (s, v != 0)
  | some k =>
    let open1 := p == 0 && !locked pre
    let m := fsMask r.fs
    let old := rd s (stagedOf k)
    let w := accMask r (fun f => (!f.lk || open1) && writerOf pre p f.own == p)
    let kept := (v ^^^ old) &&& accMask r (fun f => f.lk && !open1) != 0
    let new := blend old v w
    if v &&& ~~~m != 0 && reservedRefused (a - 0x100) then (s, true)
    else if new = old then (s, kept)
    else if stagedOk s k new then (setR s (stagedOf k) new, kept)
    else (s, true)

/-- One word of a frame is stored. -/
def writeStore (pre s : State) (p a : Nat) (v : Word) : State × Bool :=
  match regAt a with
  | none => (s, v != 0)
  | some r =>
    if isStaged a then writeStaged pre s p a r v
    else if a % 0x200 < 0x100 then writePrimary pre s p a r v
    else (s, (v ^^^ wordValue pre p a) &&& fsMask r.fs != 0)

/-- The quota words of the frame, judged together (04 R108). -/
def writeQuotas (s : State) (ws : Writes) : State × Bool :=
  let qs := (ws.filter (fun w => decide (0x230 ≤ w.1 ∧ w.1 < 0x234))).map
    (fun w => (w.1 - 0x230, w.2 &&& bitsM [(0, 9), (16, 10)]))
  if qs = [] then (s, false) else let x := quotaWrite s qs; (x.1, !x.2)

/-- The commands of a check unit's frame (14 R399). -/
def writeCvu (s : State) (ws : Writes) (u : Nat) : State × Bool :=
  let at1 := fun k => ws.find? (fun w => w.1 == cvuA u k)
  let feeds := [at1 1, at1 2].filterMap (fun x => x.map (fun w => w.2))
  let ctl := ((at1 0).map (fun w => w.2)).getD 0
  if (at1 0).isSome || !feeds.isEmpty then cvuCtlOp s u ctl feeds else (s, false)

/-- A request of SLEEP (05 R137): one that comes while a request waits changes nothing. -/
def sleepRequestOp (s : State) : State :=
  if s.core.pwr.waiting then s else modC s (fun c => { c with pwr := { c.pwr with waiting := true } })

/-- Clear the error counters of a port (02 Table 2-16). -/
def errclrOp (s : State) (n : Nat) : State :=
  modC s (fun c => { c with ports := upd c.ports n (fun q => { q with errs := List.replicate 8 0 }) })

/-- The capo is released (03 R98). -/
def capoReleaseOp (s : State) : State :=
  modC s (fun c => { c with capo := { c.capo with held := false, missed := 0, missedSrc := 0 } })

/-- The timebase latch of partition p (03 R81). -/
def latchOp (s : State) (p : Nat) : State :=
  modC s (fun c => { c with dev := { c.dev with latches := upd c.dev.latches p (fun _ => s.aon.tbase) } })

/-- CLEAR of PWR_CNTCLR (05 Table 5-10). -/
def pwrCntclrOp (s : State) : State := modA s (fun a => { a with switchovers := 0, warnings := 0, refusals := 0, vddcFaults := 0 })

/-- CLEAR of SEQ_CNTCLR (06 R186). -/
def seqCntclrOp (s : State) : State :=
  modC s (fun c => { c with seq := { c.seq with rails := c.seq.rails.map (fun x => { x with nTimeout := 0, nPin := 0, nMon := 0, nRetry := 0 }) } })

/-- PWR_DEVRST (05 R152): the key, or another value, which is MASKED. -/
def devrstOp (s : State) (v : Word) : State × Bool :=
  if fld v 0 16 = 0x7A5E then (modC s (fun c => { c with pwr := { c.pwr with devrst := true } }), false) else (s, true)

/-- KEY_LOCK_CTL (08 R235). Where a write sets both bits, UNLOCK acts. -/
def lockCtlOp (s : State) (v : Word) : State := if bit v 1 then unlockOp s else if bit v 0 then lockOp s else s

/-- The alarm has been written: a time already passed fires at once (05 Edges). -/
def alarmWritten (s : State) : State := if alarmDue s then alarmFlags s else s

/-- What a written word does beyond its storage; pre: the state before the frame. -/
def writeAct (pre s : State) (p : Part) (a : Nat) (v : Word) : State × Bool :=
  let no := fun (s : State) => (s, false)
  let on := fun (i : Nat) (f : State → State) => (if bit v i then f s else s, false)
  if a = 0x40 then courseCommitOp s p (BitVec.ofNat 8 (fld v 0 8))
  else if a = 0x50 then on 0 (fun s => capoTrigger s 0)
  else if a = 0x52 then on 0 capoReleaseOp
  else if a = 0x62 then on 0 (fun s => latchOp s p.val)
  else if 0x210 ≤ a ∧ a < 0x217 then no (ownersMoved s (a - 0x210) (used pre a))
  else if 0x260 ≤ a ∧ a < 0x264 then no (wdogCfgWritten s (a - 0x260) (used pre a))
  else if 0x264 ≤ a ∧ a < 0x268 then no (wdogKickOp s (a - 0x264) v)
  else if a = 0x274 then no (rstWriteOp s p.val v)
  else if 0x400 ≤ a ∧ a < 0x440 ∧ a % 16 = 6 then on 0 (fun s => errclrOp s ((a - 0x400) / 16))
  else if 0x600 ≤ a ∧ a < 0x630 ∧ a % 4 = 0 then on 0 (fun s => mbxPostOp s ((a - 0x600) / 4))
  else if 0x600 ≤ a ∧ a < 0x630 ∧ a % 4 = 1 then no (mbxAckOp s ((a - 0x600) / 4) (fld v 0 4))
  else if a = 0xA03 then no (advTry s)
  else if a = 0xA04 then on 0 sleepRequestOp
  else if a = 0xA0A ∨ a = 0xA0B then no (alarmWritten s)
  else if a = 0xA15 then on 0 pwrCntclrOp
  else if a = 0xA19 then devrstOp s v
  else if a = 0xC80 then
    let off := BitVec.ofNat 10 (fld v 16 10)
    no (railRequestPush s (BitVec.ofNat 10 (fld v 0 10)) off)
  else if a = 0xC81 then
    let off := groupsRails s (BitVec.ofNat 4 (fld v 8 4))
    no (railRequestPush s (groupsRails s (BitVec.ofNat 4 (fld v 0 4))) off)
  else if a = 0xC85 then on 0 seqCntclrOp
  else if a = 0xE05 then on 0 thmCntclrOp
  else if 0x1060 ≤ a ∧ a < 0x1090 then no (ageWritten s ((a - 0x1060) / 8) (a % 8))
  else if a = 0x10A3 then on 0 flwCntclrOp
  else if a = 0x1203 then on 0 keyCntclrOp
  else if a = 0x1278 then no (lockCtlOp s v)
  else if a = 0x12B1 then no (fifoPopOp s p.val (fld v 0 7))
  else if a = 0x1428 then no (epdRequestOp s (BitVec.ofNat 4 (fld v 0 4)) (BitVec.ofNat 4 (fld v 8 4)))
  else if a = 0x142E then on 0 epdCntclrOp
  else if a = 0x1454 then on 0 (fun s => wfValidateStart s true)
  else if a = 0x1458 then on 0 pixCntclrOp
  else if a = 0x1604 then on 0 eflCntclrOp
  else if 0x1620 ≤ a ∧ a < 0x1670 ∧ a % 8 = 1 then
    let c := (a - 0x1620) / 8
    eflSubmit s p.val c (uf s (a - 1) 0 21) (fld v 0 4) (fld v 8 8) (fld v 16 9)
  else if a = 0x1804 then
    let s := if bit v 0 then nfcCntclrOp s else s
    no (if bit v 1 then nfcWarnclrOp s else s)
  else if a = 0x1860 then on 0 (fun s => submitOp s p.val ((nth s.core.nfc.wins p.val {}).subW.map (fun w => leBytes 4 w.toNat)).flatten)
  else if a = 0x1863 then no (ringPopOp s p.val (fld v 0 9))
  else if a = 0x2401 then no (voteWritten pre s)
  else if a = 0x2409 then on 0 gngCntclrOp
  else no s

/-- Apply f to each written word in address order, and join the flags. -/
def eachWord (ws : Writes) (x : State × Bool) (f : State → Nat → Word → State × Bool) : State × Bool :=
  ws.foldl (fun x w => let y := f x.1 w.1 w.2; (y.1, x.2 || y.2)) x

/-- The frame may have unblocked NAND work: it wrote PART, the NFC windows, or HOLD_NVM (05 R149). -/
def touchesNfc (ws : Writes) : Bool :=
  ws.any (fun w => decide (0x200 ≤ w.1 ∧ w.1 < 0x400) || decide (0x1800 ≤ w.1 ∧ w.1 < 0x1900) || w.1 == 0xA03)

/-- The words of one frame take effect in one instant (03 R79): every field is stored, then what each word asks for is
done, in address order. The flag: something was MASKED. -/
def applyWrites (s : State) (p : Part) (ws : Writes) : State × Bool :=
  let x := eachWord ws (s, false) (fun n a v => writeStore s n p.val a v)
  let q := writeQuotas x.1 ws
  let y := eachWord ws (q.1, x.2 || q.2) (fun n a v => writeAct s n p a v)
  let z := (upto 4).foldl (fun z u => let c := writeCvu z.1 ws u; (c.1, z.2 || c.2)) y
  let m := railMerge s.core.seq.reqs.length z.1
  (if touchesNfc ws then nfcAfter m else m, z.2)

/-- The words of one frame from partition p: the new state and the outcome, 0x20 DENIED, 0x01 MASKED, 0x00 OK. -/
def writeRegs (s : State) (p : Part) (ws : Writes) : State × Nat :=
  if ws.any (fun w => wordDenied s p.val w.1 w.2) then (s, 0x20)
  else
    let x := applyWrites s p ws
    (x.1, if x.2 then 0x01 else 0x00)

end Sys2Proof.Machine
end

