-- ==== Sys2Proof/Machine/Boot.lean ====
section
/-! DEFINITION. The boot course: judging the two copies, and applying the sections of the one in force (11 R325-R328,
06 R183-R185, 07 R214, 08 R246, 15 R417). -/

namespace Sys2Proof.Machine

/-- First byte of boot copy A (0) or B (1) (11 Table 11-2). -/
def bootBase (c : Nat) : Nat := 0x100000 * c

/-- n bytes of a boot copy from an offset; none where a word of them is uncorrectable. -/
def bootRead (s : State) (c off n : Nat) : Option (List Byte) :=
  let r := flashRead s false (bootBase c + off) n
  if r.2 then none else some r.1

/-- n bytes of an image from an offset. -/
def imgBytes (img : List Byte) (off n : Nat) : List Byte := (img.drop off).take n

/-- A little-endian number of an image. -/
def imgNat (img : List Byte) (off n : Nat) : Nat := leNat (imgBytes img off n)

/-- The header check (11 Table 11-8). -/
def bootHeaderOk (h : List Byte) : Bool :=
  imgBytes h 0 5 == [0x42, 0x57, 0x42, 0x43, 0x01]
    && decide (1 ≤ imgNat h 5 1 ∧ imgNat h 5 1 ≤ 32) && decide (imgNat h 6 1 ≤ 1) && imgNat h 7 1 == 0
    && decide (1 ≤ imgNat h 8 4 ∧ imgNat h 8 4 ≤ 0xFFFFFFFE)
    && imgNat h 22 2 == 0x0E09 && (imgNat h 20 2 == 0 || imgNat h 20 2 == 0x00B1) && imgNat h 24 8 == 0

/-- The length check. -/
def bootLengthOk (h : List Byte) : Bool :=
  decide (32 + 8 * imgNat h 5 1 ≤ imgNat h 12 4 ∧ imgNat h 12 4 ≤ 65536) && imgNat h 12 4 % 4 == 0

/-- One section: TYPE, FLAGS, LEN, OFFSET. -/
structure BootSec where
  typ : Nat
  flags : Nat
  len : Nat
  off : Nat

/-- The directory of an image. -/
def bootDir (img : List Byte) : List BootSec :=
  (upto (imgNat img 5 1)).map (fun i =>
    let e := 32 + 8 * i
    { typ := imgNat img e 1, flags := imgNat img (e + 1) 1, len := imgNat img (e + 2) 2, off := imgNat img (e + 4) 4 })

/-- LEN that Table 11-9 gives for types 0x02 to 0x05. -/
def secLen (typ : Nat) : Option Nat :=
  match typ with
  | 2 => some 216 | 3 => some 196 | 4 => some 292 | 5 => some 40
  | _ => none

/-- Two sections overlap. -/
def secsMeet (a b : BootSec) : Bool :=
  decide (0 < a.len) && decide (0 < b.len) && decide (a.off < b.off + b.len) && decide (b.off < a.off + a.len)

/-- The directory check (11 R326). An entry whose FLAGS hold another bit than SHARED fails it (DEDUCED, notes/assumptions/20.md). -/
def bootDirOk (img : List Byte) : Bool :=
  let d := bootDir img
  let n := d.length
  d.all (fun e => e.off % 4 == 0 && e.len % 4 == 0 && decide (32 + 8 * n ≤ e.off) && decide (e.off + e.len ≤ imgNat img 12 4)
    && decide (e.flags ≤ 1) && (match secLen e.typ with
      | some l => e.len == l && (d.filter (fun x => x.typ == e.typ)).length == 1
      | none => true))
  && (upto n).all (fun i => (upto i).all (fun j =>
    match d[i]?, d[j]? with
    | some a, some b => !secsMeet a b
    | _, _ => true))

/-- The image in a copy, where its header and length are sound. -/
def bootImage (s : State) (c : Nat) (h : List Byte) : Option (List Byte) := bootRead s c 0 (imgNat h 12 4)

/-- REASON of a copy, 0 for a valid one, and its image (11 R326, Table 11-11). A check whose bytes are uncorrectable gives 6. -/
def bootJudge (s : State) (c : Nat) : Nat × List Byte :=
  if (rowView s (bootBase c / 256)).status = 1 then (1, [])
  else match bootRead s c 0 32 with
    | none => (6, [])
    | some h =>
      if !bootHeaderOk h then (2, [])
      else if !bootLengthOk h then (3, [])
      else match bootImage s c h with
        | none => (6, [])
        | some img =>
          if crc32c (img.take 16 ++ img.drop 20) ≠ imgNat img 16 4 then (4, [])
          else if !bootDirOk img then (5, [])
          else (0, img)

/-- Write a word to both images (06 R183). -/
def setBoth (s : State) (a : Nat) (v : Word) : State := setR (setR s a v) (stagedOf a) v

/-- Word i of a section. -/
def secWord (bs : List Byte) (off : Nat) : Word := BitVec.ofNat 32 (imgNat bs off 4)

/-- Address and offset of every word of a rail table (06 Table 6-6). -/
def railTable : List (Nat × Nat) :=
  [(0xC83, 4)] ++ ((upto 10).map (fun r => (upto 4).map (fun k => (0xC00 + 8 * r + k, 8 + 16 * r + 4 * k)))).flatten
    ++ ((upto 6).map (fun m => [(0xC60 + 4 * m, 168 + 8 * m), (0xC61 + 4 * m, 172 + 8 * m)])).flatten

/-- Address and offset of every word of a key section (08 Table 8-7). -/
def keyTable : List (Nat × Nat) :=
  [(0x1200, 4)] ++ (upto 8).map (fun g => (0x1208 + g, 8 + 4 * g)) ++ [(0x1210, 40), (0x1220, 44), (0x1221, 48)]
    ++ (upto 40).map (fun i => (0x1240 + i, 52 + 4 * i)) ++ [(0x127A, 212)]
    ++ (upto 16).map (fun i => (0x1280 + i, 216 + 4 * i)) ++ (upto 3).map (fun n => (0x1290 + 4 * n, 280 + 4 * n))

/-- The value a table gives an address. -/
def tableWord (t : List (Nat × Nat)) (bs : List Byte) (a : Nat) : Word :=
  match t.find? (fun e => e.1 == a) with
  | some e => secWord bs e.2
  | none => regReset a

/-- Some word of the table sets a reserved bit. -/
def tableReserved (t : List (Nat × Nat)) (bs : List Byte) : Bool :=
  t.any (fun e => match primReg e.1 with
    | some r => secWord bs e.2 &&& ~~~(fsMask (stFields r)) != 0
    | none => true)

/-- Every word of the table goes to both images. -/
def tableApply (s : State) (t : List (Nat × Nat)) (bs : List Byte) : State :=
  t.foldl (fun s e => setBoth s e.1 (secWord bs e.2)) s

/-- The rail table section (06 R183, R184): the state, and whether the section is accepted. -/
def railSection (s : State) (bs : List Byte) : State × Bool :=
  let reasons := (if bs.take 4 ≠ [1, 10, 6, 0] then [1] else [])
    ++ (if tableReserved railTable bs then [3] else []) ++ seqReasons (selfId s) (tableWord railTable bs)
  match reasons with
  | [] => (modC (tableApply s railTable bs) (fun c => { c with seq := { c.seq with bootSource := 1, bootReason := 0 } }), true)
  | r :: rest => (modC s (fun c => { c with seq := { c.seq with bootSource := 3, bootReason := rest.foldl nmin r } }), false)

/-- The flow baseline section (07 R214). -/
def flowSection (s : State) (bs : List Byte) : State × Bool :=
  if bs.take 4 = [1, 6, 8, 0] then
    let s := (upto 48).foldl (fun s i => setR s (0x1060 + i) (secWord bs (4 + 4 * i))) s
    (modC s (fun c => { c with flw := { c.flw with ageSrc := 1 } }), true)
  else (modC s (fun c => { c with flw := { c.flw with ageSrc := 2 } }), false)

/-- The key section (08 R246). -/
def keySection (s : State) (bs : List Byte) : State × Bool :=
  let t := tableApply s keyTable bs
  let ok := decide (bs.take 4 = [1, 0xA0, 8, 0]) && !tableReserved keyTable bs
    && keyTable.all (fun e => keyWordOk t e.1 (secWord bs e.2))
  if ok then (modK t (fun k => { k with src := 1 }), true) else (modK s (fun k => { k with src := 2 }), false)

/-- One entry of a registers section (11 R328): a WRM from P0, an ST field at its primary offset written to both images;
none where the entry fails. -/
def regEntry (s : State) (bs : List Byte) : Option State :=
  let a := imgNat bs 0 2
  let m := secWord bs 4
  let v := secWord bs 8
  let bad := imgNat bs 2 2 != 0 || a == 0x200 || isStaged a
  match regAt a with
  | none => if bad || v &&& m != 0 then none else some s
  | some r =>
    let new := wrmValue s 0 a m v
    let st := if a % 0x200 < 0x100 then fsMask (stFields r) else 0
    let other := accMask r (fun f => f.acc != .st)
    let wo := accMask r (fun f => f.acc == .wo || f.acc == .w1c)
    if bad || m &&& wo != 0 then none
    else
      let held := wordValue s 0 a
      let x := if other = 0 then (s, 0) else writeRegs s 0 [(a, blend new held st)]
      if x.2 ≠ 0 then none
      else if st = 0 then some x.1
      else
        let sv := new &&& ~~~other
        if wordDenied x.1 0 (a + 0x100) sv then none
        else match stagedReg (a + 0x100) with
          | none => none
          | some q =>
            let y := writeStaged x.1 x.1 0 (a + 0x100) q sv
            if y.2 then none
            else
              let prim := if a = 0x1809 then ladderSel s else if a = 0x180D then some (bbtSel s) else some a
              match prim with
              | some k => some (setR y.1 k (blend (rd y.1 k) sv st))
              | none => none

/-- The entries of a registers section in order, or none of them. -/
def regEntries (s : State) : Nat → List Byte → Option State
  | 0, _ => some s
  | n + 1, bs => match regEntry s (bs.take 12) with
    | some t => regEntries t n (bs.drop 12)
    | none => none

/-- A registers section (11 R327). -/
def regSection (s : State) (bs : List Byte) : State × Bool :=
  if bs.take 4 ≠ [1, 0, 0, 0] ∨ bs.length % 12 ≠ 4 then (s, false)
  else match regEntries s (bs.length / 12) (bs.drop 4) with
    | some t => (t, true)
    | none => (s, false)

/-- The layout section (11 R304, R327). -/
def layoutSection (s : State) (bs : List Byte) : State × Bool := if layoutOk bs then (layoutApply s bs, true) else (s, false)

/-- Section i of the image is applied, rejected or skipped, and recorded (11 R327). -/
def bootSection (s : State) (img : List Byte) (i : Nat) (e : BootSec) : State :=
  let bs := imgBytes img e.off e.len
  let x : Option (State × Bool) := match e.typ with
    | 1 => some (regSection s bs) | 2 => some (railSection s bs) | 3 => some (flowSection s bs)
    | 4 => some (keySection s bs) | 5 => some (layoutSection s bs)
    | _ => none
  match x with
  | none => s
  | some (s, true) => modF s (fun f => { f with applied := setBit f.applied i true })
  | some (s, false) => modF s (fun f => { f with rejected := setBit f.rejected i true })

/-- The digest over the SHARED sections of an image (15 R417). -/
def bootDigest (img : List Byte) : Word :=
  BitVec.ofNat 32 (crc32c (((bootDir img).filter (fun e => e.flags == 1)).map (fun e =>
    BitVec.ofNat 8 e.typ :: leBytes 2 e.len ++ imgBytes img e.off e.len)).flatten)

/-- The image of the boot course is applied: layout first, then the other sections in directory order, then the lock
(11 R327). -/
def bootApply (s : State) (img : List Byte) : State :=
  let d := (bootDir img).zipIdx
  let s := (d.filter (fun e => e.1.typ == 5)).foldl (fun s e => bootSection s img e.2 e.1) s
  let s := (d.filter (fun e => e.1.typ != 5)).foldl (fun s e => bootSection s img e.2 e.1) s
  let s := modF s (fun f => { f with gen := imgNat img 8 4 })
  let s := modC s (fun c => { c with gng := { c.gng with digest := bootDigest img, format := BitVec.ofNat 8 (imgNat img 4 1) } })
  let clean := s.core.efl.rejected == 0 && d.all (fun e => decide (1 ≤ e.1.typ ∧ e.1.typ ≤ 5))
  if imgNat img 6 1 = 1 ∧ clean then setR (modF s (fun f => { f with locked := true })) 0x200 1 else s

/-- Both copies are judged, and the valid one with the higher GENERATION is applied, copy A where both are equal
(11 R326). -/
def bootCourse (s : State) : State :=
  let a := bootJudge s 0
  let b := bootJudge s 1
  let src :=
    if a.1 = 0 ∧ b.1 = 0 then (if imgNat a.2 8 4 < imgNat b.2 8 4 then 2 else 1)
    else if a.1 = 0 then 1 else if b.1 = 0 then 2 else 0
  let s := modF s (fun f => { f with bootSource := src, reasonA := a.1, reasonB := b.1 })
  if src = 1 then bootApply s a.2 else if src = 2 then bootApply s b.2 else s

end Sys2Proof.Machine
end

