-- ==== Sys2Proof/Machine/PwrOps.lean ====
section
/-! DEFINITION. Supplies, the wake sequence, core stops and core start (01 R27, R29, R31, 05 R130-R156, 06 R178-R180,
08 R244, R245). -/

namespace Sys2Proof.Machine

/-- Set the power phase. -/
def setPhase (s : State) (ph : Phase) : State := modA s (fun a => { a with phase := ph })

/-- A wake sequence runs (05 Table 5-4). -/
def waking (s : State) : Bool :=
  [Phase.arm, .vddc, .x24, .pll, .backVddc, .backX24, .backPll, .coreStart].elem s.aon.phase

/-- A wake sequence starts with the causes of PWR_CAUSE.WAKE; those of an abandoned sequence still count (05 R141, R142,
Table 5-4). -/
def startWake (s : State) (causes : BitVec 8) : State :=
  let s := modA s (fun a => { a with phase := .arm, wake := (if s.hold.aborted then a.wake else 0) ||| causes })
  modH s (fun h => { h with
    vddcTries := 0
    x24Tries := 0
    pllTries := 0
    outcome := 0
    armed := false
    coldWake := false
    timerOff := false
    aborted := false
    afterRefusal := false })

/-- Bits of PWR_CAUSE.WAKE: KEY, ENC, TIMER, HCS, GANG, MAIN, restart, COLD (05 Table 5-10). -/
def wakeBit (i : Nat) : BitVec 8 := setBit 0 i true

/-- A level source that wakes at arming: the causes of a closed selected contact, of HCS low and of FIRED (05 R139, 08 R244). -/
def armedLevels (s : State) (w : WakeInputs) : BitVec 8 :=
  let en := aused s 0xA08
  let wk := aused s 0xA09
  let key := bit en 0 && (upto 160).any (fun i =>
    bit w.closed i && bit wk (i / 16) && !bit s.hold.keyExcl (i / 16) && bit wk (16 + i % 16))
  let hcs := (upto 3).any (fun n => bit en (5 + n) && bit w.hcsLow n)
  let timer := bit en 4 && bit (aused s 0xA0B) 17
  bvOf 8 (fun i => (i == 0 && key) || (i == 2 && timer) || (i == 3 && hcs))

/-- The device is in SLEEP with its wake detectors armed; an active level source wakes it at once (05 R139). -/
def sleepArmed (s : State) (w : WakeInputs) : State :=
  let s := modH (setPhase s .sleep) (fun h => { h with armed := true })
  let c := armedLevels s w
  if c = 0 then s else startWake s c

/-- What a core stop leaves: the captured SEN levels, the FSW latch levels, the excluded key rows, the record of the cause,
and a core domain that holds nothing but the responses just sent (05 R147, R151-R153, 06 R178, 08 R244, 11 R319;
DEDUCED, notes/assumptions/11.md). -/
def coreStop (s : State) (code : Nat) : State :=
  let f := aused s 0xA16
  let excl := bvOf 10 (fun r => (upto 16).any (fun c => (keyOf s (16 * r + c)).masked))
  let s := if code = 1 then s else eflInterrupt s
  let s := modH s (fun h => { h with
    senCap := senLevels s
    fsLevels := BitVec.ofNat 4 (fld f (if code = 1 then 8 else 0) 4)
    keyExcl := if code = 1 then excl else 0
    armed := false })
  let s := modA s (fun a => { a with stop := code, phase := .off })
  { s with core := { ports := s.core.ports.map (fun q => { resp := q.resp }) } }

/-- A core stop after which a wake sequence starts at once (05 Table 5-6). -/
def coreRestart (s : State) (code : Nat) : State := startWake (coreStop s code) (wakeBit 6)

/-- The flow failsafe latches take FAULT_LEVEL (05 R147). -/
def faultLevels (s : State) : State := modH s (fun h => { h with fsLevels := BitVec.ofNat 4 (fld (aused s 0xA16) 0 4) })

/-- The warning begins (05 R131). What it holds is contended for no longer (04 R112). -/
def mainWarnOp (s : State) : State :=
  if s.aon.phase = .dead ∨ s.aon.warn then s
  else
    let s := modA s (fun a => { a with warn := true, warnings := sat 255 (a.warnings + 1) })
    if coreUp s then nfcAfter (capoFault (raiseAll s 1) 16) else s

/-- The warning ends without a switch-over (05 R131, R149). -/
def mainWarnEndOp (s : State) : State :=
  if s.aon.warn then
    let s := modA s (fun a => { a with warn := false })
    if coreUp s then nfcAfter (advTry (raiseAll s 2)) else s
  else s

/-- VMAIN falls below SWITCH (05 R132, R138, R145, R147, R150, Edges). -/
def switchOverOp (s : State) : State :=
  if s.aon.phase = .dead ∨ s.aon.mainOk = false then s
  else
    let s := modA s (fun a => { a with
      mainOk := false, srcVbak := a.bakValid, warn := true, holdStart := none, switchovers := sat 255 (a.switchovers + 1),
      warnings := if a.warn then a.warnings else sat 255 (a.warnings + 1) })
    match s.aon.phase with
    | .run => coreStop s 2
    | .sleep => modH (faultLevels (setPhase s .off)) (fun h => { h with armed := false })
    | .refusal => modH (setPhase s .off) (fun h => { h with afterRefusal := true })
    | .off | .dead => s
    | .held => faultLevels (setPhase s .off)
    | _ => modH (faultLevels { setPhase s .off with core := {} }) (fun h => { h with aborted := true })

/-- VMAIN is above SWITCH: AON is fed from it (05 R132). -/
def mainAbove (s : State) : State := modA s (fun a => { a with mainOk := true, srcVbak := false })

/-- VMAIN rises above SWITCH (05 R132). -/
def mainAboveOp (s : State) : State := if s.aon.phase = .dead then s else mainAbove s

/-- VMAIN rises above RETURN: the hold starts (05 R141). -/
def holdStartOp (s : State) : State :=
  if s.aon.phase = .off then modA (mainAbove s) (fun a => { a with holdStart := some a.osc }) else s

/-- VMAIN falls below RETURN: the hold is abandoned (05 R141). -/
def holdBreakOp (s : State) : State := modA s (fun a => { a with holdStart := none })

/-- The return completes (05 R138, R140, R141, R145, Edges). -/
def returnOp (s : State) (w : WakeInputs) : State :=
  if s.aon.phase ≠ .off ∨ s.aon.holdStart = none then s
  else
    let s := modA s (fun a => { a with holdStart := none })
    let en := aused s 0xA08
    let timer := if s.hold.timerOff && bit en 4 then wakeBit 2 else 0
    let restart := if 3 ≤ s.aon.stop then wakeBit 6 else 0
    if s.aon.resetLow then setPhase s .held
    else if s.hold.coldWake then startWake s (wakeBit 7)
    else if s.hold.afterRefusal || s.hold.aborted || s.aon.stop != 1 || bit en 9 then
      startWake s (wakeBit 5 ||| timer ||| restart)
    else sleepArmed (modH s (fun h => { h with timerOff := false })) w

/-- VBAK becomes valid or invalid (05 R132). -/
def backupOp (s : State) (valid : Bool) : State :=
  modA s (fun a => { a with bakValid := valid, srcVbak := !a.mainOk && valid && a.phase != .dead })

/-- VAON falls below 1.60 V: all AON state is lost (05 R132). -/
def coldStartOp (s : State) : State :=
  let s := if coreUp s then eflInterrupt s else s
  { s with
    core := {}
    hold := { coldWake := true, vddcTries := 0, x24Tries := 0, pllTries := 0 }
    aon := { phase := .dead, onRc32 := true, mainOk := false, bakValid := s.aon.bakValid, resetLow := s.aon.resetLow, wake := 0, cold := false } }

/-- VAON rises from below 1.60 V: AON state takes its reset values, and the device is in OFF (05 R132, R141, Table 5-7). -/
def powerOnOp (s : State) : State :=
  if s.aon.phase = .dead then
    { s with
      hold := { coldWake := true, vddcTries := 0, x24Tries := 0, pllTries := 0 }
      aon := { phase := .off, onRc32 := true, mainOk := false, srcVbak := s.aon.bakValid, bakValid := s.aon.bakValid,
               resetLow := s.aon.resetLow, warn := true, wake := 0, cold := true } }
  else s

/-- The measurements of VMAIN and VBAK (05 R134): the register holds at most 4,095 and 8,191 mV. -/
def vmeasOp (s : State) (mainMv bakMv : Nat) : State :=
  modC s (fun c => { c with pwr := { c.pwr with vmain := sat 4095 mainMv, vbak := sat 8191 bakMv, measured := true } })

/-- DOZE is entered (05 R135). -/
def dozeOp (s : State) : State :=
  if bit (aused s 0xA05) 0 && !workPresent s then modC s (fun c => { c with pwr := { c.pwr with doze := true } }) else s

/-- The conditions of a SLEEP request all hold (05 R137). -/
def sleepReady (s : State) : Bool :=
  s.core.course.state != 1 && s.core.course.queued.isNone && s.core.nfc.flight.isEmpty
    && !s.core.efl.chans.any (fun q => q.state == 1 || q.state == 2) && s.core.efl.log.phase.isNone
    && s.core.epd.run.isNone && s.core.epd.queued == 0 && !s.core.pix.blinks.any (fun b => b.pending) && !cvuRunning s

/-- The core stops for SLEEP (05 R137-R139). -/
def sleepEntryOp (s : State) (w : WakeInputs) : State :=
  if s.core.pwr.waiting && sleepReady s then
    let s := coreStop s 1
    if s.aon.mainOk then sleepArmed s w else s
  else s

/-- A SLEEP request lapses (05 R137). Where the conditions hold in that very instant, the core stops instead. -/
def sleepTimeoutOp (s : State) : State :=
  if s.core.pwr.waiting && !sleepReady s then
    modC s (fun c => { c with pwr := { c.pwr with waiting := false, timedOut := true } })
  else s

/-- The alarm fires: the timebase has reached PWR_ALARM while ARMED is 1 (05 Table 5-3, R139, R140). -/
def alarmOp (s : State) : State :=
  if s.aon.phase ≠ .dead ∧ alarmDue s then
    let s := alarmFlags s
    if s.aon.phase = .sleep ∧ s.hold.armed ∧ bit (aused s 0xA08) 4 then startWake s (wakeBit 2)
    else if s.aon.phase = .off then modH s (fun h => { h with timerOff := true }) else s
  else s

/-- The source is enabled (05 Table 5-3, 08 R244). -/
def wakeEnabled (s : State) (src : WakeSource) : Bool :=
  let en := aused s 0xA08
  match src with
  | .key r c => bit en 0 && bit (aused s 0xA09) r.val && !bit s.hold.keyExcl r.val && bit (aused s 0xA09) (16 + c.val)
  | .encoder n => bit en (1 + n.val)
  | .hcs n => bit en (5 + n.val)
  | .gang => bit en 8

/-- The wake cause of a source. -/
def wakeCause : WakeSource → BitVec 8
  | .key _ _ => wakeBit 0
  | .encoder _ => wakeBit 1
  | .hcs _ => wakeBit 3
  | .gang => wakeBit 4

/-- A wake source becomes active (05 R139). -/
def wakeEventOp (s : State) (src : WakeSource) : State :=
  if s.aon.phase = .sleep ∧ s.hold.armed ∧ wakeEnabled s src then startWake s (wakeCause src) else s

/-- Arm ends: the straps are latched, and VDDC is attempted (05 Table 5-4). -/
def armEndOp (s : State) (straps : BitVec 2) : State :=
  if s.aon.phase = .arm then modH (setPhase s .vddc) (fun h => { h with straps := straps, vddcTries := 1 }) else s

/-- VDDC is ready. -/
def vddcReadyOp (s : State) : State :=
  if s.aon.phase = .vddc then modH (setPhase s .x24) (fun h => { h with x24Tries := 1 }) else s

/-- X24 is ready. -/
def x24ReadyOp (s : State) : State :=
  if s.aon.phase = .x24 then modH (setPhase s .pll) (fun h => { h with pllTries := 1 }) else s

/-- The PLL locks: core start on the PLL (05 R142, 01 R30). -/
def pllLockOp (s : State) : State :=
  if s.aon.phase = .pll then modH (setPhase s .coreStart) (fun h => { h with outcome := 0 }) else s

/-- Core start on RC48 (05 R143). -/
def startReduced (s : State) (outcome : Nat) : State := modH (setPhase s .coreStart) (fun h => { h with outcome := outcome })

/-- The refusal state (05 R144). -/
def refuseOp (s : State) : State :=
  let s := modH (faultLevels (setPhase s .refusal)) (fun h => { h with outcome := 3, armed := false })
  modA s (fun a => { a with refusedSeen := true, refusals := sat 255 (a.refusals + 1) })

/-- An attempt times out (05 R142-R144). -/
def stepTimeoutOp (s : State) : State :=
  match s.aon.phase with
  | .vddc => if s.hold.vddcTries < 4 then setPhase s .backVddc else refuseOp s
  | .x24 => if s.hold.x24Tries < 4 then setPhase s .backX24 else startReduced s 1
  | .pll => if s.hold.pllTries < 4 then setPhase s .backPll else startReduced s 2
  | _ => s

/-- The back-off ends, and the step is attempted again (05 R142). -/
def backoffEndOp (s : State) : State :=
  match s.aon.phase with
  | .backVddc => modH (setPhase s .vddc) (fun h => { h with vddcTries := h.vddcTries + 1 })
  | .backX24 => modH (setPhase s .x24) (fun h => { h with x24Tries := h.x24Tries + 1 })
  | .backPll => modH (setPhase s .pll) (fun h => { h with pllTries := h.pllTries + 1 })
  | _ => s

/-- RESET_N is asserted (05 R155, Table 5-6, Edges). -/
def resetAssertOp (s : State) : State :=
  let s := modA s (fun a => { a with resetLow := true })
  let code := fun (s : State) => if s.hold.coldWake then s else modA s (fun a => { a with stop := 3 })
  match s.aon.phase with
  | .dead | .held => s
  | .run => setPhase (coreStop s 3) .held
  | .off => modH (code s) (fun h => { h with afterRefusal := false })
  | .sleep | .refusal => modH (setPhase (code s) .held) (fun h => { h with armed := false })
  | _ => modH { setPhase (code s) .held with core := {} } (fun h => { h with aborted := true })

/-- RESET_N is released (05 R155). A wake starts where VMAIN has been above SWITCH; otherwise the device waits for a return. -/
def resetReleaseOp (s : State) : State :=
  let s := modA s (fun a => { a with resetLow := false })
  if s.aon.phase = .held then
    (if s.aon.mainOk then startWake s (if s.hold.coldWake then wakeBit 7 else wakeBit 6) else setPhase s .off)
  else s

/-- VDDC leaves its window while the core runs (05 R151, Edges). -/
def vddcFaultOp (s : State) : State :=
  coreRestart (modA s (fun a => { a with vddcFaults := sat 255 (a.vddcFaults + 1) })) 6

/-- A 16 ms window ends with the edges that X32 gave in it: good from half the expected 524 on (01 R29). -/
def clockWindowOp (s : State) (edges : Nat) : State :=
  let good := decide (524288 ≤ 2 * 1000 * edges)
  if s.aon.phase = .dead then s
  else if s.aon.onRc32 then
    (if good then
      (if 3 ≤ s.aon.goodWins then modA s (fun a => { a with onRc32 := false, goodWins := 0 })
       else modA s (fun a => { a with goodWins := a.goodWins + 1 }))
     else modA s (fun a => { a with goodWins := 0 }))
  else if good then s
  else
    let s := modA s (fun a => { a with onRc32 := true, goodWins := 0 })
    if coreUp s then
      raiseAll (modC s (fun c => { c with pwr := { c.pwr with x32Fail := true, x32Switches := sat 255 (c.pwr.x32Switches + 1) } })) 3
    else s

/-- The PLL loses lock (01 R31). -/
def pllLossOp (s : State) : State :=
  if s.core.pwr.rc48 then s
  else
    let s := modC s (fun c => { c with pwr := { c.pwr with rc48 := true, pllLoss := true, pllLosses := sat 255 (c.pwr.pllLosses + 1) } })
    let s := raiseAll s 3
    nfcAfter ((upto 4).foldl (fun s c => channelFaultOp s c none) s)

/-- The blocks start from the words in force, the sequencer with its first step (05 R146, 04 R121, 06 R179, R180, 07 R211,
08 R245, 10 R284, 11 R309, R322, 15 R419). pre: the state before the boot course, whose PWR_RAIL_HOLD held the rails. Where no copy is in force there is no boot course
to validate after, and EPD_WF_STATUS keeps its reset value (19 Table 19-1; DEDUCED, notes/assumptions/14.md). -/
def blocksStart (pre s : State) (obs : StartObs) : State :=
  let s := if rd s 0x1404 != rd pre 0x1404 || bit (rd s 0x1400) 1 != bit (rd pre 0x1400) 1 then panelCopy s else s
  let s := keyStart (seqStart (senHeld pre) s) obs.encA obs.encB
  let s := (upto 4).foldl wdogStart s
  let s := modF s (fun e => { e with banks := e.banks.map (fun b => { b with cfg := rd s 0x1600 }) })
  let s := logAdopt s
  let s := (upto 48).foldl (fun s i => ageWritten s (i / 8) (i % 8)) s
  let s := modN s (fun n => { n with luns := n.luns.zipIdx.map (fun x => if lunEn s x.2 then x.1 else { x.1 with state := 6 }) })
  let s := (upto 4).foldl (fun s c => bankClassOp s c (nth obs.vccqMv c 0)) s
  let s := modG (hookGng pre s) (fun g => { g with lastVote := effVote s })
  let s := whenS (decide (s.core.efl.bootSource ≠ 0)) s (fun s => wfValidateEnd (wfValidateStart s false))
  seqStep s obs.spg obs.smonUv

/-- Core start (05 R146): the core domain takes its reset values, the boot course is applied, the blocks start, and the
ports are powered with WAKE_DONE raised. -/
def coreStartOp (s : State) (obs : StartObs) : State :=
  if s.aon.phase = .coreStart then
    let s := { s with core := { pwr := { rc48 := decide (s.hold.outcome ≠ 0) } } }
    let s := modH (setPhase s .run) (fun h => { h with keyExcl := 0 })
    let s := blocksStart s (bootCourse s) obs
    let s := vmeasOp s obs.mainMv obs.bakMv
    let s := raiseAll s 0
    if bit s.aon.wake 5 then raiseAll s 2 else s
  else s

/-- The levels of PFAIL_N and WAKE_N, asserted or not (05 R156). -/
def pfailLow (s : State) : Bool := s.aon.phase != .dead && (s.aon.warn || s.aon.phase == .refusal || s.hold.afterRefusal)
/-- WAKE_N is asserted (05 R156). -/
def wakeLow (s : State) : Bool := waking s || s.aon.phase == .refusal || s.hold.afterRefusal

end Sys2Proof.Machine
end

