-- ==== Sys2Proof/Machine/Frames.lean ====
section
/-! DEFINITION. Frames: parsing, the outcome in the order of Table 2-5, bulk accesses, responses, and the counters of a
port (01 R38-R42, R478, R479, 02 R43-R72). -/

namespace Sys2Proof.Machine

/-- The form of an opcode (02 Table 2-3, Table 2-7). -/
structure OpForm where
  /-- Largest LEN. -/
  lenMax : Nat
  /-- The address field is BADDR, of three bytes. -/
  bulk : Bool
  /-- Host bytes after the header for each unit of LEN + 1. -/
  unit : Nat
  /-- A guard word follows. -/
  guard : Bool
  /-- The frame writes. -/
  writes : Bool
  /-- The response carries data. -/
  reads : Bool

/-- The form of each known opcode; PRST is recognised apart (02 R48). -/
def opForm (op : Nat) : Option OpForm :=
  match op with
  | 0x00 => some { lenMax := 0, bulk := false, unit := 0, guard := false, writes := false, reads := false }
  | 0x01 => some { lenMax := 0x3F, bulk := false, unit := 0, guard := false, writes := false, reads := true }
  | 0x02 => some { lenMax := 0x3F, bulk := false, unit := 4, guard := false, writes := true, reads := false }
  | 0x03 => some { lenMax := 0x1F, bulk := false, unit := 8, guard := false, writes := true, reads := false }
  | 0x10 => some { lenMax := 0x3F, bulk := true, unit := 0, guard := false, writes := false, reads := true }
  | 0x11 => some { lenMax := 0x3F, bulk := true, unit := 4, guard := false, writes := true, reads := false }
  | 0x12 => some { lenMax := 0x3F, bulk := true, unit := 4, guard := true, writes := true, reads := false }
  | 0x13 => some { lenMax := 0x3F, bulk := true, unit := 0, guard := true, writes := false, reads := true }
  | _ => none

/-- Bytes of the header. -/
def OpForm.hdrLen (o : OpForm) : Nat := if o.bulk then 6 else 5

/-- Host bytes of the frame with n = LEN + 1, request CRC included (02 Table 2-7). -/
def OpForm.hostLen (o : OpForm) (n : Nat) : Nat := o.hdrLen + o.unit * n + (if o.writes && o.guard then 4 else 0) + 2

/-- Rows of the buffer space (01 Table 1-8): first byte, byte after the last, kind. Kinds: 0 transfer buffer, 1 mailbox
payloads, 2 completion rings, 3 pixels, 4 setup flash window, 5 reserved. -/
def bufRows : List (Nat × Nat × Nat) :=
  [(0x000000, 0x040000, 0), (0x040000, 0x080000, 5), (0x080000, 0x081800, 1), (0x081800, 0x084000, 5),
   (0x084000, 0x088000, 2), (0x088000, 0x100000, 5), (0x100000, 0x196000, 3), (0x196000, 0x200000, 5),
   (0x200000, 0x400000, 4), (0x400000, 0x1000000, 5)]

/-- The kind of the row that holds the whole range, if one row does (02 R55). -/
def bufKind (a n : Nat) : Option Nat := (bufRows.find? (fun r => decide (r.1 ≤ a ∧ a + n ≤ r.2.1))).map (fun r => r.2.2)

/-- The address field and LEN break a limit of RANGE (02 Table 2-5, R55). -/
def rangeBad (o : OpForm) (addr len : Nat) : Bool :=
  let n := 4 * (len + 1)
  decide (o.lenMax < len) ||
  (if o.bulk then
    decide (addr % 4 ≠ 0) || (bufKind addr n).isNone
      || (o.guard && (bufKind addr n != some 0 || decide (addr / 512 ≠ (addr + n - 1) / 512)))
   else (o.writes || o.reads) && decide (0xFFFF < addr + len))

/-- The pixels of a range of the pixel window. -/
def pixelsOf (a n : Nat) : List Nat := (upto (n / 2)).map (fun i => (a - 0x100000) / 2 + i)

/-- Partition p owns the panel region that holds the pixel. -/
def ownsPixel (s : State) (p i : Nat) : Bool :=
  match regionOfPix s i with
  | some r => ownerN s (.panel r) == p
  | none => false

/-- The pixel takes part in the running update or toggle (09 R270, 10 R296). -/
def pixelHeld (s : State) (i : Nat) : Bool :=
  match s.core.epd.run with
  | some u => u.pix.any (fun q => q.idx == i)
  | none => false

/-- The pixel's region writes in gamma mode (10 R280). -/
def pixelGamma (s : State) (i : Nat) : Bool :=
  match regionOfPix s i with
  | some r => bit (used s 0x1453) r
  | none => false

/-- Slots of mailbox n that a range of its payload touches. -/
def slotsOf (a n : Nat) : List Nat := (upto 8).filter (fun k => decide (a % 512 < 64 * k + 64 ∧ 64 * k < a % 512 + n))

/-- Slot k of mailbox n is full. -/
def slotFull (s : State) (n k : Nat) : Bool :=
  let m := nth s.core.mbxs n {}
  decide ((k + 8 - m.rd) % 8 < m.held)

/-- Partition p may read (or write) the part of the mailbox payloads (04 R115, R478). -/
def mbxAllowed (s : State) (p : Nat) (wr : Bool) (a n : Nat) : Bool :=
  let i := (a - 0x080000) / 512
  let j := (a + n - 1 - 0x080000) / 512
  (upto 12).all (fun k =>
    if i ≤ k ∧ k ≤ j then
      let lo := nmax a (0x080000 + 512 * k)
      let hi := nmin (a + n) (0x080000 + 512 * k + 512)
      let sl := slotsOf lo (hi - lo)
      if wr then
        mbxSender k == p && decide ((nth s.core.mbxs k {}).held < 8) && sl.all (fun x => x == (nth s.core.mbxs k {}).wr)
      else mbxSender k == p || (mbxReceiver k == p && sl.all (slotFull s k))
    else true)

/-- A bulk access of partition p is refused (01 R41, R478, 09 R270, 10 R281, R282, R296). -/
def bulkDenied (s : State) (p : Nat) (wr : Bool) (a n : Nat) : Bool :=
  match bufKind a n with
  | some 0 => !(granulesOf a n).all (fun g => inQuota s p g)
  | some 1 => !mbxAllowed s p wr a n
  | some 2 => wr || decide ((a - 0x084000) / 4096 ≠ p) || decide ((a + n - 1 - 0x084000) / 4096 ≠ p)
  | some 3 => wr && (pixelsOf a n).any (fun i =>
      !ownsPixel s p i || pixelHeld s i || (pixelGamma s i && s.core.pix.gamma.isNone))
  | some 4 => wr || flashHidden s p (a - 0x200000) n
  | _ => true

/-- What a read of the buffer space gives: its bytes, or a code in place of them, and UNWRITTEN. -/
structure BulkRead where
  code : Nat
  bytes : List Byte
  unwritten : Bool

/-- Banks that a range of the setup flash touches. -/
def banksOf (a n : Nat) : List Nat := (upto 2).filter (fun b => decide (a < 0x100000 * (b + 1) ∧ 0x100000 * b < a + n))

/-- The bytes of the range, from a partition that may read them (01 R42, R479, 11 R311). -/
def bulkRead (s : State) (a n : Nat) : BulkRead :=
  if bufKind a n = some 4 then
    let off := a - 0x200000
    if (banksOf off n).any (bankWrites s) then { code := 0x23, bytes := [], unwritten := false }
    else
      let x := flashRead s true off n
      { code := if x.2 then 0x25 else 0, bytes := x.1, unwritten := false }
  else
    let clear := fun g => bufKind a n == some 0 && !bit s.core.buf.written g
    let bytes := (bufBytes s a n).zipIdx.map (fun e => if clear ((a + e.2) / 512) then 0 else e.1)
    { code := if bufBad s a n then 0x25 else 0, bytes := bytes
      unwritten := bufKind a n == some 0 && (granulesOf a n).any clear }

/-- A pixel write's words, each by the rule of R280, in ascending order. The store of each reads and corrects its 64-bit word
(01 R479), once an uncorrectable one has been replaced. -/
def pixelWrites (s : State) (a : Nat) (bs : List Byte) : State :=
  let s := pixReplace s (pixelsOf a bs.length)
  (pixelsOf a bs.length).zipIdx.foldl (fun s e =>
    pixWrite s (pixelGamma s e.1) e.1 (leNat ((bs.drop (2 * e.2)).take 2))) s

/-- A bulk write that is allowed: guard as BWG gives it, or none for BWR (02 R55, 01 R42). -/
def bulkWrite (s : State) (a : Nat) (bs : List Byte) (guard : Option Word) : State :=
  match bufKind a bs.length with
  | some 0 =>
    let gs := granulesOf a bs.length
    let s := bufStore s a bs
    modC s (fun c => { c with buf := gs.foldl (fun b g => { b with
      written := setBit b.written g true
      guardOk := setBit b.guardOk g guard.isSome
      guards := sset (fun _ => 0) b.guards g (guard.getD 0) }) c.buf })
  | some 3 => pixelWrites s a bs
  | _ => bufStore s a bs

/-- The counter of a port that an outcome increases (02 Table 2-16). LATE on SP, for which the table names no counter, counts
in ERR1[23:16] as on a host port (DESIGN CHOICE, notes/assumptions/21.md). -/
def errIndex (code : Nat) : Option Nat :=
  match code with
  | 0x10 => some 0 | 0x11 => some 1 | 0x12 => some 2 | 0x14 => some 3 | 0x15 => some 3 | 0x16 => some 3
  | 0x20 => some 4 | 0x01 => some 5 | 0x22 => some 6 | 0x17 => some 6 | 0x23 => some 7 | 0x24 => some 7 | 0x25 => some 7
  | _ => none

/-- A header as the failure capture records it. -/
structure Hdr where
  op : Nat
  seq : Nat
  addr : Nat
  len : Nat
  bulk : Bool

/-- Change a port. -/
def modPort (s : State) (p : Nat) (f : PortSt → PortSt) : State := modC s (fun c => { c with ports := upd c.ports p f })

/-- The capture words of a failed frame (02 Table 2-16). -/
def failWords (h : Hdr) (code bytes : Nat) : Word × Word :=
  (mkW [(0, 8, h.op), (8, 8, h.seq), (16, 16, h.addr)],
   mkW [(0, 8, h.len), (8, 8, code), (16, 8, if h.bulk then h.addr / 65536 else 0), (24, 8, sat 255 bytes)])

/-- A frame has been evaluated with one outcome (02 R59, Table 2-15, Table 2-16): counters, capture, STATUS and PSEQ of
the next response. A port whose partition this frame has put into reset reports NOFRAME. -/
def frameEnd (s : State) (p : Nat) (h : Hdr) (code bytes : Nat) : State :=
  let fail := code != 0 && code != 1
  let s := modPort s p (fun q =>
    { q with
      frames := q.frames + 1
      errs := (match errIndex code with
        | some i => upd q.errs i (fun n => sat 255 (n + 1))
        | none => q.errs)
      failHdr := if fail then (failWords h code bytes).1 else q.failHdr
      failInfo := if fail then (failWords h code bytes).2 else q.failInfo
      lastStatus := if inReset s p then q.lastStatus else BitVec.ofNat 8 code
      lastSeq := if inReset s p then q.lastSeq else BitVec.ofNat 8 h.seq })
  let s := if (errIndex code).isSome then raise s p 8 else s
  if s.core.pwr.devrst then coreRestart s 4 else s

/-- The response of the port (02 R53, R57, R58): the bytes before the check, and the check, XORed when poisoned. On SP a
PEC over the whole transfer follows, over bytes that come after the request CRC too (R68, R69). sent: the host's bytes. -/
def response (s : State) (p : Nat) (seq : Nat) (flags : Nat) (data : List Byte) (valid : Bool) (sent : List Byte) : List Byte :=
  let q := nth s.core.ports p {}
  let body := [q.lastStatus, q.lastSeq, BitVec.ofNat 8 flags] ++ data
  let c := crc16 (BitVec.ofNat 8 p :: BitVec.ofNat 8 seq :: body)
  let out := body ++ (leBytes 2 (if valid then c else c ^^^ 0xFFFF)).reverse
  if p = 3 then
    let a := 2 * (0x58 + selfId s)
    out ++ [BitVec.ofNat 8 (crc8 ([BitVec.ofNat 8 a] ++ sent ++ [BitVec.ofNat 8 (a + 1)] ++ out))]
  else out

/-- RFLAGS.REDUCED (02 Table 2-4). -/
def reducedFlag (s : State) : Nat := if reduced s then 4 else 0

/-- The port as the frame finds it: its width is that of its configuration, its clock mode that of the frame (02 R44,
R47). A frame ends DOZE (05 R135). WIDTH_ACTIVE and MODE keep these values until the port's next frame or PRST
(DESIGN CHOICE, notes/assumptions/28.md). -/
def portBegin (s : State) (p : Nat) (mode3 : Bool) : State :=
  let s := modPort s p (fun q => { q with
    width := if p < 3 then BitVec.ofNat 2 (uf s (0x400 + 0x10 * p) 0 2) else 0
    mode3 := decide (p < 3) && mode3
    resp := []
    acks := [] })
  modC s (fun c => { c with pwr := { c.pwr with doze := false } })

/-- PRST (02 R56). -/
def prstOp (s : State) (p : Nat) : State := portReset s p

/-- The read of a frame: a code in place of its data, the data, and RFLAGS of the data (02 R51-R55, R58). -/
def frameRead (s : State) (p : Nat) (h : Hdr) (o : OpForm) : Nat × List Byte × Nat :=
  let n := h.len + 1
  if o.reads = false then (0, [], 0)
  else if o.bulk then
    if bulkDenied s p false h.addr (4 * n) then (0x20, [], 0)
    else
      let r := bulkRead s h.addr (4 * n)
      let g := h.addr / 512
      let ok := bit s.core.buf.guardOk g
      let word := if ok then sget (fun _ => 0) s.core.buf.guards g else 0
      (r.code, r.bytes ++ (if o.guard then beBytes word else []), b2n r.unwritten + (if o.guard && !ok then 2 else 0))
  else
    let as := (upto n).map (fun i => h.addr + i)
    let code := if as.any (readHidden s p) then 0x20 else if as.any (wordBad s) then 0x24 else 0
    (code, (as.map (fun a => beBytes (readWord s p a))).flatten, 0)

/-- Pairs of mask and value as the writes of a WRM. -/
def wrmWrites (s : State) (p : Nat) : Nat → List Word → Writes
  | a, m :: v :: rest => (a, wrmValue s p a m v) :: wrmWrites s p (a + 1) rest
  | _, _ => []

/-- The registers that a WR or WRM frame writes, from the bytes after its header. -/
def frameWrites (s : State) (p : Nat) (h : Hdr) (body : List Byte) : Writes :=
  if h.op = 0x03 then wrmWrites s p h.addr (beWords body)
  else (beWords body).zipIdx.map (fun e => (h.addr + e.2, e.1))

/-- The effect of a write frame whose checks have passed (02 R54, R55, R59-R62), and its outcome. -/
def frameWrite (s : State) (p : Part) (h : Hdr) (o : OpForm) (body : List Byte) : State × Nat :=
  let n := 4 * (h.len + 1)
  if o.bulk then
    if bulkDenied s p.val true h.addr n then (s, 0x20)
    else
      let guard := if o.guard then some (BitVec.ofNat 32 (beNat (body.drop n))) else none
      (bulkWrite s h.addr (body.take n) guard, 0)
  else writeRegs s p (frameWrites s p.val h body)

/-- The header of a frame. A byte of it that did not arrive is a free value; after an unknown opcode ADDR and LEN are free
too, and SEQ is the second byte where it arrived, though R61 stops interpreting at OP (DESIGN CHOICE,
notes/assumptions/21.md). -/
def frameHdr (s : State) (f : Frame) (o : Option OpForm) : Hdr :=
  let b := fun (i k : Nat) => if i < f.bytes.length then (nth f.bytes i 0).toNat else free s (0x5000 + k) % 256
  let op := b 0 0
  let seq := b 1 1
  match o with
  | none => { op := op, seq := seq, addr := free s 0x5002 % 65536, len := free s 0x5004 % 256, bulk := false }
  | some q =>
    if q.bulk then { op := op, seq := seq, addr := 65536 * b 2 5 + 256 * b 3 2 + b 4 3, len := b 5 4, bulk := true }
    else { op := op, seq := seq, addr := 256 * b 2 2 + b 3 3, len := b 4 4, bulk := false }

/-- Orders 2 to 6 of Table 2-5: what the header alone decides. -/
def headerOutcome (f : Frame) (o : Option OpForm) (h : Hdr) : Option Nat :=
  if f.bytes = [] then some 0x11
  else match o with
    | none => some 0x14
    | some q =>
      if f.bytes.length < q.hdrLen then some 0x11
      else if rangeBad q h.addr h.len then some 0x15
      else if h.op = 0 ∧ h.addr ≠ 0 then some 0x16
      else none

/-- The request CRC matches (02 R57): need is the number of host bytes, the CRC included. -/
def requestCrcOk (f : Frame) (need : Nat) : Bool :=
  crc16 (BitVec.ofNat 8 f.port.val :: f.bytes.take (need - 2)) == beNat ((f.bytes.drop (need - 2)).take 2)

/-- Bytes of the frame's request part: on SP a write frame has a PEC after its request CRC (02 Table 2-11). -/
def requestLen (f : Frame) (o : OpForm) (need : Nat) : Nat := need + b2n (f.port == 3 && o.writes)

/-- The PEC of a write frame on SP, the byte after the request CRC, matches (02 R68). -/
def pecOk (s : State) (f : Frame) (need : Nat) : Bool :=
  match f.bytes[need]? with
  | some b => b.toNat == crc8 (BitVec.ofNat 8 (2 * (0x58 + selfId s)) :: f.bytes.take need)
  | none => false

/-- Orders 7 to 10 of Table 2-5, for a frame whose header is sound. -/
def checkOutcome (s : State) (f : Frame) (o : OpForm) (need : Nat) : Option Nat :=
  let sp := f.port == 3
  if f.bytes.length < requestLen f o need || (sp && f.partialByte) then some 0x11
  else if !requestCrcOk f need then some 0x10
  else if sp && o.writes && !pecOk s f need then some 0x17
  else if f.extra || decide (requestLen f o need < f.bytes.length) then some 0x12
  else none

/-- Whole host bytes of the frame: on SP the PEC is one, the address bytes are none (02 R61, Table 2-16; DESIGN CHOICE,
notes/assumptions/21.md). -/
def hostBytes (f : Frame) : Nat := f.bytes.length

/-- The acknowledge that the device gives on SP to each byte after the address byte, and to the read address of a read frame
whose request part is complete (02 R69). A frame has no operand for a STOP after the request CRC of a read: it stands for one that goes
on to the read address (DESIGN CHOICE, notes/assumptions/21.md). -/
def spAcks (s : State) (f : Frame) : List Bool :=
  let n := f.bytes.length
  let op := (nth f.bytes 0 0).toNat
  let upTo := fun k => (upto n).map (fun i => decide (i < k))
  if op = 0xFF then upTo 1
  else match opForm op with
    | none => upTo 0
    | some o =>
      let h := frameHdr s f (some o)
      let need := o.hostLen (h.len + 1)
      if n < o.hdrLen then upTo n
      else if rangeBad o h.addr h.len then upTo (o.hdrLen - 1)
      else if o.writes then upTo (if requestCrcOk f need && pecOk s f need then need + 1 else need)
      else upTo need ++ (if need ≤ n then [requestCrcOk f need] else [])

/-- The port sends a response: the request is complete, its header is not refused, and on SP the frame is of the read
class with a matching check (02 R53, R61, Table 2-11, R69). -/
def responds (f : Frame) (o : OpForm) (need : Nat) : Bool :=
  decide (need ≤ f.bytes.length) && (f.port != 3 || (!o.writes && requestCrcOk f need))

/-- A frame whose opcode is known and whose header is whole and in range: the response, the outcome, the effect. -/
def frameRun (s : State) (f : Frame) (o : OpForm) (h : Hdr) (pre : Option Nat) : State :=
  let p := f.port
  let need := o.hostLen (h.len + 1)
  let r := frameRead s p.val h o
  let okData := requestCrcOk f need && r.1 == 0 && !f.late
  let data := if o.reads && !okData then List.replicate (4 * (h.len + 1) + (if o.guard then 4 else 0)) 0 else r.2.1
  let resp := response s p.val h.seq ((if okData then r.2.2 else 0) + reducedFlag s) data (!o.reads || okData) f.bytes
  let s := if o.bulk && o.reads && responds f o need && decide (r.1 = 0 ∨ r.1 = 0x25) then bufTouch s h.addr (4 * (h.len + 1)) else s
  let s1 := if responds f o need then modPort s p.val (fun q => { q with resp := resp }) else s
  if inReset s p.val then s1
  else
    match (match pre with
      | some c => some c
      | none => checkOutcome s f o need) with
    | some c => frameEnd s1 p.val h c (hostBytes f)
    | none =>
      if o.writes then
        let x := frameWrite s1 p h o ((f.bytes.drop o.hdrLen).take (need - o.hdrLen - 2))
        frameEnd x.1 p.val h x.2 (hostBytes f)
      else
        frameEnd s1 p.val h (if r.1 ≠ 0 then r.1 else if o.reads && f.late then 0x22 else 0) (hostBytes f)

/-- One frame, from select to deselect (02 R43-R69). -/
def evalFrame (s : State) (f : Frame) : State :=
  let p := f.port.val
  if f.noEdges || (f.bytes.isEmpty && !f.partialByte) then s
  else
    let s := portBegin s p f.mode3
    let s := if p = 3 then modPort s 3 (fun q => { q with acks := spAcks s f }) else s
    let op := (nth f.bytes 0 0).toNat
    if f.bytes ≠ [] ∧ op = 0xFF then (if inReset s p then s else prstOp s p)
    else
      let o := if f.bytes = [] then none else opForm op
      let h := frameHdr s f o
      match headerOutcome f o h, o with
      | some 0x16, some q => frameRun s f q h (some 0x16)
      | some c, _ => if inReset s p then s else frameEnd s p h c (hostBytes f)
      | none, some q => frameRun s f q h none
      | none, none => s

/-- A WR frame of partition p arrives on its port: the port as the frame finds it, and the response, which on SP no frame
of the write class has (02 R53, Table 2-11); n: the words it writes. The command does not say the clock mode of its frame:
MODE keeps that of the port's previous one (DESIGN CHOICE, notes/assumptions/28.md). -/
def frameOpen (s : State) (p : Part) (seq : Byte) (n : Nat) : State :=
  let s := portBegin s p.val (nth s.core.ports p.val {}).mode3
  if p = 3 then modPort s 3 (fun q => { q with acks := List.replicate (8 + 4 * n) true })
  else modPort s p.val (fun q => { q with resp := response s p.val seq.toNat (reducedFlag s) [] true [] })

/-- A WR frame of n words from a has been given its outcome (02 R59). -/
def frameClose (s : State) (p : Part) (seq : Byte) (a n code : Nat) : State :=
  frameEnd s p.val { op := 0x02, seq := seq.toNat, addr := a, len := n - 1, bulk := false } code (7 + 4 * n + b2n (p == 3))

/-- A WR frame of partition p with the given SEQ, whose checks pass, and which writes consecutive words from a
(02 R54, R59): the port's response, the effect of every word in one instant, the outcome. -/
def writeFrame (s : State) (p : Part) (seq : Byte) (a : Nat) (vs : List Word) : State :=
  let s := frameOpen s p seq vs.length
  if inReset s p.val then s
  else
    let x := writeRegs s p (vs.zipIdx.map (fun e => (a + e.2, e.1)))
    frameClose x.1 p seq a vs.length x.2

/-- SP_SCL was held low during a frame of which these whole bytes had arrived (02 R72). With none the outcome is SHORT too,
though a STOP there would have left no frame (R67; DESIGN CHOICE, notes/assumptions/28.md). -/
def clockLowOp (s : State) (bytes : List Byte) : State :=
  if !bit (used s 0x430) 0 || inReset s 3 then s
  else
    let f : Frame := { port := 3, bytes := bytes }
    let o := if bytes = [] then none else opForm (nth bytes 0 0).toNat
    let s := modPort (portBegin s 3 false) 3 (fun q => { q with acks := spAcks s f })
    frameEnd s 3 (frameHdr s f o) 0x11 bytes.length

/-- A read of the Alert Response Address (02 R71): the device answers while SP_ALERT_N is asserted, and releases it when
it wins the arbitration. -/
def alertOp (s : State) (wins : Bool) : State :=
  if spAlert s && bit (used s 0x430) 1 then
    modPort s 3 (fun q => { q with resp := [BitVec.ofNat 8 (2 * (0x58 + selfId s))], alertOff := wins })
  else modPort s 3 (fun q => { q with resp := [] })

end Sys2Proof.Machine
end

