-- ==== Sys2Proof/Machine/Cvu.lean ====
section
/-! DEFINITION. Commands of the check-value units (14): one meaning for each command. -/

namespace Sys2Proof.Machine

/-- One frame writes FEED0, or FEED0 and FEED1 (14 R399). -/
def cvuFeedFrame (s : State) (p : Part) (seq : Byte) (u : Nat) (ws : List Word) : State :=
  writeFrame s p seq (cvuA u 1) (ws.take 2)

/-- CVU_START (R398). -/
def execCvuStart (p : Part) (seq : Byte) (u : Fin 4) (s : State) : Host.Outcome State Fault Refusal :=
  instant (whenCore (fun s => writeFrame s p seq (cvuA u.val 0) [1])) s

/-- CVU_FEED (R399). -/
def execCvuFeed (p : Part) (seq : Byte) (u : Fin 4) (ws : List Word) (s : State) : Host.Outcome State Fault Refusal :=
  instant (whenCore (fun s => cvuFeedFrame s p seq u.val ws)) s

/-- CVU_GO (R400). -/
def execCvuGo (p : Part) (seq : Byte) (u : Fin 4) (s : State) : Host.Outcome State Fault Refusal :=
  instant (whenCore (fun s => writeFrame s p seq (cvuA u.val 0) [4])) s

/-- CVU_RUN_END (R400). -/
def execCvuRunEnd (u : Fin 4) (s : State) : Host.Outcome State Fault Refusal :=
  instant (whenCore (fun s => cvuRunEndOp s u.val)) s

/-- CVU_FINISH (R403). -/
def execCvuFinish (p : Part) (seq : Byte) (u : Fin 4) (s : State) : Host.Outcome State Fault Refusal :=
  instant (whenCore (fun s => writeFrame s p seq (cvuA u.val 0) [2])) s

/-- CVU_ABORT (R405). -/
def execCvuAbort (p : Part) (seq : Byte) (u : Fin 4) (s : State) : Host.Outcome State Fault Refusal :=
  instant (whenCore (fun s => writeFrame s p seq (cvuA u.val 0) [8])) s

/-- CVU_CLEAR (R399). -/
def execCvuClear (p : Part) (seq : Byte) (u : Fin 4) (s : State) : Host.Outcome State Fault Refusal :=
  instant (whenCore (fun s => writeFrame s p seq (cvuA u.val 0) [16])) s

/-- CVU_REARM (R402). -/
def execCvuRearm (p : Part) (seq : Byte) (u : Fin 4) (s : State) : Host.Outcome State Fault Refusal :=
  instant (whenCore (fun s => writeFrame s p seq (cvuA u.val 0) [32])) s

end Sys2Proof.Machine
end

