-- ==== Sys2Proof/Machine/Dev.lean ====
section
/-! DEFINITION. Commands of courses, capos, clocks and register parity (01, 03): one meaning for each command. -/

namespace Sys2Proof.Machine

/-- The course number of a block (03 Table 3-2). -/
def blockIndex : Block → Nat
  | .thm => 0 | .flw => 1 | .key => 2 | .epd => 3 | .seq => 4 | .nfc => 5 | .efl => 6 | .gng => 7

/-- A qualified falling edge on CAPO (03 R96, R97): it counts while PIN_IN is 1 and the device does not drive the line. -/
def capoPinOp (s : State) : State :=
  let s := modC s (fun c => { c with capo := { c.capo with pinReset := false } })
  if bit (used s 0x53) 4 && !s.core.capo.driving then capoTrigger s 1 else s

/-- The word that stands behind an address: the two entry windows of NFC name the entry they select (12 R365). -/
def parityWord (s : State) (a : Nat) : Option Nat :=
  if a = 0x1809 then ladderSel s else if a = 0x1909 then (ladderSel s).map stagedOf
  else if a = 0x180D then some (bbtSel s) else if a = 0x190D then some (stagedOf (bbtSel s))
  else some a

/-- The word holds configuration in force at a primary address: RW or ST fields. The submission words and selectors of NFC,
of which every partition has its own, are none (DEDUCED, notes/assumptions/12.md). -/
def configWord (a : Nat) : Bool :=
  if 0x10000 ≤ a then (a / 0x8000) % 2 == 0
  else match primReg a with
    | some r => accMask r (fun f => f.acc == .rw || f.acc == .st) != 0
        && !decide (0x1858 ≤ a ∧ a < 0x1867)
    | none => false

/-- The staged image of a word: its primary address, for an address that holds one. -/
def stagedPrim (a : Nat) : Option Nat :=
  if 0x10000 ≤ a then (if (a / 0x8000) % 2 = 1 then some (a - 0x8000) else none)
  else if isStaged a then some (a - 0x100) else none

/-- The block stops using a configuration word in force (07 R208, R482, 06 R481, 14 R405, 15). A flow channel and a rail
find the failed word at their next tick or step, and every other block where it reads the word (used, aused, irqUsed). -/
def parityReact (old s : State) (a : Nat) : State :=
  if 0xE00 ≤ a ∧ a < 0x1000 then thmParity s
  else if 0x2200 ≤ a ∧ a < 0x2240 ∧ 3 ≤ a % 16 ∧ a % 16 ≤ 8 then cvuParityOp s ((a - 0x2200) / 16)
  else if a = 0x2400 then hookGng old s
  else s

/-- A 64-bit word of the buffer space fails its check on the way to or in the stage that holds it (01 R22, Table 1-7): a word
of a row of Table 1-8 that SECDED covers. -/
def bufferFailOp (s : State) (w : Nat) (single : Bool) : State :=
  match bufKind (8 * w) 8 with
  | some k => if k ≤ 3 then bufFail s w single else s
  | none => s

/-- A register word fails parity (01 R40): record, interrupt in every partition, capo fault class 21; a staged image takes
the value in force; a word in force is no longer used (DEDUCED, notes/assumptions/12.md). A reserved address never fails parity
(16 R433). -/
def parityOp (s : State) (a : Nat) : State :=
  if (regAt a).isNone then s else
  let old := s
  let s := modC s (fun c => { c with dev := { c.dev with
    parityAddr := a, parityCount := sat 65535 (c.dev.parityCount + 1) } })
  let s := capoFault (raiseAll s 4) 21
  match parityWord s a with
  | none => s
  | some k =>
    match stagedPrim k with
    | some q => setR s k (rd s q)
    | none =>
      if configWord k then parityReact old (modC s (fun c => { c with parity := insertNat k c.parity })) k else s

/-- COURSE_COMMIT (R84). -/
def execCourseCommit (p : Part) (seq : Byte) (v : Word) (s : State) : Host.Outcome State Fault Refusal :=
  instant (whenCore (fun s => writeFrame s p seq 0x40 [v])) s

/-- COURSE_TAKE_UP (R85). -/
def execCourseTakeUp (b : Block) (s : State) : Host.Outcome State Fault Refusal :=
  instant (whenCore (fun s => courseTakeUpOp s (blockIndex b))) s

/-- LUN_COURSE_TAKE_UP (R86). -/
def execLunCourseTakeUp (l : Fin 16) (s : State) : Host.Outcome State Fault Refusal :=
  instant (whenCore (fun s => lunTakeUp s l.val)) s

/-- COURSE_STALL (R88). -/
def execCourseStall (s : State) : Host.Outcome State Fault Refusal :=
  instant (whenCore (fun s => courseStallOp s)) s

/-- CAPO_TRIG (R95). -/
def execCapoTrig (p : Part) (seq : Byte) (v : Word) (s : State) : Host.Outcome State Fault Refusal :=
  instant (whenCore (fun s => writeFrame s p seq 0x50 [v])) s

/-- CAPO_PIN_EDGE (R96). -/
def execCapoPinEdge (s : State) : Host.Outcome State Fault Refusal :=
  instant (whenCore (fun s => capoPinOp s)) s

/-- CAPO_DRIVE_END (R97). -/
def execCapoDriveEnd (s : State) : Host.Outcome State Fault Refusal :=
  instant (whenCore (fun s => modC s (fun c => { c with capo := { c.capo with driving := false } }))) s

/-- CAPO_RELEASE (R98). -/
def execCapoRelease (p : Part) (seq : Byte) (v : Word) (s : State) : Host.Outcome State Fault Refusal :=
  instant (whenCore (fun s => writeFrame s p seq 0x52 [v])) s

/-- TBASE_LATCH (R81). -/
def execTbaseLatch (p : Part) (seq : Byte) (v : Word) (s : State) : Host.Outcome State Fault Refusal :=
  instant (whenCore (fun s => writeFrame s p seq 0x62 [v])) s

/-- CLOCK_WINDOW_CHECK (R29). -/
def execClockWindowCheck (edges : Nat) (s : State) : Host.Outcome State Fault Refusal :=
  instant (fun s => clockWindowOp s edges) s

/-- PLL_LOSS_OF_LOCK (R31). -/
def execPllLossOfLock (s : State) : Host.Outcome State Fault Refusal :=
  instant (whenCore (fun s => pllLossOp s)) s

/-- A datum fails its check (01 R22, R40). -/
def mismatchOp (s : State) : Mismatch → State
  | .register a => parityOp s a.toNat
  | .buffer w single => bufferFailOp s w.toNat single

/-- REGISTER_PARITY_FAULT (R40), and a mismatch in the buffer space (R22, R39). -/
def execRegisterParityFault (m : Mismatch) (s : State) : Host.Outcome State Fault Refusal :=
  instant (whenCore (fun s => mismatchOp s m)) s

end Sys2Proof.Machine
end

