-- ==== Sys2Proof/Machine/Efl.lean ====
section
/-! DEFINITION. Commands of the setup flash (11): one meaning for each command. -/

namespace Sys2Proof.Machine

/-- One frame writes EFL_CHc_ADDR and EFL_CHc_CMD (11 R307). -/
def eflFrame (s : State) (p : Part) (seq : Byte) (ch : Fin 10) (op : Nat) (addr : BitVec 21) (count : BitVec 8) (granule : BitVec 9) : State :=
  writeFrame s p seq (0x1620 + 8 * ch.val)
    [mkW [(0, 21, addr.toNat)], mkW [(0, 4, op), (8, 8, count.toNat), (16, 9, granule.toNat)]]

/-- EFL_READ (R313). -/
def execEflRead (p : Part) (seq : Byte) (ch : Fin 10) (addr : BitVec 21) (count : BitVec 8) (granule : BitVec 9) (s : State) : Host.Outcome State Fault Refusal :=
  instant (whenCore (fun s => eflFrame s p seq ch 1 addr count granule)) s

/-- EFL_PROGRAM (R316). -/
def execEflProgram (p : Part) (seq : Byte) (ch : Fin 10) (addr : BitVec 21) (count : BitVec 8) (granule : BitVec 9) (s : State) : Host.Outcome State Fault Refusal :=
  instant (whenCore (fun s => eflFrame s p seq ch 2 addr count granule)) s

/-- EFL_ERASE (R317). -/
def execEflErase (p : Part) (seq : Byte) (ch : Fin 10) (addr : BitVec 21) (count : BitVec 8) (granule : BitVec 9) (s : State) : Host.Outcome State Fault Refusal :=
  instant (whenCore (fun s => eflFrame s p seq ch 3 addr count granule)) s

/-- SCAN (R315). -/
def execScan (p : Part) (seq : Byte) (ch : Fin 10) (addr : BitVec 21) (count : BitVec 8) (granule : BitVec 9) (s : State) : Host.Outcome State Fault Refusal :=
  instant (whenCore (fun s => eflFrame s p seq ch 4 addr count granule)) s

/-- MARGIN_PV (R318). -/
def execMarginPv (p : Part) (seq : Byte) (ch : Fin 10) (addr : BitVec 21) (count : BitVec 8) (granule : BitVec 9) (s : State) : Host.Outcome State Fault Refusal :=
  instant (whenCore (fun s => eflFrame s p seq ch 5 addr count granule)) s

/-- MARGIN_EV (R318). -/
def execMarginEv (p : Part) (seq : Byte) (ch : Fin 10) (addr : BitVec 21) (count : BitVec 8) (granule : BitVec 9) (s : State) : Host.Outcome State Fault Refusal :=
  instant (whenCore (fun s => eflFrame s p seq ch 6 addr count granule)) s

/-- ADVANCE (R323). -/
def execAdvance (p : Part) (seq : Byte) (ch : Fin 10) (addr : BitVec 21) (count : BitVec 8) (granule : BitVec 9) (s : State) : Host.Outcome State Fault Refusal :=
  instant (whenCore (fun s => eflFrame s p seq ch 8 addr count granule)) s

/-- FORMAT (R323). -/
def execFormat (p : Part) (seq : Byte) (ch : Fin 10) (addr : BitVec 21) (count : BitVec 8) (granule : BitVec 9) (s : State) : Host.Outcome State Fault Refusal :=
  instant (whenCore (fun s => eflFrame s p seq ch 9 addr count granule)) s

/-- EFL_OP_START (R308). -/
def execEflOpStart (bank : Fin 2) (s : State) : Host.Outcome State Fault Refusal :=
  instant (whenCore (fun s => eflCourse (eflStartOp s bank.val))) s

/-- EFL_OP_DONE (R310). -/
def execEflOpDone (bank : Fin 2) (obs : EflObs) (s : State) : Host.Outcome State Fault Refusal :=
  instant (whenCore (fun s => advTry (eflCourse (eflDoneOp s bank.val obs)))) s

/-- LOG_ADVANCE (R320). -/
def execLogAdvance (s : State) : Host.Outcome State Fault Refusal :=
  instant (whenCore (fun s => logAdvanceOp s)) s

/-- LOG_ADVANCE_PHASE_END (R320). -/
def execLogAdvancePhaseEnd (obs : EflObs) (s : State) : Host.Outcome State Fault Refusal :=
  instant (whenCore (fun s => advTry (eflCourse (advPhaseOp s obs)))) s

/-- LOG_RECOVERY (R322). -/
def execLogRecovery (obs : EflObs) (s : State) : Host.Outcome State Fault Refusal :=
  instant (whenCore (fun s => logRecoveryOp s obs)) s

/-- EFL_CNTCLR (R330). -/
def execEflCntclr (p : Part) (seq : Byte) (v : Word) (s : State) : Host.Outcome State Fault Refusal :=
  instant (whenCore (fun s => writeFrame s p seq 0x1604 [v])) s

end Sys2Proof.Machine
end

