-- ==== Sys2Proof/Machine/Epd.lean ====
section
/-! DEFINITION. Commands of the panel (09, 10): one meaning for each command. -/

namespace Sys2Proof.Machine

/-- PANEL_UPDATE_REQUEST (R266). -/
def execPanelUpdateRequest (p : Part) (seq : Byte) (v : Word) (s : State) : Host.Outcome State Fault Refusal :=
  instant (whenCore (fun s => writeFrame s p seq 0x1428 [v])) s

/-- UPDATE_START (R268). -/
def execUpdateStart (s : State) : Host.Outcome State Fault Refusal :=
  instant (whenCore (fun s => if updateDue s then epdCourse (updateStartOp (epdCourse s)) else s)) s

/-- BLINK_DUE (R292). -/
def execBlinkDue (k : Fin 8) (s : State) : Host.Outcome State Fault Refusal :=
  instant (whenCore (fun s => blinkDueOp s k.val)) s

/-- BLINK_TOGGLE_START (R293). -/
def execBlinkToggleStart (s : State) : Host.Outcome State Fault Refusal :=
  instant (whenCore (fun s => if toggleDue s then epdCourse (toggleStartOp (epdCourse s)) else s)) s

/-- WAVEFORM_READ_DONE (R287). -/
def execWaveformReadDone (s : State) : Host.Outcome State Fault Refusal :=
  instant (whenCore (fun s => waveReadOp s)) s

/-- RAIL_UP_PHASE_END (R256). -/
def execRailUpPhaseEnd (s : State) (mv : List Int := []) : Host.Outcome State Fault Refusal :=
  instant (whenCore (fun s => railUpOp s mv)) s

/-- RAIL_UP_TIMEOUT (R257). -/
def execRailUpTimeout (c : RailCause) (s : State) (mv : List Int := []) : Host.Outcome State Fault Refusal :=
  instant (whenCore (fun s => railUpTimeoutOp s c mv)) s

/-- PANEL_FRAME (R252). -/
def execPanelFrame (s : State) : Host.Outcome State Fault Refusal :=
  instant (whenCore (fun s => panelFrameOp s)) s

/-- RAIL_LOST (R259). -/
def execRailLost (c : RailCause) (s : State) (mv : List Int := []) : Host.Outcome State Fault Refusal :=
  instant (whenCore (fun s => railLostOp s c mv)) s

/-- RAIL_DOWN_PHASE_END (R258). -/
def execRailDownPhaseEnd (mv : List Int) (s : State) : Host.Outcome State Fault Refusal :=
  instant (whenCore (fun s => epdCourse (railDownOp s mv))) s

/-- WF_RELOAD (R284). -/
def execWfReload (p : Part) (seq : Byte) (v : Word) (s : State) : Host.Outcome State Fault Refusal :=
  instant (whenCore (fun s => writeFrame s p seq 0x1454 [v])) s

/-- WF_VALIDATION_DONE (R284). -/
def execWfValidationDone (s : State) : Host.Outcome State Fault Refusal :=
  instant (whenCore (fun s => wfValidateEnd s)) s

/-- EPD_CNTCLR (R275). -/
def execEpdCntclr (p : Part) (seq : Byte) (v : Word) (s : State) : Host.Outcome State Fault Refusal :=
  instant (whenCore (fun s => writeFrame s p seq 0x142E [v])) s

/-- EPD_PIX_CNTCLR (R297). -/
def execEpdPixCntclr (p : Part) (seq : Byte) (v : Word) (s : State) : Host.Outcome State Fault Refusal :=
  instant (whenCore (fun s => writeFrame s p seq 0x1458 [v])) s

end Sys2Proof.Machine
end

