-- ==== Sys2Proof/Machine/Flow.lean ====
section
/-! DEFINITION. Commands of temperature and flow (07): one meaning for each command. -/

namespace Sys2Proof.Machine

/-- THM_SAMPLE (R189, R190): the ball voltages in uV, and the die temperature. -/
def execThmSample (uv : List Nat) (dieTenths : Int) (s : State) : Host.Outcome State Fault Refusal :=
  instant (whenCore (fun s => thmSampleOp (takeUp s 0) uv dieTenths)) s

/-- THM_CNTCLR (R215). -/
def execThmCntclr (p : Part) (seq : Byte) (v : Word) (s : State) : Host.Outcome State Fault Refusal :=
  instant (whenCore (fun s => writeFrame s p seq 0xE05 [v])) s

/-- FLOW_TICK (R198). -/
def execFlowTick (nowUs : Nat) (s : State) : Host.Outcome State Fault Refusal :=
  instant (whenCore (fun s => flowTickOp (takeUp s 1) nowUs)) s

/-- FLOW_STALL (R205). -/
def execFlowStall (n : Fin 6) (s : State) : Host.Outcome State Fault Refusal :=
  instant (whenCore (fun s => whenS (flowStallDue s n.val) s (fun s => flowStallOp s n.val))) s

/-- STEADY_WINDOW_END (R210). -/
def execSteadyWindowEnd (n : Fin 6) (s : State) : Host.Outcome State Fault Refusal :=
  instant (whenCore (fun s => whenS (decide (100 ≤ (ageOf s n.val).n)) s (fun s => steadyOp s n.val))) s

/-- LEARN_COMPLETE (R212). -/
def execLearnComplete (n : Fin 6) (b : Fin 8) (s : State) : Host.Outcome State Fault Refusal :=
  instant (whenCore (fun s => whenS (learnDue s n.val b.val) s (fun s => learnOp s n.val b.val))) s

/-- TACH_EDGE (R200). -/
def execTachEdge (n : Fin 6) (us : Nat) (s : State) : Host.Outcome State Fault Refusal :=
  instant (whenCore (fun s => tachEdgeOp s n.val us)) s

/-- FSW_PERIOD_START (R196). -/
def execFswPeriodStart (n : Fin 4) (us : Nat) (s : State) : Host.Outcome State Fault Refusal :=
  instant (whenCore (fun s => fswPeriodOp s n.val us)) s

/-- STRETCH_WINDOW_END (R204). -/
def execStretchWindowEnd (n : Fin 6) (s : State) : Host.Outcome State Fault Refusal :=
  instant (whenCore (fun s => stretchEndOp s n.val)) s

/-- STALL_CLEAR (R205). -/
def execStallClear (p : Part) (seq : Byte) (n : Fin 6) (v : Word) (s : State) : Host.Outcome State Fault Refusal :=
  instant (whenCore (fun s => writeFrame s p seq (0x100B + 0x10 * n.val) [v])) s

/-- FLW_CNTCLR (R216). -/
def execFlwCntclr (p : Part) (seq : Byte) (v : Word) (s : State) : Host.Outcome State Fault Refusal :=
  instant (whenCore (fun s => writeFrame s p seq 0x10A3 [v])) s

end Sys2Proof.Machine
end

