-- ==== Sys2Proof/Machine/Gng.lean ====
section
/-! DEFINITION. Commands of the gang link (15): one meaning for each command. -/

namespace Sys2Proof.Machine

/-- This member's frame, and the course that its end lets GNG take up (R412, R427). -/
def gangSent (s : State) (wins : Bool) : State :=
  gngCourse (gangTransmitOp s wins)

/-- GANG_FRAME_TRANSMIT (R412). -/
def execGangFrameTransmit (wins : Bool) (s : State) : Host.Outcome State Fault Refusal :=
  instant (whenCore (fun s => gangSent s wins)) s

/-- GANG_CAPO (R425). -/
def execGangCapo (dest : BitVec 4) (s : State) : Host.Outcome State Fault Refusal :=
  instant (whenCore (fun s => gangBoundary (gangCapoOp s dest))) s

/-- GANG_STATE (R419). -/
def execGangState (dest : BitVec 4) (src : Fin 4) (_num vote flags : Byte) (s : State) : Host.Outcome State Fault Refusal :=
  instant (whenCore (fun s => gangBoundary (gangStateOp s dest src.val vote flags))) s

/-- GANG_RPG (R424). -/
def execGangRpg (dest : BitVec 4) (src : Fin 4) (rpg : Byte) (s : State) : Host.Outcome State Fault Refusal :=
  instant (whenCore (fun s => gangBoundary (gangRpgOp s dest src.val rpg))) s

/-- GANG_TIME (R422). -/
def execGangTime (dest : BitVec 4) (src : Fin 4) (ticks : BitVec 48) (since : Nat) (s : State) : Host.Outcome State Fault Refusal :=
  instant (whenCore (fun s => gangBoundary (gangTimeOp s dest src.val ticks.toNat since))) s

/-- GANG_HELLO (R416). -/
def execGangHello (dest : BitVec 4) (src : Fin 4) (devHi devLo format members : Byte) (digest : Word) (s : State) : Host.Outcome State Fault Refusal :=
  instant (whenCore (fun s => gangBoundary (gangHelloOp s dest src.val devHi devLo format members digest))) s

/-- KEYFWD (R426). -/
def execKeyfwd (dest : BitVec 4) (src : Fin 4) (group typ subject flags : Byte) (ticks : BitVec 48) (s : State) : Host.Outcome State Fault Refusal :=
  instant (whenCore (fun s => gangBoundary (keyfwdOp s dest src.val group typ subject flags ticks))) s

/-- STATE_PERIOD (R411). -/
def execStatePeriod (s : State) : Host.Outcome State Fault Refusal :=
  instant (whenCore (fun s => statePeriodOp s)) s

/-- HELLO_PERIOD (R415). -/
def execHelloPeriod (s : State) : Host.Outcome State Fault Refusal :=
  instant (whenCore (fun s => helloPeriodOp s)) s

/-- TIME_PERIOD (R422). -/
def execTimePeriod (s : State) : Host.Outcome State Fault Refusal :=
  instant (whenCore (fun s => timePeriodOp s)) s

/-- MEMBER_LOSS (R421). -/
def execMemberLoss (m : Fin 4) (s : State) : Host.Outcome State Fault Refusal :=
  instant (whenCore (fun s => memberLossOp s m.val)) s

/-- DUPLICATE_CLEAR (R416). -/
def execDuplicateClear (s : State) : Host.Outcome State Fault Refusal :=
  instant (whenCore (fun s => dupClearOp s)) s

/-- BUS_STUCK (R409). -/
def execBusStuck (s : State) : Host.Outcome State Fault Refusal :=
  instant (whenCore (fun s => busStuckOp s)) s

/-- GNG_VOTE_WRITE (R420). -/
def execGngVoteWrite (p : Part) (seq : Byte) (v : Word) (s : State) : Host.Outcome State Fault Refusal :=
  instant (whenCore (fun s => writeFrame s p seq 0x2401 [v])) s

/-- GNG_CNTCLR (R428). -/
def execGngCntclr (p : Part) (seq : Byte) (v : Word) (s : State) : Host.Outcome State Fault Refusal :=
  instant (whenCore (fun s => writeFrame s p seq 0x2409 [v])) s

/-- GANG_FRAME_DROPPED (R411). -/
def execGangFrameDropped (s : State) : Host.Outcome State Fault Refusal :=
  instant (whenCore (fun s => gangBoundary (gangDropOp s))) s

end Sys2Proof.Machine
end

