-- ==== Sys2Proof/Machine/Key.lean ====
section
/-! DEFINITION. Commands of keys and encoders (08): one meaning for each command. -/

namespace Sys2Proof.Machine

/-- KEY_FRAME_START (R221). -/
def execKeyFrameStart (s : State) : Host.Outcome State Fault Refusal :=
  instant (whenCore (fun s => keyFrameOp (takeUp (encFlush s) 2))) s

/-- KEY_PASS (R221). -/
def execKeyPass (closed : BitVec 160) (s : State) : Host.Outcome State Fault Refusal :=
  instant (whenCore (fun s => keyPassOp s closed)) s

/-- WET_PROBE_COLUMN (R225). -/
def execWetProbeColumn (iA iB : Int) (s : State) : Host.Outcome State Fault Refusal :=
  instant (whenCore (fun s => probeColOp s iA iB)) s

/-- KEY_STUCK (R234). -/
def execKeyStuck (pos : Nat) (s : State) : Host.Outcome State Fault Refusal :=
  instant (whenCore (fun s => keyStuckOp s pos)) s

/-- AUTOLOCK (R235). -/
def execAutolock (s : State) : Host.Outcome State Fault Refusal :=
  instant (whenCore (fun s => whenS (autolockDue s) s lockOp)) s

/-- KEY_LOCK (R235). -/
def execKeyLock (p : Part) (seq : Byte) (v : Word) (s : State) : Host.Outcome State Fault Refusal :=
  instant (whenCore (fun s => writeFrame s p seq 0x1278 [v])) s

/-- KEY_UNLOCK (R235). -/
def execKeyUnlock (p : Part) (seq : Byte) (v : Word) (s : State) : Host.Outcome State Fault Refusal :=
  instant (whenCore (fun s => writeFrame s p seq 0x1278 [v])) s

/-- ENCODER_EDGE (R238). -/
def execEncoderEdge (n : Fin 3) (a b : Bool) (s : State) : Host.Outcome State Fault Refusal :=
  instant (whenCore (fun s => encEdgeOp s n.val a b)) s

/-- ENC_VELOCITY_UPDATE (R239). -/
def execEncVelocityUpdate (s : State) : Host.Outcome State Fault Refusal :=
  instant (whenCore (fun s => encVelOp s)) s

/-- KEY_FIFO_POP (R241). -/
def execKeyFifoPop (p : Part) (seq : Byte) (v : Word) (s : State) : Host.Outcome State Fault Refusal :=
  instant (whenCore (fun s => writeFrame s p seq 0x12B1 [v])) s

/-- KEY_CNTCLR (R247). -/
def execKeyCntclr (p : Part) (seq : Byte) (v : Word) (s : State) : Host.Outcome State Fault Refusal :=
  instant (whenCore (fun s => writeFrame s p seq 0x1203 [v])) s

end Sys2Proof.Machine
end

