-- ==== Sys2Proof/Machine/Nfc.lean ====
section
/-! DEFINITION. Commands of the NAND channels and the work queue (12, 13): one meaning for each command. -/

namespace Sys2Proof.Machine

/-- One frame writes NFC_SUB_W0 to W7 and NFC_SUB_GO.GO (13 R368). -/
def nandFrame (s : State) (p : Part) (seq : Byte) (d : Desc) : State :=
  writeFrame s p seq 0x1858 ((upto 8).map (fun i => nth d.ws i 0) ++ [1])

/-- BANK_CLASS_CHANGE (R27). -/
def execBankClassChange (ch : Fin 4) (mv : Nat) (s : State) : Host.Outcome State Fault Refusal :=
  instant (whenCore (fun s => nfcAfter (bankClassOp s ch.val mv))) s

/-- CHANNEL_INIT_PHASE_END (R336). -/
def execChannelInitPhaseEnd (ch : Fin 4) (obs : InitObs) (s : State) : Host.Outcome State Fault Refusal :=
  instant (whenCore (fun s => nfcAfter (initPhaseOp s ch.val obs))) s

/-- MODE_CHANGE (R341). -/
def execModeChange (ch : Fin 4) (ok : Bool) (s : State) : Host.Outcome State Fault Refusal :=
  instant (whenCore (fun s => nfcAfter (modeChangeOp s ch.val ok))) s

/-- STATUS_POLL (R342). -/
def execStatusPoll (ch : Fin 4) (s : State) : Host.Outcome State Fault Refusal :=
  instant (whenCore (fun s => pollOp s ch.val)) s

/-- LUN_TIMEOUT (R342). -/
def execLunTimeout (l : Fin 16) (s : State) : Host.Outcome State Fault Refusal :=
  instant (whenCore (fun s => nfcAfter (timeoutOp s l.val))) s

/-- CHANNEL_FAULT (R344). -/
def execChannelFault (ch : Fin 4) (s : State) : Host.Outcome State Fault Refusal :=
  instant (whenCore (fun s => nfcAfter (channelFaultOp s ch.val none))) s

/-- NAND_READ (R371). -/
def execNandRead (p : Part) (seq : Byte) (d : Desc) (s : State) : Host.Outcome State Fault Refusal :=
  instant (whenCore (fun s => nandFrame s p seq d)) s

/-- NAND_PROGRAM (R372). -/
def execNandProgram (p : Part) (seq : Byte) (d : Desc) (s : State) : Host.Outcome State Fault Refusal :=
  instant (whenCore (fun s => nandFrame s p seq d)) s

/-- NAND_ERASE (R373). -/
def execNandErase (p : Part) (seq : Byte) (d : Desc) (s : State) : Host.Outcome State Fault Refusal :=
  instant (whenCore (fun s => nandFrame s p seq d)) s

/-- COPY (R374). -/
def execCopy (p : Part) (seq : Byte) (d : Desc) (s : State) : Host.Outcome State Fault Refusal :=
  instant (whenCore (fun s => nandFrame s p seq d)) s

/-- VERIFY (R375). -/
def execVerify (p : Part) (seq : Byte) (d : Desc) (s : State) : Host.Outcome State Fault Refusal :=
  instant (whenCore (fun s => nandFrame s p seq d)) s

/-- STATUS (R376). -/
def execStatus (p : Part) (seq : Byte) (d : Desc) (s : State) : Host.Outcome State Fault Refusal :=
  instant (whenCore (fun s => nandFrame s p seq d)) s

/-- RESET_LUN (R377). -/
def execResetLun (p : Part) (seq : Byte) (d : Desc) (s : State) : Host.Outcome State Fault Refusal :=
  instant (whenCore (fun s => nandFrame s p seq d)) s

/-- RAW (R379). -/
def execRaw (p : Part) (seq : Byte) (d : Desc) (s : State) : Host.Outcome State Fault Refusal :=
  instant (whenCore (fun s => nandFrame s p seq d)) s

/-- NAND_RELEASE (R383). -/
def execNandRelease (l : Fin 16) (obs : NandObs) (s : State) : Host.Outcome State Fault Refusal :=
  instant (whenCore (fun s => nfcAfter (releaseOp s l.val obs))) s

/-- NFC_RING_POP (R390). -/
def execNfcRingPop (p : Part) (seq : Byte) (v : Word) (s : State) : Host.Outcome State Fault Refusal :=
  instant (whenCore (fun s => writeFrame s p seq 0x1863 [v])) s

/-- NFC_CNTCLR (R365). -/
def execNfcCntclr (p : Part) (seq : Byte) (v : Word) (s : State) : Host.Outcome State Fault Refusal :=
  instant (whenCore (fun s => writeFrame s p seq 0x1804 [v])) s

/-- WARNCLR (R365). -/
def execWarnclr (p : Part) (seq : Byte) (v : Word) (s : State) : Host.Outcome State Fault Refusal :=
  instant (whenCore (fun s => writeFrame s p seq 0x1804 [v])) s

/-- LUN_BUSY_END (R342). -/
def execLunBusyEnd (l : Fin 16) (s : State) (re : Option Reread := none) : Host.Outcome State Fault Refusal :=
  instant (whenCore (fun s => nfcAfter (busyEndOp s l.val re))) s

/-- BUS_TRANSFER_END (R388). -/
def execBusTransferEnd (ch : Fin 4) (s : State) : Host.Outcome State Fault Refusal :=
  instant (whenCore (fun s => nfcAfter (busEndOp s ch.val))) s

end Sys2Proof.Machine
end

