-- ==== Sys2Proof/Machine/Part.lean ====
section
/-! DEFINITION. Commands of ownership, shares, mailboxes, interrupts, watchdogs and partition resets (04): one meaning for each command. -/

namespace Sys2Proof.Machine

/-- One frame writes quota words (04 R108): the words from the first named to the last, one not named keeping its value. -/
def quotaFrame (s : State) (p : Part) (seq : Byte) (ws : List (Part × Word)) : State :=
  let named := (upto 4).filter (fun t => ws.any (fun e => e.1.val == t))
  match named, named.getLast? with
  | lo :: _, some hi =>
    let word := fun (t : Nat) => match ws.find? (fun e => e.1.val == t) with
      | some e => e.2
      | none => rd s (0x230 + t)
    writeFrame s p seq (0x230 + lo) ((upto (hi + 1 - lo)).map (fun i => word (lo + i)))
  | _, _ => writeFrame s p seq 0x230 [rd s 0x230]

/-- STEWARD_LOCK (R103). -/
def execStewardLock (p : Part) (seq : Byte) (v : Word) (s : State) : Host.Outcome State Fault Refusal :=
  instant (whenCore (fun s => writeFrame s p seq 0x200 [v])) s

/-- OWNER_CHANGE (R107). -/
def execOwnerChange (p : Part) (seq : Byte) (cls : Fin 7) (v : Word) (s : State) : Host.Outcome State Fault Refusal :=
  instant (whenCore (fun s => writeFrame s p seq (0x210 + cls.val) [v])) s

/-- QUOTA_CHANGE (R108). -/
def execQuotaChange (p : Part) (seq : Byte) (ws : List (Part × Word)) (s : State) : Host.Outcome State Fault Refusal :=
  instant (whenCore (fun s => quotaFrame s p seq ws)) s

/-- SLOT_SHARE_WRITE (R110). -/
def execSlotShareWrite (p : Part) (seq : Byte) (t : Part) (v : Word) (s : State) : Host.Outcome State Fault Refusal :=
  instant (whenCore (fun s => writeFrame s p seq (0x240 + t.val) [v])) s

/-- LUN_MAX_WRITE (R111). -/
def execLunMaxWrite (p : Part) (seq : Byte) (v : Word) (s : State) : Host.Outcome State Fault Refusal :=
  instant (whenCore (fun s => writeFrame s p seq 0x251 [v])) s

/-- LUN_WEIGHT_WRITE (R112). -/
def execLunWeightWrite (p : Part) (seq : Byte) (v : Word) (s : State) : Host.Outcome State Fault Refusal :=
  instant (whenCore (fun s => writeFrame s p seq 0x250 [v])) s

/-- MBX_POST (R115). -/
def execMbxPost (p : Part) (seq : Byte) (n : Fin 12) (v : Word) (s : State) : Host.Outcome State Fault Refusal :=
  instant (whenCore (fun s => writeFrame s p seq (0x600 + 4 * n.val) [v])) s

/-- MBX_ACK (R116). -/
def execMbxAck (p : Part) (seq : Byte) (n : Fin 12) (v : Word) (s : State) : Host.Outcome State Fault Refusal :=
  instant (whenCore (fun s => writeFrame s p seq (0x601 + 4 * n.val) [v])) s

/-- IRQ_COAL_WRITE (R119). -/
def execIrqCoalWrite (p : Part) (seq : Byte) (t : Part) (v : Word) (s : State) : Host.Outcome State Fault Refusal :=
  instant (whenCore (fun s => writeFrame s p seq (0x806 + 0x40 * t.val) [v])) s

/-- COALESCE_TIMEOUT (R119). -/
def execCoalesceTimeout (t : Part) (s : State) : Host.Outcome State Fault Refusal :=
  instant (whenCore (fun s => modIrq s t.val (fun q => { q with timeUp := q.first.isSome }))) s

/-- WDOG_KICK (R122). -/
def execWdogKick (p : Part) (seq : Byte) (t : Part) (v : Word) (s : State) : Host.Outcome State Fault Refusal :=
  instant (whenCore (fun s => writeFrame s p seq (0x264 + t.val) [v])) s

/-- FLOW_RELEASE (R124). -/
def execFlowRelease (p : Part) (seq : Byte) (t : Part) (v : Word) (s : State) : Host.Outcome State Fault Refusal :=
  instant (whenCore (fun s => writeFrame s p seq (0x264 + t.val) [v])) s

/-- WDOG_WARN (R123). -/
def execWdogWarn (t : Part) (s : State) : Host.Outcome State Fault Refusal :=
  instant (whenCore (fun s => wdogWarnOp s t.val)) s

/-- WDOG_EXPIRY (R123). -/
def execWdogExpiry (t : Part) (s : State) : Host.Outcome State Fault Refusal :=
  instant (whenCore (fun s => wdogExpire s t.val 0)) s

/-- PARTITION_RESET_REQUEST (R125). -/
def execPartitionResetRequest (p : Part) (seq : Byte) (v : Word) (s : State) : Host.Outcome State Fault Refusal :=
  instant (whenCore (fun s => writeFrame s p seq 0x274 [v])) s

/-- PARTITION_RESET_COMPLETE (R125). -/
def execPartitionResetComplete (t : Part) (s : State) : Host.Outcome State Fault Refusal :=
  instant (whenCore (fun s => partResetDone s t.val)) s

end Sys2Proof.Machine
end

