-- ==== Sys2Proof/Machine/Port.lean ====
section
/-! DEFINITION. Commands of the ports (02): one meaning for each command. -/

namespace Sys2Proof.Machine

/-- NOP (R62). -/
def execNop (f : Frame) (s : State) : Host.Outcome State Fault Refusal :=
  instant (whenCore (fun s => evalFrame s f)) s

/-- RD (R78). -/
def execRd (f : Frame) (s : State) : Host.Outcome State Fault Refusal :=
  instant (whenCore (fun s => evalFrame s f)) s

/-- WR (R79). -/
def execWr (f : Frame) (s : State) : Host.Outcome State Fault Refusal :=
  instant (whenCore (fun s => evalFrame s f)) s

/-- WRM (R54). -/
def execWrm (f : Frame) (s : State) : Host.Outcome State Fault Refusal :=
  instant (whenCore (fun s => evalFrame s f)) s

/-- BRD (R41). -/
def execBrd (f : Frame) (s : State) : Host.Outcome State Fault Refusal :=
  instant (whenCore (fun s => evalFrame s f)) s

/-- BWR (R55). -/
def execBwr (f : Frame) (s : State) : Host.Outcome State Fault Refusal :=
  instant (whenCore (fun s => evalFrame s f)) s

/-- BWG (R55). -/
def execBwg (f : Frame) (s : State) : Host.Outcome State Fault Refusal :=
  instant (whenCore (fun s => evalFrame s f)) s

/-- BRG (R55). -/
def execBrg (f : Frame) (s : State) : Host.Outcome State Fault Refusal :=
  instant (whenCore (fun s => evalFrame s f)) s

/-- PRST (R56). -/
def execPrst (f : Frame) (s : State) : Host.Outcome State Fault Refusal :=
  instant (whenCore (fun s => evalFrame s f)) s

/-- REGISTER_WRITE (R17). -/
def execRegisterWrite (p : Part) (seq : Byte) (addr : BitVec 16) (v : Word) (s : State) : Host.Outcome State Fault Refusal :=
  instant (whenCore (fun s => writeFrame s p seq addr.toNat [v])) s

/-- SP_CLOCK_LOW_TIMEOUT (R72). -/
def execSpClockLowTimeout (bytes : List Byte) (s : State) : Host.Outcome State Fault Refusal :=
  instant (whenCore (fun s => clockLowOp s bytes)) s

/-- ALERT_RESPONSE (R71). -/
def execAlertResponse (wins : Bool) (s : State) : Host.Outcome State Fault Refusal :=
  instant (whenCore (fun s => alertOp s wins)) s

/-- ERRCLR (R75). -/
def execErrclr (p : Part) (seq : Byte) (port : Part) (v : Word) (s : State) : Host.Outcome State Fault Refusal :=
  instant (whenCore (fun s => writeFrame s p seq (0x406 + 0x10 * port.val) [v])) s

/-- HRST_PULSE_END (R74). -/
def execHrstPulseEnd (n : Fin 3) (s : State) : Host.Outcome State Fault Refusal :=
  instant (whenCore (fun s => modPort s n.val (fun q => { q with hrstEnd := none }))) s

end Sys2Proof.Machine
end

