-- ==== Sys2Proof/Machine/Pwr.lean ====
section
/-! DEFINITION. Commands of supplies, wake and reset (05): one meaning for each command. -/

namespace Sys2Proof.Machine

/-- MAIN_WARNING (R131). -/
def execMainWarning (s : State) : Host.Outcome State Fault Refusal :=
  instant (fun s => mainWarnOp s) s

/-- MAIN_WARNING_END (R131). -/
def execMainWarningEnd (s : State) : Host.Outcome State Fault Refusal :=
  instant (fun s => mainWarnEndOp s) s

/-- SWITCH_OVER (R150). -/
def execSwitchOver (s : State) : Host.Outcome State Fault Refusal :=
  instant (fun s => switchOverOp s) s

/-- RETURN_HOLD_START (R141). -/
def execReturnHoldStart (s : State) : Host.Outcome State Fault Refusal :=
  instant (fun s => holdStartOp s) s

/-- RETURN_COMPLETE (R141). -/
def execReturnComplete (active : WakeInputs) (s : State) : Host.Outcome State Fault Refusal :=
  instant (fun s => returnOp s active) s

/-- BACKUP_SUPPLY_CHANGE (R132). -/
def execBackupSupplyChange (valid : Bool) (s : State) : Host.Outcome State Fault Refusal :=
  instant (fun s => backupOp s valid) s

/-- COLD_START (R132). -/
def execColdStart (s : State) : Host.Outcome State Fault Refusal :=
  instant (fun s => coldStartOp s) s

/-- VMEAS_UPDATE (R134). -/
def execVmeasUpdate (mainMv bakMv : Nat) (s : State) : Host.Outcome State Fault Refusal :=
  instant (whenCore (fun s => vmeasOp s mainMv bakMv)) s

/-- DOZE_ENTRY (R135). -/
def execDozeEntry (s : State) : Host.Outcome State Fault Refusal :=
  instant (whenCore (fun s => dozeOp s)) s

/-- SLEEP_REQUEST (R137). -/
def execSleepRequest (p : Part) (seq : Byte) (v : Word) (s : State) : Host.Outcome State Fault Refusal :=
  instant (whenCore (fun s => writeFrame s p seq 0xA04 [v])) s

/-- SLEEP_ENTRY (R137). -/
def execSleepEntry (active : WakeInputs) (s : State) : Host.Outcome State Fault Refusal :=
  instant (whenCore (fun s => sleepEntryOp s active)) s

/-- SLEEP_TIMEOUT (R137). -/
def execSleepTimeout (s : State) : Host.Outcome State Fault Refusal :=
  instant (whenCore (fun s => sleepTimeoutOp s)) s

/-- ALARM_FIRE (R140). -/
def execAlarmFire (s : State) : Host.Outcome State Fault Refusal :=
  instant (fun s => alarmOp s) s

/-- WAKE_EVENT (R139). -/
def execWakeEvent (src : WakeSource) (s : State) : Host.Outcome State Fault Refusal :=
  instant (fun s => wakeEventOp s src) s

/-- WAKE_ARM_END (R141). -/
def execWakeArmEnd (straps : BitVec 2) (s : State) : Host.Outcome State Fault Refusal :=
  instant (fun s => armEndOp s straps) s

/-- VDDC_READY (R142). -/
def execVddcReady (s : State) : Host.Outcome State Fault Refusal :=
  instant (fun s => vddcReadyOp s) s

/-- X24_READY (R142). -/
def execX24Ready (s : State) : Host.Outcome State Fault Refusal :=
  instant (fun s => x24ReadyOp s) s

/-- PLL_LOCK (R142). -/
def execPllLock (s : State) : Host.Outcome State Fault Refusal :=
  instant (fun s => pllLockOp s) s

/-- WAKE_STEP_TIMEOUT (R143). -/
def execWakeStepTimeout (s : State) : Host.Outcome State Fault Refusal :=
  instant (fun s => stepTimeoutOp s) s

/-- BACKOFF_END (R142). -/
def execBackoffEnd (s : State) : Host.Outcome State Fault Refusal :=
  instant (fun s => backoffEndOp s) s

/-- CORE_START (R146). -/
def execCoreStart (obs : StartObs) (s : State) : Host.Outcome State Fault Refusal :=
  instant (fun s => coreStartOp s obs) s

/-- RESET_N_ASSERT (R155). -/
def execResetNAssert (s : State) : Host.Outcome State Fault Refusal :=
  instant (fun s => resetAssertOp s) s

/-- RESET_N_RELEASE (R155). -/
def execResetNRelease (s : State) : Host.Outcome State Fault Refusal :=
  instant (fun s => resetReleaseOp s) s

/-- SOFTWARE_DEVICE_RESET (R152). -/
def execSoftwareDeviceReset (p : Part) (seq : Byte) (v : Word) (s : State) : Host.Outcome State Fault Refusal :=
  instant (whenCore (fun s => writeFrame s p seq 0xA19 [v])) s

/-- VDDC_FAULT (R151). -/
def execVddcFault (s : State) : Host.Outcome State Fault Refusal :=
  instant (whenCore (fun s => vddcFaultOp s)) s

/-- PWR_THRESH_WRITE (R130). -/
def execPwrThreshWrite (p : Part) (seq : Byte) (v : Word) (s : State) : Host.Outcome State Fault Refusal :=
  instant (whenCore (fun s => writeFrame s p seq 0xA02 [v])) s

/-- PWR_CNTCLR (R158). -/
def execPwrCntclr (p : Part) (seq : Byte) (v : Word) (s : State) : Host.Outcome State Fault Refusal :=
  instant (whenCore (fun s => writeFrame s p seq 0xA15 [v])) s

/-- AON_POWER_ON (R132). -/
def execAonPowerOn (s : State) : Host.Outcome State Fault Refusal :=
  instant (fun s => powerOnOp s) s

/-- RETURN_HOLD_BREAK (R141). -/
def execReturnHoldBreak (s : State) : Host.Outcome State Fault Refusal :=
  instant (fun s => holdBreakOp s) s

/-- MAIN_ABOVE_SWITCH (R132). -/
def execMainAboveSwitch (s : State) : Host.Outcome State Fault Refusal :=
  instant (fun s => mainAboveOp s) s

end Sys2Proof.Machine
end

