-- ==== Sys2Proof/Machine/Seq.lean ====
section
/-! DEFINITION. Commands of the rail sequencer (06): one meaning for each command. -/

namespace Sys2Proof.Machine

/-- A sequencer step (06 R162): the course, the step, and a device reset once a SYSTEM_RESET take-down has every rail
down (R181). -/
def seqStepOp (s : State) (spg : BitVec 10) (smon : List Nat) : State :=
  let s := seqStep (takeUp s 4) spg smon
  if seqAllDown s then coreRestart s 5 else s

/-- SEQUENCER_STEP (R162). -/
def execSequencerStep (spg : BitVec 10) (smon : List Nat) (s : State) : Host.Outcome State Fault Refusal :=
  instant (whenCore (fun s => seqStepOp s spg smon)) s

/-- RAIL_ON_REQUEST (R169). -/
def execRailOnRequest (p : Part) (seq : Byte) (rails : BitVec 10) (s : State) : Host.Outcome State Fault Refusal :=
  instant (whenCore (fun s => writeFrame s p seq 0xC80 [mkW [(0, 10, rails.toNat)]])) s

/-- RAIL_OFF_REQUEST (R168). -/
def execRailOffRequest (p : Part) (seq : Byte) (rails : BitVec 10) (s : State) : Host.Outcome State Fault Refusal :=
  instant (whenCore (fun s => writeFrame s p seq 0xC80 [mkW [(16, 10, rails.toNat)]])) s

/-- GROUP_ON_REQUEST (R167). -/
def execGroupOnRequest (p : Part) (seq : Byte) (groups : BitVec 4) (s : State) : Host.Outcome State Fault Refusal :=
  instant (whenCore (fun s => writeFrame s p seq 0xC81 [mkW [(0, 4, groups.toNat)]])) s

/-- GROUP_OFF_REQUEST (R167). -/
def execGroupOffRequest (p : Part) (seq : Byte) (groups : BitVec 4) (s : State) : Host.Outcome State Fault Refusal :=
  instant (whenCore (fun s => writeFrame s p seq 0xC81 [mkW [(8, 4, groups.toNat)]])) s

/-- SEQ_CNTCLR (R186). -/
def execSeqCntclr (p : Part) (seq : Byte) (v : Word) (s : State) : Host.Outcome State Fault Refusal :=
  instant (whenCore (fun s => writeFrame s p seq 0xC85 [v])) s

end Sys2Proof.Machine
end

