-- ==== Sys2Proof/Machine/Dispatch.lean ====
section
/-! DEFINITION. The dispatch: one arm per command. -/

namespace Sys2Proof.Machine

/-- The effect of a command on everything but the queue. -/
def exec (i : Instr) (s : State) : Host.Outcome State Fault Refusal :=
  match i with
  | .nop f => Sys2Proof.Machine.execNop f s
  | .rd f => Sys2Proof.Machine.execRd f s
  | .wr f => Sys2Proof.Machine.execWr f s
  | .wrm f => Sys2Proof.Machine.execWrm f s
  | .brd f => Sys2Proof.Machine.execBrd f s
  | .bwr f => Sys2Proof.Machine.execBwr f s
  | .bwg f => Sys2Proof.Machine.execBwg f s
  | .brg f => Sys2Proof.Machine.execBrg f s
  | .prst f => Sys2Proof.Machine.execPrst f s
  | .registerWrite p seq addr v => Sys2Proof.Machine.execRegisterWrite p seq addr v s
  | .spClockLowTimeout bytes => Sys2Proof.Machine.execSpClockLowTimeout bytes s
  | .alertResponse wins => Sys2Proof.Machine.execAlertResponse wins s
  | .errclr p seq port v => Sys2Proof.Machine.execErrclr p seq port v s
  | .hrstPulseEnd n => Sys2Proof.Machine.execHrstPulseEnd n s
  | .courseCommit p seq v => Sys2Proof.Machine.execCourseCommit p seq v s
  | .courseTakeUp b => Sys2Proof.Machine.execCourseTakeUp b s
  | .lunCourseTakeUp l => Sys2Proof.Machine.execLunCourseTakeUp l s
  | .courseStall => Sys2Proof.Machine.execCourseStall s
  | .capoTrig p seq v => Sys2Proof.Machine.execCapoTrig p seq v s
  | .capoPinEdge => Sys2Proof.Machine.execCapoPinEdge s
  | .capoDriveEnd => Sys2Proof.Machine.execCapoDriveEnd s
  | .capoRelease p seq v => Sys2Proof.Machine.execCapoRelease p seq v s
  | .tbaseLatch p seq v => Sys2Proof.Machine.execTbaseLatch p seq v s
  | .clockWindowCheck edges => Sys2Proof.Machine.execClockWindowCheck edges s
  | .pllLossOfLock => Sys2Proof.Machine.execPllLossOfLock s
  | .registerParityFault m => Sys2Proof.Machine.execRegisterParityFault m s
  | .stewardLock p seq v => Sys2Proof.Machine.execStewardLock p seq v s
  | .ownerChange p seq cls v => Sys2Proof.Machine.execOwnerChange p seq cls v s
  | .quotaChange p seq ws => Sys2Proof.Machine.execQuotaChange p seq ws s
  | .slotShareWrite p seq t v => Sys2Proof.Machine.execSlotShareWrite p seq t v s
  | .lunMaxWrite p seq v => Sys2Proof.Machine.execLunMaxWrite p seq v s
  | .lunWeightWrite p seq v => Sys2Proof.Machine.execLunWeightWrite p seq v s
  | .mbxPost p seq n v => Sys2Proof.Machine.execMbxPost p seq n v s
  | .mbxAck p seq n v => Sys2Proof.Machine.execMbxAck p seq n v s
  | .irqCoalWrite p seq t v => Sys2Proof.Machine.execIrqCoalWrite p seq t v s
  | .coalesceTimeout t => Sys2Proof.Machine.execCoalesceTimeout t s
  | .wdogKick p seq t v => Sys2Proof.Machine.execWdogKick p seq t v s
  | .flowRelease p seq t v => Sys2Proof.Machine.execFlowRelease p seq t v s
  | .wdogWarn t => Sys2Proof.Machine.execWdogWarn t s
  | .wdogExpiry t => Sys2Proof.Machine.execWdogExpiry t s
  | .partitionResetRequest p seq v => Sys2Proof.Machine.execPartitionResetRequest p seq v s
  | .partitionResetComplete t => Sys2Proof.Machine.execPartitionResetComplete t s
  | .mainWarning => Sys2Proof.Machine.execMainWarning s
  | .mainWarningEnd => Sys2Proof.Machine.execMainWarningEnd s
  | .switchOver => Sys2Proof.Machine.execSwitchOver s
  | .returnHoldStart => Sys2Proof.Machine.execReturnHoldStart s
  | .returnComplete active => Sys2Proof.Machine.execReturnComplete active s
  | .backupSupplyChange valid => Sys2Proof.Machine.execBackupSupplyChange valid s
  | .coldStart => Sys2Proof.Machine.execColdStart s
  | .vmeasUpdate mainMv bakMv => Sys2Proof.Machine.execVmeasUpdate mainMv bakMv s
  | .dozeEntry => Sys2Proof.Machine.execDozeEntry s
  | .sleepRequest p seq v => Sys2Proof.Machine.execSleepRequest p seq v s
  | .sleepEntry active => Sys2Proof.Machine.execSleepEntry active s
  | .sleepTimeout => Sys2Proof.Machine.execSleepTimeout s
  | .alarmFire => Sys2Proof.Machine.execAlarmFire s
  | .wakeEvent src => Sys2Proof.Machine.execWakeEvent src s
  | .wakeArmEnd straps => Sys2Proof.Machine.execWakeArmEnd straps s
  | .vddcReady => Sys2Proof.Machine.execVddcReady s
  | .x24Ready => Sys2Proof.Machine.execX24Ready s
  | .pllLock => Sys2Proof.Machine.execPllLock s
  | .wakeStepTimeout => Sys2Proof.Machine.execWakeStepTimeout s
  | .backoffEnd => Sys2Proof.Machine.execBackoffEnd s
  | .coreStart obs => Sys2Proof.Machine.execCoreStart obs s
  | .resetNAssert => Sys2Proof.Machine.execResetNAssert s
  | .resetNRelease => Sys2Proof.Machine.execResetNRelease s
  | .softwareDeviceReset p seq v => Sys2Proof.Machine.execSoftwareDeviceReset p seq v s
  | .vddcFault => Sys2Proof.Machine.execVddcFault s
  | .pwrThreshWrite p seq v => Sys2Proof.Machine.execPwrThreshWrite p seq v s
  | .pwrCntclr p seq v => Sys2Proof.Machine.execPwrCntclr p seq v s
  | .sequencerStep spg smon => Sys2Proof.Machine.execSequencerStep spg smon s
  | .railOnRequest p seq rails => Sys2Proof.Machine.execRailOnRequest p seq rails s
  | .railOffRequest p seq rails => Sys2Proof.Machine.execRailOffRequest p seq rails s
  | .groupOnRequest p seq groups => Sys2Proof.Machine.execGroupOnRequest p seq groups s
  | .groupOffRequest p seq groups => Sys2Proof.Machine.execGroupOffRequest p seq groups s
  | .seqCntclr p seq v => Sys2Proof.Machine.execSeqCntclr p seq v s
  | .thmSample uv dieTenths => Sys2Proof.Machine.execThmSample uv dieTenths s
  | .thmCntclr p seq v => Sys2Proof.Machine.execThmCntclr p seq v s
  | .flowTick nowUs => Sys2Proof.Machine.execFlowTick nowUs s
  | .flowStall n => Sys2Proof.Machine.execFlowStall n s
  | .steadyWindowEnd n => Sys2Proof.Machine.execSteadyWindowEnd n s
  | .learnComplete n b => Sys2Proof.Machine.execLearnComplete n b s
  | .tachEdge n us => Sys2Proof.Machine.execTachEdge n us s
  | .fswPeriodStart n us => Sys2Proof.Machine.execFswPeriodStart n us s
  | .stretchWindowEnd n => Sys2Proof.Machine.execStretchWindowEnd n s
  | .stallClear p seq n v => Sys2Proof.Machine.execStallClear p seq n v s
  | .flwCntclr p seq v => Sys2Proof.Machine.execFlwCntclr p seq v s
  | .keyFrameStart => Sys2Proof.Machine.execKeyFrameStart s
  | .keyPass closed => Sys2Proof.Machine.execKeyPass closed s
  | .wetProbeColumn iA iB => Sys2Proof.Machine.execWetProbeColumn iA iB s
  | .keyStuck pos => Sys2Proof.Machine.execKeyStuck pos s
  | .autolock => Sys2Proof.Machine.execAutolock s
  | .keyLock p seq v => Sys2Proof.Machine.execKeyLock p seq v s
  | .keyUnlock p seq v => Sys2Proof.Machine.execKeyUnlock p seq v s
  | .encoderEdge n a b => Sys2Proof.Machine.execEncoderEdge n a b s
  | .encVelocityUpdate => Sys2Proof.Machine.execEncVelocityUpdate s
  | .keyFifoPop p seq v => Sys2Proof.Machine.execKeyFifoPop p seq v s
  | .keyCntclr p seq v => Sys2Proof.Machine.execKeyCntclr p seq v s
  | .panelUpdateRequest p seq v => Sys2Proof.Machine.execPanelUpdateRequest p seq v s
  | .updateStart => Sys2Proof.Machine.execUpdateStart s
  | .blinkDue k => Sys2Proof.Machine.execBlinkDue k s
  | .blinkToggleStart => Sys2Proof.Machine.execBlinkToggleStart s
  | .waveformReadDone => Sys2Proof.Machine.execWaveformReadDone s
  | .railUpPhaseEnd mv => Sys2Proof.Machine.execRailUpPhaseEnd s mv
  | .railUpTimeout c mv => Sys2Proof.Machine.execRailUpTimeout c s mv
  | .panelFrame => Sys2Proof.Machine.execPanelFrame s
  | .railLost c mv => Sys2Proof.Machine.execRailLost c s mv
  | .railDownPhaseEnd mv => Sys2Proof.Machine.execRailDownPhaseEnd mv s
  | .wfReload p seq v => Sys2Proof.Machine.execWfReload p seq v s
  | .wfValidationDone => Sys2Proof.Machine.execWfValidationDone s
  | .epdCntclr p seq v => Sys2Proof.Machine.execEpdCntclr p seq v s
  | .epdPixCntclr p seq v => Sys2Proof.Machine.execEpdPixCntclr p seq v s
  | .eflRead p seq ch addr count granule => Sys2Proof.Machine.execEflRead p seq ch addr count granule s
  | .eflProgram p seq ch addr count granule => Sys2Proof.Machine.execEflProgram p seq ch addr count granule s
  | .eflErase p seq ch addr count granule => Sys2Proof.Machine.execEflErase p seq ch addr count granule s
  | .scan p seq ch addr count granule => Sys2Proof.Machine.execScan p seq ch addr count granule s
  | .marginPv p seq ch addr count granule => Sys2Proof.Machine.execMarginPv p seq ch addr count granule s
  | .marginEv p seq ch addr count granule => Sys2Proof.Machine.execMarginEv p seq ch addr count granule s
  | .advance p seq ch addr count granule => Sys2Proof.Machine.execAdvance p seq ch addr count granule s
  | .format p seq ch addr count granule => Sys2Proof.Machine.execFormat p seq ch addr count granule s
  | .eflOpStart bank => Sys2Proof.Machine.execEflOpStart bank s
  | .eflOpDone bank obs => Sys2Proof.Machine.execEflOpDone bank obs s
  | .logAdvance => Sys2Proof.Machine.execLogAdvance s
  | .logAdvancePhaseEnd obs => Sys2Proof.Machine.execLogAdvancePhaseEnd obs s
  | .logRecovery obs => Sys2Proof.Machine.execLogRecovery obs s
  | .eflCntclr p seq v => Sys2Proof.Machine.execEflCntclr p seq v s
  | .bankClassChange ch mv => Sys2Proof.Machine.execBankClassChange ch mv s
  | .channelInitPhaseEnd ch obs => Sys2Proof.Machine.execChannelInitPhaseEnd ch obs s
  | .modeChange ch ok => Sys2Proof.Machine.execModeChange ch ok s
  | .statusPoll ch => Sys2Proof.Machine.execStatusPoll ch s
  | .lunTimeout l => Sys2Proof.Machine.execLunTimeout l s
  | .channelFault ch => Sys2Proof.Machine.execChannelFault ch s
  | .nandRead p seq d => Sys2Proof.Machine.execNandRead p seq d s
  | .nandProgram p seq d => Sys2Proof.Machine.execNandProgram p seq d s
  | .nandErase p seq d => Sys2Proof.Machine.execNandErase p seq d s
  | .copy p seq d => Sys2Proof.Machine.execCopy p seq d s
  | .verify p seq d => Sys2Proof.Machine.execVerify p seq d s
  | .status p seq d => Sys2Proof.Machine.execStatus p seq d s
  | .resetLun p seq d => Sys2Proof.Machine.execResetLun p seq d s
  | .raw p seq d => Sys2Proof.Machine.execRaw p seq d s
  | .nandRelease l obs => Sys2Proof.Machine.execNandRelease l obs s
  | .nfcRingPop p seq v => Sys2Proof.Machine.execNfcRingPop p seq v s
  | .nfcCntclr p seq v => Sys2Proof.Machine.execNfcCntclr p seq v s
  | .warnclr p seq v => Sys2Proof.Machine.execWarnclr p seq v s
  | .cvuStart p seq u => Sys2Proof.Machine.execCvuStart p seq u s
  | .cvuFeed p seq u ws => Sys2Proof.Machine.execCvuFeed p seq u ws s
  | .cvuGo p seq u => Sys2Proof.Machine.execCvuGo p seq u s
  | .cvuRunEnd u => Sys2Proof.Machine.execCvuRunEnd u s
  | .cvuFinish p seq u => Sys2Proof.Machine.execCvuFinish p seq u s
  | .cvuAbort p seq u => Sys2Proof.Machine.execCvuAbort p seq u s
  | .cvuClear p seq u => Sys2Proof.Machine.execCvuClear p seq u s
  | .cvuRearm p seq u => Sys2Proof.Machine.execCvuRearm p seq u s
  | .gangFrameTransmit wins => Sys2Proof.Machine.execGangFrameTransmit wins s
  | .gangCapo dest => Sys2Proof.Machine.execGangCapo dest s
  | .gangState dest src num vote flags => Sys2Proof.Machine.execGangState dest src num vote flags s
  | .gangRpg dest src rpg => Sys2Proof.Machine.execGangRpg dest src rpg s
  | .gangTime dest src ticks since => Sys2Proof.Machine.execGangTime dest src ticks since s
  | .gangHello dest src devHi devLo format members digest => Sys2Proof.Machine.execGangHello dest src devHi devLo format members digest s
  | .keyfwd dest src group typ subject flags ticks => Sys2Proof.Machine.execKeyfwd dest src group typ subject flags ticks s
  | .statePeriod => Sys2Proof.Machine.execStatePeriod s
  | .helloPeriod => Sys2Proof.Machine.execHelloPeriod s
  | .timePeriod => Sys2Proof.Machine.execTimePeriod s
  | .memberLoss m => Sys2Proof.Machine.execMemberLoss m s
  | .duplicateClear => Sys2Proof.Machine.execDuplicateClear s
  | .busStuck => Sys2Proof.Machine.execBusStuck s
  | .gngVoteWrite p seq v => Sys2Proof.Machine.execGngVoteWrite p seq v s
  | .gngCntclr p seq v => Sys2Proof.Machine.execGngCntclr p seq v s
  | .aonPowerOn => Sys2Proof.Machine.execAonPowerOn s
  | .returnHoldBreak => Sys2Proof.Machine.execReturnHoldBreak s
  | .mainAboveSwitch => Sys2Proof.Machine.execMainAboveSwitch s
  | .lunBusyEnd l re => Sys2Proof.Machine.execLunBusyEnd l s re
  | .busTransferEnd ch => Sys2Proof.Machine.execBusTransferEnd ch s
  | .gangFrameDropped => Sys2Proof.Machine.execGangFrameDropped s

end Sys2Proof.Machine
end

