-- ==== Sys2Proof/Machine/Pins.lean ====
section
/-! DEFINITION. What the device does with its balls: the Stopped and OFF states, the outputs that AON holds, the lines to the
hosts, the panel's control and source lines, the NAND pads (01 R25, 17). Every definition is a function of the state; a level
that changes inside a period, a line or a frame takes its place there as an argument. -/

namespace Sys2Proof.Machine

/-- What the device does with a ball: drives it low, high or at half its supply, enables a pull-up or a pull-down, or neither
(high impedance, an input included). -/
inductive Level where
  | low | high | half | z | pullUp | pullDown
  deriving DecidableEq, Repr

/-- A push-pull output. -/
def pushPull (h : Bool) : Level := if h then .high else .low

/-- An open-drain output: asserted low, or not driven. -/
def openDrain (asserted : Bool) : Level := if asserted then .low else .z

/-- A control whose active level is low where actLow. -/
def activeAt (actLow asserted : Bool) : Level := pushPull (asserted != actLow)

/-- How far the device is on: AON without power, OFF, Stopped, or the core running (17 R440). -/
inductive Power where
  | dead | off | stopped | running
  deriving DecidableEq, Repr

/-- The power state of a state (05 Table 5-1, 17 R440): RESET_N held low, the refusal state and a wake sequence are Stopped. -/
def powerOf (s : State) : Power :=
  match s.aon.phase with
  | .dead => .dead
  | .off => .off
  | .run => .running
  | _ => .stopped

/-- A ball of a class that is not driven in OFF. -/
def coreBall (s : State) (stopped running : Level) : Level :=
  match powerOf s with
  | .running => running
  | .stopped => stopped
  | .off | .dead => .z

/-- A ball of class A: it keeps its Stopped state in OFF (17 R440). -/
def aonBall (s : State) (stopped running : Level) : Level :=
  match powerOf s with
  | .running => running
  | .stopped | .off => stopped
  | .dead => .z

/-! ## Outputs that AON holds -/

/-- Bit n of PWR_FSAFE.POL: the ON level of FSWn is low. -/
def fswPol (s : State) (n : Nat) : Bool := bit (aused s 0xA16) (16 + n)

/-- FSWn is ON at a moment of its period, given in thousandths of the period from its start: as FLW's output has it from the
channel's first tick on, and as the failsafe latch has it before that and while the core is stopped (05 R147, 07 R196, R209). -/
def fswOn (s : State) (n at1000 : Nat) : Bool :=
  if coreUp s && (driveOf s n).taken then decide (at1000 < (nth s.core.flw.fsw n {}).on) else bit s.hold.fsLevels n

/-- The level of FSWn (05 R147, 07 R196). -/
def fswPin (s : State) (n at1000 : Nat) : Level :=
  let l := activeAt (fswPol s n) (fswOn s n at1000)
  aonBall s l l

/-- The code that FVSn outputs; none: high impedance (05 R148, 07 R197). -/
def fvsPin (s : State) (n : Nat) : Option Nat := if coreUp s then nth s.core.flw.fvs n none else none

/-- The level of SENr: its state's while the core runs, its captured level under PWR_RAIL_HOLD while it does not
(06 R159, R178). -/
def senPin (s : State) (r : Nat) : Level :=
  aonBall s (pushPull (bit (senHeld s) r)) (pushPull (senHigh (nth s.core.seq.rails r {}).st))

/-- NWP: open-drain, asserted low, in OFF too (12 R364, 17 Table 17-3). -/
def nwpPin (s : State) : Level := aonBall s (openDrain (nwpLow s)) (openDrain (nwpLow s))

/-- PFAIL_N and WAKE_N: open-drain, in every power state (05 R156). -/
def pfailPin (s : State) : Level := openDrain (pfailLow s)
/-- WAKE_N. -/
def wakePin (s : State) : Level := openDrain (wakeLow s)

/-! ## Lines to the hosts -/

/-- An output whose polarity and drive type a configuration word gives: bit pol, 0 active low, and the bit after it, 1
open-drain (02 Table 2-14). An open-drain line is driven low or not at all (DEDUCED, notes/assumptions/30.md). -/
def ioPin (cfg : Word) (pol : Nat) (asserted : Bool) : Level :=
  let h := asserted == bit cfg pol
  if bit cfg (pol + 1) then openDrain (!h) else pushPull h

/-- HIRQ of port HPn: Z while Stopped whatever its configuration (02 R73, 17 R444). -/
def hirqPin (s : State) (n : Nat) : Level := coreBall s .z (ioPin (used s (0x401 + 16 * n)) 0 (hirq s n))

/-- HRST of port HPn (02 R74, 17 R444). -/
def hrstPin (s : State) (n : Nat) : Level := coreBall s .z (ioPin (used s (0x401 + 16 * n)) 2 (hrst s n))

/-- SP_ALERT_N (02 R71). -/
def alertPin (s : State) : Level := coreBall s .z (openDrain (spAlert s))

/-- CAPO: open-drain, low during the drive pulse (03 R97). -/
def capoPin (s : State) : Level := coreBall s .z (openDrain s.core.capo.driving)

/-- Data edges of one byte in a width (02 Table 2-2). -/
def byteEdges (width : BitVec 2) : Nat := if width = 0 then 8 else 2

/-- The bit of a byte that line HIOi carries at a data edge, the most significant bit first and in x4 the high nibble first with
bit 7 on HIO3; in x1 the line is HIO0 towards the device and HIO1 from it (02 R45, Table 2-2). -/
def byteLine (width : BitVec 2) (fromDevice : Bool) (b : Byte) (edge i : Nat) : Option Bool :=
  if width = 0 then (if i = b2n fromDevice then some (bit b (7 - edge)) else none)
  else some (bit b (4 * (1 - edge) + i))

/-- The byte that the device takes from the levels of HIO3 to HIO0 at the data edges of a byte; in x1 it ignores all but HIO0
(02 R45, R46). -/
def byteTaken (width : BitVec 2) (edges : List (BitVec 4)) : Byte :=
  BitVec.ofNat 8 (edges.foldl (fun v e => if width = 0 then 2 * v + b2n (bit e 0) else 16 * v + e.toNat) 0)

/-- Where a frame on a host port stands: a phase in which the host drives or nobody does, the end of the turnaround after its last
falling edge, or a data edge of a byte of the response (02 Table 2-8 to Table 2-10). -/
inductive FramePlace where
  | host | turnEnd | resp (byte edge : Nat)
  deriving DecidableEq, Repr

/-- HIOi of port HPn: driven in the response phases alone, HIO1 alone in x1, and at high impedance at all other times. The level at
the end of the turnaround is not stated, and free (02 R45, R46, Table 2-9; 17 Table 17-4). -/
def hioPin (s : State) (n i : Nat) (pl : FramePlace) : Level :=
  let q := nth s.core.ports n {}
  let mine := !q.resp.isEmpty && (q.width != 0 || i == 1)
  coreBall s .z (match pl with
    | .host => .z
    | .turnEnd => if mine then pushPull (free s (0x6100 + 4 * n + i) % 2 == 1) else .z
    | .resp k e =>
      match q.resp[k]? with
      | some b => (match byteLine q.width true b e i with
        | some h => pushPull h
        | none => .z)
      | none => .z)

/-! ## Key balls -/

/-- The KEY wake detector drives its rows and pulls its columns up: in SLEEP, armed, while PWR_WAKE_EN.KEY is 1 (08 R244). -/
def keyWakeOn (s : State) : Bool := s.aon.phase == .sleep && s.hold.armed && bit (aused s 0xA08) 0

/-- KROWr while the core does not run: low where selected and not excluded, else Z (08 R244, 17 Table 17-5). -/
def krowStopped (s : State) (r : Nat) : Level :=
  if keyWakeOn s && bit (aused s 0xA09) r && !bit s.hold.keyExcl r then .low else .z

/-- SDCc while the core does not run: pulled up where selected, else Z (08 R244, 17 Table 17-5). -/
def sdcStopped (s : State) (c : Nat) : Level := if keyWakeOn s && bit (aused s 0xA09) (16 + c) then .pullUp else .z

/-- Where KEY's frame stands: outside its slots, in a row slot (its row driven, or released), or in a phase of a probe column slot
(08 Table 8-3). -/
inductive KeyPlace where
  | none | row (r : Nat) (released : Bool) | probeA (c : Nat) | probeB (c : Nat) | probeRelease
  deriving DecidableEq, Repr

/-- A row slot runs: a pass is in progress, and its row is scanned (08 R219, R221). -/
def inRowSlot (s : State) (r : Nat) : Bool := s.core.key.passStart.isSome && keyRowEn s r

/-- A probe slot of a column runs (08 R223, R225). -/
def inProbeSlot (s : State) (c : Nat) : Bool := s.core.key.probe == some c && probeSlot s

/-- KROWr: low in its row slot until the release, every enabled row low and then high in the probe phases, else Z
(08 R219, Table 8-3). -/
def krowPin (s : State) (r : Nat) (pl : KeyPlace) : Level :=
  coreBall s (krowStopped s r) (match pl with
    | .row k released => if k == r && !released && inRowSlot s k then .low else .z
    | .probeA c => if inProbeSlot s c && keyRowEn s r then .low else .z
    | .probeB c => if inProbeSlot s c && keyRowEn s r then .high else .z
    | .none | .probeRelease => .z)

/-- SDCc as KEY leaves it: pulled up in a row slot, at half of VIOP where the probe forces or guards it, an input without a pull
otherwise (08 R219, Table 8-3). -/
def sdcKey (s : State) (c : Nat) : KeyPlace → Level
  | .row k _ => if inRowSlot s k then .pullUp else .z
  | .probeA k | .probeB k => if inProbeSlot s k && (k == c || bit (probeSet s) c) then .half else .z
  | .none | .probeRelease => .z

/-! ## The panel -/

/-- The eight panel control outputs (09 R250). -/
inductive PanelSig where
  | esck | esp | ele | eoe | egck | egsp | egoe | egdir
  deriving DecidableEq, Repr

/-- Bit of EPD_POL.ACTIVE_LOW (09 Table 9-7). -/
def PanelSig.polBit : PanelSig → Option Nat
  | .esp => some 0
  | .ele => some 1
  | .eoe => some 2
  | .egck => some 3
  | .egsp => some 4
  | .egoe => some 5
  | .esck | .egdir => none

/-- The level of a control signal from the polarity word and the direction level: ESCK low and EGDIR at the direction level
where idle, the others active or inactive (09 R250). -/
def panelLevel (pol : Word) (gdir : Bool) (sig : PanelSig) (active : Bool) : Level :=
  match sig.polBit with
  | some b => activeAt (bit pol b) active
  | none => if sig = .egdir then pushPull gdir else pushPull active

/-- Where a frame stands: in a line, at an ESCK cycle counted from the line's start, in the second half of the cycle or not;
or in vertical blank (09 R252). -/
inductive ScanPos where
  | line (n cyc : Nat) (late : Bool)
  | blank
  deriving DecidableEq, Repr

/-- The phases of one line (09 Table 9-2). -/
inductive LinePhase where
  | gate | shift | latch | drive
  deriving DecidableEq, Repr

/-- GCK_CLKS, COLS / 8, LE_CLKS and LINE_CLKS in force (09 Table 9-7). -/
def gckClks (s : State) : Nat := uf s 0x1402 16 4
def shiftClks (s : State) : Nat := uf s 0x1401 0 10 / 8
def leClks (s : State) : Nat := uf s 0x1402 20 4
def lineClks (s : State) : Nat := uf s 0x1403 0 16

/-- The phase at an ESCK cycle of a line (09 Table 9-2). -/
def linePhase (s : State) (cyc : Nat) : LinePhase :=
  if cyc < gckClks s then .gate
  else if cyc < gckClks s + shiftClks s then .shift
  else if cyc < gckClks s + shiftClks s + leClks s then .latch
  else .drive

/-- A control signal is active at a place of a frame (09 Table 9-2, R252). ESCK is high in the second half of each cycle of a
line: SDC changes on its falling edge, which begins the cycle (R251; DEDUCED, notes/assumptions/30.md). -/
def sigActive (s : State) (sig : PanelSig) : ScanPos → Bool
  | .blank => false
  | .line n cyc late =>
    match sig with
    | .esck => late
    | .egck => linePhase s cyc == .gate
    | .egsp => linePhase s cyc == .gate && n == 0
    | .esp => linePhase s cyc == .shift && cyc == gckClks s
    | .ele => linePhase s cyc == .latch
    | .eoe | .egoe => linePhase s cyc == .drive
    | .egdir => false

/-- An update or blink toggle drives frames (09 R250, R259). -/
def drivingFrames (s : State) : Bool :=
  match s.core.epd.run with
  | some u => u.phase == .frames
  | none => false

/-- The level of a panel control ball: Table 9-2 while frames are driven, inactive otherwise, held by AON while the core is
stopped, Z in OFF (09 R250, R252, R259, 17 Table 17-5). -/
def panelPin (s : State) (sig : PanelSig) (pos : ScanPos) : Level :=
  coreBall s (panelLevel s.hold.panelPol s.hold.panelGdir sig false)
    (panelLevel (used s 0x1404) (bit (used s 0x1400) 1) sig (drivingFrames s && sigActive s sig pos))

/-- The row that line n of a frame drives: the lines run in EGDIR order, and which way a level of EGDIR runs is not stated
(09 R252; DESIGN CHOICE, notes/assumptions/14.md). -/
def lineRow (s : State) (n : Nat) : Nat :=
  if Config.gateReversed (bit (used s 0x1400) 1) then uf s 0x1401 16 9 - 1 - n else n

/-- The code of the phase that covers frame j of a drive sequence, 0b00 when the sequence has ended (10 R288). -/
def seqCode : List (Nat × Nat) → Nat → Nat
  | [], _ => 0
  | (c, n) :: rest, j => if j < n then c else seqCode rest (j - n)

/-- The code that a pixel receives in frame j of the running update: 0b00 where it takes no part (09 R251, 10 R288). -/
def pixelCode (u : UpdSt) (idx j : Nat) : Nat :=
  match u.pix.find? (fun p => p.idx == idx) with
  | some p => seqCode p.seq j
  | none => 0

/-- The column sent in place p of a line (09 R251). -/
def sentColumn (s : State) (p : Nat) : Nat :=
  if bit (used s 0x1400) 2 then uf s 0x1401 0 10 - 1 - p else p

/-- SDC15 to SDC0 at edge e of line n in frame j: the codes of 8 consecutive pixels (09 R251). -/
def sdcEdge (s : State) (u : UpdSt) (j n e : Nat) : Nat :=
  let cols := uf s 0x1401 0 10
  (upto 8).foldl (fun w i => w + pixelCode u (lineRow s n * cols + sentColumn s (8 * e + i)) j * 4 ^ i) 0

/-- What EPD drives on SDC at a place of the frame in progress: the codes of the edge in the shift phase; none where it
drives none or has released the pads (09 R251, R252). -/
def sdcCodes (s : State) (pos : ScanPos) : Option Nat :=
  match s.core.epd.run, pos with
  | some u, .line n cyc _ =>
    if coreUp s && u.phase == .frames && linePhase s cyc == .shift then some (sdcEdge s u u.done n (cyc - gckClks s)) else none
  | _, _ => none

/-- SDCc: the code bits that EPD drives, else as KEY leaves it (08 R219, 09 R251). -/
def sdcPin (s : State) (c : Nat) (pos : ScanPos) (pl : KeyPlace) : Level :=
  coreBall s (sdcStopped s c) (match sdcCodes s pos with
    | some w => pushPull (w.testBit c)
    | none => sdcKey s c pl)

/-- The panel rails, in the order of EPD_RAIL_STATUS.GOOD (09 Table 9-8). -/
inductive PanelRail where
  | vgh | vgl | vneg | vpos | vcom
  deriving DecidableEq, Repr

/-- The voltage to which the discharge switches hold a panel rail while the core does not run, in OFF too: 0 V (09 R260,
17 Table 17-5). While it runs the rail is as EPD drives it (railWithin). -/
def railHeldMv (s : State) (_ : PanelRail) : Option Int := if coreUp s then none else some 0

/-- What TREF drives, in mV, a number of microseconds into a sample period of THM: 2.500 V while the sensors are converted, then
nothing (07 R189). -/
def trefMv (s : State) (us : Nat) : Option Nat := if coreUp s && decide (us < 1000) then some 2500 else none

/-! ## NAND pads -/

/-- The pads of one channel that the device drives. -/
inductive NandPad where
  | dq (i : Nat) | dqsT | dqsC | reT | reC | weN | ale | cle | ceN (k : Nat) | rbN | vrefq
  deriving DecidableEq, Repr

/-- The Stopped level of a NAND pad whose bank is powered (17 Table 17-3). -/
def NandPad.stopped : NandPad → Level
  | .dq _ | .dqsT | .rbN | .vrefq => .z
  | .dqsC | .ale | .cle => .low
  | .reT | .reC | .weN | .ceN _ => .high

/-- A NAND pad while the core does not run: its Stopped level only while its bank is powered, Z in OFF (17 R440, R442). -/
def nandStopped (s : State) (powered : Bool) (p : NandPad) : Level :=
  match powerOf s with
  | .stopped => if powered then p.stopped else .z
  | _ => .z

/-- The pads of channel c that are fixed while the core runs: every pad at its Stopped level until the channel first drives its bus,
in Settle too, which keeps the chip enables high; in SDR RE_C high, DQS_C low and DQS_T Z; in NV-DDR2 VREFQ at half of VCCQ; and Z
for every ball of an unpowered bank; none for a pad that follows the cycles on the bus (12 R333, Table 12-3, 17 R440, R442). -/
def nandFixed (s : State) (c : Nat) (p : NandPad) : Option Level :=
  let q := nth s.core.nfc.chans c {}
  if q.vccq = 0 then some .z
  else if q.init = .none ∨ q.init = .settle then some p.stopped
  else if q.iface then (if p = .vrefq then some .half else none)
  else match p with
    | .reC => some .high
    | .dqsC => some .low
    | .dqsT | .vrefq => some .z
    | _ => none

/-- CHn_VREFQ drives half of VCCQ: while the channel runs NV-DDR2 (12 R333). -/
def vrefqDriven (s : State) (c : Nat) : Bool := coreUp s && (nth s.core.nfc.chans c {}).iface

/-! ## Every other ball while the core does not run -/

/-- Balls of Tables 17-4 and 17-5 that the device leaves at high impedance, or reads, in every state but a running core. -/
inductive IdleBall where
  | hcs | hsck | hio | spScl | spSda | gldat | glclk | enc | ftach | spg | smon | tntc | tref | ethrm | x24 | ebstSw | ebstFb
  deriving DecidableEq, Repr

/-- Z, whether Stopped or OFF (17 Table 17-4, Table 17-5). -/
def idleStopped (_ : IdleBall) : Level := .z

/-! ## Class A inputs, straps and crystals -/

/-- RESET_N: an input with a pull-up in every power state (05 R155, 17 Table 17-5). -/
def resetPin (s : State) : Level := aonBall s .pullUp .pullUp

/-- TEST_EN: an input with a pull-down in every power state (17 Table 17-5). -/
def testEnPin (s : State) : Level := aonBall s .pullDown .pullDown

/-- STRAP1 and STRAP0: pulled down through Arm and left alone outside it (17 R450). -/
def strapPin (s : State) (_ : Fin 2) : Level := if s.aon.phase = .arm then .pullDown else .z

/-- The input buffers of the straps are enabled: in Arm alone (17 R450). -/
def strapBuffers (s : State) : Bool := s.aon.phase == .arm

/-- The X32 oscillator is enabled: whenever AON has power (17 Table 17-5). -/
def x32On (s : State) : Bool := powerOf s != .dead

/-- The X24 oscillator is enabled: from the X24 step on but for its back-offs, and while the core does not run on RC48
(05 Table 5-4, 17 Table 17-5; DEDUCED, notes/assumptions/30.md). -/
def x24On (s : State) : Bool :=
  match s.aon.phase with
  | .x24 | .pll | .backPll => true
  | .coreStart | .run => !reduced s
  | _ => false

end Sys2Proof.Machine
end

