-- ==== Sys2Proof/Safety.lean ====
section
/-! DEFINITION. The terms that statements use: which parts of the state a command leaves as they are, what holds at the
end of every instant, and what a safe step is. -/

namespace Sys2Proof.Machine

/-- A step is safe when it neither faults nor refuses. -/
def SafeStep (s : State) : Prop := ∃ t, step s = .next t

/-- The parts of the state that a frame condition speaks of. irqPend: the pending bits; irqSet: enables and coalescing
settings; irqRound: the rounds and summaries. -/
inductive Piece where
  | aon | hold | regs | parity | course | capo | dev | ports | part | mbxs | irqPend | irqSet | irqRound | buf | pwr | doze
  | seq | thm | flw | key | epd | pix | efl | nfc | cvu | gng | flash | queue
  deriving DecidableEq, Repr

/-- One part of the state is the same in s and t. -/
def Piece.same (s t : State) : Piece → Prop
  | .aon => t.aon = s.aon
  | .hold => t.hold = s.hold
  | .regs => t.core.regs = s.core.regs
  | .parity => t.core.parity = s.core.parity
  | .course => t.core.course = s.core.course
  | .capo => t.core.capo = s.core.capo
  | .dev => t.core.dev = s.core.dev
  | .ports => t.core.ports = s.core.ports
  | .part => t.core.part = s.core.part
  | .mbxs => t.core.mbxs = s.core.mbxs
  | .irqPend => t.core.irq.map IrqSt.pend = s.core.irq.map IrqSt.pend
  | .irqSet => t.core.irq.map (fun q => (q.en, q.imm, q.count, q.time)) = s.core.irq.map (fun q => (q.en, q.imm, q.count, q.time))
  | .irqRound => t.core.irq.map (fun q => (q.summary, q.asserts)) = s.core.irq.map (fun q => (q.summary, q.asserts))
  | .buf => t.core.buf = s.core.buf
  | .pwr => { t.core.pwr with doze := s.core.pwr.doze, devrst := s.core.pwr.devrst } = s.core.pwr
  | .doze => t.core.pwr.doze = s.core.pwr.doze
  | .seq => t.core.seq = s.core.seq
  | .thm => t.core.thm = s.core.thm
  | .flw => t.core.flw = s.core.flw
  | .key => t.core.key = s.core.key
  | .epd => t.core.epd = s.core.epd
  | .pix => t.core.pix = s.core.pix
  | .efl => t.core.efl = s.core.efl
  | .nfc => t.core.nfc = s.core.nfc
  | .cvu => t.core.cvu = s.core.cvu
  | .gng => t.core.gng = s.core.gng
  | .flash => t.flash = s.flash
  | .queue => t.pending = s.pending

/-- Every part of the state is the same in s and t but for those named. -/
def Keeps (but : List Piece) (s t : State) : Prop := ∀ k : Piece, k ∈ but ∨ k.same s t

/-- The parts that the end of an instant may change (03 R77, 04 R119, 05 R135, 15 R425): a triggered capo, the interrupt
rounds, what the gang link owes, SP_ALERT_N, DOZE, and the pending bit of a capo. -/
def endPieces : List Piece := [.capo, .irqRound, .irqPend, .gng, .ports, .doze]

/-- What holds of one interrupt controller at the end of every instant (04 R118, R119). -/
def IrqSettled (q : IrqSt) : Prop :=
  q.raised = 0 ∧ q.prev = q.pend &&& q.en ∧ q.lastPend = q.pend ∧
  (q.pend &&& q.en = 0 → q.summary = false ∧ q.events = 0 ∧ q.first = none ∧ q.timeUp = false)

/-- What holds at the end of every instant: no capo trigger waits (03 R77), every interrupt controller has followed its
sources, with its EN, IMM and COAL words as it uses them (01 R40, 04 R118, R119), no work runs in DOZE (05 R135), no device reset waits (05 R152), and the gang link has taken note of the vote and the
power-good (15 Table 15-3). -/
def Settled (s : State) : Prop :=
  s.core.capo.trig = 0 ∧ (∀ e ∈ s.core.irq.zipIdx, IrqSettled (irqUsed s e.2 e.1)) ∧ (s.core.pwr.doze = true → workPresent s = false) ∧ s.core.pwr.devrst = false ∧
  s.core.gng.lastVote = effVote s ∧ s.core.gng.lastRpg = s.core.seq.rpgOut

/-- Every mailbox holds at most its eight messages (04 R115), and every completion ring at most its 256 records
(13 R390). -/
def Bounded (s : State) : Prop := (∀ m ∈ s.core.mbxs, m.held ≤ 8) ∧ (∀ w ∈ s.core.nfc.wins, w.count ≤ 256)

/-- Every list of like parts has as many elements as the device has parts. -/
def Counted (s : State) : Prop :=
  s.core.ports.length = 4 ∧ s.core.irq.length = 4 ∧ s.core.mbxs.length = 12 ∧ s.core.cvu.length = 4 ∧
  s.core.course.running.length = 8 ∧ s.core.dev.latches.length = 4 ∧
  s.core.part.wdog.length = 4 ∧ s.core.part.rstCount.length = 4 ∧ s.core.part.rstCause.length = 4 ∧ s.core.part.slotRefused.length = 4 ∧
  s.core.seq.rails.length = 10 ∧ s.core.seq.mons.length = 6 ∧ s.core.thm.sens.length = 8 ∧ s.core.thm.grps.length = 4 ∧
  s.core.flw.drive.length = 6 ∧ s.core.flw.age.length = 6 ∧ (∀ g ∈ s.core.flw.age, g.acc.length = 8) ∧
  s.core.flw.fsw.length = 4 ∧ s.core.flw.fvs.length = 2 ∧
  s.core.key.cols.length = 16 ∧ s.core.key.encs.length = 3 ∧ s.core.key.fifos.length = 4 ∧
  s.core.epd.recs.length = 4 ∧ s.core.pix.blinks.length = 8 ∧ s.core.efl.chans.length = 10 ∧ s.core.efl.banks.length = 2 ∧
  s.core.nfc.luns.length = 16 ∧ s.core.nfc.chans.length = 4 ∧ s.core.nfc.wins.length = 4 ∧ s.core.nfc.counts.length = 4 ∧
  s.core.gng.mems.length = 4

/-- Every sparse store is in its one canonical form, so that equal contents are equal data: the registers of both domains, the
image of a pending course, the buffer space and its guards, the matrix positions, and the setup flash with its markers. -/
def Canonical (s : State) : Prop :=
  swf regReset s.core.regs = true ∧ swf regReset s.core.course.image = true ∧ swf regReset s.aon.regs = true ∧ swf bufReset s.core.buf.mem = true ∧
  swf (fun _ => 0) s.core.buf.guards = true ∧ swf (fun _ => {}) s.core.key.keys = true ∧
  swf flashErased s.flash.mem = true ∧ swf (fun _ => 0xFFFF) s.flash.markers = true

/-- The commands that the always-on domain takes whatever the core does; every other command reaches the core only
(01 R24, R36). -/
def aonCommand : Instr → Bool
  | .mainWarning | .mainWarningEnd | .switchOver | .returnHoldStart | .returnComplete _ | .backupSupplyChange _
  | .coldStart | .alarmFire | .wakeEvent _ | .wakeArmEnd _ | .vddcReady | .x24Ready | .pllLock | .wakeStepTimeout
  | .backoffEnd | .coreStart _ | .resetNAssert | .resetNRelease | .aonPowerOn | .returnHoldBreak | .mainAboveSwitch
  | .clockWindowCheck _ => true
  | _ => false

/-- A whole frame on port p whose request CRC is right: bs are the bytes before the CRC (02 R57). -/
def sound (p : Part) (bs : List Byte) : Frame :=
  { port := p, bytes := bs ++ (leBytes 2 (crc16 (BitVec.ofNat 8 p.val :: bs))).reverse }

/-- A whole write frame on port p whose checks are right: on SP its PEC, over the address byte too, follows (02 R68). -/
def soundWrite (s : State) (p : Part) (bs : List Byte) : Frame :=
  let f := sound p bs
  if p = 3 then { f with bytes := f.bytes ++ [BitVec.ofNat 8 (crc8 (BitVec.ofNat 8 (2 * (0x58 + selfId s)) :: f.bytes))] } else f

/-- Nothing has changed but port p: its own record, its PORT_ERR source among the pending bits, the rounds of the interrupt
controllers, DOZE. -/
def OnlyPort (p : Part) (s t : State) : Prop :=
  Keeps [.ports, .irqPend, .irqRound, .doze] s t ∧ (∀ q : Part, q ≠ p → nth t.core.ports q.val {} = nth s.core.ports q.val {}) ∧
  (∀ q : Part, q ≠ p → (nth t.core.irq q.val {}).pend = (nth s.core.irq q.val {}).pend) ∧
  ((nth t.core.irq p.val {}).pend = (nth s.core.irq p.val {}).pend ∨
    (nth t.core.irq p.val {}).pend = setBit (nth s.core.irq p.val {}).pend 8 true)

/-- Nothing has changed but port p and the count of corrected single-bit errors, which only a bulk read that meets one
raises (01 R39). -/
def OnlyPortAndCount (p : Part) (s t : State) : Prop :=
  OnlyPort p { s with core := { s.core with buf := t.core.buf } } t ∧
  { t.core.buf with corrected := s.core.buf.corrected } = s.core.buf ∧ (s.core.buf.soft = [] → t.core.buf = s.core.buf)

/-- What a frame that completes with outcome OK leaves of everything but its own effect: besides the parts named, the own
port, DOZE and the rounds. -/
def KeepsPort (p : Part) (but : List Piece) (s t : State) : Prop :=
  Keeps (but ++ [.ports, .irqRound, .doze]) s t ∧ ∀ q : Part, q ≠ p → nth t.core.ports q.val {} = nth s.core.ports q.val {}

/-- The core runs, partition p is not in reset, and no device reset waits: a frame of p is received and judged. -/
def Listens (s : State) (p : Part) : Prop :=
  coreUp s = true ∧ inReset s p.val = false ∧ s.core.pwr.devrst = false ∧ s.core.ports.length = 4

/-- Partition p's port as it stands. -/
def portOf (s : State) (p : Part) : PortSt := nth s.core.ports p.val {}

/-- The next state of a write frame of n words from a that is given outcome code, and that does f once the port has
received it. -/
def framed (s : State) (p : Part) (seq : Byte) (a n code : Nat) (f : State → State) : State :=
  settle (frameClose (f (frameOpen s p seq n)) p seq a n code)

/-- A write refused with DENIED, which changes nothing but its port (02 R62). -/
def deniedAt (s : State) (p : Part) (seq : Byte) (a n : Nat) : State := framed s p seq a n 0x20 id

/-- A register word takes a value, and passes its parity (00 R16, 01 R40). -/
def putReg (s : State) (a : Nat) (v : Word) : State :=
  setR (modC s (fun c => { c with parity := c.parity.filter (fun k => k != a) })) a v

/-- Change mailbox n. -/
def modMbx (s : State) (n : Nat) (f : MbxSt → MbxSt) : State := modC s (fun c => { c with mbxs := upd c.mbxs n f })

end Sys2Proof.Machine
end

