-- ==== Sys2Proof/WellFormed.lean ====
section
/-! DEFINITION. Well-formed commands: operands that the row of the command admits. The machine runs every command, well
formed or not; an ill-formed one is a command that its row does not describe. -/

namespace Sys2Proof

/-- The opcodes that the table of opcodes knows (02 Table 2-3). -/
def knownOpcodes : List Byte := [0x00, 0x01, 0x02, 0x03, 0x10, 0x11, 0x12, 0x13, 0xFF]

/-- A frame of the row with opcode op: its first byte is op, where it came; a frame without an edge has no bytes
(02 R65). -/
def Frame.wf (f : Frame) (op : Byte) : Bool :=
  (match f.bytes with
    | [] => true
    | b :: _ => b == op || (op == 0 && !knownOpcodes.elem b)) &&
  (!f.noEdges || (f.bytes.isEmpty && !f.partialByte))

/-- The primary addresses whose writes have a row of their own. -/
def ownRow (a : Nat) : Bool :=
  [0x40, 0x50, 0x52, 0x62, 0x200, 0x250, 0x251, 0x274, 0xA02, 0xA04, 0xA15, 0xA19, 0xC80, 0xC81, 0xC85, 0xE05, 0x10A3,
    0x1203, 0x1278, 0x12B1, 0x1428, 0x142E, 0x1454, 0x1458, 0x1604, 0x1804, 0x1860, 0x1863, 0x2401, 0x2409].elem a
  || decide (0x210 ≤ a ∧ a < 0x217) || decide (0x230 ≤ a ∧ a < 0x234) || decide (0x240 ≤ a ∧ a < 0x244)
  || decide (0x264 ≤ a ∧ a < 0x268) || decide (0x400 ≤ a ∧ a < 0x440 ∧ a % 16 = 6)
  || decide (0x600 ≤ a ∧ a < 0x630 ∧ a % 4 < 2) || decide (0x800 ≤ a ∧ a < 0x900 ∧ a % 64 = 6)
  || decide (0x1000 ≤ a ∧ a < 0x1060 ∧ a % 16 = 11) || decide (0x1620 ≤ a ∧ a < 0x1670 ∧ a % 8 = 1)
  || decide (0x2200 ≤ a ∧ a < 0x2240 ∧ a % 16 < 3)

/-- The quota words of one frame: at least one, of rising partitions (04 R108). -/
def quotaWf : List (Part × Word) → Bool
  | [] => false
  | [_] => true
  | a :: b :: rest => decide (a.1 < b.1) && quotaWf (b :: rest)

/-- A descriptor of eight words whose OP is the row's (13 R370). -/
def Desc.wf (d : Desc) (op : Nat) : Bool :=
  match d.ws with
  | w :: rest => decide (rest.length = 7 ∧ w.toNat % 16 = op)
  | [] => false

/-- The command is one that its row describes. -/
def Instr.wf : Instr → Bool
  | .nop f => f.wf 0x00
  | .rd f => f.wf 0x01
  | .wr f => f.wf 0x02
  | .wrm f => f.wf 0x03
  | .brd f => f.wf 0x10
  | .bwr f => f.wf 0x11
  | .bwg f => f.wf 0x12
  | .brg f => f.wf 0x13
  | .prst f => f.wf 0xFF
  | .registerWrite _ _ addr _ => !ownRow addr.toNat
  | .wdogKick _ _ _ v => !v.getLsbD 8
  | .flowRelease _ _ _ v => v.getLsbD 8
  | .quotaChange _ _ ws => quotaWf ws
  | .sequencerStep _ smonUv => smonUv.length == 6
  | .thmSample uv _ => uv.length == 8
  | .keyStuck pos => decide (pos < 160)
  | .keyLock _ _ v => v.getLsbD 0 && !v.getLsbD 1
  | .keyUnlock _ _ v => v.getLsbD 1
  | .coreStart obs => obs.vccqMv.length == 4 && obs.smonUv.length == 6
  | .nandRead _ _ d => d.wf 1
  | .nandProgram _ _ d => d.wf 2
  | .nandErase _ _ d => d.wf 3
  | .copy _ _ d => d.wf 4
  | .verify _ _ d => d.wf 5
  | .status _ _ d => d.wf 6
  | .resetLun _ _ d => d.wf 7
  | .raw _ _ d => d.wf 15
  | .nfcCntclr _ _ v => v.getLsbD 0
  | .warnclr _ _ v => v.getLsbD 1 && !v.getLsbD 0
  | .cvuFeed _ _ _ ws => ws.length == 1 || ws.length == 2
  | .railUpPhaseEnd mv | .railDownPhaseEnd mv => mv.length == 5
  | .railUpTimeout _ mv | .railLost _ mv => mv.length == 5
  | .courseCommit .. | .courseTakeUp _ | .lunCourseTakeUp _ | .courseStall | .capoTrig .. | .capoPinEdge | .capoDriveEnd
  | .capoRelease .. | .tbaseLatch .. | .clockWindowCheck _ | .pllLossOfLock | .registerParityFault _ | .stewardLock ..
  | .ownerChange .. | .slotShareWrite .. | .lunMaxWrite .. | .lunWeightWrite .. | .mbxPost .. | .mbxAck ..
  | .irqCoalWrite .. | .coalesceTimeout _ | .wdogWarn _ | .wdogExpiry _ | .partitionResetRequest ..
  | .partitionResetComplete _ | .mainWarning | .mainWarningEnd | .switchOver | .returnHoldStart | .returnComplete _
  | .backupSupplyChange _ | .coldStart | .vmeasUpdate .. | .dozeEntry | .sleepRequest .. | .sleepEntry _ | .sleepTimeout
  | .alarmFire | .wakeEvent _ | .wakeArmEnd _ | .vddcReady | .x24Ready | .pllLock | .wakeStepTimeout | .backoffEnd
  | .resetNAssert | .resetNRelease | .softwareDeviceReset .. | .vddcFault | .pwrThreshWrite .. | .pwrCntclr ..
  | .railOnRequest .. | .railOffRequest .. | .groupOnRequest .. | .groupOffRequest .. | .seqCntclr .. | .thmCntclr ..
  | .flowTick _ | .flowStall _ | .steadyWindowEnd _ | .learnComplete .. | .tachEdge .. | .fswPeriodStart ..
  | .stretchWindowEnd _ | .stallClear .. | .flwCntclr .. | .keyFrameStart | .keyPass _ | .wetProbeColumn .. | .autolock
  | .encoderEdge .. | .encVelocityUpdate | .keyFifoPop .. | .keyCntclr .. | .panelUpdateRequest .. | .updateStart
  | .blinkDue _ | .blinkToggleStart | .waveformReadDone | .panelFrame | .wfReload .. | .wfValidationDone | .epdCntclr .. | .epdPixCntclr .. | .eflRead .. | .eflProgram ..
  | .eflErase .. | .scan .. | .marginPv .. | .marginEv .. | .advance .. | .format .. | .eflOpStart _ | .eflOpDone ..
  | .logAdvance | .logAdvancePhaseEnd _ | .logRecovery _ | .eflCntclr .. | .bankClassChange .. | .channelInitPhaseEnd ..
  | .modeChange .. | .statusPoll _ | .lunTimeout _ | .channelFault _ | .nandRelease .. | .nfcRingPop .. | .cvuStart ..
  | .cvuGo .. | .cvuRunEnd _ | .cvuFinish .. | .cvuAbort .. | .cvuClear .. | .cvuRearm .. | .gangFrameTransmit _
  | .gangCapo _ | .gangState .. | .gangRpg .. | .gangTime .. | .gangHello .. | .keyfwd .. | .statePeriod | .helloPeriod
  | .timePeriod | .memberLoss _ | .duplicateClear | .busStuck | .gngVoteWrite .. | .gngCntclr .. | .aonPowerOn
  | .returnHoldBreak | .mainAboveSwitch | .lunBusyEnd .. | .busTransferEnd _ | .gangFrameDropped | .spClockLowTimeout _
  | .alertResponse _ | .errclr .. | .hrstPulseEnd _ => true

end Sys2Proof
end

