-- ==== Sys2Proof/Certificates/Slice0/Obligations.lean ====
section
/-! DEFINITION. The statements for the provers, one for each obligation of OBLIGATIONS.json. -/

open Sys2Proof Sys2Proof.Machine

set_option linter.unusedVariables false

/-- O1. A step runs the command at the front of the queue. For every state, when command c is at the front of the queue,
a step is exec of c on the state with the queue's rest; on an empty queue one tick of the oscillator passes and the
instant ends (the model's choice, notes/assumptions/2.md). -/
def Obligations.StepRunsTheFrontCommand : Prop :=
  (∀ (s : State) (c : Instr) (rest : List Instr), s.pending = c :: rest → step s = exec c { s with pending := rest }) ∧
  (∀ s : State, s.pending = [] → step s = .next (settle (tickOp s)))

/-- O2. The state after reset holds the reset values of the registers, is settled, and waits for no command. In
State.reset the queue is empty and the core runs; every register, at its primary address, whose reset value in the
register index is one constant other than 0, or one for each of its instances, reads that value; no mailbox and no
completion ring overflows, every list of parts has its length and every store its canonical form; no capo trigger waits,
every interrupt controller has followed its sources, no work runs in DOZE, no device reset waits, and the gang link has
noted the vote. Words that the index gives no constant (die value, straps, timebase, words written at core start, words
that depend on a cold start) are not among them. Which start the state after reset follows is the model's choice
(notes/assumptions/1.md). -/
def Obligations.ResetStateHoldsTheResetValues : Prop :=
  State.reset.pending = [] ∧ coreUp State.reset = true ∧ Settled State.reset ∧ Bounded State.reset ∧ Counted State.reset ∧ Canonical State.reset ∧
  let row := fun (base step n : Nat) (v : Nat) => ((upto n).map (fun i => base + step * i), v)
  ∀ e ∈ [row 0x0000 0 1 0x0E0900B1, row 0x0042 0 1 0x000F0000, row 0x0043 0 1 0x000003E8, row 0x0053 0 1 0x00000051,
      row 0x0217 0 1 0x00000FFF, row 0x0230 0 1 0x00800000, row 0x0231 0 1 0x00800080, row 0x0232 0 1 0x00800100,
      row 0x0233 0 1 0x00800180, row 0x0240 1 3 0x01000100, row 0x0243 0 1 0x00400000, row 0x0244 0 1 0x00000100,
      row 0x0250 0 1 0x00001448, row 0x0251 0 1 0x10101010, row 0x0260 0 1 0x00031F01, row 0x0261 1 3 0x00031F00,
      row 0x0268 0 1 0x02000001, row 0x0270 1 4 0x00000003, row 0x0400 16 3 0x00006000, row 0x0401 16 3 0x00000A1A,
      row 0x0402 16 3 0x00003000, row 0x0430 0 1 0x00000003, row 0x0630 1 4 0x0000000F, row 0x0806 64 4 0x00000001,
      row 0x0807 64 4 0x00400000, row 0x0A02 0 1 0x05373C28, row 0x0A03 0 1 0x00006403, row 0x0A04 0 1 0x03E80000,
      row 0x0A05 0 1 0x00000A01, row 0x0A08 0 1 0x000003FF, row 0x0A09 0 1 0xFFFF03FF, row 0x0A16 0 1 0x0000000F,
      row 0x0A17 0 1 0x00000001] ++
     [row 0x0C00 0 1 0x00030000, row 0x0C08 8 9 0x00020000, row 0x0C01 8 10 0x0A000000, row 0x0C02 8 10 0x000A0A00,
      row 0x0C03 8 10 0x00000A00, row 0x0C60 4 6 0x00000010, row 0x0C61 4 6 0x0FFF0000, row 0x0E00 0 1 0x00000005,
      row 0x0E08 1 8 0x7FFF7FFF, row 0x0E10 0 1 0x00007FFF, row 0x0E11 1 8 0x7FFF7FFF, row 0x0E19 0 1 0x00007FFF,
      row 0x0E20 1 8 0x96D83241, row 0x0E28 1 8 0xE0000000, row 0x0E30 1 4 0x147FFF00, row 0x0E34 1 4 0x00008000,
      row 0x1000 16 6 0x00001400, row 0x1001 16 6 0x00100100, row 0x1002 16 6 0x7864503C, row 0x1006 16 4 0x00441901,
      row 0x1046 16 2 0x00440001, row 0x1007 16 6 0x3E8FA000, row 0x1008 16 6 0xC81E0000, row 0x1009 16 4 0x00143C19,
      row 0x1049 16 2 0x03FF0000, row 0x100A 16 6 0x080A1770] ++
     [row 0x1200 0 1 0x03FF0408, row 0x1208 1 8 0x1E3C1E14, row 0x1210 0 1 0x22222222, row 0x1220 0 1 0x00A5001E,
      row 0x1221 0 1 0x0000000A, row 0x127A 0 1 0x00140000, row 0x1280 2 8 0xFFFFFFFF, row 0x1281 2 8 0x0000000A,
      row 0x1290 4 3 0x000A0404, row 0x1401 0 1 0x01E00280, row 0x1402 0 1 0x00243208, row 0x1403 0 1 0x003201E0,
      row 0x1408 0 1 0x140A0A04, row 0x1410 1 8 0x0000007F, row 0x1418 0 1 0x00D80001, row 0x1420 0 1 0x027F0000,
      row 0x1421 0 1 0x01DF0000, row 0x1422 1 6 0x00000001, row 0x1450 0 1 0x00001101, row 0x1452 0 1 0x0000001F,
      row 0x1460 4 8 0x00000001, row 0x1461 4 8 0x00000001, row 0x1462 4 8 0x00000002, row 0x1600 0 1 0x00000004,
      row 0x1601 0 1 0x00000FF0, row 0x1800 0 1 0x00000005, row 0x1802 0 1 0x0A320A14, row 0x180D 0 1 0xFFFFFFFF,
      row 0x1812 3 16 0x10000840, row 0x1850 0 1 0x00000001, row 0x1862 0 1 0x00020000, row 0x1A04 1 4 0x00000001,
      row 0x1C04 1 4 0x00000001, row 0x1E04 1 4 0x00000001, row 0x2004 1 4 0x00000001, row 0x2204 16 4 0xFFFFFFFF,
      row 0x220A 16 4 0x00000800, row 0x2400 0 1 0x00000A00, row 0x2401 0 1 0x00000002],
    ∀ a ∈ e.1, readWord State.reset 0 a = BitVec.ofNat 32 e.2

/-- O3. The capability registers read as the table lists them, and the worked read of DEV_ID gives its bytes. In every
state and for every partition, DEV_CAP0 to DEV_CAP15 read the words that the fields of Table 0-3 make, every bit not
listed reading 0, and DEV_ID reads 0x0E09_00B1. On a device out of the reduced state whose port P1 reported OK for the
frame with SEQ 0x29, the frame 01 2A 00 00 00 BE 04 on P1 completes and returns STATUS 00, PSEQ 29, RFLAGS 00, the word
0E 09 00 B1, and CRC EF 9E; the next response will report OK and 2A. -/
def Obligations.CapabilitiesReadAsTheTableLists : Prop :=
  (∀ (s : State) (p : Part), readWord s p.val 0 = 0x0E0900B1 ∧
    (upto 16).map (fun i => readWord s p.val (0x10 + i)) =
      [0x00000143, 0x00001024, 0x00400400, 0x00000624, 0x0000046A, 0x0004B000, 0x01E00280, 0x00000484,
       0x00020800, 0x00000100, 0x0083100A, 0x00000048, 0x0004080C, 0x00008010, 0x00000004, 0x00000001]) ∧
  ∀ s : State, Listens s 1 → reduced s = false → (portOf s 1).lastStatus = 0x00 → (portOf s 1).lastSeq = 0x29 → s.core.parity = [] →
    ∃ t, exec (.rd { port := 1, bytes := [0x01, 0x2A, 0x00, 0x00, 0x00, 0xBE, 0x04] }) s = .next t ∧
      (portOf t 1).resp = [0x00, 0x29, 0x00, 0x0E, 0x09, 0x00, 0xB1, 0xEF, 0x9E] ∧
      (portOf t 1).lastStatus = 0x00 ∧ (portOf t 1).lastSeq = 0x2A

/-- O4. Every step of every state ends settled. Whatever the state and the command at the front of its queue, a step
answers a next state, and in it no capo trigger waits (R77, R94), every interrupt controller has followed its sources
and shows no summary when none is active (R118, R119), no work runs in DOZE (R135), no device reset waits (R152), and
the gang link has taken note of the effective vote and the exported power-good. -/
def Obligations.EveryStepEndsSettled : Prop :=
  ∀ s : State, ∃ t : State, step s = .next t ∧ Settled t

/-- O5. No step overfills a mailbox or a completion ring. From every state in which every mailbox holds at most eight
messages and every completion ring at most 256 records, every step of every command, and a step on an empty queue,
answers a next state in which they still do. -/
def Obligations.EveryStepKeepsTheQueuesInBounds : Prop :=
  ∀ s : State, Bounded s → ∃ t : State, step s = .next t ∧ Bounded t

/-- O6. No step changes how many parts there are, or takes a store out of its canonical form. From every state in which
every list of like parts (ports, interrupt controllers, mailboxes, rails, sensors, flow channels, columns, FIFOs,
operation channels, LUNs, units, members) has as many elements as the device has parts, and in which every sparse store
(the registers of both domains, the image of a pending course, the buffer space and its guards, the matrix positions,
the setup flash and its markers) lists rising keys and nothing equal to what an unlisted key holds, every step of every
command, and a step on an empty queue, answers a next state of which the same holds. -/
def Obligations.EveryStepKeepsTheShapeOfTheState : Prop :=
  ∀ s : State, Counted s → Canonical s → ∃ t : State, step s = .next t ∧ Counted t ∧ Canonical t

/-- O7. While the core does not run, no command of the core changes anything, and the balls stand at their stopped
levels. For every state whose core is not running and every command that is not one of the always-on domain, exec
answers the state itself at the end of an instant: frames, courses, engines and events of the core change nothing. While
the core does not run: HIRQ, HRST, SP_ALERT_N, CAPO and FVS are at high impedance, and in a powered device NWP is low,
SEN of a rail named in PWR_RAIL_HOLD and high at the stop is high while every other SEN is low, and FSW drives the level
that the latch holds, by the polarity POL of PWR_FSAFE; NAND pads of a powered bank stand at their Stopped levels and
the panel controls at their inactive ones, and in OFF both are at high impedance. -/
def Obligations.StoppedCoreIgnoresCoreCommands : Prop :=
  (∀ (s : State) (c : Instr), s.aon.phase ≠ .run → aonCommand c = false → exec c s = .next (settle s)) ∧
  ∀ s : State, s.aon.phase ≠ .run →
    (∀ n : Fin 3, hirqPin s n.val = .z ∧ hrstPin s n.val = .z) ∧ alertPin s = .z ∧ capoPin s = .z ∧ (∀ n : Fin 2, fvsPin s n.val = none) ∧
    (s.aon.phase ≠ .dead → nwpPin s = .low ∧
      (∀ r : Fin 10, senPin s r.val = if bit s.hold.senCap r.val && bit (aused s 0xA17) r.val then .high else .low) ∧
      (∀ (n : Fin 4) (k : Nat), fswPin s n.val k = if bit s.hold.fsLevels n.val = bit (aused s 0xA16) (16 + n.val) then .low else .high)) ∧
    (s.aon.phase ≠ .dead → s.aon.phase ≠ .off →
      (∀ (powered : Bool) (b : NandPad), nandStopped s powered b = if powered then b.stopped else .z) ∧
      (∀ (sig : PanelSig) (pos : ScanPos), panelPin s sig pos = panelLevel s.hold.panelPol s.hold.panelGdir sig false)) ∧
    (s.aon.phase = .off → ∀ (powered : Bool) (b : NandPad) (sig : PanelSig) (pos : ScanPos),
      nandStopped s powered b = .z ∧ panelPin s sig pos = .z)

/-- O8. What the end of an instant may change, and when an interrupt summary asserts and is released. The end of an
instant leaves every part of the state but the capo record, the interrupt rounds, the capo source's pending bit, the
gang link's debts, SP_ALERT_N and DOZE; a state without a waiting capo trigger keeps its capo record and its pending
bits, and the gang link changes nothing but what it owes and last announced: STATE where the vote or the power-good has
changed, RPG where the power-good has, CAPO only where a capo is taken. For every interrupt controller, with its words
as it uses them, at the end of an instant: with no active source the summary is released and the round is empty; an
active source of IMM asserts it; an active source that has become active in the instant, or whose condition has occurred
in it, asserts it at once when COUNT is 1 or TIME is 0, and otherwise counts one event; an asserted summary stays
asserted while any source is active. -/
def Obligations.EndOfInstantAndItsSummaries : Prop :=
  (
    ∀ s : State, Keeps endPieces s (settle s) ∧
      (s.core.capo.trig = 0 → Piece.capo.same s (settle s) ∧ Piece.irqPend.same s (settle s)) ∧
      (∀ p : Part, let w := fun (x : State) => (nth x.core.irq p.val {}).pend
        w (settle s) = w s ∨ (s.core.capo.trig ≠ 0 ∧ w (settle s) = setBit (w s) 7 true)) ∧
      (∀ p : Part, p.val < s.core.irq.length →
        nth (settle s).core.irq p.val {} = irqNext s p.val (nth (irqWithCapo s) p.val {})) ∧
      (let g := (settle s).core.gng
       g = { s.core.gng with
         pendState := g.pendState, pendRpg := g.pendRpg, pendCapo := g.pendCapo, lastVote := effVote s, lastRpg := s.core.seq.rpgOut } ∧
       (g.pendState = true ↔ s.core.gng.pendState = true ∨
         gngEn s = true ∧ (s.core.gng.lastVote ≠ effVote s ∨ s.core.gng.lastRpg ≠ s.core.seq.rpgOut)) ∧
       (g.pendRpg = true ↔ s.core.gng.pendRpg = true ∨ gngEn s = true ∧ s.core.gng.lastRpg ≠ s.core.seq.rpgOut) ∧
       (s.core.capo.trig = 0 ∨ s.core.capo.held = true ∨ gngEn s = false → g.pendCapo = s.core.gng.pendCapo)) ∧
      (∀ p : Part, { portOf (settle s) p with alertOff := (portOf s p).alertOff } = portOf s p)) ∧ (
    ∀ (now : Nat) (q : IrqSt),
      let new := q.pend &&& q.en &&& (q.raised ||| ~~~q.prev)
      (q.pend &&& q.en = 0 → (irqAfter now q).summary = false ∧ (irqAfter now q).events = 0 ∧ (irqAfter now q).first = none) ∧
      (q.pend &&& q.en ≠ 0 → q.summary = true → (irqAfter now q).summary = true) ∧
      (q.pend &&& q.en &&& q.imm ≠ 0 → (irqAfter now q).summary = true) ∧
      (new ≠ 0 → (q.count ≤ 1 ∨ q.time = 0) → (irqAfter now q).summary = true) ∧
      (q.pend &&& q.en ≠ 0 → (irqAfter now q).events = sat 255 (q.events + popcnt new)) ∧
      (irqAfter now q).raised = 0 ∧ (irqAfter now q).pend = q.pend ∧ (irqAfter now q).en = q.en)

/-- O9. A trigger takes a capo, or is missed while one is held. At the end of an instant with a trigger: when no capo is
held, the sequence number rises by one, the capo is held exactly when HOLD is 1, the CAPO source becomes pending in
every partition, MISSED is unchanged, every block's bank reads, word by word, what the registers listed for it held in
that instant, and the stamp of every block that runs courses names the course then pending; when one is held, its bank
and number stay, MISSED increases, saturating at 255, and the source is noted. That the copies of IRQ_PEND hold the bits
before the capo's own source is the model's choice (notes/assumptions/27.md). -/
def Obligations.CapoIsTakenOrMissed : Prop :=
  ∀ s : State, s.core.capo.trig ≠ 0 →
    (s.core.capo.held = false →
      (settle s).core.capo.seq = s.core.capo.seq + 1 ∧ (settle s).core.capo.held = bit (used s 0x53) 7 ∧
      (settle s).core.capo.missed = s.core.capo.missed ∧ (∀ q ∈ (settle s).core.irq, bit q.pend 7 = true) ∧
      (∀ (blk : Fin 19) (i a : Nat), (capoCopies blk.val)[i]? = some a →
        wordValue (settle s) 0 (0x200 * blk.val + 0x1C4 + i) = regValue s 0 a) ∧
      (∀ blk : Fin 19, (blockCourse blk.val).isSome = true → s.core.course.state = 1 →
        fld (wordValue (settle s) 0 (0x200 * blk.val + 0x1C3)) 0 16 = s.core.course.number % 65536)) ∧
    (s.core.capo.held = true →
      (settle s).core.capo.seq = s.core.capo.seq ∧ (settle s).core.capo.bank = s.core.capo.bank ∧
      (settle s).core.capo.held = true ∧ (settle s).core.capo.missed = sat 255 (s.core.capo.missed + 1) ∧
      (settle s).core.capo.missedSrc = s.core.capo.missedSrc ||| s.core.capo.trig)

/-- O10. What a write frame does to its port, and to nothing else. A write frame of n words that is given outcome code
leaves on its port the outcome and SEQ for the next response, one more counted frame, and, on a host port, a response
that begins with the old STATUS and PSEQ; on SP the device has acknowledged every byte. Every other port is unchanged;
the PORT_ERR source of the partition becomes pending exactly for the outcomes that a counter counts; DOZE ends; nothing
else changes. -/
def Obligations.WriteFrameBookkeeping : Prop :=
  ∀ (s : State) (p : Part) (seq : Byte) (a n code : Nat), Listens s p →
    let t := frameClose (frameOpen s p seq n) p seq a n code
    (portOf t p).lastStatus = BitVec.ofNat 8 code ∧ (portOf t p).lastSeq = seq ∧
    (portOf t p).frames = (portOf s p).frames + 1 ∧
    (p ≠ 3 → (portOf t p).resp.take 2 = [(portOf s p).lastStatus, (portOf s p).lastSeq]) ∧
    (p = 3 → (portOf t p).acks = List.replicate (8 + 4 * n) true ∧ (portOf t p).resp = []) ∧
    (∀ q : Part, q ≠ p → portOf t q = portOf s q) ∧
    (errIndex code = none → Piece.irqPend.same s t) ∧
    ((errIndex code).isSome → t.core.irq = (raise s p.val 8).core.irq) ∧
    t.core.pwr.doze = false ∧ Keeps [.ports, .irqPend, .doze] s t

/-- O11. No read changes anything but its own port. Every NOP, RD, BRD or BRG frame of whatever bytes, checked or not,
refused or not, leaves every register, buffer byte, engine, other port and other part of the device as it was; only the
port's counters and status, its PORT_ERR source, and DOZE change, and, in a bulk read that meets a single-bit error, the
count of corrected errors. -/
def Obligations.ReadFramesTouchOnlyTheirPort : Prop :=
  ∀ (s : State) (f : Frame), Settled s →
    (f.wf 0x00 = true → ∃ t, exec (.nop f) s = .next t ∧ OnlyPort f.port s t) ∧
    (f.wf 0x01 = true → ∃ t, exec (.rd f) s = .next t ∧ OnlyPort f.port s t) ∧
    (f.wf 0x10 = true → ∃ t, exec (.brd f) s = .next t ∧ OnlyPortAndCount f.port s t) ∧
    (f.wf 0x13 = true → ∃ t, exec (.brg f) s = .next t ∧ OnlyPortAndCount f.port s t)

/-- O12. Only frames with outcome OK or MASKED change anything. For every frame but PRST on every port: when the core
runs and the partition is not in reset after the frame, and the outcome that the port then reports is neither OK nor
MASKED, in a state of which the shape is that of the device (O6), the frame has changed nothing but its own port, its
PORT_ERR source and DOZE, and, in a bulk read that meets a single-bit error, the count of corrected errors; a DENIED
frame has not changed that count either. -/
def Obligations.RefusedFramesChangeNothing : Prop :=
  ∀ (s : State) (f : Frame), Settled s → Counted s → f.bytes.head? ≠ some 0xFF →
    ∃ t, exec (.wr f) s = .next t ∧ exec (.wrm f) s = .next t ∧ exec (.bwr f) s = .next t ∧ exec (.bwg f) s = .next t ∧
      (coreUp t = true → inReset t f.port.val = false → (portOf t f.port).lastStatus ≠ 0x00 → (portOf t f.port).lastStatus ≠ 0x01 →
        OnlyPortAndCount f.port s t ∧ (f.bytes.head? ≠ some 0x10 → f.bytes.head? ≠ some 0x13 → OnlyPort f.port s t) ∧
          ((portOf t f.port).lastStatus = 0x20 → OnlyPort f.port s t))

/-- O13. NOP, PRST, SP clock-low time-out, alert response, error clear and the end of a reset pulse. On a port that
listens: a sound NOP completes, its response begins with STATUS and PSEQ of the port's previous frame, its own outcome
is OK with its SEQ, one more frame is counted, and nothing but the port and DOZE changes. A frame whose first byte is
0xFF completes whatever follows: the configuration word of a host port is 0x0000_6000 (x1 width, TA_CYCLES 96) and has
not failed its parity, and the next response reports NOFRAME with PSEQ 0x00, no frame is counted and no response is
sent. While TIMEOUT_EN is 1, a clock-low time-out gives the frame outcome SHORT and counts it; that it does so with no
byte received is the model's choice (notes/assumptions/28.md). A read of the alert address while SP_ALERT_N is asserted
and ARA_EN is 1 answers with the own address in bits [7:1], and releases the line exactly when the device wins; with
SP_ALERT_N not asserted it is not answered. A write of 1 to a port's ERRCLR by its own partition or by P0 sets that
port's error counters to 0. The end of a host reset pulse releases HRST of that port. No other port changes. -/
def Obligations.PortFramesAndPortEvents : Prop :=
  (
    ∀ (s : State) (p : Part) (seq : Byte) (rest : List Byte), Listens s p → Settled s →
      (∃ t, exec (.nop (sound p [0x00, seq, 0, 0, 0])) s = .next t ∧
        (portOf t p).resp.take 3 = [(portOf s p).lastStatus, (portOf s p).lastSeq, BitVec.ofNat 8 (reducedFlag s)] ∧
        (portOf t p).lastStatus = 0x00 ∧ (portOf t p).lastSeq = seq ∧ (portOf t p).frames = (portOf s p).frames + 1 ∧
        KeepsPort p [] s t) ∧
      (∃ t, exec (.prst { port := p, bytes := 0xFF :: rest }) s = .next t ∧
        (p ≠ 3 → t.core.regs = sset regReset s.core.regs (0x400 + 0x10 * p.val) 0x6000) ∧ (p = 3 → t.core.regs = s.core.regs) ∧
        t.core.parity = s.core.parity.filter (fun k => p = 3 || k != 0x400 + 0x10 * p.val) ∧
        (portOf t p).lastStatus = 0x30 ∧ (portOf t p).lastSeq = 0x00 ∧ (portOf t p).resp = [] ∧
        (portOf t p).frames = (portOf s p).frames ∧ KeepsPort p [.regs, .parity] s t)) ∧ (
    ∀ (s : State), Settled s →
      (∀ bytes : List Byte, Listens s 3 → bit (used s 0x430) 0 = true →
        ∃ t, exec (.spClockLowTimeout bytes) s = .next t ∧ (portOf t 3).lastStatus = 0x11 ∧
          (portOf t 3).frames = (portOf s 3).frames + 1 ∧ OnlyPort 3 s t) ∧
      (∀ wins : Bool, coreUp s = true → s.core.ports.length = 4 →
        ∃ t, exec (.alertResponse wins) s = .next t ∧
          (spAlert s = true → bit (used s 0x430) 1 = true →
            (portOf t 3).resp = [BitVec.ofNat 8 (2 * (0x58 + selfId s))] ∧ (portOf t 3).alertOff = wins) ∧
          (spAlert s = false → (portOf t 3).resp = [] ∧ (portOf t 3).alertOff = (portOf s 3).alertOff) ∧
          KeepsPort 3 [] s t) ∧
      (∀ (p n : Part) (seq : Byte) (v : Word), Listens s p → bit v 0 = true → (p = 0 ∨ p = n) →
        ∃ t, exec (.errclr p seq n v) s = .next t ∧ (portOf t n).errs = List.replicate 8 0 ∧
          (portOf t p).lastStatus = 0x00 ∧ (∀ q : Part, q ≠ p → q ≠ n → portOf t q = portOf s q) ∧
          Keeps [.ports, .irqRound, .doze] s t) ∧
      (∀ n : Fin 3, coreUp s = true → s.core.ports.length = 4 →
        ∃ t, exec (.hrstPulseEnd n) s = .next t ∧ (nth t.core.ports n.val {}).hrstEnd = none ∧
          (∀ q : Part, q.val ≠ n.val → portOf t q = portOf s q) ∧ Keeps [.ports, .irqRound] s t))

/-- O14. A read frame returns its words, or zeros where the read is refused. On a port that listens, in either clock
mode, a sound RD of n words, 1 to 64, completes. When none of the registers is hidden from the partition and each passes
its parity, the response carries STATUS, PSEQ, RFLAGS and the four bytes of each word as the partition reads it when the
address is complete, a reserved word as 0, with a right CRC (and, on SP, a PEC over the host's bytes too), and the
outcome is OK. When one is hidden from the partition, the outcome is DENIED, all the data are zeros and the CRC is
poisoned; when none is hidden and one fails its parity, the outcome is 0x24 with zeros and a poisoned CRC. -/
def Obligations.ReadFrameReturnsTheWord : Prop :=
  (∀ (s : State) (p : Part) (a : Nat), regAt a = none → readWord s p.val a = 0) ∧
  ∀ (s : State) (p : Part) (seq : Byte) (a : BitVec 16) (n : Fin 64) (m3 : Bool), Listens s p → Settled s → a.toNat + n.val < 65536 →
    let f := { sound p [0x01, seq, BitVec.ofNat 8 (a.toNat / 256), BitVec.ofNat 8 a.toNat, BitVec.ofNat 8 n.val] with mode3 := m3 }
    let s1 := portBegin s p.val m3
    let s0 := if p = 3 then modPort s1 3 (fun q => { q with acks := spAcks s1 f }) else s1
    let as := (upto (n.val + 1)).map (fun i => a.toNat + i)
    let zeros := List.replicate (4 * (n.val + 1)) (0 : Byte)
    ((∀ k ∈ as, readHidden s0 p.val k = false ∧ wordBad s0 k = false) →
      ∃ t, exec (.rd f) s = .next t ∧ (portOf t p).lastStatus = 0x00 ∧ (portOf t p).lastSeq = seq ∧
        (portOf t p).resp = response s0 p.val seq.toNat (reducedFlag s) (as.map (fun k => beBytes (readWord s0 p.val k))).flatten true f.bytes ∧
        (portOf t p).mode3 = (decide (p.val < 3) && m3) ∧ KeepsPort p [] s t) ∧
    ((∃ k ∈ as, readHidden s0 p.val k = true) →
      ∃ t, exec (.rd f) s = .next t ∧ (portOf t p).lastStatus = 0x20 ∧ (portOf t p).lastSeq = seq ∧
        (portOf t p).resp = response s0 p.val seq.toNat (reducedFlag s) zeros false f.bytes ∧ OnlyPort p s t) ∧
    ((∀ k ∈ as, readHidden s0 p.val k = false) → (∃ k ∈ as, wordBad s0 k = true) →
      ∃ t, exec (.rd f) s = .next t ∧ (portOf t p).lastStatus = 0x24 ∧
        (portOf t p).resp = response s0 p.val seq.toNat (reducedFlag s) zeros false f.bytes ∧ OnlyPort p s t)

/-- O15. A sound WR frame writes its words in one instant, WRM blends them, and a register write acts by the access
codes. For every port in either clock mode: a sound WR frame of 1 to 64 words (on SP with its PEC) completes with the
next state of the write of its words at consecutive addresses; with one word it is the write command of that register. A
sound WRM frame of 1 to 32 pairs completes with the state that the write of each (old AND NOT mask) OR (value AND mask)
leaves, the bits of WO and W1C fields counting as 0 in the old value. A write of one word by a listening partition
completes: a word that R105 refuses is DENIED with nothing stored; a reserved word keeps nothing, and a value other than
0 is MASKED; a register of RO and ST fields at its primary address, and one of LK fields under the lock, keeps its
value, and a write that differs is MASKED; IRQ_PENDx clears the bits written as 1 for its own partition and is DENIED to
others; an RW word (FLW_CHn_TARGET, EFL_CHc_ADDR) takes the written bits from its owner; a staged word takes the fields
that its writer owns, unless a reserved bit is set or the checks of its block refuse it (R188, R217, R248, R276, R298,
R331, R360, R428), when all of it is kept and MASKED. NAND work then goes on where the write unblocked it. -/
def Obligations.WriteFrameIsTheWriteItCarries : Prop :=
  (∀ (s : State) (p : Part) (seq : Byte) (a : BitVec 16) (vs : List Word) (m3 : Bool), Listens s p → 1 ≤ vs.length →
    let hdr := fun (op : Byte) (n : Nat) => [op, seq, BitVec.ofNat 8 (a.toNat / 256), BitVec.ofNat 8 a.toNat, BitVec.ofNat 8 (n - 1)]
    let s0 := modPort s p.val (fun q => { q with mode3 := decide (p.val < 3) && m3 })
    (vs.length ≤ 64 → a.toNat + vs.length ≤ 65536 →
      exec (.wr { soundWrite s p (hdr 0x02 vs.length ++ (vs.map beBytes).flatten) with mode3 := m3 }) s
        = .next (settle (writeFrame s0 p seq a.toNat vs))) ∧
    (∀ v : Word, exec (.registerWrite p seq a v) s = .next (settle (writeFrame s p seq a.toNat [v]))) ∧
    (vs.length ≤ 32 → a.toNat + vs.length ≤ 65536 → ∀ ms : List Word, ms.length = vs.length →
      let pairs := (ms.zip vs).map (fun e => [e.1, e.2])
      let s1 := frameOpen s0 p seq (2 * vs.length)
      let x := writeRegs s1 p (wrmWrites s1 p.val a.toNat pairs.flatten)
      exec (.wrm { soundWrite s p (hdr 0x03 vs.length ++ (pairs.map (fun e => (e.map beBytes).flatten)).flatten) with mode3 := m3 }) s
        = .next (settle (frameEnd x.1 p.val { op := 3, seq := seq.toNat, addr := a.toNat, len := vs.length - 1, bulk := false } x.2
            (7 + 8 * vs.length + b2n (p == 3)))))) ∧
  (∀ (s : State) (p : Part) (seq : Byte) (a : BitVec 16) (v : Word), Listens s p →
    let x := frameOpen s p seq 1
    let k := a.toNat
    let ack := fun (code : Nat) (f : State → State) => exec (.registerWrite p seq a v) s = .next (framed s p seq k 1 code f)
    let on := fun (y : State) => if touchesNfc [(k, v)] then nfcAfter y else y
    let differs := fun (m : Word) => if (v ^^^ wordValue x p.val k) &&& m = 0 then 0x00 else 0x01
    (wordDenied x p.val k v = true → ack 0x20 id) ∧
    (regAt k = none → ack (if v = 0 then 0x00 else 0x01) on) ∧
    (wordDenied x p.val k v = false → ∀ r, regAt k = some r →
      (k % 0x200 < 0x100 → badW s k = false → r.fs.all (fun g => g.acc == .ro || g.acc == .st) = true → ack (differs (fsMask r.fs)) on) ∧
      (k ∈ [0x43, 0x53, 0x217, 0x218, 0x220, 0x221, 0x222, 0x223, 0x224, 0x225, 0x226, 0x270, 0x271, 0x272, 0x273, 0x401, 0x411, 0x421, 0x430] →
        locked x = true → ack (differs (fsMask r.fs)) on) ∧
      (k ∈ [0x217, 0x218, 0x220, 0x221, 0x222, 0x223, 0x224, 0x225, 0x226, 0x270, 0x271, 0x272, 0x273] →
        locked x = false → ack 0x00 (fun y => on (putReg y k (blend (rd s k) v (fsMask r.fs))))) ∧
      (isStaged k = true → k ≠ 0x1909 → k ≠ 0x190D →
        let open1 := p == 0 && !locked x
        let new := blend (rd x k) v (accMask r (fun g => (!g.lk || open1) && writerOf x p.val g.own == p.val))
        let kept := if (v ^^^ rd x k) &&& accMask r (fun g => g.lk && !open1) = 0 then 0x00 else 0x01
        (v &&& ~~~(fsMask r.fs) ≠ 0 → reservedRefused (k - 0x100) = true → ack 0x01 id) ∧
        ((v &&& ~~~(fsMask r.fs) = 0 ∨ reservedRefused (k - 0x100) = false) →
          (new = rd x k → ack kept id) ∧
          (new ≠ rd x k → stagedOk x (k - 0x100) new = true → ack kept (fun y => setR y k new)) ∧
          (new ≠ rd x k → stagedOk x (k - 0x100) new = false → ack 0x01 id))))) ∧
  (∀ (s : State) (p q : Part) (seq : Byte) (v : Word), Listens s p →
    let write := fun (k : Nat) => exec (.registerWrite p seq (BitVec.ofNat 16 k) v) s
    (∀ h : Fin 2, let k := 0x800 + 0x40 * q.val + h.val
      (p = q → write k = .next (framed s p seq k 1 0x00 (fun y => if v = 0 then y else modIrq y q.val (fun i =>
        { i with pend := putHalf i.pend h.val (BitVec.ofNat 32 (fld i.pend (32 * h.val) 32) &&& ~~~v) })))) ∧
      (p ≠ q → write k = .next (deniedAt s p seq k 1))) ∧
    (∀ n : Fin 6, let k := 0x1005 + 0x10 * n.val
      (ownerN s (.flow n.val) = p.val → write k = .next (framed s p seq k 1 0x00 (fun y => putReg y k (blend (rd s k) v 0xFFFF)))) ∧
      (ownerN s (.flow n.val) ≠ p.val → write k = .next (deniedAt s p seq k 1))) ∧
    (∀ c : Fin 8, let k := 0x1628 + 8 * c.val
      (ownerN s (.sfr c.val) = p.val → write k = .next (framed s p seq k 1 0x00 (fun y => putReg y k (blend (rd s k) v 0x1FFFFF)))) ∧
      (ownerN s (.sfr c.val) ≠ p.val → write k = .next (deniedAt s p seq k 1))))

/-- O16. The retained words belong to P0: its write reaches the always-on domain, and every other partition is refused.
For every k from 0 to 31: a write of PWR_RETk by P0 completes with the word held in the always-on domain in that
instant, outcome OK, and every other always-on word, register and part of the device as it was; its low half is then
retained word 2k, its high half retained word 2k + 1, and every other of the 64 retained words keeps its value. The same
write by P1, P2 or P3 completes with outcome DENIED and changes nothing but the port. -/
def Obligations.RetainedWordIsWritten : Prop :=
  ∀ (s : State) (p : Part) (seq : Byte) (k : Fin 32) (v : Word), Listens s p → Settled s → swf regReset s.aon.regs = true →
    let retained := fun (x : State) (j : Nat) => BitVec.ofNat 16 ((ard x (0xA40 + j / 2)).toNat / (if j % 2 = 0 then 1 else 65536))
    ∃ t, exec (.registerWrite p seq (BitVec.ofNat 16 (0xA40 + k.val)) v) s = .next t ∧
      (p = 0 → ard t (0xA40 + k.val) = v ∧ (∀ a, a ≠ 0xA40 + k.val → ard t a = ard s a) ∧
        retained t (2 * k.val) = BitVec.ofNat 16 v.toNat ∧ retained t (2 * k.val + 1) = BitVec.ofNat 16 (v.toNat / 65536) ∧
        (∀ j : Fin 64, j.val / 2 ≠ k.val → retained t j.val = retained s j.val) ∧
        readWord t p.val (0xA40 + k.val) = v ∧
        t.core.parity = s.core.parity.filter (fun a => a != 0xA40 + k.val) ∧
        { t.aon with regs := s.aon.regs } = s.aon ∧ (portOf t p).lastStatus = 0x00 ∧ KeepsPort p [.aon, .parity] s t) ∧
      (p ≠ 0 → (portOf t p).lastStatus = 0x20 ∧ OnlyPort p s t)

/-- O17. Bulk frames write and read the rows of the buffer space that their issuer may reach, and only those. For a
frame of 1 to 64 words whose range lies in one row, on a port that listens: over granules of the own quota BWR stores
the bytes, marks the granules written and their guards absent, and leaves every other byte, written bit and guard; BWG,
in one granule, stores the guard word too and marks it valid; BRD and BRG give the bytes, zeros where a granule was
never written, and tell of it and of an absent guard. In one slot of a mailbox payload the sender writes the slot that
is next while the mailbox is not full and reads every slot, and the receiver reads a full slot. Every partition reads
the own completion ring and writes none. Every partition reads the pixels; the owner of their region writes them, while
they take no part in a run and where gamma mode has its table, and CUR and TALLY keep their values. The setup flash
window gives the bytes of the regions that are not hidden, BUSY while a bank of the range is written, and BUFFER_ECC on
an uncorrectable word. Any other access is DENIED and changes nothing but the port. A read that meets an uncorrectable
word ends BUFFER_ECC with zeros as data; a write leaves such a word so unless it covers it whole; single-bit errors met
are counted (notes/assumptions/9.md: the read of one leaves it in its word). -/
def Obligations.BulkFramesReachTheQuota : Prop :=
  ∀ (s : State) (p : Part) (seq : Byte) (k : Fin 0x100000) (ws : List Word) (guard : Word),
    Listens s p → Settled s → swf bufReset s.core.buf.mem = true → ws ≠ [] → ws.length ≤ 64 →
    let a := 4 * k.val
    let n := 4 * ws.length
    let body := (ws.map beBytes).flatten
    let hdr := fun (op : Byte) => [op, seq, BitVec.ofNat 8 (a / 65536), BitVec.ofNat 8 (a / 256), BitVec.ofNat 8 a, BitVec.ofNat 8 (ws.length - 1)]
    let wr := Instr.bwr (soundWrite s p (hdr 0x11 ++ body))
    let wg := Instr.bwg (soundWrite s p (hdr 0x12 ++ body ++ beBytes guard))
    let rd := Instr.brd (sound p (hdr 0x10))
    let rg := Instr.brg (sound p (hdr 0x13))
    let b := s.core.buf
    let whole := fun (w : Nat) => decide (a ≤ 8 * w ∧ 8 * w + 8 ≤ a + n)
    let denied := fun (i : Instr) => ∃ t, exec i s = .next t ∧ (portOf t p).lastStatus = 0x20 ∧ OnlyPort p s t
    let stored := fun (t : State) => bufBytes t a n = body ∧ (∀ x, x < a ∨ a + n ≤ x → bufByte t x = bufByte s x) ∧
      t.core.buf.bad = b.bad.filter (fun w => !whole w) ∧ t.core.buf.soft = b.soft.filter (fun w => !(wordsOf a n).elem w) ∧
      t.core.buf.corrected = b.corrected + ((bufSoft b a n).filter (fun w => !whole w)).length ∧
      (portOf t p).lastStatus = 0x00 ∧ KeepsPort p [.buf] s t
    let gives := fun (i : Instr) (data : List Byte) (flags : Nat) => ∃ t, exec i s = .next t ∧
      t.core.buf = { b with corrected := b.corrected + (bufSoft b a n).length } ∧
      (bufBad s a n = false → (portOf t p).lastStatus = 0x00 ∧ KeepsPort p [.buf] s t ∧ ((portOf t p).resp.drop 3).take data.length = data ∧
        nth (portOf t p).resp 2 0 = BitVec.ofNat 8 (flags + reducedFlag s)) ∧
      (bufBad s a n = true → (portOf t p).lastStatus = 0x25 ∧ OnlyPortAndCount p s t ∧
        ((portOf t p).resp.drop 3).take data.length = List.replicate data.length 0)
    (a + n ≤ 0x40000 →
      let gs := granulesOf a n
      let wrote := fun (g : Nat) => bit b.written g
      let data := (bufBytes s a n).zipIdx.map (fun e => if wrote ((a + e.2) / 512) then e.1 else 0)
      let un := b2n (gs.any (fun g => !wrote g))
      let marked := fun (t : State) (ok : Bool) => (∀ g : Fin 512, bit t.core.buf.written g.val = (wrote g.val || gs.elem g.val)) ∧
        ∀ g : Fin 512, bit t.core.buf.guardOk g.val = (if gs.elem g.val then ok else bit b.guardOk g.val)
      (gs.all (inQuota s p.val) = true →
        (∃ t, exec wr s = .next t ∧ stored t ∧ marked t false) ∧ gives rd data un ∧
        (gs.length = 1 → (∃ t, exec wg s = .next t ∧ stored t ∧ marked t true ∧
            (swf (fun _ => 0) b.guards = true → sget (fun _ => 0) t.core.buf.guards (a / 512) = guard)) ∧
          gives rg (data ++ beBytes (if bit b.guardOk (a / 512) then sget (fun _ => 0) b.guards (a / 512) else 0))
            (un + (if bit b.guardOk (a / 512) then 0 else 2)))) ∧
      (gs.all (inQuota s p.val) = false → denied wr ∧ denied rd ∧ (gs.length = 1 → denied wg ∧ denied rg))) ∧
    (0x80000 ≤ a → a + n ≤ 0x81800 → (a - 0x80000) / 64 = (a + n - 1 - 0x80000) / 64 →
      let m := (a - 0x80000) / 512
      let slot := (a - 0x80000) / 64 % 8
      let box := nth s.core.mbxs m {}
      let full := (slot + 8 - box.rd) % 8 < box.held
      let writes := mbxSender m = p.val ∧ box.held < 8 ∧ slot = box.wr
      let reads := mbxSender m = p.val ∨ (mbxReceiver m = p.val ∧ full)
      (writes → ∃ t, exec wr s = .next t ∧ stored t ∧ t.core.buf.written = b.written ∧ t.core.buf.guardOk = b.guardOk) ∧
      (reads → gives rd (bufBytes s a n) 0) ∧ (¬writes → denied wr) ∧ (¬reads → denied rd)) ∧
    (0x84000 ≤ a → a + n ≤ 0x88000 →
      let own := 0x84000 + 4096 * p.val ≤ a ∧ a + n ≤ 0x84000 + 4096 * p.val + 4096
      denied wr ∧ (own → gives rd (bufBytes s a n) 0) ∧ (¬own → denied rd)) ∧
    (0x100000 ≤ a → a + n ≤ 0x196000 →
      let gamma := fun (i : Nat) => match regionOfPix s i with
        | some r => bit (used s 0x1453) r
        | none => false
      let may := fun (i : Nat) => (match regionOfPix s i with
          | some r => ownerN s (.panel r) == p.val
          | none => false) &&
        (match s.core.epd.run with
          | some u => u.pix.all (fun q => q.idx != i)
          | none => true) && (!gamma i || s.core.pix.gamma.isSome)
      let is := pixelsOf a n
      gives rd (bufBytes s a n) 0 ∧ (is.all may = false → denied wr) ∧
      (is.all may = true → bufBad s a n = false → ∃ t, exec wr s = .next t ∧ (portOf t p).lastStatus = 0x00 ∧ KeepsPort p [.buf] s t ∧
        t.core.buf.corrected = b.corrected + (bufSoft b a n).length ∧ (∀ x, x < a ∨ a + n ≤ x → bufByte t x = bufByte s x) ∧
        ∀ i ∈ is,
          let old := pixWord s i
          let v := leNat ((body.drop (2 * i + 0x100000 - a)).take 2)
          let tgt := if gamma i then gammaLevel s (s.core.pix.gamma.getD []) (pixInk s i) (v % 256) else v / 16 % 16
          pixWord t i = mkPix (pixCur old) tgt (pixTally old) (v.testBit 14) (v.testBit 15 || tgt != pixTgt old || pixUnknown old))) ∧
    (0x200000 ≤ a → a + n ≤ 0x400000 →
      let off := a - 0x200000
      let busy := (off < 0x100000 ∧ bankWrites s 0 = true) ∨ (0x100000 < off + n ∧ bankWrites s 1 = true)
      let r := flashRead s true off n
      let code := if busy then 0x23 else if r.2 then 0x25 else 0
      denied wr ∧ (flashHidden s p.val off n = true → denied rd) ∧
      (flashHidden s p.val off n = false → ∃ t, exec rd s = .next t ∧ (portOf t p).lastStatus = BitVec.ofNat 8 code ∧
        (code = 0 → KeepsPort p [] s t ∧ ((portOf t p).resp.drop 3).take n = r.1) ∧
        (code ≠ 0 → OnlyPort p s t ∧ ((portOf t p).resp.drop 3).take n = List.replicate n 0)))

/-- O18. A course commit is assigned, queued or refused. After a device reset the latest number is 0. A commit of a mask
that is not 0 by a listening partition, with no course PENDING and none queued, completes with outcome OK, takes the
next number (1 after 65,535) for that mask and owner, which DEV_COURSE_TARGET reads from that instant, and is at once
taken up by GNG, where no gang frame is on the bus, and by EPD, where no panel run is under way; one that names only
THM, FLW, KEY and SEQ, which are never idle, is PENDING with nothing taken, holds the stored words and the list of
failed words as they are in that instant, and changes nothing but the course record, the port and DOZE. P0 behind
another partition's course with none queued has its mask queued; any other commit while one is PENDING is counted as
refused with outcome MASKED. A mask of 0 has outcome OK and changes nothing but the port. -/
def Obligations.CommitAssignsQueuesOrRefuses : Prop :=
  State.reset.core.course.number = 0 ∧ ({} : CourseSt).number = 0 ∧
  ∀ (s : State) (p : Part) (seq : Byte) (v : Word), Listens s p → Settled s → s.core.course.running.length = 8 →
    let mask := BitVec.ofNat 8 v.toNat
    ∃ t, exec (.courseCommit p seq v) s = .next t ∧
      (mask = 0 → (portOf t p).lastStatus = 0x00 ∧ KeepsPort p [] s t) ∧
      (mask ≠ 0 → s.core.course.state ≠ 1 → s.core.course.queued = none →
        t.core.course.number = (if s.core.course.number = 65535 then 1 else s.core.course.number + 1) ∧
        t.core.course.blocks = mask ∧ t.core.course.owner = p ∧ (portOf t p).lastStatus = 0x00 ∧
        (∀ q : Part, readWord t q.val 0x41 = mkW [(0, 16, t.core.course.number), (16, 8, mask.toNat), (24, 2, p.val)]) ∧
        (∀ i ∈ [0, 1, 2, 4], nth t.core.course.running i 0 = nth s.core.course.running i 0) ∧
        (bit mask 7 = true → s.core.gng.busy = false → nth t.core.course.running 7 0 = t.core.course.number) ∧
        (bit mask 7 = true → s.core.gng.busy = true → nth t.core.course.running 7 0 = nth s.core.course.running 7 0) ∧
        (bit mask 3 = true → s.core.epd.run = none → nth t.core.course.running 3 0 = t.core.course.number) ∧
        (mask &&& ~~~0x17#8 = 0 → t.core.course.state = 1 ∧ t.core.course.taken = 0 ∧
          t.core.course.image = s.core.regs ∧ t.core.course.imageBad = s.core.parity ∧
          t.core.course.running = s.core.course.running ∧
          t.core.course.log = s.core.course.log ∧ KeepsPort p [.course] s t)) ∧
      (mask ≠ 0 → s.core.course.state = 1 → p = 0 → s.core.course.owner ≠ 0 → s.core.course.queued = none →
        t.core.course = { s.core.course with queued := some mask } ∧ (portOf t p).lastStatus = 0x00 ∧
        KeepsPort p [.course] s t) ∧
      (mask ≠ 0 → s.core.course.state = 1 → (p ≠ 0 ∨ s.core.course.owner = 0 ∨ s.core.course.queued ≠ none) →
        t.core.course = { s.core.course with refused := sat 65535 (s.core.course.refused + 1) } ∧
        (portOf t p).lastStatus = 0x01 ∧ KeepsPort p [.course, .irqPend] s t)

/-- O19. Blocks and LUNs take a pending course up, and one that no block takes in time is dropped. At a quiescent point
of a block that the pending course targets and that has not taken it up, the block publishes the course's number as
RUNNING and counts as taken; when it was the last one and no commit is queued, the course is COMPLETE, its log entry
(number, blocks, owner, outcome, time from the commit, blocks taken) goes in before the three latest others, and
COURSE_DONE becomes pending in the committing partition; otherwise it stays PENDING. A block without a pending course
changes nothing. Every word of the block whose ST fields the committing partition owned at the commit then holds in
those fields the staged values of the commit instant, and passes its parity (that a carried word passes it is the
model's reading, notes/assumptions/12.md); so it is for EFL_CFG, in each bank as it takes up and in the register with
the second one, and for the configuration word of a LUN. EPD takes up only where no panel run is under way, GNG where no
gang frame is on the bus, EFL bank by bank where no operation is under way in it, and the quiescent point of NFC is that
of its LUNs. A LUN that may take up runs the course's number and no longer waits for it; a LUN that may not changes
nothing. With a course PENDING and none queued, the time-out makes it STALLED: STALLS increases, its captured words are
dropped, no block's RUNNING changes, no register changes, the log gains its entry, and COURSE_STALLED becomes pending in
the committing partition and in P0. With no course PENDING nothing changes. -/
def Obligations.CoursesAreTakenUpOrStall : Prop :=
  (
    ∀ (s : State), coreUp s = true → s.core.course.running.length = 8 → s.core.course.queued = none → s.core.irq.length = 4 →
      let c := s.core.course
      let ms := ((now s - c.commitTick) * 1000 + 16384) / 32768
      let entry := fun (taken : BitVec 8) => (mkW [(0, 16, c.number), (16, 8, c.blocks.toNat), (24, 2, c.owner.val), (26, 2, 1)],
        mkW [(0, 14, if 16383 ≤ ms then 16383 else ms), (16, 8, taken.toNat)])
      let mine := fun (a : Nat) => carryMask (atCommit s) c.owner.val a
      let staged := fun (a : Nat) => sget regReset c.image (stagedOf a)
      (∀ b : Block, b ≠ .nfc → b ≠ .efl → (b = .epd → s.core.epd.run = none) → (b = .gng → s.core.gng.busy = false) →
        let i := blockIndex b
        ∃ t, exec (.courseTakeUp b) s = .next t ∧
          (courseDue s i = false → t = settle s) ∧
          (courseDue s i = true → nth t.core.course.running i 0 = s.core.course.number ∧ t.core.course.number = s.core.course.number ∧
            t.core.course.taken = setBit s.core.course.taken i true ∧
            (s.core.course.blocks &&& ~~~(setBit s.core.course.taken i true) = 0 →
              t.core.course.state = 2 ∧ t.core.course.image = [] ∧ t.core.course.imageBad = [] ∧
              t.core.course.log = entry (setBit c.taken i true) :: c.log.take 3 ∧ bit (nth t.core.irq c.owner.val {}).pend 6 = true) ∧
            (s.core.course.blocks &&& ~~~(setBit s.core.course.taken i true) ≠ 0 →
              t.core.course.state = 1 ∧ t.core.course.log = s.core.course.log) ∧
            (Canonical s → ∀ a : Nat, courseBlock a = some i → (primReg a).isSome = true → isStaged a = false →
              rd t a &&& mine a = staged a &&& mine a ∧ (mine a ≠ 0 → badW t a = false)))) ∧
      exec (.courseTakeUp .nfc) s = .next (settle (nfcAfter s)) ∧
      (s.core.epd.run ≠ none → exec (.courseTakeUp .epd) s = .next (settle s)) ∧
      (s.core.gng.busy = true → exec (.courseTakeUp .gng) s = .next (settle s)) ∧
      (courseDue s 6 = false → exec (.courseTakeUp .efl) s = .next (settle s)) ∧
      (courseDue s 6 = true → s.core.course.eflTaken ≠ 3 → s.core.efl.banks.length = 2 → bankBetween s 0 = true → bankBetween s 1 = true →
        ∃ t, exec (.courseTakeUp .efl) s = .next t ∧ nth t.core.course.running 6 0 = s.core.course.number ∧
          (∀ b : Fin 2, bit c.eflTaken b.val = false → (nth t.core.efl.banks b.val {}).course = c.number ∧
            (nth t.core.efl.banks b.val {}).cfg &&& mine 0x1600 = staged 0x1600 &&& mine 0x1600) ∧
          (Canonical s → rd t 0x1600 &&& mine 0x1600 = staged 0x1600 &&& mine 0x1600 ∧ (mine 0x1600 ≠ 0 → badW t 0x1600 = false))) ∧
      (courseDue s 6 = true → s.core.course.eflTaken = 0 → s.core.efl.banks.length = 2 → bankBetween s 0 = true → bankBetween s 1 = false →
        ∃ t, exec (.courseTakeUp .efl) s = .next t ∧ nth t.core.course.running 6 0 = nth s.core.course.running 6 0 ∧
          (nth t.core.efl.banks 0 {}).course = s.core.course.number ∧ nth t.core.efl.banks 1 {} = nth s.core.efl.banks 1 {} ∧
          (nth t.core.efl.banks 0 {}).cfg &&& mine 0x1600 = staged 0x1600 &&& mine 0x1600 ∧ t.core.regs = s.core.regs) ∧
      (∀ l : Fin 16, s.core.nfc.luns.length = 16 →
        ∃ t, exec (.lunCourseTakeUp l) s = .next t ∧
          (lunMayTake s l.val = false → t = settle s) ∧
          (lunMayTake s l.val = true → (lunOf t l.val).running = s.core.course.number ∧ (lunOf t l.val).pending = false ∧
            (Canonical s → let a := lunCfgA l.val
              rd t a &&& mine a = staged a &&& mine a ∧ (mine a ≠ 0 → badW t a = false))))) ∧ (
    ∀ s : State, coreUp s = true →
      (s.core.course.state ≠ 1 → exec .courseStall s = .next (settle s)) ∧
      (s.core.course.state = 1 → s.core.course.queued = none → s.core.irq.length = 4 →
        ∃ t, exec .courseStall s = .next t ∧ t.core.course.state = 3 ∧ t.core.course.image = [] ∧ t.core.course.imageBad = [] ∧
          t.core.course.stalls = sat 65535 (s.core.course.stalls + 1) ∧ t.core.course.running = s.core.course.running ∧
          t.core.course.number = s.core.course.number ∧
          (let c := s.core.course
           let ms := ((now s - c.commitTick) * 1000 + 16384) / 32768
           t.core.course.log = (mkW [(0, 16, c.number), (16, 8, c.blocks.toNat), (24, 2, c.owner.val), (26, 2, 2)],
             mkW [(0, 14, if 16383 ≤ ms then 16383 else ms), (16, 8, c.taken.toNat)]) :: c.log.take 3) ∧
          t.core.regs = s.core.regs ∧
          bit (nth t.core.irq s.core.course.owner.val {}).pend 5 = true ∧ bit (nth t.core.irq 0 {}).pend 5 = true))

/-- O20. Capo triggers, the release of a held capo, and the timebase latch of the writer. A write of 1 to TRIG by a
listening partition with WRITE_EN takes a capo when none is held: the sequence number rises by one; without WRITE_EN it
is DENIED and changes nothing but the port. A pin edge takes one while PIN_IN is 1 and the line is not driven, and
otherwise changes nothing but the model's mark that an edge has shown the line's level (notes/assumptions/7.md). The end
of the drive releases the line and changes nothing else. A release by P0 ends the hold, clears MISSED and MISSED_SRC and
keeps the banks; by another partition it is DENIED. A write of 1 to DEV_TBASE_LATCH by any listening partition completes
with outcome OK: the writer's latch holds the timebase of that instant, every other partition's latch is as before, and
nothing else but the port and DOZE changes. -/
def Obligations.CapoTriggersReleaseAndLatch : Prop :=
  (
    ∀ (s : State) (p : Part) (seq : Byte) (v : Word), Settled s → bit v 0 = true →
      (Listens s p → bit (used s 0x53) p.val = true → s.core.capo.held = false →
        ∃ t, exec (.capoTrig p seq v) s = .next t ∧ t.core.capo.seq = s.core.capo.seq + 1 ∧
          (portOf t p).lastStatus = 0x00 ∧ Keeps [.capo, .ports, .irqPend, .irqRound, .gng, .doze] s t) ∧
      (Listens s p → bit (used s 0x53) p.val = false →
        ∃ t, exec (.capoTrig p seq v) s = .next t ∧ (portOf t p).lastStatus = 0x20 ∧ OnlyPort p s t) ∧
      (coreUp s = true →
        (∃ t, exec .capoPinEdge s = .next t ∧
          (bit (used s 0x53) 4 = true → s.core.capo.driving = false → s.core.capo.held = false →
            t.core.capo.seq = s.core.capo.seq + 1) ∧
          ((bit (used s 0x53) 4 = false ∨ s.core.capo.driving = true) →
            t = settle { s with core := { s.core with capo := { s.core.capo with pinReset := false } } })) ∧
        (∃ t, exec .capoDriveEnd s = .next t ∧ t.core.capo = { s.core.capo with driving := false } ∧
          Keeps [.capo, .irqRound, .doze] s t)) ∧
      (Listens s p →
        ∃ t, exec (.capoRelease p seq v) s = .next t ∧
          (p = 0 → t.core.capo = { s.core.capo with held := false, missed := 0, missedSrc := 0 } ∧
            (portOf t p).lastStatus = 0x00 ∧ KeepsPort p [.capo] s t) ∧
          (p ≠ 0 → (portOf t p).lastStatus = 0x20 ∧ OnlyPort p s t))) ∧ (
    ∀ (s : State) (p : Part) (seq : Byte) (v : Word), Listens s p → Settled s → bit v 0 = true → s.core.dev.latches.length = 4 →
      ∃ t, exec (.tbaseLatch p seq v) s = .next t ∧ nth t.core.dev.latches p.val 0 = s.aon.tbase ∧
        (∀ q : Part, q ≠ p → nth t.core.dev.latches q.val 0 = nth s.core.dev.latches q.val 0) ∧
        t.core.dev.parityCount = s.core.dev.parityCount ∧ (portOf t p).lastStatus = 0x00 ∧ KeepsPort p [.dev] s t)

/-- O21. Crystal windows choose the timebase source; loss of lock, parity faults and buffer mismatches are reported or
kept. At the end of a 16 ms window in a powered device: on X32, a window with fewer than half of the expected edges (of
524.288) moves the timebase to RC32, sets X32_FAIL, counts the switch and raises CLOCK in every partition while the core
runs; a good one changes nothing. On RC32, the fourth good window in a row moves it back to X32 without counting a
failure; a bad window starts the count again. The timebase value and the tick count never change. A loss of lock while
the core runs on the PLL moves it to RC48, sets PLL_LOSS, counts it, and raises CLOCK in every partition; on RC48 it
changes nothing. A register that fails parity is recorded by its address, counted, and raised as REG_PARITY in every
partition; when it is the staged image of a THM, FLW, KEY, EPD or SEQ register, the image takes the value in force and
no word in force and no other staged word changes; a configuration word in force keeps its stored bits but is no longer
used; a reserved address never fails parity. A word of the buffer space that becomes uncorrectable is listed as such and
one with a single-bit error as such, and nothing else changes; that REGISTER_PARITY_FAULT brings these errors in is the
model's choice (notes/assumptions/9.md). What stands in for a failed word is the model's free value
(notes/assumptions/12.md). -/
def Obligations.ClockAndParityFaultsAreHandled : Prop :=
  (
    ∀ (s : State) (edges : Nat), s.aon.phase ≠ .dead →
      ∃ t, exec (.clockWindowCheck edges) s = .next t ∧ t.aon.osc = s.aon.osc ∧ t.aon.tbase = s.aon.tbase ∧
        (s.aon.onRc32 = false → 524288 ≤ 2000 * edges → t = settle s) ∧
        (s.aon.onRc32 = false → 2000 * edges < 524288 → t.aon = { s.aon with onRc32 := true, goodWins := 0 } ∧
          (coreUp s = true → t.core.pwr.x32Fail = true ∧ t.core.pwr.x32Switches = sat 255 (s.core.pwr.x32Switches + 1) ∧
            ∀ q ∈ t.core.irq, bit q.pend 3 = true)) ∧
        (s.aon.onRc32 = true → 524288 ≤ 2000 * edges → 3 ≤ s.aon.goodWins → t.aon = { s.aon with onRc32 := false, goodWins := 0 }) ∧
        (s.aon.onRc32 = true → 524288 ≤ 2000 * edges → s.aon.goodWins < 3 → t.aon = { s.aon with goodWins := s.aon.goodWins + 1 }) ∧
        (s.aon.onRc32 = true → 2000 * edges < 524288 → t.aon = { s.aon with goodWins := 0 }) ∧
        (s.aon.onRc32 = true → t.core.pwr.x32Switches = s.core.pwr.x32Switches)) ∧ (
    ∀ s : State, coreUp s = true → s.core.irq.length = 4 →
      (s.core.pwr.rc48 = true → exec .pllLossOfLock s = .next (settle s)) ∧
      (s.core.pwr.rc48 = false → ∃ t, exec .pllLossOfLock s = .next t ∧ t.core.pwr.rc48 = true ∧ t.core.pwr.pllLoss = true ∧
        t.core.pwr.pllLosses = sat 255 (s.core.pwr.pllLosses + 1) ∧ (∀ q ∈ t.core.irq, bit q.pend 3 = true) ∧
        t.aon = s.aon) ∧
      (∀ a : BitVec 16, regAt a.toNat = none → exec (.registerParityFault (.register a)) s = .next (settle s)) ∧
      (∀ a : BitVec 16, (regAt a.toNat).isSome = true →
        ∃ t, exec (.registerParityFault (.register a)) s = .next t ∧ t.core.dev.parityAddr = a.toNat ∧
        t.core.dev.parityCount = sat 65535 (s.core.dev.parityCount + 1) ∧ (∀ q ∈ t.core.irq, bit q.pend 4 = true) ∧
        (0xC00 ≤ a.toNat → a.toNat < 0x1600 → isStaged a.toNat = true →
          t.core.regs = sset regReset s.core.regs a.toNat (rd s (a.toNat - 0x100)) ∧ t.core.parity = s.core.parity) ∧
        (isStaged a.toNat = false → a.toNat ≠ 0x1809 → a.toNat ≠ 0x180D → configWord a.toNat = true →
          t.core.parity = insertNat a.toNat s.core.parity ∧ rd t a.toNat = rd s a.toNat ∧
          (a.toNat ≠ 0xE00 → t.core.parity.elem a.toNat = true → used t a.toNat = Config.standIn a.toNat (rd s a.toNat)))) ∧
      (∀ (w : BitVec 18) (single : Bool), Settled s →
        let held := match bufKind (8 * w.toNat) 8 with
          | some k => decide (k ≤ 3)
          | none => false
        ∃ t, exec (.registerParityFault (.buffer w single)) s = .next t ∧ Keeps [.buf, .irqRound, .doze] s t ∧
          (held = false → t = settle s) ∧
          (held = true → single = false → t.core.buf = { s.core.buf with
            bad := insertNat w.toNat s.core.buf.bad, soft := s.core.buf.soft.filter (fun x => x != w.toNat) }) ∧
          (held = true → single = true → s.core.buf.bad.elem w.toNat = false →
            t.core.buf = { s.core.buf with soft := insertNat w.toNat s.core.buf.soft }) ∧
          (held = true → single = true → s.core.buf.bad.elem w.toNat = true → t = settle s)))

/-- O22. The steward's lock, slot shares, LUN weights and limits; each partition's coalescing word. A write of
PART_LOCK, a slot share, the LUN weights or the LUN limits by a partition other than P0 is DENIED and changes nothing
but its port. By P0: the lock, once set, stays set, and a write of another value is MASKED (R60: a value that differs
from the one kept; that a write of the kept value is OK is logged as the model's reading, notes/assumptions/26.md); a
share is stored with outcome OK when the guaranteed slots then sum to at most 1,024 and otherwise kept with MASKED;
limits are stored when each is at least 1 and they sum to at most 64, and otherwise kept with MASKED; each non-zero
weight is stored, and a zero weight keeps its old value with MASKED. A partition's own coalescing word takes COUNT and
TIME, a COUNT of 0 keeping the old COUNT with MASKED; another partition's write is DENIED. NAND work then goes on where
the write unblocked it. -/
def Obligations.StewardWordsAreStoredKeptOrDenied : Prop :=
  ∀ (s : State) (p q : Part) (seq : Byte) (v : Word), Listens s p →
    (p ≠ 0 → exec (.stewardLock p seq v) s = .next (deniedAt s p seq 0x200 1) ∧
      exec (.slotShareWrite p seq q v) s = .next (deniedAt s p seq (0x240 + q.val) 1) ∧
      exec (.lunWeightWrite p seq v) s = .next (deniedAt s p seq 0x250 1) ∧
      exec (.lunMaxWrite p seq v) s = .next (deniedAt s p seq 0x251 1)) ∧
    (p = 0 →
      (locked s = false → exec (.stewardLock p seq v) s =
        .next (framed s p seq 0x200 1 0x00 (fun x => nfcAfter (putReg x 0x200 (blend (rd s 0x200) v 1))))) ∧
      (locked s = true → exec (.stewardLock p seq v) s =
        .next (framed s p seq 0x200 1 (if bit v 0 = bit (rd s 0x200) 0 then 0x00 else 0x01) nfcAfter)) ∧
      (let a := 0x240 + q.val
       let sum := fld v 0 11 + (((upto 4).filter (fun i => i != q.val)).map (fun i => uf s (0x240 + i) 0 11)).sum
       exec (.slotShareWrite p seq q v) s =
        .next (framed s p seq a 1 (if sum ≤ 1024 then 0x00 else 0x01)
          (fun x => nfcAfter (putReg x a (if sum ≤ 1024 then blend (rd s a) v 0x07FF07FF else rd s a))))) ∧
      (let ok := 1 ≤ fld v 0 7 ∧ 1 ≤ fld v 8 7 ∧ 1 ≤ fld v 16 7 ∧ 1 ≤ fld v 24 7 ∧ fld v 0 7 + fld v 8 7 + fld v 16 7 + fld v 24 7 ≤ 64
       exec (.lunMaxWrite p seq v) s =
        .next (framed s p seq 0x251 1 (if ok then 0x00 else 0x01)
          (fun x => nfcAfter (putReg x 0x251 (if ok then blend (rd s 0x251) v 0x7F7F7F7F else rd s 0x251))))) ∧
      (let w := (upto 4).foldl (fun x k => if fld v (4 * k) 4 = 0 then x else putFld x (4 * k) 4 (fld v (4 * k) 4)) (rd s 0x250)
       exec (.lunWeightWrite p seq v) s = .next (framed s p seq 0x250 1
          (if (∀ k : Part, fld v (4 * k.val) 4 ≠ 0) then 0x00 else 0x01) (fun x => nfcAfter (putReg x 0x250 w))))) ∧
    (p ≠ q → exec (.irqCoalWrite p seq q v) s = .next (deniedAt s p seq (0x806 + 0x40 * q.val) 1)) ∧
    (p = q → exec (.irqCoalWrite p seq q v) s =
      .next (framed s p seq (0x806 + 0x40 * q.val) 1 (if fld v 0 8 = 0 then 0x01 else 0x00)
        (fun x => modIrq (passes x (fun k => k == 0x806 + 0x40 * q.val)) q.val (fun i => { i with
          count := if fld v 0 8 = 0 then i.count % 256 else fld v 0 8, time := fld v 16 16 }))))

/-- O23. An owner word is written by P0 without the lock, and a moved resource loses its staged values and its work. A
write of an owner word by a partition other than P0 is DENIED. By P0 without the lock the word takes the written owners
and every resource whose owner differs is moved; with the lock set nothing changes, and a write that would change an
owner is MASKED. Moving any resource returns every staged field held by its owner to the value in force and raises
OWNER_CHANGE in the old and in the new owner; moving a rail or a flow channel changes nothing else. Beyond that, moving
a panel region discards its queued request; moving an SFR discards the operation queued on its channel, with RESULT
DISCARDED; moving a check unit abandons its calculation and sets FIRST; moving an encoder makes its count the reference
of the next detent; moving a key group marks its DOWN and RELEASE_PENDING keys release-before-report; moving a namespace
leaves no operation of its old owner on it waiting or queued, but for RESET_LUN and RAW. Changing no owner moves
nothing. -/
def Obligations.OwnerChangesMoveResources : Prop :=
  (∀ (s : State) (p : Part) (seq : Byte) (cls : Fin 7) (v : Word), Listens s p →
    let a := 0x210 + cls.val
    let m : Word := nth [0xFFFFF, 0xFFF, 0x3FFFFF, 0xFF, 0xFFFFFFFF, 0xFFFF, 0xFF] cls.val 0
    (p ≠ 0 → exec (.ownerChange p seq cls v) s = .next (deniedAt s p seq a 1)) ∧
    (p = 0 → locked s = false → exec (.ownerChange p seq cls v) s =
      .next (framed s p seq a 1 0x00 (fun x => nfcAfter (ownersMoved (putReg x a (blend (rd s a) v m)) cls.val (used s a))))) ∧
    (p = 0 → locked s = true → exec (.ownerChange p seq cls v) s =
      .next (framed s p seq a 1 (if (v ^^^ rd s a) &&& m = 0 then 0x00 else 0x01) nfcAfter))) ∧
  (∀ (s : State) (cls : Nat), ownersMoved s cls (used s (0x210 + cls)) = s) ∧
  (∀ (s : State) (i : Nat) (old new : Part), s.core.irq.length = 4 →
    (∀ r : Res, let t := resMoved s r old.val new.val
      bit (nth t.core.irq old.val {}).pend 14 = true ∧ bit (nth t.core.irq new.val {}).pend 14 = true) ∧
    (∀ r ∈ [Res.rail i, Res.flow i], let t := resMoved s r old.val new.val
      Keeps [.regs, .irqPend] s t) ∧
    (∀ r : Res, let t := resMoved s r old.val new.val
      swf regReset s.core.regs = true → ∀ a ∈ listedWords s, isStaged a = false → rd t (stagedOf a) &&& resMask s r a = rd s a &&& resMask s r a ∧
        rd t (stagedOf a) &&& ~~~(resMask s r a) = rd s (stagedOf a) &&& ~~~(resMask s r a) ∧ rd t a = rd s a) ∧
    (∀ q : Fin 4, bit (resMoved s (.panel q.val) old.val new.val).core.epd.queued q.val = false) ∧
    (∀ k : Fin 8, s.core.efl.chans.length = 10 → (chOf s (k.val + 1)).state = 1 →
      let t := resMoved s (.sfr k.val) old.val new.val
      (chOf t (k.val + 1)).state = 3 ∧ (chOf t (k.val + 1)).result = 9 ∧ bit (nth t.core.irq (chOf s (k.val + 1)).issuer.val {}).pend 29 = true) ∧
    (∀ u : Fin 4, s.core.cvu.length = 4 →
      let t := resMoved s (.cvu u.val) old.val new.val
      (cvuOf t u.val).st ≠ 1 ∧ (cvuOf t u.val).st ≠ 2 ∧ (cvuOf t u.val).first = true) ∧
    (∀ n : Fin 3, s.core.key.encs.length = 3 →
      let t := resMoved s (.key (8 + n.val)) old.val new.val
      (nth t.core.key.encs n.val {}).ref = (nth s.core.key.encs n.val {}).count) ∧
    (∀ g : Fin 8, swf (fun _ => {}) s.core.key.keys = true →
      let t := resMoved s (.key g.val) old.val new.val
      ∀ pos : Nat, keyGroup s pos = g.val → (keyOf s pos).st = .down ∨ (keyOf s pos).st = .releasePending → (keyOf t pos).rbr = true) ∧
    (∀ n : Fin 16, let t := resMoved s (.ns n.val) old.val new.val
      ∀ f ∈ t.core.nfc.flight, f.issuer = old → fOp f ≤ 6 → d8 f.desc 4 = n.val → 2 < f.st))

/-- O24. Quotas written together are taken whole or refused whole, and a granule that changes partition is cleared. A
quota write by a partition other than P0 is DENIED. By P0: quotas that lie within the 512 granules, do not overlap, and
move no granule of a work slot are all taken with outcome OK; a granule whose partition changes reads as zeros
afterwards, unwritten and without a guard, and every other granule keeps its bytes, written bit and guard bit. Other
quotas change nothing but the port, with outcome MASKED. -/
def Obligations.QuotasMoveWholeGranules : Prop :=
  ∀ (s : State) (p : Part) (seq : Byte) (ws : List (Part × Word)), Listens s p → (Instr.quotaChange p seq ws).wf = true →
    swf bufReset s.core.buf.mem = true → swf regReset s.core.regs = true →
    let word := fun (k : Nat) => match ws.find? (fun e => e.1.val == k) with
      | some e => e.2
      | none => used s (0x230 + k)
    let old := quotasOf (fun k => used s (0x230 + k))
    let new := quotasOf word
    ∀ first last, ws.head? = some first → ws.getLast? = some last →
    let a := 0x230 + first.1.val
    let n := last.1.val + 1 - first.1.val
    (p ≠ 0 → exec (.quotaChange p seq ws) s = .next (deniedAt s p seq a n)) ∧
    (p = 0 → quotasOk s old new = false → old ≠ new → exec (.quotaChange p seq ws) s = .next (framed s p seq a n 0x01 nfcAfter)) ∧
    (p = 0 → quotasOk s old new = true → courseDue s 5 = false → ∃ t, exec (.quotaChange p seq ws) s = .next t ∧ (portOf t p).lastStatus = 0x00 ∧
      quotasOf (fun k => used t (0x230 + k)) = new ∧
      (∀ g : Fin 512, (quotaOwner old g.val ≠ quotaOwner new g.val →
          granuleBytes t g.val = List.replicate 512 0 ∧ bit t.core.buf.written g.val = false ∧ bit t.core.buf.guardOk g.val = false) ∧
        (quotaOwner old g.val = quotaOwner new g.val → granuleBytes t g.val = granuleBytes s g.val ∧
          bit t.core.buf.written g.val = bit s.core.buf.written g.val ∧ bit t.core.buf.guardOk g.val = bit s.core.buf.guardOk g.val)) ∧
      (∀ a, a < 0x230 ∨ 0x234 ≤ a ∧ a < 0x1800 → rd t a = rd s a))

/-- O25. A post is accepted or refused with its code; an acknowledge frees the oldest messages. A post or acknowledge by
a partition that is not the mailbox's sender or receiver is DENIED. A post of 0 does nothing; a post of 1 by the sender
is refused with code 5 while the receiver is in reset, else with 4 while the mailbox is disabled, else with 3 when it
holds 8 messages, else with 7 when the payload cannot be read, 6 when its length exceeds 56 or byte 3 is not 0, 1 when
its CRC-32C is wrong, and 2 when its sequence number is not the expected one; a refusal counts, stores its code and
raises the sender's acknowledge source. A post that passes these, with a readable payload of length at most 56 with byte
3 0, a right CRC-32C and the expected sequence number, fills the next slot, advances the number, has result 0, and
raises the receiver's doorbell, or its urgent source when the mailbox is of priority 3. The device reads the payload
under SECDED, which counts the single-bit errors it meets. An acknowledge by the receiver of k messages frees k of them,
at most all, and raises the sender's source when it frees any. -/
def Obligations.MailboxPostsAndAcks : Prop :=
  ∀ (s : State) (p : Part) (seq : Byte) (n : Fin 12) (v : Word), Listens s p →
    let m := nth s.core.mbxs n.val {}
    let a := 0x080000 + 0x200 * n.val + 0x40 * m.wr
    let bs := bufBytes s a 64
    let up := bit (used s 0x217) n.val = true
    let refuse := fun (c : Nat) (f : State → State) => exec (.mbxPost p seq n v) s = .next (framed s p seq (0x600 + 4 * n.val) 1 0x00 (fun x =>
      raise (modMbx (f x) n.val (fun q => { q with result := c, refused := sat 65535 (q.refused + 1) })) (mbxSender n.val) 13))
    let read := fun (x : State) => bufTouch x a 64
    (p.val ≠ mbxSender n.val → exec (.mbxPost p seq n v) s = .next (deniedAt s p seq (0x600 + 4 * n.val) 1)) ∧
    (p.val = mbxSender n.val → bit v 0 = false → exec (.mbxPost p seq n v) s = .next (framed s p seq (0x600 + 4 * n.val) 1 0x00 id)) ∧
    (p.val = mbxSender n.val → bit v 0 = true →
      (inReset s (mbxReceiver n.val) = true → refuse 5 id) ∧
      (inReset s (mbxReceiver n.val) = false → ¬up → refuse 4 id) ∧
      (inReset s (mbxReceiver n.val) = false → up → 8 ≤ m.held → refuse 3 id) ∧
      (inReset s (mbxReceiver n.val) = false → up → m.held < 8 →
        (bufBad s a 64 = true → refuse 7 read) ∧
        (bufBad s a 64 = false → (56 < (nth bs 2 0).toNat ∨ nth bs 3 0 ≠ 0) → refuse 6 read) ∧
        (bufBad s a 64 = false → (nth bs 2 0).toNat ≤ 56 → nth bs 3 0 = 0 → leNat (bs.drop 60) ≠ crc32c (bs.take 60) → refuse 1 read) ∧
        (bufBad s a 64 = false → (nth bs 2 0).toNat ≤ 56 → nth bs 3 0 = 0 → leNat (bs.drop 60) = crc32c (bs.take 60) →
          leNat (bs.take 2) ≠ m.next.toNat → refuse 2 read)) ∧
      (inReset s (mbxReceiver n.val) = false → up → m.held < 8 → bufBad s a 64 = false →
        (nth bs 2 0).toNat ≤ 56 → nth bs 3 0 = 0 → leNat (bs.drop 60) = crc32c (bs.take 60) → leNat (bs.take 2) = m.next.toNat →
        exec (.mbxPost p seq n v) s = .next (framed s p seq (0x600 + 4 * n.val) 1 0x00 (fun x =>
          raise (modMbx (read x) n.val (fun q => { q with wr := (q.wr + 1) % 8, held := q.held + 1, next := q.next + 1, result := 0 }))
            (mbxReceiver n.val) (if uf s 0x218 (2 * n.val) 2 = 3 then 12 else 11))))) ∧
    (p.val ≠ mbxReceiver n.val → exec (.mbxAck p seq n v) s = .next (deniedAt s p seq (0x601 + 4 * n.val) 1)) ∧
    (p.val = mbxReceiver n.val →
      let f := if fld v 0 4 ≤ m.held then fld v 0 4 else m.held
      (f = 0 → exec (.mbxAck p seq n v) s = .next (framed s p seq (0x601 + 4 * n.val) 1 0x00 id)) ∧
      (f ≠ 0 → exec (.mbxAck p seq n v) s = .next (framed s p seq (0x601 + 4 * n.val) 1 0x00 (fun x =>
        raise (modMbx x n.val (fun q => { q with rd := (q.rd + f) % 8, held := q.held - f })) (mbxSender n.val) 13))))

/-- O26. A correct kick restarts a watchdog, a wrong one expires it; warning, expiry, flow release, coalescing time-out.
A kick of another partition's watchdog is DENIED. On a running watchdog the expected value (0x5A and 0xA5 in turn)
restarts the count for (TIMEOUT + 1) x 8,192 ticks and changes the expected value; a wrong non-zero value counts an
expiry as a wrong kick and releases nothing; a kick of a stopped watchdog changes nothing. A flow release with the
correct value, or with 0 while the watchdog has not expired since its last restart, takes the failsafe request of every
watchdog off the flow channels that the writer owns. The warning is raised once per count. An expiry counts, records the
watchdog fault of the capo, holds its flow request and queues its rail action; without the reset option it starts the
count again, which is a restart (R121: that it then has not expired since is the model's reading of R124,
notes/assumptions/26.md); with the reset option the partition enters reset with cause 3 and the watchdog stops, expired.
A watchdog that does not run does neither. A coalescing time-out of a round with an active source asserts the summary.
-/
def Obligations.WatchdogKicksWarningsAndExpiry : Prop :=
  ∀ (s : State) (p t : Part) (seq : Byte) (v : Word), Settled s →
    (Listens s p →
      let w := wdogOf s p.val
      let a := 0x264 + p.val
      let cfg := used s (0x260 + p.val)
      let expected := if w.expectA5 then 0xA5 else 0x5A
      let restart := fun (q : WdogSt) => { q with running := bit cfg 0, start := now s, limit := (fld cfg 8 8 + 1) * 8192, warned := false, expired := false, expectA5 := !w.expectA5 }
      let mine := bvOf 6 (fun n => ownerN s (.flow n) == p.val)
      let release := fun (x : State) => modPart x (fun q => { q with wdog := q.wdog.map (fun y => { y with held := y.held &&& ~~~mine }) })
      let wrong := fun (u : State) => (wdogOf u p.val).expiries = sat 255 (w.expiries + 1) ∧ (wdogOf u p.val).wrongKick = true ∧
        (wdogOf u p.val).expired = bit cfg 17 ∧ (bit cfg 17 = true → inReset u p.val = true ∧ nth u.core.part.rstCause p.val 0 = 3) ∧
        w.held &&& (wdogOf u p.val).held = w.held
      (p ≠ t → exec (.wdogKick p seq t v) s = .next (deniedAt s p seq (0x264 + t.val) 1) ∧
        exec (.flowRelease p seq t v) s = .next (deniedAt s p seq (0x264 + t.val) 1)) ∧
      (w.running = true → fld v 0 8 = expected → bit v 8 = false → s.core.part.wdog.length = 4 →
        exec (.wdogKick p seq p v) s = .next (framed s p seq a 1 0x00 (fun x => nfcAfter (modWdog x p.val restart)))) ∧
      (w.running = true → fld v 0 8 = expected → bit v 8 = true → s.core.part.wdog.length = 4 →
        exec (.flowRelease p seq p v) s = .next (framed s p seq a 1 0x00 (fun x => nfcAfter (release (modWdog x p.val restart))))) ∧
      (w.running = false ∨ fld v 0 8 = 0 → bit v 8 = false → exec (.wdogKick p seq p v) s = .next (framed s p seq a 1 0x00 nfcAfter)) ∧
      (fld v 0 8 = 0 → bit v 8 = true → exec (.flowRelease p seq p v) s =
        .next (framed s p seq a 1 0x00 (fun x => nfcAfter (if w.expired then x else release x)))) ∧
      (w.running = false → fld v 0 8 ≠ 0 → bit v 8 = true → exec (.flowRelease p seq p v) s = .next (framed s p seq a 1 0x00 nfcAfter)) ∧
      (w.running = true → fld v 0 8 ≠ 0 → fld v 0 8 ≠ expected → s.core.part.wdog.length = 4 → s.core.part.rstCause.length = 4 →
        (∃ u, exec (.wdogKick p seq p v) s = .next u ∧ (bit v 8 = false → wrong u)) ∧
        (∃ u, exec (.flowRelease p seq p v) s = .next u ∧ (bit v 8 = true → wrong u)))) ∧
    (coreUp s = true → s.core.part.wdog.length = 4 →
      let w := wdogOf s t.val
      let cfg := used s (0x260 + t.val)
      (w.running = true → w.warned = false → exec (.wdogWarn t) s =
        .next (settle (raise (modWdog s t.val (fun q => { q with warned := true })) t.val 9))) ∧
      ((w.running = false ∨ w.warned = true) → exec (.wdogWarn t) s = .next (settle s)) ∧
      (w.running = false → exec (.wdogExpiry t) s = .next (settle s)) ∧
      (w.running = true → ∃ u, exec (.wdogExpiry t) s = .next u ∧
        (wdogOf u t.val).expiries = sat 255 (w.expiries + 1) ∧ (wdogOf u t.val).wrongKick = false ∧ (wdogOf u t.val).expired = bit cfg 17 ∧
        (bit cfg 16 = true → (wdogOf u t.val).held = w.held ||| bvOf 6 (fun n => ownerN s (.flow n) == t.val)) ∧
        (fld cfg 18 2 = 1 ∨ fld cfg 18 2 = 2 → u.core.seq.acts = s.core.seq.acts ++ [(fld cfg 18 2, fld cfg 20 2)]) ∧
        (bit (used s 0x53) 20 = true → s.core.capo.held = false → u.core.capo.seq = s.core.capo.seq + 1) ∧
        (bit cfg 17 = false → (wdogOf u t.val).running = bit cfg 0 ∧ (wdogOf u t.val).start = now s ∧
          Keeps [.part, .seq, .capo, .gng, .ports, .irqPend, .irqRound, .doze] s u) ∧
        (bit cfg 17 = true → inReset u t.val = true ∧ (s.core.part.rstCause.length = 4 → nth u.core.part.rstCause t.val 0 = 3) ∧
          (inReset s t.val = false → (wdogOf u t.val).running = false ∧
            (s.core.part.rstCount.length = 4 → nth u.core.part.rstCount t.val 0 = sat 255 (nth s.core.part.rstCount t.val 0 + 1))))) ∧
      (let q := irqUsed s t.val (nth s.core.irq t.val {})
       ∃ u, exec (.coalesceTimeout t) s = .next u ∧
        (q.first.isSome = true → 1 ≤ q.events → q.pend &&& q.en ≠ 0 → s.core.irq.length = 4 → (nth u.core.irq t.val {}).summary = true) ∧
        Keeps [.irqRound] s u ∧ ((∀ i ∈ s.core.irq, i.events ≤ 255) → u.core.irq.map IrqSt.events = s.core.irq.map IrqSt.events)))

/-- O27. What a partition reset takes at its start, and what its completion brings back. A reset request is DENIED when
another partition than P0 names a partition but itself, or itself without permission. Otherwise each named partition
that is not in reset enters it: its cause is 1 from P0 and 2 from itself, the count rises, its watchdog stops, its
timebase latch is 0, every mailbox it receives is empty, and its interrupt controller is at its reset values but for the
number of assertions. One already in reset changes its cause only. The completion, due when its NAND and setup flash
work has ended, ends the reset, clears every granule of its quota, starts its watchdog where enabled, and raises
PEER_RESET in every other partition; before it is due nothing happens. -/
def Obligations.PartitionResetsStartAndComplete : Prop :=
  (∀ (s : State) (p : Part) (seq : Byte) (v : Word), Listens s p →
    (rstDenied s p.val (v &&& 0xF) = true → exec (.partitionResetRequest p seq v) s = .next (deniedAt s p seq 0x274 1)) ∧
    (rstDenied s p.val (v &&& 0xF) = false → exec (.partitionResetRequest p seq v) s =
      .next (framed s p seq 0x274 1 0x00 (fun x => nfcAfter ((bitsOf (v &&& 0xF) 4).foldl (fun x t => partResetStart x t (if p = 0 then 1 else 2)) x))))) ∧
  (∀ (s : State) (t : Part) (cause : Nat), s.core.irq.length = 4 → s.core.mbxs.length = 12 → s.core.part.wdog.length = 4 →
      s.core.dev.latches.length = 4 → s.core.part.rstCause.length = 4 → s.core.part.rstCount.length = 4 →
    let u := partResetStart s t.val cause
    nth u.core.part.rstCause t.val 0 = cause ∧
    (inReset s t.val = true → Keeps [.part] s u ∧ u.core.part.inReset = s.core.part.inReset ∧ u.core.part.rstCount = s.core.part.rstCount) ∧
    (inReset s t.val = false → inReset u t.val = true ∧ (∀ q : Part, q ≠ t → inReset u q.val = inReset s q.val) ∧
      nth u.core.part.rstCount t.val 0 = sat 255 (nth s.core.part.rstCount t.val 0 + 1) ∧
      (wdogOf u t.val).running = false ∧ nth u.core.dev.latches t.val 0 = 0 ∧
      (∀ n : Fin 12, mbxReceiver n.val = t.val → (nth u.core.mbxs n.val {}).held = 0) ∧
      (∀ n : Fin 12, mbxReceiver n.val ≠ t.val → nth u.core.mbxs n.val {} = nth s.core.mbxs n.val {}) ∧
      nth u.core.irq t.val {} = { asserts := (nth s.core.irq t.val {}).asserts } ∧
      u.core.parity = s.core.parity.filter (fun k => !(decide (0x802 + 64 * t.val ≤ k ∧ k ≤ 0x806 + 64 * t.val) || (t != 3 && k == 0x400 + 16 * t.val))) ∧
      Keeps [.regs, .parity, .ports, .part, .mbxs, .irqPend, .irqSet, .irqRound, .dev, .nfc, .efl, .epd, .pix, .key, .cvu] s u)) ∧
  (∀ (s : State) (t : Part), coreUp s = true →
    (partResetDue s t.val = false → exec (.partitionResetComplete t) s = .next (settle s)) ∧
    (partResetDue s t.val = true → s.core.irq.length = 4 → s.core.part.wdog.length = 4 → swf bufReset s.core.buf.mem = true →
      ∃ z, exec (.partitionResetComplete t) s = .next z ∧ inReset z t.val = false ∧
        (∀ q : Part, q ≠ t → inReset z q.val = inReset s q.val ∧ bit (nth z.core.irq q.val {}).pend 10 = true) ∧
        (wdogOf z t.val).running = bit (used s (0x260 + t.val)) 0 ∧ (wdogOf z t.val).start = now s ∧
        (∀ g : Fin 512, inQuota s t.val g.val = true →
          granuleBytes z g.val = List.replicate 512 0 ∧ bit z.core.buf.written g.val = false ∧ bit z.core.buf.guardOk g.val = false)))

/-- O28. Warning, its end, VBAK, VMAIN above SWITCH, and the return hold. In a powered device: a warning that does not
hold yet is set and counted, raises MAIN_WARN in every partition while the core runs, and one that holds changes
nothing; the end of a warning clears it and raises MAIN_BACK in every partition while the core runs; VBAK's validity and
VMAIN above SWITCH choose the AON source; the return hold starts in OFF at the present tick and is broken by a fall
below RETURN. The timebase and the tick count never change. -/
def Obligations.SupplyEventsMoveTheAlwaysOnDomain : Prop :=
  ∀ s : State, s.aon.phase ≠ .dead →
    (∃ t, exec .mainWarning s = .next t ∧ t.aon.tbase = s.aon.tbase ∧ t.aon.osc = s.aon.osc ∧
      (s.aon.warn = true → t = settle s) ∧
      (s.aon.warn = false → t.aon = { s.aon with warn := true, warnings := sat 255 (s.aon.warnings + 1) } ∧
        (coreUp s = true → ∀ q ∈ t.core.irq, bit q.pend 1 = true))) ∧
    (∃ t, exec .mainWarningEnd s = .next t ∧
      (s.aon.warn = false → t = settle s) ∧
      (s.aon.warn = true → t.aon = { s.aon with warn := false } ∧ (coreUp s = true → ∀ q ∈ t.core.irq, bit q.pend 2 = true))) ∧
    (∀ valid : Bool, exec (.backupSupplyChange valid) s =
      .next (settle { s with aon := { s.aon with bakValid := valid, srcVbak := !s.aon.mainOk && valid } })) ∧
    exec .mainAboveSwitch s = .next (settle { s with aon := { s.aon with mainOk := true, srcVbak := false } }) ∧
    (s.aon.phase = .off → exec .returnHoldStart s =
      .next (settle { s with aon := { s.aon with mainOk := true, srcVbak := false, holdStart := some s.aon.osc } })) ∧
    exec .returnHoldBreak s = .next (settle { s with aon := { s.aon with holdStart := none } })

/-- O29. What a switch-over, a VDDC fault, RESET_N and a software reset leave. While the core runs: a switch-over puts
the device in OFF with STOP 2, counted, with the warning on; a VDDC fault starts a wake sequence with STOP 6, counted,
and restart as its cause; RESET_N low holds the device stopped with STOP 3; P0's write of 0x7A5E to PWR_DEVRST starts a
wake sequence with STOP 4. In each case the whole core domain, every register, course, engine, link, capo, interrupt and
queue, is at its device-reset value, but for the response that a port is sending; the SEN levels are captured and the
flow latches take FAULT_LEVEL, while the timebase, the always-on registers and the setup flash's contents outside
running operations stay. A switch-over from SLEEP, or while RESET_N holds the device, moves the device to OFF, with the
flow latches at FAULT_LEVEL. -/
def Obligations.CoreStopsLoseTheCore : Prop :=
  ∀ s : State, Settled s → s.aon.mainOk = true → (s.core.efl.banks.all (fun b => b.chan.isNone) ∧ s.core.efl.log.phase = none) →
    let lost := fun (t : State) => t.core = { ports := t.core.ports } ∧ (∀ q : Part, portOf t q = { resp := (portOf t q).resp }) ∧
      t.core.regs = [] ∧ t.core.parity = [] ∧ t.core.course = {} ∧ t.core.nfc = {} ∧ t.core.epd = {} ∧
      t.core.seq = {} ∧ t.core.key = {} ∧ t.core.flw = {} ∧ t.core.thm = {} ∧ t.core.part = {} ∧ t.core.buf = {} ∧ t.core.efl = {} ∧
      t.core.pix = {} ∧ t.core.mbxs = List.replicate 12 {} ∧ t.core.cvu = List.replicate 4 {} ∧
      t.hold.senCap = senLevels s ∧ t.hold.fsLevels = BitVec.ofNat 4 (fld (aused s 0xA16) 0 4) ∧
      t.aon.tbase = s.aon.tbase ∧ t.aon.osc = s.aon.osc ∧ t.aon.regs = s.aon.regs ∧ t.flash = s.flash ∧ coreUp t = false
    (coreUp s = true →
      (∃ t, exec .switchOver s = .next t ∧ t.aon.phase = .off ∧ t.aon.stop = 2 ∧ t.aon.warn = true ∧ t.aon.mainOk = false ∧
        t.aon.switchovers = sat 255 (s.aon.switchovers + 1) ∧ lost t) ∧
      (∃ t, exec .vddcFault s = .next t ∧ t.aon.phase = .arm ∧ t.aon.stop = 6 ∧
        t.aon.vddcFaults = sat 255 (s.aon.vddcFaults + 1) ∧ bit t.aon.wake 6 = true ∧ lost t) ∧
      (∃ t, exec .resetNAssert s = .next t ∧ t.aon.phase = .held ∧ t.aon.stop = 3 ∧ t.aon.resetLow = true ∧ lost t) ∧
      (∀ (p : Part) (seq : Byte) (v : Word), Listens s p → fld v 0 16 = 0x7A5E →
        ∃ t, exec (.softwareDeviceReset p seq v) s = .next t ∧
          (p = 0 → t.aon.phase = .arm ∧ t.aon.stop = 4 ∧ bit t.aon.wake 6 = true ∧ lost t) ∧
          (p ≠ 0 → (portOf t p).lastStatus = 0x20 ∧ OnlyPort p s t))) ∧
    (s.aon.phase = .sleep ∨ s.aon.phase = .held → ∃ t, exec .switchOver s = .next t ∧ t.aon.phase = .off ∧ t.aon.stop = s.aon.stop ∧
      t.aon.regs = s.aon.regs ∧ t.hold.fsLevels = BitVec.ofNat 4 (fld (aused s 0xA16) 0 4))

/-- O30. Loss of AON state, power-on, and the return that follows. When VAON falls, every always-on register, counter
and held output and the whole core are lost and the device is dead; the setup flash keeps its cells when no operation
runs. At power-on the always-on state takes its reset values, COLD is set, the timebase is 0 on RC32 and the device is
in OFF; powered already, nothing changes. When a return completes in OFF with the hold started and RESET_N high: after a
cold start a wake sequence starts with COLD alone as its cause, whatever PWR_WAKE_EN holds; after a stop by anything but
SLEEP a wake sequence starts with MAIN among its causes. -/
def Obligations.ColdStartAndPowerOn : Prop :=
  ∀ s : State,
    (∃ t, exec .coldStart s = .next t ∧ t.core = {} ∧ t.hold = { coldWake := true, vddcTries := 0, x24Tries := 0, pllTries := 0 } ∧
      t.aon = { phase := .dead, onRc32 := true, mainOk := false, wake := 0, cold := false, bakValid := s.aon.bakValid, resetLow := s.aon.resetLow } ∧
      (s.core.efl.banks.all (fun b => b.chan.isNone) = true → s.core.efl.log.phase = none → t.flash = s.flash)) ∧
    (∃ t, exec .aonPowerOn s = .next t ∧ (s.aon.phase ≠ .dead → t = settle s) ∧
      (s.aon.phase = .dead → t.aon.regs = [] ∧ t.aon.tbase = 0 ∧ t.aon.switchovers = 0 ∧ t.aon.refusals = 0 ∧ t.aon.vddcFaults = 0 ∧
        t.aon = {
          phase := .off, onRc32 := true, mainOk := false, warn := true, wake := 0, cold := true
          srcVbak := s.aon.bakValid, bakValid := s.aon.bakValid, resetLow := s.aon.resetLow } ∧
        t.hold = { coldWake := true, vddcTries := 0, x24Tries := 0, pllTries := 0 } ∧ t.flash = s.flash)) ∧
    (∀ w : WakeInputs, s.aon.phase = .off → s.aon.holdStart ≠ none → s.aon.resetLow = false →
      ∃ t, exec (.returnComplete w) s = .next t ∧ t.aon.holdStart = none ∧
        (s.hold.coldWake = true → s.hold.aborted = false → t.aon.phase = .arm ∧ t.aon.wake = 0x80) ∧
        (s.hold.coldWake = false → s.aon.stop ≠ 1 → t.aon.phase = .arm ∧ bit t.aon.wake 5 = true))

/-- O31. The wake sequence: Arm, VDDC, X24, PLL, their attempts and back-offs. Arm ends into the first VDDC attempt with
the straps latched; VDDC ready starts the first X24 attempt, X24 ready the first PLL attempt, and lock leads to core
start with outcome 0. A time-out of an attempt leads to the back-off while fewer than four were made; the fourth failure
of VDDC enters the refusal state, counted, with outcome 3 and REFUSED_SEEN, and that of X24 or the PLL leads to core
start on RC48 with outcome 1 or 2. The end of a back-off starts the next attempt of the same step. RESET_N released
while held starts a wake sequence when VMAIN is above SWITCH, and waits in OFF otherwise. Released in any other phase,
OFF among them, it changes nothing but the record of its level: that R155's wake sequence, for a device that is in OFF
with VMAIN above SWITCH, waits for the return of R141 is the model's reading (notes/assumptions/11.md). -/
def Obligations.WakeSequenceStepsInOrder : Prop :=
  ∀ s : State,
    (∀ straps : BitVec 2, s.aon.phase = .arm → exec (.wakeArmEnd straps) s =
      .next (settle { s with aon := { s.aon with phase := .vddc }, hold := { s.hold with straps := straps, vddcTries := 1 } })) ∧
    (s.aon.phase = .vddc → exec .vddcReady s =
      .next (settle { s with aon := { s.aon with phase := .x24 }, hold := { s.hold with x24Tries := 1 } })) ∧
    (s.aon.phase = .x24 → exec .x24Ready s =
      .next (settle { s with aon := { s.aon with phase := .pll }, hold := { s.hold with pllTries := 1 } })) ∧
    (s.aon.phase = .pll → exec .pllLock s =
      .next (settle { s with aon := { s.aon with phase := .coreStart }, hold := { s.hold with outcome := 0 } })) ∧
    (∃ t, exec .wakeStepTimeout s = .next t ∧
      (s.aon.phase = .vddc → s.hold.vddcTries < 4 → t = settle { s with aon := { s.aon with phase := .backVddc } }) ∧
      (s.aon.phase = .vddc → 4 ≤ s.hold.vddcTries → t.aon.phase = .refusal ∧ t.hold.outcome = 3 ∧ t.aon.refusedSeen = true ∧
        t.aon.refusals = sat 255 (s.aon.refusals + 1) ∧ t.hold.fsLevels = BitVec.ofNat 4 (fld (aused s 0xA16) 0 4)) ∧
      (s.aon.phase = .x24 → s.hold.x24Tries < 4 → t = settle { s with aon := { s.aon with phase := .backX24 } }) ∧
      (s.aon.phase = .x24 → 4 ≤ s.hold.x24Tries → t.aon.phase = .coreStart ∧ t.hold.outcome = 1) ∧
      (s.aon.phase = .pll → s.hold.pllTries < 4 → t = settle { s with aon := { s.aon with phase := .backPll } }) ∧
      (s.aon.phase = .pll → 4 ≤ s.hold.pllTries → t.aon.phase = .coreStart ∧ t.hold.outcome = 2)) ∧
    (∃ t, exec .backoffEnd s = .next t ∧
      (s.aon.phase = .backVddc → t.aon.phase = .vddc ∧ t.hold = { s.hold with vddcTries := s.hold.vddcTries + 1 }) ∧
      (s.aon.phase = .backX24 → t.aon.phase = .x24 ∧ t.hold = { s.hold with x24Tries := s.hold.x24Tries + 1 }) ∧
      (s.aon.phase = .backPll → t.aon.phase = .pll ∧ t.hold = { s.hold with pllTries := s.hold.pllTries + 1 })) ∧
    (∃ t, exec .resetNRelease s = .next t ∧ t.aon.resetLow = false ∧
      (s.aon.phase = .held → s.aon.mainOk = true → t.aon.phase = .arm) ∧
      (s.aon.phase = .held → s.aon.mainOk = false → t.aon.phase = .off) ∧
      (s.aon.phase ≠ .held → t = settle { s with aon := { s.aon with resetLow := false } }))

/-- O32. At core start the core domain returns to its reset values and WAKE_DONE is raised. When the core start phase
ends, the core runs, on RC48 exactly when the wake outcome is not 0; the mailboxes, the ports and the check units are at
their reset values, the sequencer has taken its first step, VMAIN and VBAK are measured, WAKE_DONE is pending in every
partition, and MAIN_BACK too when MAIN is among the wake causes; the timebase, the wake record and the setup flash stay.
Without a boot course in force every register word is at its reset value and passes its parity, and the courses, the
buffers, the interrupt enables, KEY's events, the panel and its queue and the NAND work are at their reset values. In
any other phase nothing changes. -/
def Obligations.CoreStartTakesResetValues : Prop :=
  ∀ (s : State) (obs : StartObs),
    (s.aon.phase ≠ .coreStart → exec (.coreStart obs) s = .next (settle s)) ∧
    (s.aon.phase = .coreStart →
      ∃ t, exec (.coreStart obs) s = .next t ∧ coreUp t = true ∧ t.core.pwr.rc48 = decide (s.hold.outcome ≠ 0) ∧
        t.core.mbxs = List.replicate 12 {} ∧ t.core.ports = List.replicate 4 {} ∧ t.core.cvu = List.replicate 4 {} ∧ t.core.seq.first = false ∧
        t.core.pwr.vmain = sat 4095 obs.mainMv ∧ t.core.pwr.vbak = sat 8191 obs.bakMv ∧
        (∀ q ∈ t.core.irq, bit q.pend 0 = true ∧ (bit s.aon.wake 5 = true → bit q.pend 2 = true)) ∧
        (t.core.efl.bootSource = 0 → t.core.regs = [] ∧ t.core.parity = [] ∧ t.core.course = {} ∧ t.core.dev = {} ∧ t.core.buf = {} ∧
          t.core.epd = {} ∧ t.core.pix = {} ∧ t.core.thm = {} ∧ t.core.nfc.flight = [] ∧ t.core.nfc.wins = List.replicate 4 {} ∧
          t.core.key.fifos = List.replicate 4 {} ∧ t.core.key.keys = [] ∧ t.core.part.inReset = 0 ∧
          (∀ q ∈ t.core.irq, q.en = 0 ∧ q.imm = 0 ∧ q.count = 1 ∧ q.time = 0 ∧ q.summary = false)) ∧
        t.aon.tbase = s.aon.tbase ∧ t.aon.wake = s.aon.wake ∧ t.flash = s.flash)

/-- O33. SLEEP is requested, entered or lapses; DOZE, the alarm and the wake sources. P0's SLEEP request waits, and
another partition's is DENIED; with every condition holding and VMAIN above SWITCH the core stops with STOP 1, into
SLEEP or straight into a wake sequence, and otherwise nothing happens; at its time-out a request whose conditions fail
lapses with TIMED_OUT; that a new request leaves TIMED_OUT as it is unless the write clears it is the model's choice
(notes/assumptions/11.md). DOZE is entered when enabled and no work runs. An armed alarm whose time the timebase has
reached fires: FIRED is set and ARMED is cleared; one that is not armed or not yet reached changes nothing. In SLEEP
with the detectors armed an enabled source starts a wake sequence with its cause; a source that is not enabled changes
nothing. A supply measurement stores both voltages, limited to 4,095 mV and 8,191 mV; BAK_LOW compares the latest VBAK
with the field in force. -/
def Obligations.SleepDozeAlarmAndWake : Prop :=
  ∀ s : State, Settled s →
    (∀ (p : Part) (seq : Byte) (v : Word), Listens s p → bit v 0 = true →
      ∃ t, exec (.sleepRequest p seq v) s = .next t ∧
        (p = 0 → t.core.pwr.waiting = true ∧ (bit v 2 = false → t.core.pwr.timedOut = s.core.pwr.timedOut) ∧
          (bit v 2 = true → t.core.pwr.timedOut = false)) ∧
        (p ≠ 0 → (portOf t p).lastStatus = 0x20 ∧ OnlyPort p s t)) ∧
    (∀ w : WakeInputs, coreUp s = true → s.aon.mainOk = true →
      ∃ t, exec (.sleepEntry w) s = .next t ∧
        ((s.core.pwr.waiting && sleepReady s) = false → t = settle s) ∧
        ((s.core.pwr.waiting && sleepReady s) = true →
          t.aon.stop = 1 ∧ (t.aon.phase = .sleep ∨ t.aon.phase = .arm) ∧ t.core.regs = [] ∧ t.aon.regs = s.aon.regs ∧
          t.aon.tbase = s.aon.tbase ∧ t.flash = s.flash)) ∧
    (coreUp s = true → ∃ t, exec .sleepTimeout s = .next t ∧
      (s.core.pwr.waiting = true → sleepReady s = false → t.core.pwr.waiting = false ∧ t.core.pwr.timedOut = true) ∧
      Keeps [.pwr, .irqRound] s t) ∧
    (coreUp s = true → ∃ t, exec .dozeEntry s = .next t ∧
      t.core.pwr.doze = (s.core.pwr.doze || (bit (aused s 0xA05) 0 && !workPresent s)) ∧ Keeps [.doze, .irqRound] s t) ∧
    (∃ t, exec .alarmFire s = .next t ∧
      (alarmDue s = false → t = settle s) ∧ (bit (aused s 0xA0B) 16 = false → t = settle s) ∧
      (s.aon.phase ≠ .dead → swf regReset s.aon.regs = true → alarmDue s = true →
        bit (ard t 0xA0B) 16 = false ∧ bit (ard t 0xA0B) 17 = true ∧
        (s.aon.phase = .sleep → s.hold.armed = true → bit (aused s 0xA08) 4 = true → t.aon.phase = .arm ∧ bit t.aon.wake 2 = true))) ∧
    (∀ src : WakeSource, ∃ t, exec (.wakeEvent src) s = .next t ∧
      (s.aon.phase = .sleep → s.hold.armed = true → wakeEnabled s src = true → t.aon.phase = .arm ∧
        t.aon.wake &&& wakeCause src = wakeCause src) ∧
      (wakeEnabled s src = false → t = settle s)) ∧
    (∀ mv bv : Nat, coreUp s = true → ∃ t, exec (.vmeasUpdate mv bv) s = .next t ∧
      t.core.pwr.vmain = sat 4095 mv ∧ t.core.pwr.vbak = sat 8191 bv ∧
      bakLow t = decide (sat 8191 bv < 20 * auf s 0xA03 8 8) ∧ Keeps [.pwr, .irqRound] s t)

/-- O34. PWR_THRESH is written whole or refused whole; PWR_CNTCLR clears the supply counters. A write of PWR_THRESH by
P0 without the lock: when SWITCH, WARN, RETURN and RET_HOLD lie in their ranges and WARN and RETURN lie at least ten
steps above SWITCH, the word is stored with outcome OK; otherwise it keeps its value with outcome MASKED. By another
partition it is DENIED. A write of 1 to PWR_CNTCLR by P0 sets the four supply counters to 0. -/
def Obligations.SupervisorThresholdsAreCheckedWhole : Prop :=
  ∀ (s : State) (p : Part) (seq : Byte) (v : Word), Listens s p → Settled s → swf regReset s.aon.regs = true → locked s = false →
    let ok := 20 ≤ fld v 0 8 ∧ fld v 0 8 ≤ 60 ∧ 50 ≤ fld v 8 8 ∧ fld v 8 8 ≤ 80 ∧ 30 ≤ fld v 16 8 ∧ fld v 16 8 ≤ 80 ∧
      1 ≤ fld v 24 8 ∧ fld v 24 8 ≤ 100 ∧ fld v 0 8 + 10 ≤ fld v 8 8 ∧ fld v 0 8 + 10 ≤ fld v 16 8
    (∃ t, exec (.pwrThreshWrite p seq v) s = .next t ∧
      (p = 0 → ok → ard t 0xA02 = v ∧ (portOf t p).lastStatus = 0x00) ∧
      (p = 0 → ¬ok → ard t 0xA02 = ard s 0xA02 ∧ (portOf t p).lastStatus = 0x01) ∧
      (p ≠ 0 → ard t 0xA02 = ard s 0xA02 ∧ (portOf t p).lastStatus = 0x20) ∧
      (p = 0 → t.core.parity = s.core.parity.filter (fun a => a != 0xA02)) ∧
      (∀ a, a ≠ 0xA02 → ard t a = ard s a) ∧ KeepsPort p [.aon, .parity, .irqPend] s t) ∧
    (∃ t, exec (.pwrCntclr p seq v) s = .next t ∧
      (p = 0 → bit v 0 = true → t.aon = { s.aon with switchovers := 0, warnings := 0, refusals := 0, vddcFaults := 0 } ∧
        (portOf t p).lastStatus = 0x00) ∧
      (p ≠ 0 → t.aon = s.aon ∧ (portOf t p).lastStatus = 0x20 ∧ OnlyPort p s t))

/-- O35. A rail or group request waits for the next sequencer step, or is refused. An ON request naming only rails that
the writer owns completes with outcome OK and waits for the next step; one naming another partition's rail is DENIED. An
OFF request of the writer's own rails waits unless, from a partition other than P0, the closure holds a rail of another
partition with target ON; then it is DENIED, as is one naming another's rail. A group request is P0's alone: it waits
for every rail of the named groups. Nothing but the waiting requests and the port changes, and no request changes a rail
at once. -/
def Obligations.RailRequestsWaitForTheNextStep : Prop :=
  ∀ (s : State) (p : Part) (seq : Byte) (rails : BitVec 10) (groups : BitVec 4), Listens s p →
    let own := (∀ r : Fin 10, bit rails r.val = true → ownerN s (.rail r.val) = p.val)
    let frees := p = 0 ∨ ∀ r : Fin 10, bit (closureOf s rails) r.val = true → ownerN s (.rail r.val) = p.val ∨ (nth s.core.seq.rails r.val {}).target = false
    let push := fun (on off : BitVec 10) (x : State) =>
      if on = 0 ∧ off = 0 then x else { x with core := { x.core with seq := { x.core.seq with reqs := x.core.seq.reqs ++ [(on, off)] } } }
    (own → exec (.railOnRequest p seq rails) s = .next (framed s p seq 0xC80 1 0x00 (push rails 0))) ∧
    (¬own → exec (.railOnRequest p seq rails) s = .next (deniedAt s p seq 0xC80 1)) ∧
    (own → frees → exec (.railOffRequest p seq rails) s = .next (framed s p seq 0xC80 1 0x00 (push 0 rails))) ∧
    (¬own ∨ ¬frees → exec (.railOffRequest p seq rails) s = .next (deniedAt s p seq 0xC80 1)) ∧
    (p = 0 → exec (.groupOnRequest p seq groups) s = .next (framed s p seq 0xC81 1 0x00 (push (groupsRails s groups) 0)) ∧
      exec (.groupOffRequest p seq groups) s = .next (framed s p seq 0xC81 1 0x00 (push 0 (groupsRails s groups)))) ∧
    (p ≠ 0 → exec (.groupOnRequest p seq groups) s = .next (deniedAt s p seq 0xC81 1) ∧
      exec (.groupOffRequest p seq groups) s = .next (deniedAt s p seq 0xC81 1))

/-- O36. What one sequencer step does to each rail, and that none turns on unasked. A step of a sequencer with no course
to take up, no watchdog action, no request, no parity fault, the link disabled and no rail fault completes, and each
rail without a latched ON moves by at most one state: OFF and WAIT follow the target; WAIT goes to DELAY when no
prerequisite is named; DELAY to RISING at its delay; RISING to ON when good for DEGL steps; DRAIN ends when every
dependent counts off; OFF_DELAY, MINOFF and RETRY_WAIT end at their times; DISCHARGE ends when not good for DEGL steps;
ON stays, and FAULTED follows the target. The requests and actions of every step are used up, in every state. After a
step without a parity fault that keeps the core running, the exported power-good is good exactly when EXPORT is not 0
and every rail in it is ON with its good condition true. In every state after the first step of a core start, a rail in
OFF whose target is OFF, with no latched ON and not named ON by any waiting request, is still OFF after a sequencer
step, whatever the inputs, faults, take-downs and watchdog actions of that step. Once a SYSTEM_RESET take-down has every
rail down, a step that changes no rail resets the device: the core stops with STOP 5 and a wake sequence starts with
restart as its cause. -/
def Obligations.SequencerStepMovesEachRail : Prop :=
  (
    (∀ (s : State) (spg : BitVec 10) (smon : List Nat), coreUp s = true →
      ∃ t, exec (.sequencerStep spg smon) s = .next t ∧ t.core.seq.reqs = [] ∧ t.core.seq.acts = [] ∧
        (coreUp t = true → s.core.parity = [] → s.core.seq.rails.length = 10 →
          (t.core.seq.rpgOut = true ↔ rf t 0xC83 0 10 ≠ 0 ∧ ∀ r : Fin 10, (rf t 0xC83 0 10).testBit r.val = true →
            (nth t.core.seq.rails r.val {}).st = .on ∧ (nth t.core.seq.rails r.val {}).good = true))) ∧
    (∀ (s : State) (spg : BitVec 10) (smon : List Nat) (r : Fin 10), coreUp s = true → Settled s → courseDue s 4 = false →
        s.core.parity = [] → s.core.seq.acts = [] → s.core.seq.reqs = [] → s.core.seq.resetting = false → s.core.seq.first = false →
        s.core.seq.rails.length = 10 → bit (rd s 0x2400) 0 = false → s.core.gng.state ≠ 4 → s.core.seq.rpgIn = 0 →
        (∀ k : Fin 10, railFaultOf s k.val (nth s.core.seq.rails k.val {}) false false = []) →
      let x := nth s.core.seq.rails r.val {}
      let degl := fld (railPg s r.val) 8 8
      let tm := railTime s r.val
      let free := fld (railDep s r.val) 0 14 = 0
      ∃ t, exec (.sequencerStep spg smon) s = .next t ∧
        Keeps [.seq, .capo, .gng, .ports, .irqPend, .irqRound] s t ∧
        (x.latched = false →
          let st := (nth t.core.seq.rails r.val {}).st
          (x.st = .off → st = if x.target then .wait else .off) ∧
          (x.st = .wait → x.target = false → st = .off) ∧
          (x.st = .wait → x.target = true → free → st = .delay) ∧
          (x.st = .delay → x.target = false → st = .off) ∧
          (x.st = .delay → x.target = true → free → st = if nmax 1 (10 * fld tm 0 10) ≤ x.age + 1 then .rising else .delay) ∧
          (x.st = .rising → st = if x.good ∧ degl ≤ x.run then .on else .rising) ∧
          (x.st = .on → st = .on) ∧
          (x.st = .drain → (∀ k : Fin 10, bit (railDep s k.val) r.val = true → countsOff (nth s.core.seq.rails k.val {}).st = true) →
            st = if x.down = .none then .offDelay else .discharge) ∧
          (x.st = .offDelay → st = if nmax 1 (10 * fld tm 12 10) ≤ x.age + 1 then .discharge else .offDelay) ∧
          (x.st = .discharge → x.good = false → st = if degl ≤ x.run then (if x.retryTo then .retryWait else .minoff) else .discharge) ∧
          (x.st = .minoff → st = if nmax 1 (100 * fld tm 24 8) ≤ x.age + 1 then
            (if x.target then .wait else if latching x.down then .faulted else .off) else .minoff) ∧
          (x.st = .retryWait → st = if nmax (fld (railFault s r.val) 8 8) (fld tm 24 8) * 100 ≤ x.age + 1 then .wait else .retryWait) ∧
          (x.st = .faulted → st = if x.target then .wait else .faulted)))) ∧ (
    ∀ (s : State) (spg : BitVec 10) (smon : List Nat) (r : Fin 10),
      coreUp s = true → s.core.seq.first = false → s.core.seq.rails.length = 10 →
      (nth s.core.seq.rails r.val {}).st = .off → (nth s.core.seq.rails r.val {}).target = false →
      (nth s.core.seq.rails r.val {}).latched = false → (∀ q ∈ s.core.seq.reqs, bit q.1 r.val = false) →
      ∃ t, exec (.sequencerStep spg smon) s = .next t ∧ (nth t.core.seq.rails r.val {}).st = .off) ∧ (
    ∀ (s : State) (spg : BitVec 10) (smon : List Nat), coreUp s = true → Settled s → s.aon.mainOk = true → courseDue s 4 = false →
      s.core.seq.resetting = true → s.core.seq.first = false → s.core.seq.acts = [] → s.core.seq.reqs = [] →
      s.core.seq.rails.length = 10 → s.core.efl.banks.all (fun b => b.chan.isNone) = true → s.core.efl.log.phase = none →
      (∀ x ∈ s.core.seq.rails, x.st = .off ∧ x.target = false ∧ x.latched = false) →
      ∃ t, exec (.sequencerStep spg smon) s = .next t ∧ t.aon.phase = .arm ∧ t.aon.stop = 5 ∧ bit t.aon.wake 6 = true ∧
        t.core.regs = [] ∧ t.core.seq = {} ∧ t.hold.senCap = 0 ∧ t.aon.regs = s.aon.regs ∧ t.aon.tbase = s.aon.tbase ∧ t.flash = s.flash)

/-- O37. A temperature sample is converted, judged, and grouped. With no course to take up and no parity fault, a sample
completes. An enabled sensor but the die takes the temperature that its curve gives for its code, which is its ball's
voltage in 4,096ths of 2.500 V, rounded down and at most 4,095; a code of 0xFE0 or more makes it OPEN and one of 0x1F or
less SHORT; one that passes every test becomes valid when it was valid, was never bad, or completes its good run; a
disabled sensor is invalid with reason 6. A group with members none of which is valid is INVALID; one with a valid
member has the highest temperature of its valid members, and is HOT exactly at its limit, or within its hysteresis when
it was HOT. Completed periods count. Nothing but THM, the interrupt sources and the capo changes. -/
def Obligations.ThermalSampleIsJudgedAndGrouped : Prop :=
  ∀ (s : State) (uv : List Nat) (die : Int), coreUp s = true → Settled s → courseDue s 0 = false → s.core.parity = [] →
      s.core.thm.sens.length = 8 → s.core.thm.grps.length = 4 →
    ∃ t, exec (.thmSample uv die) s = .next t ∧
      t.core.thm.samples = (if s.core.thm.begun then s.core.thm.samples + 1 else s.core.thm.samples) ∧ t.core.thm.begun = true ∧
      (∀ k : Fin 8, let q := nth s.core.thm.sens k.val {}
        let x := nth t.core.thm.sens k.val {}
        let code := sat 4095 (nth uv k.val 0 * 4096 / 2500000)
        let curve := rf s (0xE20 + k.val) 1 1
        let lo := curvePoint s curve (code / 256)
        let hi := curvePoint s curve (code / 256 + 1)
        (bit (rd s (0xE20 + k.val)) 0 = false → x.valid = false ∧ x.reason = 6) ∧
        (bit (rd s (0xE20 + k.val)) 0 = true → k.val ≠ 6 →
          x.temp = unsgn 16 (lo + Int.tdiv ((hi - lo) * (code % 256 : Nat)) 256) ∧
          (0xFE0 ≤ code → x.valid = false ∧ x.reason = 1) ∧ (code ≤ 0x1F → x.valid = false ∧ x.reason = 2)) ∧
        (bit (rd s (0xE20 + k.val)) 0 = true → x.reason = 0 → x.valid = true) ∧
        (bit (rd s (0xE20 + k.val)) 0 = true →
          senTest s k.val q code (if k.val = 6 then clampI (-32768) 32767 die else curveTemp s curve code) = 0 →
          (q.valid = true ∨ q.everBad = false ∨ rf s (0xE20 + k.val) 4 4 ≤ q.goodRun + 1) → x.valid = true)) ∧
      (∀ g : Fin 4, let y := nth t.core.thm.grps g.val {}
        let member := fun (k : Nat) => (rf s (0xE30 + g.val) 0 8).testBit k
        let good := fun (k : Nat) => member k && (nth t.core.thm.sens k {}).valid
        let tOf := fun (k : Nat) => sgn 16 (nth t.core.thm.sens k {}).temp
        let lim := sgn 16 (rf s (0xE30 + g.val) 8 16)
        (rf s (0xE30 + g.val) 0 8 = 0 → y.state = 0) ∧
        (rf s (0xE30 + g.val) 0 8 ≠ 0 → (∀ k : Fin 8, good k.val = false) → y.state = 1) ∧
        ((∃ k : Fin 8, good k.val = true) →
          (∀ k : Fin 8, good k.val = true → tOf k.val ≤ y.temp) ∧ (∃ k : Fin 8, good k.val = true ∧ tOf k.val = y.temp) ∧
          (y.state = 3 ↔ (if (nth s.core.thm.grps g.val {}).state = 3 then lim - (rf s (0xE30 + g.val) 24 8 : Nat) ≤ y.temp else lim ≤ y.temp)) ∧
          (y.state = 2 ∨ y.state = 3))) ∧
      Keeps [.thm, .capo, .gng, .ports, .irqPend, .irqRound] s t

/-- O38. A control tick chooses each channel's source and moves its drive. With no course to take up and no parity
fault, a tick completes. Each channel's source is the failsafe while a watchdog, stall or group cause holds, full off
for a stall so configured, and its mode otherwise. Without the loop, a channel that has run before moves from its drive
toward 100 times its demand, limited to its range, by at most ten times its ramp; in failsafe it moves toward its
failsafe drive by at most ten times the failsafe ramp; stalled off it drives 0; a demand of 0 drives toward 0. A voltage
channel's output code follows its drive. Crossing into or out of the failsafe raises FLOW_FAILSAFE in the owner and P0.
Registers outside the ageing words, and all but FLW, interrupt sources and capo, are unchanged. That a limit above 1,000
acts as 1,000, and that a GROUP of 4 or more under a CURVE or MAX mode is a failsafe cause, is the model's reading
(notes/assumptions/24.md). -/
def Obligations.FlowTickDrivesEachChannel : Prop :=
  ∀ (s : State) (us : Nat), coreUp s = true → Settled s → courseDue s 1 = false → s.core.parity = [] →
      s.core.flw.drive.length = 6 → s.core.flw.age.length = 6 → s.core.flw.fvs.length = 2 → s.core.irq.length = 4 →
    ∃ t, exec (.flowTick us) s = .next t ∧ (∀ a, a < 0x1060 ∨ 0x1090 ≤ a → rd t a = rd s a) ∧
      Keeps [.flw, .regs, .capo, .gng, .ports, .irqPend, .irqRound] s t ∧
      (∀ n : Fin 6, let d := driveOf s n.val
        let x := driveOf t n.val
        let w := fun (k lo len : Nat) => rf s (0x1000 + 16 * n.val + k) lo len
        let per := fun (v : Nat) => if v ≤ 1000 then 100 * v else 100000
        let toward := fun (u req step : Nat) => if u ≤ req then (if u + step < req then u + step else req) else (if req < u - step then u - step else req)
        let dem := flowDemand s n.val
        x.source = flowSource s n.val ∧ x.cause = flowCause s n.val ∧ x.taken = true ∧
        (x.ramping = false ↔ x.u = x.uReq) ∧
        (d.taken = true → x.source < 4 → dem = 0 → x.u = toward d.u 0 (10 * w 0 8 7)) ∧
        (d.taken = true → x.source < 4 → dem ≠ 0 → w 0 2 1 = 0 → w 7 0 10 ≤ w 7 10 10 →
          let lo := per (w 7 0 10)
          let hi := per (w 7 10 10)
          x.u = toward d.u (if 100 * dem < lo then lo else if hi < 100 * dem then hi else 100 * dem) (10 * w 0 8 7)) ∧
        (d.taken = true → x.source = 4 → x.u = toward d.u (per (w 7 20 10)) (10 * w 8 25 7)) ∧
        (x.source = 5 → x.u = 0) ∧
        (d.taken = true → ((4 ≤ d.source) ≠ (4 ≤ x.source)) →
          bit (nth t.core.irq (ownerN s (.flow n.val)) {}).pend 22 = true ∧ bit (nth t.core.irq 0 {}).pend 22 = true) ∧
        (4 ≤ n.val → nth t.core.flw.fvs (n.val - 4) none =
          some ((2 * ((w 9 0 10 * 100000 : Nat) + ((w 9 16 10 : Int) - w 9 0 10) * x.u) + 100000) / 200000).toNat))

/-- O39. Tach edges, switching periods, stretch windows and stalls of a flow channel. An edge of a channel measured
continuously is kept with the one before it; one of a stretched channel counts only in its window. The end of a window
in progress on a stretched channel gives the speed 60,000,000 times the periods over their time and the pulses per
revolution, at most 65,535, and 0 with fewer than two edges; with no window in progress nothing changes. A period of a
channel at duty 0 or 1,000 per mille is wholly off or on. A stall at its count sets STALLED, counts it and raises
FLOW_STALL in the owner and P0; short of it nothing happens. A write of 1 to STALLED by the owner ends it and starts the
count again; another partition's is DENIED. -/
def Obligations.TachStretchAndStallEvents : Prop :=
  (∀ (s : State) (n : Fin 6) (us : Nat), coreUp s = true →
    let q := nth s.core.flw.fsw n.val {}
    (tachCont s n.val = true → exec (.tachEdge n us) s =
      .next (settle (modDrive s n.val (fun d => { d with edges := us :: d.edges.take 1 })))) ∧
    (tachCont s n.val = false → (q.winEnd = 0 ∨ us < q.winStart ∨ q.winEnd < us) → exec (.tachEdge n us) s = .next (settle s)) ∧
    (tachCont s n.val = false → q.winEnd ≠ 0 → q.winStart ≤ us → us ≤ q.winEnd → s.core.flw.fsw.length = 4 → s.core.flw.drive.length = 6 →
      ∃ t, exec (.tachEdge n us) s = .next t ∧ (nth t.core.flw.fsw n.val {}).winEdges = q.winEdges ++ [us] ∧
        (driveOf t n.val).edges = us :: (driveOf s n.val).edges.take 1)) ∧
  (∀ (s : State) (n : Fin 6), coreUp s = true → s.core.flw.drive.length = 6 →
    let es := (nth s.core.flw.fsw n.val {}).winEdges
    ((nth s.core.flw.fsw n.val {}).winEnd = 0 ∨ tachCont s n.val = true → exec (.stretchWindowEnd n) s = .next (settle s)) ∧
    ((nth s.core.flw.fsw n.val {}).winEnd ≠ 0 → tachCont s n.val = false →
     ∃ t, exec (.stretchWindowEnd n) s = .next t ∧ (driveOf t n.val).fresh = true ∧ (nth t.core.flw.fsw n.val {}).winEnd = 0 ∧
      (es.length < 2 → (driveOf t n.val).speed = 0) ∧
      (∀ a b mid, es = a :: (mid ++ [b]) → a < b → (driveOf t n.val).speed =
        sat 65535 (60000000 * (mid.length + 1) / ((uf s (0x1006 + 16 * n.val) 0 2 + 1) * (b - a)))))) ∧
  (∀ (s : State) (n : Fin 4) (us : Nat), coreUp s = true → s.core.flw.fsw.length = 4 →
    let duty := (driveOf s n.val).u / 100
    ∃ t, exec (.fswPeriodStart n us) s = .next t ∧ (nth t.core.flw.fsw n.val {}).duty = duty ∧
      (nth t.core.flw.fsw n.val {}).freq = uf s (0x1006 + 16 * n.val) 8 8 ∧
      (duty = 0 ∨ 1000 ≤ duty → (nth t.core.flw.fsw n.val {}).on = duty) ∧
      (∀ k : Fin 4, k ≠ n → nth t.core.flw.fsw k.val {} = nth s.core.flw.fsw k.val {}) ∧ t.core.flw.drive = s.core.flw.drive) ∧
  (∀ (s : State) (n : Fin 6), coreUp s = true →
    (flowStallDue s n.val = false → exec (.flowStall n) s = .next (settle s)) ∧
    (flowStallDue s n.val = true → s.core.irq.length = 4 → s.core.flw.drive.length = 6 →
      ∃ t, exec (.flowStall n) s = .next t ∧ (driveOf t n.val).stalled = true ∧
        (driveOf t n.val).nStalls = sat 255 ((driveOf s n.val).nStalls + 1) ∧
        bit (nth t.core.irq (ownerN s (.flow n.val)) {}).pend 20 = true ∧ bit (nth t.core.irq 0 {}).pend 20 = true)) ∧
  (∀ (s : State) (p : Part) (seq : Byte) (n : Fin 6) (v : Word), Listens s p → Settled s → s.core.flw.drive.length = 6 →
    (p.val ≠ ownerN s (.flow n.val) → exec (.stallClear p seq n v) s = .next (deniedAt s p seq (0x100B + 16 * n.val) 1)) ∧
    (p.val = ownerN s (.flow n.val) → bit v 8 = true → ∃ t, exec (.stallClear p seq n v) s = .next t ∧
      driveOf t n.val = { driveOf s n.val with stalled := false, stallRun := 0 } ∧ Keeps [.flw, .ports, .irqPend, .irqRound, .doze] s t))

/-- O40. A steady window gives a sample to its band, and a learned band keeps its baseline. A window of fewer than 100
ticks changes nothing. A complete one with a speed gives q = 64 times the mean drive over the mean speed, at most
65,535; its band is eight times the mean speed over the full speed, at most 7; the band's accumulator starts at 16 q
when CURRENT is 0 and otherwise gains q less a sixteenth of itself; CURRENT is a sixteenth of it, every other band's
word stays, and a new window starts. BASE is kept, unless the band is learning and has its samples with this one, which
takes CURRENT as BASE and marks it. Outside learning a CURRENT above BASE by more than MARGIN per cent, where BASE is
not 0, sets the band's AGEING bit, and FLOW_AGEING in the owner and P0 where it was 0. A band that has learned enough
samples takes CURRENT as its baseline and is marked; one that has not changes nothing. -/
def Obligations.SteadyWindowsAgeTheBands : Prop :=
  (∀ (s : State) (n : Fin 6), coreUp s = true →
    let g := ageOf s n.val
    let um := g.sumU / 100
    let sm := g.sumS / 100
    let full := uf s (0x100A + 16 * n.val) 0 16
    let q := if 65535 ≤ 64 * um / sm then 65535 else 64 * um / sm
    let b := if 7 ≤ 8 * sm / full then 7 else 8 * sm / full
    let a := 0x1060 + 8 * n.val + b
    let acc := if uf s a 16 16 = 0 then 16 * q else nth g.acc b 0 + q - nth g.acc b 0 / 16
    let learn := bit (used s (0x100A + 16 * n.val)) 22 = true
    let count := sat 255 (nth g.learnCnt b 0 + 1)
    let learns := learn ∧ bit g.learned b = false ∧ uf s (0x100A + 16 * n.val) 24 8 ≤ count
    let aged := ¬learn ∧ uf s a 0 16 ≠ 0 ∧ uf s a 0 16 * (100 + uf s (0x100A + 16 * n.val) 16 6) < acc / 16 * 100
    (g.n < 100 → exec (.steadyWindowEnd n) s = .next (settle s)) ∧
    (100 ≤ g.n → sm ≠ 0 → full ≠ 0 → swf regReset s.core.regs = true → s.core.flw.age.length = 6 → g.acc.length = 8 →
      ∃ t, exec (.steadyWindowEnd n) s = .next t ∧ (ageOf t n.val).n = 0 ∧ nth (ageOf t n.val).acc b 0 = acc ∧
        rf t a 16 16 = acc / 16 % 65536 ∧ (∀ x, x ≠ a → rd t x = rd s x) ∧ t.core.flw.drive = s.core.flw.drive ∧
        (badW s a = false → g.learnCnt.length = 8 → nth (ageOf t n.val).learnCnt b 0 = (if learn then count else nth g.learnCnt b 0) ∧
          (learns → rf t a 0 16 = acc / 16 % 65536 ∧ bit (ageOf t n.val).learned b = true) ∧
          (¬learns → rf t a 0 16 = rf s a 0 16 ∧ (ageOf t n.val).learned = g.learned)) ∧
        (badW s a = false → (aged → (ageOf t n.val).ageing = setBit g.ageing b true ∧ (bit g.ageing b = false → s.core.irq.length = 4 →
            bit (nth t.core.irq 0 {}).pend 21 = true ∧ (ownerN s (.flow n.val) < 4 → bit (nth t.core.irq (ownerN s (.flow n.val)) {}).pend 21 = true))) ∧
          (¬aged → (ageOf t n.val).ageing = g.ageing)))) ∧
  (∀ (s : State) (n : Fin 6) (b : Fin 8), coreUp s = true →
    (learnDue s n.val b.val = false → exec (.learnComplete n b) s = .next (settle s)) ∧
    (learnDue s n.val b.val = true → swf regReset s.core.regs = true → s.core.flw.age.length = 6 →
      ∃ t, exec (.learnComplete n b) s = .next t ∧ rf t (0x1060 + 8 * n.val + b.val) 0 16 = uf s (0x1060 + 8 * n.val + b.val) 16 16 ∧
        rf t (0x1060 + 8 * n.val + b.val) 16 16 = rf s (0x1060 + 8 * n.val + b.val) 16 16 ∧
        bit (ageOf t n.val).learned b.val = true))

/-- O41. Each position of a scan pass follows its debounce state machine. Without a pass in progress a pass end changes
nothing. Otherwise the pass ends, the frame has its sample, and every position of a row that is not scanned keeps its
state. A position of a scanned row that is not ambiguous in the sample moves as its table says: UP goes to PRESS_PENDING
when closed; PRESS_PENDING returns to UP when open, and goes to DOWN once closed for its press time (the wet time in a
wet column) unless a lockout with more than two closed keys holds it; DOWN goes to RELEASE_PENDING when open;
RELEASE_PENDING returns to DOWN when closed, and goes to UP once open for its release time. Only KEY, the interrupt
sources and SP_ALERT_N change. -/
def Obligations.PassSamplesAreDebounced : Prop :=
  ∀ (s : State) (closed : BitVec 160), coreUp s = true → Settled s →
    (s.core.key.passStart = none → exec (.keyPass closed) s = .next (settle s)) ∧
    (∀ t0 st0, s.core.key.passStart = some (t0, st0) → swf (fun _ => {}) s.core.key.keys = true →
      let seen := bvOf 160 (fun i => bit closed i && keyRowEn s (i / 16))
      ∃ t, exec (.keyPass closed) s = .next t ∧ t.core.key.passStart = none ∧ t.core.key.sampled = true ∧
        t.core.key.lastSample = some (t0, st0) ∧ t.core.key.closed = seen ∧ Keeps [.key, .ports, .irqPend, .irqRound] s t ∧
        (∀ pos : Fin 160, let k := keyOf s pos.val
          let x := keyOf t pos.val
          let cfg := used s (0x1208 + keyGroup s pos.val)
          let on := bit closed pos.val
          let press := (if nth s.core.key.frameWet (pos.val % 16) 0 ≠ 0 then fld cfg 16 8 else fld cfg 0 7) * 32768 / 1000
          let lockout := bit cfg 7
          (keyRowEn s (pos.val / 16) = false → x = k) ∧
          (keyRowEn s (pos.val / 16) = true →
            (k.st = .up → on = false → x.st = .up) ∧
            (k.st = .up → on = true → (lockout = true ∨ keyAmbig seen pos.val = false) → x.st = .pressPending ∧ x.cand = t0) ∧
            (k.st = .pressPending → on = false → x = {}) ∧
            (k.st = .pressPending → on = true → k.ghost = false → t0 - k.cand < press → x = k) ∧
            (k.st = .pressPending → on = true → k.ghost = false → press ≤ t0 - k.cand → keyAmbig seen pos.val = false →
              (lockout = false ∨ popcnt seen ≤ 2) → x.st = .down) ∧
            (k.st = .down → x.st = if on then .down else .releasePending) ∧
            (k.st = .releasePending → on = true → x.st = .down) ∧
            (k.st = .releasePending → on = false → (fld cfg 8 8 * 32768 / 1000 ≤ t0 - k.cand → x = {}) ∧
              (t0 - k.cand < fld cfg 8 8 * 32768 / 1000 → x = k)))))

/-- O42. What a scan frame start does. With no course to take up, a frame start counts the frame, counts an empty one
when the frame before had no sample, takes the columns' wet states for the frame, and starts a pass when the pads are
KEY's. An unlocked device whose autolock time has passed since the last press locks. A key group is suspended after it
exactly when its film threshold is not 0 and at least that many columns of its set are in FILM. A probe starts at the
lowest column of the probe set when its frame is due and none runs. -/
def Obligations.FrameStartsScanAndSuspend : Prop :=
  ∀ s : State, coreUp s = true → courseDue s 2 = false →
    ∃ t, exec .keyFrameStart s = .next t ∧ t.core.key.frames = s.core.key.frames + 1 ∧ t.core.key.inFrame = true ∧
      t.core.key.sampled = false ∧
      t.core.key.emptyFrames = (if s.core.key.inFrame = true ∧ s.core.key.sampled = false then sat 255 (s.core.key.emptyFrames + 1) else s.core.key.emptyFrames) ∧
      t.core.key.frameWet = s.core.key.cols.map (fun c => c.state) ∧
      t.core.key.passStart = (if padsFree s then some (now s, stamp s) else none) ∧
      (keyLocked s = false → uf s 0x127A 8 8 ≠ 0 → uf s 0x127A 8 8 * 327680 ≤ now s - s.core.key.idleFrom → keyLocked t = true) ∧
      (keyLocked s = false → uf s 0x127A 8 8 = 0 → keyLocked t = false) ∧
      (∀ g : Fin 8, let need := uf s 0x1210 (4 * g.val) 4
        let film := (bitsOf (columnSet s g.val) 16).filter (fun c => (nth s.core.key.cols c {}).state == 2)
        bit t.core.key.suspended g.val = true ↔ need ≠ 0 ∧ need ≤ film.length) ∧
      (let every := uf s 0x1200 8 5
       s.core.key.probe = none → probeSet s ≠ 0 → every ≠ 0 → (s.core.key.frames + 1).toNat % every = 0 →
         t.core.key.probe = some (lowest (probeSet s) 0)) ∧
      t.core.regs = s.core.regs ∧ t.aon = s.aon

/-- O43. Locking, autolock, unlocking and stuck keys. A lock or unlock write of another partition than P0 is DENIED.
P0's lock of an unlocked device locks it, holds every key that is not ALWAYS and not UP until its release, posts a lock
event to every FIFO with space and raises KEY_LOCK in every partition; on a locked device it changes nothing but the
port. An unlock does the like for every key and starts the idle time again. Autolock locks when AUTOLOCK is not 0 and
AUTOLOCK times 10 s have passed since the idle time started, and not before. A key that is down and stuck is masked,
once; a key that is up is not. -/
def Obligations.LockAndUnlockOfTheKeys : Prop :=
  (∀ (s : State) (p : Part) (seq : Byte) (v : Word), Listens s p → s.core.irq.length = 4 → s.core.key.fifos.length = 4 →
      swf (fun _ => {}) s.core.key.keys = true →
    let told := fun (t : State) (typ : Nat) => (∀ q : Part, bit (nth t.core.irq q.val {}).pend 26 = true ∧
      ((nth s.core.key.fifos q.val {}).entries.length < 64 →
        ∃ w ∈ (nth t.core.key.fifos q.val {}).entries.getLast?, fld w.1 0 8 = typ))
    (p ≠ 0 → exec (.keyLock p seq v) s = .next (deniedAt s p seq 0x1278 1) ∧
      exec (.keyUnlock p seq v) s = .next (deniedAt s p seq 0x1278 1)) ∧
    (p = 0 → bit v 0 = true → bit v 1 = false →
      (keyLocked s = true → exec (.keyLock p seq v) s = .next (framed s p seq 0x1278 1 0x00 id)) ∧
      (keyLocked s = false → ∃ t, exec (.keyLock p seq v) s = .next t ∧ keyLocked t = true ∧ told t 0x20 ∧
        (portOf t p).lastStatus = 0x00 ∧ t.core.regs = s.core.regs ∧
        (∀ pos : Fin 160, (keyOf t pos.val).st = (keyOf s pos.val).st ∧
          (keyAlways s pos.val = false → (keyOf s pos.val).st ≠ .up → (keyOf t pos.val).rbr = true) ∧
          (keyAlways s pos.val = true → keyOf t pos.val = keyOf s pos.val)))) ∧
    (p = 0 → bit v 1 = true →
      (keyLocked s = false → exec (.keyUnlock p seq v) s = .next (framed s p seq 0x1278 1 0x00 id)) ∧
      (keyLocked s = true → ∃ t, exec (.keyUnlock p seq v) s = .next t ∧ keyLocked t = false ∧ told t 0x21 ∧
        (portOf t p).lastStatus = 0x00 ∧ t.core.key.idleFrom = now s ∧ t.core.regs = s.core.regs ∧
        (∀ pos : Fin 160, (keyOf t pos.val).st = (keyOf s pos.val).st ∧
          ((keyOf s pos.val).st ≠ .up → (keyOf t pos.val).rbr = true))))) ∧
  (∀ s : State, coreUp s = true →
    (uf s 0x127A 8 8 = 0 ∨ now s - s.core.key.idleFrom < uf s 0x127A 8 8 * 327680 ∨ keyLocked s = true → exec .autolock s = .next (settle s)) ∧
    (uf s 0x127A 8 8 ≠ 0 → uf s 0x127A 8 8 * 327680 ≤ now s - s.core.key.idleFrom →
      ∃ t, exec .autolock s = .next t ∧ keyLocked t = true ∧ t.core.regs = s.core.regs)) ∧
  (∀ (s : State) (pos : Nat), coreUp s = true → swf (fun _ => {}) s.core.key.keys = true →
    let k := keyOf s pos
    ((160 ≤ pos ∨ k.st = .up ∨ k.st = .pressPending ∨ k.masked = true) → exec (.keyStuck pos) s = .next (settle s)) ∧
    (pos < 160 → (k.st = .down ∨ k.st = .releasePending) → k.masked = false →
      ∃ t, exec (.keyStuck pos) s = .next t ∧ keyOf t pos = { k with masked := true } ∧ (∀ q, q ≠ pos → keyOf t q = keyOf s q)))

/-- O44. Encoder edges and velocities, probe columns, and the pop of a FIFO. A rising Gray step moves COUNT by one in
the direction that DIR gives, a falling one by one the other way, and a change of both inputs counts an error and moves
nothing. A velocity update moves no COUNT and gives each encoder a velocity within one of its rounded quotient. A probe
column without a probe, before the pass of the frame is over, or with neither the whole frame nor 60 us of a grant left
for its slot, changes nothing; a busy column becomes stale only; a current outside 12 bits saturates it; otherwise LEAK
is half the difference of the currents, within half a unit, and the probe goes on with the next column of its set. A pop
frees the oldest entries of the writer's own FIFO and no other. A post to a FIFO with fewer than 64 entries appends one;
to a full one it counts a drop. -/
def Obligations.EncodersProbesAndEventFifos : Prop :=
  (∀ (s : State) (n : Fin 3) (a b : Bool), coreUp s = true → Settled s → s.core.key.encs.length = 3 →
    let e := nth s.core.key.encs n.val {}
    let gray := fun (x y : Bool) => if x then (if y then 2 else 3) else (if y then 1 else 0)
    let d := (gray a b + 4 - gray e.a e.b) % 4
    let fwd := bit (used s (0x1290 + 4 * n.val)) 3 = false
    ∃ t, exec (.encoderEdge n a b) s = .next t ∧ Keeps [.key, .irqRound] s t ∧
      (∀ k : Fin 3, k ≠ n → nth t.core.key.encs k.val {} = nth s.core.key.encs k.val {}) ∧
      nth t.core.key.encs n.val {} =
        (if d = 0 then { e with a := a, b := b }
         else if d = 2 then { e with a := a, b := b, errors := sat 65535 (e.errors + 1) }
         else if (d = 1 ∧ fwd) ∨ (d = 3 ∧ ¬fwd) then { e with a := a, b := b, count := e.count + 1 }
         else { e with a := a, b := b, count := e.count - 1 })) ∧
  (∀ s : State, coreUp s = true → Settled s → s.core.key.encs.length = 3 →
    ∃ t, exec .encVelocityUpdate s = .next t ∧ Keeps [.key, .irqRound] s t ∧
      (∀ n : Fin 3, let e := nth s.core.key.encs n.val {}
        let x := nth t.core.key.encs n.val {}
        let win := if uf s (0x1290 + 4 * n.val) 16 8 = 0 then 1 else uf s (0x1290 + 4 * n.val) 16 8
        let change := sgn 16 (e.count - nth e.hist (win - 1) 0).toNat
        x.count = e.count ∧ x.errors = e.errors ∧ x.hist = (e.count :: e.hist).take 256 ∧ -32767 ≤ x.vel ∧ x.vel ≤ 32767 ∧
        (-32767 < x.vel → x.vel < 32767 → (x.vel * win - change * 100).natAbs < win))) ∧
  (∀ (s : State) (iA iB : Int), coreUp s = true → Settled s → s.core.key.cols.length = 16 →
    let slot := s.core.key.passStart = none ∧ (padsFree s = true ∨ 60 ≤ s.core.key.grantLeft)
    (s.core.key.probe = none ∨ ¬slot → exec (.wetProbeColumn iA iB) s = .next (settle s)) ∧
    (∀ c, s.core.key.probe = some c → slot → c < 16 →
      let old := nth s.core.key.cols c {}
      let busy := (upto 10).any (fun r => bit s.core.key.closed (16 * r + c) || (keyOf s (16 * r + c)).st != .up || (keyOf s (16 * r + c)).masked)
      ∃ t, exec (.wetProbeColumn iA iB) s = .next t ∧ Keeps [.key, .irqPend, .irqRound, .ports] s t ∧
        t.core.key.grantLeft = s.core.key.grantLeft - 60 ∧ t.core.key.probe = ((bitsOf (probeSet s) 16).filter (fun x => decide (c < x))).head? ∧
        (∀ k : Fin 16, k.val ≠ c → nth t.core.key.cols k.val {} = nth s.core.key.cols k.val {}) ∧
        (let x := nth t.core.key.cols c {}
         (busy = true → x = { old with stale := true }) ∧
         (busy = false → (4095 < iA.natAbs ∨ 4095 < iB.natAbs) → x = { old with stale := false, saturated := true }) ∧
         (busy = false → iA.natAbs ≤ 4095 → iB.natAbs ≤ 4095 → iB ≤ iA →
           (2 * (x.leak : Int) - (iA - iB)).natAbs ≤ 1 ∧ x.stale = false ∧ x.saturated = false ∧
           (uf s 0x1220 16 12 ≤ x.leak → x.state = 2) ∧
           (x.leak < uf s 0x1220 0 12 - uf s 0x1221 0 12 → x.leak < uf s 0x1220 16 12 → x.state = 0))))) ∧
  (∀ (s : State) (p : Part) (seq : Byte) (v : Word), Listens s p → Settled s → s.core.key.fifos.length = 4 →
    ∃ t, exec (.keyFifoPop p seq v) s = .next t ∧ (portOf t p).lastStatus = 0x00 ∧ KeepsPort p [.key] s t ∧
      (nth t.core.key.fifos p.val {}).entries = (nth s.core.key.fifos p.val {}).entries.drop (fld v 0 7) ∧
      (∀ q : Part, q ≠ p → nth t.core.key.fifos q.val {} = nth s.core.key.fifos q.val {}) ∧ t.core.key.keys = s.core.key.keys) ∧
  (∀ (s : State) (p : Part) (typ subj flags data tick vel : Nat), s.core.key.fifos.length = 4 → s.core.irq.length = 4 →
    let q := nth s.core.key.fifos p.val {}
    let t := fifoPost s p.val typ subj flags data tick vel
    let x := nth t.core.key.fifos p.val {}
    (64 ≤ q.entries.length → x = { q with drops := sat 255 (q.drops + 1), loss := true } ∧ bit (nth t.core.irq p.val {}).pend 24 = true) ∧
    (q.entries.length < 64 → x.entries.length = q.entries.length + 1 ∧ x.entries.take q.entries.length = q.entries ∧
      x.nextSeq = q.nextSeq + 1 ∧ x.loss = false ∧ bit (nth t.core.irq p.val {}).pend 23 = true))

/-- O45. A panel update request queues, is absorbed, or is refused and counted, region by region. A request that names a
region of another partition is DENIED. Otherwise it completes with outcome OK: a named region that is empty, or any
while the panel is disabled or has no valid table, counts as refused; one already queued counts as absorbed and becomes
a full update when FULL is set; any other is queued, full exactly when FULL is set. Regions that are not named keep
their queue. Nothing but the queue, its counters, the note that requests became due in one instant (the model's record
of a tie, notes/assumptions/14.md), and the port changes. -/
def Obligations.UpdateRequestsQueueAbsorbOrRefuse : Prop :=
  ∀ (s : State) (p : Part) (seq : Byte) (v : Word), Listens s p → Settled s →
    let named := fun (r : Nat) => bit v r = true ∨ bit v (8 + r) = true
    let ok := fun (r : Nat) => !rectEmpty (panelRect s r) && bit (used s 0x1400) 0 && s.core.pix.tableOk
    let q := fun (r : Nat) => bit s.core.epd.queued r
    ((∃ r : Part, named r.val ∧ ownerN s (.panel r.val) ≠ p.val) →
      exec (.panelUpdateRequest p seq v) s = .next (deniedAt s p seq 0x1428 1)) ∧
    ((∀ r : Part, named r.val → ownerN s (.panel r.val) = p.val) →
      ∃ t, exec (.panelUpdateRequest p seq v) s = .next t ∧ (portOf t p).lastStatus = 0x00 ∧ KeepsPort p [.epd, .pix] s t ∧
        t.core.pix = { s.core.pix with tie := t.core.pix.tie } ∧
        (∀ r : Part, bit t.core.epd.queued r.val = (q r.val || (bit v r.val && ok r.val)) ∧
          bit t.core.epd.qfull r.val = (if bit v r.val && ok r.val then (q r.val && bit s.core.epd.qfull r.val) || bit v (8 + r.val) else bit s.core.epd.qfull r.val)) ∧
        (s.core.epd.refused ≤ 255 → t.core.epd.refused = sat 255 (s.core.epd.refused + ((upto 4).filter (fun r => bit v r && !ok r)).length)) ∧
        (s.core.epd.absorbed ≤ 255 → t.core.epd.absorbed = sat 255 (s.core.epd.absorbed + ((upto 4).filter (fun r => bit v r && ok r && q r)).length)) ∧
        t.core.epd = { s.core.epd with
          queued := t.core.epd.queued, qfull := t.core.epd.qfull, refused := t.core.epd.refused, absorbed := t.core.epd.absorbed })

/-- O46. An update or a blink toggle starts when it is due, or is refused for want of a temperature. With no course to
take up: a start that is not due changes nothing. A due update takes the next region in rotation off the queue and the
next sequence number; without a valid panel temperature and without a fallback it ends at once, counted, with outcome
TEMP and the temperature 0x8000 in the region's record and in EPD_LASTREC, and EPD_DONE raised in its owner; otherwise
it runs exactly when some pixel of the region takes part (all of a full update, else the dirty and the unknown ones), in
phase Up 1, with its region, owner and number. A due toggle takes the next pending blink region likewise; without a
temperature it ends at once, counted, recorded in EPD_LASTREC alone, without EPD_DONE. A due time of an enabled blink
region makes its toggle pending, or counts it LATE when one is pending already, the table is not valid or the panel is
disabled. Which of two starts has its turn after a tie, and that a due time while the panel is disabled counts LATE, are
the model's choice (notes/assumptions/14.md). -/
def Obligations.UpdatesAndTogglesStart : Prop :=
  (∀ s : State, coreUp s = true → courseDue s 3 = false → s.core.buf.bad = [] → s.core.irq.length = 4 → s.core.epd.recs.length = 4 →
    let warm := (nth s.core.thm.sens 7 {}).valid = true ∨ bit (used s 0x1418) 27 = true
    let number := (s.core.epd.lastSeq + 1) % 65536
    (updateDue s = false → exec .updateStart s = .next (settle s)) ∧
    (updateDue s = true → ∀ r, nextRegion s = some r →
      let full := bit s.core.epd.qfull r
      let part := fun (i : Nat) => full || pixDirty (pixWord s i) || pixUnknown (pixWord s i)
      ∃ t, exec .updateStart s = .next t ∧ t.core.epd.queued = setBit s.core.epd.queued r false ∧ t.core.epd.lastSeq = number ∧
        (¬warm → t.core.epd.run = none ∧ t.core.epd.tempRefused = sat 255 (s.core.epd.tempRefused + 1) ∧
          bit (nth t.core.irq (ownerN s (.panel r)) {}).pend 27 = true ∧ t.core.pix = { s.core.pix with tie := false } ∧
          t.core.epd.lastRec = [mkW [(0, 16, number), (16, 16, nth s.core.course.running 3 0)],
            mkW [(0, 16, 0x8000), (20, 4, r), (24, 2, ownerN s (.panel r)), (26, 3, 4), (31, 1, if full then 1 else 0)],
            mkW [(28, 1, if reduced s then 1 else 0)], 0] ∧
          t.core.epd.recs = upd s.core.epd.recs r (fun _ => t.core.epd.lastRec)) ∧
        (warm → t.core.pix.lastRegion = r ∧ t.core.pix.lastKindBlink = false ∧
          (t.core.epd.run.isSome = (rectIdx s (panelRect s r)).any part) ∧
          (∀ u, t.core.epd.run = some u → u.toggle = false ∧ u.subject = r ∧ u.owner.val = ownerN s (.panel r) ∧ u.seq = number ∧
            u.phase = .up1 ∧ u.full = full ∧ u.pix.map PixRun.idx = (rectIdx s (panelRect s r)).filter part) ∧
          (t.core.epd.run = none → bit (nth t.core.irq (ownerN s (.panel r)) {}).pend 27 = true)))) ∧
  (∀ s : State, coreUp s = true → courseDue s 3 = false → s.core.buf.bad = [] → s.core.pix.blinks.length = 8 →
    let warm := (nth s.core.thm.sens 7 {}).valid = true ∨ bit (used s 0x1418) 27 = true
    let number := (s.core.epd.lastSeq + 1) % 65536
    (toggleDue s = false → exec .blinkToggleStart s = .next (settle s)) ∧
    (toggleDue s = true → ∀ k, nextBlink s = some k →
      ∃ t, exec .blinkToggleStart s = .next t ∧ (nth t.core.pix.blinks k {}).pending = false ∧ t.core.epd.queued = s.core.epd.queued ∧
        t.core.epd.lastSeq = number ∧ t.core.epd.recs = s.core.epd.recs ∧
        (¬warm → t.core.epd.run = none ∧ t.core.epd.tempRefused = sat 255 (s.core.epd.tempRefused + 1) ∧
          t.core.pix = { s.core.pix with
            blinks := upd s.core.pix.blinks k (fun b => { b with pending := false, ret := false }), tie := false } ∧
          t.core.epd.lastRec = [mkW [(0, 16, number), (16, 16, nth s.core.course.running 3 0)],
            mkW [(0, 16, 0x8000), (19, 1, 1), (20, 4, k), (24, 2, ownerN s (.blink k)), (26, 3, 4)],
            mkW [(28, 1, if reduced s then 1 else 0)], 0] ∧
          (∀ q : Part, s.core.capo.trig = 0 → (nth t.core.irq q.val {}).pend = (nth s.core.irq q.val {}).pend)) ∧
        (warm → t.core.pix.lastBlink = k ∧ t.core.pix.lastKindBlink = true) ∧
        (∀ u, t.core.epd.run = some u → u.toggle = true ∧ u.subject = k ∧ u.phase = .up1 ∧ t.core.pix.lastBlink = k ∧ t.core.pix.lastKindBlink = true))) ∧
  (∀ (s : State) (k : Fin 8), coreUp s = true → s.core.pix.blinks.length = 8 →
    let b := nth s.core.pix.blinks k.val {}
    let due := bit (used s (0x1462 + 4 * k.val)) 7 = true ∧ b.grid ≤ now s
    (¬due → exec (.blinkDue k) s = .next (settle s)) ∧
    (due → ∃ t, exec (.blinkDue k) s = .next t ∧ (∀ j : Fin 8, j ≠ k → nth t.core.pix.blinks j.val {} = nth s.core.pix.blinks j.val {}) ∧
      t.core.epd = s.core.epd ∧
      nth t.core.pix.blinks k.val {} = (if b.pending = true ∨ s.core.pix.tableOk = false ∨ bit (used s 0x1400) 0 = false then
        { b with late := sat 255 (b.late + 1) } else { b with pending := true, ret := false })))

/-- O47. The phases of a panel run, and what its end does to the pixels. GOOD holds exactly for the rails that the phase
regulates and whose voltage lies within 5 % of its set value, or within 50 mV for VCOM (that a rail without regulation
is not good is the model's reading, notes/assumptions/14.md). Without a running update no rail event changes anything
but the voltages seen. The ends of Up 1, 2 and 3 with their rails good lead to the next phase; after Up 4 and the
waveform read, in either order, frames begin, or Down 1 where there is none to drive; with a rail not good they change
nothing. A time-out of Up 1, 2, 3 or 4 with a rail not good leads to Down 4, 3, 2 or 1 with outcome RAIL_UP and its
cause. A frame counts, and the last leads to Down 1; a pixel whose word has become uncorrectable gets no more codes. A
rail outside its window, or the boost, lost during the frames leads to Down 1 with outcome RAIL_LOST. The ends of Down
1, 2 and 3 lead to the next, remembering a level not reached. When Down 4 of an update ends, no update runs; its record
is the latest of all and of its region; EPD_DONE becomes pending in the region's owner, and EPD_FAULT in every partition
after a rail fault. After a completed update every pixel that took part holds its destination level as CUR, its TGT and
BLINK, its new tally, unknown where its waveform could not be read, and is not dirty; after a rail loss it is unknown
with its other fields kept; after a failed power-up it is unchanged. Every byte outside those pixel words keeps its
value. The end of a blink toggle does the like to its pixels, leaves DIRTY as it is, counts in TOGGLES and sets
SHOWING_ALT where it has completed, is recorded in EPD_LASTREC alone, and raises no EPD_DONE. -/
def Obligations.PanelRunAndItsEnd : Prop :=
  (∀ (s : State) (i : Fin 5) (u : UpdSt), s.core.epd.run = some u →
    let vgh : Int := 20000 + 500 * (uf s 0x1408 0 4 : Nat)
    let vpos : Int := 10000 + 20 * (u.drive : Nat)
    let set := [vgh, if vgh < 21000 then 800 - vgh else -20000, -vpos, vpos]
    let v := nth s.core.epd.railMv i.val 0
    let on := match u.phase with
      | .up1 => [0, 1] | .up2 => [0, 1, 2] | .up3 => [0, 1, 2, 3] | .up4 => [0, 1, 2, 3, 4] | .frames => [0, 1, 2, 3, 4]
      | .down1 => [0, 1, 2, 3] | .down2 => [0, 1, 2] | .down3 => [0, 1] | .down4 => []
    (bit (railGood s) i.val = true ↔ i.val ∈ on ∧
      if i.val = 4 then (255 * v + 3000 * (u.vcom : Int)).natAbs ≤ 50 * 255
      else 20 * (v - nth set i.val 0).natAbs ≤ (nth set i.val 0).natAbs)) ∧ (
    ∀ (s : State) (mv : List Int), coreUp s = true → courseDue s 3 = false → Settled s →
      let seen := { s.core.epd with railMv := mv }
      let s1 := railSee s mv
      (s.core.epd.run = none → exec .waveformReadDone s = .next (settle s) ∧ exec (.railUpPhaseEnd mv) s = .next (settle s1) ∧
        exec .panelFrame s = .next (settle s) ∧ exec (.railDownPhaseEnd mv) s = .next (settle s1) ∧
        (∀ c, exec (.railUpTimeout c mv) s = .next (settle s1) ∧ exec (.railLost c mv) s = .next (settle s1))) ∧
      (∀ u, s.core.epd.run = some u →
        let good := railGood s1 = railsOn u.phase
        let after := if u.total = 0 then EpdPhase.down1 else EpdPhase.frames
        (∃ t, exec (.railUpPhaseEnd mv) s = .next t ∧
          (¬good ∨ u.phase ∈ [EpdPhase.frames, .down1, .down2, .down3, .down4] → t = settle s1) ∧
          (good → u.phase = .up1 → t.core.epd = { seen with run := some { u with phase := .up2 } }) ∧
          (good → u.phase = .up2 → t.core.epd = { seen with run := some { u with phase := .up3 } }) ∧
          (good → u.phase = .up3 → t.core.epd = { seen with run := some { u with phase := .up4 } }) ∧
          (good → u.phase = .up4 → t.core.epd = { seen with run := some { u with upDone := true, phase := if u.readDone then after else .up4 } }) ∧
          Keeps [.epd, .key, .irqRound] s t) ∧
        (∃ t, exec .waveformReadDone s = .next t ∧
          (u.readDone = true → t = settle s) ∧
          (u.readDone = false → t.core.epd = { s.core.epd with run := some { u with readDone := true, phase := if u.upDone = true ∧ u.phase = .up4 then after else u.phase } })) ∧
        (∀ c, ∃ t, exec (.railUpTimeout c mv) s = .next t ∧
          let lost := fun (ph : EpdPhase) => { seen with run := some { u with phase := ph, outcome := 2, readDone := true }, lastFault := railCauseCode c }
          (good ∨ (u.phase = .up4 ∧ u.upDone = true) ∨ u.phase ∈ [EpdPhase.frames, .down1, .down2, .down3, .down4] → t = settle s1) ∧
          (¬good → u.phase = .up1 → t.core.epd = lost .down4) ∧ (¬good → u.phase = .up2 → t.core.epd = lost .down3) ∧
          (¬good → u.phase = .up3 → t.core.epd = lost .down2) ∧ (¬good → u.phase = .up4 → u.upDone = false → t.core.epd = lost .down1)) ∧
        (∃ t, exec .panelFrame s = .next t ∧ (u.phase ≠ .frames → t = settle s) ∧
          (u.phase = .frames → t.core.epd = { s.core.epd with run := t.core.epd.run } ∧ t.core.epd.run.isSome = true ∧
            ∀ x, t.core.epd.run = some x → x.done = u.done + 1 ∧ x.phase = (if u.total ≤ u.done + 1 then .down1 else .frames) ∧
            x.pix = u.pix.map (fun p => if s.core.buf.bad.elem (pixAddr p.idx / 8) then { p with seq := [], ecc := true } else p) ∧
            { x with done := u.done, phase := u.phase, pix := u.pix } = u)) ∧
        (∀ c, ∃ t, exec (.railLost c mv) s = .next t ∧
          let hit := u.phase = .frames ∧ (c = .boost ∨ bit (railGood s1) (railCauseCode c - 1) = false)
          (¬hit → t = settle s1) ∧
          (hit → t.core.epd = { seen with run := some { u with phase := .down1, outcome := 3 }, lastFault := railCauseCode c })) ∧
        (∃ t, exec (.railDownPhaseEnd mv) s = .next t ∧
          let goes := fun (ph : EpdPhase) (reached : Prop) =>
            ∃ x, t.core.epd = { seen with run := some { u with phase := ph, downSlow := x } } ∧ (x = true ↔ u.downSlow = true ∨ ¬reached)
          (u.phase = .down1 → goes .down2 ((nth mv 4 0).natAbs ≤ 50)) ∧ (u.phase = .down2 → goes .down3 (nth mv 3 0 < 1000)) ∧
          (u.phase = .down3 → goes .down4 (-1000 < nth mv 2 0)) ∧
          (u.phase = .down4 → t.core.epd.run = none ∧ railGood t = 0)))) ∧ (
    ∀ (s : State) (mv : List Int), coreUp s = true → courseDue s 3 = false → ∀ u, s.core.epd.run = some u → u.phase = .down4 → u.toggle = false →
        u.subject < 4 → s.core.irq.length = 4 → s.core.epd.recs.length = 4 → swf bufReset s.core.buf.mem = true → s.core.buf.bad = [] →
        (u.pix.map PixRun.idx).Nodup → (∀ p ∈ u.pix, p.idx < 307200) →
      let slow := u.downSlow || !decide (nth mv 0 0 < 1000 ∧ -1000 < nth mv 1 0)
      ∃ t, exec (.railDownPhaseEnd mv) s = .next t ∧ t.core.epd.run = none ∧
        t.core.epd.lastRec = updRecord s { u with downSlow := slow } ∧ nth t.core.epd.recs u.subject [] = t.core.epd.lastRec ∧
        bit (nth t.core.irq (ownerN s (.panel u.subject)) {}).pend 27 = true ∧
        (u.outcome = 2 ∨ u.outcome = 3 → (∀ q : Part, bit (nth t.core.irq q.val {}).pend 28 = true) ∧ t.core.epd.railFaults = sat 255 (s.core.epd.railFaults + 1)) ∧
        (∀ p ∈ u.pix,
          (u.outcome = 1 → pixWord t p.idx = mkPix p.dest (pixTgt (pixWord s p.idx)) (if p.ecc then 32 else unsgn 6 p.tally) (pixBlink (pixWord s p.idx)) false) ∧
          (u.outcome = 3 → pixUnknown (pixWord t p.idx) = true ∧ pixCur (pixWord t p.idx) = pixCur (pixWord s p.idx) ∧
            pixTgt (pixWord t p.idx) = pixTgt (pixWord s p.idx) ∧ pixBlink (pixWord t p.idx) = pixBlink (pixWord s p.idx) ∧
            pixDirty (pixWord t p.idx) = pixDirty (pixWord s p.idx)) ∧
          (u.outcome = 2 → pixWord t p.idx = pixWord s p.idx)) ∧
        (∀ a, (∀ p ∈ u.pix, a ≠ pixAddr p.idx ∧ a ≠ pixAddr p.idx + 1) → bufByte t a = bufByte s a)) ∧ (
    ∀ (s : State) (mv : List Int), coreUp s = true → courseDue s 3 = false → Settled s → ∀ u, s.core.epd.run = some u → u.phase = .down4 →
        u.toggle = true → u.subject < 8 → s.core.irq.length = 4 → s.core.pix.blinks.length = 8 → swf bufReset s.core.buf.mem = true →
        s.core.buf.bad = [] → (u.pix.map PixRun.idx).Nodup → (∀ p ∈ u.pix, p.idx < 307200) →
      let slow := u.downSlow || !decide (nth mv 0 0 < 1000 ∧ -1000 < nth mv 1 0)
      let b := nth s.core.pix.blinks u.subject {}
      ∃ t, exec (.railDownPhaseEnd mv) s = .next t ∧ t.core.epd.run = none ∧ t.core.epd.recs = s.core.epd.recs ∧
        t.core.epd.lastRec = updRecord s { u with downSlow := slow } ∧
        (∀ q : Part, bit (nth t.core.irq q.val {}).pend 27 = bit (nth s.core.irq q.val {}).pend 27) ∧
        nth t.core.pix.blinks u.subject {} = (if u.outcome = 1 then { b with toggles := b.toggles + 1, showingAlt := u.towardAlt } else b) ∧
        (∀ p ∈ u.pix,
          (u.outcome = 1 → pixWord t p.idx = mkPix p.dest (pixTgt (pixWord s p.idx)) (if p.ecc then 32 else unsgn 6 p.tally)
            (pixBlink (pixWord s p.idx)) (pixDirty (pixWord s p.idx))) ∧
          (u.outcome = 3 → pixUnknown (pixWord t p.idx) = true ∧ pixCur (pixWord t p.idx) = pixCur (pixWord s p.idx)) ∧
          (u.outcome = 2 → pixWord t p.idx = pixWord s p.idx)))

/-- O48. A reload starts validation; its end trusts the table or names the failed check. A reload by a partition other
than P0 is DENIED; P0's starts validation, from which on changes of the region count. Without validation running its end
changes nothing. Otherwise validation ends with the first failed check as its reason; a table that passes every check
becomes valid with its header's inks, bands and identity, unless the region was written before and this is not the end
of a RELOAD that has met no other write; any other is not valid, and every queued update is discarded and counted. That
CHANGED starts anew with each validation, and that a check whose bytes are uncorrectable gives REASON 7, are the model's
reading (notes/assumptions/14.md). -/
def Obligations.WaveformTableIsValidated : Prop :=
  (∀ (s : State) (p : Part) (seq : Byte) (v : Word), Listens s p → Settled s → bit v 0 = true →
    (p ≠ 0 → exec (.wfReload p seq v) s = .next (deniedAt s p seq 0x1454 1)) ∧
    (p = 0 → ∃ t, exec (.wfReload p seq v) s = .next t ∧ t.core.pix = { s.core.pix with validating := true, reload := true, changed := false } ∧
      (portOf t p).lastStatus = 0x00 ∧ t.flash = s.flash ∧ KeepsPort p [.pix, .efl] s t)) ∧
  (∀ s : State, coreUp s = true → Settled s →
    (s.core.pix.validating = false → exec .wfValidationDone s = .next (settle s)) ∧
    (s.core.pix.validating = true → ∃ t, exec .wfValidationDone s = .next t ∧ t.core.pix.validating = false ∧
      t.core.pix.reason = wfReason s ∧ t.flash = s.flash ∧ Keeps [.pix, .epd, .efl, .irqRound] s t ∧
      (wfReason s = 0 → t.core.pix.inks = wfNat s 5 1 ∧ t.core.pix.bands = wfNat s 6 1 ∧ t.core.pix.tableId = wfNat s 16 2 ∧ t.core.pix.tableLen = wfNat s 12 4) ∧
      let stays := s.core.pix.stale = true ∧ (s.core.pix.reload = false ∨ s.core.pix.changed = true)
      (wfReason s = 0 → ¬stays → t.core.pix.tableOk = true ∧ t.core.pix.stale = false ∧ t.core.epd = s.core.epd) ∧
      (wfReason s ≠ 0 ∨ stays → t.core.pix.tableOk = false ∧ t.core.epd.queued = 0 ∧
        t.core.epd.discarded = sat 255 (s.core.epd.discarded + popcnt s.core.epd.queued))))

/-- O49. A setup flash operation is queued on its channel, masked, or denied. A frame that writes a channel's ADDR and
CMD from a partition that does not own the channel is DENIED and changes nothing but its port. Otherwise ADDR takes the
address. A channel that is queued or running, and ADVANCE or FORMAT on a channel other than the log's, turn the
operation away with outcome MASKED, and the channel keeps its state; in every other case the channel is QUEUED with the
operation, its address, count, granule and issuer, with outcome OK. This holds of READ, PROGRAM, ERASE, SCAN, MARGIN_PV,
MARGIN_EV, ADVANCE and FORMAT. -/
def Obligations.FlashSubmissionsQueueOrAreMasked : Prop :=
  ∀ (s : State) (p : Part) (seq : Byte) (ch : Fin 10) (addr : BitVec 21) (count : BitVec 8) (granule : BitVec 9), Listens s p →
    let a := 0x1620 + 8 * ch.val
    let owner := if 1 ≤ ch.val ∧ ch.val ≤ 8 then ownerN s (.sfr (ch.val - 1)) else 0
    let st := (nth s.core.efl.chans ch.val {}).state
    ∀ e ∈ [(1, Instr.eflRead p seq ch addr count granule), (2, .eflProgram p seq ch addr count granule), (3, .eflErase p seq ch addr count granule),
        (4, .scan p seq ch addr count granule), (5, .marginPv p seq ch addr count granule), (6, .marginEv p seq ch addr count granule),
        (8, .advance p seq ch addr count granule), (9, .format p seq ch addr count granule)],
      (p.val ≠ owner → exec e.2 s = .next (deniedAt s p seq a 2)) ∧
      (p.val = owner → (st = 1 ∨ st = 2 ∨ (8 ≤ e.1 ∧ ch.val ≠ 9)) →
        exec e.2 s = .next (framed s p seq a 2 0x01 (fun x => putReg x a (blend (rd s a) (BitVec.ofNat 32 addr.toNat) 0x1FFFFF)))) ∧
      (p.val = owner → st ≠ 1 → st ≠ 2 → (e.1 < 8 ∨ ch.val = 9) →
        exec e.2 s = .next (framed s p seq a 2 0x00 (fun x => modCh (putReg x a (blend (rd s a) (BitVec.ofNat 32 addr.toNat) 0x1FFFFF)) ch.val
          (fun _ => { state := 1, op := e.1, issuer := p, addr := addr.toNat, count := count.toNat, granule := granule.toNat }))))

/-- O50. An idle bank starts the next ready channel, which runs or ends at once with its code. With no course to take
up, a bank that is busy or has no ready channel starts nothing. Otherwise the next ready channel in rotation is taken:
with a wrong form or range it ends with RANGE, with a granule outside its issuer's quota with QUOTA, and, on the log
channel in FAULT, with its fault code unless it is FORMAT; in each case the bank is idle again and EFL_DONE becomes
pending in the issuer; that RANGE and QUOTA go before the code of a log in FAULT is the model's choice
(notes/assumptions/15.md). Every other operation runs in the bank, at its physical address. -/
def Obligations.FlashOperationsStartInRotation : Prop :=
  ∀ (s : State) (b : Fin 2), coreUp s = true → courseDue s 6 = false → s.core.efl.banks.length = 2 → s.core.efl.chans.length = 10 → s.core.irq.length = 4 →
    let order := (upto 10).map (fun i => ((nth s.core.efl.banks b.val {}).last + 1 + i) % 10)
    (bankIdle s b.val = false ∨ order.find? (eflReady s b.val) = none → exec (.eflOpStart b) s = .next (settle s)) ∧
    (bankIdle s b.val = true → ∀ c, order.find? (eflReady s b.val) = some c →
      let q := chOf s c
      let form := eflFormOk q.op q.addr q.count q.granule = true ∧ eflRangeOk s c q.op q.addr q.count = true
      let quota := (eflGranules q).all (inQuota s q.issuer.val) = true
      let broken := c = 9 ∧ (logOf s).state = 5 ∧ q.op ≠ 9
      ∃ t, exec (.eflOpStart b) s = .next t ∧ t.flash = s.flash ∧ (nth t.core.efl.banks b.val {}).last = c ∧
        (¬form ∨ ¬quota ∨ broken →
          (nth t.core.efl.banks b.val {}).chan = none ∧ (chOf t c).state = 3 ∧
          (q.dropped = false → (chOf t c).result = (if ¬form then 1 else if ¬quota then 2 else 10) ∧
            bit (nth t.core.irq q.issuer.val {}).pend 29 = true)) ∧
        (form → quota → ¬broken →
          (nth t.core.efl.banks b.val {}).chan = some c ∧ (chOf t c).state = 2 ∧ (chOf t c).phys = eflPhys s c q.addr ∧
          (chOf t c).op = q.op ∧ (chOf t c).issuer = q.issuer ∧ (chOf t c).reduced = reduced s ∧
          (q.op = 8 → (logOf t).state = 3 ∧ (logOf t).phase = some .checkGap)))

/-- O51. What the end of each setup flash operation leaves in the array, the buffer, the report and the log. With no
course to take up: a bank without an operation, or with a suspended one, ends nothing, but lets a waiting log phase
start. A successful ERASE leaves every row of its sector erased and every other row as it was. A PROGRAM that failed its
checks leaves the flash unchanged and has their code; one that succeeds stores its data row by row, each row marked
programmed; one whose row k fails its verify ends PROGRAM_FAIL, counted, with the rows before k stored, row k not
PROGRAMMED and every later row as it was. A READ of readable rows into granules of its quota delivers two rows to each;
one that meets an uncorrectable word delivers what it read and ends UNCORRECTABLE, and it reports, counts and flags its
ERASED, TORN and uncorrectable rows. A SCAN changes neither the array nor the buffer, and reports how many rows are
ERASED, TORN and uncorrectable, and the first ERASED one. MARGIN_PV and MARGIN_EV report the largest count of failing
bits and the first row that has it, with RESULT MARGIN and EFL_WARN in P0 where a bit fails; MARGIN_EV counts in a row
that is fixed every data bit that is 0, and leaves a row without a failing bit fit to program. A successful FORMAT
erases the whole log region and leaves the log READY with its gap at the top and START, SEQ and the erase count 0; a
failed one leaves it in FAULT. That MARGIN goes before UNCORRECTABLE, that a failed FORMAT leaves FAULT, and what a
clean MARGIN_EV does to a row that nothing fixed, are the model's reading (notes/assumptions/15.md). The channel is DONE
with its result, DISCARDED when its partition was reset, the bank is free, and EFL_DONE becomes pending in the issuer
unless it was dropped. -/
def Obligations.FlashOperationsEnd : Prop :=
  ∀ (s : State) (b : Fin 2) (obs : EflObs), coreUp s = true → courseDue s 6 = false → s.core.efl.banks.length = 2 → s.core.efl.chans.length = 10 → s.core.irq.length = 4 →
    let k := nth s.core.efl.banks b.val {}
    (k.chan = none ∨ k.suspended = true → exec (.eflOpDone b obs) s = .next (settle (advTry s))) ∧
    (∀ c, k.chan = some c → k.suspended = false → c < 10 →
      let q := chOf s c
      let row := q.phys / 256
      let ends := fun (t : State) (result : Nat) => (nth t.core.efl.banks b.val {}).chan = none ∧ (chOf t c).state = 3 ∧
        (chOf t c).result = (if q.dropped then 9 else result) ∧ (q.dropped = false → bit (nth t.core.irq q.issuer.val {}).pend 29 = true)
      (q.op = 3 → obs.eraseFail = false → ∃ t, exec (.eflOpDone b obs) s = .next t ∧ ends t 0 ∧
        (∀ i : Fin 16, (rowView t (16 * (q.phys / 4096) + i.val)).status = 1) ∧
        (∀ r, r < 16 * (q.phys / 4096) ∨ 16 * (q.phys / 4096) + 16 ≤ r → s.flash.undef.elem r = false → s.flash.unmarked.elem r = false → rowView t r = rowView s r)) ∧
      (q.op = 3 → obs.eraseFail = true → ∃ t, exec (.eflOpDone b obs) s = .next t ∧ ends t 6 ∧ t.core.efl.eraseFails = sat 255 (s.core.efl.eraseFails + 1)) ∧
      (q.op = 2 → q.early ≠ 0 → ∃ t, exec (.eflOpDone b obs) s = .next t ∧ ends t q.early ∧ t.flash = s.flash) ∧
      (q.op = 2 → q.early = 0 → obs.failRow = none → swf flashErased s.flash.mem = true → ∃ t, exec (.eflOpDone b obs) s = .next t ∧ ends t 0 ∧
        (∀ i, i < q.data.length / 256 →
          sgetRun flashErased t.flash.mem (256 * (row + i)) 256 = (q.data.drop (256 * i)).take 256 ∧
          sget (fun _ => 0xFFFF) t.flash.markers (row + i) = 0x3C5A) ∧
        (∀ a, a < 256 * row ∨ 256 * (row + q.data.length / 256) ≤ a → sget flashErased t.flash.mem a = sget flashErased s.flash.mem a)) ∧
      (q.op = 2 → q.early = 0 → swf flashErased s.flash.mem = true → ∀ k, obs.failRow = some k → k < q.data.length / 256 →
        ∃ t, exec (.eflOpDone b obs) s = .next t ∧ ends t 5 ∧ t.core.efl.programFails = sat 255 (s.core.efl.programFails + 1) ∧
        (∀ i, i < k → sgetRun flashErased t.flash.mem (256 * (row + i)) 256 = (q.data.drop (256 * i)).take 256 ∧
          sget (fun _ => 0xFFFF) t.flash.markers (row + i) = 0x3C5A) ∧
        (s.flash.undef.elem (row + k) = false → (rowView t (row + k)).status ≠ 0) ∧
        (∀ a, a < 256 * row ∨ 256 * (row + k) ≤ a → sget flashErased t.flash.mem a = sget flashErased s.flash.mem a)) ∧
      (q.op = 1 → obs = {} → (eflGranules q).all (inQuota s q.issuer.val) = true → (∀ r ∈ eflRows q, (rowView s r).bad = []) →
        swf bufReset s.core.buf.mem = true → s.core.buf.bad = [] → ∃ t, exec (.eflOpDone b obs) s = .next t ∧ ends t 0 ∧ t.flash = s.flash ∧
        (∀ i, i ≤ q.count → granuleBytes t (q.granule + i) = (rowView s (row + 2 * i)).bytes ++ (rowView s (row + 2 * i + 1)).bytes ∧
          (q.granule + i < 512 → bit t.core.buf.written (q.granule + i) = true ∧ bit t.core.buf.guardOk (q.granule + i) = true))) ∧
      (q.op = 1 → (eflGranules q).all (inQuota s q.issuer.val) = true → swf bufReset s.core.buf.mem = true → s.core.buf.bad = [] →
        ∃ t, exec (.eflOpDone b obs) s = .next t ∧ t.flash = s.flash ∧
        let vs := (eflRows q).zipIdx.map (fun e => foundRow s obs e.2 e.1)
        let view := fun (i : Nat) => foundRow s obs i (row + i)
        let n := fun (k : Nat) => (vs.filter (fun v => v.status == k)).length
        let unc := (vs.filter (fun v => v.status == 0 && !v.bad.isEmpty)).length
        ends t (if 0 < unc then 7 else 0) ∧ fld (chOf t c).rep0 0 9 = n 1 % 512 ∧ fld (chOf t c).rep0 9 9 = n 2 % 512 ∧
          fld (chOf t c).rep0 18 9 = unc % 512 ∧ ((chOf t c).torn = true ↔ 0 < n 2) ∧
          t.core.efl.uncorrRows = sat 255 (s.core.efl.uncorrRows + unc) ∧ t.core.efl.tornRows = sat 255 (s.core.efl.tornRows + n 2) ∧
          (∀ i, i ≤ q.count → granuleBytes t (q.granule + i) = (view (2 * i)).bytes ++ (view (2 * i + 1)).bytes)) ∧
      (q.op = 4 → ∃ t, exec (.eflOpDone b obs) s = .next t ∧ t.flash = s.flash ∧ t.core.buf = s.core.buf ∧
        let vs := (eflRows q).zipIdx.map (fun e => foundRow s obs e.2 e.1)
        let n := fun (k : Nat) => (vs.filter (fun v => v.status == k)).length
        let unc := (vs.filter (fun v => v.status == 0 && !v.bad.isEmpty)).length
        ends t (if 0 < unc then 7 else 0) ∧ fld (chOf t c).rep0 0 9 = n 1 % 512 ∧ fld (chOf t c).rep0 9 9 = n 2 % 512 ∧
          fld (chOf t c).rep0 18 9 = unc % 512 ∧ ((chOf t c).torn = true ↔ 0 < n 2) ∧
          t.core.efl.uncorrRows = sat 255 (s.core.efl.uncorrRows + unc) ∧ t.core.efl.tornRows = sat 255 (s.core.efl.tornRows + n 2) ∧
          (∀ i, vs.findIdx? (fun v => v.status == 1) = some i → fld (chOf t c).rep1 16 8 = i % 256 ∧ bit (chOf t c).rep1 24 = true) ∧
          (n 1 = 0 → bit (chOf t c).rep1 24 = false)) ∧
      (q.op = 5 ∨ q.op = 6 → ∃ t, exec (.eflOpDone b obs) s = .next t ∧ t.core.buf = s.core.buf ∧
        let ms := marginCounts s (q.op == 5) obs row (eflRows q).length
        (q.op = 5 ∨ (∀ r ∈ eflRows q, rowOpen s r = false) → t.flash = s.flash) ∧
        (q.op = 6 → ∀ i, i < (eflRows q).length → nth obs.margin i 0 ≤ nth ms i 0 ∧
          (rowOpen s (row + i) = false → (nth ms i 0 = 0 ↔ nth obs.margin i 0 = 0 ∧
            (sgetRun flashErased s.flash.mem (256 * (row + i)) 256).all (fun x => x == 0xFF) = true)) ∧
          (nth ms i 0 = 0 → rowOpen t (row + i) = false)) ∧
        (q.op = 5 → ∀ i, i < (eflRows q).length →
          nth ms i 0 = if (foundRow s obs i (row + i)).status = 1 then 0 else nth obs.margin i 0) ∧
        ((∀ m ∈ ms, m = 0) → obs.uncorr = [] → (∀ r ∈ eflRows q, (rowView s r).bad = []) → ends t 0) ∧
        (∀ m ∈ ms, m ≠ 0 → ends t 11 ∧ bit (nth t.core.irq 0 {}).pend 30 = true) ∧
        (∀ m ∈ ms, sat 63 m ≤ fld (chOf t c).rep1 0 6) ∧
        (ms ≠ [] → ms.length ≤ 256 → ∃ i, ms[i]? = some (listMax ms) ∧ fld (chOf t c).rep1 8 8 = i ∧ fld (chOf t c).rep1 0 6 = sat 63 (listMax ms) ∧
          ∀ j, j < i → nth ms j 0 < listMax ms)) ∧
      (q.op = 9 → c = 9 → ∃ t, exec (.eflOpDone b obs) s = .next t ∧ ends t (if obs.eraseFail then 6 else 0) ∧
        (obs.eraseFail = true → (logOf t).state = 5 ∧ t.core.efl.eraseFails = sat 255 (s.core.efl.eraseFails + 1)) ∧
        (obs.eraseFail = false → (logOf t).state = 2 ∧ (logOf t).gap = (logOf s).span - 1 ∧ (logOf t).start = 0 ∧ (logOf t).seq = 0 ∧
          (logOf t).erases = 0 ∧ (logOf t).recAt = none ∧
          ∀ r, 16 * (logOf s).base ≤ r → r < 16 * ((logOf s).base + (logOf s).span + 2) → (rowView t r).status = 1)))

/-- O52. An advance of the rotating log starts, goes through its phases and commits its mapping; recovery readies the
log. An automatic advance starts exactly when the log is READY, its erases have reached ADV_EVERY, its bank is idle and
the warning does not hold it. A phase that runs and is not suspended ends; one that waits starts once the warning does
not hold it and its bank is free, and a suspended one goes on waiting. A gap check that finds a failing bit erases the
gap and raises EFL_WARN in P0. It leads to PREPARE where the pointer sector changes and the other one is not erased,
which PREPARE erases, and to COPY otherwise; COPY copies the readable programmed rows of the source sector to the gap
and leads to COMMIT; COMMIT moves the gap down by one, or, from 0, to the top with START moved by one, raises the
sequence number and writes the pointer record; CLEAN erases the source sector, and leads to CLEANPTR, which erases the
old pointer sector, where the pointer sector has changed; the advance ends after it, and the ADVANCE operation with it.
A phase whose erase or program fails leaves the log in FAULT. Recovery of a RECOVERING log on an idle bank erases the
gap where a bit of it fails and the other pointer sector where it is not erased, and makes the log READY, or FAULT when
an erase it needed failed. The result codes of a failed advance, the mapping that a failed commit keeps, and that a
phase that waits leaves its bank idle, are the model's reading (notes/assumptions/15.md). -/
def Obligations.RotatingLogAdvancesAndRecovers : Prop :=
  (∀ s : State, coreUp s = true →
    let l := logOf s
    let every := fld (eflCfg s (logBank s)) 8 8
    let due := l.state = 2 ∧ l.span ≠ 0 ∧ every ≠ 0 ∧ every ≤ l.erases ∧ bankIdle s (logBank s) = true ∧ heldNvm s = false
    (¬due → exec .logAdvance s = .next (settle s)) ∧
    (due → ∃ t, exec .logAdvance s = .next t ∧ (logOf t).state = 3 ∧ (logOf t).phase = some .checkGap ∧ (logOf t).erases = 0 ∧
      (logOf t).started = true ∧ (logOf t).source = (if l.gap = 0 then l.span - 1 else l.gap - 1) ∧ (logOf t).gap = l.gap ∧ t.flash = s.flash)) ∧
  (∀ (s : State) (obs : EflObs), coreUp s = true → courseDue s 6 = false → s.core.efl.banks.length = 2 → s.core.efl.chans.length = 10 → logBank s < 2 →
    let l := logOf s
    let k := nth s.core.efl.banks (logBank s) {}
    let free := k.chan = none ∨ (k.chan = some 9 ∧ (chOf s 9).op = 8)
    let dirty := ∃ i : Fin 16, nth obs.margin i.val 0 ≠ 0 ∨ 0 < rowZeros s (16 * (l.base + 2 + l.gap) + i.val)
    let starts := fun (t : State) => (logOf t).started = true ↔ heldNvm s = false ∧ free
    let sec := (l.recAt.map (fun e => e.1)).getD 0
    let blank := fun (t : State) (sector : Nat) => ∀ i : Fin 16, (rowView t (16 * sector + i.val)).status = 1
    let ended := fun (t : State) (state result : Nat) => (logOf t).state = state ∧ (logOf t).phase = none ∧
      (k.chan = some 9 → (nth t.core.efl.banks (logBank s) {}).chan = none ∧ (chOf t 9).state = 3 ∧
        (chOf t 9).result = if (chOf s 9).dropped then 9 else result)
    (l.phase = none ∨ (l.started = true ∧ k.suspended = true) → exec (.logAdvancePhaseEnd obs) s = .next (settle s)) ∧
    (∀ ph, l.phase = some ph → l.started = false → ∃ t, exec (.logAdvancePhaseEnd obs) s = .next t ∧ starts t ∧ (logOf t).phase = some ph ∧
      (logOf t).gap = l.gap ∧ (logOf t).state = l.state ∧ t.flash = s.flash) ∧
    (l.started = true → k.suspended = false →
      (l.phase = some .checkGap → ¬dirty →
        ∃ t, exec (.logAdvancePhaseEnd obs) s = .next t ∧ starts t ∧
          ((∀ i : Fin 16, rowOpen s (16 * (l.base + 2 + l.gap) + i.val) = false) → t.flash = s.flash) ∧
          (logOf t).phase = some (if l.swap = true ∧ sectorErased s (l.base + 1 - sec) = false then .prepare else .copy)) ∧
      (l.phase = some .checkGap → dirty → s.core.irq.length = 4 →
        ∃ t, exec (.logAdvancePhaseEnd obs) s = .next t ∧ bit (nth t.core.irq 0 {}).pend 30 = true ∧
          (obs.eraseFail = true → ended t 5 6) ∧ (obs.eraseFail = false → blank t (l.base + 2 + l.gap) ∧ (logOf t).state = l.state)) ∧
      (l.phase = some .prepare → ∃ t, exec (.logAdvancePhaseEnd obs) s = .next t ∧
          (obs.eraseFail = true → ended t 5 6 ∧ t.core.efl.eraseFails = sat 255 (s.core.efl.eraseFails + 1)) ∧
          (obs.eraseFail = false → blank t (l.base + 1 - sec) ∧ (logOf t).phase = some .copy ∧ starts t)) ∧
      (l.phase = some .copy → obs.failRow = none → swf flashErased s.flash.mem = true →
        ∃ t, exec (.logAdvancePhaseEnd obs) s = .next t ∧ (logOf t).phase = some .commit ∧ (logOf t).gap = l.gap ∧ starts t ∧
          (obs.uncorr = [] → ∀ i : Fin 16, let v := rowView s (16 * (l.base + 2 + l.source) + i.val)
            let row := 16 * (l.base + 2 + l.gap) + i.val
            v.status = 0 → v.bad = [] → sgetRun flashErased t.flash.mem (256 * row) 256 = v.bytes ∧
              sget (fun _ => 0xFFFF) t.flash.markers row = 0x3C5A)) ∧
      (l.phase = some .copy → obs.failRow ≠ none → ∃ t, exec (.logAdvancePhaseEnd obs) s = .next t ∧ ended t 5 5 ∧ (logOf t).gap = l.gap ∧
          t.core.efl.programFails = sat 255 (s.core.efl.programFails + 1)) ∧
      (l.phase = some .commit → obs.failRow = none → swf flashErased s.flash.mem = true →
        ∃ t, exec (.logAdvancePhaseEnd obs) s = .next t ∧ (logOf t).phase = some .clean ∧ starts t ∧ (logOf t).seq = l.seq + 1 ∧
          (logOf t).gap = (if l.gap = 0 then l.span - 1 else l.gap - 1) ∧
          (l.gap ≠ 0 → (logOf t).start = l.start) ∧ (l.gap = 0 → 2 ≤ l.span → (logOf t).start = (l.start + 1) % (l.span - 1)) ∧
          (∀ x row, (logOf t).recAt = some (x, row) → sgetRun flashErased t.flash.mem (256 * (16 * (l.base + x) + row)) 256 =
            recordBytes (l.seq + 1) (logOf t).gap (logOf t).start)) ∧
      (l.phase = some .commit → obs.failRow ≠ none →
        ∃ t, exec (.logAdvancePhaseEnd obs) s = .next t ∧ ended t 5 5 ∧ (logOf t).gap = l.gap ∧ (logOf t).fails = sat 255 (l.fails + 1)) ∧
      (l.phase = some .clean → obs.eraseFail = false → ∃ t, exec (.logAdvancePhaseEnd obs) s = .next t ∧ blank t (l.base + 2 + l.source) ∧
          (l.swap = false → ended t 2 0) ∧ (l.swap = true → (logOf t).phase = some .cleanPtr ∧ starts t)) ∧
      (l.phase = some .cleanPtr → obs.eraseFail = false → ∃ t, exec (.logAdvancePhaseEnd obs) s = .next t ∧ blank t (l.base + 1 - sec) ∧ ended t 2 0) ∧
      (l.phase = some .clean ∨ l.phase = some .cleanPtr → obs.eraseFail = true → ∃ t, exec (.logAdvancePhaseEnd obs) s = .next t ∧ ended t 5 6))) ∧
  (∀ (s : State) (obs : EflObs), coreUp s = true →
    let l := logOf s
    let due := l.state = 1 ∧ l.span ≠ 0 ∧ bankIdle s (logBank s) = true ∧ heldNvm s = false
    (¬due → exec (.logRecovery obs) s = .next (settle s)) ∧
    let dirty := ∃ i : Fin 16, nth obs.margin i.val 0 ≠ 0 ∨ 0 < rowZeros s (16 * (l.base + 2 + l.gap) + i.val)
    let other := l.recAt.map (fun e => l.base + 1 - e.1)
    let wipe := other.any (fun k => !sectorErased s k) = true
    let blank := fun (t : State) (sector : Nat) => ∀ i : Fin 16, (rowView t (16 * sector + i.val)).status = 1
    (due → ∃ t, exec (.logRecovery obs) s = .next t ∧ (logOf t).recoveries = sat 255 (l.recoveries + 1) ∧ (logOf t).gap = l.gap ∧
      (obs.eraseFail = false ∨ (¬dirty ∧ ¬wipe) → (logOf t).state = 2) ∧
      (obs.eraseFail = true → dirty ∨ wipe → (logOf t).state = 5 ∧ t.core.efl.eraseFails = sat 255 (s.core.efl.eraseFails + 1)) ∧
      (obs.eraseFail = false → dirty → blank t (l.base + 2 + l.gap)) ∧
      (obs.eraseFail = false → wipe → blank t (other.getD 0)) ∧
      (dirty → s.core.irq.length = 4 → bit (nth t.core.irq 0 {}).pend 30 = true)))

/-- O53. A write of 1 to CLEAR by P0 sets the counters of its block to 0 and nothing else. For every write of a
counter-clear register: from a partition other than P0 it is DENIED and changes nothing but the port. From P0 it has
outcome OK; with CLEAR 0 it changes nothing, and with CLEAR 1 the counters that the register names become 0 and
everything else of the block stays. So it is for SEQ, THM, FLW, KEY, EPD, the pixel counters, EFL, and GNG; NFC_CNTCLR
clears NFC_COUNTS and every channel's counts with CLEAR and the namespace warnings with WARNCLR. -/
def Obligations.CounterClearsAreTheStewards : Prop :=
  ∀ (s : State) (p : Part) (seq : Byte) (v : Word), Listens s p →
    let cleared : List (Nat × Instr × (CoreSt → CoreSt)) := [
      (0xC85, .seqCntclr p seq v, fun c => { c with seq := { c.seq with rails := c.seq.rails.map (fun x => { x with nTimeout := 0, nPin := 0, nMon := 0, nRetry := 0 }) } }),
      (0xE05, .thmCntclr p seq v, fun c => { c with thm := { c.thm with sens := c.thm.sens.map (fun q => { q with invCount := 0 }) } }),
      (0x10A3, .flwCntclr p seq v, fun c => { c with flw := { c.flw with drive := c.flw.drive.map (fun d => { d with nStalls := 0 }) } }),
      (0x1203, .keyCntclr p seq v, fun c => { c with key := { c.key with
        emptyFrames := 0, fails := 0, unlocks := 0, encs := c.key.encs.map (fun e => { e with errors := 0 }) } }),
      (0x142E, .epdCntclr p seq v, fun c => { c with epd := { c.epd with
        railFaults := 0, tempRefused := 0, absorbed := 0, discarded := 0, refused := 0, clamped := 0, fallback := 0 } }),
      (0x1458, .epdPixCntclr p seq v, fun c => { c with pix := { c.pix with wfEcc := 0, secdedLost := 0, sats := 0 } }),
      (0x1604, .eflCntclr p seq v, fun c => { c with efl := { c.efl with
        warnRows := 0, uncorrRows := 0, programFails := 0, eraseFails := 0, suspends := 0, tornRows := 0, guardFails := 0 } }),
      (0x2409, .gngCntclr p seq v, fun c => { c with gng := { c.gng with
        steps := 0, jumps := 0, tx := 0, rx := 0, crcErr := 0, arbLoss := 0, losses := 0, busStuck := 0, fwdDrops := 0, dupSeen := 0 } })]
    (∀ e ∈ cleared,
      (p ≠ 0 → exec e.2.1 s = .next (deniedAt s p seq e.1 1)) ∧
      (p = 0 → exec e.2.1 s = .next (framed s p seq e.1 1 0x00 (fun x => if bit v 0 then { x with core := e.2.2 x.core } else x)))) ∧
    (∀ c ∈ [Instr.nfcCntclr p seq v, .warnclr p seq v],
      (p ≠ 0 → exec c s = .next (deniedAt s p seq 0x1804 1)) ∧
      (p = 0 → exec c s = .next (framed s p seq 0x1804 1 0x00 (fun x => nfcAfter (modN x (fun n => { n with
        counts := if bit v 0 then [0, 0, 0, 0] else n.counts
        chans := if bit v 0 then n.chans.map (fun k => { k with faults := 0, fallbacks := 0, resets := 0, timeouts := 0 }) else n.chans
        nsWarn := if bit v 1 then List.replicate 16 0 else n.nsWarn }))))))

/-- O54. A NAND submission is judged in the order of its result codes, and an accepted one holds a slot. Every
submission of a descriptor completes with outcome OK, is counted in SUBMITS, and reports in RESULT the first of: FIELD
(a field or zero byte), ISSUER, RANGE, QUOTA, LINK, SLOT, ACCEPTED; that none is accepted while all 1,024 slots are held
is the model's choice (notes/assumptions/29.md). A submission that is refused holds no slot; one refused for want of a
slot increases SLOT_REFUSED and raises its source. With no course to take up, an accepted one on READY LUNs holds the
lowest free slot with its issuer and descriptor. So it is for READ, PROGRAM, ERASE, COPY, VERIFY, STATUS, RESET_LUN and
RAW. -/
def Obligations.NandSubmissionsAreJudged : Prop :=
  ∀ (s : State) (p : Part) (seq : Byte) (d : Desc), Listens s p → s.core.nfc.wins.length = 4 → d.ws.length = 8 →
    let bs := (d.ws.map (fun w => leBytes 4 w.toNat)).flatten
    let inForce := fun (b : List Byte) => if !descOk b then 2 else if !issuerOk s p.val b then 3 else if !descRange s b then 4
      else if !(granulesUsed b).all (inQuota s p.val) then 5 else if !linkOk s p.val b then 6 else if !slotFree s p.val then 1 else 0
    ∀ c ∈ [Instr.nandRead p seq d, .nandProgram p seq d, .nandErase p seq d, .copy p seq d, .verify p seq d, .status p seq d,
        .resetLun p seq d, .raw p seq d],
      ∃ t, exec c s = .next t ∧ (portOf t p).lastStatus = 0x00 ∧ (portOf t p).lastSeq = seq ∧
        (nth t.core.nfc.wins p.val {}).result = inForce bs ∧
        (nth t.core.nfc.wins p.val {}).submits = ((nth s.core.nfc.wins p.val {}).submits + 1) % 256 ∧
        (nth t.core.nfc.wins p.val {}).subW = (d.ws.take 8).map id ∧
        (inForce bs ≠ 0 → ∀ f ∈ t.core.nfc.flight, (s.core.nfc.flight.map (fun x => x.num)).elem f.num = true) ∧
        (inForce bs = 1 → s.core.part.slotRefused.length = 4 → s.core.irq.length = 4 →
          nth t.core.part.slotRefused p.val 0 = sat 65535 (nth s.core.part.slotRefused p.val 0 + 1) ∧
          bit (nth t.core.irq p.val {}).pend 15 = true) ∧
        (inForce bs = 0 → courseDue s 5 = false → (nth t.core.nfc.wins p.val {}).slot = lowestSlot s ∧
          (lunReady s (d8 bs 5) = true → (d8 bs 0 ≠ 4 ∨ lunReady s (d8 bs 17) = true) →
            (flightOf t (lowestSlot s)).map (fun f => (f.issuer, f.desc)) = some (p, bs)))

/-- O55. A bank that appears starts initialisation, each phase leads to the next, and a fault takes the channel down.
With no NAND work in flight and no course due: the class of a bank follows its voltage; one that appears starts the
Settle phase, one that changes or disappears is a channel fault. A channel fault is counted and reported, returns the
interface to SDR mode 0, and starts initialisation anew where the bank is present. Reset leads to Identify; Identify
with the ONFI signature to Parameter, without it to the next chip enable or the mode phase; Parameter with a good copy
to Check. A mode change that is due makes the channel ready in its effective mode, or in mode 0 with a counted fallback,
and every LUN that passed Check READY. A status poll changes nothing but the cycles sent to busy LUNs (that what it
finds comes with the commands that end a busy time is the model's choice, notes/assumptions/8.md). -/
def Obligations.NandChannelsComeUpAndFault : Prop :=
  ∀ (s : State) (ch : Fin 4), coreUp s = true → s.core.nfc.flight = [] → s.core.nfc.ended = [] → courseDue s 5 = false →
    s.core.nfc.chans.length = 4 → s.core.nfc.luns.length = 16 → s.core.irq.length = 4 → s.core.nfc.counts.length = 4 →
    s.core.nfc.luns.all (fun x => x.cur.isNone && x.nxt.isNone && x.contend == 0) = true →
    let x := chanOf s ch.val
    let faulted := fun (t : State) =>
      (chanOf t ch.val).faults = sat 255 (x.faults + 1) ∧ (chanOf t ch.val).fault = true ∧ (chanOf t ch.val).iface = false ∧
      (chanOf t ch.val).mode = 0 ∧ (chanOf t ch.val).bus = none ∧ nth t.core.nfc.counts 0 0 = sat 255 (nth s.core.nfc.counts 0 0 + 1) ∧
      (∀ q ∈ t.core.irq, bit q.pend 33 = true) ∧
      (chanOf t ch.val).init = (if (chanOf t ch.val).vccq = 0 then .none
        else if (upto 4).any (fun k => lunEn s (4 * ch.val + k)) then .reset else .mode)
    (∀ mv, let k := if 1650 ≤ mv ∧ mv ≤ 1950 then 1 else if 3000 ≤ mv ∧ mv ≤ 3600 then 2 else 0
      ∃ t, exec (.bankClassChange ch mv) s = .next t ∧ (chanOf t ch.val).vccq = k ∧
        (k = x.vccq → t.core.nfc = s.core.nfc) ∧ (k ≠ x.vccq → x.vccq = 0 → (chanOf t ch.val).init = .settle ∧ (chanOf t ch.val).faults = x.faults) ∧
        (k ≠ x.vccq → x.vccq ≠ 0 → faulted t)) ∧
    (∃ t, exec (.channelFault ch) s = .next t ∧ faulted t ∧ (chanOf t ch.val).vccq = x.vccq ∧
      ∀ c : Fin 4, c ≠ ch → chanOf t c.val = chanOf s c.val) ∧
    (∃ t, exec (.statusPoll ch) s = .next t ∧ Keeps [.nfc] (settle s) t ∧ t.core.nfc.luns = s.core.nfc.luns ∧
      t.core.nfc.wins = s.core.nfc.wins ∧ (∀ c : Fin 4, c ≠ ch → chanOf t c.val = chanOf s c.val) ∧
      { chanOf t ch.val with sent := x.sent, sentAt := x.sentAt } = x ∧
      let busy := ((upto 4).map (fun k => 4 * ch.val + k)).filter (fun l => (lunOf s l).resetting)
      (busy.length < 2 → t = settle s) ∧
      (2 ≤ busy.length → x.sentAt ≠ s.freeCtr →
        (chanOf t ch.val).sent = busy.map (fun l => (l % 4 / 2, statusCycles s l)))) ∧
    (∀ obs : InitObs, x.ce < 2 → ∃ t, exec (.channelInitPhaseEnd ch obs) s = .next t ∧
      (x.init = .settle → (chanOf t ch.val).init = (if (nextCe s ch.val 0).isSome then .reset else .mode)) ∧
      (x.init = .reset → (chanOf t ch.val).init = .identify ∧ (chanOf t ch.val).ce = x.ce) ∧
      (x.init = .identify → obs.sig = [0x4F, 0x4E, 0x46, 0x49] → (chanOf t ch.val).init = .parameter ∧ (chanOf t ch.val).sigOk = true ∧
        ∀ l ∈ ceLuns s ch.val x.ce, (lunOf t l).ident = BitVec.ofNat 32 (leNat (obs.ident.take 4))) ∧
      (x.init = .identify → obs.sig ≠ [0x4F, 0x4E, 0x46, 0x49] → (chanOf t ch.val).sigOk = false ∧
        ((chanOf t ch.val).init = .reset ∨ (chanOf t ch.val).init = .mode) ∧
        ∀ l ∈ ceLuns s ch.val x.ce, (lunOf t l).state = (if (lunOf s l).wasReady then 7 else 0)) ∧
      (x.init = .parameter → paramCopy obs.copies = none →
        ∀ l ∈ ceLuns s ch.val x.ce, (lunOf t l).state = (if (lunOf s l).wasReady then 7 else 3)) ∧
      (x.init = .parameter → paramCopy obs.copies ≠ none → (chanOf t ch.val).init = .check ∧
        ∀ l ∈ ceLuns s ch.val x.ce, (lunOf t l).paramOk = true) ∧
      (x.init = .check → ∀ l ∈ ceLuns s ch.val x.ce, (lunOf s l).geomOk = false → (lunOf t l).state = (if (lunOf s l).wasReady then 7 else 4))) ∧
    (∀ ok : Bool, ∃ t, exec (.modeChange ch ok) s = .next t ∧
      (x.modeDue = false → x.init ≠ .mode → t.core.nfc = s.core.nfc) ∧
      (x.modeDue = true ∨ x.init = .mode → chanBusy s ch.val = false →
        (chanOf t ch.val).modeDue = false ∧
        (ok = true → ((chanOf t ch.val).iface, (chanOf t ch.val).mode) = effectiveMode s ch.val ∧ (chanOf t ch.val).fallback = false) ∧
        (ok = false → (chanOf t ch.val).iface = false ∧ (chanOf t ch.val).mode = 0 ∧ (chanOf t ch.val).fallback = true ∧
          (chanOf t ch.val).fallbacks = sat 255 (x.fallbacks + 1)) ∧
        (x.init = .mode → (chanOf t ch.val).init = .ready ∧ (chanOf t ch.val).fault = false ∧
          ∀ k : Fin 4, let l := 4 * ch.val + k.val
            lunPassed s l = true → (lunOf t l).state = 2)))

/-- O56. Busy ends, transfers, time-outs and releases move an operation on its LUN to its record in the ring. With no
course due. A release of an operation that has not reached its last stage, a bus without a transfer and an idle LUN end
nothing; nor does the release of a read whose re-reads are not those that its result takes. A release of a single
operation posts its record into the ring of its issuer, frees its slot and its LUN, and raises the source: ERASE and
PROGRAM, the program phase of a COPY with them, with OK or the failure that the die reports; READ, and a COPY whose read
phase fails, with the status, WARN, SOFT, STEP, count and slots of its read; VERIFY with those of its margin read and
PASS; STATUS with the byte found; RAW with the bytes received, TIMEOUT where a WAIT ran out. A COPY whose read phase
ends OK goes on. A linked group of two posts both records in plane order. The end of a LUN reset leaves the mode
sequence due; that of an array time, the transfer or the last stage; that of a re-read that the ladder has, the transfer
of the slots that still fail, which its operand names (the model's reading, notes/assumptions/16.md). A time-out of a
LUN whose reset runs is a channel fault; one of an array operation or a re-read is counted and resets the LUN; RAW, for
which NFC_TIMEOUT has no field, has none (notes/assumptions/16.md). A pop of k records lowers the count by k. -/
def Obligations.NandOperationsEndOnTheirLun : Prop :=
  ∀ (s : State) (l : Fin 16), coreUp s = true → courseDue s 5 = false → s.core.nfc.chans.length = 4 → s.core.nfc.luns.length = 16 →
    s.core.nfc.wins.length = 4 → s.core.irq.length = 4 → s.core.nfc.counts.length = 4 →
    let x := lunOf s l.val
    let ringed := fun (t : State) (f : Flight) (i n st : Nat) =>
      let w := nth s.core.nfc.wins f.issuer.val {}
      (nth t.core.nfc.wins f.issuer.val {}).count = w.count + n ∧ (nth t.core.nfc.wins f.issuer.val {}).head = (w.head + n) % 256 ∧
      bit (nth t.core.irq f.issuer.val {}).pend 31 = true ∧
      bufBytes t (0x084000 + f.issuer.val * 0x1000 + 16 * (w.head + i)) 16 = recordOfFlight { f with
        status := st, reduced := f.reduced || reduced s, ticks := stamp s % 4294967296 } w.phase
    (∀ obs : NandObs, obs.second = false →
      (x.cur = none ∨ (∀ r, x.cur = some r → r.stage ≠ .last ∧ (r.op ≠ 15 ∨ obs.timeoutAt = none)) → exec (.nandRelease l obs) s = .next (settle (nfcAfter s))) ∧
      (∀ r, x.cur = some r → ∀ num, r.members.head? = some num → r.members.length = 1 → ∀ f, flightOf s num = some f →
        f.num = num → f.early = 0 → f.silent = false → s.core.nfc.ended = [] → s.core.nfc.flight.length = 1 → x.nxt = none →
        (nth s.core.nfc.wins f.issuer.val {}).count < 256 → swf bufReset s.core.buf.mem = true →
        let cfg := nsCfg s (fLun f) (d8 f.desc 4)
        let q := flightRead s f 0 none obs
        let v := flightRead s f 0 (some (fld cfg 19 5)) obs
        let warn := q.status == 0 && (decide (fld cfg 0 9 ≤ q.corr) || q.step != 0 || q.soft)
        let read := { f with
          warn := warn
          soft := q.soft
          step := q.step
          corr := q.corr
          info := slotInfo (d8 f.desc 12) q.slots }
        let moved := fun (es : List RawEntry) => (rawRanges 4 0 es).foldl (fun n e => n + e.2) 0 % 65536
        let done := fun (g : Flight) (st : Nat) => ∃ t, exec (.nandRelease l obs) s = .next t ∧ t.core.nfc.flight = [] ∧
          (lunOf t l.val).cur = none ∧ ringed t g 0 1 st ∧ (g.warn = true → f.warn = false → bit (nth t.core.irq f.issuer.val {}).pend 32 = true)
        (r.stage = .last →
          (r.op = 3 → done f (if nth obs.fail 0 false = true then 7 else 0)) ∧
          (r.op = 2 ∨ (r.op = 4 ∧ r.prog = true) → done f (if nth obs.fail 0 false = true then 6 else 0)) ∧
          (r.op = 6 → done { f with info := obs.status.toNat } 0) ∧
          (r.op = 5 → done { f with
            step := v.step
            corr := v.corr
            info := slotInfo (d8 f.desc 12) v.slots
            pass := v.status == 0 && decide (v.corr < fld cfg 0 9) } v.status) ∧
          (r.op = 1 ∨ (r.op = 4 ∧ r.prog = false) → fLun f = l.val → q.reads ≠ nth r.reads 0 [] →
            exec (.nandRelease l obs) s = .next (settle (nfcAfter s))) ∧
          (r.op = 1 ∨ (r.op = 4 ∧ r.prog = false ∧ q.status ≠ 0) → fLun f = l.val → q.reads = nth r.reads 0 [] → done read q.status) ∧
          (r.op = 4 → r.prog = false → f.st = 3 → fLun f = l.val → q.reads = nth r.reads 0 [] → q.status = 0 →
            ∃ t, exec (.nandRelease l obs) s = .next t ∧ t.core.nfc.wins = s.core.nfc.wins ∧
              ∃ g, flightOf t num = some g ∧ g.readDone = true ∧ g.srcQ = false ∧ g.corr = q.corr ∧ g.step = q.step ∧ g.warn = warn) ∧
          (r.op = 15 → obs.timeoutAt = none → done { f with corr := moved (r.script.take 129) } 0)) ∧
        (r.stage = .array → r.op = 15 → ∀ k, obs.timeoutAt = some k → r.sent = k + 1 → done { f with corr := moved (r.script.take k) } 11)) ∧
      (∀ r, x.cur = some r → r.stage = .last → r.op = 2 ∨ r.op = 3 → ∀ n1, r.members[0]? = some n1 → ∀ n2, r.members[1]? = some n2 →
        r.members.length = 2 → n1 ≠ n2 → ∀ f, flightOf s n1 = some f → ∀ g, flightOf s n2 = some g → f.early = 0 → g.early = 0 →
        f.silent = false → g.silent = false → f.issuer = g.issuer → f.group ≠ 0 → g.group = f.group → f.fresh = false → g.fresh = false →
        planeOf s f.desc < planeOf s g.desc → planeOf s g.desc < 8 → s.core.nfc.ended = [] → s.core.nfc.flight.length = 2 → x.nxt = none →
        (nth s.core.nfc.wins f.issuer.val {}).head < 255 → (nth s.core.nfc.wins f.issuer.val {}).count < 255 → swf bufReset s.core.buf.mem = true →
        let st := fun (m : Nat) => if nth obs.fail m false = true then (if r.op = 3 then 7 else 6) else 0
        ∃ t, exec (.nandRelease l obs) s = .next t ∧ t.core.nfc.flight = [] ∧ (lunOf t l.val).cur = none ∧
          ringed t f 0 2 (st 0) ∧ ringed t g 1 2 (st 1))) ∧
    (x.resetting = true → ∀ re, ∃ t, exec (.lunBusyEnd l re) s = .next t ∧
      (lunOf t l.val).resetting = false ∧ (lunOf t l.val).resetDone = true ∧ (chanOf t (l.val / 4)).modeDue = true) ∧
    (x.resetting = false → x.cur = none → ∀ re, exec (.lunBusyEnd l re) s = .next (settle (nfcAfter s))) ∧
    (x.resetting = false → ∀ r, x.cur = some r → r.stage = .array → r.op = 2 ∨ r.op = 3 → ∃ t, exec (.lunBusyEnd l none) s = .next t ∧
      (lunOf t l.val).cur = some { r with stage := .last }) ∧
    (x.resetting = false → ∀ r, x.cur = some r → r.stage = .array → r.prog = false → r.op = 5 ∨ (r.op = 1 ∧ bit (used s 0x1850) 0 = false) →
      ∃ t, exec (.lunBusyEnd l none) s = .next t ∧
        ((lunOf t l.val).cur = some { r with stage := .waitOut } ∨ (lunOf t l.val).cur = some { r with stage := .xferOut })) ∧
    (x.resetting = false → ∀ r, x.cur = some r → ∀ q : Reread,
      ((canReread s l.val r = false ∨ q.slots = 0 ∨ rereadEntry s l.val r q.member q.kind = none) →
        exec (.lunBusyEnd l (some q)) s = .next (settle (nfcAfter s))) ∧
      (canReread s l.val r = true → q.slots ≠ 0 → ∀ e, rereadEntry s l.val r q.member q.kind = some e →
        ∃ t, exec (.lunBusyEnd l (some q)) s = .next t ∧ (lunOf t l.val).entry = e ∧
          ∃ st, (st = .waitOut ∨ st = .xferOut) ∧ (lunOf t l.val).cur = some { r with stage := st, again := some (q.member, q.slots), steps := if q.kind = .step then upd r.steps q.member (fun k => k + 1) else r.steps, reads := upd r.reads q.member (fun m => m ++ [(q.kind, q.slots)]) })) ∧
    (∀ ch : Fin 4, (chanOf s ch.val).bus = none → exec (.busTransferEnd ch) s = .next (settle (nfcAfter s))) ∧
    (∀ ch k : Fin 4, (chanOf s ch.val).bus = some k.val → ∀ r, (lunOf s (4 * ch.val + k.val)).cur = some r →
      r.op ≠ 15 → (r.stage = .xferOut → ∃ t, exec (.busTransferEnd ch) s = .next t ∧
        (lunOf t (4 * ch.val + k.val)).cur = some { r with stage := .last, again := none }) ∧
      (r.stage = .xferIn → bit (used s 0x1850) 1 = false → ∃ t, exec (.busTransferEnd ch) s = .next t ∧
        (lunOf t (4 * ch.val + k.val)).cur = some { r with stage := .array, again := none })) ∧
    (x.resetting = true → (∃ t, exec (.lunTimeout l) s = .next t ∧ (chanOf t (l.val / 4)).fault = true ∧
      nth t.core.nfc.counts 0 0 = sat 255 (nth s.core.nfc.counts 0 0 + 1))) ∧
    (x.resetting = false → ∀ r, x.cur = some r → r.op ≠ 15 → r.stage = .array ∨ canReread s l.val r = true → r.members ≠ [] → ∃ t, exec (.lunTimeout l) s = .next t ∧
      nth t.core.nfc.counts 2 0 = sat 255 (nth s.core.nfc.counts 2 0 + 1) ∧ (chanOf t (l.val / 4)).timeouts = sat 255 ((chanOf s (l.val / 4)).timeouts + 1) ∧
      (lunOf t l.val).resetting = true) ∧
    (x.resetting = false → x.nxt = none → x.cur = none ∨ (∀ r, x.cur = some r → r.op = 15) →
      exec (.lunTimeout l) s = .next (settle (nfcAfter s))) ∧
    (∀ (p : Part) (seq : Byte) (v : Word), Listens s p → s.core.nfc.ended = [] → s.core.nfc.flight = [] →
      ∃ t, exec (.nfcRingPop p seq v) s = .next t ∧ (portOf t p).lastStatus = 0x00 ∧
        (nth t.core.nfc.wins p.val {}) = { nth s.core.nfc.wins p.val {} with count := (nth s.core.nfc.wins p.val {}).count - fld v 0 9 })

/-- O57. Each command of a check-value unit acts in the states that admit it and is MASKED in the others. A frame that
writes a unit from a partition that does not own it is DENIED and changes nothing but its port. From the owner: START
opens a calculation from INIT with the fold word where FOLD is 1, unless the unit runs or its parity failed; FEED takes
the bytes of its words, least significant first, in an OPEN unit; GO starts a run in an OPEN unit, or reports RANGE;
ABORT abandons a calculation in progress with code ABORTED; CLEAR sets both counts to 0; REARM sets FIRST. What does not
act is MASKED and changes nothing but the port. That ABORT leaves CODE as it is where no calculation is in progress is
the model's reading (notes/assumptions/17.md). -/
def Obligations.CheckUnitCommandsActOrAreMasked : Prop :=
  ∀ (s : State) (p : Part) (seq : Byte) (u : Fin 4), Listens s p →
    let q := cvuOf s u.val
    let a := cvuA u.val 0
    let cfg := rd s (cvuA u.val 3)
    let poly := fld cfg 0 2
    let init := (rd s (cvuA u.val 4)).toNat % 2 ^ cvuWidth poly
    let owns := p.val = ownerN s (.cvu u.val)
    let masked := Host.Outcome.next (φ := Fault) (ρ := Refusal) (framed s p seq a 1 0x01 id)
    let ok := fun (f : CvuUnit → CvuUnit) => Host.Outcome.next (φ := Fault) (ρ := Refusal)
      (framed s p seq a 1 0x00 (fun x => { x with core := { x.core with cvu := upd x.core.cvu u.val f } }))
    (¬owns → (∀ c ∈ [Instr.cvuStart p seq u, .cvuGo p seq u, .cvuFinish p seq u, .cvuAbort p seq u, .cvuClear p seq u, .cvuRearm p seq u],
        exec c s = .next (deniedAt s p seq a 1)) ∧
      ∀ w0 w1 : Word, exec (.cvuFeed p seq u [w0]) s = .next (deniedAt s p seq (a + 1) 1) ∧
        exec (.cvuFeed p seq u [w0, w1]) s = .next (deniedAt s p seq (a + 1) 2)) ∧
    (owns →
      (exec (.cvuStart p seq u) s = if q.st = 2 ∨ q.parity = true then masked else ok (fun q => { q with
        st := 1
        acc := (if bit cfg 4 then leBytes 4 (rd s (cvuA u.val 5)).toNat else []).foldl (cvuByte poly) init
        bytes := 0, ctr := none, finishAfter := false })) ∧
      (∀ w0 w1 : Word,
        let bs := leBytes 4 w0.toNat ++ leBytes 4 w1.toNat
        (q.st ≠ 1 → exec (.cvuFeed p seq u [w0]) s = .next (framed s p seq (a + 1) 1 0x01 id) ∧
          exec (.cvuFeed p seq u [w0, w1]) s = .next (framed s p seq (a + 1) 2 0x01 id)) ∧
        (q.st = 1 → ∃ t, exec (.cvuFeed p seq u [w0, w1]) s = .next t ∧ (cvuOf t u.val).acc = bs.foldl (cvuByte poly) q.acc ∧
          (cvuOf t u.val).bytes = q.bytes + 8 ∧ (cvuOf t u.val).st = 1 ∧
          (cvuOf t u.val).ctr = (let pos := fld cfg 8 8
            if q.bytes ≤ pos ∧ pos < q.bytes + 8 then bs[pos - q.bytes]? else q.ctr) ∧
          (portOf t p).lastStatus = 0x00 ∧ Keeps [.cvu, .ports, .irqRound, .irqPend, .capo, .gng, .doze] s t) ∧
        (q.st = 1 → ∃ t, exec (.cvuFeed p seq u [w0]) s = .next t ∧ (cvuOf t u.val).acc = (leBytes 4 w0.toNat).foldl (cvuByte poly) q.acc ∧
          (cvuOf t u.val).bytes = q.bytes + 4 ∧ (portOf t p).lastStatus = 0x00)) ∧
      (q.st ≠ 1 ∨ q.parity = true → exec (.cvuGo p seq u) s = masked) ∧
      (q.st = 1 → q.parity = false →
        let b := fld (rd s (cvuA u.val 7)) 0 24
        let n := fld (rd s (cvuA u.val 8)) 0 18 + 1
        (cvuRangeOk s u.val b n = true → exec (.cvuGo p seq u) s = ok (fun q => { q with st := 2, runAddr := b, runLen := n, finishAfter := false })) ∧
        (cvuRangeOk s u.val b n = false → s.core.irq.length = 4 → ∃ t, exec (.cvuGo p seq u) s = .next t ∧ cvuOf t u.val = { q with code := 6 } ∧
          (portOf t p).lastStatus = 0x00 ∧ bit (nth t.core.irq p.val {}).pend 35 = true)) ∧
      (exec (.cvuAbort p seq u) s = ok (fun q => if q.st = 1 ∨ q.st = 2 then { q with st := 0, acc := init, code := 9, finishAfter := false } else q)) ∧
      (exec (.cvuClear p seq u) s = ok (fun q => { q with mismatches := 0, finishes := 0 })) ∧
      (exec (.cvuRearm p seq u) s = ok (fun q => { q with first := true })))

/-- O58. FINISH forms the result and judges it; a buffer run feeds the bytes of its range or stops with a code. FINISH
in an OPEN unit completes: the unit is DONE, RESULT is the accumulator with the final XOR (its bits above the width 0
where those of the accumulator are), FINISHES grows by one, and CODE is SHORT or ALIVE where the alive counter fails,
else MISMATCH where the comparison is on and differs, MATCH where it is on and agrees, and COMPUTED where it is off. A
failure raises CVU_MISMATCH in the owner and in P0, is counted and sets its flag; CVU_DONE is raised. In every other
state FINISH is MASKED. A run end without a run changes nothing. The end of a run over granules of the owner's quota
feeds their bytes, zero where unwritten, and leaves the unit OPEN, or DONE where FINISH came with GO; one whose granule
left the quota is abandoned with DENIED, and one that meets an uncorrectable word with BUFFER_ECC; UNWRITTEN tells of an
unwritten granule read, the one of that word with them. A run over the setup flash waits while a bank it reads is
written, feeds the bytes read otherwise, and is abandoned with UNCORRECTABLE where a word of them is. A finish at a
run's end forms RESULT, CODE, the flags and the counts as FINISH does. -/
def Obligations.CheckUnitsFinishAndRun : Prop :=
  ∀ (s : State) (u : Fin 4), coreUp s = true → s.core.irq.length = 4 → s.core.cvu.length = 4 → ownerN s (.cvu u.val) < 4 →
    let q := cvuOf s u.val
    let o := ownerN s (.cvu u.val)
    let cfg := rd s (cvuA u.val 3)
    let poly := fld cfg 0 2
    let byte := fun (b : Byte) => if bit cfg 16 then b.toNat / 16 else b.toNat % 16
    let alive := fun (ctr : Option Byte) => if bit cfg 6 then (match ctr with
      | none => 5
      | some b => if q.first = true ∨ byte b = (q.lastCtr + 1) % 16 then 0 else 4) else 0
    let finished := fun (t : State) (acc : Nat) (ctr : Option Byte) =>
      let res := acc ^^^ (if poly = 0 then 0xFF else if poly = 1 then 0 else 0xFFFFFFFF)
      let differs := bit cfg 7 = true ∧ (rd s (cvuA u.val 6)).toNat % 2 ^ cvuWidth poly ≠ res
      (cvuOf t u.val).st = 3 ∧ (cvuOf t u.val).result = BitVec.ofNat 32 res ∧
      (acc < 2 ^ cvuWidth poly → (cvuOf t u.val).result.toNat < 2 ^ cvuWidth poly) ∧ (cvuOf t u.val).finishes = (q.finishes + 1) % 256 ∧
      (cvuOf t u.val).code = (if alive ctr ≠ 0 then alive ctr else if differs then 2 else if bit cfg 7 then 1 else 3) ∧
      (differs → (cvuOf t u.val).mismatch = true) ∧ (alive ctr ≠ 0 → (cvuOf t u.val).aliveErr = true) ∧
      (alive ctr ≠ 0 ∨ differs → (cvuOf t u.val).mismatches = sat 255 (q.mismatches + 1) ∧
        bit (nth t.core.irq 0 {}).pend 34 = true ∧ bit (nth t.core.irq o {}).pend 34 = true) ∧
      (alive ctr = 0 → ¬differs → (cvuOf t u.val).mismatches = q.mismatches ∧ (cvuOf t u.val).mismatch = q.mismatch) ∧
      bit (nth t.core.irq o {}).pend 35 = true ∧
      (swf regReset s.core.regs = true → rd t (cvuA u.val 5) = (if bit cfg 5 then rd s (cvuA u.val 5) + 1 else rd s (cvuA u.val 5)))
    let fed := fun (t : State) (bs : List Byte) =>
      let pos := fld cfg 8 8
      (cvuOf t u.val).bytes = q.bytes + bs.length ∧ bit (nth t.core.irq o {}).pend 35 = true ∧
      (q.finishAfter = true → finished t (bs.foldl (cvuByte poly) q.acc) (if q.bytes ≤ pos ∧ pos < q.bytes + bs.length then bs[pos - q.bytes]? else q.ctr)) ∧
      (q.finishAfter = false → (cvuOf t u.val).st = 1 ∧ (cvuOf t u.val).acc = bs.foldl (cvuByte poly) q.acc)
    (∀ (p : Part) (seq : Byte), Listens s p → p.val = o →
      (q.st ≠ 1 → exec (.cvuFinish p seq u) s = .next (framed s p seq (cvuA u.val 0) 1 0x01 id)) ∧
      (q.st = 1 → ∃ t, exec (.cvuFinish p seq u) s = .next t ∧ (portOf t p).lastStatus = 0x00 ∧ finished t q.acc q.ctr)) ∧
    (q.st ≠ 2 → exec (.cvuRunEnd u) s = .next (settle s)) ∧
    (q.st = 2 → q.runAddr < 0x40000 →
      let gs := granulesOf q.runAddr q.runLen
      let inq := gs.all (inQuota s o) = true
      let un := fun (g : Nat) => !bit s.core.buf.written g
      let stopped := fun (t : State) (code : Nat) (met : List Nat) => (cvuOf t u.val).st = 0 ∧ (cvuOf t u.val).code = code ∧
        (cvuOf t u.val).unwritten = (q.unwritten || met.any un) ∧ (cvuOf t u.val).result = q.result ∧ bit (nth t.core.irq o {}).pend 35 = true
      let sound := fun (g : Nat) =>
        !bufBad s (nmax q.runAddr (512 * g)) (nmin (q.runAddr + q.runLen) (512 * g + 512) - nmax q.runAddr (512 * g))
      (inq → s.core.buf.bad = [] → ∃ t, exec (.cvuRunEnd u) s = .next t ∧
        fed t ((upto q.runLen).map (fun i => if bit s.core.buf.written ((q.runAddr + i) / 512) then bufByte s (q.runAddr + i) else 0)) ∧
        (cvuOf t u.val).unwritten = (q.unwritten || gs.any un) ∧ { t.core.buf with corrected := s.core.buf.corrected } = s.core.buf) ∧
      (inq → bufBad s q.runAddr q.runLen = true →
        ∃ t, exec (.cvuRunEnd u) s = .next t ∧ stopped t 7 (gs.take ((gs.takeWhile sound).length + 1))) ∧
      (¬inq → s.core.buf.bad = [] → ∃ t, exec (.cvuRunEnd u) s = .next t ∧ stopped t 6 (gs.takeWhile (inQuota s o)))) ∧
    (q.st = 2 → 0x200000 ≤ q.runAddr →
      let waits := (q.runAddr < 0x300000 ∧ bankWrites s 0 = true) ∨ (0x300000 < q.runAddr + q.runLen ∧ bankWrites s 1 = true)
      let r := flashRead s true (q.runAddr - 0x200000) q.runLen
      (waits → exec (.cvuRunEnd u) s = .next (settle s)) ∧
      (¬waits → r.2 = true → ∃ t, exec (.cvuRunEnd u) s = .next t ∧ (cvuOf t u.val).st = 0 ∧ (cvuOf t u.val).code = 8 ∧
        (cvuOf t u.val).result = q.result ∧ bit (nth t.core.irq o {}).pend 35 = true) ∧
      (¬waits → r.2 = false → ∃ t, exec (.cvuRunEnd u) s = .next t ∧ fed t r.1))

/-- O59. What a gang frame that is received does: votes, power-goods, time, membership, forwarded events and capos.
While the link is disabled no frame changes anything; while it is enabled the end of each, a dropped one included, is a
frame boundary, at which the forwarded key events pass to GNG, up to 16, and after which the bus is idle (the model's
reading, notes/assumptions/18.md). While it is enabled every correct frame counts in RX; one with a SRC updates the SEEN
of its sender, or is a duplicate where SRC is the own ID; and a frame acts further only where its DEST names this
member. STATE and RPG of a PRESENT member record its vote and power-good. TIME of the keystone steps the timebase by the
difference when it exceeds 4 ticks. HELLO makes a member of MEMBERS PRESENT, or INCOMPATIBLE where device, format or
members differ. KEYFWD posts one event to the owner of the group. CAPO triggers a capo while GANG_EN is 1. A dropped
frame counts in CRC_ERR. -/
def Obligations.GangFramesReceivedAreActedOn : Prop :=
  ∀ s : State, coreUp s = true → s.core.gng.mems.length = 4 → courseDue s 7 = false → (gngEn s = false → s.core.gng.busy = false) →
    let self := selfId s
    let g := s.core.gng
    (gngEn s = false →
      (∀ (dest : BitVec 4) (src : Fin 4) (a b c d e : Byte) (w : Word) (tk : BitVec 48) (k : Nat),
        ∀ i ∈ [Instr.gangCapo dest, .gangState dest src a b c, .gangRpg dest src a, .gangTime dest src tk k,
            .gangHello dest src a b c d w, .keyfwd dest src a b c d tk, .gangFrameDropped, .busStuck, .statePeriod, .helloPeriod, .timePeriod],
          exec i s = .next (settle s))) ∧
    (gngEn s = true →
      (∃ t, exec .gangFrameDropped s = .next t ∧ t.core.gng.crcErr = sat 255 (g.crcErr + 1) ∧ t.core.gng.rx = g.rx ∧ t.core.gng.mems = g.mems ∧
        t.core.gng.busy = false ∧ t.core.key.fwdDue = [] ∧ (g.fwd.length ≤ 16 → t.core.gng.fwd = (g.fwd ++ s.core.key.fwdDue).take 16)) ∧
      (∀ (dest : BitVec 4) (src : Fin 4) (a b c d e : Byte) (w : Word) (tk : BitVec 48) (k : Nat),
        ∀ i ∈ [Instr.gangState dest src a b c, .gangRpg dest src a, .gangTime dest src tk k, .gangHello dest src a b c d w,
            .keyfwd dest src a b c d tk, .gangCapo dest],
          ∃ t, exec i s = .next t ∧ t.core.gng.rx = (g.rx + 1) % 65536 ∧ t.core.gng.crcErr = g.crcErr ∧ t.core.gng.busy = false ∧
            t.core.key.fwdDue = [] ∧ (g.fwd.length ≤ 16 → t.core.gng.fwd = (g.fwd ++ s.core.key.fwdDue).take 16) ∧
            (i ≠ .gangCapo dest → src.val ≠ self → (nth t.core.gng.mems src.val {}).seen = BitVec.ofNat 32 (stamp s)) ∧
            (i ≠ .gangCapo dest → src.val = self → t.core.gng.dup = some (now s) ∧ t.core.gng.dupSeen = sat 255 (g.dupSeen + 1) ∧
              t.core.gng.mmField = 5 ∧ (g.dup = none → ∀ q ∈ t.core.irq, bit q.pend 37 = true))) ∧
      (∀ (dest : BitVec 4) (src : Fin 4) (num vote flags : Byte), src.val ≠ self → memStatus s src.val = 1 →
        ∃ t, exec (.gangState dest src num vote flags) s = .next t ∧
          let m := nth t.core.gng.mems src.val {}
          let old := nth g.mems src.val {}
          m.status = 1 ∧
          (bit dest self = true → m.rpg = bit flags 0 ∧ m.stateAt = some (now s) ∧ (vote.toNat = 2 ∨ vote.toNat = 3 ∨ vote.toNat = 4 → m.vote = vote.toNat)) ∧
          (bit dest self = false → m.rpg = old.rpg ∧ m.vote = old.vote ∧ m.stateAt = old.stateAt)) ∧
      (∀ (dest : BitVec 4) (src : Fin 4) (rpg : Byte), src.val ≠ self → memStatus s src.val = 1 →
        ∃ t, exec (.gangRpg dest src rpg) s = .next t ∧
          (nth t.core.gng.mems src.val {}).rpg = (if bit dest self then decide (rpg = 1) else (nth g.mems src.val {}).rpg) ∧ t.core.gng.state = g.state) ∧
      (∀ (dest : BitVec 4) (src : Fin 4) (ticks : BitVec 48) (since : Nat), src.val ≠ self →
        let d : Int := (ticks.toNat : Int) - ((stamp s : Int) - (since : Int))
        ∃ t, exec (.gangTime dest src ticks since) s = .next t ∧
          (bit dest self = false ∨ memStatus s src.val ≠ 1 ∨ g.keystone ≠ some src.val ∨ d.natAbs ≤ 4 → t.aon = s.aon ∧ t.core.gng.steps = g.steps) ∧
          (bit dest self = true → memStatus s src.val = 1 → g.keystone = some src.val → 4 < d.natAbs →
            t.aon.tbase = BitVec.ofInt 48 ((s.aon.tbase.toNat : Int) + d) ∧ t.aon.osc = s.aon.osc ∧ t.core.gng.steps = sat 65535 (g.steps + 1) ∧
            t.core.gng.jumps = (if 32768 < d.natAbs then sat 255 (g.jumps + 1) else g.jumps) ∧
            (32768 < d.natAbs → ∀ q ∈ t.core.irq, bit q.pend 38 = true))) ∧
      (∀ (dest : BitVec 4) (src : Fin 4) (devHi devLo format members : Byte) (digest : Word), src.val ≠ self → bit dest self = true →
        ∃ t, exec (.gangHello dest src devHi devLo format members digest) s = .next t ∧
          let bad := devHi ≠ 0x09 ∨ devLo ≠ 0xB1 ∨ format ≠ g.format ∨ members.toNat ≠ gngMembers s
          (nth t.core.gng.mems src.val {}).digest = digest ∧
          memStatus t src.val = (if (gngMembers s).testBit src.val then (if bad then 3 else 1) else (nth g.mems src.val {}).status) ∧
          (bad ∨ digest ≠ g.digest → t.core.gng.mmMember = src.val ∧ t.core.gng.mmField =
            (if devHi ≠ 0x09 ∨ devLo ≠ 0xB1 then 1 else if format ≠ g.format then 2 else if members.toNat ≠ gngMembers s then 3 else 4)) ∧
          (memStatus s src.val ≠ 1 → t.core.gng.pendHello = true ∧ t.core.gng.owed = true)) ∧
      (∀ (dest : BitVec 4) (src : Fin 4) (group typ subject flags : Byte) (tk : BitVec 48), src.val ≠ self → bit dest self = true →
        memStatus s src.val = 1 → group.toNat < 8 →
        exec (.keyfwd dest src group typ subject flags tk) s = .next (settle (gangPass (fifoPost (gangHeard s (some src.val)) (ownerN s (.key group.toNat))
          typ.toNat subject.toNat (flags.toNat ||| 0x40) src.val tk.toNat 0)))) ∧
      (∀ dest : BitVec 4, ∃ t, exec (.gangCapo dest) s = .next t ∧
        (s.core.capo.trig = 0 → bit dest self = true → bit (used s 0x53) 6 = true → s.core.capo.held = false → t.core.capo.seq = s.core.capo.seq + 1) ∧
        (s.core.capo.trig = 0 → bit dest self = false ∨ bit (used s 0x53) 6 = false → t.core.capo = s.core.capo)))

/-- O60. Periods make frames pending, a frame that wins is sent and counted, votes are written, members are lost. While
the link is enabled the STATE and HELLO periods, and on the keystone the TIME period, make their frame pending. With
nothing pending, or while another member's frame is on the bus, nothing is sent; a frame that loses arbitration stays
pending, is counted, and leaves the winner's frame on the bus; one that wins ends at a frame boundary and is counted in
TX. Each is sent whole, with its CRC: CAPO first (1F 00 0E 42), then an owed HELLO, and below it STATE, RPG, TIME, HELLO
and KEYFWD in that order (the order below an owed HELLO, and the idle bus after a frame, are the model's choices,
notes/assumptions/18.md). P0 writes HOLD, RUN or SAFE as the vote; any other value is MASKED and kept; other partitions
are DENIED. A PRESENT member that is lost is LOST and counted. A duplicate clears. A stuck line is counted. Once its own
HELLO has been sent this member is PRESENT to itself, which raises GNG_MEMBER the first time (the model's reading,
notes/assumptions/18.md). -/
def Obligations.GangFramesSentAndMembersLost : Prop :=
  ∀ s : State, coreUp s = true → s.core.gng.mems.length = 4 → courseDue s 7 = false → Settled s →
    let g := s.core.gng
    let fwd := if gngEn s then (s.core.key.fwdDue.foldl fwdTake g) else g
    let self := BitVec.ofNat 8 (selfId s)
    let frame := fun (typ dest : Nat) (payload : List Byte) =>
      let body := BitVec.ofNat 8 (16 * typ + dest) :: BitVec.ofNat 8 payload.length :: payload
      body ++ (leBytes 2 (crc16 body)).reverse
    let hello := frame 5 15 ([self, 0x09, 0xB1, g.format, BitVec.ofNat 8 (gngMembers s)] ++ (leBytes 4 g.digest.toNat).reverse)
    (gngEn s = true →
      (∃ t, exec .statePeriod s = .next t ∧ t.core.gng = { g with pendState := true }) ∧
      (∃ t, exec .helloPeriod s = .next t ∧ t.core.gng = { g with pendHello := true }) ∧
      (∃ t, exec .timePeriod s = .next t ∧ t.core.gng = { g with pendTime := g.pendTime || g.keystone == some (selfId s) }) ∧
      (∃ t, exec .busStuck s = .next t ∧ t.core.gng = { g with busStuck := sat 255 (g.busStuck + 1) }) ∧
      (gangNext s ≠ none → g.busy = false → ∃ t, exec (.gangFrameTransmit false) s = .next t ∧
        t.core.gng = { g with arbLoss := sat 255 (g.arbLoss + 1), busy := true }) ∧
      (g.busy = false → gangNext s ≠ none → ∃ t, exec (.gangFrameTransmit true) s = .next t ∧
        (g.pendCapo = true → t.core.gng = { fwd with pendCapo := false, tx := (g.tx + 1) % 65536, sent := [0x1F, 0x00, 0x0E, 0x42] }) ∧
        t.core.gng.busy = false ∧ t.core.key.fwdDue = [] ∧ t.core.gng.tx = (g.tx + 1) % 65536 ∧
        (g.pendCapo = false → g.owed = true ∨ (g.pendState = false ∧ g.pendRpg = false ∧ (g.pendTime = false ∨ g.keystone ≠ some (selfId s)) ∧
            g.pendHello = true) →
          t.core.gng.owed = false ∧ t.core.gng.pendHello = false ∧ t.core.gng.sent = hello ∧
          memStatus t (selfId s) = (if g.dup.isSome then 3 else 1) ∧ (g.selfOn = false → g.dup = none → ∀ q ∈ t.core.irq, bit q.pend 37 = true)) ∧
        (g.pendCapo = false → g.owed = false → g.pendState = true → t.core.gng.seq = g.seq + 1 ∧
          t.core.gng.sent = frame 2 15 [self, g.seq, BitVec.ofNat 8 (effVote s), BitVec.ofNat 8 (b2n s.core.seq.rpgOut + 2 * b2n (voteForced s))]) ∧
        (g.pendCapo = false → g.owed = false → g.pendState = false → g.pendRpg = true → t.core.gng.pendRpg = false ∧
          t.core.gng.sent = frame 3 15 [self, BitVec.ofNat 8 (b2n s.core.seq.rpgOut)]) ∧
        (g.pendCapo = false → g.owed = false → g.pendState = false → g.pendRpg = false → g.pendTime = true → g.keystone = some (selfId s) → t.core.gng.pendTime = false ∧
          t.core.gng.sent = frame 4 15 (self :: (leBytes 6 (stamp s)).reverse)) ∧
        (gangNext s = some 6 → ∀ e, g.fwd.head? = some e →
          t.core.gng.sent = frame 6 (uf s 0x2400 16 4) ([self, BitVec.ofNat 8 e.1, BitVec.ofNat 8 e.2.1, BitVec.ofNat 8 e.2.2.1,
            BitVec.ofNat 8 e.2.2.2.1] ++ (leBytes 6 e.2.2.2.2).reverse) ∧ (s.core.key.fwdDue = [] → t.core.gng.fwd = g.fwd.drop 1))) ∧
      (∀ m : Fin 4, m.val ≠ selfId s → memStatus s m.val = 1 → ∃ t, exec (.memberLoss m) s = .next t ∧ memStatus t m.val = 2 ∧
        t.core.gng.losses = sat 255 (g.losses + 1) ∧ (∀ q ∈ t.core.irq, bit q.pend 37 = true) ∧
        ((gngMembers s).testBit m.val = true → t.core.gng.state ≠ 3))) ∧
    (gngEn s = false ∨ gangNext s = none ∨ g.busy = true → ∀ wins : Bool, exec (.gangFrameTransmit wins) s = .next (settle s)) ∧
    (∀ m : Fin 4, gngEn s = false ∨ m.val = selfId s ∨ memStatus s m.val ≠ 1 → exec (.memberLoss m) s = .next (settle s)) ∧
    (g.dup = none → exec .duplicateClear s = .next (settle s)) ∧
    (g.dup ≠ none → ∃ t, exec .duplicateClear s = .next t ∧ t.core.gng.dup = none ∧ (g.mmField = 5 → t.core.gng.mmField = 0)) ∧
    (∀ (p : Part) (seq : Byte) (v : Word), Listens s p →
      (p ≠ 0 → exec (.gngVoteWrite p seq v) s = .next (deniedAt s p seq 0x2401 1)) ∧
      (p = 0 → swf regReset s.core.regs = true →
        ∃ t, exec (.gngVoteWrite p seq v) s = .next t ∧
          (fld v 0 3 = 2 ∨ fld v 0 3 = 3 ∨ fld v 0 3 = 4 → ownVote t = fld v 0 3 ∧ (portOf t p).lastStatus = 0x00) ∧
          (fld v 0 3 ≠ 2 → fld v 0 3 ≠ 3 → fld v 0 3 ≠ 4 → rd t 0x2401 = rd s 0x2401 ∧ (portOf t p).lastStatus = 0x01 ∧
            (badW s 0x2401 = false → ownVote t = ownVote s ∧ t.core.gng = g))))
end

