-- ==== Sys2Proof/Laws/Lists.lean ====
section
/-! SUPPORT. Reading what was written, in lists of like parts and in sparse stores, and the canonical form of a store. -/

namespace Sys2Proof.Machine

variable {α : Type}

/-- Changing an element keeps the length. -/
@[simp] theorem length_upd (l : List α) (i : Nat) (f : α → α) : (upd l i f).length = l.length := by
  induction l generalizing i with
  | nil => rfl
  | cons a l ih => cases i <;> simp [upd, ih]

/-- The changed element, where it exists. -/
theorem nth_upd_same (l : List α) (i : Nat) (f : α → α) (d : α) (h : i < l.length) : nth (upd l i f) i d = f (nth l i d) := by
  induction l generalizing i with
  | nil => simp at h
  | cons a l ih =>
    cases i with
    | zero => rfl
    | succ i => exact ih i (by simpa using h)

/-- Every other element is as it was. -/
theorem nth_upd_ne (l : List α) (i j : Nat) (f : α → α) (d : α) (h : j ≠ i) : nth (upd l i f) j d = nth l j d := by
  induction l generalizing i j with
  | nil => rfl
  | cons a l ih =>
    cases i with
    | zero => cases j with
      | zero => exact absurd rfl h
      | succ j => rfl
    | succ i => cases j with
      | zero => rfl
      | succ j => exact ih i j (by omega)

/-- A change that leaves a projection leaves the list of projections. -/
theorem map_upd_eq {β : Type} (l : List α) (i : Nat) (f : α → α) (g : α → β) (h : ∀ a, g (f a) = g a) :
    (upd l i f).map g = l.map g := by
  induction l generalizing i with
  | nil => rfl
  | cons a l ih => cases i <;> simp [upd, ih, h]

section Store

variable [DecidableEq α] (d : Nat → α)

/-- A read of the key that was written gives the value. -/
theorem sget_sset_same (m : List (Nat × α)) (k : Nat) (v : α) (lo : Nat) (hm : swfFrom d lo m = true) :
    sget d (sset d m k v) k = v := by
  have unlisted : ∀ (m : List (Nat × α)) (lo : Nat), swfFrom d lo m = true → k < lo → sget d m k = d k := by
    intro m
    induction m with
    | nil => intros; rfl
    | cons e m ih =>
      intro lo h hk
      obtain ⟨a, w⟩ := e
      simp only [swfFrom, Bool.and_eq_true, decide_eq_true_eq] at h
      have : a ≠ k := by omega
      simp only [sget, this, if_false]
      exact ih (a + 1) h.2 (by omega)
  induction m generalizing lo with
  | nil => by_cases h : v = d k <;> simp [sset, sget, h]
  | cons e m ih =>
    obtain ⟨a, w⟩ := e
    simp only [swfFrom, Bool.and_eq_true, decide_eq_true_eq] at hm
    unfold sset
    by_cases h1 : k < a
    · simp only [h1, if_true]
      have ha : a ≠ k := by omega
      by_cases h2 : v = d k
      · simp only [h2, if_true, sget, ha, if_false]
        exact unlisted m (a + 1) hm.2 (by omega)
      · simp [h2, sget]
    · simp only [h1, if_false]
      by_cases h3 : k = a
      · simp only [h3, if_true]
        by_cases h2 : v = d a
        · simp only [h2, if_true]
          subst h3
          exact unlisted m (k + 1) hm.2 (by omega)
        · simp [h2, sget]
      · have : a ≠ k := fun x => h3 x.symm
        simp only [h3, if_false, sget, this]
        exact ih (a + 1) hm.2

/-- A read of another key gives what it gave. -/
theorem sget_sset_ne (m : List (Nat × α)) (k j : Nat) (v : α) (h : j ≠ k) : sget d (sset d m k v) j = sget d m j := by
  induction m with
  | nil => by_cases h2 : v = d k <;> simp [sset, sget, h2, h.symm]
  | cons e m ih =>
    obtain ⟨a, w⟩ := e
    unfold sset
    by_cases h1 : k < a
    · by_cases h2 : v = d k <;> simp [h1, h2, sget, h.symm]
    · by_cases h3 : k = a
      · subst h3
        by_cases h2 : v = d k <;> simp [h2, sget, h.symm]
      · simp [h1, h3, sget, ih]

/-- A write keeps the canonical form. -/
theorem swfFrom_sset (m : List (Nat × α)) (k : Nat) (v : α) (lo : Nat) (hl : lo ≤ k) (hm : swfFrom d lo m = true) :
    swfFrom d lo (sset d m k v) = true := by
  have weaken : ∀ (m : List (Nat × α)) (a b : Nat), b ≤ a → swfFrom d a m = true → swfFrom d b m = true := by
    intro m a b h hw
    cases m with
    | nil => rfl
    | cons e m =>
      simp only [swfFrom, Bool.and_eq_true, decide_eq_true_eq] at *
      exact ⟨⟨by omega, hw.1.2⟩, hw.2⟩
  induction m generalizing lo with
  | nil => by_cases h : v = d k <;> simp [sset, swfFrom, h, hl]
  | cons e m ih =>
    obtain ⟨a, w⟩ := e
    have hm' := hm
    simp only [swfFrom, Bool.and_eq_true, decide_eq_true_eq] at hm
    unfold sset
    by_cases h1 : k < a
    · by_cases h2 : v = d k
      · simp only [h1, h2, if_true]; exact hm'
      · simp only [h1, h2, if_true, if_false, swfFrom, Bool.and_eq_true, decide_eq_true_eq]
        exact ⟨⟨hl, h2⟩, ⟨by omega, hm.1.2⟩, hm.2⟩
    · by_cases h3 : k = a
      · subst h3
        simp only [h1, if_false, if_true]
        by_cases h2 : v = d k
        · simp only [h2, if_true]
          exact weaken m (k + 1) lo (by omega) hm.2
        · simp only [h2, if_false, swfFrom, Bool.and_eq_true, decide_eq_true_eq]
          exact ⟨⟨hl, h2⟩, hm.2⟩
      · simp only [h1, h3, if_false, swfFrom, Bool.and_eq_true, decide_eq_true_eq]
        exact ⟨hm.1, ih (a + 1) (by omega) hm.2⟩

/-- A write keeps a store well formed. -/
theorem swf_sset (m : List (Nat × α)) (k : Nat) (v : α) (hm : swf d m = true) : swf d (sset d m k v) = true :=
  swfFrom_sset d m k v 0 (Nat.zero_le k) hm

/-- A read of the key that was written to a well-formed store gives the value. -/
theorem sget_sset (m : List (Nat × α)) (k : Nat) (v : α) (hm : swf d m = true) : sget d (sset d m k v) k = v :=
  sget_sset_same d m k v 0 hm

/-- A run of writes keeps a store well formed. -/
theorem swf_ssetRun (vs : List α) (m : List (Nat × α)) (k : Nat) (hm : swf d m = true) : swf d (ssetRun d m k vs) = true := by
  induction vs generalizing m k with
  | nil => exact hm
  | cons v vs ih => exact ih _ _ (swf_sset d m k v hm)

/-- A read outside the run gives what it gave. -/
theorem sget_ssetRun_out (vs : List α) (m : List (Nat × α)) (k j : Nat) (h : j < k ∨ k + vs.length ≤ j) :
    sget d (ssetRun d m k vs) j = sget d m j := by
  induction vs generalizing m k with
  | nil => rfl
  | cons v vs ih =>
    simp only [List.length_cons] at h
    rw [ssetRun, ih _ _ (by omega), sget_sset_ne d m k j v (by omega)]

/-- A read inside the run gives the value written there. -/
theorem sget_ssetRun_in (vs : List α) (m : List (Nat × α)) (k i : Nat) (hm : swf d m = true) (h : i < vs.length) :
    sget d (ssetRun d m k vs) (k + i) = vs.getD i (d (k + i)) := by
  induction vs generalizing m k i with
  | nil => simp at h
  | cons v vs ih =>
    cases i with
    | zero =>
      have e : sget d (ssetRun d (sset d m k v) (k + 1) vs) k = v := by
        rw [sget_ssetRun_out d vs _ (k + 1) k (by omega), sget_sset d m k v hm]
      simpa [ssetRun] using e
    | succ i =>
      have e : k + (i + 1) = k + 1 + i := by omega
      rw [ssetRun, e, ih _ (k + 1) i (swf_sset d m k v hm) (by simpa using h)]
      simp

/-- Returning a range to its unlisted values keeps a store well formed. -/
theorem swf_sclear (m : List (Nat × α)) (lo hi : Nat) (hm : swf d m = true) : swf d (sclear m lo hi) = true := by
  have weaken : ∀ (m : List (Nat × α)) (a b : Nat), b ≤ a → swfFrom d a m = true → swfFrom d b m = true := by
    intro m a b h hw
    cases m with
    | nil => rfl
    | cons e m =>
      simp only [swfFrom, Bool.and_eq_true, decide_eq_true_eq] at *
      exact ⟨⟨by omega, hw.1.2⟩, hw.2⟩
  have all : ∀ (m : List (Nat × α)) (b : Nat), swfFrom d b m = true → swfFrom d b (sclear m lo hi) = true := by
    intro m
    induction m with
    | nil => intros; rfl
    | cons e m ih =>
      intro b h
      obtain ⟨a, w⟩ := e
      simp only [swfFrom, Bool.and_eq_true, decide_eq_true_eq] at h
      have h2 := ih (a + 1) h.2
      unfold sclear at *
      by_cases c : (decide (a < lo) || decide (hi ≤ a)) = true
      · simp only [List.filter_cons, c, if_true, swfFrom, Bool.and_eq_true, decide_eq_true_eq]
        exact ⟨h.1, h2⟩
      · simp only [List.filter_cons, c]
        exact weaken _ (a + 1) b (by omega) h2
  exact all m 0 hm

end Store

end Sys2Proof.Machine
end

