-- ==== Sys2Proof/Laws/State.lean ====
section
/-! SUPPORT. What each change of one part of the state leaves and sets, true by definition: later proofs cite these and
unfold no record update. -/

namespace Sys2Proof.Machine

variable (s : State)

@[simp] theorem modC_aon (f : CoreSt → CoreSt) : (modC s f).aon = s.aon := rfl
@[simp] theorem modC_hold (f : CoreSt → CoreSt) : (modC s f).hold = s.hold := rfl
@[simp] theorem modC_core (f : CoreSt → CoreSt) : (modC s f).core = f s.core := rfl
@[simp] theorem modC_flash (f : CoreSt → CoreSt) : (modC s f).flash = s.flash := rfl
@[simp] theorem modC_pending (f : CoreSt → CoreSt) : (modC s f).pending = s.pending := rfl
@[simp] theorem modC_freeCtr (f : CoreSt → CoreSt) : (modC s f).freeCtr = s.freeCtr := rfl

@[simp] theorem modA_aon (f : Aon → Aon) : (modA s f).aon = f s.aon := rfl
@[simp] theorem modA_hold (f : Aon → Aon) : (modA s f).hold = s.hold := rfl
@[simp] theorem modA_core (f : Aon → Aon) : (modA s f).core = s.core := rfl
@[simp] theorem modA_flash (f : Aon → Aon) : (modA s f).flash = s.flash := rfl
@[simp] theorem modA_pending (f : Aon → Aon) : (modA s f).pending = s.pending := rfl
@[simp] theorem modA_freeCtr (f : Aon → Aon) : (modA s f).freeCtr = s.freeCtr := rfl

@[simp] theorem modH_aon (f : AonHold → AonHold) : (modH s f).aon = s.aon := rfl
@[simp] theorem modH_hold (f : AonHold → AonHold) : (modH s f).hold = f s.hold := rfl
@[simp] theorem modH_core (f : AonHold → AonHold) : (modH s f).core = s.core := rfl
@[simp] theorem modH_flash (f : AonHold → AonHold) : (modH s f).flash = s.flash := rfl
@[simp] theorem modH_pending (f : AonHold → AonHold) : (modH s f).pending = s.pending := rfl
@[simp] theorem modH_freeCtr (f : AonHold → AonHold) : (modH s f).freeCtr = s.freeCtr := rfl

@[simp] theorem modCourse_aon (f : CourseSt → CourseSt) : (modCourse s f).aon = s.aon := rfl
@[simp] theorem modCourse_hold (f : CourseSt → CourseSt) : (modCourse s f).hold = s.hold := rfl
@[simp] theorem modCourse_flash (f : CourseSt → CourseSt) : (modCourse s f).flash = s.flash := rfl
@[simp] theorem modCourse_pending (f : CourseSt → CourseSt) : (modCourse s f).pending = s.pending := rfl
@[simp] theorem modCourse_freeCtr (f : CourseSt → CourseSt) : (modCourse s f).freeCtr = s.freeCtr := rfl
@[simp] theorem modCourse_core_regs (f : CourseSt → CourseSt) : (modCourse s f).core.regs = s.core.regs := rfl
@[simp] theorem modCourse_core_parity (f : CourseSt → CourseSt) : (modCourse s f).core.parity = s.core.parity := rfl
@[simp] theorem modCourse_core_course (f : CourseSt → CourseSt) : (modCourse s f).core.course = f s.core.course := rfl
@[simp] theorem modCourse_core_capo (f : CourseSt → CourseSt) : (modCourse s f).core.capo = s.core.capo := rfl
@[simp] theorem modCourse_core_dev (f : CourseSt → CourseSt) : (modCourse s f).core.dev = s.core.dev := rfl
@[simp] theorem modCourse_core_ports (f : CourseSt → CourseSt) : (modCourse s f).core.ports = s.core.ports := rfl
@[simp] theorem modCourse_core_part (f : CourseSt → CourseSt) : (modCourse s f).core.part = s.core.part := rfl
@[simp] theorem modCourse_core_mbxs (f : CourseSt → CourseSt) : (modCourse s f).core.mbxs = s.core.mbxs := rfl
@[simp] theorem modCourse_core_irq (f : CourseSt → CourseSt) : (modCourse s f).core.irq = s.core.irq := rfl
@[simp] theorem modCourse_core_buf (f : CourseSt → CourseSt) : (modCourse s f).core.buf = s.core.buf := rfl
@[simp] theorem modCourse_core_pwr (f : CourseSt → CourseSt) : (modCourse s f).core.pwr = s.core.pwr := rfl
@[simp] theorem modCourse_core_seq (f : CourseSt → CourseSt) : (modCourse s f).core.seq = s.core.seq := rfl
@[simp] theorem modCourse_core_thm (f : CourseSt → CourseSt) : (modCourse s f).core.thm = s.core.thm := rfl
@[simp] theorem modCourse_core_flw (f : CourseSt → CourseSt) : (modCourse s f).core.flw = s.core.flw := rfl
@[simp] theorem modCourse_core_key (f : CourseSt → CourseSt) : (modCourse s f).core.key = s.core.key := rfl
@[simp] theorem modCourse_core_epd (f : CourseSt → CourseSt) : (modCourse s f).core.epd = s.core.epd := rfl
@[simp] theorem modCourse_core_pix (f : CourseSt → CourseSt) : (modCourse s f).core.pix = s.core.pix := rfl
@[simp] theorem modCourse_core_efl (f : CourseSt → CourseSt) : (modCourse s f).core.efl = s.core.efl := rfl
@[simp] theorem modCourse_core_nfc (f : CourseSt → CourseSt) : (modCourse s f).core.nfc = s.core.nfc := rfl
@[simp] theorem modCourse_core_cvu (f : CourseSt → CourseSt) : (modCourse s f).core.cvu = s.core.cvu := rfl
@[simp] theorem modCourse_core_gng (f : CourseSt → CourseSt) : (modCourse s f).core.gng = s.core.gng := rfl

@[simp] theorem modU_aon (u : Nat) (f : CvuUnit → CvuUnit) : (modU s u f).aon = s.aon := rfl
@[simp] theorem modU_hold (u : Nat) (f : CvuUnit → CvuUnit) : (modU s u f).hold = s.hold := rfl
@[simp] theorem modU_flash (u : Nat) (f : CvuUnit → CvuUnit) : (modU s u f).flash = s.flash := rfl
@[simp] theorem modU_pending (u : Nat) (f : CvuUnit → CvuUnit) : (modU s u f).pending = s.pending := rfl
@[simp] theorem modU_freeCtr (u : Nat) (f : CvuUnit → CvuUnit) : (modU s u f).freeCtr = s.freeCtr := rfl
@[simp] theorem modU_core_regs (u : Nat) (f : CvuUnit → CvuUnit) : (modU s u f).core.regs = s.core.regs := rfl
@[simp] theorem modU_core_parity (u : Nat) (f : CvuUnit → CvuUnit) : (modU s u f).core.parity = s.core.parity := rfl
@[simp] theorem modU_core_course (u : Nat) (f : CvuUnit → CvuUnit) : (modU s u f).core.course = s.core.course := rfl
@[simp] theorem modU_core_capo (u : Nat) (f : CvuUnit → CvuUnit) : (modU s u f).core.capo = s.core.capo := rfl
@[simp] theorem modU_core_dev (u : Nat) (f : CvuUnit → CvuUnit) : (modU s u f).core.dev = s.core.dev := rfl
@[simp] theorem modU_core_ports (u : Nat) (f : CvuUnit → CvuUnit) : (modU s u f).core.ports = s.core.ports := rfl
@[simp] theorem modU_core_part (u : Nat) (f : CvuUnit → CvuUnit) : (modU s u f).core.part = s.core.part := rfl
@[simp] theorem modU_core_mbxs (u : Nat) (f : CvuUnit → CvuUnit) : (modU s u f).core.mbxs = s.core.mbxs := rfl
@[simp] theorem modU_core_irq (u : Nat) (f : CvuUnit → CvuUnit) : (modU s u f).core.irq = s.core.irq := rfl
@[simp] theorem modU_core_buf (u : Nat) (f : CvuUnit → CvuUnit) : (modU s u f).core.buf = s.core.buf := rfl
@[simp] theorem modU_core_pwr (u : Nat) (f : CvuUnit → CvuUnit) : (modU s u f).core.pwr = s.core.pwr := rfl
@[simp] theorem modU_core_seq (u : Nat) (f : CvuUnit → CvuUnit) : (modU s u f).core.seq = s.core.seq := rfl
@[simp] theorem modU_core_thm (u : Nat) (f : CvuUnit → CvuUnit) : (modU s u f).core.thm = s.core.thm := rfl
@[simp] theorem modU_core_flw (u : Nat) (f : CvuUnit → CvuUnit) : (modU s u f).core.flw = s.core.flw := rfl
@[simp] theorem modU_core_key (u : Nat) (f : CvuUnit → CvuUnit) : (modU s u f).core.key = s.core.key := rfl
@[simp] theorem modU_core_epd (u : Nat) (f : CvuUnit → CvuUnit) : (modU s u f).core.epd = s.core.epd := rfl
@[simp] theorem modU_core_pix (u : Nat) (f : CvuUnit → CvuUnit) : (modU s u f).core.pix = s.core.pix := rfl
@[simp] theorem modU_core_efl (u : Nat) (f : CvuUnit → CvuUnit) : (modU s u f).core.efl = s.core.efl := rfl
@[simp] theorem modU_core_nfc (u : Nat) (f : CvuUnit → CvuUnit) : (modU s u f).core.nfc = s.core.nfc := rfl
@[simp] theorem modU_core_cvu (u : Nat) (f : CvuUnit → CvuUnit) : (modU s u f).core.cvu = upd s.core.cvu u f := rfl
@[simp] theorem modU_core_gng (u : Nat) (f : CvuUnit → CvuUnit) : (modU s u f).core.gng = s.core.gng := rfl

@[simp] theorem modF_aon (f : EflSt → EflSt) : (modF s f).aon = s.aon := rfl
@[simp] theorem modF_hold (f : EflSt → EflSt) : (modF s f).hold = s.hold := rfl
@[simp] theorem modF_flash (f : EflSt → EflSt) : (modF s f).flash = s.flash := rfl
@[simp] theorem modF_pending (f : EflSt → EflSt) : (modF s f).pending = s.pending := rfl
@[simp] theorem modF_freeCtr (f : EflSt → EflSt) : (modF s f).freeCtr = s.freeCtr := rfl
@[simp] theorem modF_core_regs (f : EflSt → EflSt) : (modF s f).core.regs = s.core.regs := rfl
@[simp] theorem modF_core_parity (f : EflSt → EflSt) : (modF s f).core.parity = s.core.parity := rfl
@[simp] theorem modF_core_course (f : EflSt → EflSt) : (modF s f).core.course = s.core.course := rfl
@[simp] theorem modF_core_capo (f : EflSt → EflSt) : (modF s f).core.capo = s.core.capo := rfl
@[simp] theorem modF_core_dev (f : EflSt → EflSt) : (modF s f).core.dev = s.core.dev := rfl
@[simp] theorem modF_core_ports (f : EflSt → EflSt) : (modF s f).core.ports = s.core.ports := rfl
@[simp] theorem modF_core_part (f : EflSt → EflSt) : (modF s f).core.part = s.core.part := rfl
@[simp] theorem modF_core_mbxs (f : EflSt → EflSt) : (modF s f).core.mbxs = s.core.mbxs := rfl
@[simp] theorem modF_core_irq (f : EflSt → EflSt) : (modF s f).core.irq = s.core.irq := rfl
@[simp] theorem modF_core_buf (f : EflSt → EflSt) : (modF s f).core.buf = s.core.buf := rfl
@[simp] theorem modF_core_pwr (f : EflSt → EflSt) : (modF s f).core.pwr = s.core.pwr := rfl
@[simp] theorem modF_core_seq (f : EflSt → EflSt) : (modF s f).core.seq = s.core.seq := rfl
@[simp] theorem modF_core_thm (f : EflSt → EflSt) : (modF s f).core.thm = s.core.thm := rfl
@[simp] theorem modF_core_flw (f : EflSt → EflSt) : (modF s f).core.flw = s.core.flw := rfl
@[simp] theorem modF_core_key (f : EflSt → EflSt) : (modF s f).core.key = s.core.key := rfl
@[simp] theorem modF_core_epd (f : EflSt → EflSt) : (modF s f).core.epd = s.core.epd := rfl
@[simp] theorem modF_core_pix (f : EflSt → EflSt) : (modF s f).core.pix = s.core.pix := rfl
@[simp] theorem modF_core_efl (f : EflSt → EflSt) : (modF s f).core.efl = f s.core.efl := rfl
@[simp] theorem modF_core_nfc (f : EflSt → EflSt) : (modF s f).core.nfc = s.core.nfc := rfl
@[simp] theorem modF_core_cvu (f : EflSt → EflSt) : (modF s f).core.cvu = s.core.cvu := rfl
@[simp] theorem modF_core_gng (f : EflSt → EflSt) : (modF s f).core.gng = s.core.gng := rfl

@[simp] theorem modE_aon (f : EpdSt → EpdSt) : (modE s f).aon = s.aon := rfl
@[simp] theorem modE_hold (f : EpdSt → EpdSt) : (modE s f).hold = s.hold := rfl
@[simp] theorem modE_flash (f : EpdSt → EpdSt) : (modE s f).flash = s.flash := rfl
@[simp] theorem modE_pending (f : EpdSt → EpdSt) : (modE s f).pending = s.pending := rfl
@[simp] theorem modE_freeCtr (f : EpdSt → EpdSt) : (modE s f).freeCtr = s.freeCtr := rfl
@[simp] theorem modE_core_regs (f : EpdSt → EpdSt) : (modE s f).core.regs = s.core.regs := rfl
@[simp] theorem modE_core_parity (f : EpdSt → EpdSt) : (modE s f).core.parity = s.core.parity := rfl
@[simp] theorem modE_core_course (f : EpdSt → EpdSt) : (modE s f).core.course = s.core.course := rfl
@[simp] theorem modE_core_capo (f : EpdSt → EpdSt) : (modE s f).core.capo = s.core.capo := rfl
@[simp] theorem modE_core_dev (f : EpdSt → EpdSt) : (modE s f).core.dev = s.core.dev := rfl
@[simp] theorem modE_core_ports (f : EpdSt → EpdSt) : (modE s f).core.ports = s.core.ports := rfl
@[simp] theorem modE_core_part (f : EpdSt → EpdSt) : (modE s f).core.part = s.core.part := rfl
@[simp] theorem modE_core_mbxs (f : EpdSt → EpdSt) : (modE s f).core.mbxs = s.core.mbxs := rfl
@[simp] theorem modE_core_irq (f : EpdSt → EpdSt) : (modE s f).core.irq = s.core.irq := rfl
@[simp] theorem modE_core_buf (f : EpdSt → EpdSt) : (modE s f).core.buf = s.core.buf := rfl
@[simp] theorem modE_core_pwr (f : EpdSt → EpdSt) : (modE s f).core.pwr = s.core.pwr := rfl
@[simp] theorem modE_core_seq (f : EpdSt → EpdSt) : (modE s f).core.seq = s.core.seq := rfl
@[simp] theorem modE_core_thm (f : EpdSt → EpdSt) : (modE s f).core.thm = s.core.thm := rfl
@[simp] theorem modE_core_flw (f : EpdSt → EpdSt) : (modE s f).core.flw = s.core.flw := rfl
@[simp] theorem modE_core_key (f : EpdSt → EpdSt) : (modE s f).core.key = s.core.key := rfl
@[simp] theorem modE_core_epd (f : EpdSt → EpdSt) : (modE s f).core.epd = f s.core.epd := rfl
@[simp] theorem modE_core_pix (f : EpdSt → EpdSt) : (modE s f).core.pix = s.core.pix := rfl
@[simp] theorem modE_core_efl (f : EpdSt → EpdSt) : (modE s f).core.efl = s.core.efl := rfl
@[simp] theorem modE_core_nfc (f : EpdSt → EpdSt) : (modE s f).core.nfc = s.core.nfc := rfl
@[simp] theorem modE_core_cvu (f : EpdSt → EpdSt) : (modE s f).core.cvu = s.core.cvu := rfl
@[simp] theorem modE_core_gng (f : EpdSt → EpdSt) : (modE s f).core.gng = s.core.gng := rfl

@[simp] theorem modP_aon (f : PixSt → PixSt) : (modP s f).aon = s.aon := rfl
@[simp] theorem modP_hold (f : PixSt → PixSt) : (modP s f).hold = s.hold := rfl
@[simp] theorem modP_flash (f : PixSt → PixSt) : (modP s f).flash = s.flash := rfl
@[simp] theorem modP_pending (f : PixSt → PixSt) : (modP s f).pending = s.pending := rfl
@[simp] theorem modP_freeCtr (f : PixSt → PixSt) : (modP s f).freeCtr = s.freeCtr := rfl
@[simp] theorem modP_core_regs (f : PixSt → PixSt) : (modP s f).core.regs = s.core.regs := rfl
@[simp] theorem modP_core_parity (f : PixSt → PixSt) : (modP s f).core.parity = s.core.parity := rfl
@[simp] theorem modP_core_course (f : PixSt → PixSt) : (modP s f).core.course = s.core.course := rfl
@[simp] theorem modP_core_capo (f : PixSt → PixSt) : (modP s f).core.capo = s.core.capo := rfl
@[simp] theorem modP_core_dev (f : PixSt → PixSt) : (modP s f).core.dev = s.core.dev := rfl
@[simp] theorem modP_core_ports (f : PixSt → PixSt) : (modP s f).core.ports = s.core.ports := rfl
@[simp] theorem modP_core_part (f : PixSt → PixSt) : (modP s f).core.part = s.core.part := rfl
@[simp] theorem modP_core_mbxs (f : PixSt → PixSt) : (modP s f).core.mbxs = s.core.mbxs := rfl
@[simp] theorem modP_core_irq (f : PixSt → PixSt) : (modP s f).core.irq = s.core.irq := rfl
@[simp] theorem modP_core_buf (f : PixSt → PixSt) : (modP s f).core.buf = s.core.buf := rfl
@[simp] theorem modP_core_pwr (f : PixSt → PixSt) : (modP s f).core.pwr = s.core.pwr := rfl
@[simp] theorem modP_core_seq (f : PixSt → PixSt) : (modP s f).core.seq = s.core.seq := rfl
@[simp] theorem modP_core_thm (f : PixSt → PixSt) : (modP s f).core.thm = s.core.thm := rfl
@[simp] theorem modP_core_flw (f : PixSt → PixSt) : (modP s f).core.flw = s.core.flw := rfl
@[simp] theorem modP_core_key (f : PixSt → PixSt) : (modP s f).core.key = s.core.key := rfl
@[simp] theorem modP_core_epd (f : PixSt → PixSt) : (modP s f).core.epd = s.core.epd := rfl
@[simp] theorem modP_core_pix (f : PixSt → PixSt) : (modP s f).core.pix = f s.core.pix := rfl
@[simp] theorem modP_core_efl (f : PixSt → PixSt) : (modP s f).core.efl = s.core.efl := rfl
@[simp] theorem modP_core_nfc (f : PixSt → PixSt) : (modP s f).core.nfc = s.core.nfc := rfl
@[simp] theorem modP_core_cvu (f : PixSt → PixSt) : (modP s f).core.cvu = s.core.cvu := rfl
@[simp] theorem modP_core_gng (f : PixSt → PixSt) : (modP s f).core.gng = s.core.gng := rfl

@[simp] theorem modPort_aon (u : Nat) (f : PortSt → PortSt) : (modPort s u f).aon = s.aon := rfl
@[simp] theorem modPort_hold (u : Nat) (f : PortSt → PortSt) : (modPort s u f).hold = s.hold := rfl
@[simp] theorem modPort_flash (u : Nat) (f : PortSt → PortSt) : (modPort s u f).flash = s.flash := rfl
@[simp] theorem modPort_pending (u : Nat) (f : PortSt → PortSt) : (modPort s u f).pending = s.pending := rfl
@[simp] theorem modPort_freeCtr (u : Nat) (f : PortSt → PortSt) : (modPort s u f).freeCtr = s.freeCtr := rfl
@[simp] theorem modPort_core_regs (u : Nat) (f : PortSt → PortSt) : (modPort s u f).core.regs = s.core.regs := rfl
@[simp] theorem modPort_core_parity (u : Nat) (f : PortSt → PortSt) : (modPort s u f).core.parity = s.core.parity := rfl
@[simp] theorem modPort_core_course (u : Nat) (f : PortSt → PortSt) : (modPort s u f).core.course = s.core.course := rfl
@[simp] theorem modPort_core_capo (u : Nat) (f : PortSt → PortSt) : (modPort s u f).core.capo = s.core.capo := rfl
@[simp] theorem modPort_core_dev (u : Nat) (f : PortSt → PortSt) : (modPort s u f).core.dev = s.core.dev := rfl
@[simp] theorem modPort_core_ports (u : Nat) (f : PortSt → PortSt) : (modPort s u f).core.ports = upd s.core.ports u f := rfl
@[simp] theorem modPort_core_part (u : Nat) (f : PortSt → PortSt) : (modPort s u f).core.part = s.core.part := rfl
@[simp] theorem modPort_core_mbxs (u : Nat) (f : PortSt → PortSt) : (modPort s u f).core.mbxs = s.core.mbxs := rfl
@[simp] theorem modPort_core_irq (u : Nat) (f : PortSt → PortSt) : (modPort s u f).core.irq = s.core.irq := rfl
@[simp] theorem modPort_core_buf (u : Nat) (f : PortSt → PortSt) : (modPort s u f).core.buf = s.core.buf := rfl
@[simp] theorem modPort_core_pwr (u : Nat) (f : PortSt → PortSt) : (modPort s u f).core.pwr = s.core.pwr := rfl
@[simp] theorem modPort_core_seq (u : Nat) (f : PortSt → PortSt) : (modPort s u f).core.seq = s.core.seq := rfl
@[simp] theorem modPort_core_thm (u : Nat) (f : PortSt → PortSt) : (modPort s u f).core.thm = s.core.thm := rfl
@[simp] theorem modPort_core_flw (u : Nat) (f : PortSt → PortSt) : (modPort s u f).core.flw = s.core.flw := rfl
@[simp] theorem modPort_core_key (u : Nat) (f : PortSt → PortSt) : (modPort s u f).core.key = s.core.key := rfl
@[simp] theorem modPort_core_epd (u : Nat) (f : PortSt → PortSt) : (modPort s u f).core.epd = s.core.epd := rfl
@[simp] theorem modPort_core_pix (u : Nat) (f : PortSt → PortSt) : (modPort s u f).core.pix = s.core.pix := rfl
@[simp] theorem modPort_core_efl (u : Nat) (f : PortSt → PortSt) : (modPort s u f).core.efl = s.core.efl := rfl
@[simp] theorem modPort_core_nfc (u : Nat) (f : PortSt → PortSt) : (modPort s u f).core.nfc = s.core.nfc := rfl
@[simp] theorem modPort_core_cvu (u : Nat) (f : PortSt → PortSt) : (modPort s u f).core.cvu = s.core.cvu := rfl
@[simp] theorem modPort_core_gng (u : Nat) (f : PortSt → PortSt) : (modPort s u f).core.gng = s.core.gng := rfl

@[simp] theorem modG_aon (f : GngSt → GngSt) : (modG s f).aon = s.aon := rfl
@[simp] theorem modG_hold (f : GngSt → GngSt) : (modG s f).hold = s.hold := rfl
@[simp] theorem modG_flash (f : GngSt → GngSt) : (modG s f).flash = s.flash := rfl
@[simp] theorem modG_pending (f : GngSt → GngSt) : (modG s f).pending = s.pending := rfl
@[simp] theorem modG_freeCtr (f : GngSt → GngSt) : (modG s f).freeCtr = s.freeCtr := rfl
@[simp] theorem modG_core_regs (f : GngSt → GngSt) : (modG s f).core.regs = s.core.regs := rfl
@[simp] theorem modG_core_parity (f : GngSt → GngSt) : (modG s f).core.parity = s.core.parity := rfl
@[simp] theorem modG_core_course (f : GngSt → GngSt) : (modG s f).core.course = s.core.course := rfl
@[simp] theorem modG_core_capo (f : GngSt → GngSt) : (modG s f).core.capo = s.core.capo := rfl
@[simp] theorem modG_core_dev (f : GngSt → GngSt) : (modG s f).core.dev = s.core.dev := rfl
@[simp] theorem modG_core_ports (f : GngSt → GngSt) : (modG s f).core.ports = s.core.ports := rfl
@[simp] theorem modG_core_part (f : GngSt → GngSt) : (modG s f).core.part = s.core.part := rfl
@[simp] theorem modG_core_mbxs (f : GngSt → GngSt) : (modG s f).core.mbxs = s.core.mbxs := rfl
@[simp] theorem modG_core_irq (f : GngSt → GngSt) : (modG s f).core.irq = s.core.irq := rfl
@[simp] theorem modG_core_buf (f : GngSt → GngSt) : (modG s f).core.buf = s.core.buf := rfl
@[simp] theorem modG_core_pwr (f : GngSt → GngSt) : (modG s f).core.pwr = s.core.pwr := rfl
@[simp] theorem modG_core_seq (f : GngSt → GngSt) : (modG s f).core.seq = s.core.seq := rfl
@[simp] theorem modG_core_thm (f : GngSt → GngSt) : (modG s f).core.thm = s.core.thm := rfl
@[simp] theorem modG_core_flw (f : GngSt → GngSt) : (modG s f).core.flw = s.core.flw := rfl
@[simp] theorem modG_core_key (f : GngSt → GngSt) : (modG s f).core.key = s.core.key := rfl
@[simp] theorem modG_core_epd (f : GngSt → GngSt) : (modG s f).core.epd = s.core.epd := rfl
@[simp] theorem modG_core_pix (f : GngSt → GngSt) : (modG s f).core.pix = s.core.pix := rfl
@[simp] theorem modG_core_efl (f : GngSt → GngSt) : (modG s f).core.efl = s.core.efl := rfl
@[simp] theorem modG_core_nfc (f : GngSt → GngSt) : (modG s f).core.nfc = s.core.nfc := rfl
@[simp] theorem modG_core_cvu (f : GngSt → GngSt) : (modG s f).core.cvu = s.core.cvu := rfl
@[simp] theorem modG_core_gng (f : GngSt → GngSt) : (modG s f).core.gng = f s.core.gng := rfl

@[simp] theorem modK_aon (f : KeyBlk → KeyBlk) : (modK s f).aon = s.aon := rfl
@[simp] theorem modK_hold (f : KeyBlk → KeyBlk) : (modK s f).hold = s.hold := rfl
@[simp] theorem modK_flash (f : KeyBlk → KeyBlk) : (modK s f).flash = s.flash := rfl
@[simp] theorem modK_pending (f : KeyBlk → KeyBlk) : (modK s f).pending = s.pending := rfl
@[simp] theorem modK_freeCtr (f : KeyBlk → KeyBlk) : (modK s f).freeCtr = s.freeCtr := rfl
@[simp] theorem modK_core_regs (f : KeyBlk → KeyBlk) : (modK s f).core.regs = s.core.regs := rfl
@[simp] theorem modK_core_parity (f : KeyBlk → KeyBlk) : (modK s f).core.parity = s.core.parity := rfl
@[simp] theorem modK_core_course (f : KeyBlk → KeyBlk) : (modK s f).core.course = s.core.course := rfl
@[simp] theorem modK_core_capo (f : KeyBlk → KeyBlk) : (modK s f).core.capo = s.core.capo := rfl
@[simp] theorem modK_core_dev (f : KeyBlk → KeyBlk) : (modK s f).core.dev = s.core.dev := rfl
@[simp] theorem modK_core_ports (f : KeyBlk → KeyBlk) : (modK s f).core.ports = s.core.ports := rfl
@[simp] theorem modK_core_part (f : KeyBlk → KeyBlk) : (modK s f).core.part = s.core.part := rfl
@[simp] theorem modK_core_mbxs (f : KeyBlk → KeyBlk) : (modK s f).core.mbxs = s.core.mbxs := rfl
@[simp] theorem modK_core_irq (f : KeyBlk → KeyBlk) : (modK s f).core.irq = s.core.irq := rfl
@[simp] theorem modK_core_buf (f : KeyBlk → KeyBlk) : (modK s f).core.buf = s.core.buf := rfl
@[simp] theorem modK_core_pwr (f : KeyBlk → KeyBlk) : (modK s f).core.pwr = s.core.pwr := rfl
@[simp] theorem modK_core_seq (f : KeyBlk → KeyBlk) : (modK s f).core.seq = s.core.seq := rfl
@[simp] theorem modK_core_thm (f : KeyBlk → KeyBlk) : (modK s f).core.thm = s.core.thm := rfl
@[simp] theorem modK_core_flw (f : KeyBlk → KeyBlk) : (modK s f).core.flw = s.core.flw := rfl
@[simp] theorem modK_core_key (f : KeyBlk → KeyBlk) : (modK s f).core.key = f s.core.key := rfl
@[simp] theorem modK_core_epd (f : KeyBlk → KeyBlk) : (modK s f).core.epd = s.core.epd := rfl
@[simp] theorem modK_core_pix (f : KeyBlk → KeyBlk) : (modK s f).core.pix = s.core.pix := rfl
@[simp] theorem modK_core_efl (f : KeyBlk → KeyBlk) : (modK s f).core.efl = s.core.efl := rfl
@[simp] theorem modK_core_nfc (f : KeyBlk → KeyBlk) : (modK s f).core.nfc = s.core.nfc := rfl
@[simp] theorem modK_core_cvu (f : KeyBlk → KeyBlk) : (modK s f).core.cvu = s.core.cvu := rfl
@[simp] theorem modK_core_gng (f : KeyBlk → KeyBlk) : (modK s f).core.gng = s.core.gng := rfl

@[simp] theorem modN_aon (f : NfcSt → NfcSt) : (modN s f).aon = s.aon := rfl
@[simp] theorem modN_hold (f : NfcSt → NfcSt) : (modN s f).hold = s.hold := rfl
@[simp] theorem modN_flash (f : NfcSt → NfcSt) : (modN s f).flash = s.flash := rfl
@[simp] theorem modN_pending (f : NfcSt → NfcSt) : (modN s f).pending = s.pending := rfl
@[simp] theorem modN_freeCtr (f : NfcSt → NfcSt) : (modN s f).freeCtr = s.freeCtr := rfl
@[simp] theorem modN_core_regs (f : NfcSt → NfcSt) : (modN s f).core.regs = s.core.regs := rfl
@[simp] theorem modN_core_parity (f : NfcSt → NfcSt) : (modN s f).core.parity = s.core.parity := rfl
@[simp] theorem modN_core_course (f : NfcSt → NfcSt) : (modN s f).core.course = s.core.course := rfl
@[simp] theorem modN_core_capo (f : NfcSt → NfcSt) : (modN s f).core.capo = s.core.capo := rfl
@[simp] theorem modN_core_dev (f : NfcSt → NfcSt) : (modN s f).core.dev = s.core.dev := rfl
@[simp] theorem modN_core_ports (f : NfcSt → NfcSt) : (modN s f).core.ports = s.core.ports := rfl
@[simp] theorem modN_core_part (f : NfcSt → NfcSt) : (modN s f).core.part = s.core.part := rfl
@[simp] theorem modN_core_mbxs (f : NfcSt → NfcSt) : (modN s f).core.mbxs = s.core.mbxs := rfl
@[simp] theorem modN_core_irq (f : NfcSt → NfcSt) : (modN s f).core.irq = s.core.irq := rfl
@[simp] theorem modN_core_buf (f : NfcSt → NfcSt) : (modN s f).core.buf = s.core.buf := rfl
@[simp] theorem modN_core_pwr (f : NfcSt → NfcSt) : (modN s f).core.pwr = s.core.pwr := rfl
@[simp] theorem modN_core_seq (f : NfcSt → NfcSt) : (modN s f).core.seq = s.core.seq := rfl
@[simp] theorem modN_core_thm (f : NfcSt → NfcSt) : (modN s f).core.thm = s.core.thm := rfl
@[simp] theorem modN_core_flw (f : NfcSt → NfcSt) : (modN s f).core.flw = s.core.flw := rfl
@[simp] theorem modN_core_key (f : NfcSt → NfcSt) : (modN s f).core.key = s.core.key := rfl
@[simp] theorem modN_core_epd (f : NfcSt → NfcSt) : (modN s f).core.epd = s.core.epd := rfl
@[simp] theorem modN_core_pix (f : NfcSt → NfcSt) : (modN s f).core.pix = s.core.pix := rfl
@[simp] theorem modN_core_efl (f : NfcSt → NfcSt) : (modN s f).core.efl = s.core.efl := rfl
@[simp] theorem modN_core_nfc (f : NfcSt → NfcSt) : (modN s f).core.nfc = f s.core.nfc := rfl
@[simp] theorem modN_core_cvu (f : NfcSt → NfcSt) : (modN s f).core.cvu = s.core.cvu := rfl
@[simp] theorem modN_core_gng (f : NfcSt → NfcSt) : (modN s f).core.gng = s.core.gng := rfl

@[simp] theorem modPart_aon (f : PartSt → PartSt) : (modPart s f).aon = s.aon := rfl
@[simp] theorem modPart_hold (f : PartSt → PartSt) : (modPart s f).hold = s.hold := rfl
@[simp] theorem modPart_flash (f : PartSt → PartSt) : (modPart s f).flash = s.flash := rfl
@[simp] theorem modPart_pending (f : PartSt → PartSt) : (modPart s f).pending = s.pending := rfl
@[simp] theorem modPart_freeCtr (f : PartSt → PartSt) : (modPart s f).freeCtr = s.freeCtr := rfl
@[simp] theorem modPart_core_regs (f : PartSt → PartSt) : (modPart s f).core.regs = s.core.regs := rfl
@[simp] theorem modPart_core_parity (f : PartSt → PartSt) : (modPart s f).core.parity = s.core.parity := rfl
@[simp] theorem modPart_core_course (f : PartSt → PartSt) : (modPart s f).core.course = s.core.course := rfl
@[simp] theorem modPart_core_capo (f : PartSt → PartSt) : (modPart s f).core.capo = s.core.capo := rfl
@[simp] theorem modPart_core_dev (f : PartSt → PartSt) : (modPart s f).core.dev = s.core.dev := rfl
@[simp] theorem modPart_core_ports (f : PartSt → PartSt) : (modPart s f).core.ports = s.core.ports := rfl
@[simp] theorem modPart_core_part (f : PartSt → PartSt) : (modPart s f).core.part = f s.core.part := rfl
@[simp] theorem modPart_core_mbxs (f : PartSt → PartSt) : (modPart s f).core.mbxs = s.core.mbxs := rfl
@[simp] theorem modPart_core_irq (f : PartSt → PartSt) : (modPart s f).core.irq = s.core.irq := rfl
@[simp] theorem modPart_core_buf (f : PartSt → PartSt) : (modPart s f).core.buf = s.core.buf := rfl
@[simp] theorem modPart_core_pwr (f : PartSt → PartSt) : (modPart s f).core.pwr = s.core.pwr := rfl
@[simp] theorem modPart_core_seq (f : PartSt → PartSt) : (modPart s f).core.seq = s.core.seq := rfl
@[simp] theorem modPart_core_thm (f : PartSt → PartSt) : (modPart s f).core.thm = s.core.thm := rfl
@[simp] theorem modPart_core_flw (f : PartSt → PartSt) : (modPart s f).core.flw = s.core.flw := rfl
@[simp] theorem modPart_core_key (f : PartSt → PartSt) : (modPart s f).core.key = s.core.key := rfl
@[simp] theorem modPart_core_epd (f : PartSt → PartSt) : (modPart s f).core.epd = s.core.epd := rfl
@[simp] theorem modPart_core_pix (f : PartSt → PartSt) : (modPart s f).core.pix = s.core.pix := rfl
@[simp] theorem modPart_core_efl (f : PartSt → PartSt) : (modPart s f).core.efl = s.core.efl := rfl
@[simp] theorem modPart_core_nfc (f : PartSt → PartSt) : (modPart s f).core.nfc = s.core.nfc := rfl
@[simp] theorem modPart_core_cvu (f : PartSt → PartSt) : (modPart s f).core.cvu = s.core.cvu := rfl
@[simp] theorem modPart_core_gng (f : PartSt → PartSt) : (modPart s f).core.gng = s.core.gng := rfl

@[simp] theorem modIrq_aon (u : Nat) (f : IrqSt → IrqSt) : (modIrq s u f).aon = s.aon := rfl
@[simp] theorem modIrq_hold (u : Nat) (f : IrqSt → IrqSt) : (modIrq s u f).hold = s.hold := rfl
@[simp] theorem modIrq_flash (u : Nat) (f : IrqSt → IrqSt) : (modIrq s u f).flash = s.flash := rfl
@[simp] theorem modIrq_pending (u : Nat) (f : IrqSt → IrqSt) : (modIrq s u f).pending = s.pending := rfl
@[simp] theorem modIrq_freeCtr (u : Nat) (f : IrqSt → IrqSt) : (modIrq s u f).freeCtr = s.freeCtr := rfl
@[simp] theorem modIrq_core_regs (u : Nat) (f : IrqSt → IrqSt) : (modIrq s u f).core.regs = s.core.regs := rfl
@[simp] theorem modIrq_core_parity (u : Nat) (f : IrqSt → IrqSt) : (modIrq s u f).core.parity = s.core.parity := rfl
@[simp] theorem modIrq_core_course (u : Nat) (f : IrqSt → IrqSt) : (modIrq s u f).core.course = s.core.course := rfl
@[simp] theorem modIrq_core_capo (u : Nat) (f : IrqSt → IrqSt) : (modIrq s u f).core.capo = s.core.capo := rfl
@[simp] theorem modIrq_core_dev (u : Nat) (f : IrqSt → IrqSt) : (modIrq s u f).core.dev = s.core.dev := rfl
@[simp] theorem modIrq_core_ports (u : Nat) (f : IrqSt → IrqSt) : (modIrq s u f).core.ports = s.core.ports := rfl
@[simp] theorem modIrq_core_part (u : Nat) (f : IrqSt → IrqSt) : (modIrq s u f).core.part = s.core.part := rfl
@[simp] theorem modIrq_core_mbxs (u : Nat) (f : IrqSt → IrqSt) : (modIrq s u f).core.mbxs = s.core.mbxs := rfl
@[simp] theorem modIrq_core_irq (u : Nat) (f : IrqSt → IrqSt) : (modIrq s u f).core.irq = upd s.core.irq u f := rfl
@[simp] theorem modIrq_core_buf (u : Nat) (f : IrqSt → IrqSt) : (modIrq s u f).core.buf = s.core.buf := rfl
@[simp] theorem modIrq_core_pwr (u : Nat) (f : IrqSt → IrqSt) : (modIrq s u f).core.pwr = s.core.pwr := rfl
@[simp] theorem modIrq_core_seq (u : Nat) (f : IrqSt → IrqSt) : (modIrq s u f).core.seq = s.core.seq := rfl
@[simp] theorem modIrq_core_thm (u : Nat) (f : IrqSt → IrqSt) : (modIrq s u f).core.thm = s.core.thm := rfl
@[simp] theorem modIrq_core_flw (u : Nat) (f : IrqSt → IrqSt) : (modIrq s u f).core.flw = s.core.flw := rfl
@[simp] theorem modIrq_core_key (u : Nat) (f : IrqSt → IrqSt) : (modIrq s u f).core.key = s.core.key := rfl
@[simp] theorem modIrq_core_epd (u : Nat) (f : IrqSt → IrqSt) : (modIrq s u f).core.epd = s.core.epd := rfl
@[simp] theorem modIrq_core_pix (u : Nat) (f : IrqSt → IrqSt) : (modIrq s u f).core.pix = s.core.pix := rfl
@[simp] theorem modIrq_core_efl (u : Nat) (f : IrqSt → IrqSt) : (modIrq s u f).core.efl = s.core.efl := rfl
@[simp] theorem modIrq_core_nfc (u : Nat) (f : IrqSt → IrqSt) : (modIrq s u f).core.nfc = s.core.nfc := rfl
@[simp] theorem modIrq_core_cvu (u : Nat) (f : IrqSt → IrqSt) : (modIrq s u f).core.cvu = s.core.cvu := rfl
@[simp] theorem modIrq_core_gng (u : Nat) (f : IrqSt → IrqSt) : (modIrq s u f).core.gng = s.core.gng := rfl

@[simp] theorem modDrive_aon (u : Nat) (f : FlowDrive → FlowDrive) : (modDrive s u f).aon = s.aon := rfl
@[simp] theorem modDrive_hold (u : Nat) (f : FlowDrive → FlowDrive) : (modDrive s u f).hold = s.hold := rfl
@[simp] theorem modDrive_flash (u : Nat) (f : FlowDrive → FlowDrive) : (modDrive s u f).flash = s.flash := rfl
@[simp] theorem modDrive_pending (u : Nat) (f : FlowDrive → FlowDrive) : (modDrive s u f).pending = s.pending := rfl
@[simp] theorem modDrive_freeCtr (u : Nat) (f : FlowDrive → FlowDrive) : (modDrive s u f).freeCtr = s.freeCtr := rfl
@[simp] theorem modDrive_core_regs (u : Nat) (f : FlowDrive → FlowDrive) : (modDrive s u f).core.regs = s.core.regs := rfl
@[simp] theorem modDrive_core_parity (u : Nat) (f : FlowDrive → FlowDrive) : (modDrive s u f).core.parity = s.core.parity := rfl
@[simp] theorem modDrive_core_course (u : Nat) (f : FlowDrive → FlowDrive) : (modDrive s u f).core.course = s.core.course := rfl
@[simp] theorem modDrive_core_capo (u : Nat) (f : FlowDrive → FlowDrive) : (modDrive s u f).core.capo = s.core.capo := rfl
@[simp] theorem modDrive_core_dev (u : Nat) (f : FlowDrive → FlowDrive) : (modDrive s u f).core.dev = s.core.dev := rfl
@[simp] theorem modDrive_core_ports (u : Nat) (f : FlowDrive → FlowDrive) : (modDrive s u f).core.ports = s.core.ports := rfl
@[simp] theorem modDrive_core_part (u : Nat) (f : FlowDrive → FlowDrive) : (modDrive s u f).core.part = s.core.part := rfl
@[simp] theorem modDrive_core_mbxs (u : Nat) (f : FlowDrive → FlowDrive) : (modDrive s u f).core.mbxs = s.core.mbxs := rfl
@[simp] theorem modDrive_core_irq (u : Nat) (f : FlowDrive → FlowDrive) : (modDrive s u f).core.irq = s.core.irq := rfl
@[simp] theorem modDrive_core_buf (u : Nat) (f : FlowDrive → FlowDrive) : (modDrive s u f).core.buf = s.core.buf := rfl
@[simp] theorem modDrive_core_pwr (u : Nat) (f : FlowDrive → FlowDrive) : (modDrive s u f).core.pwr = s.core.pwr := rfl
@[simp] theorem modDrive_core_seq (u : Nat) (f : FlowDrive → FlowDrive) : (modDrive s u f).core.seq = s.core.seq := rfl
@[simp] theorem modDrive_core_thm (u : Nat) (f : FlowDrive → FlowDrive) : (modDrive s u f).core.thm = s.core.thm := rfl
@[simp] theorem modDrive_core_flw (u : Nat) (f : FlowDrive → FlowDrive) : (modDrive s u f).core.flw = { s.core.flw with drive := upd s.core.flw.drive u f } := rfl
@[simp] theorem modDrive_core_key (u : Nat) (f : FlowDrive → FlowDrive) : (modDrive s u f).core.key = s.core.key := rfl
@[simp] theorem modDrive_core_epd (u : Nat) (f : FlowDrive → FlowDrive) : (modDrive s u f).core.epd = s.core.epd := rfl
@[simp] theorem modDrive_core_pix (u : Nat) (f : FlowDrive → FlowDrive) : (modDrive s u f).core.pix = s.core.pix := rfl
@[simp] theorem modDrive_core_efl (u : Nat) (f : FlowDrive → FlowDrive) : (modDrive s u f).core.efl = s.core.efl := rfl
@[simp] theorem modDrive_core_nfc (u : Nat) (f : FlowDrive → FlowDrive) : (modDrive s u f).core.nfc = s.core.nfc := rfl
@[simp] theorem modDrive_core_cvu (u : Nat) (f : FlowDrive → FlowDrive) : (modDrive s u f).core.cvu = s.core.cvu := rfl
@[simp] theorem modDrive_core_gng (u : Nat) (f : FlowDrive → FlowDrive) : (modDrive s u f).core.gng = s.core.gng := rfl

@[simp] theorem modAge_aon (u : Nat) (f : FlowAge → FlowAge) : (modAge s u f).aon = s.aon := rfl
@[simp] theorem modAge_hold (u : Nat) (f : FlowAge → FlowAge) : (modAge s u f).hold = s.hold := rfl
@[simp] theorem modAge_flash (u : Nat) (f : FlowAge → FlowAge) : (modAge s u f).flash = s.flash := rfl
@[simp] theorem modAge_pending (u : Nat) (f : FlowAge → FlowAge) : (modAge s u f).pending = s.pending := rfl
@[simp] theorem modAge_freeCtr (u : Nat) (f : FlowAge → FlowAge) : (modAge s u f).freeCtr = s.freeCtr := rfl
@[simp] theorem modAge_core_regs (u : Nat) (f : FlowAge → FlowAge) : (modAge s u f).core.regs = s.core.regs := rfl
@[simp] theorem modAge_core_parity (u : Nat) (f : FlowAge → FlowAge) : (modAge s u f).core.parity = s.core.parity := rfl
@[simp] theorem modAge_core_course (u : Nat) (f : FlowAge → FlowAge) : (modAge s u f).core.course = s.core.course := rfl
@[simp] theorem modAge_core_capo (u : Nat) (f : FlowAge → FlowAge) : (modAge s u f).core.capo = s.core.capo := rfl
@[simp] theorem modAge_core_dev (u : Nat) (f : FlowAge → FlowAge) : (modAge s u f).core.dev = s.core.dev := rfl
@[simp] theorem modAge_core_ports (u : Nat) (f : FlowAge → FlowAge) : (modAge s u f).core.ports = s.core.ports := rfl
@[simp] theorem modAge_core_part (u : Nat) (f : FlowAge → FlowAge) : (modAge s u f).core.part = s.core.part := rfl
@[simp] theorem modAge_core_mbxs (u : Nat) (f : FlowAge → FlowAge) : (modAge s u f).core.mbxs = s.core.mbxs := rfl
@[simp] theorem modAge_core_irq (u : Nat) (f : FlowAge → FlowAge) : (modAge s u f).core.irq = s.core.irq := rfl
@[simp] theorem modAge_core_buf (u : Nat) (f : FlowAge → FlowAge) : (modAge s u f).core.buf = s.core.buf := rfl
@[simp] theorem modAge_core_pwr (u : Nat) (f : FlowAge → FlowAge) : (modAge s u f).core.pwr = s.core.pwr := rfl
@[simp] theorem modAge_core_seq (u : Nat) (f : FlowAge → FlowAge) : (modAge s u f).core.seq = s.core.seq := rfl
@[simp] theorem modAge_core_thm (u : Nat) (f : FlowAge → FlowAge) : (modAge s u f).core.thm = s.core.thm := rfl
@[simp] theorem modAge_core_flw (u : Nat) (f : FlowAge → FlowAge) : (modAge s u f).core.flw = { s.core.flw with age := upd s.core.flw.age u f } := rfl
@[simp] theorem modAge_core_key (u : Nat) (f : FlowAge → FlowAge) : (modAge s u f).core.key = s.core.key := rfl
@[simp] theorem modAge_core_epd (u : Nat) (f : FlowAge → FlowAge) : (modAge s u f).core.epd = s.core.epd := rfl
@[simp] theorem modAge_core_pix (u : Nat) (f : FlowAge → FlowAge) : (modAge s u f).core.pix = s.core.pix := rfl
@[simp] theorem modAge_core_efl (u : Nat) (f : FlowAge → FlowAge) : (modAge s u f).core.efl = s.core.efl := rfl
@[simp] theorem modAge_core_nfc (u : Nat) (f : FlowAge → FlowAge) : (modAge s u f).core.nfc = s.core.nfc := rfl
@[simp] theorem modAge_core_cvu (u : Nat) (f : FlowAge → FlowAge) : (modAge s u f).core.cvu = s.core.cvu := rfl
@[simp] theorem modAge_core_gng (u : Nat) (f : FlowAge → FlowAge) : (modAge s u f).core.gng = s.core.gng := rfl

@[simp] theorem modFsw_aon (u : Nat) (f : FswSt → FswSt) : (modFsw s u f).aon = s.aon := rfl
@[simp] theorem modFsw_hold (u : Nat) (f : FswSt → FswSt) : (modFsw s u f).hold = s.hold := rfl
@[simp] theorem modFsw_flash (u : Nat) (f : FswSt → FswSt) : (modFsw s u f).flash = s.flash := rfl
@[simp] theorem modFsw_pending (u : Nat) (f : FswSt → FswSt) : (modFsw s u f).pending = s.pending := rfl
@[simp] theorem modFsw_freeCtr (u : Nat) (f : FswSt → FswSt) : (modFsw s u f).freeCtr = s.freeCtr := rfl
@[simp] theorem modFsw_core_regs (u : Nat) (f : FswSt → FswSt) : (modFsw s u f).core.regs = s.core.regs := rfl
@[simp] theorem modFsw_core_parity (u : Nat) (f : FswSt → FswSt) : (modFsw s u f).core.parity = s.core.parity := rfl
@[simp] theorem modFsw_core_course (u : Nat) (f : FswSt → FswSt) : (modFsw s u f).core.course = s.core.course := rfl
@[simp] theorem modFsw_core_capo (u : Nat) (f : FswSt → FswSt) : (modFsw s u f).core.capo = s.core.capo := rfl
@[simp] theorem modFsw_core_dev (u : Nat) (f : FswSt → FswSt) : (modFsw s u f).core.dev = s.core.dev := rfl
@[simp] theorem modFsw_core_ports (u : Nat) (f : FswSt → FswSt) : (modFsw s u f).core.ports = s.core.ports := rfl
@[simp] theorem modFsw_core_part (u : Nat) (f : FswSt → FswSt) : (modFsw s u f).core.part = s.core.part := rfl
@[simp] theorem modFsw_core_mbxs (u : Nat) (f : FswSt → FswSt) : (modFsw s u f).core.mbxs = s.core.mbxs := rfl
@[simp] theorem modFsw_core_irq (u : Nat) (f : FswSt → FswSt) : (modFsw s u f).core.irq = s.core.irq := rfl
@[simp] theorem modFsw_core_buf (u : Nat) (f : FswSt → FswSt) : (modFsw s u f).core.buf = s.core.buf := rfl
@[simp] theorem modFsw_core_pwr (u : Nat) (f : FswSt → FswSt) : (modFsw s u f).core.pwr = s.core.pwr := rfl
@[simp] theorem modFsw_core_seq (u : Nat) (f : FswSt → FswSt) : (modFsw s u f).core.seq = s.core.seq := rfl
@[simp] theorem modFsw_core_thm (u : Nat) (f : FswSt → FswSt) : (modFsw s u f).core.thm = s.core.thm := rfl
@[simp] theorem modFsw_core_flw (u : Nat) (f : FswSt → FswSt) : (modFsw s u f).core.flw = { s.core.flw with fsw := upd s.core.flw.fsw u f } := rfl
@[simp] theorem modFsw_core_key (u : Nat) (f : FswSt → FswSt) : (modFsw s u f).core.key = s.core.key := rfl
@[simp] theorem modFsw_core_epd (u : Nat) (f : FswSt → FswSt) : (modFsw s u f).core.epd = s.core.epd := rfl
@[simp] theorem modFsw_core_pix (u : Nat) (f : FswSt → FswSt) : (modFsw s u f).core.pix = s.core.pix := rfl
@[simp] theorem modFsw_core_efl (u : Nat) (f : FswSt → FswSt) : (modFsw s u f).core.efl = s.core.efl := rfl
@[simp] theorem modFsw_core_nfc (u : Nat) (f : FswSt → FswSt) : (modFsw s u f).core.nfc = s.core.nfc := rfl
@[simp] theorem modFsw_core_cvu (u : Nat) (f : FswSt → FswSt) : (modFsw s u f).core.cvu = s.core.cvu := rfl
@[simp] theorem modFsw_core_gng (u : Nat) (f : FswSt → FswSt) : (modFsw s u f).core.gng = s.core.gng := rfl

@[simp] theorem modCh_aon (u : Nat) (f : EflChan → EflChan) : (modCh s u f).aon = s.aon := rfl
@[simp] theorem modCh_hold (u : Nat) (f : EflChan → EflChan) : (modCh s u f).hold = s.hold := rfl
@[simp] theorem modCh_flash (u : Nat) (f : EflChan → EflChan) : (modCh s u f).flash = s.flash := rfl
@[simp] theorem modCh_pending (u : Nat) (f : EflChan → EflChan) : (modCh s u f).pending = s.pending := rfl
@[simp] theorem modCh_freeCtr (u : Nat) (f : EflChan → EflChan) : (modCh s u f).freeCtr = s.freeCtr := rfl
@[simp] theorem modCh_core_regs (u : Nat) (f : EflChan → EflChan) : (modCh s u f).core.regs = s.core.regs := rfl
@[simp] theorem modCh_core_parity (u : Nat) (f : EflChan → EflChan) : (modCh s u f).core.parity = s.core.parity := rfl
@[simp] theorem modCh_core_course (u : Nat) (f : EflChan → EflChan) : (modCh s u f).core.course = s.core.course := rfl
@[simp] theorem modCh_core_capo (u : Nat) (f : EflChan → EflChan) : (modCh s u f).core.capo = s.core.capo := rfl
@[simp] theorem modCh_core_dev (u : Nat) (f : EflChan → EflChan) : (modCh s u f).core.dev = s.core.dev := rfl
@[simp] theorem modCh_core_ports (u : Nat) (f : EflChan → EflChan) : (modCh s u f).core.ports = s.core.ports := rfl
@[simp] theorem modCh_core_part (u : Nat) (f : EflChan → EflChan) : (modCh s u f).core.part = s.core.part := rfl
@[simp] theorem modCh_core_mbxs (u : Nat) (f : EflChan → EflChan) : (modCh s u f).core.mbxs = s.core.mbxs := rfl
@[simp] theorem modCh_core_irq (u : Nat) (f : EflChan → EflChan) : (modCh s u f).core.irq = s.core.irq := rfl
@[simp] theorem modCh_core_buf (u : Nat) (f : EflChan → EflChan) : (modCh s u f).core.buf = s.core.buf := rfl
@[simp] theorem modCh_core_pwr (u : Nat) (f : EflChan → EflChan) : (modCh s u f).core.pwr = s.core.pwr := rfl
@[simp] theorem modCh_core_seq (u : Nat) (f : EflChan → EflChan) : (modCh s u f).core.seq = s.core.seq := rfl
@[simp] theorem modCh_core_thm (u : Nat) (f : EflChan → EflChan) : (modCh s u f).core.thm = s.core.thm := rfl
@[simp] theorem modCh_core_flw (u : Nat) (f : EflChan → EflChan) : (modCh s u f).core.flw = s.core.flw := rfl
@[simp] theorem modCh_core_key (u : Nat) (f : EflChan → EflChan) : (modCh s u f).core.key = s.core.key := rfl
@[simp] theorem modCh_core_epd (u : Nat) (f : EflChan → EflChan) : (modCh s u f).core.epd = s.core.epd := rfl
@[simp] theorem modCh_core_pix (u : Nat) (f : EflChan → EflChan) : (modCh s u f).core.pix = s.core.pix := rfl
@[simp] theorem modCh_core_efl (u : Nat) (f : EflChan → EflChan) : (modCh s u f).core.efl = { s.core.efl with chans := upd s.core.efl.chans u f } := rfl
@[simp] theorem modCh_core_nfc (u : Nat) (f : EflChan → EflChan) : (modCh s u f).core.nfc = s.core.nfc := rfl
@[simp] theorem modCh_core_cvu (u : Nat) (f : EflChan → EflChan) : (modCh s u f).core.cvu = s.core.cvu := rfl
@[simp] theorem modCh_core_gng (u : Nat) (f : EflChan → EflChan) : (modCh s u f).core.gng = s.core.gng := rfl

@[simp] theorem modBank_aon (u : Nat) (f : EflBank → EflBank) : (modBank s u f).aon = s.aon := rfl
@[simp] theorem modBank_hold (u : Nat) (f : EflBank → EflBank) : (modBank s u f).hold = s.hold := rfl
@[simp] theorem modBank_flash (u : Nat) (f : EflBank → EflBank) : (modBank s u f).flash = s.flash := rfl
@[simp] theorem modBank_pending (u : Nat) (f : EflBank → EflBank) : (modBank s u f).pending = s.pending := rfl
@[simp] theorem modBank_freeCtr (u : Nat) (f : EflBank → EflBank) : (modBank s u f).freeCtr = s.freeCtr := rfl
@[simp] theorem modBank_core_regs (u : Nat) (f : EflBank → EflBank) : (modBank s u f).core.regs = s.core.regs := rfl
@[simp] theorem modBank_core_parity (u : Nat) (f : EflBank → EflBank) : (modBank s u f).core.parity = s.core.parity := rfl
@[simp] theorem modBank_core_course (u : Nat) (f : EflBank → EflBank) : (modBank s u f).core.course = s.core.course := rfl
@[simp] theorem modBank_core_capo (u : Nat) (f : EflBank → EflBank) : (modBank s u f).core.capo = s.core.capo := rfl
@[simp] theorem modBank_core_dev (u : Nat) (f : EflBank → EflBank) : (modBank s u f).core.dev = s.core.dev := rfl
@[simp] theorem modBank_core_ports (u : Nat) (f : EflBank → EflBank) : (modBank s u f).core.ports = s.core.ports := rfl
@[simp] theorem modBank_core_part (u : Nat) (f : EflBank → EflBank) : (modBank s u f).core.part = s.core.part := rfl
@[simp] theorem modBank_core_mbxs (u : Nat) (f : EflBank → EflBank) : (modBank s u f).core.mbxs = s.core.mbxs := rfl
@[simp] theorem modBank_core_irq (u : Nat) (f : EflBank → EflBank) : (modBank s u f).core.irq = s.core.irq := rfl
@[simp] theorem modBank_core_buf (u : Nat) (f : EflBank → EflBank) : (modBank s u f).core.buf = s.core.buf := rfl
@[simp] theorem modBank_core_pwr (u : Nat) (f : EflBank → EflBank) : (modBank s u f).core.pwr = s.core.pwr := rfl
@[simp] theorem modBank_core_seq (u : Nat) (f : EflBank → EflBank) : (modBank s u f).core.seq = s.core.seq := rfl
@[simp] theorem modBank_core_thm (u : Nat) (f : EflBank → EflBank) : (modBank s u f).core.thm = s.core.thm := rfl
@[simp] theorem modBank_core_flw (u : Nat) (f : EflBank → EflBank) : (modBank s u f).core.flw = s.core.flw := rfl
@[simp] theorem modBank_core_key (u : Nat) (f : EflBank → EflBank) : (modBank s u f).core.key = s.core.key := rfl
@[simp] theorem modBank_core_epd (u : Nat) (f : EflBank → EflBank) : (modBank s u f).core.epd = s.core.epd := rfl
@[simp] theorem modBank_core_pix (u : Nat) (f : EflBank → EflBank) : (modBank s u f).core.pix = s.core.pix := rfl
@[simp] theorem modBank_core_efl (u : Nat) (f : EflBank → EflBank) : (modBank s u f).core.efl = { s.core.efl with banks := upd s.core.efl.banks u f } := rfl
@[simp] theorem modBank_core_nfc (u : Nat) (f : EflBank → EflBank) : (modBank s u f).core.nfc = s.core.nfc := rfl
@[simp] theorem modBank_core_cvu (u : Nat) (f : EflBank → EflBank) : (modBank s u f).core.cvu = s.core.cvu := rfl
@[simp] theorem modBank_core_gng (u : Nat) (f : EflBank → EflBank) : (modBank s u f).core.gng = s.core.gng := rfl

@[simp] theorem modLog_aon (f : LogSt → LogSt) : (modLog s f).aon = s.aon := rfl
@[simp] theorem modLog_hold (f : LogSt → LogSt) : (modLog s f).hold = s.hold := rfl
@[simp] theorem modLog_flash (f : LogSt → LogSt) : (modLog s f).flash = s.flash := rfl
@[simp] theorem modLog_pending (f : LogSt → LogSt) : (modLog s f).pending = s.pending := rfl
@[simp] theorem modLog_freeCtr (f : LogSt → LogSt) : (modLog s f).freeCtr = s.freeCtr := rfl
@[simp] theorem modLog_core_regs (f : LogSt → LogSt) : (modLog s f).core.regs = s.core.regs := rfl
@[simp] theorem modLog_core_parity (f : LogSt → LogSt) : (modLog s f).core.parity = s.core.parity := rfl
@[simp] theorem modLog_core_course (f : LogSt → LogSt) : (modLog s f).core.course = s.core.course := rfl
@[simp] theorem modLog_core_capo (f : LogSt → LogSt) : (modLog s f).core.capo = s.core.capo := rfl
@[simp] theorem modLog_core_dev (f : LogSt → LogSt) : (modLog s f).core.dev = s.core.dev := rfl
@[simp] theorem modLog_core_ports (f : LogSt → LogSt) : (modLog s f).core.ports = s.core.ports := rfl
@[simp] theorem modLog_core_part (f : LogSt → LogSt) : (modLog s f).core.part = s.core.part := rfl
@[simp] theorem modLog_core_mbxs (f : LogSt → LogSt) : (modLog s f).core.mbxs = s.core.mbxs := rfl
@[simp] theorem modLog_core_irq (f : LogSt → LogSt) : (modLog s f).core.irq = s.core.irq := rfl
@[simp] theorem modLog_core_buf (f : LogSt → LogSt) : (modLog s f).core.buf = s.core.buf := rfl
@[simp] theorem modLog_core_pwr (f : LogSt → LogSt) : (modLog s f).core.pwr = s.core.pwr := rfl
@[simp] theorem modLog_core_seq (f : LogSt → LogSt) : (modLog s f).core.seq = s.core.seq := rfl
@[simp] theorem modLog_core_thm (f : LogSt → LogSt) : (modLog s f).core.thm = s.core.thm := rfl
@[simp] theorem modLog_core_flw (f : LogSt → LogSt) : (modLog s f).core.flw = s.core.flw := rfl
@[simp] theorem modLog_core_key (f : LogSt → LogSt) : (modLog s f).core.key = s.core.key := rfl
@[simp] theorem modLog_core_epd (f : LogSt → LogSt) : (modLog s f).core.epd = s.core.epd := rfl
@[simp] theorem modLog_core_pix (f : LogSt → LogSt) : (modLog s f).core.pix = s.core.pix := rfl
@[simp] theorem modLog_core_efl (f : LogSt → LogSt) : (modLog s f).core.efl = { s.core.efl with log := f s.core.efl.log } := rfl
@[simp] theorem modLog_core_nfc (f : LogSt → LogSt) : (modLog s f).core.nfc = s.core.nfc := rfl
@[simp] theorem modLog_core_cvu (f : LogSt → LogSt) : (modLog s f).core.cvu = s.core.cvu := rfl
@[simp] theorem modLog_core_gng (f : LogSt → LogSt) : (modLog s f).core.gng = s.core.gng := rfl

@[simp] theorem modMem_aon (u : Nat) (f : MemSt → MemSt) : (modMem s u f).aon = s.aon := rfl
@[simp] theorem modMem_hold (u : Nat) (f : MemSt → MemSt) : (modMem s u f).hold = s.hold := rfl
@[simp] theorem modMem_flash (u : Nat) (f : MemSt → MemSt) : (modMem s u f).flash = s.flash := rfl
@[simp] theorem modMem_pending (u : Nat) (f : MemSt → MemSt) : (modMem s u f).pending = s.pending := rfl
@[simp] theorem modMem_freeCtr (u : Nat) (f : MemSt → MemSt) : (modMem s u f).freeCtr = s.freeCtr := rfl
@[simp] theorem modMem_core_regs (u : Nat) (f : MemSt → MemSt) : (modMem s u f).core.regs = s.core.regs := rfl
@[simp] theorem modMem_core_parity (u : Nat) (f : MemSt → MemSt) : (modMem s u f).core.parity = s.core.parity := rfl
@[simp] theorem modMem_core_course (u : Nat) (f : MemSt → MemSt) : (modMem s u f).core.course = s.core.course := rfl
@[simp] theorem modMem_core_capo (u : Nat) (f : MemSt → MemSt) : (modMem s u f).core.capo = s.core.capo := rfl
@[simp] theorem modMem_core_dev (u : Nat) (f : MemSt → MemSt) : (modMem s u f).core.dev = s.core.dev := rfl
@[simp] theorem modMem_core_ports (u : Nat) (f : MemSt → MemSt) : (modMem s u f).core.ports = s.core.ports := rfl
@[simp] theorem modMem_core_part (u : Nat) (f : MemSt → MemSt) : (modMem s u f).core.part = s.core.part := rfl
@[simp] theorem modMem_core_mbxs (u : Nat) (f : MemSt → MemSt) : (modMem s u f).core.mbxs = s.core.mbxs := rfl
@[simp] theorem modMem_core_irq (u : Nat) (f : MemSt → MemSt) : (modMem s u f).core.irq = s.core.irq := rfl
@[simp] theorem modMem_core_buf (u : Nat) (f : MemSt → MemSt) : (modMem s u f).core.buf = s.core.buf := rfl
@[simp] theorem modMem_core_pwr (u : Nat) (f : MemSt → MemSt) : (modMem s u f).core.pwr = s.core.pwr := rfl
@[simp] theorem modMem_core_seq (u : Nat) (f : MemSt → MemSt) : (modMem s u f).core.seq = s.core.seq := rfl
@[simp] theorem modMem_core_thm (u : Nat) (f : MemSt → MemSt) : (modMem s u f).core.thm = s.core.thm := rfl
@[simp] theorem modMem_core_flw (u : Nat) (f : MemSt → MemSt) : (modMem s u f).core.flw = s.core.flw := rfl
@[simp] theorem modMem_core_key (u : Nat) (f : MemSt → MemSt) : (modMem s u f).core.key = s.core.key := rfl
@[simp] theorem modMem_core_epd (u : Nat) (f : MemSt → MemSt) : (modMem s u f).core.epd = s.core.epd := rfl
@[simp] theorem modMem_core_pix (u : Nat) (f : MemSt → MemSt) : (modMem s u f).core.pix = s.core.pix := rfl
@[simp] theorem modMem_core_efl (u : Nat) (f : MemSt → MemSt) : (modMem s u f).core.efl = s.core.efl := rfl
@[simp] theorem modMem_core_nfc (u : Nat) (f : MemSt → MemSt) : (modMem s u f).core.nfc = s.core.nfc := rfl
@[simp] theorem modMem_core_cvu (u : Nat) (f : MemSt → MemSt) : (modMem s u f).core.cvu = s.core.cvu := rfl
@[simp] theorem modMem_core_gng (u : Nat) (f : MemSt → MemSt) : (modMem s u f).core.gng = { s.core.gng with mems := upd s.core.gng.mems u f } := rfl

@[simp] theorem modLun_aon (u : Nat) (f : NfcLun → NfcLun) : (modLun s u f).aon = s.aon := rfl
@[simp] theorem modLun_hold (u : Nat) (f : NfcLun → NfcLun) : (modLun s u f).hold = s.hold := rfl
@[simp] theorem modLun_flash (u : Nat) (f : NfcLun → NfcLun) : (modLun s u f).flash = s.flash := rfl
@[simp] theorem modLun_pending (u : Nat) (f : NfcLun → NfcLun) : (modLun s u f).pending = s.pending := rfl
@[simp] theorem modLun_freeCtr (u : Nat) (f : NfcLun → NfcLun) : (modLun s u f).freeCtr = s.freeCtr := rfl
@[simp] theorem modLun_core_regs (u : Nat) (f : NfcLun → NfcLun) : (modLun s u f).core.regs = s.core.regs := rfl
@[simp] theorem modLun_core_parity (u : Nat) (f : NfcLun → NfcLun) : (modLun s u f).core.parity = s.core.parity := rfl
@[simp] theorem modLun_core_course (u : Nat) (f : NfcLun → NfcLun) : (modLun s u f).core.course = s.core.course := rfl
@[simp] theorem modLun_core_capo (u : Nat) (f : NfcLun → NfcLun) : (modLun s u f).core.capo = s.core.capo := rfl
@[simp] theorem modLun_core_dev (u : Nat) (f : NfcLun → NfcLun) : (modLun s u f).core.dev = s.core.dev := rfl
@[simp] theorem modLun_core_ports (u : Nat) (f : NfcLun → NfcLun) : (modLun s u f).core.ports = s.core.ports := rfl
@[simp] theorem modLun_core_part (u : Nat) (f : NfcLun → NfcLun) : (modLun s u f).core.part = s.core.part := rfl
@[simp] theorem modLun_core_mbxs (u : Nat) (f : NfcLun → NfcLun) : (modLun s u f).core.mbxs = s.core.mbxs := rfl
@[simp] theorem modLun_core_irq (u : Nat) (f : NfcLun → NfcLun) : (modLun s u f).core.irq = s.core.irq := rfl
@[simp] theorem modLun_core_buf (u : Nat) (f : NfcLun → NfcLun) : (modLun s u f).core.buf = s.core.buf := rfl
@[simp] theorem modLun_core_pwr (u : Nat) (f : NfcLun → NfcLun) : (modLun s u f).core.pwr = s.core.pwr := rfl
@[simp] theorem modLun_core_seq (u : Nat) (f : NfcLun → NfcLun) : (modLun s u f).core.seq = s.core.seq := rfl
@[simp] theorem modLun_core_thm (u : Nat) (f : NfcLun → NfcLun) : (modLun s u f).core.thm = s.core.thm := rfl
@[simp] theorem modLun_core_flw (u : Nat) (f : NfcLun → NfcLun) : (modLun s u f).core.flw = s.core.flw := rfl
@[simp] theorem modLun_core_key (u : Nat) (f : NfcLun → NfcLun) : (modLun s u f).core.key = s.core.key := rfl
@[simp] theorem modLun_core_epd (u : Nat) (f : NfcLun → NfcLun) : (modLun s u f).core.epd = s.core.epd := rfl
@[simp] theorem modLun_core_pix (u : Nat) (f : NfcLun → NfcLun) : (modLun s u f).core.pix = s.core.pix := rfl
@[simp] theorem modLun_core_efl (u : Nat) (f : NfcLun → NfcLun) : (modLun s u f).core.efl = s.core.efl := rfl
@[simp] theorem modLun_core_nfc (u : Nat) (f : NfcLun → NfcLun) : (modLun s u f).core.nfc = { s.core.nfc with luns := upd s.core.nfc.luns u f } := rfl
@[simp] theorem modLun_core_cvu (u : Nat) (f : NfcLun → NfcLun) : (modLun s u f).core.cvu = s.core.cvu := rfl
@[simp] theorem modLun_core_gng (u : Nat) (f : NfcLun → NfcLun) : (modLun s u f).core.gng = s.core.gng := rfl

@[simp] theorem modChan_aon (u : Nat) (f : NfcChan → NfcChan) : (modChan s u f).aon = s.aon := rfl
@[simp] theorem modChan_hold (u : Nat) (f : NfcChan → NfcChan) : (modChan s u f).hold = s.hold := rfl
@[simp] theorem modChan_flash (u : Nat) (f : NfcChan → NfcChan) : (modChan s u f).flash = s.flash := rfl
@[simp] theorem modChan_pending (u : Nat) (f : NfcChan → NfcChan) : (modChan s u f).pending = s.pending := rfl
@[simp] theorem modChan_freeCtr (u : Nat) (f : NfcChan → NfcChan) : (modChan s u f).freeCtr = s.freeCtr := rfl
@[simp] theorem modChan_core_regs (u : Nat) (f : NfcChan → NfcChan) : (modChan s u f).core.regs = s.core.regs := rfl
@[simp] theorem modChan_core_parity (u : Nat) (f : NfcChan → NfcChan) : (modChan s u f).core.parity = s.core.parity := rfl
@[simp] theorem modChan_core_course (u : Nat) (f : NfcChan → NfcChan) : (modChan s u f).core.course = s.core.course := rfl
@[simp] theorem modChan_core_capo (u : Nat) (f : NfcChan → NfcChan) : (modChan s u f).core.capo = s.core.capo := rfl
@[simp] theorem modChan_core_dev (u : Nat) (f : NfcChan → NfcChan) : (modChan s u f).core.dev = s.core.dev := rfl
@[simp] theorem modChan_core_ports (u : Nat) (f : NfcChan → NfcChan) : (modChan s u f).core.ports = s.core.ports := rfl
@[simp] theorem modChan_core_part (u : Nat) (f : NfcChan → NfcChan) : (modChan s u f).core.part = s.core.part := rfl
@[simp] theorem modChan_core_mbxs (u : Nat) (f : NfcChan → NfcChan) : (modChan s u f).core.mbxs = s.core.mbxs := rfl
@[simp] theorem modChan_core_irq (u : Nat) (f : NfcChan → NfcChan) : (modChan s u f).core.irq = s.core.irq := rfl
@[simp] theorem modChan_core_buf (u : Nat) (f : NfcChan → NfcChan) : (modChan s u f).core.buf = s.core.buf := rfl
@[simp] theorem modChan_core_pwr (u : Nat) (f : NfcChan → NfcChan) : (modChan s u f).core.pwr = s.core.pwr := rfl
@[simp] theorem modChan_core_seq (u : Nat) (f : NfcChan → NfcChan) : (modChan s u f).core.seq = s.core.seq := rfl
@[simp] theorem modChan_core_thm (u : Nat) (f : NfcChan → NfcChan) : (modChan s u f).core.thm = s.core.thm := rfl
@[simp] theorem modChan_core_flw (u : Nat) (f : NfcChan → NfcChan) : (modChan s u f).core.flw = s.core.flw := rfl
@[simp] theorem modChan_core_key (u : Nat) (f : NfcChan → NfcChan) : (modChan s u f).core.key = s.core.key := rfl
@[simp] theorem modChan_core_epd (u : Nat) (f : NfcChan → NfcChan) : (modChan s u f).core.epd = s.core.epd := rfl
@[simp] theorem modChan_core_pix (u : Nat) (f : NfcChan → NfcChan) : (modChan s u f).core.pix = s.core.pix := rfl
@[simp] theorem modChan_core_efl (u : Nat) (f : NfcChan → NfcChan) : (modChan s u f).core.efl = s.core.efl := rfl
@[simp] theorem modChan_core_nfc (u : Nat) (f : NfcChan → NfcChan) : (modChan s u f).core.nfc = { s.core.nfc with chans := upd s.core.nfc.chans u f } := rfl
@[simp] theorem modChan_core_cvu (u : Nat) (f : NfcChan → NfcChan) : (modChan s u f).core.cvu = s.core.cvu := rfl
@[simp] theorem modChan_core_gng (u : Nat) (f : NfcChan → NfcChan) : (modChan s u f).core.gng = s.core.gng := rfl

@[simp] theorem modWin_aon (u : Nat) (f : NfcWin → NfcWin) : (modWin s u f).aon = s.aon := rfl
@[simp] theorem modWin_hold (u : Nat) (f : NfcWin → NfcWin) : (modWin s u f).hold = s.hold := rfl
@[simp] theorem modWin_flash (u : Nat) (f : NfcWin → NfcWin) : (modWin s u f).flash = s.flash := rfl
@[simp] theorem modWin_pending (u : Nat) (f : NfcWin → NfcWin) : (modWin s u f).pending = s.pending := rfl
@[simp] theorem modWin_freeCtr (u : Nat) (f : NfcWin → NfcWin) : (modWin s u f).freeCtr = s.freeCtr := rfl
@[simp] theorem modWin_core_regs (u : Nat) (f : NfcWin → NfcWin) : (modWin s u f).core.regs = s.core.regs := rfl
@[simp] theorem modWin_core_parity (u : Nat) (f : NfcWin → NfcWin) : (modWin s u f).core.parity = s.core.parity := rfl
@[simp] theorem modWin_core_course (u : Nat) (f : NfcWin → NfcWin) : (modWin s u f).core.course = s.core.course := rfl
@[simp] theorem modWin_core_capo (u : Nat) (f : NfcWin → NfcWin) : (modWin s u f).core.capo = s.core.capo := rfl
@[simp] theorem modWin_core_dev (u : Nat) (f : NfcWin → NfcWin) : (modWin s u f).core.dev = s.core.dev := rfl
@[simp] theorem modWin_core_ports (u : Nat) (f : NfcWin → NfcWin) : (modWin s u f).core.ports = s.core.ports := rfl
@[simp] theorem modWin_core_part (u : Nat) (f : NfcWin → NfcWin) : (modWin s u f).core.part = s.core.part := rfl
@[simp] theorem modWin_core_mbxs (u : Nat) (f : NfcWin → NfcWin) : (modWin s u f).core.mbxs = s.core.mbxs := rfl
@[simp] theorem modWin_core_irq (u : Nat) (f : NfcWin → NfcWin) : (modWin s u f).core.irq = s.core.irq := rfl
@[simp] theorem modWin_core_buf (u : Nat) (f : NfcWin → NfcWin) : (modWin s u f).core.buf = s.core.buf := rfl
@[simp] theorem modWin_core_pwr (u : Nat) (f : NfcWin → NfcWin) : (modWin s u f).core.pwr = s.core.pwr := rfl
@[simp] theorem modWin_core_seq (u : Nat) (f : NfcWin → NfcWin) : (modWin s u f).core.seq = s.core.seq := rfl
@[simp] theorem modWin_core_thm (u : Nat) (f : NfcWin → NfcWin) : (modWin s u f).core.thm = s.core.thm := rfl
@[simp] theorem modWin_core_flw (u : Nat) (f : NfcWin → NfcWin) : (modWin s u f).core.flw = s.core.flw := rfl
@[simp] theorem modWin_core_key (u : Nat) (f : NfcWin → NfcWin) : (modWin s u f).core.key = s.core.key := rfl
@[simp] theorem modWin_core_epd (u : Nat) (f : NfcWin → NfcWin) : (modWin s u f).core.epd = s.core.epd := rfl
@[simp] theorem modWin_core_pix (u : Nat) (f : NfcWin → NfcWin) : (modWin s u f).core.pix = s.core.pix := rfl
@[simp] theorem modWin_core_efl (u : Nat) (f : NfcWin → NfcWin) : (modWin s u f).core.efl = s.core.efl := rfl
@[simp] theorem modWin_core_nfc (u : Nat) (f : NfcWin → NfcWin) : (modWin s u f).core.nfc = { s.core.nfc with wins := upd s.core.nfc.wins u f } := rfl
@[simp] theorem modWin_core_cvu (u : Nat) (f : NfcWin → NfcWin) : (modWin s u f).core.cvu = s.core.cvu := rfl
@[simp] theorem modWin_core_gng (u : Nat) (f : NfcWin → NfcWin) : (modWin s u f).core.gng = s.core.gng := rfl

@[simp] theorem modWdog_aon (u : Nat) (f : WdogSt → WdogSt) : (modWdog s u f).aon = s.aon := rfl
@[simp] theorem modWdog_hold (u : Nat) (f : WdogSt → WdogSt) : (modWdog s u f).hold = s.hold := rfl
@[simp] theorem modWdog_flash (u : Nat) (f : WdogSt → WdogSt) : (modWdog s u f).flash = s.flash := rfl
@[simp] theorem modWdog_pending (u : Nat) (f : WdogSt → WdogSt) : (modWdog s u f).pending = s.pending := rfl
@[simp] theorem modWdog_freeCtr (u : Nat) (f : WdogSt → WdogSt) : (modWdog s u f).freeCtr = s.freeCtr := rfl
@[simp] theorem modWdog_core_regs (u : Nat) (f : WdogSt → WdogSt) : (modWdog s u f).core.regs = s.core.regs := rfl
@[simp] theorem modWdog_core_parity (u : Nat) (f : WdogSt → WdogSt) : (modWdog s u f).core.parity = s.core.parity := rfl
@[simp] theorem modWdog_core_course (u : Nat) (f : WdogSt → WdogSt) : (modWdog s u f).core.course = s.core.course := rfl
@[simp] theorem modWdog_core_capo (u : Nat) (f : WdogSt → WdogSt) : (modWdog s u f).core.capo = s.core.capo := rfl
@[simp] theorem modWdog_core_dev (u : Nat) (f : WdogSt → WdogSt) : (modWdog s u f).core.dev = s.core.dev := rfl
@[simp] theorem modWdog_core_ports (u : Nat) (f : WdogSt → WdogSt) : (modWdog s u f).core.ports = s.core.ports := rfl
@[simp] theorem modWdog_core_part (u : Nat) (f : WdogSt → WdogSt) : (modWdog s u f).core.part = { s.core.part with wdog := upd s.core.part.wdog u f } := rfl
@[simp] theorem modWdog_core_mbxs (u : Nat) (f : WdogSt → WdogSt) : (modWdog s u f).core.mbxs = s.core.mbxs := rfl
@[simp] theorem modWdog_core_irq (u : Nat) (f : WdogSt → WdogSt) : (modWdog s u f).core.irq = s.core.irq := rfl
@[simp] theorem modWdog_core_buf (u : Nat) (f : WdogSt → WdogSt) : (modWdog s u f).core.buf = s.core.buf := rfl
@[simp] theorem modWdog_core_pwr (u : Nat) (f : WdogSt → WdogSt) : (modWdog s u f).core.pwr = s.core.pwr := rfl
@[simp] theorem modWdog_core_seq (u : Nat) (f : WdogSt → WdogSt) : (modWdog s u f).core.seq = s.core.seq := rfl
@[simp] theorem modWdog_core_thm (u : Nat) (f : WdogSt → WdogSt) : (modWdog s u f).core.thm = s.core.thm := rfl
@[simp] theorem modWdog_core_flw (u : Nat) (f : WdogSt → WdogSt) : (modWdog s u f).core.flw = s.core.flw := rfl
@[simp] theorem modWdog_core_key (u : Nat) (f : WdogSt → WdogSt) : (modWdog s u f).core.key = s.core.key := rfl
@[simp] theorem modWdog_core_epd (u : Nat) (f : WdogSt → WdogSt) : (modWdog s u f).core.epd = s.core.epd := rfl
@[simp] theorem modWdog_core_pix (u : Nat) (f : WdogSt → WdogSt) : (modWdog s u f).core.pix = s.core.pix := rfl
@[simp] theorem modWdog_core_efl (u : Nat) (f : WdogSt → WdogSt) : (modWdog s u f).core.efl = s.core.efl := rfl
@[simp] theorem modWdog_core_nfc (u : Nat) (f : WdogSt → WdogSt) : (modWdog s u f).core.nfc = s.core.nfc := rfl
@[simp] theorem modWdog_core_cvu (u : Nat) (f : WdogSt → WdogSt) : (modWdog s u f).core.cvu = s.core.cvu := rfl
@[simp] theorem modWdog_core_gng (u : Nat) (f : WdogSt → WdogSt) : (modWdog s u f).core.gng = s.core.gng := rfl

/-- A stored register keeps every other part. -/
theorem setR_frame (a : Nat) (v : Word) : (setR s a v).aon = s.aon ∧ (setR s a v).hold = s.hold ∧ (setR s a v).flash = s.flash
    ∧ (setR s a v).pending = s.pending ∧ (setR s a v).core = { s.core with regs := sset regReset s.core.regs a v } :=
  ⟨rfl, rfl, rfl, rfl, rfl⟩

@[simp] theorem IrqSt.set_pend (q : IrqSt) (src : Nat) : (q.set src).pend = setBit q.pend src true := rfl
@[simp] theorem IrqSt.set_en (q : IrqSt) (src : Nat) : (q.set src).en = q.en := rfl
@[simp] theorem IrqSt.set_summary (q : IrqSt) (src : Nat) : (q.set src).summary = q.summary := rfl

/-- The pending bit, and the note that it occurred, are all that raising a source changes. -/
theorem raise_frame (p src : Nat) : (raise s p src).aon = s.aon ∧ (raise s p src).hold = s.hold ∧ (raise s p src).flash = s.flash
    ∧ (raise s p src).pending = s.pending
    ∧ (raise s p src).core = { s.core with irq := upd s.core.irq p (fun q => q.set src) } :=
  ⟨rfl, rfl, rfl, rfl, rfl⟩

/-- The end of an instant leaves the always-on domain, the medium and the queue. -/
@[simp] theorem settle_aon : (settle s).aon = s.aon := rfl
@[simp] theorem settle_hold : (settle s).hold = s.hold := rfl
@[simp] theorem settle_flash : (settle s).flash = s.flash := rfl
@[simp] theorem settle_pending : (settle s).pending = s.pending := rfl
@[simp] theorem settle_core_regs : (settle s).core.regs = s.core.regs := rfl
@[simp] theorem settle_core_parity : (settle s).core.parity = s.core.parity := rfl
@[simp] theorem settle_core_course : (settle s).core.course = s.core.course := rfl
@[simp] theorem settle_core_dev : (settle s).core.dev = s.core.dev := rfl
@[simp] theorem settle_core_part : (settle s).core.part = s.core.part := rfl
@[simp] theorem settle_core_mbxs : (settle s).core.mbxs = s.core.mbxs := rfl
@[simp] theorem settle_core_buf : (settle s).core.buf = s.core.buf := rfl
@[simp] theorem settle_core_seq : (settle s).core.seq = s.core.seq := rfl
@[simp] theorem settle_core_thm : (settle s).core.thm = s.core.thm := rfl
@[simp] theorem settle_core_flw : (settle s).core.flw = s.core.flw := rfl
@[simp] theorem settle_core_key : (settle s).core.key = s.core.key := rfl
@[simp] theorem settle_core_epd : (settle s).core.epd = s.core.epd := rfl
@[simp] theorem settle_core_pix : (settle s).core.pix = s.core.pix := rfl
@[simp] theorem settle_core_efl : (settle s).core.efl = s.core.efl := rfl
@[simp] theorem settle_core_nfc : (settle s).core.nfc = s.core.nfc := rfl
@[simp] theorem settle_core_cvu : (settle s).core.cvu = s.core.cvu := rfl

end Sys2Proof.Machine
end

