-- ==== Sys2Proof/Laws/Ops.lean ====
section
/-! SUPPORT. What each shared operation does, said once: bits, stored registers, buffer bytes, interrupt sources, the
instant of a command, the step. -/

namespace Sys2Proof.Machine

/-- A bit of a word, as core Lean reads it. -/
theorem bit_eq {w : Nat} (x : BitVec w) (i : Nat) : bit x i = x.getLsbD i := rfl

/-- The bits of a power of two. -/
theorem getLsbD_pow (w i j : Nat) : (BitVec.ofNat w (2 ^ i)).getLsbD j = (decide (j < w) && decide (i = j)) := by
  rw [BitVec.getLsbD_ofNat, Nat.testBit_two_pow]

/-- A bit that was set or cleared. -/
theorem bit_setBit_same {w : Nat} (x : BitVec w) (i : Nat) (b : Bool) (h : i < w) : bit (setBit x i b) i = b := by
  have e := getLsbD_pow w i i
  rw [bit_eq]
  unfold setBit
  generalize BitVec.ofNat w (2 ^ i) = m at e
  cases b <;> simp_all

/-- Every other bit. -/
theorem bit_setBit_ne {w : Nat} (x : BitVec w) (i j : Nat) (b : Bool) (h : j ≠ i) : bit (setBit x i b) j = bit x j := by
  have e := getLsbD_pow w i j
  have h' : i ≠ j := fun c => h c.symm
  rw [bit_eq, bit_eq]
  unfold setBit
  generalize BitVec.ofNat w (2 ^ i) = m at e
  by_cases hj : j < w
  · cases b <;> simp_all
  · cases b <;> simp [BitVec.getLsbD_of_ge, Nat.le_of_not_lt hj]

variable (s : State)

/-- The stored register that was set. -/
theorem rd_setR_same (a : Nat) (v : Word) (h : swf regReset s.core.regs = true) : rd (setR s a v) a = v :=
  sget_sset regReset s.core.regs a v h

/-- Every other stored register. -/
theorem rd_setR_ne (a b : Nat) (v : Word) (h : b ≠ a) : rd (setR s a v) b = rd s b :=
  sget_sset_ne regReset s.core.regs a b v h

/-- Setting a stored register keeps the store canonical. -/
theorem swf_setR (a : Nat) (v : Word) (h : swf regReset s.core.regs = true) : swf regReset (setR s a v).core.regs = true :=
  swf_sset regReset s.core.regs a v h

/-- The always-on register that was set. -/
theorem ard_setA_same (a : Nat) (v : Word) (h : swf regReset s.aon.regs = true) : ard (setA s a v) a = v :=
  sget_sset regReset s.aon.regs a v h

/-- Every other always-on register. -/
theorem ard_setA_ne (a b : Nat) (v : Word) (h : b ≠ a) : ard (setA s a v) b = ard s b :=
  sget_sset_ne regReset s.aon.regs a b v h

/-- Setting an always-on register keeps the store canonical. -/
theorem swf_setA (a : Nat) (v : Word) (h : swf regReset s.aon.regs = true) : swf regReset (setA s a v).aon.regs = true :=
  swf_sset regReset s.aon.regs a v h

/-- A stored byte outside the bytes written. -/
theorem bufByte_bufStore_out (a b : Nat) (bs : List Byte) (h : b < a ∨ a + bs.length ≤ b) :
    bufByte (bufStore s a bs) b = bufByte s b :=
  sget_ssetRun_out bufReset bs s.core.buf.mem a b h

/-- A stored byte among the bytes written. -/
theorem bufByte_bufStore_in (a i : Nat) (bs : List Byte) (h : i < bs.length) (hm : swf bufReset s.core.buf.mem = true) :
    bufByte (bufStore s a bs) (a + i) = bs.getD i (bufReset (a + i)) :=
  sget_ssetRun_in bufReset bs s.core.buf.mem a i hm h

/-- Storing bytes keeps the buffer space canonical. -/
theorem swf_bufStore (a : Nat) (bs : List Byte) (h : swf bufReset s.core.buf.mem = true) :
    swf bufReset (bufStore s a bs).core.buf.mem = true :=
  swf_ssetRun bufReset bs s.core.buf.mem a h

/-- Clearing a granule keeps the buffer space canonical. -/
theorem swf_granuleClear (g : Nat) (h : swf bufReset s.core.buf.mem = true) :
    swf bufReset (granuleClear s g).core.buf.mem = true :=
  swf_sclear bufReset s.core.buf.mem _ _ h

/-- Filling a granule keeps the buffer space and the guards canonical. -/
theorem swf_granuleFill (g : Nat) (bs : List Byte) (ok : Bool) (h : swf bufReset s.core.buf.mem = true)
    (hg : swf (fun _ => 0) s.core.buf.guards = true) :
    swf bufReset (granuleFill s g bs ok).core.buf.mem = true ∧ swf (fun _ => 0) (granuleFill s g bs ok).core.buf.guards = true :=
  ⟨swf_bufStore s _ bs h, swf_sset _ s.core.buf.guards g _ hg⟩

/-- Clearing a granule keeps the guards canonical. -/
theorem swf_granuleClear_guards (g : Nat) (hg : swf (fun _ => 0) s.core.buf.guards = true) :
    swf (fun _ => 0) (granuleClear s g).core.buf.guards = true :=
  swf_sset _ s.core.buf.guards g 0 hg

/-- Erasing rows keeps the setup flash canonical. -/
theorem swf_flashErase (lo hi : Nat) (h : swf flashErased s.flash.mem = true) (hm : swf (fun _ => 0xFFFF) s.flash.markers = true) :
    swf flashErased (flashErase s lo hi).flash.mem = true ∧ swf (fun _ => 0xFFFF) (flashErase s lo hi).flash.markers = true :=
  ⟨swf_sclear _ s.flash.mem _ _ h, swf_sclear _ s.flash.markers _ _ hm⟩

/-- Programming a row keeps the setup flash canonical. -/
theorem swf_flashProgramRow (row : Nat) (bs : List Byte) (h : swf flashErased s.flash.mem = true)
    (hm : swf (fun _ => 0xFFFF) s.flash.markers = true) :
    swf flashErased (flashProgramRow s row bs).flash.mem = true ∧
      swf (fun _ => 0xFFFF) (flashProgramRow s row bs).flash.markers = true :=
  ⟨swf_ssetRun _ bs s.flash.mem _ h, swf_sset _ s.flash.markers row _ hm⟩

/-- Setting a position keeps the matrix positions canonical. -/
theorem swf_setKey (pos : Nat) (k : KeySt) (h : swf (fun _ => {}) s.core.key.keys = true) :
    swf (fun _ => {}) (setKey s pos k).core.key.keys = true :=
  swf_sset _ s.core.key.keys pos k h

/-- A source raised in a partition is pending there. -/
theorem raise_pend (p src : Nat) (hp : p < s.core.irq.length) (hs : src < 64) :
    bit (nth (raise s p src).core.irq p {}).pend src = true := by
  have e : nth (raise s p src).core.irq p {} = (nth s.core.irq p {}).set src :=
    nth_upd_same s.core.irq p _ {} hp
  rw [e]
  exact bit_setBit_same _ _ _ hs

/-- Raising a source in one partition leaves every other. -/
theorem raise_other (p q src : Nat) (h : q ≠ p) : nth (raise s p src).core.irq q {} = nth s.core.irq q {} :=
  nth_upd_ne s.core.irq p q _ {} h

/-- A pending source stays pending when another is raised. -/
theorem raise_keeps_pend (p q src k : Nat) (hs : src < 64) (h : bit (nth s.core.irq q {}).pend k = true) :
    bit (nth (raise s p src).core.irq q {}).pend k = true := by
  by_cases hq : q = p
  · subst hq
    by_cases hp : q < s.core.irq.length
    · have e : nth (raise s q src).core.irq q {} = (nth s.core.irq q {}).set src :=
        nth_upd_same s.core.irq q _ {} hp
      rw [e]
      by_cases hk : k = src
      · subst hk; exact bit_setBit_same _ _ _ hs
      · show bit (setBit (nth s.core.irq q {}).pend src true) k = true
        rw [bit_setBit_ne _ _ _ _ hk]; exact h
    · have e : nth s.core.irq q {} = {} := by
        unfold nth; simp [List.getD, List.getElem?_eq_none (Nat.le_of_not_lt hp)]
      rw [e] at h
      simp [bit] at h
  · rw [raise_other s p q src hq]; exact h

/-- A source raised everywhere is pending in every partition. -/
theorem raiseAll_pend (src : Nat) (hs : src < 64) : ∀ q ∈ (raiseAll s src).core.irq, bit q.pend src = true := by
  intro q hq
  obtain ⟨x, -, rfl⟩ := List.mem_map.mp hq
  exact bit_setBit_same _ _ _ hs

/-- A command's instant always answers a next state: its effect, settled. -/
@[simp] theorem instant_eq (f : State → State) : instant f s = .next (settle (f s)) := rfl

/-- A command of the core where the core runs. -/
theorem whenCore_up (f : State → State) (h : coreUp s = true) : whenCore f s = f s := by simp [whenCore, h]

/-- A command of the core where the core does not run. -/
theorem whenCore_down (f : State → State) (h : coreUp s = false) : whenCore f s = s := by simp [whenCore, h]

/-- The step on an empty queue. -/
theorem step_idle (h : s.pending = []) : step s = .next (settle (tickOp s)) := by simp [step, h]

/-- The step on a command. -/
theorem step_command (c : Instr) (rest : List Instr) (h : s.pending = c :: rest) :
    step s = exec c { s with pending := rest } := by simp [step, h]

/-- Every command answers a next state at the end of its instant: none faults, none refuses. -/
theorem exec_settles (c : Instr) : ∃ t : State, exec c s = .next (settle t) := by
  cases c <;> exact ⟨_, rfl⟩

end Sys2Proof.Machine
end

