-- ==== Sys2Proof/Tests/Slice0.lean ====
section
/-! SUPPORT. The model's own tests: worked examples of the spec, a well-formedness smoke test, and for each obligation a
witness that its hypotheses can be met. Expected values come from the spec's examples, or by hand from its tables. -/

set_option Elab.async false

namespace Sys2Proof.Tests

open Sys2Proof.Machine

/-- The next state that a command answers; the tests name the commands that answer one. -/
def after (c : Instr) (s : State) : State :=
  match exec c s with
  | .next t => t
  | _ => s

/-- The state after a list of commands, in order. -/
def run (cs : List Instr) (s : State) : State := cs.foldl (fun s c => after c s) s

/-- A sound WR frame of consecutive words. -/
def wrFrame (p : Part) (seq : Byte) (a : Nat) (ws : List Word) : Instr :=
  .wr (sound p ([0x02, seq, BitVec.ofNat 8 (a / 256), BitVec.ofNat 8 a, BitVec.ofNat 8 (ws.length - 1)] ++ (ws.map beBytes).flatten))

/-- The state after reset with words in force. -/
def withRegs (rs : List (Nat × Word)) (s : State) : State := rs.foldl (fun s r => setR s r.1 r.2) s

/-- A gang of two with this member at ID 0. -/
def ganged : State :=
  modG (withRegs [(0x2400, 0x00000A31)] State.reset) (fun g => { g with
    mems := upd g.mems 1 (fun m => { m with status := 1, vote := 3 }), formed := true, keystone := some 0, state := 2, selfOn := true })

/-! Smoke test of the well-formedness checks: an ill-formed command for each, beside a well-formed one. -/

/-- A descriptor whose first word is w0. -/
def descOf (w0 : Word) : Desc := ⟨w0 :: List.replicate 7 0⟩

theorem test_wf_frame_of_its_row : (Instr.rd (sound 0 [0x01, 0x00, 0x00, 0x00, 0x00])).wf = true := by decide
theorem test_wf_frame_without_edges : (Instr.nop { port := 1, bytes := [], noEdges := true }).wf = true := by decide
theorem test_wf_refuses_another_opcode : (Instr.rd (sound 0 [0x02, 0x00, 0x00, 0x00, 0x00])).wf = false := by decide
theorem test_wf_unknown_opcode_is_a_nop_frame : (Instr.nop (sound 0 [0x77, 0x00])).wf = true := by decide
theorem test_wf_refuses_a_begun_byte_without_edges : (Instr.nop { port := 2, bytes := [], partialByte := true, noEdges := true }).wf = false := by
  decide
theorem test_wf_refuses_bytes_without_edges : (Instr.nop { port := 0, bytes := [0x00], noEdges := true }).wf = false := by
  decide
theorem test_wf_refuses_a_register_with_its_own_row : (Instr.registerWrite 0 0 0x0050 0).wf = false := by decide
theorem test_wf_register_write : (Instr.registerWrite 0 0 0x0053 0).wf = true := by decide
theorem test_wf_refuses_a_kick_that_releases : (Instr.wdogKick 0 0 0 0x13C).wf = false := by decide
theorem test_wf_refuses_a_release_that_only_kicks : (Instr.flowRelease 0 0 0 0x03C).wf = false := by decide
theorem test_wf_refuses_an_empty_quota_frame : (Instr.quotaChange 0 0 []).wf = false := by decide
theorem test_wf_refuses_falling_quotas : (Instr.quotaChange 0 0 [(2, 0), (1, 0)]).wf = false := by decide
theorem test_wf_quota_frame : (Instr.quotaChange 0 0 [(1, 0), (2, 0)]).wf = true := by decide
theorem test_wf_refuses_five_monitors : (Instr.sequencerStep 0 [0, 0, 0, 0, 0]).wf = false := by decide
theorem test_wf_refuses_seven_sensors : (Instr.thmSample [0, 0, 0, 0, 0, 0, 0] 250).wf = false := by decide
theorem test_wf_refuses_position_160 : (Instr.keyStuck 160).wf = false := by decide
theorem test_wf_refuses_a_lock_that_unlocks : (Instr.keyLock 0 0 3).wf = false := by decide
theorem test_wf_refuses_an_unlock_that_locks : (Instr.keyUnlock 0 0 1).wf = false := by decide
theorem test_wf_refuses_three_banks : (Instr.coreStart { encA := 0, encB := 0, mainMv := 3300, bakMv := 3000, vccqMv := [1800, 1800, 1800], smonUv := [0, 0, 0, 0, 0, 0] }).wf = false := by decide
theorem test_wf_refuses_four_rail_voltages : (Instr.railUpPhaseEnd [20000, -19200, -10000, 10000]).wf = false := by decide
theorem test_wf_refuses_another_descriptor : (Instr.nandRead 0 0 (descOf 2)).wf = false := by decide
theorem test_wf_refuses_a_short_descriptor : (Instr.raw 0 0 ⟨[15]⟩).wf = false := by decide
theorem test_wf_descriptors :
    (Instr.nandRead 0 0 (descOf 1)).wf = true ∧ (Instr.nandProgram 0 0 (descOf 2)).wf = true ∧
    (Instr.nandErase 0 0 (descOf 3)).wf = true ∧ (Instr.copy 0 0 (descOf 4)).wf = true ∧
    (Instr.verify 0 0 (descOf 5)).wf = true ∧ (Instr.status 0 0 (descOf 6)).wf = true ∧
    (Instr.resetLun 0 0 (descOf 7)).wf = true ∧ (Instr.raw 0 0 (descOf 15)).wf = true := by decide
theorem test_wf_refuses_a_clear_of_zero : (Instr.nfcCntclr 0 0 0).wf = false := by decide
theorem test_wf_refuses_a_warning_clear_that_clears_counts : (Instr.warnclr 0 0 3).wf = false := by decide
theorem test_wf_refuses_no_feed : (Instr.cvuFeed 0 0 1 []).wf = false := by decide
theorem test_wf_refuses_three_feeds : (Instr.cvuFeed 0 0 1 [0, 0, 0]).wf = false := by decide

-- The check sequences of 02 R57, R68: "123456789" without the address byte, and its PEC.
theorem test_crc16_check : crc16 [0x31, 0x32, 0x33, 0x34, 0x35, 0x36, 0x37, 0x38, 0x39] = 0x29B1 := by decide +kernel
theorem test_pec_check : crc8 [0x31, 0x32, 0x33, 0x34, 0x35, 0x36, 0x37, 0x38, 0x39] = 0xF4 := by decide +kernel

-- The worked read of DEV_ID by P1 (02).
theorem test_rd_dev_id :
    (portOf (after (.rd { port := 1, bytes := [0x01, 0x2A, 0x00, 0x00, 0x00, 0xBE, 0x04] })
      (modPort State.reset 1 (fun q => { q with lastStatus := 0, lastSeq := 0x29 }))) 1).resp
      = [0x00, 0x29, 0x00, 0x0E, 0x09, 0x00, 0xB1, 0xEF, 0x9E] := by decide +kernel

-- The known-answer test of CVU0 (14): RESULT 0xDF, CODE COMPUTED.
theorem test_cvu_known_answer :
    let t := run [wrFrame 0 1 0x2200 [1, 0x34333231, 0x38373635], wrFrame 0 2 0x2200 [0x102, 0x39]] State.reset
    (cvuOf t 0).result = 0xDF ∧ (cvuOf t 0).code = 3 := by decide +kernel

-- The folded block of 14: RESULT 0xFA, CODE MATCH; with the stuck bit 0xD5, CODE MISMATCH, CVU_MISMATCH raised.
theorem test_cvu_folded_match :
    let t := after (wrFrame 0 2 0x2200 [3, 0x0596003C]) (withRegs [(0x2203, 0x90), (0x2205, 0x20000100), (0x2206, 0xFA)] State.reset)
    (cvuOf t 0).result = 0xFA ∧ (cvuOf t 0).code = 1 ∧ (cvuOf t 0).mismatches = 0 := by decide +kernel
theorem test_cvu_folded_mismatch :
    let t := after (wrFrame 0 2 0x2200 [3, 0x0496003C]) (withRegs [(0x2203, 0x90), (0x2205, 0x20000100), (0x2206, 0xFA)] State.reset)
    (cvuOf t 0).result = 0xD5 ∧ (cvuOf t 0).code = 2 ∧ (cvuOf t 0).mismatches = 1 ∧ bit (nth t.core.irq 0 {}).pend 34 = true := by decide +kernel

-- The CAPO gang frame (15): 1F 00 0E 42.
theorem test_gang_capo_frame :
    (after (.gangFrameTransmit true) (modG ganged (fun g => { g with pendCapo := true }))).core.gng.sent = [0x1F, 0x00, 0x0E, 0x42] := by decide +kernel

-- The seed of block 700, page 37 of LUN 4 (12).
theorem test_nand_seed : pageSeed 4 700 37 0x3C71 = 0x7C7BCC54 := by decide +kernel

-- Curve A at code 0x5A0 (19): 41.9 degrees.
theorem test_thm_curve_a : curveTemp (withRegs [(0xE0A, 0x01D50000), (0xE0B, 388)] State.reset) 0 0x5A0 = 419 := by decide +kernel

-- Six edges in 53,570 us at two edges a turn (07): 2,800 rpm.
theorem test_tach_speed : tachSpeed 2 5 53570 = 2800 := by decide +kernel

-- Logical address 0x5200 of the rotating log lies in physical sector 0x1F2 (11).
theorem test_log_mapping :
    logSector (modLog State.reset (fun l => { l with base := 0x1E0, span := 30, gap := 20, start := 11 })) 5 = 0x1F2 := by decide +kernel

-- A command at the front of the queue runs and leaves it (block queue).
theorem test_step_takes_the_front :
    (match step { State.reset with pending := [.busStuck, .statePeriod] } with
     | .next t => decide (t.pending = [.statePeriod])
     | _ => false) = true := by decide +kernel

theorem witness_StepRunsTheFrontCommand :
    ({ State.reset with pending := [Instr.busStuck] }.pending = [Instr.busStuck]) ∧
    (State.reset.pending = []) := by
  decide +kernel

theorem witness_CapabilitiesReadAsTheTableLists :
    let s := modPort State.reset 1 (fun q => { q with lastStatus := 0, lastSeq := 0x29 })
    (Listens s 1) ∧
    (reduced s = false) ∧
    ((portOf s 1).lastStatus = 0x00) ∧
    ((portOf s 1).lastSeq = 0x29) := by
  unfold Listens; decide +kernel

theorem witness_EveryStepKeepsTheQueuesInBounds :
    (Bounded State.reset) := by
  unfold Bounded; decide +kernel

theorem witness_EveryStepKeepsTheShapeOfTheState :
    (Counted State.reset ∧ Canonical State.reset) := by
  unfold Counted Canonical; decide +kernel

theorem witness_StoppedCoreIgnoresCoreCommands :
    let s := modA State.reset (fun a => { a with phase := .off })
    let z := modH (setA (modA State.reset (fun a => { a with phase := .sleep })) 0xA17 0x3FF) (fun h => { h with senCap := 5, fsLevels := 9 })
    (s.aon.phase ≠ .run ∧ s.aon.phase ≠ .dead ∧ s.aon.phase = .off) ∧
    (z.aon.phase ≠ .run ∧ z.aon.phase ≠ .dead ∧ z.aon.phase ≠ .off) ∧
    (aonCommand .busStuck = false) ∧
    (senPin z 0 = .high ∧ senPin z 1 = .low ∧ senPin z 2 = .high) := by
  decide +kernel

theorem witness_EndOfInstantAndItsSummaries :
    let q : IrqSt := { pend := 1, en := 1, imm := 0, prev := 0, count := 1, time := 0 }
    (State.reset.core.capo.trig = 0) ∧
    (({ pend := 2, en := 1 } : IrqSt).pend &&& 1 = 0) ∧
    (q.pend &&& q.en ≠ 0 ∧ ({ q with summary := true } : IrqSt).summary = true) ∧
    (({ q with imm := 1 } : IrqSt).pend &&& q.en &&& 1 ≠ 0) ∧
    (q.pend &&& q.en &&& (q.raised ||| ~~~q.prev) ≠ 0 ∧ (q.count ≤ 1 ∨ q.time = 0)) ∧
    (({ q with prev := 1, raised := 1 } : IrqSt).pend &&& q.en &&& ((1 : BitVec 64) ||| ~~~1) ≠ 0) := by
  decide +kernel

theorem witness_CapoIsTakenOrMissed :
    let s := capoTrigger State.reset 0
    let h := modC s (fun c => { c with capo := { c.capo with held := true } })
    (s.core.capo.trig ≠ 0 ∧ s.core.capo.held = false) ∧
    (h.core.capo.trig ≠ 0 ∧ h.core.capo.held = true) ∧
    ((capoCopies 0)[0]?.isSome = true ∧ (capoCopies 18)[0]?.isSome = true ∧ (blockCourse 6).isSome = true ∧
      (modCourse s (fun c => { c with state := 1, number := 77 })).core.course.state = 1) := by
  decide +kernel

theorem witness_WriteFrameBookkeeping :
    (Listens State.reset 0 ∧ Listens State.reset 3) ∧
    (errIndex 0x00 = none) ∧
    ((errIndex 0x20).isSome) := by
  unfold Listens; decide +kernel

theorem witness_ReadFramesTouchOnlyTheirPort :
    let f : Byte → Frame := fun op => { port := 0, bytes := [op, 0, 0, 0, 0] }
    (Settled State.reset) ∧
    ((f 0).wf 0x00 = true ∧ (f 1).wf 0x01 = true ∧ (f 0x10).wf 0x10 = true ∧ (f 0x13).wf 0x13 = true) := by
  unfold Settled IrqSettled; decide +kernel

theorem witness_RefusedFramesChangeNothing :
    let f := soundWrite State.reset 1 [0x02, 5, 0x02, 0x00, 0, 0, 0, 0, 1]
    let t := after (.wr f) State.reset
    (Settled State.reset ∧ Counted State.reset) ∧
    (f.bytes.head? ≠ some 0xFF) ∧
    (coreUp t = true ∧ inReset t 1 = false) ∧
    ((portOf t 1).lastStatus = 0x20) := by
  unfold Settled IrqSettled Counted; decide +kernel

theorem witness_ReadFrameReturnsTheWord :
    let h := setR State.reset 0x220 1
    let b := modC State.reset (fun c => { c with parity := [0x0401] })
    let as := fun (a n : Nat) => (upto n).map (fun i => a + i)
    (Listens h 1 ∧ Settled h ∧ Listens b 0 ∧ Settled b) ∧
    (regAt 0x0077 = none) ∧
    (∀ k ∈ as 0x0000 64, readHidden (portBegin h 1 true) 1 k = false ∧ wordBad (portBegin h 1 true) k = false) ∧
    (0x0C00 ∈ as 0x0BFF 2 ∧ readHidden (portBegin h 1 false) 1 0x0C00 = true) ∧
    (∀ k ∈ as 0x0400 2, readHidden (portBegin b 0 false) 0 k = false) ∧
    (0x0401 ∈ as 0x0400 2 ∧ wordBad (portBegin b 0 false) 0x0401 = true) ∧
    ((0xFFC0 : BitVec 16).toNat + 63 < 65536) := by
  unfold Settled IrqSettled Listens; decide +kernel

theorem witness_WriteFrameIsTheWriteItCarries_1 :
    (Listens State.reset 0 ∧ Listens State.reset 3) ∧
    (1 ≤ ([1] : List Word).length ∧ (List.replicate 64 (0 : Word)).length ≤ 64 ∧ (0xFFC0 : BitVec 16).toNat + 64 ≤ 65536) ∧
    ((List.replicate 32 (0 : Word)).length ≤ 32 ∧ (List.replicate 32 (1 : Word)).length = (List.replicate 32 (0 : Word)).length) := by
  unfold Listens; decide +kernel

theorem witness_WriteFrameIsTheWriteItCarries_2 :
    let s := State.reset
    let x := frameOpen s 0 1 1
    let y := frameOpen s 1 1 1
    let l := setR s 0x200 1
    (Listens s 0 ∧ Listens s 1 ∧ Listens l 0 ∧ locked x = false ∧ locked (frameOpen l 0 1 1) = true) ∧
    (wordDenied y 1 0x0053 0x10 = true ∧ wordDenied x 0 0x0053 0x10 = false) ∧
    (regAt 0x0077 = none ∧ (regAt 0x0000).isSome = true ∧ (regAt 0x0217).isSome = true ∧ (regAt 0x0F20).isSome = true) ∧
    (0x0000 % 0x200 < 0x100 ∧ badW s 0x0000 = false ∧ ((regAt 0x0000).all (fun r => r.fs.all (fun g => g.acc == .ro || g.acc == .st))) = true) ∧
    (wordDenied x 0 0x0217 5 = false ∧ wordDenied (frameOpen l 0 1 1) 0 0x0217 5 = false) ∧
    (isStaged 0x0F20 = true ∧ wordDenied x 0 0x0F20 0x96D83240 = false) ∧
    ((regAt 0x0F20).all (fun r => (0x96D83240 : Word) &&& ~~~(fsMask r.fs) == 0) = true) := by
  unfold Listens; decide +kernel

theorem witness_WriteFrameIsTheWriteItCarries_3 :
    let s := State.reset
    let x := frameOpen s 0 1 1
    let new := fun (k : Nat) (v : Word) => ((regAt k).map (fun r => blend (rd x k) v (accMask r (fun g => (!g.lk || true) && writerOf x 0 g.own == 0)))).getD 0
    (new 0x0F20 0x96D83241 = rd x 0x0F20 ∧ new 0x0F20 0x96D83240 ≠ rd x 0x0F20) ∧
    (stagedOk x 0x0E20 (new 0x0F20 0x96D83240) = true) ∧
    (stagedOk x 0x0C01 (new 0x0D01 0xFFFFFFFF) = false ∧ new 0x0D01 0xFFFFFFFF ≠ rd x 0x0D01) ∧
    (reservedRefused 0x1850 = true ∧ (regAt 0x1950).all (fun r => (0x80000000 : Word) &&& ~~~(fsMask r.fs) != 0) = true ∧ isStaged 0x1950 = true) ∧
    (ownerN s (.flow 0) = 0 ∧ ownerN s (.sfr 0) = 0) := by
  decide +kernel

theorem witness_RetainedWordIsWritten :
    (Listens State.reset 0 ∧ Listens State.reset 1) ∧
    (Settled State.reset) ∧
    (swf regReset State.reset.aon.regs = true) := by
  unfold Settled IrqSettled Listens; decide +kernel

theorem witness_BulkFramesReachTheQuota :
    (Listens State.reset 0 ∧ Listens State.reset 1) ∧
    (Settled State.reset) ∧
    (swf bufReset State.reset.core.buf.mem = true ∧ ([1] : List Word) ≠ [] ∧ ([1] : List Word).length ≤ 64) ∧
    ((granulesOf 0xFFFC 4).all (inQuota State.reset 0) = true ∧ (granulesOf 0xFFFC 8).all (inQuota State.reset 0) = false ∧
      (granulesOf 0xFFFC 4).length = 1 ∧ (granulesOf 0x1FC 8).length = 2) ∧
    ((granulesOf 0x3FFFC 4).all (inQuota State.reset 3) = true ∧ swf (fun _ => 0) State.reset.core.buf.guards = true) ∧
    (bufBad State.reset 0 4 = false ∧ bufBad (modC State.reset (fun c => { c with buf := { c.buf with bad := [0] } })) 4 4 = true) := by
  unfold Settled IrqSettled Listens; decide +kernel

theorem witness_BulkFramesReachTheQuota_2 :
    let e := withRegs [(0x1420, 0x027F0000), (0x1421, 0x01DF0000)] State.reset
    let held := modMbx State.reset 3 (fun m => { m with held := 1, wr := 1 })
    let r := modE e (fun x => { x with run := some { pix := [{ idx := 1, dest := 1, tally := 0, seq := [], body := 0, ecc := false }] } })
    let w := modBank (modCh State.reset 1 (fun c => { c with state := 2, op := 3 })) 0 (fun b => { b with chan := some 1 })
    let h := modF (setR (setR State.reset 0x215 1) 0x225 1) (fun x => { x with sfrs := (0, 1) :: x.sfrs.drop 1 })
    ((0x80000 - 0x80000) / 64 = (0x8003C + 4 - 1 - 0x80000) / 64 ∧ (0x817FC + 4 ≤ 0x81800)) ∧
    (mbxSender 3 = 1 ∧ mbxReceiver 3 = 0 ∧ (nth held.core.mbxs 3 {}).held < 8 ∧ (nth held.core.mbxs 3 {}).wr = 1 ∧
      (0 + 8 - (nth held.core.mbxs 3 {}).rd) % 8 < (nth held.core.mbxs 3 {}).held) ∧
    (0x84000 + 4096 * 2 ≤ 0x86FFC ∧ 0x86FFC + 4 ≤ 0x84000 + 4096 * 2 + 4096 ∧ ¬(0x86FFC + 8 ≤ 0x84000 + 4096 * 2 + 4096)) ∧
    (regionOfPix e 0 = some 0 ∧ ownerN e (.panel 0) = 0 ∧ regionOfPix State.reset 307200 = none ∧ bit (used e 0x1453) 0 = false ∧
      bit (used (setR e 0x1453 1) 0x1453) 0 = true ∧ e.core.pix.gamma = none) ∧
    (r.core.epd.run.map (fun u => u.pix.all (fun q => q.idx != 1)) = some false ∧ pixelsOf 0x100000 4 = [0, 1]) ∧
    (bankWrites w 0 = true ∧ bankWrites State.reset 0 = false ∧ bankWrites State.reset 1 = false) ∧
    (flashHidden h 2 0 4 = true ∧ flashHidden h 1 0 4 = false ∧ flashHidden h 2 4096 4 = false ∧ (flashRead State.reset true 0 4).2 = false) := by
  decide +kernel

theorem witness_PortFramesAndPortEvents :
    let a := modIrq State.reset 3 (fun q => { q with summary := true })
    (Listens State.reset 0 ∧ Listens State.reset 3) ∧
    (Settled State.reset) ∧
    (Listens State.reset 3 ∧ bit (used State.reset 0x430) 0 = true) ∧
    (spAlert a = true ∧ bit (used a 0x430) 1 = true) ∧
    (spAlert State.reset = false) ∧
    (State.reset.core.ports.length = 4) ∧
    (bit (1 : Word) 0 = true) := by
  unfold Settled IrqSettled Listens; decide +kernel

theorem witness_CommitAssignsQueuesOrRefuses_1 :
    let s := State.reset
    (Listens s 0 ∧ Settled s ∧ s.core.course.running.length = 8 ∧ s.core.course.state ≠ 1 ∧ s.core.course.queued = none) := by
  unfold Settled IrqSettled Listens; decide +kernel

theorem witness_CommitAssignsQueuesOrRefuses_2 :
    let s := State.reset
    (s.core.epd.run = none ∧ s.core.gng.busy = false ∧ (modG s (fun g => { g with busy := true })).core.gng.busy = true) := by
  decide +kernel

theorem witness_CommitAssignsQueuesOrRefuses_3 :
    let s := State.reset
    let p := modCourse s (fun c => { c with state := 1, owner := 1, number := 65535 })
    (Listens p 0 ∧ Settled p ∧ p.core.course.state = 1 ∧ p.core.course.owner ≠ 0 ∧ p.core.course.queued = none) := by
  unfold Settled IrqSettled Listens; decide +kernel

theorem witness_CommitAssignsQueuesOrRefuses_4 :
    let s := State.reset
    let p := modCourse s (fun c => { c with state := 1, owner := 1, number := 65535 })
    let q := modCourse p (fun c => { c with queued := some 1 })
    (Listens q 0 ∧ Settled q ∧ q.core.course.state = 1 ∧ q.core.course.queued ≠ none) := by
  unfold Settled IrqSettled Listens; decide +kernel

theorem witness_CommitAssignsQueuesOrRefuses_5 :
    (BitVec.ofNat 8 (0x17 : Word).toNat &&& ~~~0x17#8 = 0 ∧ BitVec.ofNat 8 (0x88 : Word).toNat ≠ 0 ∧ BitVec.ofNat 8 (0x100 : Word).toNat = 0) := by
  decide +kernel

theorem witness_CoursesAreTakenUpOrStall :
    let s := modCourse State.reset (fun c => { c with state := 1, number := 2, blocks := 0x41, taken := 0 })
    let l := modN (modCourse State.reset (fun c => { c with state := 1, blocks := 0x20 })) (fun n => { n with luns := upd n.luns 3 (fun x => { x with pending := true }) })
    (coreUp s = true ∧ s.core.course.running.length = 8 ∧ s.core.course.queued = none ∧ s.core.irq.length = 4) ∧
    (courseDue s 0 = true ∧ s.core.course.blocks &&& ~~~(setBit s.core.course.taken 0 true) ≠ 0) ∧
    (courseDue s 1 = false) ∧
    (courseDue s 6 = true ∧ s.core.course.eflTaken ≠ 3 ∧ s.core.course.eflTaken = 0 ∧ s.core.efl.banks.length = 2) ∧
    (bankBetween s 0 = true ∧ bankBetween s 1 = true ∧ bankBetween (modBank (modCh s 1 (fun _ => { state := 2, op := 3 })) 1 (fun k => { k with chan := some 1 })) 1 = false) ∧
    (s.core.epd.run = none ∧ s.core.gng.busy = false ∧ (modG s (fun g => { g with busy := true })).core.gng.busy = true ∧ (modE s (fun e => { e with run := some {} })).core.epd.run ≠ none) ∧
    (courseBlock 0xE20 = some 0 ∧ (primReg 0xE20).isSome = true ∧ isStaged 0xE20 = false ∧ carryMask (atCommit s) s.core.course.owner.val 0xE20 ≠ 0) ∧
    (lunMayTake l 3 = true ∧ lunMayTake l 4 = false ∧ l.core.nfc.luns.length = 16) ∧
    (s.core.course.state = 1 ∧ State.reset.core.course.state ≠ 1) ∧
    (modCourse s (fun c => { c with blocks := 1 }) |>.core.course.blocks |> (fun b => b &&& ~~~(setBit (0 : BitVec 8) 0 true) = 0)) ∧
    (Canonical s) := by
  unfold Canonical; decide +kernel

theorem witness_CapoTriggersReleaseAndLatch :
    let h := modC State.reset (fun c => { c with capo := { c.capo with driving := true } })
    (Settled State.reset ∧ bit (1 : Word) 0 = true) ∧
    (Listens State.reset 0 ∧ bit (used State.reset 0x53) 0 = true ∧ State.reset.core.capo.held = false) ∧
    (Listens State.reset 1 ∧ bit (used State.reset 0x53) 1 = false) ∧
    (coreUp State.reset = true ∧ bit (used State.reset 0x53) 4 = true ∧ State.reset.core.capo.driving = false) ∧
    (h.core.capo.driving = true) ∧
    (State.reset.core.dev.latches.length = 4) := by
  unfold Settled IrqSettled Listens; decide +kernel

theorem witness_ClockAndParityFaultsAreHandled :
    let x := modA State.reset (fun a => { a with onRc32 := true })
    let g := modA x (fun a => { a with goodWins := 3 })
    let r := modC State.reset (fun c => { c with pwr := { c.pwr with rc48 := true } })
    let b := modC State.reset (fun c => { c with buf := { c.buf with bad := [0x10000] } })
    (State.reset.aon.phase ≠ .dead ∧ State.reset.aon.onRc32 = false ∧ coreUp State.reset = true) ∧
    (524288 ≤ 2000 * 263 ∧ 2000 * 262 < 524288) ∧
    (x.aon.onRc32 = true ∧ x.aon.goodWins < 3 ∧ 3 ≤ g.aon.goodWins ∧ g.aon.onRc32 = true) ∧
    (coreUp r = true ∧ r.core.pwr.rc48 = true ∧ State.reset.core.pwr.rc48 = false ∧ State.reset.core.irq.length = 4) ∧
    (regAt 0x0077 = none ∧ (regAt 0x0D00).isSome = true ∧ isStaged 0x0D00 = true) ∧
    ((regAt 0x0C01).isSome = true ∧ isStaged 0x0C01 = false ∧ configWord 0x0C01 = true) ∧
    (bufKind 0x080000 8 = some 1 ∧ bufKind 0x1FFFF8 8 = some 5 ∧ b.core.buf.bad.elem 0x10000 = true ∧ State.reset.core.buf.bad.elem 0x10000 = false) ∧
    (Settled State.reset ∧ Settled b) := by
  unfold Settled IrqSettled; decide +kernel

theorem witness_StewardWordsAreStoredKeptOrDenied :
    let l := setR State.reset 0x200 1
    (Listens State.reset 0 ∧ Listens State.reset 1) ∧
    (locked State.reset = false ∧ locked l = true ∧ Listens l 0) := by
  unfold Listens; decide +kernel

theorem witness_OwnerChangesMoveResources :
    let l := setR State.reset 0x200 1
    let q := modCh State.reset 3 (fun c => { c with state := 1 })
    let st := setR State.reset 0x0D01 0x12345
    let k := modK State.reset (fun b => { b with keys := [(0, { st := .down }), (17, { st := .releasePending })] })
    let f : Flight := { num := 5, issuer := 1, desc := [3, 0, 1, 0, 0, 6] ++ List.replicate 26 0, st := 1 }
    let n := modN State.reset (fun n => { n with flight := [f, { f with num := 6, st := 3 }] })
    (Listens State.reset 0 ∧ Listens State.reset 1 ∧ Listens l 0) ∧
    (locked State.reset = false ∧ locked l = true) ∧
    (State.reset.core.irq.length = 4 ∧ swf regReset State.reset.core.regs = true) ∧
    (q.core.efl.chans.length = 10 ∧ (chOf q 3).state = 1) ∧
    (State.reset.core.cvu.length = 4 ∧ State.reset.core.key.encs.length = 3) ∧
    (0x0C01 ∈ listedWords st ∧ isStaged 0x0C01 = false ∧ resMask st (.rail 0) 0x0C01 ≠ 0 ∧ st.core.irq.length = 4) ∧
    (swf (fun _ => {}) k.core.key.keys = true ∧ keyGroup k 0 = keyGroup k 17 ∧ (keyOf k 0).st = .down ∧ (keyOf k 17).st = .releasePending) ∧
    (fOp f ≤ 6 ∧ d8 f.desc 4 = 0 ∧ (resMoved n (.ns 0) 1 2).core.nfc.flight.map (fun x => x.st) = [4, 3]) := by
  unfold Listens; decide +kernel

theorem witness_QuotasMoveWholeGranules :
    let ws : List (Part × Word) := [(0, 0x00400000), (1, 0x00C00040)]
    let old := quotasOf (fun k => used State.reset (0x230 + k))
    let word := fun (vs : List (Part × Word)) (k : Nat) => match vs.find? (fun e => e.1.val == k) with | some e => e.2 | none => used State.reset (0x230 + k)
    (Listens State.reset 0 ∧ Listens State.reset 1) ∧
    ((Instr.quotaChange 0 7 ws).wf = true ∧ swf bufReset State.reset.core.buf.mem = true ∧ swf regReset State.reset.core.regs = true ∧ courseDue State.reset 5 = false) ∧
    (ws.head? = some (0, 0x00400000) ∧ ws.getLast? = some (1, 0x00C00040)) ∧
    (quotasOk State.reset old (quotasOf (word ws)) = true) ∧
    (quotasOk State.reset old (quotasOf (word [(0, 0x01000000)])) = false ∧ old ≠ quotasOf (word [(0, 0x01000000)])) ∧
    (quotaOwner old 64 ≠ quotaOwner (quotasOf (word ws)) 64 ∧ quotaOwner old 63 = quotaOwner (quotasOf (word ws)) 63) := by
  unfold Listens; decide +kernel

theorem witness_MailboxPostsAndAcks :
    let z := bufStore State.reset 0x080000 (List.replicate 60 (0 : Byte) ++ leBytes 4 (crc32c (List.replicate 60 0)))
    let f := modMbx State.reset 0 (fun m => { m with held := 8 })
    let u := modMbx State.reset 0 (fun m => { m with next := 1 })
    (Listens State.reset 0 ∧ Listens State.reset 1 ∧ Listens State.reset 2) ∧
    (mbxSender 0 = 0 ∧ mbxReceiver 0 = 1) ∧
    (bit (1 : Word) 0 = true ∧ bit (0 : Word) 0 = false) ∧
    (inReset (modPart State.reset (fun q => { q with inReset := 2 })) 1 = true) ∧
    (inReset State.reset 1 = false ∧ bit (used State.reset 0x217) 0 = true ∧ bit (used (setR State.reset 0x217 0) 0x217) 0 = false) ∧
    (8 ≤ (nth f.core.mbxs 0 {}).held) ∧
    ((nth z.core.mbxs 0 {}).held < 8 ∧ bufBad z 0x080000 64 = false) ∧
    (bufBad (modC z (fun c => { c with buf := { c.buf with bad := [0x10000] } })) 0x080000 64 = true) ∧
    ((nth (bufBytes z 0x080000 64) 2 0).toNat ≤ 56 ∧ nth (bufBytes z 0x080000 64) 3 0 = 0 ∧ leNat ((bufBytes z 0x080000 64).drop 60) = crc32c ((bufBytes z 0x080000 64).take 60)) ∧
    (leNat ((bufBytes z 0x080000 64).take 2) = (nth z.core.mbxs 0 {}).next.toNat ∧ leNat ((bufBytes z 0x080000 64).take 2) ≠ (nth u.core.mbxs 0 {}).next.toNat) ∧
    (leNat ((bufBytes State.reset 0x080000 64).drop 60) ≠ crc32c ((bufBytes State.reset 0x080000 64).take 60)) ∧
    (56 < (nth (bufBytes (bufStore State.reset 0x080002 [57]) 0x080000 64) 2 0).toNat) := by
  unfold Listens; decide +kernel

theorem witness_WatchdogKicksWarningsAndExpiry :
    let w := modWdog State.reset 0 (fun q => { q with warned := true })
    let c := modIrq State.reset 0 (fun q => { q with pend := 1, en := 1, first := some 0, events := 1 })
    (Settled State.reset ∧ Listens State.reset 0 ∧ Listens State.reset 1 ∧ State.reset.core.part.wdog.length = 4) ∧
    ((wdogOf State.reset 0).running = true ∧ (wdogOf State.reset 0).expectA5 = false) ∧
    ((wdogOf State.reset 1).running = false) ∧
    (fld (0x5A : Word) 0 8 = 0x5A ∧ bit (0x5A : Word) 8 = false ∧ bit (0x15A : Word) 8 = true ∧ fld (0xA5 : Word) 0 8 ≠ 0x5A) ∧
    ((wdogOf State.reset 0).warned = false ∧ (wdogOf w 0).warned = true) ∧
    (bit (used State.reset 0x260) 17 = true ∧ bit (used (setR State.reset 0x260 0x1F01) 0x260) 17 = false) ∧
    (bit (used State.reset 0x260) 16 = true ∧ State.reset.core.part.rstCause.length = 4) ∧
    (fld (used (setR State.reset 0x260 0x51F01) 0x260) 18 2 = 1) ∧
    (bit (used (setR State.reset 0x53 0x100051) 0x53) 20 = true) ∧
    ((wdogOf (modWdog State.reset 0 (fun q => { q with expired := true })) 0).expired = true ∧ (wdogOf State.reset 0).expired = false) ∧
    ((nth c.core.irq 0 {}).first.isSome = true ∧ 1 ≤ (nth c.core.irq 0 {}).events ∧ (nth c.core.irq 0 {}).pend &&& (nth c.core.irq 0 {}).en ≠ 0 ∧ coreUp c = true) := by
  unfold Settled IrqSettled Listens; decide +kernel

theorem witness_PartitionResetsStartAndComplete :
    let u := modPart State.reset (fun q => { q with inReset := 4 })
    (Listens State.reset 0 ∧ Listens State.reset 1) ∧
    (rstDenied State.reset 1 1 = true ∧ rstDenied State.reset 0 0xF = false) ∧
    (State.reset.core.irq.length = 4 ∧ State.reset.core.mbxs.length = 12 ∧ State.reset.core.part.wdog.length = 4 ∧ State.reset.core.dev.latches.length = 4 ∧ State.reset.core.part.rstCause.length = 4 ∧ State.reset.core.part.rstCount.length = 4) ∧
    (inReset State.reset 2 = false ∧ inReset u 2 = true) ∧
    (coreUp u = true ∧ partResetDue u 2 = true ∧ partResetDue State.reset 2 = false ∧ swf bufReset u.core.buf.mem = true) ∧
    (inQuota u 2 256 = true) := by
  unfold Listens; decide +kernel

theorem witness_SupplyEventsMoveTheAlwaysOnDomain :
    let w := modA State.reset (fun a => { a with warn := true })
    let o := modA State.reset (fun a => { a with phase := .off })
    (State.reset.aon.phase ≠ .dead ∧ State.reset.aon.warn = false ∧ coreUp State.reset = true) ∧
    (w.aon.warn = true ∧ coreUp w = true) ∧
    (o.aon.phase = .off) := by
  decide +kernel

theorem witness_CoreStopsLoseTheCore :
    let z := modA State.reset (fun a => { a with phase := .sleep })
    (Settled State.reset ∧ State.reset.aon.mainOk = true) ∧
    (State.reset.core.efl.banks.all (fun b => b.chan.isNone) = true ∧ State.reset.core.efl.log.phase = none) ∧
    (coreUp State.reset = true) ∧
    (Listens State.reset 0 ∧ Listens State.reset 1 ∧ fld (0x7A5E : Word) 0 16 = 0x7A5E) ∧
    (z.aon.phase = .sleep ∧ Settled z) := by
  unfold Settled IrqSettled Listens; decide +kernel

theorem witness_CoreStopsLoseTheCore_2 :
    let h := modA State.reset (fun a => { a with phase := .held })
    (h.aon.phase = .held ∧ Settled h ∧ h.aon.mainOk = true ∧ h.core.efl.banks.all (fun b => b.chan.isNone) = true ∧ h.core.efl.log.phase = none) := by
  unfold Settled IrqSettled; decide +kernel

theorem witness_ColdStartAndPowerOn :
    let d := modA State.reset (fun a => { a with phase := .dead })
    let o := modH (modA State.reset (fun a => { a with phase := .off, holdStart := some 0 })) (fun h => { h with coldWake := true })
    (State.reset.core.efl.banks.all (fun b => b.chan.isNone) = true ∧ State.reset.core.efl.log.phase = none) ∧
    (State.reset.aon.phase ≠ .dead ∧ d.aon.phase = .dead) ∧
    (o.aon.phase = .off ∧ o.aon.holdStart ≠ none ∧ o.aon.resetLow = false) ∧
    (o.hold.coldWake = true ∧ o.hold.aborted = false) ∧
    ((modH o (fun h => { h with coldWake := false })).hold.coldWake = false ∧ o.aon.stop ≠ 1) := by
  decide +kernel

theorem witness_WakeSequenceStepsInOrder :
    let at1 := fun (p : Phase) => modA State.reset (fun a => { a with phase := p })
    (∀ p ∈ [Phase.arm, .vddc, .x24, .pll, .backVddc, .backX24, .backPll, .held], (at1 p).aon.phase = p) ∧
    ((modH (at1 .vddc) (fun h => { h with vddcTries := 4 })).hold.vddcTries = 4 ∧ State.reset.hold.vddcTries < 4 ∧ State.reset.hold.x24Tries < 4 ∧ State.reset.hold.pllTries < 4) ∧
    ((at1 .held).aon.mainOk = true ∧ (modA (at1 .held) (fun a => { a with mainOk := false })).aon.mainOk = false ∧ (at1 .off).aon.phase ≠ .held) := by
  decide +kernel

theorem witness_CoreStartTakesResetValues :
    (State.reset.aon.phase ≠ .coreStart) ∧
    ((after (.coreStart { encA := 0, encB := 0, mainMv := 3300, bakMv := 3000, vccqMv := [], smonUv := [] })
      (modA State.reset (fun a => { a with phase := .coreStart }))).core.efl.bootSource = 0) ∧
    ((modA State.reset (fun a => { a with phase := .coreStart })).aon.phase = .coreStart ∧ (modA State.reset (fun a => { a with phase := .coreStart, wake := 0xA0 })).aon.wake = 0xA0) := by
  decide +kernel

theorem witness_SleepDozeAlarmAndWake_1 :
    (Settled State.reset ∧ Listens State.reset 0 ∧ Listens State.reset 1 ∧ bit (5 : Word) 0 = true ∧ bit (5 : Word) 2 = true ∧ bit (1 : Word) 2 = false) := by
  unfold Settled IrqSettled Listens; decide +kernel

theorem witness_SleepDozeAlarmAndWake_2 :
    let s := modC State.reset (fun c => { c with pwr := { c.pwr with waiting := true } })
    (coreUp s = true ∧ s.aon.mainOk = true ∧ Settled s ∧ (s.core.pwr.waiting && sleepReady s) = true) := by
  unfold Settled IrqSettled; decide +kernel

theorem witness_SleepDozeAlarmAndWake_3 :
    ((State.reset.core.pwr.waiting && sleepReady State.reset) = false) := by
  decide +kernel

theorem witness_SleepDozeAlarmAndWake_4 :
    let s := modC State.reset (fun c => { c with pwr := { c.pwr with waiting := true } })
    let q := modCourse s (fun c => { c with queued := some 1 })
    (q.core.pwr.waiting = true ∧ sleepReady q = false ∧ coreUp q = true) := by
  decide +kernel

theorem witness_SleepDozeAlarmAndWake_5 :
    let al := setA State.reset 0xA0B 0x10000
    (bit (aused State.reset 0xA0B) 16 = false ∧ bit (aused al 0xA0B) 16 = true ∧ swf regReset al.aon.regs = true) ∧
    (alarmDue al = true ∧ alarmDue (setA al 0xA0A 5) = false ∧ al.aon.phase ≠ .dead) := by
  decide +kernel

theorem witness_SleepDozeAlarmAndWake_6 :
    let al := setA State.reset 0xA0B 0x10000
    let z := modH (modA al (fun a => { a with phase := .sleep })) (fun h => { h with armed := true })
    (z.aon.phase = .sleep ∧ z.hold.armed = true ∧ bit (aused z 0xA08) 4 = true ∧ Settled z) := by
  unfold Settled IrqSettled; decide +kernel

theorem witness_SleepDozeAlarmAndWake_7 :
    let al := setA State.reset 0xA0B 0x10000
    let z := modH (modA al (fun a => { a with phase := .sleep })) (fun h => { h with armed := true })
    (wakeEnabled z .gang = true ∧ wakeEnabled (setA z 0xA08 0) .gang = false) := by
  decide +kernel

theorem witness_SupervisorThresholdsAreCheckedWhole :
    (Listens State.reset 0 ∧ Listens State.reset 3 ∧ Settled State.reset ∧ swf regReset State.reset.aon.regs = true ∧ locked State.reset = false) ∧
    (20 ≤ fld (0x05373C28 : Word) 0 8 ∧ fld (0x05373C28 : Word) 0 8 + 10 ≤ fld (0x05373C28 : Word) 8 8 ∧ fld (0x05373C28 : Word) 0 8 + 10 ≤ fld (0x05373C28 : Word) 16 8 ∧ fld (0x05373C28 : Word) 16 8 ≤ 80) ∧
    (¬ 20 ≤ fld (0x05373C13 : Word) 0 8 ∧ ¬ fld (0x05373C33 : Word) 0 8 + 10 ≤ fld (0x05373C33 : Word) 8 8) ∧
    (bit (1 : Word) 0 = true) := by
  unfold Settled IrqSettled Listens; decide +kernel

theorem witness_RailRequestsWaitForTheNextStep :
    let o := setR State.reset 0x210 1
    (Listens State.reset 0 ∧ Listens State.reset 1) ∧
    (ownerN State.reset (.rail 0) = 0 ∧ ownerN o (.rail 0) = 1 ∧ Listens o 1) ∧
    (∀ r : Fin 10, bit (1 : BitVec 10) r.val = true → ownerN o (.rail r.val) = 1) ∧
    (∀ r : Fin 10, bit (closureOf o 1) r.val = true → ownerN o (.rail r.val) = 1 ∨ (nth o.core.seq.rails r.val {}).target = false) := by
  unfold Listens; decide +kernel

theorem witness_SequencerStepMovesEachRail :
    let s := modC State.reset (fun c => { c with seq := { c.seq with first := false } })
    let at1 := fun (x : RailSt) => modC s (fun c => { c with seq := { c.seq with rails := upd c.seq.rails 3 (fun _ => x) } })
    (coreUp s = true ∧ Settled s ∧ courseDue s 4 = false ∧ s.core.parity = [] ∧ s.core.seq.acts = [] ∧ s.core.seq.reqs = [] ∧ s.core.seq.resetting = false ∧ s.core.seq.first = false) ∧
    (s.core.seq.rails.length = 10 ∧ bit (rd s 0x2400) 0 = false ∧ s.core.gng.state ≠ 4 ∧ s.core.seq.rpgIn = 0) ∧
    (∀ x ∈ [({ st := .off, target := true } : RailSt), { st := .wait }, { st := .wait, target := true }, { st := .delay }, { st := .rising, target := true }, { st := .on, target := true, good := true }, { st := .drain }, { st := .offDelay }, { st := .discharge }, { st := .minoff }, { st := .retryWait }, { st := .faulted }], x.latched = false ∧ ∀ k : Fin 10, railFaultOf (at1 x) k.val (nth (at1 x).core.seq.rails k.val {}) false false = []) ∧
    ((nth s.core.seq.rails 3 {}).st = .off ∧ (nth s.core.seq.rails 3 {}).target = false ∧ (nth s.core.seq.rails 3 {}).latched = false) ∧
    (fld (railDep s 3) 0 14 = 0 ∧ s.aon.mainOk = true) ∧
    (∀ k : Fin 10, bit (railDep s k.val) 3 = true → countsOff (nth s.core.seq.rails k.val {}).st = true) := by
  unfold Settled IrqSettled; decide +kernel

theorem witness_SequencerStepMovesEachRail_2 :
    let s := modC State.reset (fun c => { c with seq := { c.seq with first := false, resetting := true } })
    (coreUp s = true ∧ Settled s ∧ s.aon.mainOk = true ∧ courseDue s 4 = false ∧ s.core.seq.resetting = true ∧ s.core.seq.first = false) ∧
    (s.core.seq.acts = [] ∧ s.core.seq.reqs = [] ∧ s.core.seq.rails.length = 10) ∧
    (s.core.efl.banks.all (fun b => b.chan.isNone) = true ∧ s.core.efl.log.phase = none) ∧
    (∀ x ∈ s.core.seq.rails, x.st = .off ∧ x.target = false ∧ x.latched = false) := by
  unfold Settled IrqSettled; decide +kernel

theorem witness_ThermalSampleIsJudgedAndGrouped :
    let s := withRegs [(0xE20, 0x64000001), (0xE21, 1), (0xE22, 1), (0xE23, 0), (0xE30, 0x01012C03), (0xE31, 4), (0xE0C, 0x00FA00FA)] State.reset
    let t := after (.thmSample [1250000, 2500000, 10000, 0, 0, 0, 0, 0] 250) s
    (coreUp s = true ∧ Settled s ∧ courseDue s 0 = false ∧ s.core.parity = [] ∧ s.core.thm.sens.length = 8 ∧ s.core.thm.grps.length = 4) ∧
    (bit (rd s 0xE20) 0 = true ∧ bit (rd s 0xE23) 0 = false) ∧
    (0xFE0 ≤ (nth [(0x800 : BitVec 12), 0xFFF] 1 0).toNat ∧ (nth [(0x800 : BitVec 12), 0xFFF, 0x10] 2 0).toNat ≤ 0x1F) ∧
    (rf s 0xE30 0 8 ≠ 0 ∧ rf s 0xE32 0 8 = 0) ∧
    (senTest s 0 {} 0x800 (curveTemp s 0 0x800) = 0 ∧ ({} : SenSt).everBad = false) ∧
    (t.core.thm.begun = true ∧ (nth t.core.thm.sens 0 {}).valid = true ∧ (nth t.core.thm.sens 1 {}).valid = false) := by
  unfold Settled IrqSettled; decide +kernel

theorem witness_FlowTickDrivesEachChannel :
    let s := modC State.reset (fun c => { c with flw := { c.flw with drive := c.flw.drive.map (fun d => { d with taken := true, source := 5 }) } })
    (coreUp s = true ∧ Settled s ∧ courseDue s 1 = false ∧ s.core.parity = [] ∧ s.core.flw.drive.length = 6 ∧ s.core.flw.age.length = 6 ∧ s.core.flw.fvs.length = 2 ∧ s.core.irq.length = 4) ∧
    ((driveOf s 0).taken = true) ∧
    (flowSource (setR s 0x1000 0x00000003) 0 = 4 ∨ flowSource (setR s 0x1000 0x00000003) 0 < 4) ∧
    (flowSource (modDrive (setR s 0x1006 0x02000000) 0 (fun d => { d with stalled := true })) 0 = 5) := by
  unfold Settled IrqSettled; decide +kernel

theorem witness_TachStretchAndStallEvents :
    let q := modFsw State.reset 0 (fun w => { w with duty := 500, winStart := 10, winEnd := 20, winEdges := [11, 12, 13] })
    let st := modDrive State.reset 2 (fun d => { d with stallRun := 60000 })
    (coreUp State.reset = true ∧ tachCont State.reset 0 = true ∧ tachCont State.reset 5 = true) ∧
    (tachCont q 0 = false ∧ (nth q.core.flw.fsw 0 {}).winEnd ≠ 0 ∧ (nth q.core.flw.fsw 0 {}).winStart ≤ 15 ∧ 15 ≤ (nth q.core.flw.fsw 0 {}).winEnd ∧ (nth q.core.flw.fsw 0 {}).winEnd < 21) ∧
    (q.core.flw.fsw.length = 4 ∧ q.core.flw.drive.length = 6 ∧ coreUp q = true) ∧
    ((nth q.core.flw.fsw 0 {}).winEdges = 11 :: ([12] ++ [13]) ∧ (nth State.reset.core.flw.fsw 0 {}).winEnd = 0) ∧
    (flowStallDue State.reset 2 = false ∧ flowStallDue st 2 = true ∧ st.core.irq.length = 4) ∧
    (Listens State.reset 0 ∧ Listens State.reset 1 ∧ Settled State.reset ∧ ownerN State.reset (.flow 0) = 0 ∧ bit (0x100 : Word) 8 = true) := by
  unfold Settled IrqSettled Listens; decide +kernel

theorem witness_SteadyWindowsAgeTheBands :
    let f := modAge (setR (setR State.reset 0x101A 0x03400BB8) 0x1068 0x00400000) 1 (fun g => { g with n := 100, sumU := 5000000, sumS := 200000, learnCnt := [3, 0, 0, 0, 0, 0, 0, 0] })
    let a := modAge (setR (setR State.reset 0x101A 0x00000BB8) 0x106D 0x00C80064) 1 (fun g => { g with n := 100, sumU := 5000000, sumS := 200000, acc := List.replicate 8 3200 })
    (coreUp State.reset = true ∧ (ageOf State.reset 1).n < 100) ∧
    (100 ≤ (ageOf f 1).n ∧ (ageOf f 1).sumS / 100 ≠ 0 ∧ uf f 0x101A 0 16 ≠ 0 ∧ swf regReset f.core.regs = true ∧ f.core.flw.age.length = 6 ∧ (ageOf f 1).acc.length = 8 ∧ coreUp f = true) ∧
    (badW f 0x106D = false ∧ (ageOf f 1).learnCnt.length = 8 ∧ bit (used f 0x101A) 22 = true ∧ f.core.irq.length = 4 ∧ ownerN f (.flow 1) < 4) ∧
    (bit (used a 0x101A) 22 = false ∧ uf a 0x106D 0 16 = 100 ∧ 100 * (100 + uf a 0x101A 16 6) < (3200 + 1600 - 3200 / 16) / 16 * 100 ∧
      uf a 0x106D 16 16 ≠ 0 ∧ bit (ageOf a 1).ageing 5 = false ∧ 64 * 50000 / 2000 = 1600 ∧ 8 * 2000 / 3000 = 5) ∧
    (learnDue State.reset 1 0 = false ∧ learnDue f 1 0 = true) := by
  decide +kernel

theorem witness_PassSamplesAreDebounced :
    let s := modK (withRegs [(0x1208, 0x14A01414)] State.reset) (fun b => { b with passStart := some (100000, 100000) })
    let at1 := fun (k : KeySt) => modK s (fun b => { b with keys := [(0, k)] })
    (coreUp s = true ∧ Settled s ∧ State.reset.core.key.passStart = none ∧ coreUp State.reset = true ∧ Settled State.reset) ∧
    (s.core.key.passStart = some (100000, 100000) ∧ swf (fun _ => {}) s.core.key.keys = true) ∧
    (keyRowEn s 0 = true) ∧
    (keyRowEn (setR s 0x1200 0x00000408) 0 = false) ∧
    (∀ k ∈ [({ st := .pressPending, cand := 100000 } : KeySt), { st := .pressPending, cand := 1 }, { st := .down }, { st := .releasePending, cand := 1 }, { st := .releasePending, cand := 100000 }], keyOf (at1 k) 0 = k ∧ k.ghost = false ∧ swf (fun _ => {}) (at1 k).core.key.keys = true) ∧
    (keyAmbig 1 0 = false) ∧
    (popcnt (1 : BitVec 160) ≤ 2) ∧
    ((keyOf s 0).st = .up) := by
  unfold Settled IrqSettled; decide +kernel

theorem witness_FrameStartsScanAndSuspend :
    let s := setR State.reset 0x127A 0x00140100
    let i := modA s (fun a => { a with osc := 400000 })
    let p := withRegs [(0x1200, 0x03FF0108), (0x1240, 0x48580818)] State.reset
    (coreUp s = true ∧ courseDue s 2 = false) ∧
    (keyLocked i = false ∧ uf i 0x127A 8 8 ≠ 0 ∧ uf i 0x127A 8 8 * 327680 ≤ now i - i.core.key.idleFrom) ∧
    (keyLocked State.reset = false ∧ uf State.reset 0x127A 8 8 = 0) ∧
    (p.core.key.probe = none ∧ probeSet p ≠ 0 ∧ uf p 0x1200 8 5 ≠ 0 ∧ (p.core.key.frames + 1).toNat % uf p 0x1200 8 5 = 0) := by
  decide +kernel

theorem witness_LockAndUnlockOfTheKeys :
    let l := modH State.reset (fun h => { h with locked := true })
    let d := modK State.reset (fun b => { b with keys := [(5, { st := .down })] })
    let i := modA (setR State.reset 0x127A 0x00140100) (fun a => { a with osc := 327680 })
    (Listens State.reset 0 ∧ Listens State.reset 1 ∧ State.reset.core.irq.length = 4 ∧ State.reset.core.key.fifos.length = 4 ∧ swf (fun _ => {}) State.reset.core.key.keys = true) ∧
    (keyLocked State.reset = false ∧ keyLocked l = true ∧ Listens l 0) ∧
    (bit (1 : Word) 0 = true ∧ bit (1 : Word) 1 = false ∧ bit (2 : Word) 1 = true) ∧
    ((nth State.reset.core.key.fifos 0 {}).entries.length < 64) ∧
    (uf State.reset 0x127A 8 8 = 0 ∧ uf i 0x127A 8 8 ≠ 0 ∧ uf i 0x127A 8 8 * 327680 ≤ now i - i.core.key.idleFrom ∧ now (setR State.reset 0x127A 0x00140100) - 0 < 327680) ∧
    (coreUp d = true ∧ swf (fun _ => {}) d.core.key.keys = true ∧ (keyOf d 5).st = .down ∧ (keyOf d 5).masked = false ∧ (keyOf d 6).st = .up) := by
  unfold Listens; decide +kernel

theorem witness_EncodersProbesAndEventFifos :
    let p := modK State.reset (fun b => { b with probe := some 3 })
    let f := modK State.reset (fun b => { b with fifos := b.fifos.map (fun q => { q with entries := List.replicate 64 (0, 0, 0, 0) }) })
    (coreUp State.reset = true ∧ Settled State.reset ∧ State.reset.core.key.encs.length = 3 ∧ State.reset.core.key.cols.length = 16) ∧
    (State.reset.core.key.probe = none ∧ p.core.key.probe = some 3 ∧ coreUp p = true ∧ Settled p) ∧
    (p.core.key.passStart = none ∧ padsFree p = true ∧ (modK p (fun b => { b with passStart := some (1, 1) })).core.key.passStart ≠ none) ∧
    (Listens State.reset 1 ∧ State.reset.core.key.fifos.length = 4 ∧ State.reset.core.irq.length = 4) ∧
    ((nth State.reset.core.key.fifos 1 {}).entries.length < 64 ∧ 64 ≤ (nth f.core.key.fifos 1 {}).entries.length) ∧
    (4095 < (4096 : Int).natAbs ∧ (4095 : Int).natAbs ≤ 4095 ∧ (-4095 : Int) ≤ 4095) := by
  unfold Settled IrqSettled Listens; decide +kernel

theorem witness_UpdateRequestsQueueAbsorbOrRefuse :
    let e := modP (withRegs [(0x1400, 1), (0x1418, 0x08D80001)] State.reset) (fun p => { p with tableOk := true, validating := false })
    (Listens e 0 ∧ Settled e ∧ Listens e 1) ∧
    (ownerN e (.panel 0) = 0 ∧ ownerN e (.panel 3) = 0) ∧
    ((!rectEmpty (panelRect e 0) && bit (used e 0x1400) 0 && e.core.pix.tableOk) = true) ∧
    (e.core.epd.refused ≤ 255 ∧ e.core.epd.absorbed ≤ 255) := by
  unfold Settled IrqSettled Listens; decide +kernel

theorem witness_UpdatesAndTogglesStart :
    let e := modP (withRegs [(0x1400, 1), (0x1418, 0x08D80001)] State.reset) (fun p => { p with tableOk := true, validating := false })
    let d := modE e (fun x => { x with queued := 1 })
    let b := modP e (fun p => { p with blinks := upd p.blinks 2 (fun k => { k with pending := true }) })
    let g := setR State.reset 0x1462 0x80
    (coreUp d = true ∧ courseDue d 3 = false ∧ d.core.buf.bad = [] ∧ d.core.irq.length = 4 ∧ d.core.epd.recs.length = 4) ∧
    (coreUp b = true ∧ courseDue b 3 = false ∧ b.core.buf.bad = [] ∧ b.core.capo.trig = 0 ∧
      bit (used (setR b 0x1418 0x00D80001) 0x1418) 27 = false ∧ toggleDue (setR b 0x1418 0x00D80001) = true) ∧
    (updateDue State.reset = false ∧ updateDue d = true ∧ nextRegion d = some 0) ∧
    (bit (used d 0x1418) 27 = true ∧ (nth State.reset.core.thm.sens 7 {}).valid = false ∧ bit (used State.reset 0x1418) 27 = false) ∧
    (toggleDue d = false ∧ toggleDue b = true ∧ nextBlink b = some 2 ∧ b.core.pix.blinks.length = 8 ∧ coreUp b = true) ∧
    (bit (used g 0x1462) 7 = true ∧ (nth g.core.pix.blinks 0 {}).grid ≤ now g ∧ ¬(bit (used State.reset 0x1462) 7 = true)) := by
  decide +kernel

theorem witness_PanelRunAndItsEnd :
    let mv : List Int := [22000, -20000, -10000, 10000, 0]
    let at1 := fun (p : EpdPhase) => modE State.reset (fun x => { x with run := some { phase := p, pix := [{ idx := 7, dest := 1, tally := 0, seq := [], body := 0, ecc := false }] } })
    (∀ p ∈ [EpdPhase.up1, .up2, .up3, .up4, .frames, .down1, .down2, .down3, .down4], (at1 p).core.epd.run.map UpdSt.phase = some p ∧ coreUp (at1 p) = true ∧ courseDue (at1 p) 3 = false ∧ (at1 p).core.pwr.doze = false ∧ railGood (railSee (at1 p) mv) = railsOn p) ∧
    (∀ p ∈ [EpdPhase.up1, .up2, .up3, .up4], railGood (railSee (at1 p) [0, 0, 0, 0, 1000]) ≠ railsOn p) ∧
    (bit (railGood (railSee (at1 .frames) [0, -20000, -10000, 10000, 0])) (railCauseCode .vgh - 1) = false) ∧
    (Settled (at1 .down4) ∧ Settled State.reset ∧ State.reset.core.epd.run = none) ∧
    ((at1 .down4).core.epd.run.map (fun u => (u.toggle, u.subject, u.outcome)) = some (false, 0, 1) ∧ (at1 .down4).core.irq.length = 4 ∧ (at1 .down4).core.epd.recs.length = 4 ∧ swf bufReset (at1 .down4).core.buf.mem = true ∧ (at1 .down4).core.buf.bad = []) ∧
    (([7] : List Nat).Nodup ∧ 7 < 307200) := by
  unfold Settled IrqSettled; decide +kernel

theorem witness_PanelRunAndItsEnd_2 :
    let tg := modE State.reset (fun x => { x with run := some { phase := .down4, toggle := true, subject := 2, pix := [{ idx := 7, dest := 1, tally := 0, seq := [], body := 0, ecc := false }] } })
    (tg.core.epd.run.map (fun u => (u.toggle, u.subject, u.phase)) = some (true, 2, .down4) ∧ coreUp tg = true ∧ courseDue tg 3 = false) ∧
    (Settled tg) ∧
    (tg.core.irq.length = 4 ∧ tg.core.pix.blinks.length = 8 ∧ swf bufReset tg.core.buf.mem = true ∧ tg.core.buf.bad = []) := by
  unfold Settled IrqSettled; decide +kernel

theorem witness_WaveformTableIsValidated :
    let v := modP State.reset (fun p => { p with validating := true })
    (Listens State.reset 0 ∧ Listens State.reset 1 ∧ Settled State.reset ∧ bit (1 : Word) 0 = true) ∧
    (coreUp v = true ∧ Settled v ∧ v.core.pix.validating = true ∧ State.reset.core.pix.validating = false) ∧
    (wfReason v ≠ 0 ∧ (modP v (fun p => { p with stale := true })).core.pix.stale = true) := by
  unfold Settled IrqSettled Listens; decide +kernel

theorem witness_FlashSubmissionsQueueOrAreMasked :
    let q := modCh State.reset 3 (fun c => { c with state := 1 })
    let r := modCh State.reset 9 (fun c => { c with state := 2 })
    (Listens State.reset 0 ∧ Listens State.reset 1) ∧
    (ownerN State.reset (.sfr 0) = 0) ∧
    ((nth q.core.efl.chans 3 {}).state = 1 ∧ (nth r.core.efl.chans 9 {}).state = 2 ∧ (nth State.reset.core.efl.chans 0 {}).state = 0) := by
  unfold Listens; decide +kernel

theorem witness_FlashOperationsStartInRotation :
    let s := modF State.reset (fun e => { e with sfrs := [(168, 8), (0, 0), (0, 0), (0, 0), (0, 0), (0, 0), (0, 0), (0, 0)] })
    let q := fun (c : EflChan) => modCh s 1 (fun _ => c)
    let run1 := fun (c : EflChan) => modBank (q c) 0 (fun k => { k with chan := some 1 })
    (coreUp s = true ∧ courseDue s 6 = false ∧ s.core.efl.banks.length = 2 ∧ s.core.efl.chans.length = 10 ∧ s.core.irq.length = 4) ∧
    (bankIdle s 0 = true ∧ bankIdle (run1 {}) 0 = false) ∧
    (((upto 10).map (fun i => ((nth s.core.efl.banks 0 {}).last + 1 + i) % 10)).find? (eflReady (q { state := 1, op := 3 }) 0) = some 1) ∧
    (((upto 10).map (fun i => ((nth s.core.efl.banks 0 {}).last + 1 + i) % 10)).find? (eflReady s 0) = none) ∧
    (eflFormOk 3 0 0 0 = true ∧ eflRangeOk (q { state := 1, op := 3 }) 1 3 0 0 = true ∧ eflFormOk 3 1 0 0 = false) ∧
    ((eflGranules { op := 1, granule := 511 }).all (inQuota s 0) = false) := by
  decide +kernel

theorem witness_FlashOperationsEnd :
    let s := modF State.reset (fun e => { e with sfrs := [(168, 8), (0, 0), (0, 0), (0, 0), (0, 0), (0, 0), (0, 0), (0, 0)] })
    let q := fun (c : EflChan) => modCh s 1 (fun _ => c)
    let run1 := fun (c : EflChan) => modBank (q c) 0 (fun k => { k with chan := some 1 })
    let rd1 := run1 { state := 2, op := 1, addr := 0, phys := 168 * 4096 }
    let lg := modLog s (fun l => { l with base := 160, span := 5 })
    let fm := modBank (modCh lg 9 (fun _ => { state := 2, op := 9 })) 0 (fun k => { k with chan := some 9 })
    (coreUp rd1 = true ∧ courseDue rd1 6 = false ∧ rd1.core.efl.banks.length = 2 ∧ rd1.core.efl.chans.length = 10 ∧ rd1.core.irq.length = 4) ∧
    ((nth s.core.efl.banks 0 {}).chan = none ∧ (nth rd1.core.efl.banks 0 {}).chan = some 1 ∧ (nth rd1.core.efl.banks 0 {}).suspended = false) ∧
    (∀ o ∈ [1, 2, 3, 4, 5, 6], (chOf (run1 { state := 2, op := o }) 1).op = o ∧ (chOf (run1 { state := 2, op := o }) 1).early = 0) ∧
    ((chOf (run1 { state := 2, op := 2, early := 4 }) 1).early ≠ 0) ∧
    (swf flashErased rd1.flash.mem = true ∧ swf bufReset rd1.core.buf.mem = true ∧ rd1.core.buf.bad = []) ∧
    ((eflGranules (chOf rd1 1)).all (inQuota rd1 0) = true ∧ (∀ r ∈ eflRows (chOf rd1 1), (rowView rd1 r).bad = [])) ∧
    ((eflRows (chOf rd1 1)).length ≤ 256 ∧ rd1.flash.undef.elem 0 = false ∧ rd1.flash.unmarked.elem 0 = false) ∧
    ((1 < (chOf (run1 { state := 2, op := 2, data := List.replicate 512 7 }) 1).data.length / 256) ∧
      (rowOpen (run1 { state := 2, op := 6 }) 0 = false)) ∧
    (coreUp fm = true ∧ courseDue fm 6 = false ∧ (chOf fm 9).op = 9 ∧ (nth fm.core.efl.banks 0 {}).chan = some 9) := by
  decide +kernel

theorem witness_RotatingLogAdvancesAndRecovers :
    let s := modLog (setR State.reset 0x1600 0x104) (fun l => { l with base := 160, span := 5, state := 2, erases := 1 })
    let c := modBank s 0 (fun k => { k with cfg := 0x104 })
    let at1 := fun (p : AdvPhase) (b : Bool) => modLog c (fun l => { l with state := 3, phase := some p, started := b })
    (coreUp c = true ∧ (logOf c).state = 2 ∧ (logOf c).span ≠ 0 ∧ fld (eflCfg c (logBank c)) 8 8 = 1 ∧ fld (eflCfg c (logBank c)) 8 8 ≤ (logOf c).erases ∧ bankIdle c (logBank c) = true ∧ heldNvm c = false) ∧
    ((logOf State.reset).state ≠ 2 ∧ c.core.irq.length = 4 ∧ c.core.efl.banks.length = 2 ∧ c.core.efl.chans.length = 10 ∧ logBank c < 2) ∧
    (∀ p ∈ [AdvPhase.checkGap, .prepare, .copy, .commit, .clean, .cleanPtr], (logOf (at1 p true)).started = true ∧ (logOf (at1 p true)).phase = some p ∧ (logOf (at1 p true)).swap = false ∧ courseDue (at1 p true) 6 = false ∧ (nth (at1 p true).core.efl.banks (logBank (at1 p true)) {}).suspended = false) ∧
    ((logOf (at1 .copy false)).started = false ∧ (logOf (modLog (at1 .clean true) (fun l => { l with swap := true }))).swap = true) ∧
    ((nth (modBank (at1 .copy true) 0 (fun k => { k with suspended := true })).core.efl.banks 0 {}).suspended = true) ∧
    ((∀ i : Fin 16, nth ({} : EflObs).margin i.val 0 = 0 ∧ rowZeros c (16 * (160 + 2 + (logOf c).gap) + i.val) = 0) ∧
      nth ({ margin := [0, 1] } : EflObs).margin 1 0 ≠ 0) ∧
    (swf flashErased c.flash.mem = true ∧ (logOf c).phase = none) ∧
    (bankIdle (modLog c (fun l => { l with state := 1 })) (logBank c) = true ∧ (logOf (modLog c (fun l => { l with state := 1 }))).span ≠ 0) := by
  decide +kernel

theorem witness_CounterClearsAreTheStewards :
    (Listens State.reset 0 ∧ Listens State.reset 1 ∧ Listens State.reset 3) ∧
    (bit (1 : Word) 0 = true ∧ bit (2 : Word) 1 = true) := by
  unfold Listens; decide +kernel

theorem witness_NandSubmissionsAreJudged :
    let d : Desc := { ws := [0x00000001, 0, 0, 0, 0, 0, 0, 0] }
    let bs := (d.ws.map (fun w => leBytes 4 w.toNat)).flatten
    let s := modLun (withRegs [(0x1810, 1), (0x1811, 0x00FF0000), (0x1812, 0x2001)] State.reset) 0 (fun x => { x with state := 2, geom1 := 0x01000100 })
    (Listens s 0 ∧ s.core.nfc.wins.length = 4 ∧ d.ws.length = 8) ∧
    (submitCode s 0 bs = 0 ∧ courseDue s 5 = false ∧ lunReady s (d8 bs 5) = true ∧ d8 bs 0 ≠ 4) ∧
    (submitCode (withRegs [(0x240, 0), (0x241, 0), (0x242, 0), (0x243, 0)] s) 0 bs = 1 ∧ s.core.part.slotRefused.length = 4 ∧ s.core.irq.length = 4) ∧
    (submitCode s 0 (List.replicate 32 0) = 2 ∧ submitCode s 1 bs = 3 ∧ submitCode State.reset 0 bs = 4) ∧
    (submitCode (setR s 0x230 0) 0 bs = 5) ∧
    (submitCode s 0 (bs.set 1 1) = 6 ∨ submitCode s 0 (bs.set 1 1) = 0) := by
  unfold Listens; decide +kernel

set_option maxRecDepth 100000 in
theorem witness_NandChannelsComeUpAndFault :
    let up := modChan State.reset 2 (fun x => { x with vccq := 1 })
    let at1 := fun (p : InitPhase) => modChan up 2 (fun x => { x with init := p })
    let r2 := modLun (modLun (modChan up 2 (fun x => { x with sentAt := 1 })) 8 (fun x => { x with resetting := true })) 9 (fun x => { x with resetting := true })
    let ps := modLun up 8 (fun x => { x with state := 1, geomOk := true })
    (coreUp up = true ∧ up.core.nfc.flight = [] ∧ up.core.nfc.ended = [] ∧ courseDue up 5 = false ∧ up.core.nfc.chans.length = 4 ∧ up.core.nfc.luns.length = 16 ∧ up.core.irq.length = 4 ∧ up.core.nfc.counts.length = 4) ∧
    (up.core.nfc.luns.all (fun x => x.cur.isNone && x.nxt.isNone && x.contend == 0) = true) ∧
    ((chanOf State.reset 2).vccq = 0 ∧ (chanOf up 2).vccq ≠ 0) ∧
    (∀ p ∈ [InitPhase.settle, .reset, .identify, .parameter, .check, .mode], (chanOf (at1 p) 2).init = p ∧ (chanOf (at1 p) 2).ce < 2 ∧ chanBusy (at1 p) 2 = false) ∧
    (paramCopy [] = none ∧ paramCopy [List.replicate 254 0 ++ leBytes 2 (paramCrc (List.replicate 254 0))] ≠ none) ∧
    ((chanOf State.reset 2).modeDue = false ∧ (chanOf State.reset 2).init ≠ .mode) ∧
    (((upto 4).filter (fun k => (lunOf r2 (8 + k)).resetting)).length = 2 ∧ (chanOf r2 2).sentAt ≠ r2.freeCtr) ∧
    (lunPassed ps 8 = true) := by
  decide +kernel

theorem witness_NandOperationsEndOnTheirLun :
    let f : Flight := { num := 5, issuer := 1, desc := [3, 0, 1, 0, 0, 6] ++ List.replicate 26 0, st := 3 }
    let s := fun (st : Stage) (op : Nat) => modLun (modN State.reset (fun n => { n with flight := [f] })) 6 (fun x => { x with state := 2, cur := some { members := [5], op := op, stage := st } })
    let fa : Flight := { f with group := 4, desc := [3, 1, 1, 0, 0, 6] ++ List.replicate 26 0 }
    let fb : Flight := { f with num := 2, group := 4, desc := [3, 0, 1, 0, 0, 6, 0, 0, 1] ++ List.replicate 23 0 }
    let g2 := fun (op : Nat) => modLun (modN State.reset (fun n => { n with flight := [fa, fb] })) 6 (fun x => { x with
      state := 2, geom0 := 4, geom1 := 0x01000100, cur := some { members := [5, 2], op := op, stage := .last } })
    let r := modLun State.reset 6 (fun x => { x with resetting := true })
    let b := modChan (s .xferOut 1) 1 (fun x => { x with bus := some 2 })
    let i := modChan (s .xferIn 2) 1 (fun x => { x with bus := some 2 })
    let rr := withRegs [(0x1812, 0x0000D001), (0x180A, 0x05050505)] (modN (s .last 1) (fun n => { n with flight := [{ f with desc := [1, 0, 1, 0, 0, 6] ++ List.replicate 26 0 }] }))
    (coreUp (s .last 3) = true ∧ courseDue (s .last 3) 5 = false ∧ (s .last 3).core.nfc.chans.length = 4 ∧ (s .last 3).core.nfc.luns.length = 16 ∧ (s .last 3).core.nfc.wins.length = 4 ∧ (s .last 3).core.irq.length = 4 ∧ (s .last 3).core.nfc.counts.length = 4) ∧
    ((lunOf (s .last 3) 6).cur = some { members := [5], op := 3, stage := .last } ∧ (lunOf State.reset 6).cur = none) ∧
    (flightOf (s .last 3) 5 = some f ∧ f.num = 5 ∧ f.early = 0 ∧ f.silent = false ∧ (s .last 3).core.nfc.ended = [] ∧ (s .last 3).core.nfc.flight.length = 1 ∧ (lunOf (s .last 3) 6).nxt = none) ∧
    ((nth (s .last 6).core.nfc.wins 1 {}).count < 256 ∧ swf bufReset (s .last 6).core.buf.mem = true) ∧
    ((lunOf r 6).resetting = true ∧ chanBusy r 1 = true) ∧
    ((lunOf (s .array 3) 6).resetting = false ∧ (lunOf (s .array 3) 6).cur = some { members := [5], op := 3, stage := .array }) ∧
    ((chanOf State.reset 1).bus = none ∧ (chanOf b 1).bus = some 2 ∧ (lunOf b 6).cur = some { members := [5], op := 1, stage := .xferOut }) ∧
    ((lunOf i 6).cur = some { members := [5], op := 2, stage := .xferIn } ∧ bit (used i 0x1850) 1 = false) ∧
    ((lunOf (g2 3) 6).cur = some { members := [5, 2], op := 3, stage := .last } ∧ coreUp (g2 3) = true ∧ courseDue (g2 3) 5 = false) ∧
    (planeOf (g2 3) fa.desc = 0 ∧ planeOf (g2 3) fb.desc = 1 ∧ flightOf (g2 3) 5 = some fa ∧ flightOf (g2 3) 2 = some fb ∧
      (nth (g2 3).core.nfc.wins 1 {}).head < 255 ∧ (nth (g2 3).core.nfc.wins 1 {}).count < 255) ∧
    ((lunOf (s .last 5) 6).cur = some { members := [5], op := 5, stage := .last } ∧ (lunOf (s .last 4) 6).cur = some { members := [5], op := 4, stage := .last } ∧
      (lunOf (s .last 15) 6).cur = some { members := [5], op := 15, stage := .last } ∧ (lunOf (s .array 15) 6).cur = some { members := [5], op := 15, stage := .array }) ∧
    ((flightRead (s .last 1) f 0 none {}).reads = [] ∧ (flightRead (s .last 4) f 0 none {}).status = 2 ∧
      (flightRead (s .last 4) f 0 none { marker := [commitMarker], hard := [[[{ ok := true, word := slotBytes 6 0 0 0 0 0 [] }]]] }).reads = [] ∧ fLun f = 6 ∧ f.st = 3) ∧
    (canReread rr 6 { members := [5], op := 1, stage := .last } = true ∧ rereadEntry rr 6 { members := [5], op := 1, stage := .last } 0 .step = some 1 ∧
      canReread (s .last 3) 6 { members := [5], op := 3, stage := .last } = false) ∧
    (bit (used (setR (s .array 1) 0x1850 0) 0x1850) 0 = false ∧ ({} : NandObs).second = false ∧ ({} : NandObs).timeoutAt = none) ∧
    (Listens State.reset 2 ∧ State.reset.core.nfc.ended = [] ∧ State.reset.core.nfc.flight = []) := by
  unfold Listens; decide +kernel

theorem witness_CheckUnitCommandsActOrAreMasked :
    let at1 := fun (q : CvuUnit) => modU State.reset 2 (fun _ => q)
    (Listens State.reset 0 ∧ Listens State.reset 1) ∧
    (ownerN State.reset (.cvu 2) = 0) ∧
    (∀ k ∈ [0, 1, 2, 3], (cvuOf (at1 { st := k }) 2).st = k ∧ Listens (at1 { st := k }) 0) ∧
    ((cvuOf (at1 { parity := true }) 2).parity = true) ∧
    (cvuRangeOk State.reset 2 0 1 = true ∧ cvuRangeOk State.reset 2 0x3FFFF 1 = false ∧ cvuRangeOk State.reset 2 0x3FFFF 2 = false) := by
  unfold Listens; decide +kernel

theorem witness_CheckUnitsFinishAndRun :
    let at1 := fun (q : CvuUnit) => modU State.reset 2 (fun _ => q)
    (coreUp (at1 { st := 1 }) = true ∧ (at1 { st := 1 }).core.irq.length = 4 ∧ (at1 { st := 1 }).core.cvu.length = 4 ∧ ownerN (at1 { st := 1 }) (.cvu 2) < 4) ∧
    (Listens (at1 { st := 1 }) 0 ∧ (cvuOf (at1 { st := 1 }) 2).st = 1 ∧ (cvuOf State.reset 2).st ≠ 1 ∧ swf regReset State.reset.core.regs = true) ∧
    (bit (rd (setR State.reset 0x2223 0x80) 0x2223) 7 = true ∧ bit (rd (setR State.reset 0x2223 0x40) 0x2223) 6 = true) ∧
    ((cvuOf (at1 { st := 2, runLen := 4 }) 2).runAddr < 0x40000 ∧ (at1 { st := 2 }).core.buf.bad = []) ∧
    ((cvuOf (at1 { st := 2, runLen := 4, finishAfter := true }) 2).finishAfter = true ∧
      bufBad (modC (at1 { st := 2, runLen := 4 }) (fun c => { c with buf := { c.buf with bad := [0] } })) 0 4 = true) ∧
    ((flashRead { State.reset with flash := { State.reset.flash with bad := [0] } } true 0 4).2 = true ∧ (flashRead State.reset true 0 4).2 = false ∧
      bankWrites State.reset 0 = false ∧ bankWrites State.reset 1 = false ∧
      bankWrites (modBank (modCh (at1 { st := 2, runAddr := 0x2FFFFF, runLen := 2 }) 0 (fun c => { c with state := 2, op := 3 })) 1 (fun k => { k with chan := some 0 })) 1 = true ∧
      0x300000 < 0x2FFFFF + 2 ∧ ¬(0x300000 < 0x2FFFFF + 1)) ∧
    ((granulesOf 0 4).all (inQuota State.reset 0) = true ∧ (granulesOf 0x3FFFC 4).all (inQuota State.reset 0) = false) ∧
    (bankWrites (modBank (modCh (at1 { st := 2, runAddr := 0x200000, runLen := 1 }) 0 (fun c => { c with state := 2, op := 3 })) 0 (fun k => { k with chan := some 0 })) 0 = true) := by
  unfold Listens; decide +kernel

theorem witness_GangFramesReceivedAreActedOn :
    (coreUp State.reset = true ∧ State.reset.core.gng.mems.length = 4 ∧ gngEn State.reset = false ∧ State.reset.core.gng.busy = false ∧ courseDue State.reset 7 = false) ∧
    (coreUp ganged = true ∧ ganged.core.gng.mems.length = 4 ∧ gngEn ganged = true ∧ selfId ganged = 0 ∧ courseDue ganged 7 = false ∧ ganged.core.gng.fwd.length ≤ 16) ∧
    (memStatus ganged 1 = 1 ∧ bit (1 : BitVec 4) 0 = true ∧ bit (2 : BitVec 4) 0 = false) ∧
    ((modG ganged (fun g => { g with keystone := some 1 })).core.gng.keystone = some 1 ∧ ganged.core.gng.keystone ≠ some 1) ∧
    (ganged.core.capo.trig = 0 ∧ bit (used ganged 0x53) 6 = true ∧ ganged.core.capo.held = false ∧ bit (used (setR ganged 0x53 0x11) 0x53) 6 = false) ∧
    ((4 : Int).natAbs ≤ 4 ∧ 4 < (-5 : Int).natAbs ∧ 32768 < (32769 : Int).natAbs) := by
  decide +kernel

theorem witness_GangFramesSentAndMembersLost_2 :
    let h := modG ganged (fun x => { x with pendHello := true })
    let f := modG ganged (fun x => { x with fwd := [(0, 1, 2, 3, 4)] })
    (gangNext h = some 5 ∧ h.core.gng.pendTime = false ∧ h.core.gng.pendState = false ∧ h.core.gng.pendRpg = false ∧ h.core.gng.owed = false) ∧
    (gangNext f = some 6 ∧ f.core.gng.fwd.head? = some (0, 1, 2, 3, 4)) := by
  decide +kernel

theorem witness_GangFramesSentAndMembersLost :
    let g := modG ganged (fun g => { g with lastVote := effVote ganged })
    (coreUp g = true ∧ g.core.gng.mems.length = 4 ∧ Settled g ∧ gngEn g = true ∧ courseDue g 7 = false) ∧
    (g.core.gng.busy = false ∧ (modG g (fun x => { x with busy := true })).core.gng.busy = true ∧ g.core.gng.keystone = some (selfId g) ∧ g.core.key.fwdDue = []) ∧
    (gangNext g = none ∧ gangNext (modG g (fun x => { x with pendCapo := true })) = some 1 ∧ gangNext (modG g (fun x => { x with owed := true })) = some 5 ∧ gangNext (modG g (fun x => { x with pendState := true })) = some 2) ∧
    (gangNext (modG g (fun x => { x with pendRpg := true })) = some 3 ∧ gangNext (modG g (fun x => { x with pendTime := true })) = some 4 ∧ gangNext (modG g (fun x => { x with fwd := [(0, 1, 2, 3, 4)] })) = some 6) ∧
    (memStatus g 1 = 1 ∧ memStatus g 2 ≠ 1 ∧ (gngMembers g).testBit 1 = true) ∧
    (g.core.gng.dup = none ∧ (modG g (fun x => { x with dup := some 1, mmField := 5 })).core.gng.dup ≠ none) ∧
    (Listens g 0 ∧ Listens g 1 ∧ swf regReset g.core.regs = true) ∧
    (fld (3 : Word) 0 3 = 3 ∧ fld (5 : Word) 0 3 ≠ 2 ∧ fld (5 : Word) 0 3 ≠ 3 ∧ fld (5 : Word) 0 3 ≠ 4) := by
  unfold Settled IrqSettled Listens; decide +kernel

/-- A monitor's code is its pin voltage over 2.500 V times 4,096, rounded down and saturated (06 R161): half the reference,
one code step less 1 uV, and the reference itself. -/
theorem test_adc_code : adcCode 1250000 = 2048 ∧ adcCode 610 = 0 ∧ adcCode 2500000 = 4095 := by decide

end Sys2Proof.Tests
end

section
/-! PROOFS. What a read of a register word that no resource hides returns, and the DEV identity and capability words. -/

namespace Sys2Proof.Machine

/-- Only words of EPD_LASTREC and of its capo copies show that record (09 Edges). -/
theorem lastRecHidden_below (s : State) (p a : Nat) (h : a < 0x1440) : lastRecHidden s p a = false := by
  have h1 : ¬(0x1440 ≤ a ∧ a < 0x1444) := by omega
  have h2 : ¬(0x15C6 ≤ a ∧ a < 0x15CA) := by omega
  simp [lastRecHidden, h1, h2]

/-- Below KEY_DOWN no word shows matrix positions (08 R247). -/
theorem keyHidden_below (s : State) (p a : Nat) (h : a < 0x1268) : keyHidden s p a = 0 := by
  have h1 : ¬(0x1268 ≤ a ∧ a < 0x126D) := by omega
  have h2 : ¬(0x126D ≤ a ∧ a < 0x1272) := by omega
  have h3 : ¬(0x13C4 ≤ a ∧ a < 0x13C9) := by omega
  simp only [keyHidden, if_neg h1, if_neg h2, if_neg h3]

/-- A primary register lies in the first half of its block's page (16 R429). -/
theorem primReg_offset {a : Nat} {r : RegSpec} (h : primReg a = some r) : a % 0x200 < 0x100 := by
  by_contra hge
  simp [primReg, show a % 0x200 ≥ 0x100 by omega] at h

/-- A primary register is what stands at its own address. -/
theorem regAt_of_primReg {a : Nat} {r : RegSpec} (h : primReg a = some r) (ha : a < 0x2600) : regAt a = some r := by
  simp [regAt, primReg_offset h, h, show ¬ 0x2600 ≤ a by omega]

/-- A register whose fields concern no resource is hidden from nobody (04 R106). -/
theorem readHidden_of_noResource (s : State) (p : Nat) {a : Nat} {r : RegSpec} (h : regAt a = some r)
    (hf : ∀ f ∈ r.fs, f.conc = none) : readHidden s p a = false := by
  cases hfs : r.fs with
  | nil => simp [readHidden, h, hfs]
  | cons f rest =>
    have hc : f.conc = none := hf f (by simp [hfs])
    simp [readHidden, fieldHidden, h, hfs, hc]

/-- A primary register below the KEY status words, with no write-only field and no resource concerned, reads its value under
the mask of its fields, to every partition. -/
theorem readWord_of_noResource (s : State) (p : Nat) {a : Nat} {r : RegSpec} (h : primReg a = some r) (ha : a < 0x1268)
    (hf : ∀ f ∈ r.fs, f.conc = none ∧ f.acc ≠ .wo) : readWord s p a = regValue s p a &&& fsMask r.fs := by
  have hall : r.fs.filter (fun f => f.acc != .wo && !fieldHidden s p f) = r.fs := by
    refine List.filter_eq_self.mpr fun f hm => ?_
    obtain ⟨hc, hw⟩ := hf f hm
    simp [fieldHidden, hc, hw]
  have hv : wordValue s p a = regValue s p a := by
    simp [wordValue, primReg_offset h, h, show ¬ 0x2600 ≤ a by omega]
  have hm : ~~~(0 : Word) = BitVec.allOnes 32 := by decide
  simp only [readWord, regAt_of_primReg h (by omega : a < 0x2600), hall, hv, lastRecHidden_below s p a (by omega),
    keyHidden_below s p a ha, hm, BitVec.and_allOnes, Bool.false_eq_true, if_false]

/-- DEV_ID's register (00 Table 0-2). -/
theorem primReg_devId : primReg 0 = some { reset := 0x0E0900B1, fs := [fRo (bitsM [(0, 8), (16, 16)])] } := rfl

/-- DEV_ID reads the device's identity in every state, to every partition. -/
theorem readWord_devId (s : State) (p : Nat) : readWord s p 0 = 0x0E0900B1 := by
  rw [readWord_of_noResource s p primReg_devId (by decide) (by decide)]
  have hv : regValue s p 0 = 0x0E0900B1 := rfl
  rw [hv]
  decide

/-- The capability words of Table 0-3, DEV_CAP0 first. -/
def capWords : List Word :=
  [0x00000143, 0x00001024, 0x00400400, 0x00000624, 0x0000046A, 0x0004B000, 0x01E00280, 0x00000484,
   0x00020800, 0x00000100, 0x0083100A, 0x00000048, 0x0004080C, 0x00008010, 0x00000004, 0x00000001]

/-- DEV_CAPk's register has the bits that Table 0-3 lists. -/
theorem primReg_devCap {k : Nat} (hk : k < 16) : primReg (0x10 + k) = some { fs := [fRo (capMask k)] } := by
  have hdiv : (0x10 + k) / 0x200 = 0 := by omega
  have hmod : (0x10 + k) % 0x200 = 0x10 + k := by omega
  simp [primReg, devReg, roReg, hdiv, hmod, show ¬ 0x100 ≤ 0x10 + k by omega, show 0x10 + k < 0x20 by omega,
    show 0x10 + k ≠ 1 ∧ 0x10 + k ≠ 2 by omega]

/-- DEV_CAPk's value is the table's, whatever the state. -/
theorem regValue_devCap (s : State) (p : Nat) {k : Nat} (hk : k < 16) : regValue s p (0x10 + k) = nth capWords k 0 := by
  have hdiv : (0x10 + k) / 0x200 = 0 := by omega
  have hmod : (0x10 + k) % 0x200 = 0x10 + k := by omega
  have hlive : devLive s p (0x10 + k) = capWords[k]? := by
    simp [devLive, capWords, show 0x10 + k < 0x20 by omega, show 0x10 + k ≠ 1 ∧ 0x10 + k ≠ 2 by omega]
  have hlen : k < capWords.length := hk
  simp [regValue, hdiv, hmod, hlive, nth, hlen]

/-- DEV_CAPk reads its word of the table, to every partition. -/
theorem readWord_devCap (s : State) (p : Nat) {k : Nat} (hk : k < 16) : readWord s p (0x10 + k) = nth capWords k 0 := by
  rw [readWord_of_noResource s p (primReg_devCap hk) (by omega) (by simp [fRo]), regValue_devCap s p hk]
  have hlisted : ∀ j < 16, nth capWords j 0 &&& fsMask [fRo (capMask j)] = nth capWords j 0 := by decide
  exact hlisted k hk

end Sys2Proof.Machine
end

section
/-! PROOFS. How a register read frame on a host port runs, from select to the end of its instant (02 R53, R57-R61). -/

namespace Sys2Proof.Machine

theorem Listens.up {s : State} {p : Part} (h : Listens s p) : coreUp s = true := h.1
theorem Listens.notInReset {s : State} {p : Part} (h : Listens s p) : inReset s p.val = false := h.2.1
theorem Listens.noDeviceReset {s : State} {p : Part} (h : Listens s p) : s.core.pwr.devrst = false := h.2.2.1
theorem Listens.fourPorts {s : State} {p : Part} (h : Listens s p) : s.core.ports.length = 4 := h.2.2.2

/-- A change of port p, as its record shows it. -/
theorem portOf_modPort (s : State) (p : Part) (f : PortSt → PortSt) (h : s.core.ports.length = 4) :
    portOf (modPort s p.val f) p = f (portOf s p) :=
  nth_upd_same s.core.ports p.val f {} (by omega)

/-- The end of an instant leaves the host ports: only SP_ALERT_N of SP may assert again. -/
theorem portOf_settle (s : State) {p : Part} (hp : p ≠ 3) : portOf (settle s) p = portOf s p := by
  have hv : p.val ≠ 3 := fun h => hp (Fin.ext h)
  show nth (portsAfter s) p.val {} = nth s.core.ports p.val {}
  unfold portsAfter
  dsimp only
  split
  · rfl
  · exact nth_upd_ne _ _ _ _ _ hv

/-- The begin of a frame keeps the STATUS and SEQ that the next response reports. -/
theorem portBegin_keeps_last (s : State) (p : Part) (m : Bool) (h : s.core.ports.length = 4) :
    (portOf (portBegin s p.val m) p).lastStatus = (portOf s p).lastStatus ∧
      (portOf (portBegin s p.val m) p).lastSeq = (portOf s p).lastSeq := by
  have hport : portOf (portBegin s p.val m) p = _ := portOf_modPort s p _ h
  rw [hport]
  exact ⟨rfl, rfl⟩

/-- A change of a port leaves it listening. -/
theorem listens_modPort {s : State} {p : Part} (n : Nat) (f : PortSt → PortSt) (h : Listens s p) : Listens (modPort s n f) p :=
  ⟨h.up, h.notInReset, h.noDeviceReset, (length_upd _ _ _).trans h.fourPorts⟩

/-- The begin of a frame leaves its port listening. -/
theorem listens_portBegin {s : State} {p : Part} (m : Bool) (h : Listens s p) : Listens (portBegin s p.val m) p :=
  ⟨h.up, h.notInReset, h.noDeviceReset, (length_upd _ _ _).trans h.fourPorts⟩

/-- A frame that ends OK changes its port's record alone. -/
theorem frameEnd_ok {s : State} {p : Part} (hs : Listens s p) (h : Hdr) (n : Nat) :
    frameEnd s p.val h 0 n =
      modPort s p.val (fun q => { q with frames := q.frames + 1, lastStatus := 0, lastSeq := BitVec.ofNat 8 h.seq }) := by
  simp [frameEnd, errIndex, hs.notInReset, hs.noDeviceReset]

/-- A frame that ends OK counts, and its port's next response reports OK and its SEQ (02 R59). -/
theorem portOf_frameEnd_ok {s : State} {p : Part} (hs : Listens s p) (h : Hdr) (n : Nat) :
    portOf (frameEnd s p.val h 0 n) p =
      { portOf s p with frames := (portOf s p).frames + 1, lastStatus := 0, lastSeq := BitVec.ofNat 8 h.seq } := by
  rw [frameEnd_ok hs, portOf_modPort _ _ _ hs.fourPorts]

/-- A frame with no fault of Table 2-5's orders 7 to 10 is whole and its request CRC matches. -/
theorem whole_of_checkOutcome_none {s : State} {f : Frame} {o : OpForm} {need : Nat} (h : checkOutcome s f o need = none) :
    need ≤ f.bytes.length ∧ requestCrcOk f need = true := by
  unfold checkOutcome at h
  dsimp only at h
  split at h
  · cases h
  · rename_i hlen
    split at h
    · cases h
    · rename_i hcrc
      simp only [Bool.or_eq_true, decide_eq_true_eq, not_or] at hlen
      obtain ⟨hlen, -⟩ := hlen
      have hreq : need ≤ requestLen f o need := Nat.le_add_right _ _
      exact ⟨by omega, by simpa using hcrc⟩

/-- A whole frame on a host port, with nothing after its request CRC, which matches, has no fault of these orders. -/
theorem checkOutcome_host_none {s : State} {f : Frame} {o : OpForm} {need : Nat} (hp : f.port ≠ 3)
    (hlen : f.bytes.length = need) (hcrc : requestCrcOk f need = true) (hx : f.extra = false) : checkOutcome s f o need = none := by
  simp [checkOutcome, requestLen, b2n, hp, hlen, hcrc, hx]

/-- A response with a valid check on a host port, by the record of the port (02 R53, R57). -/
theorem response_host (s : State) {p : Part} (hp : p ≠ 3) (seq flags : Nat) (data sent : List Byte) :
    response s p.val seq flags data true sent =
      let body := [(portOf s p).lastStatus, (portOf s p).lastSeq, BitVec.ofNat 8 flags] ++ data
      body ++ (leBytes 2 (crc16 (BitVec.ofNat 8 p.val :: BitVec.ofNat 8 seq :: body))).reverse :=
  if_neg fun h => hp (Fin.ext h)

/-- A frame on a host port whose header is sound runs on the port as it finds it. -/
theorem evalFrame_host {s : State} {f : Frame} {o : OpForm} {h : Hdr} (hp : f.port ≠ 3) (he : f.noEdges = false)
    (hop : opForm (nth f.bytes 0 0).toNat = some o)
    (hh : frameHdr (portBegin s f.port.val f.mode3) f (some o) = h) (hok : headerOutcome f (some o) h = none) :
    evalFrame s f = frameRun (portBegin s f.port.val f.mode3) f o h none := by
  have hv : f.port.val ≠ 3 := fun h => hp (Fin.ext h)
  have hb : f.bytes ≠ [] := fun c => by simp [headerOutcome, c] at hok
  unfold evalFrame
  generalize (nth f.bytes 0 0).toNat = op at hop ⊢
  have hop' : op ≠ 0xFF := by rintro rfl; cases hop
  simp [he, hb, hv, hop', hop, hh, hok]

/-- The form of RD (02 Table 2-3). -/
def rdForm : OpForm := { lenMax := 0x3F, bulk := false, unit := 0, guard := false, writes := false, reads := true }

/-- The form of opcode 0x01. -/
theorem opForm_rd : opForm 0x01 = some rdForm := rfl

/-- A register read whose checks pass, in time, and whose words may be read: it sends the words and ends OK
(02 R53, R59). -/
theorem frameRun_rd_ok {s : State} {f : Frame} {h : Hdr} {data : List Byte} {flags : Nat}
    (hl : f.late = false) (hin : inReset s f.port.val = false) (hc : checkOutcome s f rdForm 7 = none)
    (hread : frameRead s f.port.val h rdForm = (0, data, flags)) :
    frameRun s f rdForm h none =
      frameEnd (modPort s f.port.val (fun q =>
        { q with resp := response s f.port.val h.seq (flags + reducedFlag s) data true f.bytes })) f.port.val h 0 (hostBytes f) := by
  obtain ⟨hneed, hcrc⟩ := whole_of_checkOutcome_none hc
  have hlen : rdForm.hostLen (h.len + 1) = 7 := by simp [rdForm, OpForm.hostLen, OpForm.hdrLen]
  have hr : rdForm.reads = true := rfl
  have hw : rdForm.writes = false := rfl
  have hbulk : rdForm.bulk = false := rfl
  simp [frameRun, responds, hlen, hl, hin, hr, hw, hbulk, hc, hread, hneed, hcrc]

/-- A read frame runs where the core does. -/
theorem exec_rd {s : State} (f : Frame) (hup : coreUp s = true) : exec (.rd f) s = .next (settle (evalFrame s f)) := by
  show instant (whenCore (fun s => evalFrame s f)) s = _
  rw [instant_eq, whenCore_up s _ hup]

/-- A register read on a host port, judged OK: its port sends the response, and the next response reports OK
and its SEQ (02 R53, R59). -/
theorem exec_rd_ok {s : State} {f : Frame} {h : Hdr} {data : List Byte} {flags : Nat}
    (hs : Listens s f.port) (hp : f.port ≠ 3) (he : f.noEdges = false) (hl : f.late = false)
    (hop : opForm (nth f.bytes 0 0).toNat = some rdForm)
    (hh : frameHdr (portBegin s f.port.val f.mode3) f (some rdForm) = h) (hok : headerOutcome f (some rdForm) h = none)
    (hc : checkOutcome (portBegin s f.port.val f.mode3) f rdForm 7 = none)
    (hread : frameRead (portBegin s f.port.val f.mode3) f.port.val h rdForm = (0, data, flags)) :
    ∃ t, exec (.rd f) s = .next t ∧
      (portOf t f.port).resp = response (portBegin s f.port.val f.mode3) f.port.val h.seq
        (flags + reducedFlag (portBegin s f.port.val f.mode3)) data true f.bytes ∧
      (portOf t f.port).lastStatus = 0 ∧ (portOf t f.port).lastSeq = BitVec.ofNat 8 h.seq := by
  have hbegin := listens_portBegin f.mode3 hs
  refine ⟨_, exec_rd f hs.up, ?_⟩
  rw [portOf_settle _ hp, evalFrame_host hp he hop hh hok, frameRun_rd_ok hl hbegin.notInReset hc hread,
    portOf_frameEnd_ok (listens_modPort _ _ hbegin), portOf_modPort _ _ _ hbegin.fourPorts]
  exact ⟨rfl, rfl, rfl⟩

/-- A register read of one word that is not hidden and passes parity. -/
theorem frameRead_word {s : State} {p : Nat} {h : Hdr} (hlen : h.len = 0) (hh : readHidden s p h.addr = false)
    (hb : wordBad s h.addr = false) : frameRead s p h rdForm = (0, beBytes (readWord s p h.addr), 0) := by
  simp [frameRead, upto, rdForm, hlen, hh, hb]

end Sys2Proof.Machine
end

section
/-! PROOFS. Chapter 00: the capability registers, and the worked read of DEV_ID (00 R4, R5, 02 Worked example). -/

namespace Sys2Proof.Machine

/-- The worked frame of chapter 02: RD of DEV_ID on P1 with SEQ 0x2A. -/
def devIdFrame : Frame := { port := 1, bytes := [0x01, 0x2A, 0x00, 0x00, 0x00, 0xBE, 0x04] }

/-- Its header. -/
def devIdHdr : Hdr := { op := 1, seq := 0x2A, addr := 0, len := 0, bulk := false }

/-- Every header byte has arrived, so none is free. -/
theorem frameHdr_devIdFrame (s : State) : frameHdr s devIdFrame (some rdForm) = devIdHdr := rfl

/-- The frame's request CRC is right (02 Table 2-18). -/
theorem requestCrcOk_devIdFrame : requestCrcOk devIdFrame 7 = true := by decide +kernel

/-- The frame reads the four bytes of DEV_ID, where no word fails parity. -/
theorem frameRead_devId {s : State} (hpar : s.core.parity = []) :
    frameRead s 1 devIdHdr rdForm = (0, [0x0E, 0x09, 0x00, 0xB1], 0) := by
  have hh : readHidden s 1 0 = false :=
    readHidden_of_noResource s 1 (regAt_of_primReg primReg_devId (by decide)) (by decide)
  have hb : wordBad s 0 = false := by simp [wordBad, badW, hpar]
  rw [frameRead_word rfl hh hb]
  show ((0, beBytes (readWord s 1 0), 0) : Nat × List Byte × Nat) = _
  rw [readWord_devId]
  decide

/-- The response of P1 to the worked frame, out of the reduced state: CRC 0xEF9E (02 Worked example). -/
theorem response_devId {s : State} (hred : reduced s = false) (hst : (portOf s 1).lastStatus = 0x00)
    (hseq : (portOf s 1).lastSeq = 0x29) (sent : List Byte) :
    response s (1 : Part).val 0x2A (0 + reducedFlag s) [0x0E, 0x09, 0x00, 0xB1] true sent
      = [0x00, 0x29, 0x00, 0x0E, 0x09, 0x00, 0xB1, 0xEF, 0x9E] := by
  have hflag : reducedFlag s = 0 := by simp [reducedFlag, hred]
  rw [response_host s (by decide), hst, hseq, hflag]
  decide +kernel

/-- Settles O3: every word is read under a register of no resource, and the worked frame is a register read judged OK. -/
theorem capabilitiesReadAsTheTableLists : Obligations.CapabilitiesReadAsTheTableLists := by
  unfold Obligations.CapabilitiesReadAsTheTableLists
  refine ⟨fun s p => ⟨readWord_devId s p.val, ?_⟩, fun s hs hred hst hseq hpar => ?_⟩
  · calc (upto 16).map (fun i => readWord s p.val (0x10 + i))
        = (upto 16).map (fun i => nth capWords i 0) :=
          List.map_congr_left fun i hi => readWord_devCap s p.val (List.mem_range.mp hi)
      _ = capWords := by decide
  · obtain ⟨hst', hseq'⟩ := portBegin_keeps_last s 1 false hs.fourPorts
    obtain ⟨t, ht, hresp, hok, hlast⟩ := exec_rd_ok (f := devIdFrame) hs (by decide) rfl rfl opForm_rd
      (frameHdr_devIdFrame _) (by decide) (checkOutcome_host_none (by decide) rfl requestCrcOk_devIdFrame rfl)
      (frameRead_devId hpar)
    have hbytes := response_devId (s := portBegin s (1 : Part).val false) hred (hst'.trans hst) (hseq'.trans hseq)
    exact ⟨t, ht, hresp.trans (hbytes _), hok, hlast⟩

end Sys2Proof.Machine
end

section
/-! PROOFS. The ports that an operation of the core leaves as they are: everything that a register write may set in motion
but a partition reset and the clear of a port's counters. -/

namespace Sys2Proof.Machine

section Shapes

variable {α : Type} (s : State)

/-- Ports of a conditional change. The decision is implicit, so that a condition that simp has rewritten still matches. -/
@[simp] theorem ite_core_ports {c : Prop} {_ : Decidable c} (a b : State) :
    (if c then a else b).core.ports = if c then a.core.ports else b.core.ports :=
  apply_ite (fun x : State => x.core.ports) c a b

/-- Ports of a conditional change with an outcome beside it. -/
@[simp] theorem ite_fst_core_ports {c : Prop} {_ : Decidable c} (a b : State × α) :
    (if c then a else b).1.core.ports = if c then a.1.core.ports else b.1.core.ports :=
  apply_ite (fun x : State × α => x.1.core.ports) c a b

/-- Changes made one after the other keep the ports where each does. -/
theorem foldl_core_ports (l : List α) (f : State → α → State)
    (h : ∀ s a, (f s a).core.ports = s.core.ports) : (l.foldl f s).core.ports = s.core.ports :=
  List.foldlRecOn l f (motive := fun x => x.core.ports = s.core.ports) rfl fun b hb a _ => (h b a).trans hb

/-- Ports of a change under a condition. -/
@[simp] theorem whenS_core_ports (b : Bool) (f : State → State) :
    (whenS b s f).core.ports = if b then (f s).core.ports else s.core.ports := ite_core_ports (f s) s

end Shapes

section Words

variable (s : State)

@[simp] theorem passes_core_ports (t : Nat → Bool) : (passes s t).core.ports = s.core.ports := rfl
@[simp] theorem setR_core_ports (a : Nat) (v : Word) : (setR s a v).core.ports = s.core.ports := rfl
@[simp] theorem setA_core_ports (a : Nat) (v : Word) : (setA s a v).core.ports = s.core.ports := rfl
@[simp] theorem setStored_core_ports (a : Nat) (v : Word) : (setStored s a v).core.ports = s.core.ports := by
  simp [setStored]
@[simp] theorem raise_core_ports (p n : Nat) : (raise s p n).core.ports = s.core.ports := rfl
@[simp] theorem raiseAll_core_ports (n : Nat) : (raiseAll s n).core.ports = s.core.ports := rfl
@[simp] theorem raiseOwner0_core_ports (r : Res) (n : Nat) : (raiseOwner0 s r n).core.ports = s.core.ports := rfl
@[simp] theorem raiseOwner_core_ports (r : Res) (n : Nat) : (raiseOwner s r n).core.ports = s.core.ports := rfl
@[simp] theorem capoFault_core_ports (n : Nat) : (capoFault s n).core.ports = s.core.ports := by simp [capoFault]
@[simp] theorem capoTrigger_core_ports (n : Nat) : (capoTrigger s n).core.ports = s.core.ports := rfl
@[simp] theorem bufTouch_core_ports (a n : Nat) : (bufTouch s a n).core.ports = s.core.ports := rfl
@[simp] theorem bufStore_core_ports (a : Nat) (bs : List Byte) : (bufStore s a bs).core.ports = s.core.ports := rfl
@[simp] theorem granuleClear_core_ports (g : Nat) : (granuleClear s g).core.ports = s.core.ports := rfl
@[simp] theorem flashSuspend_core_ports : (flashSuspend s).core.ports = s.core.ports := by simp [flashSuspend]
@[simp] theorem restage_core_ports (m : Nat → Word) : (restage s m).core.ports = s.core.ports := by
  simp [restage, foldl_core_ports]

end Words

section Keys

variable (s : State)

@[simp] theorem setKey_core_ports (n : Nat) (k : KeySt) : (setKey s n k).core.ports = s.core.ports := rfl
@[simp] theorem fifoPost_core_ports (p typ subj fl d t v : Nat) :
    (fifoPost s p typ subj fl d t v).core.ports = s.core.ports := by simp [fifoPost]
@[simp] theorem keyFwd_core_ports (n typ fl t : Nat) : (keyFwd s n typ fl t).core.ports = s.core.ports := by simp [keyFwd]
@[simp] theorem keyPost_core_ports (p n typ x t : Nat) : (keyPost s p n typ x t).core.ports = s.core.ports := by simp [keyPost]
@[simp] theorem keyRbr_core_ports (n : Nat) : (keyRbr s n).core.ports = s.core.ports := by simp [keyRbr]

/-- A merge into the youngest entry, where there is one to merge into. -/
theorem encMerge_core_ports {p n : Nat} {d : Int} {t v : Nat} {u : State} (h : encMerge s p n d t v = some u) :
    u.core.ports = s.core.ports := by
  unfold encMerge at h
  dsimp only at h
  split at h
  · split at h
    · cases h
      rfl
    · cases h
  · cases h

@[simp] theorem encPost_core_ports (e : EncDue) : (encPost s e).core.ports = s.core.ports := by
  unfold encPost
  dsimp only
  split
  · rfl
  · split
    next h => exact encMerge_core_ports s h
    next => exact fifoPost_core_ports ..

@[simp] theorem encFlush_core_ports : (encFlush s).core.ports = s.core.ports := by simp [encFlush, foldl_core_ports]
@[simp] theorem lockPost_core_ports (typ : Nat) : (lockPost s typ).core.ports = s.core.ports := by
  simp [lockPost, foldl_core_ports]
@[simp] theorem lockOp_core_ports : (lockOp s).core.ports = s.core.ports := by
  simp [lockOp, setLocked, matchIdle, foldl_core_ports]
@[simp] theorem unlockOp_core_ports : (unlockOp s).core.ports = s.core.ports := by
  simp [unlockOp, setLocked, matchIdle, foldl_core_ports]
@[simp] theorem lockCtlOp_core_ports (v : Word) : (lockCtlOp s v).core.ports = s.core.ports := by simp [lockCtlOp]
@[simp] theorem fifoPopOp_core_ports (p n : Nat) : (fifoPopOp s p n).core.ports = s.core.ports := rfl
@[simp] theorem encRef_core_ports (n : Nat) : (encRef s n).core.ports = s.core.ports := rfl
@[simp] theorem keyFifoReset_core_ports (p : Nat) : (keyFifoReset s p).core.ports = s.core.ports := rfl
@[simp] theorem keyGroupMoved_core_ports (o g : Nat) : (keyGroupMoved s o g).core.ports = s.core.ports := by
  simp [keyGroupMoved, foldl_core_ports]
@[simp] theorem hookKey_core_ports (o : State) : (hookKey o s).core.ports = s.core.ports := by simp [hookKey, foldl_core_ports]

end Keys

section Panel

variable (s : State)

@[simp] theorem pixReplace_core_ports (l : List Nat) : (pixReplace s l).core.ports = s.core.ports :=
  foldl_core_ports _ _ _ fun _ _ => rfl
@[simp] theorem pixelWrites_core_ports (a : Nat) (bs : List Byte) : (pixelWrites s a bs).core.ports = s.core.ports :=
  (foldl_core_ports (pixReplace s (pixelsOf a bs.length)) _ _ fun _ _ => by rfl).trans (pixReplace_core_ports s _)
@[simp] theorem noteDue_core_ports : (noteDue s).core.ports = s.core.ports := rfl
@[simp] theorem epdRequestOp_core_ports (r f : BitVec 4) : (epdRequestOp s r f).core.ports = s.core.ports := by
  simp [epdRequestOp, foldl_core_ports]
@[simp] theorem epdDiscard_core_ports (m : BitVec 4) : (epdDiscard s m).core.ports = s.core.ports := rfl
@[simp] theorem epdRegionMoved_core_ports (r : Nat) : (epdRegionMoved s r).core.ports = s.core.ports := rfl
@[simp] theorem wfValidateStart_core_ports (b : Bool) : (wfValidateStart s b).core.ports = s.core.ports := by
  simp [wfValidateStart]
@[simp] theorem panelCopy_core_ports : (panelCopy s).core.ports = s.core.ports := rfl
@[simp] theorem hookEpd_core_ports (o : State) : (hookEpd o s).core.ports = s.core.ports := by
  simp only [hookEpd, whenS_core_ports, wfValidateStart_core_ports, modP_core_ports, epdDiscard_core_ports, ite_self]
  refine (foldl_core_ports _ _ _ fun _ _ => by rfl).trans ?_
  simp

end Panel

section FlashAndFlow

variable (s : State)

@[simp] theorem eflSubmit_core_ports (p c a op n g : Nat) : (eflSubmit s p c a op n g).1.core.ports = s.core.ports := by
  simp [eflSubmit]
@[simp] theorem opStarted_core_ports (b : Nat) : (opStarted s b).core.ports = s.core.ports := by simp [opStarted]
@[simp] theorem advTry_core_ports : (advTry s).core.ports = s.core.ports := by simp [advTry]
@[simp] theorem eflDiscard_core_ports (c : Nat) (q : Bool) : (eflDiscard s c q).core.ports = s.core.ports := by
  simp [eflDiscard]
@[simp] theorem eflPartReset_core_ports (p : Nat) : (eflPartReset s p).core.ports = s.core.ports := by
  simp [eflPartReset, foldl_core_ports]
@[simp] theorem hookFlw_core_ports (o : State) : (hookFlw o s).core.ports = s.core.ports := by
  refine foldl_core_ports _ _ _ fun s n => ?_
  simp only [whenS_core_ports, modFsw_core_ports, modDrive_core_ports, ite_self]
  split
  · refine (foldl_core_ports _ _ _ fun _ _ => by rfl).trans ?_
    simp
  · rfl
@[simp] theorem ageWritten_core_ports (n b : Nat) : (ageWritten s n b).core.ports = s.core.ports := rfl
@[simp] theorem stallCleared_core_ports (n : Nat) : (stallCleared s n).core.ports = s.core.ports := rfl

end FlashAndFlow

section Gang

variable (s : State)

@[simp] theorem gangJudge_core_ports : (gangJudge s).core.ports = s.core.ports := by simp [gangJudge]
@[simp] theorem setMismatch_core_ports (m f : Nat) : (setMismatch s m f).core.ports = s.core.ports := by simp [setMismatch]
@[simp] theorem gangRestart_core_ports : (gangRestart s).core.ports = s.core.ports := by
  simp only [gangRestart, ite_core_ports, raiseAll_core_ports, modG_core_ports, setMismatch_core_ports, ite_self]
@[simp] theorem hookGng_core_ports (o : State) : (hookGng o s).core.ports = s.core.ports := by simp [hookGng]
@[simp] theorem voteWritten_core_ports (o : State) : (voteWritten o s).core.ports = s.core.ports := by simp [voteWritten]

end Gang

section Nand

variable (s : State)

@[simp] theorem sendTo_core_ports (c ce : Nat) (cy : List NandCycle) : (sendTo s c ce cy).core.ports = s.core.ports := by
  simp [sendTo]
@[simp] theorem sendLun_core_ports (l : Nat) (cy : List NandCycle) : (sendLun s l cy).core.ports = s.core.ports := by
  simp [sendLun]
@[simp] theorem applyEntry_core_ports (l k : Nat) : (applyEntry s l k).core.ports = s.core.ports := by simp [applyEntry]
@[simp] theorem modFl_core_ports (n : Nat) (f : Flight → Flight) : (modFl s n f).core.ports = s.core.ports := rfl
@[simp] theorem postOne_core_ports (f : Flight) : (postOne s f).core.ports = s.core.ports := by simp [postOne]

@[simp] theorem postAll_core_ports : (postAll s).core.ports = s.core.ports := by
  unfold postAll
  dsimp only
  refine (foldl_core_ports _ _ _ fun s n => ?_).trans (modN_core_ports s _)
  split
  · simp
  · rfl

@[simp] theorem endFlight_core_ports (n st : Nat) : (endFlight s n st).core.ports = s.core.ports := by
  unfold endFlight
  split <;> simp

@[simp] theorem endAll_core_ports (l : List (Nat × Nat)) : (endAll s l).core.ports = s.core.ports := by
  simp [endAll, foldl_core_ports]
@[simp] theorem discardFlights_core_ports (t : Flight → Bool) : (discardFlights s t).core.ports = s.core.ports := by
  simp [discardFlights]

@[simp] theorem lunResetOp_core_ports (l : Nat) (k : List Nat) : (lunResetOp s l k).core.ports = s.core.ports := by
  simp only [lunResetOp, discardFlights_core_ports, modChan_core_ports, modN_core_ports]
  exact (foldl_core_ports _ _ _ fun _ _ => by rfl).trans (sendLun_core_ports s l _)
@[simp] theorem contendUpdate_core_ports (l : Nat) : (contendUpdate s l).core.ports = s.core.ports := by simp [contendUpdate]

@[simp] theorem chooseLun_core_ports (l : Nat) : (chooseLun s l).2.core.ports = s.core.ports := by
  unfold chooseLun
  dsimp only
  split <;> simp

@[simp] theorem rawAdvance_core_ports (l : Nat) (r : RunSt) : (rawAdvance s l r).2.core.ports = s.core.ports := by
  simp [rawAdvance]

@[simp] theorem runStart_core_ports (l : Nat) (r : RunSt) : (runStart s l r).core.ports = s.core.ports := by
  unfold runStart
  split <;> simp

@[simp] theorem dispatchRun_core_ports (l : Nat) (f : Flight) (b : Bool) : (dispatchRun s l f b).2.core.ports = s.core.ports := by
  unfold dispatchRun
  refine foldl_core_ports _ _ _ fun s m => ?_
  exact (modFl_core_ports ..).trans (foldl_core_ports _ _ _ fun _ _ => by rfl)

@[simp] theorem chooseRun_core_ports (l : Nat) : (chooseRun s l).2.core.ports = s.core.ports := by
  have h := chooseLun_core_ports s l
  unfold chooseRun
  split
  next e => rwa [e] at h
  next e =>
    rw [e] at h
    split
    · exact h
    · simpa using h

@[simp] theorem dispatchAll_core_ports : (dispatchAll s).core.ports = s.core.ports := by
  unfold dispatchAll
  refine foldl_core_ports _ _ _ fun s l => ?_
  dsimp only
  split
  · split <;> simp
  · simp

@[simp] theorem admitAll_core_ports : (admitAll s).core.ports = s.core.ports := by
  have same : ∀ (x : State) (ms : List Flight) (g : Flight → Flight),
      (ms.foldl (fun s m => modFl s m.num g) x).core.ports = x.core.ports :=
    fun x ms g => foldl_core_ports _ _ _ fun _ _ => by rfl
  unfold admitAll
  refine List.foldlRecOn _ _ (motive := fun x : State × List (Nat × Nat) => x.1.core.ports = s.core.ports) rfl fun x hx f _ => ?_
  dsimp only
  split
  · exact hx
  · simp only [ite_fst_core_ports, endAll_core_ports, ite_core_ports, modFl_core_ports, same, hx, ite_self]

@[simp] theorem xferSend_core_ports (l : Nat) (r : RunSt) : (xferSend s l r).core.ports = s.core.ports := by
  unfold xferSend
  split
  · simp
  · split
    · simp
    · refine foldl_core_ports _ _ _ fun s e => ?_
      dsimp only
      split <;> simp

@[simp] theorem grantBus_core_ports (c : Nat) : (grantBus s c).core.ports = s.core.ports := by
  unfold grantBus
  dsimp only
  split
  · rfl
  · split
    · rfl
    · rw [modLun_core_ports]
      split <;> simp

@[simp] theorem nfcService_core_ports : (nfcService s).core.ports = s.core.ports := by
  simp [nfcService, foldl_core_ports]

@[simp] theorem submitOp_core_ports (p : Nat) (d : List Byte) : (submitOp s p d).core.ports = s.core.ports := by
  simp [submitOp]

@[simp] theorem ringPopOp_core_ports (p k : Nat) : (ringPopOp s p k).core.ports = s.core.ports := rfl
@[simp] theorem nfcPartReset_core_ports (p : Nat) : (nfcPartReset s p).core.ports = s.core.ports := rfl
@[simp] theorem nsMoved_core_ports (o n : Nat) : (nsMoved s o n).core.ports = s.core.ports := by simp [nsMoved]

end Nand

section Course

variable (s : State)

@[simp] theorem courseApply_core_ports (t : Nat → Bool) : (courseApply s t).core.ports = s.core.ports :=
  foldl_core_ports _ _ _ fun _ _ => rfl
@[simp] theorem coursePublish_core_ports (b : Nat) : (coursePublish s b).core.ports = s.core.ports := rfl

@[simp] theorem courseHook_core_ports (b : Nat) (o : State) : (courseHook b o s).core.ports = s.core.ports := by
  unfold courseHook
  split <;> simp [hookThm, hookSeq]

@[simp] theorem takeUpRaw_core_ports (b : Nat) : (takeUpRaw s b).core.ports = s.core.ports := by simp [takeUpRaw]
@[simp] theorem eflTakeBank_core_ports (b : Nat) : (eflTakeBank s b).core.ports = s.core.ports := by
  simp only [eflTakeBank, ite_core_ports, coursePublish_core_ports, courseApply_core_ports, modCourse_core_ports,
    modBank_core_ports, ite_self]
@[simp] theorem eflTakeRaw_core_ports : (eflTakeRaw s).core.ports = s.core.ports := by simp [eflTakeRaw]
@[simp] theorem chanTake_core_ports (c : Nat) : (chanTake s c).core.ports = s.core.ports := by simp [chanTake]
@[simp] theorem nfcPublish_core_ports : (nfcPublish s).core.ports = s.core.ports := by simp [nfcPublish]
@[simp] theorem lunTakeRaw_core_ports (l : Nat) : (lunTakeRaw s l).core.ports = s.core.ports := by simp [lunTakeRaw]
@[simp] theorem nfcTakeRaw_core_ports : (nfcTakeRaw s).core.ports = s.core.ports := by simp [nfcTakeRaw, foldl_core_ports]
@[simp] theorem courseComplete_core_ports : (courseComplete s).core.ports = s.core.ports := by simp [courseComplete]
@[simp] theorem courseAssign_core_ports (p : Part) (b : BitVec 8) : (courseAssign s p b).core.ports = s.core.ports := by
  simp [courseAssign]

@[simp] theorem courseNext_core_ports : (courseNext s).core.ports = s.core.ports := by
  unfold courseNext
  split <;> simp

@[simp] theorem courseCheck_core_ports : (courseCheck s).core.ports = s.core.ports := by simp [courseCheck]
@[simp] theorem nfcCourse_core_ports : (nfcCourse s).core.ports = s.core.ports := by simp [nfcCourse]
@[simp] theorem nfcAfter_core_ports : (nfcAfter s).core.ports = s.core.ports := by simp [nfcAfter]

@[simp] theorem courseCommitOp_core_ports (p : Part) (b : BitVec 8) : (courseCommitOp s p b).1.core.ports = s.core.ports := by
  simp [courseCommitOp]

end Course

section Units

variable (s : State)

@[simp] theorem cvuFeedOp_core_ports (u : Nat) (bs : List Byte) : (cvuFeedOp s u bs).core.ports = s.core.ports := rfl
@[simp] theorem cvuStartOp_core_ports (u : Nat) : (cvuStartOp s u).core.ports = s.core.ports := rfl
@[simp] theorem cvuAbandon_core_ports (u c : Nat) : (cvuAbandon s u c).core.ports = s.core.ports := by simp [cvuAbandon]
@[simp] theorem cvuMoved_core_ports (u : Nat) : (cvuMoved s u).core.ports = s.core.ports := by simp [cvuMoved]
@[simp] theorem cvuFinishOp_core_ports (u : Nat) : (cvuFinishOp s u).core.ports = s.core.ports := by simp [cvuFinishOp]
@[simp] theorem cvuGoOp_core_ports (u : Nat) (b : Bool) : (cvuGoOp s u b).core.ports = s.core.ports := by simp [cvuGoOp]

@[simp] theorem cvuCtlOp_core_ports (u : Nat) (c : Word) (fs : List Word) : (cvuCtlOp s u c fs).1.core.ports = s.core.ports := by
  simp [cvuCtlOp, cvuAbortOp, cvuClearOp, cvuRearmOp]

@[simp] theorem writeCvu_core_ports (ws : Writes) (u : Nat) : (writeCvu s ws u).1.core.ports = s.core.ports := by simp [writeCvu]

end Units

section Parts

variable (s : State)

@[simp] theorem resMoved_core_ports (r : Res) (o n : Nat) : (resMoved s r o n).core.ports = s.core.ports := by
  cases r <;> simp [resMoved]

@[simp] theorem ownersMoved_core_ports (c : Nat) (o : Word) : (ownersMoved s c o).core.ports = s.core.ports := by
  simp [ownersMoved, foldl_core_ports]
@[simp] theorem quotaWrite_core_ports (ws : List (Nat × Word)) : (quotaWrite s ws).1.core.ports = s.core.ports := by
  have put : ∀ s : State, (ws.foldl (fun s e => setR s (0x230 + e.1) e.2)
      (passes s (fun k => ws.any (fun e => 0x230 + e.1 == k)))).core.ports = s.core.ports :=
    fun s => (foldl_core_ports _ _ _ fun _ _ => by rfl).trans rfl
  unfold quotaWrite
  dsimp only
  split
  · exact put s
  · split
    · rw [foldl_core_ports _ _ _ fun s g => by simp, put]
    · rfl
@[simp] theorem writeQuotas_core_ports (ws : Writes) : (writeQuotas s ws).1.core.ports = s.core.ports := by simp [writeQuotas]
@[simp] theorem mbxPostOp_core_ports (n : Nat) : (mbxPostOp s n).core.ports = s.core.ports := by simp [mbxPostOp]
@[simp] theorem mbxAckOp_core_ports (n k : Nat) : (mbxAckOp s n k).core.ports = s.core.ports := by simp [mbxAckOp]
@[simp] theorem mbxEmpty_core_ports (n : Nat) : (mbxEmpty s n).core.ports = s.core.ports := by simp [mbxEmpty]
@[simp] theorem wdogStart_core_ports (p : Nat) : (wdogStart s p).core.ports = s.core.ports := rfl
@[simp] theorem wdogCfgWritten_core_ports (p : Nat) (o : Word) : (wdogCfgWritten s p o).core.ports = s.core.ports := by
  simp [wdogCfgWritten]

end Parts

section Stores

variable (s : State)

@[simp] theorem storeRw_core_ports (p a : Nat) (m v : Word) : (storeRw s p a m v).core.ports = s.core.ports := by
  unfold storeRw
  dsimp only
  split
  · rfl
  · split
    · split <;> rfl
    · simp

@[simp] theorem clearBits_core_ports (a : Nat) (v : Word) : (clearBits s a v).core.ports = s.core.ports := by simp [clearBits]
@[simp] theorem cvuRepaired_core_ports (a : Nat) : (cvuRepaired s a).core.ports = s.core.ports := by simp [cvuRepaired]
@[simp] theorem writePrimary_core_ports (o : State) (p a : Nat) (r : RegSpec) (v : Word) :
    (writePrimary o s p a r v).1.core.ports = s.core.ports := by simp [writePrimary]

@[simp] theorem writeStaged_core_ports (o : State) (p a : Nat) (r : RegSpec) (v : Word) :
    (writeStaged o s p a r v).1.core.ports = s.core.ports := by
  unfold writeStaged
  dsimp only
  split <;> simp

@[simp] theorem writeStore_core_ports (o : State) (p a : Nat) (v : Word) : (writeStore o s p a v).1.core.ports = s.core.ports := by
  unfold writeStore
  split <;> simp

@[simp] theorem railMerge_core_ports (n : Nat) : (railMerge n s).core.ports = s.core.ports := by simp [railMerge]
@[simp] theorem railRequestPush_core_ports (a b : BitVec 10) : (railRequestPush s a b).core.ports = s.core.ports := by
  simp [railRequestPush]
@[simp] theorem bulkWrite_core_ports (a : Nat) (bs : List Byte) (g : Option Word) :
    (bulkWrite s a bs g).core.ports = s.core.ports := by
  unfold bulkWrite
  split <;> simp

end Stores

end Sys2Proof.Machine
end

section
/-! PROOFS. The words of a write frame take no port away (02 R59): a partition reset (04 R125) and the clear of a port's
counters (02 R75) change the records of ports, and everything else leaves them. -/

namespace Sys2Proof.Machine

variable (s : State)

/-- Ports under a condition, counted. -/
theorem length_ite_ports {c : Prop} {_ : Decidable c} (a b : List PortSt) :
    (if c then a else b).length = if c then a.length else b.length := apply_ite List.length c a b

/-- Changes made one after the other keep the number of ports where each does. -/
theorem foldl_ports_length {α : Type} (l : List α) (f : State → α → State)
    (h : ∀ s a, (f s a).core.ports.length = s.core.ports.length) : (l.foldl f s).core.ports.length = s.core.ports.length :=
  List.foldlRecOn l f (motive := fun x => x.core.ports.length = s.core.ports.length) rfl fun b hb a _ => (h b a).trans hb

@[simp] theorem portReset_ports_length (p : Nat) : (portReset s p).core.ports.length = s.core.ports.length := by
  simp [portReset]

@[simp] theorem hrstPulse_ports_length (n : Nat) : (hrstPulse s n).core.ports.length = s.core.ports.length := by
  simp [hrstPulse]

@[simp] theorem errclrOp_ports_length (n : Nat) : (errclrOp s n).core.ports.length = s.core.ports.length := by
  simp [errclrOp]

@[simp] theorem partResetStart_ports_length (p c : Nat) :
    (partResetStart s p c).core.ports.length = s.core.ports.length := by
  have hm : ∀ (s : State) (l : List Nat), (l.foldl mbxEmpty s).core.ports = s.core.ports :=
    fun s l => foldl_core_ports s l _ mbxEmpty_core_ports
  have hr : ∀ (s : State) (l : List Nat), (l.foldl epdRegionMoved s).core.ports = s.core.ports :=
    fun s l => foldl_core_ports s l _ epdRegionMoved_core_ports
  have hu : ∀ (s : State) (l : List Nat), (l.foldl cvuMoved s).core.ports = s.core.ports :=
    fun s l => foldl_core_ports s l _ cvuMoved_core_ports
  unfold partResetStart
  dsimp only
  split
  · rfl
  · split <;> simp [hm, hr, hu]

@[simp] theorem wdogExpire_ports_length (p c : Nat) : (wdogExpire s p c).core.ports.length = s.core.ports.length := by
  unfold wdogExpire
  dsimp only
  split
  · split <;> simp
  · rfl

@[simp] theorem wdogKickOp_ports_length (p : Nat) (v : Word) : (wdogKickOp s p v).core.ports.length = s.core.ports.length := by
  simp [wdogKickOp, length_ite_ports]

@[simp] theorem rstWriteOp_ports_length (p : Nat) (v : Word) : (rstWriteOp s p v).core.ports.length = s.core.ports.length :=
  foldl_ports_length _ _ _ fun s t => partResetStart_ports_length s t _

/-- What a written word asks for. -/
@[simp] theorem writeAct_ports_length (o : State) (p : Part) (a : Nat) (v : Word) :
    (writeAct o s p a v).1.core.ports.length = s.core.ports.length := by
  simp [writeAct, length_ite_ports, capoReleaseOp, latchOp, alarmWritten, alarmFlags, sleepRequestOp, pwrCntclrOp, devrstOp,
    seqCntclrOp, thmCntclrOp, flwCntclrOp, keyCntclrOp, epdCntclrOp, pixCntclrOp, eflCntclrOp, nfcCntclrOp, nfcWarnclrOp, gngCntclrOp]

/-- The words of a frame, one after the other. -/
theorem eachWord_ports_length (ws : Writes) (x : State × Bool) (f : State → Nat → Word → State × Bool)
    (h : ∀ s a v, (f s a v).1.core.ports.length = s.core.ports.length) :
    (eachWord ws x f).1.core.ports.length = x.1.core.ports.length :=
  List.foldlRecOn ws _ (motive := fun y : State × Bool => y.1.core.ports.length = x.1.core.ports.length) rfl
    fun y hy w _ => (h y.1 w.1 w.2).trans hy

/-- The commands of every check unit of a frame. -/
theorem foldl_writeCvu_core_ports (ws : Writes) (l : List Nat) (x : State × Bool) :
    (l.foldl (fun z u => let c := writeCvu z.1 ws u; (c.1, z.2 || c.2)) x).1.core.ports = x.1.core.ports :=
  List.foldlRecOn l _ (motive := fun y : State × Bool => y.1.core.ports = x.1.core.ports) rfl
    fun y hy u _ => (writeCvu_core_ports y.1 ws u).trans hy

theorem applyWrites_ports_length (p : Part) (ws : Writes) :
    (applyWrites s p ws).1.core.ports.length = s.core.ports.length := by
  have hstore := eachWord_ports_length ws (s, false) (fun n a v => writeStore s n p.val a v) (by simp)
  unfold applyWrites
  simp [foldl_writeCvu_core_ports, eachWord_ports_length, hstore]

end Sys2Proof.Machine
end

section
/-! PROOFS. A change of one port's record, its PORT_ERR source and DOZE, and what the end of the instant makes of it. -/

namespace Sys2Proof.Machine

/-- The state with other ports and another DOZE. -/
def withPorts (s : State) (ps : List PortSt) (d : Bool) : State :=
  { s with core := { s.core with ports := ps, pwr := { s.core.pwr with doze := d } } }

/-- t is s but for the record of port p and for DOZE. -/
def PortOnly (p : Part) (s t : State) : Prop :=
  ∃ ps d, t = withPorts s ps d ∧ ps.length = s.core.ports.length ∧ ∀ q : Part, q ≠ p → nth ps q.val {} = portOf s q

/-- t is s but for the record of port p, DOZE and, perhaps, the PORT_ERR source of partition p. -/
def PortAndErr (p : Part) (s t : State) : Prop := ∃ u, PortOnly p s u ∧ (t = u ∨ t = raise u p.val 8)

theorem PortOnly.refl (p : Part) (s : State) : PortOnly p s s := ⟨s.core.ports, s.core.pwr.doze, rfl, rfl, fun _ _ => rfl⟩

/-- A further change of the port's record. -/
theorem PortOnly.modPort {p : Part} {s t : State} (h : PortOnly p s t) (f : PortSt → PortSt) :
    PortOnly p s (modPort t p.val f) := by
  obtain ⟨ps, d, rfl, hlen, hoth⟩ := h
  refine ⟨upd ps p.val f, d, rfl, (length_upd _ _ _).trans hlen, fun q hq => ?_⟩
  rw [nth_upd_ne _ _ _ _ _ fun e => hq (Fin.ext e)]
  exact hoth q hq

/-- The port as a frame finds it. -/
theorem PortOnly.portBegin (p : Part) (s : State) (m : Bool) : PortOnly p s (portBegin s p.val m) := by
  obtain ⟨ps, d, ht, hlen, hoth⟩ := (PortOnly.refl p s).modPort _
  exact ⟨ps, false, congrArg (fun x => modC x fun c => { c with pwr := { c.pwr with doze := false } }) ht, hlen, hoth⟩

/-- Corrected errors counted on both sides. -/
theorem PortOnly.bufTouch {p : Part} {s t : State} (h : PortOnly p s t) (a n : Nat) :
    PortOnly p (bufTouch s a n) (bufTouch t a n) := by
  obtain ⟨ps, d, rfl, hlen, hoth⟩ := h
  exact ⟨ps, d, rfl, hlen, hoth⟩

theorem PortOnly.ports_length {p : Part} {s t : State} (h : PortOnly p s t) : t.core.ports.length = s.core.ports.length := by
  obtain ⟨ps, d, rfl, hlen, -⟩ := h
  exact hlen

theorem PortOnly.inReset {p : Part} {s t : State} (h : PortOnly p s t) (n : Nat) : inReset t n = inReset s n := by
  obtain ⟨ps, d, rfl, -⟩ := h
  rfl

theorem PortOnly.devrst {p : Part} {s t : State} (h : PortOnly p s t) : t.core.pwr.devrst = s.core.pwr.devrst := by
  obtain ⟨ps, d, rfl, -⟩ := h
  rfl

/-- A port alone has changed, so no source has been raised. -/
theorem PortOnly.portAndErr {p : Part} {s t : State} (h : PortOnly p s t) : PortAndErr p s t := ⟨t, h, .inl rfl⟩

/-- Where no device reset waits, the outcome of a frame changes the record of its port, STATUS included unless its partition
is in reset, and raises PORT_ERR for the codes that a counter counts (02 R59, Table 2-16). -/
theorem frameEnd_eq {s : State} (hdev : s.core.pwr.devrst = false) (p : Nat) (h : Hdr) (code n : Nat) :
    ∃ g : PortSt → PortSt, (∀ q, (g q).lastStatus = if inReset s p then q.lastStatus else BitVec.ofNat 8 code) ∧
      frameEnd s p h code n = if (errIndex code).isSome then raise (modPort s p g) p 8 else modPort s p g := by
  unfold frameEnd
  dsimp only
  apply Exists.intro
  apply And.intro
  case h.right =>
    split
    · exact if_neg (by simp [raise, hdev])
    · exact if_neg (by simp [hdev])
  case h.left => exact fun _ => rfl

/-- The outcome of a frame is the business of its port, and perhaps of PORT_ERR (02 R59). -/
theorem PortOnly.frameEnd {p : Part} {s t : State} (ht : PortOnly p s t) (hdev : s.core.pwr.devrst = false)
    (h : Hdr) (code n : Nat) : PortAndErr p s (frameEnd t p.val h code n) := by
  obtain ⟨g, -, he⟩ := frameEnd_eq (ht.devrst.trans hdev) p.val h code n
  refine ⟨Machine.modPort t p.val g, ht.modPort g, ?_⟩
  rw [he]
  split
  · exact .inr rfl
  · exact .inl rfl

section Settle

variable {p : Part} {s t : State}

theorem Settled.noTrigger (hs : Settled s) : s.core.capo.trig = 0 := hs.1
theorem Settled.noDeviceReset (hs : Settled s) : s.core.pwr.devrst = false := hs.2.2.2.1
theorem Settled.gangNoted (hs : Settled s) : s.core.gng.lastVote = effVote s ∧ s.core.gng.lastRpg = s.core.seq.rpgOut :=
  hs.2.2.2.2

/-- Without a trigger there is no capo, and no source of it. -/
theorem irqWithCapo_of_noTrigger (htrig : t.core.capo.trig = 0) : irqWithCapo t = t.core.irq := by
  simp [irqWithCapo, capoTakes, htrig]

/-- Where no capo trigger waits, the end of the instant changes no field of an interrupt controller that irqNext keeps. -/
theorem map_irq_settle {β : Type} (t : State) (htrig : t.core.capo.trig = 0) (g : IrqSt → β)
    (hg : ∀ n q, g (irqNext t n q) = g q) : (settle t).core.irq.map g = t.core.irq.map g := by
  have hno := irqWithCapo_of_noTrigger htrig
  calc (settle t).core.irq.map g
      = (t.core.irq.zipIdx.map (fun e => irqNext t e.2 e.1)).map g := by
        rw [← hno]; rfl
    _ = (t.core.irq.zipIdx.map Prod.fst).map g := by
        rw [List.map_map, List.map_map]
        exact List.map_congr_left fun e _ => hg e.2 e.1
    _ = t.core.irq.map g := by rw [List.zipIdx_map_fst]

/-- A projection of one like part, among those of all. -/
theorem proj_nth_eq_nth_map {α β : Type} (g : α → β) (l : List α) (i : Nat) (d : α) : g (nth l i d) = nth (l.map g) i (g d) :=
  (List.getD_map ..).symm

/-- Settled controllers have followed their pending bits. -/
theorem Settled.lastPend (hs : Settled s) (n : Nat) : (nth s.core.irq n {}).lastPend = (nth s.core.irq n {}).pend := by
  obtain ⟨-, hirq, -⟩ := hs
  by_cases h : n < s.core.irq.length
  · have hm : (nth s.core.irq n {}, n) ∈ s.core.irq.zipIdx := by
      rw [List.mem_zipIdx_iff_getElem?]
      simp [nth, List.getD, h]
    obtain ⟨-, -, hlast, -⟩ := hirq _ hm
    exact hlast
  · simp [nth, List.getD, List.getElem?_eq_none (Nat.le_of_not_lt h)]

/-- What the interrupt controllers hold after a frame that changes its port alone. -/
theorem PortAndErr.irq (h : PortAndErr p s t) :
    t.core.irq = s.core.irq ∨ t.core.irq = upd s.core.irq p.val (fun q => q.set 8) := by
  obtain ⟨u, ⟨ps, d, rfl, -⟩, rfl | rfl⟩ := h
  · exact .inl rfl
  · exact .inr rfl

/-- Another partition's controller. -/
theorem PortAndErr.irq_other (h : PortAndErr p s t) {q : Part} (hq : q ≠ p) :
    nth t.core.irq q.val {} = nth s.core.irq q.val {} := by
  rcases h.irq with e | e
  · rw [e]
  · rw [e, nth_upd_ne _ _ _ _ _ fun c => hq (Fin.ext c)]

/-- What reads neither the ports nor the interrupt controllers nor DOZE is the same. -/
theorem PortAndErr.same {α : Type} (h : PortAndErr p s t) (g : State → α)
    (hw : ∀ s ps d, g (withPorts s ps d) = g s := by intros; rfl) (hr : ∀ s n, g (raise s n 8) = g s := by intros; rfl) :
    g t = g s := by
  obtain ⟨u, ⟨ps, d, rfl, -⟩, rfl | rfl⟩ := h
  · exact hw s ps d
  · exact (hr _ _).trans (hw s ps d)

/-- No capo is triggered where a port alone has changed. -/
theorem PortAndErr.noTrigger (h : PortAndErr p s t) (hs : Settled s) : t.core.capo.trig = 0 :=
  (h.same fun x => x.core.capo.trig).trans hs.noTrigger

/-- SP_ALERT_N stays as it is where no source of P3 is newly pending; other ports the end of an instant leaves anyhow. -/
theorem PortAndErr.portOf_settle_other (hs : Settled s) (h : PortAndErr p s t) {q : Part} (hq : q ≠ p) :
    portOf (settle t) q = portOf s q := by
  have hno := irqWithCapo_of_noTrigger (h.noTrigger hs)
  have hport : portOf t q = portOf s q := by
    obtain ⟨u, ⟨ps, d, rfl, -, hoth⟩, rfl | rfl⟩ := h <;> exact hoth q hq
  by_cases h3 : q = 3
  · subst h3
    have hquiet : (nth t.core.irq 3 {}).pend &&& ~~~(nth t.core.irq 3 {}).lastPend = 0 := by
      rw [show nth t.core.irq 3 {} = nth s.core.irq 3 {} from h.irq_other hq, hs.lastPend 3]
      simp
    have hp : portsAfter t = t.core.ports := by simp only [portsAfter, hno, hquiet, if_true]
    exact (congrArg (fun l => nth l 3 ({} : PortSt)) hp).trans hport
  · rw [portOf_settle t h3, hport]

/-- What the gang link owes does not change where it has taken note of the vote and of the power-good. -/
theorem gngAfter_eq_self (htrig : s.core.capo.trig = 0) (hv : s.core.gng.lastVote = effVote s)
    (hr : s.core.gng.lastRpg = s.core.seq.rpgOut) : gngAfter s = s.core.gng := by
  have hno : capoTakes s = false := by simp [capoTakes, htrig]
  simp [gngAfter, gangSettle, hno, ← hv, ← hr]

/-- Pending bits of an interrupt controller do not change at the end of an instant without a capo. -/
theorem pend_irqNext (t : State) (n : Nat) (q : IrqSt) : (irqNext t n q).pend = q.pend := by
  unfold irqNext irqAfter
  dsimp only
  split <;> rfl

/-- A source raised in partition p, among the pending bits of p. -/
theorem PortAndErr.irq_own (h : PortAndErr p s t) :
    (nth t.core.irq p.val {}).pend = (nth s.core.irq p.val {}).pend ∨
      (nth t.core.irq p.val {}).pend = setBit (nth s.core.irq p.val {}).pend 8 true := by
  rcases h.irq with e | e
  · exact .inl (by rw [e])
  · rw [e]
    by_cases hp : p.val < s.core.irq.length
    · exact .inr (by rw [nth_upd_same _ _ _ _ hp]; rfl)
    · exact .inl (by simp [nth, List.getD, Nat.le_of_not_lt hp])

/-- The end of an instant after a change of one port alone, in a state that had settled. -/
theorem PortAndErr.onlyPort_settle (hs : Settled s) (h : PortAndErr p s t) : OnlyPort p s (settle t) := by
  obtain ⟨hvote, hrpg⟩ := hs.gangNoted
  have htrig := h.noTrigger hs
  have hpend : ∀ n, (nth (settle t).core.irq n {}).pend = (nth t.core.irq n {}).pend := fun n => by
    rw [proj_nth_eq_nth_map IrqSt.pend, map_irq_settle t htrig IrqSt.pend (pend_irqNext t), ← proj_nth_eq_nth_map IrqSt.pend]
  refine ⟨fun k => ?_, fun q hq => h.portOf_settle_other hs hq, fun q hq => ?_, ?_⟩
  · cases k
    case ports | irqPend | irqRound | doze => exact .inl (by decide)
    case capo =>
      have hc : capoAfter t = t.core.capo := by simp [capoAfter, htrig]
      exact .inr (hc.trans (h.same fun x => x.core.capo))
    case gng =>
      have hg : t.core.gng = s.core.gng := h.same fun x => x.core.gng
      have hv : effVote t = effVote s := h.same effVote
      have hq : t.core.seq.rpgOut = s.core.seq.rpgOut := h.same fun x => x.core.seq.rpgOut
      exact .inr ((gngAfter_eq_self htrig (by rw [hg, hv, hvote]) (by rw [hg, hq, hrpg])).trans hg)
    case irqSet =>
      refine .inr ((map_irq_settle t htrig _ fun _ _ => rfl).trans ?_)
      rcases h.irq with e | e
      · rw [e]
      · rw [e]
        exact map_upd_eq _ _ _ _ fun _ => rfl
    all_goals
      right
      obtain ⟨u, ⟨ps, d, rfl, -⟩, rfl | rfl⟩ := h <;> rfl
  · rw [hpend, h.irq_other hq]
  · rw [hpend]
    exact h.irq_own

end Settle

end Sys2Proof.Machine
end

section
/-! PROOFS. What a frame other than PRST can do (02 R59-R62): leave everything but its port, count corrected errors in a bulk
read (01 R39), or take effect with outcome OK or MASKED. -/

namespace Sys2Proof.Machine

/-- The frame has been given the outcome code by its port, and no port has been lost on the way. -/
def Reports (p : Part) (code : Nat) (s t : State) : Prop :=
  ∃ x h n, t = frameEnd x p.val h code n ∧ x.core.ports.length = s.core.ports.length

/-- The end of an instant leaves the STATUS of the next response. -/
theorem lastStatus_settle (t : State) (p : Part) : (portOf (settle t) p).lastStatus = (portOf t p).lastStatus := by
  have hmap : (portsAfter t).map PortSt.lastStatus = t.core.ports.map PortSt.lastStatus := by
    unfold portsAfter
    dsimp only
    split
    · rfl
    · exact map_upd_eq _ _ _ _ fun _ => rfl
  calc (portOf (settle t) p).lastStatus
      = nth ((portsAfter t).map PortSt.lastStatus) p.val 0x30 := proj_nth_eq_nth_map PortSt.lastStatus _ _ _
    _ = (portOf t p).lastStatus := by
        rw [hmap]
        exact (proj_nth_eq_nth_map PortSt.lastStatus t.core.ports p.val {}).symm

/-- A waiting device reset stops the core at the end of the frame that asked for it (05 R152). -/
theorem coreUp_frameEnd_of_devrst {x : State} (hdev : x.core.pwr.devrst = true) (p : Nat) (h : Hdr) (code n : Nat) :
    coreUp (frameEnd x p h code n) = false := by
  unfold frameEnd
  dsimp only
  split <;> exact (congrArg coreUp (if_pos hdev)).trans rfl

/-- While the core runs and the partition is not in reset, the port reports the outcome that the frame was given. -/
theorem Reports.lastStatus {p : Part} {code : Nat} {s t : State} (h : Reports p code s t) (hlen : s.core.ports.length = 4)
    (hup : coreUp (settle t) = true) (hin : inReset (settle t) p.val = false) :
    (portOf (settle t) p).lastStatus = BitVec.ofNat 8 code := by
  obtain ⟨x, hd, n, rfl, hx⟩ := h
  rw [lastStatus_settle]
  cases hdev : x.core.pwr.devrst with
  | true => exact absurd (hup.symm.trans (coreUp_frameEnd_of_devrst hdev p.val hd code n)) (by decide)
  | false =>
    obtain ⟨g, hg, he⟩ := frameEnd_eq hdev p.val hd code n
    rw [he] at hin ⊢
    have hport : portOf (if (errIndex code).isSome then raise (modPort x p.val g) p.val 8 else modPort x p.val g) p
        = g (portOf x p) := by
      split <;> exact portOf_modPort x p g (hx.trans hlen)
    have hin' : inReset x p.val = false := by
      split at hin <;> exact hin
    rw [hport, hg, hin']
    rfl

/-- The words of a write frame are refused whole, or take effect with OK or MASKED (02 R62). -/
theorem writeRegs_cases (s : State) (p : Part) (ws : Writes) :
    writeRegs s p ws = (s, 0x20) ∨
      ((writeRegs s p ws).2 = 0 ∨ (writeRegs s p ws).2 = 1) ∧ (writeRegs s p ws).1.core.ports.length = s.core.ports.length := by
  unfold writeRegs
  split
  · exact .inl rfl
  · refine .inr ⟨?_, applyWrites_ports_length s p ws⟩
    dsimp only
    split
    · exact .inr rfl
    · exact .inl rfl

/-- A write whose checks have passed is refused whole with DENIED, or takes effect with OK or MASKED (02 R59-R62). -/
theorem frameWrite_cases (s : State) (p : Part) (h : Hdr) (o : OpForm) (body : List Byte) :
    frameWrite s p h o body = (s, 0x20) ∨
      ((frameWrite s p h o body).2 = 0 ∨ (frameWrite s p h o body).2 = 1) ∧
        (frameWrite s p h o body).1.core.ports.length = s.core.ports.length := by
  unfold frameWrite
  dsimp only
  split
  · split
    · exact .inl rfl
    · exact .inr ⟨.inl rfl, by simp⟩
  · exact writeRegs_cases s p _

/-- Of the opcodes that read, none writes, and those of bulk reads are BRD and BRG (02 Table 2-3). -/
theorem opForm_reads {op : Nat} {o : OpForm} (h : opForm op = some o) (hr : o.reads = true) :
    o.writes = false ∧ (o.bulk = true → op = 0x10 ∨ op = 0x13) := by
  unfold opForm at h
  split at h <;> cases h <;> simp at hr ⊢

/-- The faults of orders 7 to 10 are none of them DENIED (02 Table 2-5). -/
theorem checkOutcome_ne_denied {s : State} {f : Frame} {o : OpForm} {need c : Nat} (h : checkOutcome s f o need = some c) :
    BitVec.ofNat 8 c ≠ 0x20 := by
  unfold checkOutcome at h
  dsimp only at h
  repeat' split at h
  all_goals cases h
  all_goals decide

/-- What a frame of port p other than PRST has done to b: nothing beyond its port; or nothing but the count of corrected
errors, in a bulk read that is not DENIED; or its own effect, with outcome OK or MASKED. -/
inductive FrameEffect (p : Part) (bulkRead : Prop) (b t : State) : Prop where
  | refused (h : PortAndErr p b t)
  | corrected (hbulk : bulkRead) (a n : Nat) (h : PortAndErr p (bufTouch b a n) t)
      (hcode : inReset t p.val = true ∨ ∃ c, BitVec.ofNat 8 c ≠ 0x20 ∧ Reports p c b t)
  | done (c : Nat) (hc : c = 0 ∨ c = 1) (h : Reports p c b t)

/-- A frame whose header is known, whole and in range. -/
theorem frameRun_effect {b s : State} {f : Frame} {o : OpForm} {pre : Option Nat} (h : Hdr) (hs : PortOnly f.port b s)
    (hdev : b.core.pwr.devrst = false) (ho : o.reads = true → o.writes = false) (hpre : pre = none ∨ pre = some 0x16) :
    FrameEffect f.port (o.bulk = true ∧ o.reads = true) b (frameRun s f o h pre) := by
  unfold frameRun
  extract_lets p need r okData data resp s' s1 x
  have hsent : ∀ {x : State}, PortOnly p x s' → PortOnly p x s1 := fun hx => by
    unfold s1
    split
    · exact hx.modPort _
    · exact hx
  by_cases ht : (o.bulk && o.reads && responds f o need && decide (r.1 = 0 ∨ r.1 = 0x25)) = true
  · have hs' : PortOnly p (bufTouch b h.addr (4 * (h.len + 1))) s' := by
      unfold s'
      rw [if_pos ht]
      exact hs.bufTouch _ _
    have hs1 := hsent hs'
    simp only [Bool.and_eq_true, decide_eq_true_eq] at ht
    obtain ⟨⟨⟨hbulk, hreads⟩, -⟩, hr⟩ := ht
    have hnd : ∀ code n, BitVec.ofNat 8 code ≠ 0x20 →
        FrameEffect p (o.bulk = true ∧ o.reads = true) b (frameEnd s1 p.val h code n) := fun code n hc =>
      .corrected ⟨hbulk, hreads⟩ _ _ (hs1.frameEnd hdev ..) (.inr ⟨code, hc, s1, h, n, rfl, hs1.ports_length⟩)
    split
    case isTrue hin =>
      have hin1 : inReset s1 p.val = true := (hs1.inReset _).trans ((hs'.inReset _).symm.trans hin)
      exact .corrected ⟨hbulk, hreads⟩ _ _ hs1.portAndErr (.inl hin1)
    case isFalse =>
      rw [ho hreads]
      split
      case h_1 c hc =>
        refine hnd c _ ?_
        rcases hpre with rfl | rfl
        · exact checkOutcome_ne_denied hc
        · cases hc
          decide
      case h_2 =>
        refine hnd _ _ ?_
        rcases hr with hr | hr <;> rw [hr]
        · cases o.reads && f.late <;> decide
        · rw [if_pos (by decide)]
          decide
  · have hs1 : PortOnly p b s1 := hsent (by
      unfold s'
      rw [if_neg ht]
      exact hs)
    split
    · exact .refused hs1.portAndErr
    · split
      · exact .refused (hs1.frameEnd hdev ..)
      · split
        · rcases frameWrite_cases s1 p h o ((f.bytes.drop o.hdrLen).take (need - o.hdrLen - 2)) with hw | ⟨hc, hlen⟩
          · have hx : x = (s1, 0x20) := hw
            rw [hx]
            exact .refused (hs1.frameEnd hdev ..)
          · exact .done _ hc ⟨_, _, _, rfl, hlen.trans hs1.ports_length⟩
        · exact .refused (hs1.frameEnd hdev ..)

theorem FrameEffect.imp {p : Part} {a b : Prop} {s t : State} (hab : a → b) : FrameEffect p a s t → FrameEffect p b s t
  | .refused h => .refused h
  | .corrected hbulk _ _ h hcode => .corrected (hab hbulk) _ _ h hcode
  | .done _ hc h => .done _ hc h

/-- The first byte of a frame is its opcode (02 R48). -/
theorem head?_of_opcode {bs : List Byte} (hb : bs ≠ []) {op : Nat} (h : (nth bs 0 0).toNat = op) :
    bs.head? = some (BitVec.ofNat 8 op) := by
  obtain ⟨b, rest, rfl⟩ := List.exists_cons_of_ne_nil hb
  rw [← h, BitVec.ofNat_toNat, BitVec.setWidth_eq]
  rfl

/-- A bulk read begins with the opcode of BRD or of BRG. -/
theorem head?_of_bulkRead {bs : List Byte} {o : OpForm} (hb : bs ≠ []) (ho : opForm (nth bs 0 0).toNat = some o)
    (hbr : o.bulk = true ∧ o.reads = true) : bs.head? = some 0x10 ∨ bs.head? = some 0x13 := by
  obtain ⟨hbulk, hreads⟩ := hbr
  obtain ⟨-, hop⟩ := opForm_reads ho hreads
  exact (hop hbulk).imp (head?_of_opcode hb) (head?_of_opcode hb)

/-- One frame other than PRST, where no device reset waits. -/
theorem evalFrame_effect {s : State} {f : Frame} (hdev : s.core.pwr.devrst = false) (hop : f.bytes.head? ≠ some 0xFF) :
    FrameEffect f.port (f.bytes.head? = some 0x10 ∨ f.bytes.head? = some 0x13) s (evalFrame s f) := by
  unfold evalFrame
  extract_lets p s1 s2 op o h
  have h2 : PortOnly f.port s s2 := by
    unfold s2
    split
    next h3 =>
      rw [← h3]
      exact (PortOnly.portBegin ..).modPort _
    next => exact PortOnly.portBegin ..
  have hrun : ∀ q pre, o = some q → pre = none ∨ pre = some 0x16 →
      FrameEffect f.port (f.bytes.head? = some 0x10 ∨ f.bytes.head? = some 0x13) s (frameRun s2 f q h pre) := by
    intro q pre hq hpre
    obtain ⟨hb, hq⟩ : f.bytes ≠ [] ∧ opForm op = some q := by simpa [o] using hq
    exact (frameRun_effect h h2 hdev (fun hr => (opForm_reads hq hr).1) hpre).imp (head?_of_bulkRead hb hq)
  split
  · exact .refused (PortOnly.refl _ _).portAndErr
  · split
    next hff => exact absurd (head?_of_opcode hff.1 hff.2) hop
    next =>
      split
      next hq => exact hrun _ _ hq (.inr rfl)
      next =>
        split
        · exact .refused h2.portAndErr
        · exact .refused (h2.frameEnd hdev ..)
      next hq => exact hrun _ _ hq (.inl rfl)
      next => exact .refused h2.portAndErr

end Sys2Proof.Machine
end

section
/-! PROOFS. Chapter 02: only a frame with outcome OK or MASKED changes more than its port (02 R62). -/

namespace Sys2Proof.Machine

/-- A port alone has changed, so no corrected error has been counted. -/
theorem OnlyPort.onlyPortAndCount {p : Part} {s t : State} (h : OnlyPort p s t) : OnlyPortAndCount p s t := by
  have hbuf : t.core.buf = s.core.buf := (h.1 .buf).resolve_left (by decide)
  unfold OnlyPortAndCount
  rw [hbuf]
  exact ⟨h, rfl, fun _ => rfl⟩

/-- A port has changed, and a range has been read under SECDED: the count grows by the single-bit errors met (01 R39). -/
theorem OnlyPort.onlyPortAndCount_of_bufTouch {p : Part} {s t : State} {a n : Nat} (h : OnlyPort p (bufTouch s a n) t) :
    OnlyPortAndCount p s t := by
  have hbuf : t.core.buf = (bufTouch s a n).core.buf := (h.1 .buf).resolve_left (by decide)
  unfold OnlyPortAndCount
  rw [hbuf]
  refine ⟨h, rfl, fun hsoft => ?_⟩
  have hnone : bufSoft s.core.buf a n = [] := by simp [bufSoft, hsoft]
  show { s.core.buf with corrected := s.core.buf.corrected + (bufSoft s.core.buf a n).length } = s.core.buf
  rw [hnone]
  rfl

/-- Settles O12: a frame is refused, or counts corrected errors in a bulk read, or takes effect, and then its port reports OK
or MASKED. -/
theorem refusedFramesChangeNothing : Obligations.RefusedFramesChangeNothing := by
  unfold Obligations.RefusedFramesChangeNothing
  intro s f hs hcnt hop
  obtain ⟨hlen, -⟩ := hcnt
  refine ⟨_, rfl, rfl, rfl, rfl, fun hup hin hok hmasked => ?_⟩
  cases hrun : coreUp s with
  | false =>
    rw [whenCore_down s _ hrun] at hup
    exact absurd (hrun.symm.trans hup) (by decide)
  | true =>
    rw [whenCore_up s _ hrun] at hup hin hok hmasked ⊢
    cases evalFrame_effect hs.noDeviceReset hop with
    | refused h =>
      have hport := h.onlyPort_settle hs
      exact ⟨hport.onlyPortAndCount, fun _ _ => hport, fun _ => hport⟩
    | corrected hbulk a n h hcode =>
      have hport : OnlyPort f.port (bufTouch s a n) _ := h.onlyPort_settle hs
      refine ⟨hport.onlyPortAndCount_of_bufTouch, fun h10 h13 => absurd hbulk (not_or.mpr ⟨h10, h13⟩), fun hdenied => ?_⟩
      rcases hcode with hreset | ⟨c, hc, hrep⟩
      · exact absurd (hreset.symm.trans hin) (by decide)
      · exact absurd ((hrep.lastStatus hlen hup hin).symm.trans hdenied) hc
    | done c hc h =>
      have hrep := h.lastStatus hlen hup hin
      rcases hc with rfl | rfl
      · exact absurd hrep hok
      · exact absurd hrep hmasked

end Sys2Proof.Machine
end

section
/-! PROOFS. What taking up a course leaves of the device (03 R85): the course record but for the blocks that publish, and
what the end of a frame reads. -/

namespace Sys2Proof.Machine

/-- What the end of a commit's frame reads, and whether a gang frame is on the bus. -/
def commitRest (s : State) : Aon × PartSt × PwrSt × SeqSt × Bool :=
  (s.aon, s.core.part, s.core.pwr, s.core.seq, s.core.gng.busy)

/-- The course record, with what the end of a commit's frame reads. -/
def courseView (s : State) : CourseSt × Aon × PartSt × PwrSt × SeqSt × Bool := (s.core.course, commitRest s)

section View

variable (s : State)

/-- View of a conditional change. The decision is implicit, so that a condition that simp has rewritten still matches. -/
@[simp] theorem ite_courseView {c : Prop} {_ : Decidable c} (a b : State) :
    courseView (if c then a else b) = if c then courseView a else courseView b := apply_ite courseView c a b

/-- View of a change under a condition. -/
@[simp] theorem whenS_courseView (b : Bool) (f : State → State) :
    courseView (whenS b s f) = if b then courseView (f s) else courseView s := ite_courseView (f s) s

/-- Changes made one after the other keep the view where each does. -/
theorem foldl_courseView {α : Type} (l : List α) (f : State → α → State)
    (h : ∀ s a, courseView (f s a) = courseView s) : courseView (l.foldl f s) = courseView s :=
  List.foldlRecOn l f (motive := fun x => courseView x = courseView s) rfl fun b hb a _ => (h b a).trans hb

@[simp] theorem modCourse_courseView (f : CourseSt → CourseSt) :
    courseView (modCourse s f) = (f (courseView s).1, (courseView s).2) := rfl
@[simp] theorem raiseAll_courseView (n : Nat) : courseView (raiseAll s n) = courseView s := rfl
@[simp] theorem modP_courseView (f : PixSt → PixSt) : courseView (modP s f) = courseView s := rfl
@[simp] theorem modN_courseView (f : NfcSt → NfcSt) : courseView (modN s f) = courseView s := rfl
@[simp] theorem modLun_courseView (l : Nat) (f : NfcLun → NfcLun) : courseView (modLun s l f) = courseView s := rfl
@[simp] theorem modChan_courseView (c : Nat) (f : NfcChan → NfcChan) : courseView (modChan s c f) = courseView s := rfl
@[simp] theorem panelCopy_courseView : courseView (panelCopy s) = courseView s := rfl
@[simp] theorem epdDiscard_courseView (m : BitVec 4) : courseView (epdDiscard s m) = courseView s := rfl
@[simp] theorem flashSuspend_courseView : courseView (flashSuspend s) = courseView s := by
  unfold flashSuspend
  split <;> rfl
@[simp] theorem wfValidateStart_courseView (b : Bool) : courseView (wfValidateStart s b) = courseView s := by
  simp [wfValidateStart]
@[simp] theorem setMismatch_courseView (m f : Nat) : courseView (setMismatch s m f) = courseView s := by
  unfold setMismatch
  dsimp only
  split <;> rfl

/-- A change of the gang link that puts no frame on the bus. -/
theorem modG_courseView (f : GngSt → GngSt) (h : ∀ g, (f g).busy = g.busy) : courseView (modG s f) = courseView s := by
  simp [courseView, commitRest, h]

@[simp] theorem hookEpd_courseView (o : State) : courseView (hookEpd o s) = courseView s := by
  simp only [hookEpd, whenS_courseView, wfValidateStart_courseView, modP_courseView, epdDiscard_courseView, ite_self]
  refine (foldl_courseView _ _ _ fun _ _ => by rfl).trans ?_
  simp only [epdDiscard_courseView, whenS_courseView, panelCopy_courseView, ite_self]
  split
  · exact (whenS_courseView s _ panelCopy).trans (by simp)
  · rfl

@[simp] theorem gangRestart_courseView : courseView (gangRestart s) = courseView s := by
  unfold gangRestart
  extract_lets en off link n
  have hlink : courseView link = courseView s := by
    unfold link
    rw [ite_courseView, setMismatch_courseView, ite_self]
    exact modG_courseView s _ fun _ => rfl
  split
  · exact hlink
  · exact (modG_courseView link _ fun _ => rfl).trans hlink

@[simp] theorem hookGng_courseView (o : State) : courseView (hookGng o s) = courseView s := by simp [hookGng]

@[simp] theorem courseApply_courseView (t : Nat → Bool) : courseView (courseApply s t) = courseView s :=
  foldl_courseView _ _ _ fun _ _ => rfl

end View

end Sys2Proof.Machine
end

section
/-! PROOFS. What the assignment of a course makes of the course record (03 R84-R87). -/

namespace Sys2Proof.Machine

/-- From s to t, blocks of bs alone may have published: the latest course, the RUNNING numbers of the others and what the end of
a commit's frame reads are the same. -/
structure TakesUp (bs : List Nat) (s t : State) : Prop where
  number : t.core.course.number = s.core.course.number
  blocks : t.core.course.blocks = s.core.course.blocks
  owner : t.core.course.owner = s.core.course.owner
  running : ∀ i ∉ bs, nth t.core.course.running i 0 = nth s.core.course.running i 0
  rest : commitRest t = commitRest s

variable {bs cs : List Nat} {s t u : State} {b : Nat}

theorem TakesUp.trans (h : TakesUp bs s t) (k : TakesUp cs t u) : TakesUp (bs ++ cs) s u where
  number := k.number.trans h.number
  blocks := k.blocks.trans h.blocks
  owner := k.owner.trans h.owner
  running i hi := by
    rw [List.mem_append, not_or] at hi
    exact (k.running i hi.2).trans (h.running i hi.1)
  rest := k.rest.trans h.rest

/-- Nothing has been published where the course record is the same. -/
theorem TakesUp.of_courseView (h : courseView t = courseView s) : TakesUp bs s t := by
  obtain ⟨hc, hr⟩ : t.core.course = s.core.course ∧ commitRest t = commitRest s := by simpa [courseView] using h
  exact ⟨by rw [hc], by rw [hc], by rw [hc], fun _ _ => by rw [hc], hr⟩

theorem TakesUp.refl (bs : List Nat) (s : State) : TakesUp bs s s := .of_courseView rfl

/-- The same blocks again. -/
theorem TakesUp.step (h : TakesUp bs s t) (k : TakesUp bs t u) : TakesUp bs s u :=
  { h.trans k with running := fun i hi => (h.trans k).running i (by simp [hi]) }

/-- A block publishes (03 R85). -/
theorem coursePublish_takesUp (s : State) (b : Nat) : TakesUp [b] s (coursePublish s b) where
  number := rfl
  blocks := rfl
  owner := rfl
  running i hi := nth_upd_ne _ _ _ _ _ (by simpa using hi)
  rest := rfl

/-- A block that the pending course does not wait for takes nothing up. -/
theorem takeUpRaw_of_not_due (h : courseDue s b = false) : takeUpRaw s b = s := by simp [takeUpRaw, h]

/-- EPD or GNG publishes where the pending course waits for it; its words and its hook leave the course record. -/
theorem takeUpRaw_courseView (h : courseDue s b = true) (hb : b = 3 ∨ b = 7) :
    courseView (takeUpRaw s b) = courseView (coursePublish s b) := by
  rcases hb with rfl | rfl <;> simp [takeUpRaw, h, courseHook, coursePublish]

theorem takeUpRaw_takesUp (s : State) (hb : b = 3 ∨ b = 7) : TakesUp [b] s (takeUpRaw s b) := by
  cases h : courseDue s b with
  | true => exact (coursePublish_takesUp s b).step (.of_courseView (takeUpRaw_courseView h hb))
  | false =>
    rw [takeUpRaw_of_not_due h]
    exact .refl _ s

/-- The RUNNING number of EPD or GNG that takes the pending course up (03 R85). -/
theorem takeUpRaw_running (h : courseDue s b = true) (hb : b = 3 ∨ b = 7) (hlen : b < s.core.course.running.length) :
    nth (takeUpRaw s b).core.course.running b 0 = s.core.course.number := by
  have hc : (takeUpRaw s b).core.course = (coursePublish s b).core.course := congrArg Prod.fst (takeUpRaw_courseView h hb)
  rw [hc]
  exact nth_upd_same _ _ _ _ hlen

/-- The other blocks wait for the pending course as before, and none is lost. -/
theorem takeUpRaw_others (s : State) (hb : b = 3 ∨ b = 7) :
    (takeUpRaw s b).core.course.running.length = s.core.course.running.length ∧
      ∀ i, i ≠ b → courseDue (takeUpRaw s b) i = courseDue s i := by
  cases h : courseDue s b with
  | false => simp [takeUpRaw_of_not_due h]
  | true =>
    have hc : (takeUpRaw s b).core.course = (coursePublish s b).core.course := congrArg Prod.fst (takeUpRaw_courseView h hb)
    refine ⟨by rw [hc]; exact length_upd _ _ _, fun i hi => ?_⟩
    simp only [courseDue, hc, coursePublish, modCourse_core_course, bit_setBit_ne _ _ _ _ hi]

/-- A bank of the setup flash that takes the pending course up; with the second one EFL publishes (11 R309). -/
theorem eflTakeBank_takesUp (s : State) (b : Nat) : TakesUp [6] s (eflTakeBank s b) := by
  unfold eflTakeBank
  extract_lets cs n s1 s2
  have h2 : TakesUp [6] s s2 := ⟨rfl, rfl, rfl, fun _ _ => rfl, rfl⟩
  split
  · split
    · exact (h2.step (.of_courseView (courseApply_courseView s2 _))).step (coursePublish_takesUp _ 6)
    · exact h2
  · exact .refl _ s

theorem eflTakeRaw_takesUp (s : State) : TakesUp [6] s (eflTakeRaw s) :=
  (eflTakeBank_takesUp s 0).step (eflTakeBank_takesUp _ 1)

/-- NFC publishes with its last LUN (03 R86). -/
theorem nfcPublish_takesUp (s : State) : TakesUp [5] s (nfcPublish s) :=
  (TakesUp.of_courseView ((modN_courseView _ _).trans (courseApply_courseView s _))).step (coursePublish_takesUp _ 5)

/-- A LUN that takes the pending course up; with the last one NFC publishes (03 R86). -/
theorem lunTakeRaw_takesUp (s : State) (l : Nat) : TakesUp [5] s (lunTakeRaw s l) := by
  unfold lunTakeRaw
  extract_lets s1 n en cs s2 s3
  have h3 : courseView s3 = courseView s := by simp [s3, s2, s1, chanTake]
  split
  · split
    · exact .of_courseView h3
    · exact (TakesUp.of_courseView h3).step (nfcPublish_takesUp s3)
  · exact .refl _ s

theorem nfcTakeRaw_takesUp (s : State) : TakesUp [5] s (nfcTakeRaw s) :=
  List.foldlRecOn _ lunTakeRaw (motive := TakesUp [5] s) (.refl _ s) fun _ h l _ => h.step (lunTakeRaw_takesUp _ l)

/-- The end of the course leaves the record of it, and the RUNNING numbers (03 R87). -/
theorem courseComplete_takesUp (s : State) : TakesUp [] s (courseComplete s) := by
  unfold courseComplete
  dsimp only
  split
  · exact ⟨rfl, rfl, rfl, fun _ _ => rfl, rfl⟩
  · exact .refl _ s

/-- A course that some targeted block has not taken up goes on. -/
theorem courseComplete_of_waiting (h : s.core.course.blocks &&& ~~~s.core.course.taken ≠ 0) : courseComplete s = s :=
  if_neg fun hc => h hc.2

/-- The course record as a commit by p of a mask makes it (03 R83, R84). -/
def assigned (s : State) (p : Part) (blocks : BitVec 8) (c : CourseSt) : CourseSt :=
  { c with
    number := if c.number = 65535 then 1 else c.number + 1
    blocks := blocks
    owner := p
    state := 1
    taken := 0
    blocking := 15
    image := s.core.regs
    imageBad := s.core.parity
    commitTick := now s
    limit := (uf s 0x43 0 16 * 32768 + 999) / 1000
    eflTaken := 0 }

/-- A course has its number and its captured values, and every LUN that it targets waits for it (03 R84, R86). -/
def courseBegin (s : State) (p : Part) (blocks : BitVec 8) : State :=
  let s := modCourse s (assigned s p blocks)
  if bit blocks 5 then modN s (fun n => { n with
      luns := n.luns.map (fun x => { x with pending := true, held := true })
      flight := n.flight.map (fun f => if f.st = 1 then { f with held := true } else f) }) else s

/-- EPD takes the pending course up where no panel run is under way. -/
def epdIdleTake (s : State) : State := if s.core.epd.run.isNone then takeUpRaw s 3 else s

/-- GNG takes the pending course up where no gang frame is on the bus. -/
def gngIdleTake (s : State) : State := if s.core.gng.busy then s else takeUpRaw s 7

/-- A course is assigned, and the idle blocks take it up in turn. -/
theorem courseAssign_eq (s : State) (p : Part) (blocks : BitVec 8) : courseAssign s p blocks =
    courseComplete (nfcTakeRaw (eflTakeRaw (gngIdleTake (epdIdleTake (courseBegin s p blocks))))) := rfl

section Begin

variable (s : State) (p : Part) (blocks : BitVec 8)

theorem courseBegin_course : (courseBegin s p blocks).core.course = assigned s p blocks s.core.course := by
  unfold courseBegin
  dsimp only
  split <;> rfl

theorem courseBegin_rest : commitRest (courseBegin s p blocks) = commitRest s := by
  unfold courseBegin
  dsimp only
  split <;> rfl

theorem courseBegin_epd : (courseBegin s p blocks).core.epd = s.core.epd := by
  unfold courseBegin
  dsimp only
  split <;> rfl

/-- Every block of the mask waits for the course that has just been assigned. -/
theorem courseDue_courseBegin : courseDue (courseBegin s p blocks) b = bit blocks b := by
  simp [courseDue, courseBegin_course, assigned, bit]

end Begin

/-- Whether a gang frame is on the bus is the same where the rest is. -/
theorem busy_of_commitRest (h : commitRest t = commitRest s) : t.core.gng.busy = s.core.gng.busy :=
  congrArg (fun v => v.2.2.2.2) h

theorem epdIdleTake_takesUp (s : State) : TakesUp [3] s (epdIdleTake s) := by
  unfold epdIdleTake
  split
  · exact takeUpRaw_takesUp s (.inl rfl)
  · exact .refl _ s

theorem gngIdleTake_takesUp (s : State) : TakesUp [7] s (gngIdleTake s) := by
  unfold gngIdleTake
  split
  · exact .refl _ s
  · exact takeUpRaw_takesUp s (.inr rfl)

/-- The turn of EPD leaves GNG waiting for the course as before. -/
theorem epdIdleTake_others (s : State) : (epdIdleTake s).core.course.running.length = s.core.course.running.length ∧
    courseDue (epdIdleTake s) 7 = courseDue s 7 := by
  unfold epdIdleTake
  split
  · exact (takeUpRaw_others s (.inl rfl)).imp_right fun h => h 7 (by decide)
  · exact ⟨rfl, rfl⟩

/-- The assignment of a course, and what the idle blocks make of it at once (03 R84-R86). -/
theorem courseAssign_takesUp (s : State) (p : Part) (blocks : BitVec 8) :
    TakesUp [3, 7, 6, 5] (courseBegin s p blocks) (courseAssign s p blocks) := by
  rw [courseAssign_eq]
  exact ((((epdIdleTake_takesUp _).trans (gngIdleTake_takesUp _)).trans (eflTakeRaw_takesUp _)).trans
    (nfcTakeRaw_takesUp _)).trans (courseComplete_takesUp _)

/-- After the turn of GNG no block but EFL and NFC publishes. -/
theorem courseAssign_after_gng (s : State) (p : Part) (blocks : BitVec 8) :
    TakesUp [6, 5] (gngIdleTake (epdIdleTake (courseBegin s p blocks))) (courseAssign s p blocks) := by
  rw [courseAssign_eq]
  exact ((eflTakeRaw_takesUp _).trans (nfcTakeRaw_takesUp _)).trans (courseComplete_takesUp _)

section Assign

variable (s : State) (p : Part) (blocks : BitVec 8)

theorem courseAssign_rest : commitRest (courseAssign s p blocks) = commitRest s :=
  (courseAssign_takesUp s p blocks).rest.trans (courseBegin_rest s p blocks)

theorem courseAssign_number : (courseAssign s p blocks).core.course.number =
    if s.core.course.number = 65535 then 1 else s.core.course.number + 1 := by
  rw [(courseAssign_takesUp s p blocks).number, courseBegin_course]
  rfl

theorem courseAssign_blocks : (courseAssign s p blocks).core.course.blocks = blocks := by
  rw [(courseAssign_takesUp s p blocks).blocks, courseBegin_course]
  rfl

theorem courseAssign_owner : (courseAssign s p blocks).core.course.owner = p := by
  rw [(courseAssign_takesUp s p blocks).owner, courseBegin_course]
  rfl

/-- THM, FLW, KEY and SEQ are never idle: none of them publishes at the commit (03 Table 3-2). -/
theorem courseAssign_running_of_never_idle {i : Nat} (hi : i ∉ [3, 7, 6, 5]) :
    nth (courseAssign s p blocks).core.course.running i 0 = nth s.core.course.running i 0 := by
  rw [(courseAssign_takesUp s p blocks).running i hi, courseBegin_course]
  rfl

/-- EPD publishes at once where no panel run is under way (03 R84). -/
theorem courseAssign_running_epd (hbit : bit blocks 3 = true) (hrun : s.core.epd.run = none)
    (hlen : s.core.course.running.length = 8) :
    nth (courseAssign s p blocks).core.course.running 3 0 = (courseAssign s p blocks).core.course.number := by
  have hidle : epdIdleTake (courseBegin s p blocks) = takeUpRaw (courseBegin s p blocks) 3 := by
    simp [epdIdleTake, courseBegin_epd, hrun]
  have hlast := (gngIdleTake_takesUp (epdIdleTake (courseBegin s p blocks))).trans (courseAssign_after_gng s p blocks)
  have hlen' : 3 < (courseBegin s p blocks).core.course.running.length := by
    simp [courseBegin_course, assigned, hlen]
  rw [hlast.running 3 (by decide), hidle, takeUpRaw_running ((courseDue_courseBegin ..).trans hbit) (.inl rfl) hlen',
    (courseAssign_takesUp s p blocks).number]

/-- GNG publishes at once where no gang frame is on the bus (03 R84). -/
theorem courseAssign_running_gng (hbit : bit blocks 7 = true) (hbusy : s.core.gng.busy = false)
    (hlen : s.core.course.running.length = 8) :
    nth (courseAssign s p blocks).core.course.running 7 0 = (courseAssign s p blocks).core.course.number := by
  obtain ⟨hcount, hdue⟩ := epdIdleTake_others (courseBegin s p blocks)
  have hepd := epdIdleTake_takesUp (courseBegin s p blocks)
  have hfree : (epdIdleTake (courseBegin s p blocks)).core.gng.busy = false :=
    (busy_of_commitRest (hepd.rest.trans (courseBegin_rest s p blocks))).trans hbusy
  have hidle : gngIdleTake (epdIdleTake (courseBegin s p blocks)) = takeUpRaw (epdIdleTake (courseBegin s p blocks)) 7 := by
    simp [gngIdleTake, hfree]
  have hlen' : 7 < (epdIdleTake (courseBegin s p blocks)).core.course.running.length := by
    simp [hcount, courseBegin_course, assigned, hlen]
  rw [(courseAssign_after_gng s p blocks).running 7 (by decide), hidle,
    takeUpRaw_running (hdue.trans ((courseDue_courseBegin ..).trans hbit)) (.inr rfl) hlen', hepd.number,
    (courseAssign_takesUp s p blocks).number]

/-- GNG waits for the end of the gang frame on the bus (15 R427). -/
theorem courseAssign_running_gng_of_busy (hbusy : s.core.gng.busy = true) :
    nth (courseAssign s p blocks).core.course.running 7 0 = nth s.core.course.running 7 0 := by
  have hepd := epdIdleTake_takesUp (courseBegin s p blocks)
  have hheld : (epdIdleTake (courseBegin s p blocks)).core.gng.busy = true :=
    (busy_of_commitRest (hepd.rest.trans (courseBegin_rest s p blocks))).trans hbusy
  have hidle : gngIdleTake (epdIdleTake (courseBegin s p blocks)) = epdIdleTake (courseBegin s p blocks) := by
    simp [gngIdleTake, hheld]
  rw [(courseAssign_after_gng s p blocks).running 7 (by decide), hidle, hepd.running 7 (by decide), courseBegin_course]
  rfl

end Assign

/-- A course that names THM, FLW, KEY and SEQ only waits for the quiescent points of all of them: nothing but the course record
has changed (03 R84, R85). -/
theorem courseAssign_never_idle (s : State) (p : Part) {blocks : BitVec 8} (hne : blocks ≠ 0) (honly : blocks &&& ~~~0x17#8 = 0) :
    courseAssign s p blocks = modCourse s (assigned s p blocks) := by
  have hno : ∀ i ∈ [3, 5, 6, 7], bit blocks i = false := by
    have hall : ∀ m : BitVec 8, m &&& ~~~0x17#8 = 0 → ∀ i ∈ [3, 5, 6, 7], bit m i = false := by decide
    exact hall blocks honly
  have hbegin : courseBegin s p blocks = modCourse s (assigned s p blocks) := by simp [courseBegin, hno]
  have hdue : ∀ i ∈ [3, 5, 6, 7], courseDue (courseBegin s p blocks) i = false := fun i hi =>
    (courseDue_courseBegin ..).trans (hno i hi)
  have hepd : epdIdleTake (courseBegin s p blocks) = courseBegin s p blocks := by
    simp [epdIdleTake, takeUpRaw_of_not_due, hdue]
  have hgng : gngIdleTake (courseBegin s p blocks) = courseBegin s p blocks := by
    simp [gngIdleTake, takeUpRaw_of_not_due, hdue]
  have hefl : eflTakeRaw (courseBegin s p blocks) = courseBegin s p blocks := by
    simp [eflTakeRaw, eflTakeBank, hdue]
  have hnfc : nfcTakeRaw (courseBegin s p blocks) = courseBegin s p blocks :=
    List.foldlRecOn _ lunTakeRaw (motive := (· = courseBegin s p blocks)) rfl fun x hx l _ => by
      simp [hx, lunTakeRaw, lunMayTake, hdue]
  have hend : courseComplete (courseBegin s p blocks) = courseBegin s p blocks := by
    refine courseComplete_of_waiting ?_
    rw [courseBegin_course]
    show blocks &&& ~~~(0 : BitVec 8) ≠ 0
    rwa [show ~~~(0 : BitVec 8) = BitVec.allOnes 8 from rfl, BitVec.and_allOnes]
  rw [courseAssign_eq, hepd, hgng, hefl, hnfc, hend, hbegin]

end Sys2Proof.Machine
end

section
/-! PROOFS. The write frame of a commit: its one word is no refused or MASKED write, and the port reports the outcome of
the commit (02 R59, 03 R84). -/

namespace Sys2Proof.Machine

variable {s t u : State} {p : Part}

/-- The register of DEV_COURSE_COMMIT (03 Table 3-5). -/
theorem regAt_courseCommit : regAt 0x40 = some { fs := [fWo 0xFF .any] } := rfl

/-- Every partition may commit a course (03 R84). -/
theorem wordDenied_courseCommit (s : State) (p : Part) (v : Word) : wordDenied s p.val 0x40 v = false := by
  simp [wordDenied, regAt_courseCommit, fWo, writerOf, specialDenied]

/-- DEV_COURSE_COMMIT stores nothing, and masks nothing. -/
theorem writeStore_courseCommit (s : State) (p : Part) (v : Word) : writeStore s s p.val 0x40 v = (s, false) := by
  simp [writeStore, regAt_courseCommit, isStaged, writePrimary, accMask, fsMask, fWo, cvuHeld, cvuRepaired, storeRw, clearBits]

/-- Requests that no frame has added stay as they are. -/
theorem railMerge_of_none_added {n : Nat} (h : s.core.seq.reqs.length ≤ n) : railMerge n s = s :=
  if_pos (Nat.le_succ_of_le h)

/-- The frame that writes DEV_COURSE_COMMIT alone commits its low byte. -/
theorem writeRegs_courseCommit (s : State) (p : Part) (v : Word)
    (hseq : (courseCommitOp s p (BitVec.ofNat 8 v.toNat)).1.core.seq = s.core.seq) :
    writeRegs s p [(0x40, v)] = ((courseCommitOp s p (BitVec.ofNat 8 v.toNat)).1,
      if (courseCommitOp s p (BitVec.ofNat 8 v.toNat)).2 then 0x01 else 0x00) := by
  have hbyte : BitVec.ofNat 8 (fld v 0 8) = BitVec.ofNat 8 v.toNat := by
    apply BitVec.eq_of_toNat_eq
    simp [fld]
  have hact : writeAct s s p 0x40 v = courseCommitOp s p (BitVec.ofNat 8 v.toNat) := by
    rw [← hbyte]
    rfl
  generalize courseCommitOp s p (BitVec.ofNat 8 v.toNat) = x at *
  have happly : applyWrites s p [(0x40, v)] = x := by
    have hmerge : railMerge s.core.seq.reqs.length x.1 = x.1 := railMerge_of_none_added (by rw [hseq])
    simp [applyWrites, eachWord, writeStore_courseCommit, writeQuotas, hact, writeCvu, cvuA, upto, List.range_succ, hmerge, touchesNfc]
  simp [writeRegs, wordDenied_courseCommit, happly]

section Cases

variable {blocks : BitVec 8}

/-- A mask of 0 commits nothing (03 R84). -/
theorem courseCommitOp_zero (s : State) (p : Part) : courseCommitOp s p 0 = (s, false) := rfl

/-- With no course PENDING a commit is assigned (03 R84). -/
theorem courseCommitOp_assigns (hne : blocks ≠ 0) (hst : s.core.course.state ≠ 1) :
    courseCommitOp s p blocks = (courseAssign s p blocks, false) := (if_neg hne).trans (if_pos hst)

/-- P0 queues one mask behind the course of another partition (03 R90). -/
theorem courseCommitOp_queues (hne : blocks ≠ 0) (hst : s.core.course.state = 1)
    (h : p = 0 ∧ s.core.course.owner ≠ 0 ∧ s.core.course.queued = none) :
    courseCommitOp s p blocks = (modCourse s (fun c => { c with queued := some blocks }), false) :=
  (if_neg hne).trans ((if_neg (not_not_intro hst)).trans (if_pos h))

/-- Every other commit while a course is PENDING is counted as refused (03 R90). -/
theorem courseCommitOp_refuses (hne : blocks ≠ 0) (hst : s.core.course.state = 1)
    (h : ¬(p = 0 ∧ s.core.course.owner ≠ 0 ∧ s.core.course.queued = none)) :
    courseCommitOp s p blocks = (modCourse s (fun c => { c with refused := sat 65535 (c.refused + 1) }), true) :=
  (if_neg hne).trans ((if_neg (not_not_intro hst)).trans (if_neg h))

/-- A commit leaves what the end of its frame reads. -/
theorem courseCommitOp_rest (s : State) (p : Part) (blocks : BitVec 8) :
    commitRest (courseCommitOp s p blocks).1 = commitRest s := by
  by_cases hne : blocks = 0
  · rw [hne, courseCommitOp_zero]
  by_cases hst : s.core.course.state = 1
  · by_cases hq : p = 0 ∧ s.core.course.owner ≠ 0 ∧ s.core.course.queued = none
    · rw [courseCommitOp_queues hne hst hq]
      rfl
    · rw [courseCommitOp_refuses hne hst hq]
      rfl
  · rw [courseCommitOp_assigns hne hst, courseAssign_rest]

end Cases

/-- A port still listens where what the end of a frame reads is the same and no port is lost. -/
theorem Listens.of_commitRest (hs : Listens s p) (hr : commitRest t = commitRest s) (hports : t.core.ports = s.core.ports) :
    Listens t p := by
  have haon : t.aon = s.aon := congrArg Prod.fst hr
  have hpart : t.core.part = s.core.part := congrArg (fun v => v.2.1) hr
  have hpwr : t.core.pwr = s.core.pwr := congrArg (fun v => v.2.2.1) hr
  exact ⟨(congrArg (fun a : Aon => a.phase == .run) haon).trans hs.up,
    (congrArg (fun q : PartSt => bit q.inReset p.val) hpart).trans hs.notInReset,
    (congrArg PwrSt.devrst hpwr).trans hs.noDeviceReset, (congrArg List.length hports).trans hs.fourPorts⟩

/-- A change of the port alone leaves it listening. -/
theorem PortOnly.listens (h : PortOnly p s t) (hs : Listens s p) : Listens t p := by
  refine ⟨?_, (h.inReset _).trans hs.notInReset, h.devrst.trans hs.noDeviceReset, h.ports_length.trans hs.fourPorts⟩
  obtain ⟨ps, d, rfl, -⟩ := h
  exact hs.up

/-- The arrival of a write frame changes its port alone. -/
theorem PortOnly.frameOpen (p : Part) (s : State) (seq : Byte) (n : Nat) : PortOnly p s (frameOpen s p seq n) := by
  unfold Machine.frameOpen
  dsimp only
  split
  next h3 =>
    subst h3
    exact (PortOnly.portBegin 3 s _).modPort _
  next => exact (PortOnly.portBegin p s _).modPort _

/-- A write frame that ends OK changes its port alone. -/
theorem PortOnly.frameClose_ok (h : PortOnly p s t) (ht : Listens t p) (seq : Byte) (a n : Nat) :
    PortOnly p s (frameClose t p seq a n 0) := by
  rw [frameClose, frameEnd_ok ht]
  exact h.modPort _

/-- The end of a write frame leaves the course record. -/
theorem course_frameClose_ok (hs : Listens s p) (seq : Byte) (a n : Nat) :
    (frameClose s p seq a n 0).core.course = s.core.course := by
  rw [frameClose, frameEnd_ok hs]
  rfl

/-- The same change of the course record on both sides. -/
theorem PortOnly.modCourse (h : PortOnly p s t) (f : CourseSt → CourseSt) :
    PortOnly p (modCourse s f) (modCourse t f) := by
  obtain ⟨ps, d, rfl, hlen, hoth⟩ := h
  exact ⟨ps, d, rfl, hlen, hoth⟩

/-- A change of the port alone leaves the course record. -/
theorem PortOnly.course (h : PortOnly p s t) : t.core.course = s.core.course := by
  obtain ⟨ps, d, rfl, -⟩ := h
  rfl

/-- What a commit captures is the same where a port alone has changed. -/
theorem PortOnly.assigned (h : PortOnly p s t) (q : Part) (blocks : BitVec 8) : assigned t q blocks = assigned s q blocks := by
  obtain ⟨ps, d, rfl, -⟩ := h
  rfl

/-- The port reports the outcome of a write frame (02 R59). -/
theorem lastStatus_frameClose (hs : Listens s p) (seq : Byte) (a n code : Nat) :
    (portOf (settle (frameClose s p seq a n code)) p).lastStatus = BitVec.ofNat 8 code := by
  rw [lastStatus_settle, frameClose]
  obtain ⟨g, hg, he⟩ := frameEnd_eq hs.noDeviceReset p.val
    { op := 0x02, seq := seq.toNat, addr := a, len := n - 1, bulk := false } code (7 + 4 * n + b2n (p == 3))
  have hport : portOf (if (errIndex code).isSome then raise (modPort s p.val g) p.val 8 else modPort s p.val g) p
      = g (portOf s p) := by
    split <;> exact portOf_modPort s p g hs.fourPorts
  rw [he, hport, hg, hs.notInReset]
  rfl

/-- A frame condition that names more parts. -/
theorem Keeps.mono {but but' : List Piece} (h : Keeps but s t) (hsub : but ⊆ but') : Keeps but' s t := fun k =>
  (h k).imp_left fun hk => hsub hk

/-- The end of an instant after a change of one port that may raise its PORT_ERR source. -/
theorem PortAndErr.keepsPort_settle (hs : Settled s) (h : PortAndErr p s t) : KeepsPort p [.irqPend] s (settle t) := by
  obtain ⟨hkeeps, hports, -⟩ := h.onlyPort_settle hs
  exact ⟨hkeeps.mono (by simp), hports⟩

/-- The end of an instant after a change of one port that raises nothing. -/
theorem PortOnly.keepsPort_settle (hs : Settled s) (h : PortOnly p s t) : KeepsPort p [] s (settle t) := by
  obtain ⟨hkeeps, hports⟩ := h.portAndErr.keepsPort_settle hs
  refine ⟨fun k => ?_, hports⟩
  by_cases hk : k = .irqPend
  · have hirq : t.core.irq = s.core.irq := by
      obtain ⟨ps, d, rfl, -⟩ := h
      rfl
    have hpend := map_irq_settle t (h.portAndErr.noTrigger hs) IrqSt.pend (pend_irqNext t)
    rw [hk]
    exact .inr (hpend.trans (congrArg (List.map IrqSt.pend) hirq))
  · exact (hkeeps k).imp_left fun hm => by simpa [hk] using hm

/-- A change of the course record, as a frame condition. -/
theorem KeepsPort.of_modCourse {but : List Piece} {f : CourseSt → CourseSt} (h : KeepsPort p but (Machine.modCourse s f) t) :
    KeepsPort p (.course :: but) s t := by
  refine ⟨fun k => ?_, h.2⟩
  by_cases hk : k = .course
  · exact .inl (by simp [hk])
  · refine (h.1 k).imp (fun hm => by simp [hm]) fun hsame => ?_
    cases k
    case course => exact absurd rfl hk
    all_goals exact hsame

/-- Where the frame condition does not name the course record, it is as the change made it. -/
theorem KeepsPort.course {but : List Piece} {f : CourseSt → CourseSt} (h : KeepsPort p but (Machine.modCourse s f) t)
    (hbut : Piece.course ∉ but) : t.core.course = f s.core.course :=
  (h.1 .course).resolve_left (by simp [hbut])

/-- The state after a commit's frame of a mask. -/
def afterCommit (s : State) (p : Part) (seq : Byte) (blocks : BitVec 8) : State :=
  let x := courseCommitOp (frameOpen s p seq 1) p blocks
  settle (frameClose x.1 p seq 0x40 1 (if x.2 then 0x01 else 0x00))

/-- A commit's frame on a port that listens. -/
theorem exec_courseCommit (hs : Listens s p) (seq : Byte) (v : Word) :
    exec (.courseCommit p seq v) s = .next (afterCommit s p seq (BitVec.ofNat 8 v.toNat)) := by
  have hopen : Listens (frameOpen s p seq 1) p := (PortOnly.frameOpen p s seq 1).listens hs
  have hseq := congrArg (fun w => w.2.2.2.1) (courseCommitOp_rest (frameOpen s p seq 1) p (BitVec.ofNat 8 v.toNat))
  have hwrite : writeFrame s p seq 0x40 [v] =
      frameClose (courseCommitOp (frameOpen s p seq 1) p (BitVec.ofNat 8 v.toNat)).1 p seq 0x40 1
        (if (courseCommitOp (frameOpen s p seq 1) p (BitVec.ofNat 8 v.toNat)).2 then 0x01 else 0x00) := by
    simp [writeFrame, hopen.notInReset, writeRegs_courseCommit _ _ _ hseq]
  show instant (whenCore (fun s => writeFrame s p seq 0x40 [v])) s = _
  rw [instant_eq, whenCore_up s _ hs.up, hwrite]
  rfl

/-- A commit that is not assigned and not refused changes the course record alone, with outcome OK. -/
theorem afterCommit_ok (hs : Settled s) (hl : Listens s p) (seq : Byte) {blocks : BitVec 8} {f : CourseSt → CourseSt}
    (hx : courseCommitOp (frameOpen s p seq 1) p blocks = (modCourse (frameOpen s p seq 1) f, false)) :
    (portOf (afterCommit s p seq blocks) p).lastStatus = 0x00 ∧ KeepsPort p [] (modCourse s f) (afterCommit s p seq blocks) := by
  have hport : PortOnly p (modCourse s f) (modCourse (frameOpen s p seq 1) f) := (PortOnly.frameOpen p s seq 1).modCourse f
  have hlisten : Listens (modCourse (frameOpen s p seq 1) f) p := hport.listens hl
  have hsettled : Settled (modCourse s f) := hs
  rw [afterCommit, hx]
  exact ⟨lastStatus_frameClose hlisten seq 0x40 1 0, (hport.frameClose_ok hlisten seq 0x40 1).keepsPort_settle hsettled⟩

/-- A commit that is refused changes the course record alone, with outcome MASKED and PORT_ERR (02 Table 2-16). -/
theorem afterCommit_masked (hs : Settled s) (hl : Listens s p) (seq : Byte) {blocks : BitVec 8} {f : CourseSt → CourseSt}
    (hx : courseCommitOp (frameOpen s p seq 1) p blocks = (modCourse (frameOpen s p seq 1) f, true)) :
    (portOf (afterCommit s p seq blocks) p).lastStatus = 0x01 ∧
      KeepsPort p [.irqPend] (modCourse s f) (afterCommit s p seq blocks) := by
  have hport : PortOnly p (modCourse s f) (modCourse (frameOpen s p seq 1) f) := (PortOnly.frameOpen p s seq 1).modCourse f
  have hlisten : Listens (modCourse (frameOpen s p seq 1) f) p := hport.listens hl
  have hsettled : Settled (modCourse s f) := hs
  rw [afterCommit, hx]
  exact ⟨lastStatus_frameClose hlisten seq 0x40 1 1, (hport.frameEnd hsettled.noDeviceReset ..).keepsPort_settle hsettled⟩

/-- With no course PENDING the commit is assigned, with outcome OK, and the rest of the instant leaves the course record. -/
theorem afterCommit_assigns (hl : Listens s p) (seq : Byte) {blocks : BitVec 8} (hne : blocks ≠ 0)
    (hst : s.core.course.state ≠ 1) :
    (portOf (afterCommit s p seq blocks) p).lastStatus = 0x00 ∧
      (afterCommit s p seq blocks).core.course = (courseAssign (frameOpen s p seq 1) p blocks).core.course := by
  have hport := PortOnly.frameOpen p s seq 1
  have hlisten : Listens (courseAssign (frameOpen s p seq 1) p blocks) p :=
    (hport.listens hl).of_commitRest (courseAssign_rest ..) (courseAssign_core_ports ..)
  have hst' : (frameOpen s p seq 1).core.course.state ≠ 1 := by rwa [hport.course]
  have hafter : afterCommit s p seq blocks = settle (frameClose (courseAssign (frameOpen s p seq 1) p blocks) p seq 0x40 1 0) := by
    simp only [afterCommit, courseCommitOp_assigns hne hst', Bool.false_eq_true, if_false]
  rw [hafter]
  refine ⟨lastStatus_frameClose hlisten seq 0x40 1 0, ?_⟩
  rw [settle_core_course, course_frameClose_ok hlisten]

end Sys2Proof.Machine
end

section
/-! PROOFS. Chapter 03: a course commit is assigned, queued or refused (03 R84, R90). -/

namespace Sys2Proof.Machine

variable {s t : State} {p : Part}

/-- A number of fields that end at bit n holds nothing from there on. -/
theorem mkN_lt {fs : Fields} {n : Nat} (h : ∀ f ∈ fs, f.2.1 + f.1 ≤ n) : mkN fs < 2 ^ n := by
  refine List.foldlRecOn fs _ (motive := (· < 2 ^ n)) (Nat.two_pow_pos n) fun acc hacc f hf => Nat.or_lt_two_pow hacc ?_
  have hfield : f.2.2 % 2 ^ f.2.1 < 2 ^ f.2.1 := Nat.mod_lt _ (Nat.two_pow_pos _)
  calc (f.2.2 % 2 ^ f.2.1) <<< f.1 < 2 ^ (f.2.1 + f.1) := by
        rw [Nat.shiftLeft_eq, Nat.pow_add]
        exact Nat.mul_lt_mul_of_pos_right hfield (Nat.two_pow_pos _)
    _ ≤ 2 ^ n := Nat.pow_le_pow_right (by decide) (h f hf)

/-- A word of fields that end at bit n, under the mask of the bits below. -/
theorem mkW_and_maskW {fs : Fields} {n : Nat} (hn : n ≤ 32) (hfs : ∀ f ∈ fs, f.2.1 + f.1 ≤ n) : mkW fs &&& maskW 0 n = mkW fs := by
  have hlt := mkN_lt hfs
  have hpow : 2 ^ n ≤ 2 ^ 32 := Nat.pow_le_pow_right (by decide) hn
  have hmask : (maskW 0 n).toNat = 2 ^ n - 1 := by
    have hfit : 2 ^ n - 1 < 2 ^ 32 := by have := Nat.two_pow_pos n; omega
    rw [maskW, Nat.shiftLeft_zero, BitVec.toNat_ofNat, Nat.mod_eq_of_lt hfit]
  apply BitVec.eq_of_toNat_eq
  rw [BitVec.toNat_and, hmask, Nat.and_two_pow_sub_one_eq_mod, mkW, BitVec.toNat_ofNat,
    Nat.mod_eq_of_lt (Nat.lt_of_lt_of_le hlt hpow), Nat.mod_eq_of_lt hlt]

/-- DEV_COURSE_TARGET reads the latest course to every partition (03 Table 3-5). -/
theorem readWord_courseTarget (s : State) (q : Nat) : readWord s q 0x41 =
    mkW [(0, 16, s.core.course.number), (16, 8, s.core.course.blocks.toNat), (24, 2, s.core.course.owner.val)] := by
  have hreg : primReg 0x41 = some { fs := [fRo (maskW 0 26)] } := rfl
  have hval : regValue s q 0x41 =
      mkW [(0, 16, s.core.course.number), (16, 8, s.core.course.blocks.toNat), (24, 2, s.core.course.owner.val)] := rfl
  rw [readWord_of_noResource s q hreg (by decide) (by simp [fRo]), hval]
  have hmask : fsMask [fRo (maskW 0 26)] = maskW 0 26 := by decide
  rw [hmask]
  exact mkW_and_maskW (by decide) (by simp)

/-- A commit of THM, FLW, KEY and SEQ alone changes nothing but the course record (03 R83, R84). -/
theorem afterCommit_never_idle (hs : Settled s) (hl : Listens s p) (seq : Byte) {blocks : BitVec 8} (hne : blocks ≠ 0)
    (hst : s.core.course.state ≠ 1) (honly : blocks &&& ~~~0x17#8 = 0) :
    KeepsPort p [] (modCourse s (assigned s p blocks)) (afterCommit s p seq blocks) := by
  have hport := PortOnly.frameOpen p s seq 1
  have hst' : (frameOpen s p seq 1).core.course.state ≠ 1 := by rwa [hport.course]
  have hx : courseCommitOp (frameOpen s p seq 1) p blocks = (modCourse (frameOpen s p seq 1) (assigned s p blocks), false) := by
    rw [courseCommitOp_assigns hne hst', courseAssign_never_idle _ _ hne honly, hport.assigned]
  exact (afterCommit_ok hs hl seq hx).2

/-- Settles O18: the state after the commit's frame, by the branch of the commit. -/
theorem commitAssignsQueuesOrRefuses : Obligations.CommitAssignsQueuesOrRefuses := by
  unfold Obligations.CommitAssignsQueuesOrRefuses
  refine ⟨rfl, rfl, fun s p seq v hl hs hlen => ?_⟩
  extract_lets mask
  have hport := PortOnly.frameOpen p s seq 1
  have hcourse := hport.course
  refine ⟨_, exec_courseCommit hl seq v, fun hzero => ?zero, fun hne hst _ => ?assigned, fun hne hst hp hown hq => ?queued,
    fun hne hst hcond => ?refused⟩
  case zero =>
    have hx : courseCommitOp (frameOpen s p seq 1) p mask = (modCourse (frameOpen s p seq 1) id, false) := by
      rw [hzero, courseCommitOp_zero]
      rfl
    exact afterCommit_ok hs hl seq hx
  case assigned =>
    obtain ⟨hstatus, hc⟩ := afterCommit_assigns hl seq hne hst
    have hepd : (frameOpen s p seq 1).core.epd = s.core.epd := hport.portAndErr.same fun x => x.core.epd
    have hgng : (frameOpen s p seq 1).core.gng = s.core.gng := hport.portAndErr.same fun x => x.core.gng
    have hlen' : (frameOpen s p seq 1).core.course.running.length = 8 := by rw [hcourse, hlen]
    refine ⟨?_, ?_, ?_, hstatus, fun q => ?_, fun i hi => ?_, fun hbit hbusy => ?_, fun _ hbusy => ?_, fun hbit hrun => ?_,
      fun honly => ?_⟩
    · rw [hc, courseAssign_number, hcourse]
    · rw [hc, courseAssign_blocks]
    · rw [hc, courseAssign_owner]
    · rw [readWord_courseTarget, hc, courseAssign_blocks, courseAssign_owner]
    · have hnever : ∀ i ∈ [0, 1, 2, 4], i ∉ [3, 7, 6, 5] := by decide
      rw [hc, courseAssign_running_of_never_idle _ _ _ (hnever i hi), hcourse]
    · rw [hc, courseAssign_running_gng _ _ _ hbit (by rw [hgng, hbusy]) hlen']
    · rw [hc, courseAssign_running_gng_of_busy _ _ _ (by rw [hgng, hbusy]), hcourse]
    · rw [hc, courseAssign_running_epd _ _ _ hbit (by rw [hepd, hrun]) hlen']
    · have hkeeps := afterCommit_never_idle hs hl seq hne hst honly
      rw [hkeeps.course (by decide)]
      exact ⟨rfl, rfl, rfl, rfl, rfl, rfl, hkeeps.of_modCourse⟩
  case queued =>
    have hx := courseCommitOp_queues (p := p) hne (hcourse ▸ hst) (hcourse ▸ ⟨hp, hown, hq⟩)
    obtain ⟨hstatus, hkeeps⟩ := afterCommit_ok hs hl seq hx
    exact ⟨hkeeps.course (by decide), hstatus, hkeeps.of_modCourse⟩
  case refused =>
    have hno : ¬(p = 0 ∧ s.core.course.owner ≠ 0 ∧ s.core.course.queued = none) := by tauto
    have hx := courseCommitOp_refuses (p := p) hne (hcourse ▸ hst) (hcourse ▸ hno)
    obtain ⟨hstatus, hkeeps⟩ := afterCommit_masked hs hl seq hx
    exact ⟨hkeeps.course (by decide), hstatus, hkeeps.of_modCourse⟩

end Sys2Proof.Machine
end

section
/-! PROOFS. A retained word of the always-on domain: its register, and what a write of it stores (05 R157, 04 R102, R105). -/

namespace Sys2Proof.Machine

variable {s : State} {p : Part} {k : Nat}

/-- The state with v held in PWR_RETk, which passes parity again (05 R157, 01 R40). -/
def retHeld (s : State) (k : Nat) (v : Word) : State := setA (passes s fun a => a == 0xA40 + k) (0xA40 + k) v

/-- PWR_RETk is a word of 32 bits that P0 may write (05 Table 5-8). -/
theorem primReg_ret (hk : k < 32) : primReg (0xA40 + k) = some { fs := [fRw allBits] } := by
  have hdiv : (0xA40 + k) / 0x200 = 5 := by omega
  have hmod : (0xA40 + k) % 0x200 = 0x40 + k := by omega
  simp (disch := omega) only [primReg, hdiv, hmod, ge_iff_le, if_neg, if_pos, pwrReg]
  rfl

/-- PWR_RETk is a primary word. -/
theorem regAt_ret (hk : k < 32) : regAt (0xA40 + k) = some { fs := [fRw allBits] } :=
  regAt_of_primReg (primReg_ret hk) (by omega)

/-- The always-on domain holds PWR_RETk (05 Table 5-8). -/
theorem isAon_ret (hk : k < 32) : isAon (0xA40 + k) = true := by
  have hin : 0xA40 ≤ 0xA40 + k ∧ 0xA40 + k < 0xA60 := by omega
  simp [isAon, hin]

/-- PWR_RETk's value is the word that the always-on domain holds. -/
theorem regValue_ret (s : State) (q : Nat) (hk : k < 32) : regValue s q (0xA40 + k) = ard s (0xA40 + k) := by
  have hdiv : (0xA40 + k) / 0x200 = 5 := by omega
  have hmod : (0xA40 + k) % 0x200 = 0x40 + k := by omega
  have hlive : pwrLive s (0x40 + k) = none := by
    simp (disch := omega) only [pwrLive, if_neg]
  simp [regValue, hdiv, hmod, hlive, stored, isAon_ret hk]

/-- Every partition reads PWR_RETk as the always-on domain holds it (05 R157). -/
theorem readWord_ret (s : State) (q : Nat) (hk : k < 32) : readWord s q (0xA40 + k) = ard s (0xA40 + k) := by
  have hmask : fsMask [fRw allBits] = BitVec.allOnes 32 := by decide
  rw [readWord_of_noResource s q (primReg_ret hk) (by omega) (by simp [fRw]), regValue_ret s q hk, hmask, BitVec.and_allOnes]

/-- P0 alone may write PWR_RETk: it has one field, which is the steward's (05 R157, 04 R102, R105). -/
theorem wordDenied_ret (s : State) (p : Part) (v : Word) (hk : k < 32) : wordDenied s p.val (0xA40 + k) v = decide (p ≠ 0) := by
  have hspecial : ∀ q, specialDenied s q (0xA40 + k) v = false := fun q => by
    simp (disch := omega) only [specialDenied, if_neg]
  rcases eq_or_ne p 0 with rfl | hp
  · simp [wordDenied, regAt_ret hk, hspecial, fRw, writerOf]
  · have hbad : p.val ≠ 0 := Fin.val_ne_zero_iff.mpr hp
    simp [wordDenied, regAt_ret hk, severalRes, fRw, writerOf, hbad.symm, hp]

/-- All the bits of a word, put in place of the old ones. -/
theorem blend_allBits (old new : Word) : blend old new allBits = new := by
  have hall : allBits = BitVec.allOnes 32 := by decide
  rw [blend, hall, BitVec.not_allOnes, BitVec.and_zero, BitVec.zero_or, BitVec.and_allOnes]

/-- The bits of a write that covers its register are stored in the always-on domain. -/
theorem storeRw_ret (s : State) (q : Nat) (v : Word) (hk : k < 32) : storeRw s q (0xA40 + k) allBits v = retHeld s k v := by
  have hne : allBits ≠ 0 := by decide
  simp (disch := omega) only [storeRw, if_neg hne, if_neg, setStored, isAon_ret hk, if_true, blend_allBits]
  rfl

/-- P0's write of PWR_RETk stores the word, and masks nothing. -/
theorem writeStore_ret (s : State) (v : Word) (hk : k < 32) : writeStore s s 0 (0xA40 + k) v = (retHeld s k v, false) := by
  have hmod : (0xA40 + k) % 0x200 < 0x100 := by omega
  have hstaged : isStaged (0xA40 + k) = false := decide_eq_false (by omega)
  have hcvu : cvuHeld s (0xA40 + k) = false := by
    rw [cvuHeld, decide_eq_false (by omega), Bool.false_and, Bool.false_and]
  have hfix : ∀ old new, fixWord s (0xA40 + k) old new = (new, false) := fun old new => by
    simp (disch := omega) only [fixWord, if_neg]
  have hrep : cvuRepaired s (0xA40 + k) = s := by
    unfold cvuRepaired
    exact if_neg (by omega)
  have hquota : ¬(0x230 ≤ 0xA40 + k ∧ 0xA40 + k < 0x234) := by omega
  have hne : allBits ≠ 0#32 := by decide
  simp [writeStore, regAt_ret hk, hstaged, hmod, writePrimary, hquota, hcvu, hrep, hfix, accMask, fRw, fsMask, clearBits, hne,
    storeRw_ret s 0 _ hk, blend_allBits]

/-- A write of PWR_RETk does nothing beyond its storage. -/
theorem writeAct_ret (o s : State) (p : Part) (v : Word) (hk : k < 32) : writeAct o s p (0xA40 + k) v = (s, false) := by
  simp (disch := omega) only [writeAct, if_neg]

/-- A frame of P0 that writes PWR_RETk alone holds its word, with outcome OK. -/
theorem writeRegs_ret (s : State) (v : Word) (hk : k < 32) : writeRegs s 0 [(0xA40 + k, v)] = (retHeld s k v, 0x00) := by
  have hden : wordDenied s 0 (0xA40 + k) v = false := wordDenied_ret s 0 v hk
  have hquota : writeQuotas (retHeld s k v) [(0xA40 + k, v)] = (retHeld s k v, false) := by
    have hnone : ¬(0x230 ≤ 0xA40 + k ∧ 0xA40 + k < 0x234) := by omega
    simp [writeQuotas, hnone]
  have hcvu : ∀ (t : State) (u : Nat), writeCvu t [(0xA40 + k, v)] u = (t, false) := fun t u => by
    have hne : ∀ j, (0xA40 + k == cvuA u j) = false := fun j =>
      beq_false_of_ne (by rw [cvuA]; omega)
    simp [writeCvu, hne]
  have hnfc : touchesNfc [(0xA40 + k, v)] = false := by simp [touchesNfc]; omega
  have hmerge : railMerge s.core.seq.reqs.length (retHeld s k v) = retHeld s k v := railMerge_of_none_added (Nat.le_refl _)
  have happly : applyWrites s 0 [(0xA40 + k, v)] = (retHeld s k v, false) := by
    simp [applyWrites, eachWord, writeStore_ret s v hk, hquota, writeAct_ret _ _ _ _ hk, hcvu, upto, List.range_succ, hnfc,
      hmerge]
  simp [writeRegs, hden, happly]

/-- A frame of another partition that writes PWR_RETk alone is DENIED whole (04 R105). -/
theorem writeRegs_ret_denied (s : State) (v : Word) (hk : k < 32) (hp : p ≠ 0) : writeRegs s p [(0xA40 + k, v)] = (s, 0x20) := by
  simp [writeRegs, wordDenied_ret s p v hk, hp]

/-- A write of PWR_RETk on a port that listens is a frame of one word. -/
theorem exec_ret (hl : Listens s p) (seq : Byte) (v : Word) (hk : k < 32) :
    exec (.registerWrite p seq (BitVec.ofNat 16 (0xA40 + k)) v) s =
      .next (settle (frameClose (writeRegs (frameOpen s p seq 1) p [(0xA40 + k, v)]).1 p seq (0xA40 + k) 1
        (writeRegs (frameOpen s p seq 1) p [(0xA40 + k, v)]).2)) := by
  have haddr : (BitVec.ofNat 16 (0xA40 + k)).toNat = 0xA40 + k := Nat.mod_eq_of_lt (by omega)
  have hopen : Listens (frameOpen s p seq 1) p := (PortOnly.frameOpen p s seq 1).listens hl
  show instant (whenCore fun s => writeFrame s p seq (BitVec.ofNat 16 (0xA40 + k)).toNat [v]) s = _
  rw [instant_eq, whenCore_up s _ hl.up, haddr]
  simp [writeFrame, hopen.notInReset]

end Sys2Proof.Machine
end

section
/-! PROOFS. The end of an instant in which a retained word has been written: but for the rounds of the interrupt controllers, it
makes of the core what it would have made without the write (03 R77, 15 R425). -/

namespace Sys2Proof.Machine

variable {s t : State} {p : Part} {k : Nat}

/-- The word at every other address is used as it was. -/
theorem used_retHeld {a : Nat} (h : a ≠ 0xA40 + k) (v : Word) : used (retHeld s k v) a = used s a := by
  have helem : (s.core.parity.filter fun b => !(b == 0xA40 + k)).elem a = s.core.parity.elem a := by
    simp [h]
  show (if (s.core.parity.filter fun b => !(b == 0xA40 + k)).elem a then _ else _) = _
  rw [helem]
  rfl

/-- GNG_CFG.EN is no retained word. -/
theorem gngEn_retHeld (s : State) (v : Word) (hk : k < 32) : gngEn (retHeld s k v) = gngEn s :=
  congrArg (bit · 0) (used_retHeld (by omega) v)

/-- MEMBERS is no retained word. -/
theorem gangIds_retHeld (s : State) (v : Word) (hk : k < 32) : gangIds (retHeld s k v) = gangIds s := by
  have hcfg : used (retHeld s k v) 0x2400 = used s 0x2400 := used_retHeld (by omega) v
  simp only [gangIds, gngMembers, uf, hcfg]

/-- No member's status reads a retained word. -/
theorem memStatus_retHeld (s : State) (v : Word) (hk : k < 32) : memStatus (retHeld s k v) = memStatus s := by
  funext m
  simp only [memStatus, gngEn_retHeld s v hk]
  rfl

/-- The effective vote reads no retained word (15 R420). -/
theorem effVote_retHeld (s : State) (v : Word) (hk : k < 32) : effVote (retHeld s k v) = effVote s := by
  have hvote : ownVote (retHeld s k v) = ownVote s := congrArg (fld · 0 3) (used_retHeld (by omega) v)
  have hgng : (retHeld s k v).core.gng = s.core.gng := rfl
  have hself : selfId (retHeld s k v) = selfId s := rfl
  have hforced : voteForced (retHeld s k v) = voteForced s := by
    simp only [voteForced, gangForming, anyLost, digestDiffers, hvote, hgng, hself, gngEn_retHeld s v hk,
      gangIds_retHeld s v hk, memStatus_retHeld s v hk]
  rw [effVote, effVote, hforced, hvote]

/-- Without a capo trigger, the gang link owes what it owed. -/
theorem gngAfter_retHeld (htrig : s.core.capo.trig = 0) (v : Word) (hk : k < 32) : gngAfter (retHeld s k v) = gngAfter s := by
  have hno : capoTakes s = false := by simp [capoTakes, htrig]
  have hno' : capoTakes (retHeld s k v) = false := hno
  simp only [gngAfter, gangSettle, hno, hno', Bool.false_and, effVote_retHeld s v hk, gngEn_retHeld s v hk]
  rfl

/-- What is the same from s to t and from t to u is the same from s to u. -/
theorem Piece.same_trans {s t u : State} {c : Piece} (h : c.same s t) (h' : c.same t u) : c.same s u := by
  cases c
  case pwr =>
    show { u.core.pwr with doze := s.core.pwr.doze, devrst := s.core.pwr.devrst } = s.core.pwr
    have h1 : { t.core.pwr with doze := s.core.pwr.doze, devrst := s.core.pwr.devrst } = s.core.pwr := h
    have h2 : { u.core.pwr with doze := t.core.pwr.doze, devrst := t.core.pwr.devrst } = t.core.pwr := h'
    rw [← h2] at h1
    exact h1
  all_goals exact Eq.trans h' h

/-- Frame conditions one after the other. -/
theorem Keeps.trans {b c : List Piece} {s t u : State} (h : Keeps b s t) (h' : Keeps c t u) : Keeps (b ++ c) s u := fun d => by
  rcases h d, h' d with ⟨hb | hst, hc | htu⟩
  · exact .inl (by simp [hb])
  · exact .inl (by simp [hb])
  · exact .inl (by simp [hc])
  · exact .inr (Piece.same_trans hst htu)

/-- The end of an instant makes the same of a state with v held in PWR_RETk, but for that word, its parity and the rounds
of the interrupt controllers. -/
theorem keeps_settle_retHeld (htrig : s.core.capo.trig = 0) (v : Word) (hk : k < 32) :
    Keeps [.aon, .parity, .irqRound] (settle s) (settle (retHeld s k v)) := fun c => by
  have htrig' : (retHeld s k v).core.capo.trig = 0 := htrig
  cases c
  case aon | parity | irqRound => exact .inl (by decide)
  case capo =>
    have hc : capoAfter s = s.core.capo := if_pos htrig
    have hc' : capoAfter (retHeld s k v) = s.core.capo := if_pos htrig
    exact .inr (hc'.trans hc.symm)
  case gng => exact .inr (gngAfter_retHeld htrig v hk)
  case irqPend =>
    exact .inr ((map_irq_settle _ htrig' _ (pend_irqNext _)).trans (map_irq_settle s htrig _ (pend_irqNext s)).symm)
  case irqSet =>
    exact .inr ((map_irq_settle _ htrig' _ fun _ _ => rfl).trans (map_irq_settle s htrig _ fun _ _ => rfl).symm)
  all_goals exact .inr rfl

/-- The end of the write of a retained word keeps everything but the always-on domain, the word's parity and the port. -/
theorem PortOnly.keepsPort_settle_retHeld (hs : Settled s) (h : PortOnly p s t) (v : Word) (hk : k < 32) :
    KeepsPort p [.aon, .parity] s (settle (retHeld t k v)) := by
  obtain ⟨hkeeps, hports⟩ := h.keepsPort_settle hs
  exact ⟨(hkeeps.trans (keeps_settle_retHeld (h.portAndErr.noTrigger hs) v hk)).mono (by simp), hports⟩

end Sys2Proof.Machine
end

section
/-! PROOFS. Chapter 05: the retained words belong to P0 (05 R157). -/

namespace Sys2Proof.Machine

variable {s : State} {p : Part} {k : Nat}

/-- A write frame that ends OK, the words it writes aside, changes its port alone. -/
theorem portOnly_frameClose_frameOpen (hl : Listens s p) (seq : Byte) (a n : Nat) :
    PortOnly p s (frameClose (frameOpen s p seq n) p seq a n 0) :=
  (PortOnly.frameOpen p s seq n).frameClose_ok ((PortOnly.frameOpen p s seq n).listens hl) seq a n

/-- The state after P0's write of PWR_RETk. -/
def afterRet (s : State) (seq : Byte) (k : Nat) (v : Word) : State :=
  settle (retHeld (frameClose (frameOpen s 0 seq 1) 0 seq (0xA40 + k) 1 0) k v)

/-- P0's write of PWR_RETk, on a port that listens: the frame of one word, and the word held. -/
theorem exec_ret_steward (hl : Listens s 0) (seq : Byte) (v : Word) (hk : k < 32) :
    exec (.registerWrite 0 seq (BitVec.ofNat 16 (0xA40 + k)) v) s = .next (afterRet s seq k v) := by
  have hopen : Listens (frameOpen s 0 seq 1) 0 := (PortOnly.frameOpen 0 s seq 1).listens hl
  have hheld : Listens (retHeld (frameOpen s 0 seq 1) k v) 0 := hopen
  rw [exec_ret hl seq v hk, writeRegs_ret _ v hk, afterRet, frameClose, frameClose, frameEnd_ok hopen, frameEnd_ok hheld]
  rfl

/-- The port of the write reports OK (02 R59). -/
theorem lastStatus_afterRet (hl : Listens s 0) (seq : Byte) (v : Word) : (portOf (afterRet s seq k v) 0).lastStatus = 0x00 := by
  have hopen : Listens (frameOpen s 0 seq 1) 0 := (PortOnly.frameOpen 0 s seq 1).listens hl
  have hstatus := lastStatus_frameClose hopen seq (0xA40 + k) 1 0
  rw [lastStatus_settle] at hstatus
  rw [afterRet, lastStatus_settle]
  exact hstatus

/-- The always-on domain after the write: the word is held, and all else is as it was. -/
theorem aon_afterRet (hl : Listens s 0) (seq : Byte) (v : Word) :
    (afterRet s seq k v).aon = { s.aon with regs := sset regReset s.aon.regs (0xA40 + k) v } := by
  have haon := (portOnly_frameClose_frameOpen hl seq (0xA40 + k) 1).portAndErr.same fun x => x.aon
  exact congrArg (fun a : Aon => { a with regs := sset regReset a.regs (0xA40 + k) v }) haon

/-- PWR_RETk holds what P0 wrote (05 R157). -/
theorem ard_afterRet_same (hl : Listens s 0) (seq : Byte) (v : Word) (hswf : swf regReset s.aon.regs = true) :
    ard (afterRet s seq k v) (0xA40 + k) = v := by
  rw [ard, aon_afterRet hl]
  exact ard_setA_same s (0xA40 + k) v hswf

/-- Every other always-on word is as it was. -/
theorem ard_afterRet_ne (hl : Listens s 0) (seq : Byte) (v : Word) {a : Nat} (h : a ≠ 0xA40 + k) :
    ard (afterRet s seq k v) a = ard s a := by
  rw [ard, aon_afterRet hl]
  exact ard_setA_ne s (0xA40 + k) a v h

/-- The written word passes its parity, and no other word's parity changes (01 R40). -/
theorem parity_afterRet (hl : Listens s 0) (seq : Byte) (v : Word) :
    (afterRet s seq k v).core.parity = s.core.parity.filter fun a => a != 0xA40 + k := by
  have hparity := (portOnly_frameClose_frameOpen hl seq (0xA40 + k) 1).portAndErr.same fun x => x.core.parity
  exact congrArg (List.filter fun a => a != 0xA40 + k) hparity

/-- The write keeps everything but the always-on domain, the word's parity and the port (05 R157). -/
theorem keepsPort_afterRet (hs : Settled s) (hl : Listens s 0) (seq : Byte) (v : Word) (hk : k < 32) :
    KeepsPort 0 [.aon, .parity] s (afterRet s seq k v) :=
  (portOnly_frameClose_frameOpen hl seq (0xA40 + k) 1).keepsPort_settle_retHeld hs v hk

/-- Another partition's write of PWR_RETk is DENIED, and changes nothing but its port (05 R157, 04 R102, R105). -/
theorem exec_ret_other (hs : Settled s) (hl : Listens s p) (hp : p ≠ 0) (seq : Byte) (v : Word) (hk : k < 32) :
    ∃ t, exec (.registerWrite p seq (BitVec.ofNat 16 (0xA40 + k)) v) s = .next t ∧
      (portOf t p).lastStatus = 0x20 ∧ OnlyPort p s t := by
  have hopen := PortOnly.frameOpen p s seq 1
  refine ⟨settle (frameClose (frameOpen s p seq 1) p seq (0xA40 + k) 1 0x20), ?_, lastStatus_frameClose (hopen.listens hl) ..,
    (hopen.frameEnd hs.noDeviceReset ..).onlyPort_settle hs⟩
  rw [exec_ret hl seq v hk, writeRegs_ret_denied _ v hk hp]

/-- Settles O16: P0's write holds the word, whose halves are two retained words, and another partition's write is refused. -/
theorem retainedWordIsWritten : Obligations.RetainedWordIsWritten := by
  unfold Obligations.RetainedWordIsWritten
  intro s p seq k v hl hs hswf
  extract_lets retained
  rcases eq_or_ne p 0 with rfl | hp
  · have hsame := ard_afterRet_same (k := k) hl seq v hswf
    have hother := fun a (h : a ≠ 0xA40 + k.val) => ard_afterRet_ne hl seq v h
    refine ⟨afterRet s seq k v, exec_ret_steward hl seq v k.isLt, fun _ => ⟨hsame, hother, ?low, ?high, fun j hj => ?others,
      ?read, parity_afterRet hl seq v, ?aon, lastStatus_afterRet hl seq v, keepsPort_afterRet hs hl seq v k.isLt⟩,
      fun h => absurd rfl h⟩
    case low =>
      have hdiv : 2 * k.val / 2 = k.val := by omega
      simp [retained, hdiv, hsame]
    case high =>
      have hdiv : (2 * k.val + 1) / 2 = k.val := by omega
      simp [retained, hdiv, hsame]
    case others => simp only [retained, hother (0xA40 + j.val / 2) (by omega)]
    case read => rw [readWord_ret _ _ k.isLt, hsame]
    case aon => rw [aon_afterRet hl]
  · obtain ⟨t, ht, hstatus, hkeeps⟩ := exec_ret_other hs hl hp seq v k.isLt
    exact ⟨t, ht, fun h => absurd h hp, fun _ => ⟨hstatus, hkeeps⟩⟩

end Sys2Proof.Machine
end

section
/-! PROOFS. Chapter 06: a rail in ON does not stay there once its target is OFF (06 Table 6-3). -/

namespace Sys2Proof.Machine

/-- A sequencer step where the core runs. -/
theorem exec_sequencerStep {s : State} (hup : coreUp s = true) (spg : BitVec 10) (smon : List Nat) :
    exec (.sequencerStep spg smon) s = .next (settle (seqStepOp s spg smon)) := by
  show instant (whenCore fun s => seqStepOp s spg smon) s = _
  rw [instant_eq, whenCore_up s _ hup]

/-- Rail 3 on its strap default but for PG_SRC 1, in RISING in the last step of its PG_TIMEOUT, and an OFF request for it
waits (06 R168, R185). -/
def timeoutMeetsOff : State :=
  modC (setR State.reset 0xC1A 0x000A0A01) fun c => { c with seq := { c.seq with
    first := false
    reqs := [(0, 0x008)]
    rails := upd c.seq.rails 3 fun _ => { st := .rising, target := true, age := 999 } } }

/-- After the step of the time-out, whose reaction is IGNORE, and of the OFF request: rail 3 has gone to ON, and its target is
OFF. -/
def onWithTargetOff : State := settle (seqStepOp timeoutMeetsOff 0 [])

/-- The state meets what the statement asks of the sequencer: nothing waits for the step. -/
theorem onWithTargetOff_quiet :
    coreUp onWithTargetOff = true ∧ Settled onWithTargetOff ∧ courseDue onWithTargetOff 4 = false ∧
    onWithTargetOff.core.parity = [] ∧ onWithTargetOff.core.seq.acts = [] ∧ onWithTargetOff.core.seq.reqs = [] ∧
    onWithTargetOff.core.seq.resetting = false ∧ onWithTargetOff.core.seq.first = false ∧
    onWithTargetOff.core.seq.rails.length = 10 ∧ bit (rd onWithTargetOff 0x2400) 0 = false ∧
    onWithTargetOff.core.gng.state ≠ 4 ∧ onWithTargetOff.core.seq.rpgIn = 0 := by
  unfold Settled IrqSettled
  decide +kernel

/-- No rail raises a fault: the episode of rail 3's time-out has not ended (06 R174). -/
theorem onWithTargetOff_noFault (k : Fin 10) :
    railFaultOf onWithTargetOff k.val (nth onWithTargetOff.core.seq.rails k.val {}) false false = [] := by
  revert k
  decide +kernel

/-- Rail 3 is in ON with its target OFF, and no ON is latched. -/
theorem onWithTargetOff_rail :
    let x := nth onWithTargetOff.core.seq.rails 3 {}
    x.st = .on ∧ x.target = false ∧ x.latched = false := by decide +kernel

/-- The next step takes rail 3 from ON to DRAIN (06 Table 6-3). -/
theorem onWithTargetOff_drains :
    (nth (settle (seqStepOp onWithTargetOff 0 [])).core.seq.rails 3 {}).st = .drain := by decide +kernel

/-- Refutes O36: its clause that a rail in ON stays in ON leaves out the target. With the target OFF the rail goes to DRAIN
(06 Table 6-3), and the step of an OFF request that meets an ignored power-up fault leaves a rail so. -/
theorem not_sequencerStepMovesEachRail : ¬ Obligations.SequencerStepMovesEachRail := by
  unfold Obligations.SequencerStepMovesEachRail
  rintro ⟨⟨-, hmoves⟩, -⟩
  obtain ⟨hup, hset, hdue, hpar, hacts, hreqs, hres, hfirst, hlen, hlink, hsafe, hrpg⟩ := onWithTargetOff_quiet
  obtain ⟨hon, -, hlatched⟩ := onWithTargetOff_rail
  obtain ⟨t, ht, -, hrail⟩ :=
    hmoves onWithTargetOff 0 [] 3 hup hset hdue hpar hacts hreqs hres hfirst hlen hlink hsafe hrpg onWithTargetOff_noFault
  obtain ⟨-, -, -, -, -, -, hstays, -⟩ := hrail hlatched
  have hnext : settle (seqStepOp onWithTargetOff 0 []) = t :=
    Host.Outcome.next.inj ((exec_sequencerStep hup 0 []).symm.trans ht)
  have hkept := hstays hon
  rw [← hnext] at hkept
  exact absurd (onWithTargetOff_drains.symm.trans hkept) (by decide)

end Sys2Proof.Machine
end

section
/-! PROOFS. The write frame of FINISH to a check unit that is not OPEN (14 R399, R403, R405): its one word is MASKED, and where
it is listed as failed, its storage judges BLKSTAT.PARITY of the unit again (cvuRepaired). -/

namespace Sys2Proof.Machine

variable {s : State} {p : Part} {u : Fin 4}

/-- CVUu_CTL has write-only fields of the unit's owner (14 Table 14-3). -/
theorem regAt_cvuCtl (u : Fin 4) :
    regAt (cvuA u.val 0) = some { fs := [fWo (bitsM [(0, 6), (8, 3)]) (.owner (.cvu u.val)) (some (.cvu u.val))] } := by
  revert u
  decide

/-- The owner of a unit may write its CTL word (04 R105). -/
theorem wordDenied_cvuCtl (hp : p.val = ownerN s (.cvu u.val)) (v : Word) : wordDenied s p.val (cvuA u.val 0) v = false := by
  have hspecial : specialDenied s p.val (cvuA u.val 0) v = false := by
    simp (disch := (unfold cvuA; omega)) only [specialDenied, if_neg]
  simp [wordDenied, regAt_cvuCtl, hspecial, fWo, writerOf, ← hp]

/-- The CTL word stores nothing and masks nothing; where it is listed as failed, BLKSTAT.PARITY is judged again. -/
theorem writeStore_cvuCtl (s : State) (p : Part) (u : Fin 4) (v : Word) :
    writeStore s s p.val (cvuA u.val 0) v = (cvuRepaired s (cvuA u.val 0), false) := by
  have hstaged : isStaged (cvuA u.val 0) = false := decide_eq_false (by unfold cvuA; omega)
  have hmod : cvuA u.val 0 % 0x200 < 0x100 := by unfold cvuA; omega
  have hquota : ¬(0x230 ≤ cvuA u.val 0 ∧ cvuA u.val 0 < 0x234) := by unfold cvuA; omega
  have hword : cvuA u.val 0 % 16 = 0 := by unfold cvuA; omega
  simp [writeStore, regAt_cvuCtl, hstaged, hmod, hquota, hword, writePrimary, cvuHeld, accMask, fWo, fsMask, storeRw, clearBits]

/-- The CTL word does nothing among the words that act one by one: a frame's commands act on their unit together. -/
theorem writeAct_cvuCtl (o s : State) (p : Part) (u : Fin 4) (v : Word) : writeAct o s p (cvuA u.val 0) v = (s, false) := by
  simp (disch := (unfold cvuA; omega)) only [writeAct, if_neg]

/-- A FINISH that finds its unit not OPEN is MASKED and changes nothing (14 R403). -/
theorem cvuCtlOp_finish_closed {n : Nat} (hst : (cvuOf s n).st ≠ 1) : cvuCtlOp s n 2 [] = (s, true) := by
  have hbits : bit 2#32 1 = true ∧ ∀ i ∈ [0, 2, 3, 4, 5], bit 2#32 i = false := by decide
  obtain ⟨hfinish, hothers⟩ := hbits
  simp [cvuCtlOp, hfinish, hothers, hst]

/-- The frame of a unit's CTL word brings that unit its command, and the other units none. -/
theorem writeCvu_ctl (s : State) (u w : Fin 4) (v : Word) :
    writeCvu s [(cvuA u.val 0, v)] w.val = if w = u then cvuCtlOp s u.val v [] else (s, false) := by
  have haddr : ∀ k < 3, (cvuA u.val 0 == cvuA w.val k) = decide (w = u ∧ k = 0) := fun k hk => by
    rw [beq_eq_decide, decide_eq_decide, Fin.ext_iff]
    unfold cvuA
    omega
  rcases eq_or_ne w u with rfl | hne
  · simp [writeCvu, haddr]
  · simp [writeCvu, haddr, hne]

/-- The commands of a frame that writes one unit's CTL word alone. -/
theorem foldl_writeCvu_ctl (s : State) (u : Fin 4) (v : Word) :
    (upto 4).foldl (fun z n => ((writeCvu z.1 [(cvuA u.val 0, v)] n).1, z.2 || (writeCvu z.1 [(cvuA u.val 0, v)] n).2)) (s, false) =
      cvuCtlOp s u.val v [] := by
  have h0 := fun x => writeCvu_ctl x u 0 v
  have h1 := fun x => writeCvu_ctl x u 1 v
  have h2 := fun x => writeCvu_ctl x u 2 v
  have h3 := fun x => writeCvu_ctl x u 3 v
  match u with
  | 0 | 1 | 2 | 3 => simp_all [upto, List.range_succ]

/-- BLKSTAT.PARITY judged again leaves a unit in its state. -/
theorem cvuRepaired_st (s : State) (a n : Nat) : (cvuOf (cvuRepaired s a) n).st = (cvuOf s n).st := by
  have hmap : (cvuRepaired s a).core.cvu.map CvuUnit.st = s.core.cvu.map CvuUnit.st := by
    unfold cvuRepaired
    split
    · exact map_upd_eq _ _ _ _ fun _ => rfl
    · rfl
  rw [cvuOf, cvuOf, proj_nth_eq_nth_map CvuUnit.st, hmap, ← proj_nth_eq_nth_map CvuUnit.st]

/-- BLKSTAT.PARITY judged again leaves the sequencer. -/
theorem cvuRepaired_core_seq (s : State) (a : Nat) : (cvuRepaired s a).core.seq = s.core.seq := by
  unfold cvuRepaired
  split <;> rfl

/-- Nothing is judged again where the word has not failed. -/
theorem cvuRepaired_of_sound {a : Nat} (h : badW s a = false) : cvuRepaired s a = s := by
  simp [cvuRepaired, h]

/-- The owner's frame of a unit's CTL word alone has BLKSTAT.PARITY judged again, and brings the unit its command. -/
theorem writeRegs_cvuCtl {v : Word} (hp : p.val = ownerN s (.cvu u.val)) {x : State × Bool}
    (hx : cvuCtlOp (cvuRepaired s (cvuA u.val 0)) u.val v [] = x) (hseq : x.1.core.seq = s.core.seq) :
    writeRegs s p [(cvuA u.val 0, v)] = (x.1, if x.2 then 0x01 else 0x00) := by
  have hquota : ∀ t, writeQuotas t [(cvuA u.val 0, v)] = (t, false) := fun t => by
    have hnone : ¬(0x230 ≤ cvuA u.val 0 ∧ cvuA u.val 0 < 0x234) := by unfold cvuA; omega
    simp [writeQuotas, hnone]
  have hnfc : touchesNfc [(cvuA u.val 0, v)] = false := by
    simp [touchesNfc, cvuA]
    omega
  have hmerge : railMerge s.core.seq.reqs.length x.1 = x.1 := railMerge_of_none_added (by rw [hseq])
  have happly : applyWrites s p [(cvuA u.val 0, v)] = x := by
    simp [applyWrites, eachWord, writeStore_cvuCtl, hquota, writeAct_cvuCtl, foldl_writeCvu_ctl, hx, hmerge, hnfc]
  simp [writeRegs, wordDenied_cvuCtl hp, happly]

/-- The owner's frame of FINISH alone, to a unit that is not OPEN. -/
theorem writeRegs_cvuFinish_closed (hp : p.val = ownerN s (.cvu u.val)) (hst : (cvuOf s u.val).st ≠ 1) :
    writeRegs s p [(cvuA u.val 0, 2)] = (cvuRepaired s (cvuA u.val 0), 0x01) :=
  writeRegs_cvuCtl hp (cvuCtlOp_finish_closed (by rwa [cvuRepaired_st])) (cvuRepaired_core_seq s _)

/-- CVU_FINISH of the owner, on a port that listens, to a unit that is not OPEN: MASKED, after BLKSTAT.PARITY is judged again. -/
theorem exec_cvuFinish_closed (hl : Listens s p) (hp : p.val = ownerN s (.cvu u.val)) (hst : (cvuOf s u.val).st ≠ 1)
    (seq : Byte) :
    exec (.cvuFinish p seq u) s =
      .next (framed s p seq (cvuA u.val 0) 1 0x01 fun t => cvuRepaired t (cvuA u.val 0)) := by
  have hport := PortOnly.frameOpen p s seq 1
  have hopen : Listens (frameOpen s p seq 1) p := hport.listens hl
  have howner : p.val = ownerN (frameOpen s p seq 1) (.cvu u.val) :=
    hp.trans (hport.portAndErr.same fun x => ownerN x (.cvu u.val)).symm
  have hclosed : (cvuOf (frameOpen s p seq 1) u.val).st ≠ 1 := by
    rwa [hport.portAndErr.same fun x => (cvuOf x u.val).st]
  have hwrite : writeFrame s p seq (cvuA u.val 0) [2] =
      frameClose (cvuRepaired (frameOpen s p seq 1) (cvuA u.val 0)) p seq (cvuA u.val 0) 1 0x01 := by
    have hregs := writeRegs_cvuFinish_closed howner hclosed
    generalize (2 : Word) = v at hregs ⊢
    simp [writeFrame, hopen.notInReset, hregs]
  show instant (whenCore fun s => writeFrame s p seq (cvuA u.val 0) [2]) s = _
  rw [instant_eq, whenCore_up s _ hl.up, hwrite]
  rfl

/-- Where the CTL word has not failed parity, the MASKED FINISH changes nothing but its port: the clause of O58 that fails
holds with this premise. -/
theorem exec_cvuFinish_masked (hl : Listens s p) (hp : p.val = ownerN s (.cvu u.val)) (hst : (cvuOf s u.val).st ≠ 1)
    (hsound : badW s (cvuA u.val 0) = false) (seq : Byte) :
    exec (.cvuFinish p seq u) s = .next (framed s p seq (cvuA u.val 0) 1 0x01 id) := by
  have hsound' : badW (frameOpen s p seq 1) (cvuA u.val 0) = false :=
    ((PortOnly.frameOpen p s seq 1).portAndErr.same fun x => badW x (cvuA u.val 0)).trans hsound
  rw [exec_cvuFinish_closed hl hp hst, framed, cvuRepaired_of_sound hsound']
  rfl

end Sys2Proof.Machine
end

section
/-! PROOFS. Chapter 14: a FINISH that is MASKED may clear BLKSTAT.PARITY where the CTL word has failed parity (14 R403, R405). -/

namespace Sys2Proof.Machine

/-- CTL holds no configuration (14 Table 14-3), so REGISTER_PARITY_FAULT never lists it as failed (01 R40). -/
theorem configWord_cvuCtl (u : Fin 4) : configWord (cvuA u.val 0) = false := by
  revert u
  decide

/-- Unit 0 in IDLE with BLKSTAT.PARITY set, and its CTL word the only word that has failed parity. No parity
fault leads to this state (configWord_cvuCtl), but the premises of O58 do not exclude it. -/
def ctlFailedAlone : State :=
  modC (modU State.reset 0 fun q => { q with parity := true }) fun c => { c with parity := [cvuA 0 0] }

/-- The state meets what the statement asks: P0 owns the unit, which is not OPEN, and P0's frames are judged. -/
theorem ctlFailedAlone_meets :
    (coreUp ctlFailedAlone = true ∧ ctlFailedAlone.core.irq.length = 4 ∧ ctlFailedAlone.core.cvu.length = 4) ∧
    ownerN ctlFailedAlone (.cvu (0 : Fin 4).val) = 0 ∧ Listens ctlFailedAlone 0 ∧
    (cvuOf ctlFailedAlone (0 : Fin 4).val).st ≠ 1 := by
  unfold Listens
  decide +kernel

/-- A MASKED frame that changes nothing but its port leaves BLKSTAT.PARITY set; the frame of FINISH clears it, no configuration
word of the unit having failed (14 R405). -/
theorem parity_ctlFailedAlone (seq : Byte) :
    (cvuOf (framed ctlFailedAlone 0 seq (cvuA 0 0) 1 0x01 id) 0).parity = true ∧
      (cvuOf (framed ctlFailedAlone 0 seq (cvuA 0 0) 1 0x01 fun t => cvuRepaired t (cvuA 0 0)) 0).parity = false := by
  constructor <;> rfl

/-- Refutes O58: its clause that FINISH out of OPEN changes nothing but the port leaves out a CTL word that has failed parity. The
frame that writes that word has BLKSTAT.PARITY judged again: set before, it is clear after the MASKED frame. With the premise
badW s (cvuA u 0) = false the clause holds (exec_cvuFinish_masked). -/
theorem not_checkUnitsFinishAndRun : ¬ Obligations.CheckUnitsFinishAndRun := by
  unfold Obligations.CheckUnitsFinishAndRun
  intro h
  obtain ⟨⟨hup, hirq, hcvu⟩, howner, hlisten, hclosed⟩ := ctlFailedAlone_meets
  obtain ⟨hfinish, -⟩ := h ctlFailedAlone 0 hup hirq hcvu (by rw [howner]; decide)
  obtain ⟨hmasked, -⟩ := hfinish 0 0 hlisten howner.symm
  have hsame := Host.Outcome.next.inj ((exec_cvuFinish_closed hlisten howner.symm hclosed 0).symm.trans (hmasked hclosed))
  obtain ⟨hkept, hcleared⟩ := parity_ctlFailedAlone 0
  have hparity := congrArg (fun t => (cvuOf t 0).parity) hsame
  exact absurd (hcleared.symm.trans (hparity.trans hkept)) (by decide)

end Sys2Proof.Machine
end

section
/-! PROOFS. Chapter 03: what holds at the end of every instant (03 R77, 04 R118, R119, 05 R135, R152, 15 Table 15-3). -/

set_option Elab.async false

namespace Sys2Proof.Machine

/-- Settles O1, by the two equations of a step. -/
theorem stepRunsTheFrontCommand : Obligations.StepRunsTheFrontCommand := by
  unfold Obligations.StepRunsTheFrontCommand
  exact ⟨step_command, step_idle⟩

/-- A controller that has followed its sources: those active are noted, and without one no round is open (04 R118, R119). -/
theorem irqSettled_irqAfter (t : Nat) (q : IrqSt) : IrqSettled (irqAfter t q) := by
  unfold irqAfter
  dsimp only
  split
  next hact => exact ⟨rfl, hact.symm, rfl, fun _ => ⟨rfl, rfl, rfl, rfl⟩⟩
  next hact => exact ⟨rfl, rfl, rfl, fun h => absurd h hact⟩

/-- The end of an instant leaves no word failing or passing its parity, so the words as they are used stay (01 R40). -/
theorem irqUsed_irqNext (s : State) (p : Nat) (q : IrqSt) :
    irqUsed (settle s) p (irqNext s p q) = irqAfter (now s) (irqUsed s p q) := by
  have hwords : irqUsed (settle s) p (irqNext s p q) =
      { irqNext s p q with en := (irqUsed s p q).en, imm := (irqUsed s p q).imm, count := (irqUsed s p q).count, time := (irqUsed s p q).time } := rfl
  rw [hwords]
  unfold irqNext irqAfter
  dsimp only
  split <;> rfl

/-- The controllers at the end of an instant, each with its partition. -/
theorem zipIdx_settle_irq (s : State) :
    (settle s).core.irq.zipIdx = (irqWithCapo s).zipIdx.map fun e => (irqNext s e.2 e.1, e.2) := by
  refine List.ext_getElem? fun i => ?_
  simp [settle, Option.map_map, Function.comp_def]

/-- No trigger waits at the end of an instant (03 R94, R98). -/
theorem trig_capoAfter (s : State) : (capoAfter s).trig = 0 := by
  unfold capoAfter
  dsimp only
  split
  next h => exact h
  next => split <;> rfl

/-- The end of every instant is settled. -/
theorem settled_settle (s : State) : Settled (settle s) := by
  refine ⟨trig_capoAfter s, fun e he => ?_, fun hdoze => ?_, rfl, rfl, rfl⟩
  · rw [zipIdx_settle_irq] at he
    obtain ⟨q, -, rfl⟩ := List.mem_map.mp he
    rw [irqUsed_irqNext]
    exact irqSettled_irqAfter _ _
  · have hidle : (s.core.pwr.doze && !workPresent s) = true := hdoze
    simp only [Bool.and_eq_true, Bool.not_eq_true'] at hidle
    exact hidle.2

/-- A step answers the end of an instant, whatever waits in the queue. -/
theorem step_settles (s : State) : ∃ u, step s = .next (settle u) := by
  cases hq : s.pending with
  | nil => exact ⟨_, step_idle s hq⟩
  | cons c rest =>
    obtain ⟨u, hu⟩ := exec_settles { s with pending := rest } c
    exact ⟨u, (step_command s c rest hq).trans hu⟩

/-- Settles O4: a step answers the end of an instant, which is settled. -/
theorem everyStepEndsSettled : Obligations.EveryStepEndsSettled := by
  unfold Obligations.EveryStepEndsSettled
  intro s
  obtain ⟨u, hu⟩ := step_settles s
  exact ⟨settle u, hu, settled_settle u⟩

end Sys2Proof.Machine
end

section
/-! PROOFS. The state after reset (notes/assumptions/1.md): its reset values, and what every instant keeps. -/

set_option Elab.async false

namespace Sys2Proof.Machine

theorem settled_reset : Settled State.reset := by unfold Settled IrqSettled; decide +kernel
theorem bounded_reset : Bounded State.reset := by unfold Bounded; decide +kernel
theorem counted_reset : Counted State.reset := by unfold Counted; decide +kernel
theorem canonical_reset : Canonical State.reset := by unfold Canonical; decide +kernel

/-- Settles O2: the state is closed, so the kernel reads each of its words. -/
theorem resetStateHoldsTheResetValues : Obligations.ResetStateHoldsTheResetValues := by
  unfold Obligations.ResetStateHoldsTheResetValues
  refine ⟨rfl, rfl, settled_reset, bounded_reset, counted_reset, canonical_reset, ?_⟩
  decide +kernel

end Sys2Proof.Machine
end

section
/-! SUPPORT. Where a change of the state goes: the parts that it may touch, and that it keeps the number of like parts, the form
of every store, and the bounds of the queues. One rule for each part of the state. -/

set_option Elab.async false

namespace Sys2Proof.Machine

/-- An element of a mapped list. -/
theorem nth_map {α β : Type} (g : α → β) (l : List α) {i : Nat} (hi : i < l.length) (a : α) (b : β) :
    nth (l.map g) i b = g (nth l i a) := by
  simp [nth, List.getD, hi]

/-- An element past the end. -/
theorem nth_of_le {α : Type} {l : List α} {i : Nat} (hi : l.length ≤ i) (d : α) : nth l i d = d := by
  simp [nth, List.getD, hi]

/-- Every source that is pending stays pending. -/
def PendRises (s t : State) : Prop :=
  ∀ p n : Nat, bit (nth s.core.irq p {}).pend n = true → bit (nth t.core.irq p {}).pend n = true

theorem PendRises.refl (s : State) : PendRises s s := fun _ _ h => h

theorem PendRises.trans {s t u : State} (h : PendRises s t) (g : PendRises t u) : PendRises s u := fun p n hb => g p n (h p n hb)

theorem PendRises.of_same {s t : State} (h : Piece.irqPend.same s t) : PendRises s t := fun p n hb => by
  have hpend : (nth t.core.irq p {}).pend = (nth s.core.irq p {}).pend := by
    rw [proj_nth_eq_nth_map IrqSt.pend, proj_nth_eq_nth_map IrqSt.pend]
    exact congrArg (fun l => nth l p _) h
  rw [hpend]
  exact hb

/-- A source that is set leaves the others. -/
theorem bit_pend_set {q : IrqSt} {n : Nat} (src : Nat) (h : bit q.pend n = true) : bit (q.set src).pend n = true := by
  have hlt : n < 64 := by
    by_contra hn
    simp only [bit] at h
    rw [Nat.testBit_lt_two_pow (Nat.lt_of_lt_of_le q.pend.isLt (Nat.pow_le_pow_right (by decide) (by omega)))] at h
    cases h
  by_cases hs : n = src
  · subst hs
    exact bit_setBit_same _ _ _ hlt
  · exact (bit_setBit_ne _ _ _ _ hs).trans h

/-- t comes from s by changes of the parts ps alone, which keep the shape of the state and the bounds of its queues, and, where
they leave the settings of the interrupt controllers, every pending source, and, where they leave DOZE, a waiting device reset. -/
structure Goes (ps : List Piece) (s t : State) : Prop where
  keeps : Keeps ps s t
  counted : Counted s → Counted t
  canonical : Canonical s → Canonical t
  bounded : Bounded s → Bounded t
  pend : .irqSet ∈ ps ∨ PendRises s t
  devrst : .doze ∈ ps ∨ t.core.pwr.devrst = s.core.pwr.devrst

theorem Piece.same_refl (s : State) (k : Piece) : k.same s s := by cases k <;> rfl

theorem Goes.refl (ps : List Piece) (s : State) : Goes ps s s := ⟨fun k => .inr (k.same_refl s), id, id, id, .inr (.refl s), .inr rfl⟩

theorem Goes.mono {ps qs : List Piece} {s t : State} (h : Goes ps s t) (hsub : ps ⊆ qs) : Goes qs s t :=
  { h with keeps := h.keeps.mono hsub, pend := h.pend.imp_left fun hk => hsub hk, devrst := h.devrst.imp_left fun hk => hsub hk }

theorem Goes.trans {ps : List Piece} {s t u : State} (h : Goes ps s t) (g : Goes ps t u) : Goes ps s u :=
  ⟨(h.keeps.trans g.keeps).mono (by simp), g.counted ∘ h.counted, g.canonical ∘ h.canonical, g.bounded ∘ h.bounded,
    h.pend.elim .inl fun hp => g.pend.imp_right hp.trans,
    h.devrst.elim .inl fun hd => g.devrst.imp_right fun gd => gd.trans hd⟩

/-- A write keeps a store in its form, as simp meets it among what a change keeps. -/
@[simp] theorem swf_imp_sset {α : Type} [DecidableEq α] (d : Nat → α) (m : List (Nat × α)) (k : Nat) (v : α) :
    (swf d m = true → swf d (sset d m k v) = true) ↔ True := iff_true_intro (swf_sset d m k v)

@[simp] theorem swf_imp_ssetRun {α : Type} [DecidableEq α] (d : Nat → α) (m : List (Nat × α)) (k : Nat) (vs : List α) :
    (swf d m = true → swf d (ssetRun d m k vs) = true) ↔ True := iff_true_intro (swf_ssetRun d vs m k)

@[simp] theorem swf_imp_sclear {α : Type} [DecidableEq α] (d : Nat → α) (m : List (Nat × α)) (lo hi : Nat) :
    (swf d m = true → swf d (sclear m lo hi) = true) ↔ True := iff_true_intro (swf_sclear d m lo hi)

/-- The length of a list under a condition. -/
@[simp] theorem length_ite_list {α : Type} {c : Prop} {_ : Decidable c} (a b : List α) :
    (if c then a else b).length = if c then a.length else b.length := apply_ite List.length c a b

section Rules

variable {ps : List Piece} {s₀ s : State}

/-- A further change of one part k. -/
theorem Goes.piece (h : Goes ps s₀ s) {k : Piece} (hk : k ∈ ps) {t : State} (hsame : ∀ j : Piece, j ≠ k → j.same s t)
    (hcnt : Counted s → Counted t) (hcan : Canonical s → Canonical t) (hbnd : Bounded s → Bounded t)
    (hpend : k = .irqPend → PendRises s t := by exact nofun)
    (hdev : t.core.pwr.devrst = s.core.pwr.devrst := by rfl) : Goes ps s₀ t :=
  h.trans ⟨fun j => if e : j = k then .inl (e ▸ hk) else .inr (hsame j e), hcnt, hcan, hbnd,
    .inr (if e : k = .irqPend then hpend e else .of_same (hsame _ (Ne.symm e))), .inr hdev⟩

/-- A change under a condition. -/
theorem Goes.ite {c : Prop} {_ : Decidable c} {a b : State} (ha : c → Goes ps s₀ a) (hb : ¬c → Goes ps s₀ b) :
    Goes ps s₀ (if c then a else b) := by
  split
  next hc => exact ha hc
  next hc => exact hb hc

theorem Goes.whenS (h : Goes ps s₀ s) {b : Bool} {f : State → State} (hf : ∀ x, Goes ps s₀ x → Goes ps s₀ (f x)) :
    Goes ps s₀ (whenS b s f) := Goes.ite (fun _ => hf s h) fun _ => h

/-- Changes made one after the other. -/
theorem Goes.foldl (h : Goes ps s₀ s) {α : Type} {l : List α} {f : State → α → State}
    (hf : ∀ x a, Goes ps s₀ x → Goes ps s₀ (f x a)) : Goes ps s₀ (l.foldl f s) :=
  List.foldlRecOn l f (motive := Goes ps s₀) h fun x hx a _ => hf x a hx

theorem Goes.core_parity (h : Goes ps s₀ s) (hk : .parity ∈ ps) {f : CoreSt → List Nat} :
    Goes ps s₀ (modC s fun c => { c with parity := f c }) := by
  refine h.piece hk (fun j hj => ?_) (fun hc => ?_) (fun hc => ?_) fun hc => ?_
  · cases j
    case parity => exact absurd rfl hj
    all_goals rfl
  · exact hc
  · exact hc
  · exact hc

theorem Goes.core_course (h : Goes ps s₀ s) (hk : .course ∈ ps) {f : CoreSt → CourseSt}
    (hlenrunning : (f s.core).running.length = s.core.course.running.length := by simp)
    (himage : swf regReset s.core.course.image = true → swf regReset (f s.core).image = true := by simp) :
    Goes ps s₀ (modC s fun c => { c with course := f c }) := by
  refine h.piece hk (fun j hj => ?_) (fun hc => ?_) (fun hc => ?_) fun hc => ?_
  · cases j
    case course => exact absurd rfl hj
    all_goals rfl
  · unfold Counted at hc ⊢
    simp only [modC] at hc ⊢
    grind
  · unfold Canonical at hc ⊢
    simp only [modC] at hc ⊢
    grind
  · exact hc

theorem Goes.core_capo (h : Goes ps s₀ s) (hk : .capo ∈ ps) {f : CoreSt → CapoSt} :
    Goes ps s₀ (modC s fun c => { c with capo := f c }) := by
  refine h.piece hk (fun j hj => ?_) (fun hc => ?_) (fun hc => ?_) fun hc => ?_
  · cases j
    case capo => exact absurd rfl hj
    all_goals rfl
  · exact hc
  · exact hc
  · exact hc

theorem Goes.core_dev (h : Goes ps s₀ s) (hk : .dev ∈ ps) {f : CoreSt → DevSt}
    (hlenlatches : (f s.core).latches.length = s.core.dev.latches.length := by simp) :
    Goes ps s₀ (modC s fun c => { c with dev := f c }) := by
  refine h.piece hk (fun j hj => ?_) (fun hc => ?_) (fun hc => ?_) fun hc => ?_
  · cases j
    case dev => exact absurd rfl hj
    all_goals rfl
  · unfold Counted at hc ⊢
    simp only [modC] at hc ⊢
    grind
  · exact hc
  · exact hc

theorem Goes.core_ports (h : Goes ps s₀ s) (hk : .ports ∈ ps) {f : CoreSt → List PortSt}
    (hlen : (f s.core).length = s.core.ports.length := by simp) :
    Goes ps s₀ (modC s fun c => { c with ports := f c }) := by
  refine h.piece hk (fun j hj => ?_) (fun hc => ?_) (fun hc => ?_) fun hc => ?_
  · cases j
    case ports => exact absurd rfl hj
    all_goals rfl
  · unfold Counted at hc ⊢
    simp only [modC] at hc ⊢
    grind
  · exact hc
  · exact hc

theorem Goes.core_part (h : Goes ps s₀ s) (hk : .part ∈ ps) {f : CoreSt → PartSt}
    (hlenwdog : (f s.core).wdog.length = s.core.part.wdog.length := by simp)
    (hlenrstCount : (f s.core).rstCount.length = s.core.part.rstCount.length := by simp)
    (hlenrstCause : (f s.core).rstCause.length = s.core.part.rstCause.length := by simp)
    (hlenslotRefused : (f s.core).slotRefused.length = s.core.part.slotRefused.length := by simp) :
    Goes ps s₀ (modC s fun c => { c with part := f c }) := by
  refine h.piece hk (fun j hj => ?_) (fun hc => ?_) (fun hc => ?_) fun hc => ?_
  · cases j
    case part => exact absurd rfl hj
    all_goals rfl
  · unfold Counted at hc ⊢
    simp only [modC] at hc ⊢
    grind
  · exact hc
  · exact hc

theorem Goes.core_mbxs (h : Goes ps s₀ s) (hk : .mbxs ∈ ps) {f : CoreSt → List MbxSt}
    (hlen : (f s.core).length = s.core.mbxs.length := by simp)
    (hall : (∀ m ∈ s.core.mbxs, m.held ≤ 8) → ∀ m ∈ (f s.core), m.held ≤ 8 := by simp) :
    Goes ps s₀ (modC s fun c => { c with mbxs := f c }) := by
  refine h.piece hk (fun j hj => ?_) (fun hc => ?_) (fun hc => ?_) fun hc => ?_
  · cases j
    case mbxs => exact absurd rfl hj
    all_goals rfl
  · unfold Counted at hc ⊢
    simp only [modC] at hc ⊢
    grind
  · exact hc
  · exact ⟨hall hc.1, hc.2⟩

theorem Goes.core_buf (h : Goes ps s₀ s) (hk : .buf ∈ ps) {f : CoreSt → BufSt}
    (hmem : swf bufReset s.core.buf.mem = true → swf bufReset (f s.core).mem = true := by simp)
    (hguards : swf (fun _ => 0) s.core.buf.guards = true → swf (fun _ => 0) (f s.core).guards = true := by simp) :
    Goes ps s₀ (modC s fun c => { c with buf := f c }) := by
  refine h.piece hk (fun j hj => ?_) (fun hc => ?_) (fun hc => ?_) fun hc => ?_
  · cases j
    case buf => exact absurd rfl hj
    all_goals rfl
  · exact hc
  · unfold Canonical at hc ⊢
    simp only [modC] at hc ⊢
    grind
  · exact hc

theorem Goes.core_seq (h : Goes ps s₀ s) (hk : .seq ∈ ps) {f : CoreSt → SeqSt}
    (hlenrails : (f s.core).rails.length = s.core.seq.rails.length := by simp)
    (hlenmons : (f s.core).mons.length = s.core.seq.mons.length := by simp) :
    Goes ps s₀ (modC s fun c => { c with seq := f c }) := by
  refine h.piece hk (fun j hj => ?_) (fun hc => ?_) (fun hc => ?_) fun hc => ?_
  · cases j
    case seq => exact absurd rfl hj
    all_goals rfl
  · unfold Counted at hc ⊢
    simp only [modC] at hc ⊢
    grind
  · exact hc
  · exact hc

theorem Goes.core_thm (h : Goes ps s₀ s) (hk : .thm ∈ ps) {f : CoreSt → ThmSt}
    (hlensens : (f s.core).sens.length = s.core.thm.sens.length := by simp)
    (hlengrps : (f s.core).grps.length = s.core.thm.grps.length := by simp) :
    Goes ps s₀ (modC s fun c => { c with thm := f c }) := by
  refine h.piece hk (fun j hj => ?_) (fun hc => ?_) (fun hc => ?_) fun hc => ?_
  · cases j
    case thm => exact absurd rfl hj
    all_goals rfl
  · unfold Counted at hc ⊢
    simp only [modC] at hc ⊢
    grind
  · exact hc
  · exact hc

theorem Goes.core_flw (h : Goes ps s₀ s) (hk : .flw ∈ ps) {f : CoreSt → FlwSt}
    (hlendrive : (f s.core).drive.length = s.core.flw.drive.length := by simp)
    (hlenage : (f s.core).age.length = s.core.flw.age.length := by simp)
    (hlenfsw : (f s.core).fsw.length = s.core.flw.fsw.length := by simp)
    (hlenfvs : (f s.core).fvs.length = s.core.flw.fvs.length := by simp)
    (hall : (∀ g ∈ s.core.flw.age, g.acc.length = 8) → ∀ g ∈ (f s.core).age, g.acc.length = 8 := by simp) :
    Goes ps s₀ (modC s fun c => { c with flw := f c }) := by
  refine h.piece hk (fun j hj => ?_) (fun hc => ?_) (fun hc => ?_) fun hc => ?_
  · cases j
    case flw => exact absurd rfl hj
    all_goals rfl
  · unfold Counted at hc ⊢
    simp only [modC] at hc ⊢
    grind
  · exact hc
  · exact hc

theorem Goes.core_key (h : Goes ps s₀ s) (hk : .key ∈ ps) {f : CoreSt → KeyBlk}
    (hlencols : (f s.core).cols.length = s.core.key.cols.length := by simp)
    (hlenencs : (f s.core).encs.length = s.core.key.encs.length := by simp)
    (hlenfifos : (f s.core).fifos.length = s.core.key.fifos.length := by simp)
    (hkeys : swf (fun _ => {}) s.core.key.keys = true → swf (fun _ => {}) (f s.core).keys = true := by simp) :
    Goes ps s₀ (modC s fun c => { c with key := f c }) := by
  refine h.piece hk (fun j hj => ?_) (fun hc => ?_) (fun hc => ?_) fun hc => ?_
  · cases j
    case key => exact absurd rfl hj
    all_goals rfl
  · unfold Counted at hc ⊢
    simp only [modC] at hc ⊢
    grind
  · unfold Canonical at hc ⊢
    simp only [modC] at hc ⊢
    grind
  · exact hc

theorem Goes.core_epd (h : Goes ps s₀ s) (hk : .epd ∈ ps) {f : CoreSt → EpdSt}
    (hlenrecs : (f s.core).recs.length = s.core.epd.recs.length := by simp) :
    Goes ps s₀ (modC s fun c => { c with epd := f c }) := by
  refine h.piece hk (fun j hj => ?_) (fun hc => ?_) (fun hc => ?_) fun hc => ?_
  · cases j
    case epd => exact absurd rfl hj
    all_goals rfl
  · unfold Counted at hc ⊢
    simp only [modC] at hc ⊢
    grind
  · exact hc
  · exact hc

theorem Goes.core_pix (h : Goes ps s₀ s) (hk : .pix ∈ ps) {f : CoreSt → PixSt}
    (hlenblinks : (f s.core).blinks.length = s.core.pix.blinks.length := by simp) :
    Goes ps s₀ (modC s fun c => { c with pix := f c }) := by
  refine h.piece hk (fun j hj => ?_) (fun hc => ?_) (fun hc => ?_) fun hc => ?_
  · cases j
    case pix => exact absurd rfl hj
    all_goals rfl
  · unfold Counted at hc ⊢
    simp only [modC] at hc ⊢
    grind
  · exact hc
  · exact hc

theorem Goes.core_efl (h : Goes ps s₀ s) (hk : .efl ∈ ps) {f : CoreSt → EflSt}
    (hlenchans : (f s.core).chans.length = s.core.efl.chans.length := by simp)
    (hlenbanks : (f s.core).banks.length = s.core.efl.banks.length := by simp) :
    Goes ps s₀ (modC s fun c => { c with efl := f c }) := by
  refine h.piece hk (fun j hj => ?_) (fun hc => ?_) (fun hc => ?_) fun hc => ?_
  · cases j
    case efl => exact absurd rfl hj
    all_goals rfl
  · unfold Counted at hc ⊢
    simp only [modC] at hc ⊢
    grind
  · exact hc
  · exact hc

theorem Goes.core_nfc (h : Goes ps s₀ s) (hk : .nfc ∈ ps) {f : CoreSt → NfcSt}
    (hlenluns : (f s.core).luns.length = s.core.nfc.luns.length := by simp)
    (hlenchans : (f s.core).chans.length = s.core.nfc.chans.length := by simp)
    (hlenwins : (f s.core).wins.length = s.core.nfc.wins.length := by simp)
    (hlencounts : (f s.core).counts.length = s.core.nfc.counts.length := by simp)
    (hall : (∀ w ∈ s.core.nfc.wins, w.count ≤ 256) → ∀ w ∈ (f s.core).wins, w.count ≤ 256 := by simp) :
    Goes ps s₀ (modC s fun c => { c with nfc := f c }) := by
  refine h.piece hk (fun j hj => ?_) (fun hc => ?_) (fun hc => ?_) fun hc => ?_
  · cases j
    case nfc => exact absurd rfl hj
    all_goals rfl
  · unfold Counted at hc ⊢
    simp only [modC] at hc ⊢
    grind
  · exact hc
  · exact ⟨hc.1, hall hc.2⟩

theorem Goes.core_cvu (h : Goes ps s₀ s) (hk : .cvu ∈ ps) {f : CoreSt → List CvuUnit}
    (hlen : (f s.core).length = s.core.cvu.length := by simp) :
    Goes ps s₀ (modC s fun c => { c with cvu := f c }) := by
  refine h.piece hk (fun j hj => ?_) (fun hc => ?_) (fun hc => ?_) fun hc => ?_
  · cases j
    case cvu => exact absurd rfl hj
    all_goals rfl
  · unfold Counted at hc ⊢
    simp only [modC] at hc ⊢
    grind
  · exact hc
  · exact hc

theorem Goes.core_gng (h : Goes ps s₀ s) (hk : .gng ∈ ps) {f : CoreSt → GngSt}
    (hlenmems : (f s.core).mems.length = s.core.gng.mems.length := by simp) :
    Goes ps s₀ (modC s fun c => { c with gng := f c }) := by
  refine h.piece hk (fun j hj => ?_) (fun hc => ?_) (fun hc => ?_) fun hc => ?_
  · cases j
    case gng => exact absurd rfl hj
    all_goals rfl
  · unfold Counted at hc ⊢
    simp only [modC] at hc ⊢
    grind
  · exact hc
  · exact hc

theorem Goes.modA (h : Goes ps s₀ s) (hk : .aon ∈ ps) {f : Aon → Aon}
    (hregs : swf regReset s.aon.regs = true → swf regReset (f s.aon).regs = true := by simp) : Goes ps s₀ (modA s f) := by
  refine h.piece hk (fun j hj => ?_) id (fun hc => ?_) id
  · cases j
    case aon => exact absurd rfl hj
    all_goals rfl
  · unfold Canonical at hc ⊢
    simp only [Machine.modA] at hc ⊢
    grind

theorem Goes.modH (h : Goes ps s₀ s) (hk : .hold ∈ ps) {f : AonHold → AonHold} : Goes ps s₀ (modH s f) := by
  refine h.piece hk (fun j hj => ?_) id id id
  cases j
  case hold => exact absurd rfl hj
  all_goals rfl

/-- Another content of the setup flash. -/
theorem Goes.flash (h : Goes ps s₀ s) (hk : .flash ∈ ps) {v : FlashSt}
    (hmem : swf flashErased s.flash.mem = true → swf flashErased v.mem = true := by simp)
    (hmark : swf (fun _ => 0xFFFF) s.flash.markers = true → swf (fun _ => 0xFFFF) v.markers = true := by simp) :
    Goes ps s₀ { s with flash := v } := by
  refine h.piece hk (fun j hj => ?_) id (fun hc => ?_) id
  · cases j
    case flash => exact absurd rfl hj
    all_goals rfl
  · unfold Canonical at hc ⊢
    grind

theorem Goes.setR (h : Goes ps s₀ s) (hk : .regs ∈ ps) {a : Nat} {v : Word} : Goes ps s₀ (setR s a v) := by
  refine h.piece hk (fun j hj => ?_) id (fun hc => ?_) id
  · cases j
    case regs => exact absurd rfl hj
    all_goals rfl
  · obtain ⟨hregs, hrest⟩ := hc
    exact ⟨swf_setR s a v hregs, hrest⟩

theorem Goes.setA (h : Goes ps s₀ s) (hk : .aon ∈ ps) {a : Nat} {v : Word} : Goes ps s₀ (setA s a v) :=
  h.modA hk (swf_sset _ _ _ _)

theorem Goes.setStored (h : Goes ps s₀ s) (hr : .regs ∈ ps) (ha : .aon ∈ ps) {a : Nat} {v : Word} :
    Goes ps s₀ (setStored s a v) := .ite (fun _ => h.setA ha) fun _ => h.setR hr

theorem Goes.passes (h : Goes ps s₀ s) (hk : .parity ∈ ps) {t : Nat → Bool} : Goes ps s₀ (passes s t) :=
  h.core_parity hk

/-- Controllers whose pending bits alone have changed, among what a frame condition names. -/
theorem Goes.core_irq_pend (h : Goes ps s₀ s) (hk : .irqPend ∈ ps) {f : CoreSt → List IrqSt}
    (hlen : (f s.core).length = s.core.irq.length := by simp)
    (hset : (f s.core).map (fun q => (q.en, q.imm, q.count, q.time)) = s.core.irq.map (fun q => (q.en, q.imm, q.count, q.time)))
    (hround : (f s.core).map (fun q => (q.summary, q.asserts)) = s.core.irq.map (fun q => (q.summary, q.asserts)))
    (hrise : ∀ p n : Nat, bit (nth s.core.irq p {}).pend n = true → bit (nth (f s.core) p {}).pend n = true) :
    Goes ps s₀ (modC s fun c => { c with irq := f c }) := by
  refine h.piece hk (fun j hj => ?_) (fun hc => ?_) id id fun _ => hrise
  · cases j
    case irqPend => exact absurd rfl hj
    case irqSet => exact hset
    case irqRound => exact hround
    all_goals rfl
  · unfold Counted at hc ⊢
    simp only [modC] at hc ⊢
    grind

/-- Controllers that have changed whole. -/
theorem Goes.core_irq (h : Goes ps s₀ s) (hp : .irqPend ∈ ps) (hs : .irqSet ∈ ps) (hr : .irqRound ∈ ps) {f : CoreSt → List IrqSt}
    (hlen : (f s.core).length = s.core.irq.length := by simp) : Goes ps s₀ (modC s fun c => { c with irq := f c }) := by
  refine h.trans ⟨fun j => ?_, fun hc => ?_, id, id, .inl hs, .inr rfl⟩
  · cases j
    case irqPend => exact .inl hp
    case irqSet => exact .inl hs
    case irqRound => exact .inl hr
    all_goals exact .inr rfl
  · unfold Counted at hc ⊢
    simp only [modC] at hc ⊢
    grind

theorem Goes.modIrq (h : Goes ps s₀ s) (hp : .irqPend ∈ ps) (hs : .irqSet ∈ ps) (hr : .irqRound ∈ ps) {p : Nat} {f : IrqSt → IrqSt} :
    Goes ps s₀ (modIrq s p f) := h.core_irq hp hs hr (length_upd _ _ _)

theorem Goes.raise (h : Goes ps s₀ s) (hk : .irqPend ∈ ps) {p n : Nat} : Goes ps s₀ (raise s p n) :=
  h.core_irq_pend hk (length_upd _ _ _) (map_upd_eq _ _ _ _ fun _ => rfl) (map_upd_eq _ _ _ _ fun _ => rfl) fun q m hb => by
    by_cases hq : q = p
    · subst hq
      rcases Nat.lt_or_ge q s.core.irq.length with hlt | hge
      · rw [nth_upd_same _ _ _ _ hlt]
        exact bit_pend_set n hb
      · rw [nth_of_le hge] at hb
        rw [nth_of_le ((length_upd ..).symm ▸ hge)]
        exact hb
    · rw [nth_upd_ne _ _ _ _ _ hq]
      exact hb

theorem Goes.raiseAll (h : Goes ps s₀ s) (hk : .irqPend ∈ ps) {n : Nat} : Goes ps s₀ (raiseAll s n) :=
  h.core_irq_pend hk (List.length_map ..) (by rw [List.map_map]; rfl) (by rw [List.map_map]; rfl) fun q m hb => by
    rcases Nat.lt_or_ge q s.core.irq.length with hlt | hge
    · rw [nth_map _ _ hlt {}]
      exact bit_pend_set n hb
    · rw [nth_of_le hge] at hb
      rw [nth_of_le (by simpa using hge)]
      exact hb

theorem Goes.raiseOwner (h : Goes ps s₀ s) (hk : .irqPend ∈ ps) {r : Res} {n : Nat} : Goes ps s₀ (raiseOwner s r n) :=
  h.raise hk

theorem Goes.raiseOwner0 (h : Goes ps s₀ s) (hk : .irqPend ∈ ps) {r : Res} {n : Nat} : Goes ps s₀ (raiseOwner0 s r n) :=
  (h.raise hk).raise hk

theorem Goes.capoTrigger (h : Goes ps s₀ s) (hk : .capo ∈ ps) {n : Nat} : Goes ps s₀ (capoTrigger s n) := h.core_capo hk

theorem Goes.capoFault (h : Goes ps s₀ s) (hk : .capo ∈ ps) {n : Nat} : Goes ps s₀ (capoFault s n) :=
  .ite (fun _ => h.core_capo hk) fun _ => h

/-- PWR as a whole. -/
theorem Goes.core_pwr (h : Goes ps s₀ s) (hp : .pwr ∈ ps) (hd : .doze ∈ ps) {f : CoreSt → PwrSt} :
    Goes ps s₀ (modC s fun c => { c with pwr := f c }) := by
  refine h.trans ⟨fun j => ?_, id, id, id, .inr (.refl s), .inl hd⟩
  cases j
  case pwr => exact .inl hp
  case doze => exact .inl hd
  all_goals exact .inr rfl

/-- DOZE alone. -/
theorem Goes.core_doze (h : Goes ps s₀ s) (hd : .doze ∈ ps) {f : CoreSt → Bool} :
    Goes ps s₀ (modC s fun c => { c with pwr := { c.pwr with doze := f c } }) := by
  refine h.trans ⟨fun j => ?_, id, id, id, .inr (.refl s), .inr rfl⟩
  cases j
  case doze => exact .inl hd
  all_goals exact .inr rfl

end Rules

end Sys2Proof.Machine
end

section
/-! SUPPORT. The same rules for the model's own names of a change of one part. -/

set_option Elab.async false

namespace Sys2Proof.Machine

section Named

variable {ps : List Piece} {s₀ s : State}

/-- A change under a condition, where both branches go the same way. -/
theorem Goes.cond {c : Prop} {_ : Decidable c} {a b : State} (ha : Goes ps s₀ a) (hb : Goes ps s₀ b) :
    Goes ps s₀ (if c then a else b) := .ite (fun _ => ha) fun _ => hb

theorem Goes.cond_fst {α : Type} {c : Prop} {_ : Decidable c} {a b : State × α} (ha : Goes ps s₀ a.1) (hb : Goes ps s₀ b.1) :
    Goes ps s₀ (if c then a else b).1 := by
  split
  · exact ha
  · exact hb

/-- What is not among the parts is the same. -/
theorem Goes.same (h : Goes ps s₀ s) (k : Piece) (hk : k ∉ ps) : k.same s₀ s := (h.keeps k).resolve_left hk

theorem Goes.modK (h : Goes ps s₀ s) (hkey : .key ∈ ps) {f : KeyBlk → KeyBlk}
    (hcols : (f s.core.key).cols.length = s.core.key.cols.length := by simp) (hencs : (f s.core.key).encs.length = s.core.key.encs.length := by simp)
    (hfifos : (f s.core.key).fifos.length = s.core.key.fifos.length := by simp)
    (hkeys : swf (fun _ => {}) s.core.key.keys = true → swf (fun _ => {}) (f s.core.key).keys = true := by simp) :
    Goes ps s₀ (modK s f) := h.core_key hkey hcols hencs hfifos hkeys

theorem Goes.modE (h : Goes ps s₀ s) (hepd : .epd ∈ ps) {f : EpdSt → EpdSt}
    (hrecs : (f s.core.epd).recs.length = s.core.epd.recs.length := by simp) : Goes ps s₀ (modE s f) := h.core_epd hepd hrecs

theorem Goes.modRun (h : Goes ps s₀ s) (hepd : .epd ∈ ps) {f : UpdSt → UpdSt} : Goes ps s₀ (modRun s f) := h.modE hepd rfl

theorem Goes.modP (h : Goes ps s₀ s) (hpix : .pix ∈ ps) {f : PixSt → PixSt}
    (hblinks : (f s.core.pix).blinks.length = s.core.pix.blinks.length := by simp) : Goes ps s₀ (modP s f) := h.core_pix hpix hblinks

theorem Goes.modF (h : Goes ps s₀ s) (hefl : .efl ∈ ps) {f : EflSt → EflSt}
    (hchans : (f s.core.efl).chans.length = s.core.efl.chans.length := by simp)
    (hbanks : (f s.core.efl).banks.length = s.core.efl.banks.length := by simp) : Goes ps s₀ (modF s f) := h.core_efl hefl hchans hbanks

theorem Goes.modCh (h : Goes ps s₀ s) (hefl : .efl ∈ ps) {c : Nat} {f : EflChan → EflChan} : Goes ps s₀ (modCh s c f) :=
  h.modF hefl (length_upd _ _ _) rfl

theorem Goes.modBank (h : Goes ps s₀ s) (hefl : .efl ∈ ps) {b : Nat} {f : EflBank → EflBank} : Goes ps s₀ (modBank s b f) :=
  h.modF hefl rfl (length_upd _ _ _)

theorem Goes.modLog (h : Goes ps s₀ s) (hefl : .efl ∈ ps) {f : LogSt → LogSt} : Goes ps s₀ (modLog s f) := h.modF hefl rfl rfl

theorem Goes.modDrive (h : Goes ps s₀ s) (hflw : .flw ∈ ps) {n : Nat} {f : FlowDrive → FlowDrive} : Goes ps s₀ (modDrive s n f) :=
  h.core_flw hflw (length_upd _ _ _) rfl rfl rfl id

/-- What each element satisfies, one element changed. -/
theorem forall_mem_upd {α : Type} {p : α → Prop} {l : List α} {i : Nat} {f : α → α} (hf : ∀ a ∈ l, p a → p (f a))
    (h : ∀ a ∈ l, p a) : ∀ a ∈ upd l i f, p a := by
  induction l generalizing i with
  | nil => exact fun a ha => absurd ha List.not_mem_nil
  | cons b l ih =>
    have hb := h b List.mem_cons_self
    have hl : ∀ a ∈ l, p a := fun a ha => h a (List.mem_cons_of_mem _ ha)
    cases i with
    | zero => exact List.forall_mem_cons.mpr ⟨hf b List.mem_cons_self hb, hl⟩
    | succ i => exact List.forall_mem_cons.mpr ⟨hb, ih (fun a ha => hf a (List.mem_cons_of_mem _ ha)) hl⟩

theorem Goes.modAge (h : Goes ps s₀ s) (hflw : .flw ∈ ps) {n : Nat} {f : FlowAge → FlowAge}
    (hacc : ∀ g : FlowAge, g.acc.length = 8 → (f g).acc.length = 8 := by simp) : Goes ps s₀ (modAge s n f) :=
  h.core_flw hflw rfl (length_upd _ _ _) rfl rfl (forall_mem_upd fun g _ => hacc g)

theorem Goes.modFsw (h : Goes ps s₀ s) (hflw : .flw ∈ ps) {n : Nat} {f : FswSt → FswSt} : Goes ps s₀ (modFsw s n f) :=
  h.core_flw hflw rfl rfl (length_upd _ _ _) rfl id

theorem Goes.modG (h : Goes ps s₀ s) (hgng : .gng ∈ ps) {f : GngSt → GngSt}
    (hmems : (f s.core.gng).mems.length = s.core.gng.mems.length := by simp) : Goes ps s₀ (modG s f) := h.core_gng hgng hmems

theorem Goes.modMem (h : Goes ps s₀ s) (hgng : .gng ∈ ps) {m : Nat} {f : MemSt → MemSt} : Goes ps s₀ (modMem s m f) :=
  h.modG hgng (length_upd _ _ _)

theorem Goes.modN (h : Goes ps s₀ s) (hnfc : .nfc ∈ ps) {f : NfcSt → NfcSt}
    (hluns : (f s.core.nfc).luns.length = s.core.nfc.luns.length := by simp) (hchans : (f s.core.nfc).chans.length = s.core.nfc.chans.length := by simp)
    (hwins : (f s.core.nfc).wins.length = s.core.nfc.wins.length := by simp) (hcounts : (f s.core.nfc).counts.length = s.core.nfc.counts.length := by simp)
    (hring : (∀ w ∈ s.core.nfc.wins, w.count ≤ 256) → ∀ w ∈ (f s.core.nfc).wins, w.count ≤ 256 := by simp) : Goes ps s₀ (modN s f) :=
  h.core_nfc hnfc hluns hchans hwins hcounts hring

theorem Goes.modLun (h : Goes ps s₀ s) (hnfc : .nfc ∈ ps) {l : Nat} {f : NfcLun → NfcLun} : Goes ps s₀ (modLun s l f) :=
  h.modN hnfc (length_upd _ _ _) rfl rfl rfl id

theorem Goes.modChan (h : Goes ps s₀ s) (hnfc : .nfc ∈ ps) {c : Nat} {f : NfcChan → NfcChan} : Goes ps s₀ (modChan s c f) :=
  h.modN hnfc rfl (length_upd _ _ _) rfl rfl id

theorem Goes.modWin (h : Goes ps s₀ s) (hnfc : .nfc ∈ ps) {p : Nat} {f : NfcWin → NfcWin}
    (hring : ∀ w : NfcWin, w.count ≤ 256 → (f w).count ≤ 256 := by simp) : Goes ps s₀ (modWin s p f) :=
  h.modN hnfc rfl rfl (length_upd _ _ _) rfl (forall_mem_upd fun w _ => hring w)

theorem Goes.modCourse (h : Goes ps s₀ s) (hcourse : .course ∈ ps) {f : CourseSt → CourseSt}
    (hrunning : (f s.core.course).running.length = s.core.course.running.length := by simp)
    (himage : swf regReset s.core.course.image = true → swf regReset (f s.core.course).image = true := by simp) : Goes ps s₀ (modCourse s f) :=
  h.core_course hcourse hrunning himage

theorem Goes.modU (h : Goes ps s₀ s) (hcvu : .cvu ∈ ps) {u : Nat} {f : CvuUnit → CvuUnit} : Goes ps s₀ (modU s u f) :=
  h.core_cvu hcvu (length_upd _ _ _)

theorem Goes.modPart (h : Goes ps s₀ s) (hpart : .part ∈ ps) {f : PartSt → PartSt}
    (hwdog : (f s.core.part).wdog.length = s.core.part.wdog.length := by simp)
    (hrstCount : (f s.core.part).rstCount.length = s.core.part.rstCount.length := by simp)
    (hrstCause : (f s.core.part).rstCause.length = s.core.part.rstCause.length := by simp)
    (hslotRefused : (f s.core.part).slotRefused.length = s.core.part.slotRefused.length := by simp) : Goes ps s₀ (modPart s f) :=
  h.core_part hpart hwdog hrstCount hrstCause hslotRefused

theorem Goes.modWdog (h : Goes ps s₀ s) (hpart : .part ∈ ps) {p : Nat} {f : WdogSt → WdogSt} : Goes ps s₀ (modWdog s p f) :=
  h.modPart hpart (length_upd _ _ _) rfl rfl rfl

theorem Goes.modPort (h : Goes ps s₀ s) (hports : .ports ∈ ps) {p : Nat} {f : PortSt → PortSt} : Goes ps s₀ (modPort s p f) :=
  h.core_ports hports (length_upd _ _ _)

theorem Goes.modMbx (h : Goes ps s₀ s) (hmbxs : .mbxs ∈ ps) {n : Nat} {f : MbxSt → MbxSt}
    (hheld : ∀ m : MbxSt, m.held ≤ 8 → (f m).held ≤ 8 := by simp) : Goes ps s₀ (modMbx s n f) :=
  h.core_mbxs hmbxs (length_upd _ _ _) (forall_mem_upd fun m _ => hheld m)

end Named

end Sys2Proof.Machine
end

section
/-! SUPPORT. Where the operations of the buffer space, of the setup flash medium and of KEY go. -/

set_option Elab.async false

namespace Sys2Proof.Machine

section Rules

variable {ps : List Piece} {s₀ s : State}

theorem Goes.setRF (h : Goes ps s₀ s) (hregs : .regs ∈ ps) {a lo n v : Nat} :
    Goes ps s₀ (Machine.setRF s a lo n v) :=
  h.setR hregs

theorem Goes.bufTouch (h : Goes ps s₀ s) (hbuf : .buf ∈ ps) {a n : Nat} :
    Goes ps s₀ (Machine.bufTouch s a n) :=
  h.core_buf hbuf

theorem Goes.bufStore (h : Goes ps s₀ s) (hbuf : .buf ∈ ps) {a : Nat} {bs : List Byte} :
    Goes ps s₀ (Machine.bufStore s a bs) := by
  unfold Machine.bufStore
  dsimp only
  exact h.core_buf hbuf

theorem Goes.granuleFill (h : Goes ps s₀ s) (hbuf : .buf ∈ ps) {g : Nat} {bs : List Byte} {guardOk : Bool} :
    Goes ps s₀ (Machine.granuleFill s g bs guardOk) := by
  unfold Machine.granuleFill
  dsimp only
  exact (h.bufStore hbuf).core_buf hbuf

theorem Goes.granuleClear (h : Goes ps s₀ s) (hbuf : .buf ∈ ps) {g : Nat} :
    Goes ps s₀ (Machine.granuleClear s g) :=
  h.core_buf hbuf

theorem Goes.bufFail (h : Goes ps s₀ s) (hbuf : .buf ∈ ps) {w : Nat} {single : Bool} :
    Goes ps s₀ (Machine.bufFail s w single) := by
  cases single
  · exact h.core_buf hbuf
  · cases hw : List.elem w s.core.buf.bad
    · exact h.core_buf hbuf (by simp at hw; simp [hw]) (by simp at hw; simp [hw])
    · exact h.core_buf hbuf (by simp at hw; simp [hw]) (by simp at hw; simp [hw])

theorem Goes.flashErase (h : Goes ps s₀ s) (hflash : .flash ∈ ps) {lo hi : Nat} :
    Goes ps s₀ (Machine.flashErase s lo hi) :=
  h.flash hflash

theorem Goes.flashProgramRow (h : Goes ps s₀ s) (hflash : .flash ∈ ps) {row : Nat} {bs : List Byte} :
    Goes ps s₀ (Machine.flashProgramRow s row bs) :=
  h.flash hflash

theorem Goes.flashUndef (h : Goes ps s₀ s) (hflash : .flash ∈ ps) {rows : List Nat} :
    Goes ps s₀ (Machine.flashUndef s rows) :=
  h.flash hflash

theorem Goes.flashUnmark (h : Goes ps s₀ s) (hflash : .flash ∈ ps) {row : Nat} :
    Goes ps s₀ (Machine.flashUnmark s row) :=
  h.flash hflash

theorem Goes.flashClean (h : Goes ps s₀ s) (hflash : .flash ∈ ps) {rows : List Nat} :
    Goes ps s₀ (Machine.flashClean s rows) :=
  h.foldl fun _ _ h => .cond (h.flashErase hflash) h

theorem Goes.flashSuspend (h : Goes ps s₀ s) (hefl : .efl ∈ ps) :
    Goes ps s₀ (Machine.flashSuspend s) :=
  .cond (h.core_efl hefl) h

theorem Goes.flashResume (h : Goes ps s₀ s) (hefl : .efl ∈ ps) :
    Goes ps s₀ (Machine.flashResume s) :=
  .cond h (h.core_efl hefl)

theorem Goes.setKey (h : Goes ps s₀ s) (hkey : .key ∈ ps) {pos : Nat} {k : KeySt} :
    Goes ps s₀ (Machine.setKey s pos k) :=
  h.modK hkey

theorem Goes.fifoPost (h : Goes ps s₀ s) (hirqPend : .irqPend ∈ ps) (hkey : .key ∈ ps)
    {p typ subj flags data tick vel : Nat} :
    Goes ps s₀ (Machine.fifoPost s p typ subj flags data tick vel) :=
  .cond ((h.modK hkey).raise hirqPend) ((h.modK hkey).raise hirqPend)

theorem Goes.encMerge (h : Goes ps s₀ s) (hirqPend : .irqPend ∈ ps) (hkey : .key ∈ ps) {p n : Nat} {d : Int}
    {tick vel : Nat} :
    ∀ u ∈ Machine.encMerge s p n d tick vel, Goes ps s₀ u := by
  intro u hu
  unfold Machine.encMerge at hu
  dsimp only at hu
  split at hu
  · split at hu
    · cases hu
      exact (h.modK hkey).raise hirqPend
    · cases hu
  · cases hu

theorem Goes.keyFwd (h : Goes ps s₀ s) (hkey : .key ∈ ps) {pos typ flags tick : Nat} :
    Goes ps s₀ (Machine.keyFwd s pos typ flags tick) :=
  .cond (h.modK hkey) h

theorem Goes.keyPost (h : Goes ps s₀ s) (hirqPend : .irqPend ∈ ps) (hkey : .key ∈ ps) {p pos typ extra tick : Nat} :
    Goes ps s₀ (Machine.keyPost s p pos typ extra tick) :=
  (h.fifoPost hirqPend hkey).keyFwd hkey

theorem Goes.keyRbr (h : Goes ps s₀ s) (hkey : .key ∈ ps) {pos : Nat} :
    Goes ps s₀ (Machine.keyRbr s pos) :=
  .cond h (h.setKey hkey)

theorem Goes.keySample (h : Goes ps s₀ s) (hirqPend : .irqPend ∈ ps) (hkey : .key ∈ ps) {closed : BitVec 160}
    {n t st0 : Nat} {first : Bool} {pos : Nat} :
    Goes ps s₀ (Machine.keySample s closed n t st0 first pos) := by
  unfold Machine.keySample
  dsimp only
  split
  · exact .cond (.cond (h.setKey hkey) h) (.cond ((h.setKey hkey).whenS fun _ h => h.keyPost hirqPend hkey) (h.setKey hkey))
  · exact .cond (h.setKey hkey) (.cond (h.setKey hkey) (.cond h (.cond h (.cond ((h.setKey hkey).whenS fun _ h => h.keyPost
    hirqPend hkey) (.cond ((h.setKey hkey).whenS fun _ h => h.keyPost hirqPend hkey) ((h.setKey hkey).whenS fun _ h =>
      (h.modK hkey).keyPost hirqPend hkey))))))
  · exact .cond h (h.setKey hkey)
  · exact .cond (h.setKey hkey) (.cond h (.cond ((h.setKey hkey).whenS fun _ h => h.keyPost hirqPend hkey) ((h.setKey
    hkey).whenS fun _ h => h.keyPost hirqPend hkey)))

theorem Goes.encPost (h : Goes ps s₀ s) (hirqPend : .irqPend ∈ ps) (hkey : .key ∈ ps) {e : EncDue} :
    Goes ps s₀ (Machine.encPost s e) := by
  unfold Machine.encPost
  dsimp only
  refine .cond ?_ ?_
  · exact h
  · split
    next hm => exact h.encMerge hirqPend hkey _ hm
    next => exact h.fifoPost hirqPend hkey

theorem Goes.encFlush (h : Goes ps s₀ s) (hirqPend : .irqPend ∈ ps) (hkey : .key ∈ ps) :
    Goes ps s₀ (Machine.encFlush s) :=
  (h.foldl fun _ _ h => h.encPost hirqPend hkey).modK hkey

theorem Goes.keyPassOp (h : Goes ps s₀ s) (hirqPend : .irqPend ∈ ps) (hkey : .key ∈ ps) {closedIn : BitVec 160} :
    Goes ps s₀ (Machine.keyPassOp s closedIn) := by
  unfold Machine.keyPassOp
  dsimp only
  split
  · exact h
  · exact ((h.foldl fun _ _ h => .cond (h.keySample hirqPend hkey) h).modK hkey).encFlush hirqPend hkey

theorem Goes.keyStuckOp (h : Goes ps s₀ s) (hirqPend : .irqPend ∈ ps) (hkey : .key ∈ ps) {pos : Nat} :
    Goes ps s₀ (Machine.keyStuckOp s pos) :=
  .cond ((h.setKey hkey).whenS fun _ h => h.keyPost hirqPend hkey) h

theorem Goes.lockPost (h : Goes ps s₀ s) (hirqPend : .irqPend ∈ ps) (hkey : .key ∈ ps) {typ : Nat} :
    Goes ps s₀ (Machine.lockPost s typ) :=
  (h.foldl fun _ _ h => h.fifoPost hirqPend hkey).raiseAll hirqPend

theorem Goes.setLocked (h : Goes ps s₀ s) (hhold : .hold ∈ ps) {b : Bool} :
    Goes ps s₀ (Machine.setLocked s b) :=
  h.modH hhold

theorem Goes.matchIdle (h : Goes ps s₀ s) (hkey : .key ∈ ps) :
    Goes ps s₀ (Machine.matchIdle s) :=
  h.modK hkey

theorem Goes.lockOp (h : Goes ps s₀ s) (hhold : .hold ∈ ps) (hirqPend : .irqPend ∈ ps) (hkey : .key ∈ ps) :
    Goes ps s₀ (Machine.lockOp s) :=
  .cond h ((((h.setLocked hhold).foldl fun _ _ h => .cond h (h.keyRbr hkey)).matchIdle hkey).lockPost hirqPend hkey)

theorem Goes.unlockOp (h : Goes ps s₀ s) (hhold : .hold ∈ ps) (hirqPend : .irqPend ∈ ps) (hkey : .key ∈ ps) :
    Goes ps s₀ (Machine.unlockOp s) :=
  .cond (((((h.setLocked hhold).foldl fun _ _ h => h.keyRbr hkey).matchIdle hkey).modK hkey).lockPost hirqPend hkey) h

theorem Goes.matchFail (h : Goes ps s₀ s) (hkey : .key ∈ ps) :
    Goes ps s₀ (Machine.matchFail s) :=
  (h.matchIdle hkey).modK hkey

theorem Goes.matcherOp (h : Goes ps s₀ s) (hhold : .hold ∈ ps) (hirqPend : .irqPend ∈ ps) (hkey : .key ∈ ps) :
    Goes ps s₀ (Machine.matcherOp s) := by
  unfold Machine.matcherOp
  dsimp only
  refine .cond h (.cond (.cond (h.modK hkey) h) (.cond ((h.modK hkey).matchFail hkey) ?_))
  split
  · exact .cond ((h.modK hkey).matchFail hkey)
      (.cond (.cond (((h.modK hkey).unlockOp hhold hirqPend hkey).modK hkey) ((h.modK hkey).modK hkey)) (h.modK hkey))
  · exact .cond ((h.modK hkey).modK hkey) (.cond ((h.modK hkey).matchFail hkey) (h.modK hkey))

theorem Goes.suspendOp (h : Goes ps s₀ s) (hirqPend : .irqPend ∈ ps) (hkey : .key ∈ ps) {g : Nat} :
    Goes ps s₀ (Machine.suspendOp s g) :=
  .cond h ((Goes.cond ((h.modK hkey).fifoPost hirqPend hkey) (((h.modK hkey).fifoPost hirqPend hkey).foldl fun _ _ h =>
    .cond (h.keyRbr hkey) h)).raise hirqPend)

theorem Goes.encFrameOp (h : Goes ps s₀ s) (hkey : .key ∈ ps) {n : Nat} :
    Goes ps s₀ (Machine.encFrameOp s n) :=
  .cond h (.cond (h.modK hkey) ((h.modK hkey).modK hkey))

theorem Goes.keyFrameOp (h : Goes ps s₀ s) (hhold : .hold ∈ ps) (hirqPend : .irqPend ∈ ps) (hkey : .key ∈ ps) :
    Goes ps s₀ (Machine.keyFrameOp s) := by
  unfold Machine.keyFrameOp
  dsimp only
  exact (((((((h.encFlush hirqPend hkey).modK hkey).whenS fun _ h => h.lockOp hhold hirqPend hkey).matcherOp hhold hirqPend
    hkey).foldl fun _ _ h => h.suspendOp hirqPend hkey).foldl fun _ _ h => h.encFrameOp hkey).whenS fun _ h => h.modK
      hkey).modK hkey

theorem Goes.keyPadsChange (h : Goes ps s₀ s) (hkey : .key ∈ ps) :
    Goes ps s₀ (Machine.keyPadsChange s) :=
  .cond ((h.modK hkey).modK hkey) (h.modK hkey)

theorem Goes.keyGrant (h : Goes ps s₀ s) (hkey : .key ∈ ps) {us : Nat} :
    Goes ps s₀ (Machine.keyGrant s us) :=
  .cond (h.modK hkey) (h.modK hkey)

theorem Goes.probeColOp (h : Goes ps s₀ s) (hirqPend : .irqPend ∈ ps) (hkey : .key ∈ ps) {iA iB : Int} :
    Goes ps s₀ (Machine.probeColOp s iA iB) := by
  unfold Machine.probeColOp
  dsimp only
  split
  · exact h
  · exact .cond (h.modK hkey) ((h.modK hkey).foldl fun _ _ h => .cond (h.raiseOwner hirqPend) h)

theorem Goes.encEdgeOp (h : Goes ps s₀ s) (hkey : .key ∈ ps) {n : Nat} {a b : Bool} :
    Goes ps s₀ (Machine.encEdgeOp s n a b) := by
  unfold Machine.encEdgeOp
  dsimp only
  exact h.modK hkey

theorem Goes.encVelOp (h : Goes ps s₀ s) (hkey : .key ∈ ps) :
    Goes ps s₀ (Machine.encVelOp s) :=
  h.modK hkey

theorem Goes.fifoPopOp (h : Goes ps s₀ s) (hkey : .key ∈ ps) {p n : Nat} :
    Goes ps s₀ (Machine.fifoPopOp s p n) :=
  h.modK hkey

theorem Goes.keyCntclrOp (h : Goes ps s₀ s) (hkey : .key ∈ ps) :
    Goes ps s₀ (Machine.keyCntclrOp s) :=
  h.modK hkey

theorem Goes.encRef (h : Goes ps s₀ s) (hkey : .key ∈ ps) {n : Nat} :
    Goes ps s₀ (Machine.encRef s n) :=
  h.modK hkey

theorem Goes.keyGroupMoved (h : Goes ps s₀ s) (hirqPend : .irqPend ∈ ps) (hkey : .key ∈ ps) {old g : Nat} :
    Goes ps s₀ (Machine.keyGroupMoved s old g) :=
  h.foldl fun _ _ h => .cond ((h.whenS fun _ h => h.keyPost hirqPend hkey).keyRbr hkey) h

theorem Goes.hookKey (h : Goes ps s₀ s) (hirqPend : .irqPend ∈ ps) (hkey : .key ∈ ps) {old : State} :
    Goes ps s₀ (Machine.hookKey old s) :=
  h.foldl fun _ _ h => .cond ((Goes.cond (h.keyPost hirqPend hkey) h).keyRbr hkey) h

theorem Goes.keyPartReset (h : Goes ps s₀ s) (hkey : .key ∈ ps) {p : Nat} :
    Goes ps s₀ (Machine.keyPartReset s p) :=
  (h.foldl fun _ _ h => .cond (h.keyRbr hkey) h).foldl fun _ _ h => .cond (h.encRef hkey) h

theorem Goes.keyFifoReset (h : Goes ps s₀ s) (hkey : .key ∈ ps) {p : Nat} :
    Goes ps s₀ (Machine.keyFifoReset s p) :=
  h.modK hkey

theorem Goes.keyStart (h : Goes ps s₀ s) (hhold : .hold ∈ ps) (hirqPend : .irqPend ∈ ps) (hkey : .key ∈ ps) {a b : BitVec 3} :
    Goes ps s₀ (Machine.keyStart s a b) :=
  (h.modK hkey).keyFrameOp hhold hirqPend hkey

end Rules

end Sys2Proof.Machine
end

section
/-! SUPPORT. Where the operations of EPD and of the pixels go. -/

set_option Elab.async false

namespace Sys2Proof.Machine

section Rules

variable {ps : List Piece} {s₀ s : State}

theorem Goes.setPix (h : Goes ps s₀ s) (hbuf : .buf ∈ ps) {i w : Nat} :
    Goes ps s₀ (Machine.setPix s i w) :=
  h.bufStore hbuf

theorem Goes.pixWrite (h : Goes ps s₀ s) (hbuf : .buf ∈ ps) {gamma : Bool} {i v : Nat} :
    Goes ps s₀ (Machine.pixWrite s gamma i v) :=
  h.setPix hbuf

theorem Goes.pixReplace (h : Goes ps s₀ s) (hbuf : .buf ∈ ps) (hpix : .pix ∈ ps) {idx : List Nat} :
    Goes ps s₀ (Machine.pixReplace s idx) :=
  h.foldl fun _ _ h => (h.bufStore hbuf).modP hpix

theorem Goes.pixSecded (h : Goes ps s₀ s) (hbuf : .buf ∈ ps) (hpix : .pix ∈ ps) {idx : List Nat} :
    Goes ps s₀ (Machine.pixSecded s idx) :=
  (h.foldl fun _ _ h => h.bufTouch hbuf).pixReplace hbuf hpix

theorem Goes.epdDone (h : Goes ps s₀ s) (hirqPend : .irqPend ∈ ps) {r : Nat} :
    Goes ps s₀ (Machine.epdDone s r) :=
  h.raiseOwner hirqPend

theorem Goes.epdRecord (h : Goes ps s₀ s) (hirqPend : .irqPend ∈ ps) (hepd : .epd ∈ ps) {u : UpdSt} :
    Goes ps s₀ (Machine.epdRecord s u) :=
  ((h.modE hepd).whenS fun _ h => h.raiseAll hirqPend).whenS fun _ h => h.epdDone hirqPend

theorem Goes.epdPixEnd (h : Goes ps s₀ s) (hbuf : .buf ∈ ps) {u : UpdSt} :
    Goes ps s₀ (Machine.epdPixEnd s u) :=
  h.foldl fun _ _ h => .cond (h.setPix hbuf) (.cond (h.setPix hbuf) h)

theorem Goes.epdEnd (h : Goes ps s₀ s) (hirqPend : .irqPend ∈ ps) (hbuf : .buf ∈ ps) (hepd : .epd ∈ ps) (hpix : .pix ∈ ps)
    {u : UpdSt} :
    Goes ps s₀ (Machine.epdEnd s u) :=
  (((h.pixSecded hbuf hpix).epdPixEnd hbuf).whenS fun _ h => h.modP hpix).epdRecord hirqPend hepd

theorem Goes.epdBegin (h : Goes ps s₀ s) (hirqPend : .irqPend ∈ ps) (hbuf : .buf ∈ ps) (hkey : .key ∈ ps) (hepd : .epd ∈
    ps) (hpix : .pix ∈ ps) (hefl : .efl ∈ ps) {u : UpdSt} {pix : List (Nat × Nat)} {towardAlt : Bool} :
    Goes ps s₀ (Machine.epdBegin s u pix towardAlt) := by
  have rest : ∀ {x : State} {v : UpdSt} {b : Bool}, Goes ps s₀ x →
      Goes ps s₀ (if b then Machine.epdEnd x v else
        Machine.keyPadsChange (Machine.modE (Machine.flashSuspend x) fun e => { e with run := some v })) := fun hx =>
    .cond (hx.epdEnd hirqPend hbuf hepd hpix) (((hx.flashSuspend hefl).modE hepd).keyPadsChange hkey)
  unfold Machine.epdBegin
  extract_lets s1 s2 g s3
  have h1 : Goes ps s₀ s1 := h.modE hepd
  have h3 : Goes ps s₀ s3 := .cond (h1.modP hpix) ((h1.modP hpix).modP hpix)
  exact .cond (h1.epdRecord hirqPend hepd) (rest (h3.modP hpix))

theorem Goes.noteDue (h : Goes ps s₀ s) (hpix : .pix ∈ ps) :
    Goes ps s₀ (Machine.noteDue s) :=
  h.modP hpix

theorem Goes.updateStartOp (h : Goes ps s₀ s) (hirqPend : .irqPend ∈ ps) (hbuf : .buf ∈ ps) (hkey : .key ∈ ps) (hepd : .epd
    ∈ ps) (hpix : .pix ∈ ps) (hefl : .efl ∈ ps) :
    Goes ps s₀ (Machine.updateStartOp s) := by
  unfold Machine.updateStartOp
  dsimp only
  split
  · exact h
  · exact (Goes.cond (((h.modP hpix).modE hepd).pixSecded hbuf hpix) ((((h.modP hpix).modE hepd).pixSecded hbuf hpix).modP
    hpix)).epdBegin hirqPend hbuf hkey hepd hpix hefl

theorem Goes.toggleStartOp (h : Goes ps s₀ s) (hirqPend : .irqPend ∈ ps) (hbuf : .buf ∈ ps) (hkey : .key ∈ ps) (hepd : .epd
    ∈ ps) (hpix : .pix ∈ ps) (hefl : .efl ∈ ps) :
    Goes ps s₀ (Machine.toggleStartOp s) := by
  unfold Machine.toggleStartOp
  dsimp only
  split
  · exact h
  · exact (Goes.cond ((h.modP hpix).pixSecded hbuf hpix) (((h.modP hpix).pixSecded hbuf hpix).modP hpix)).epdBegin hirqPend
        hbuf hkey hepd hpix hefl

theorem Goes.epdRequestOp (h : Goes ps s₀ s) (hepd : .epd ∈ ps) (hpix : .pix ∈ ps) {req full : BitVec 4} :
    Goes ps s₀ (Machine.epdRequestOp s req full) :=
  h.foldl fun _ _ h => .cond (h.modE hepd) (.cond (h.modE hepd) ((h.noteDue hpix).modE hepd))

theorem Goes.epdDiscard (h : Goes ps s₀ s) (hepd : .epd ∈ ps) {m : BitVec 4} :
    Goes ps s₀ (Machine.epdDiscard s m) :=
  h.modE hepd

theorem Goes.tableLost (h : Goes ps s₀ s) (hepd : .epd ∈ ps) (hpix : .pix ∈ ps) :
    Goes ps s₀ (Machine.tableLost s) :=
  (h.modP hpix).epdDiscard hepd

theorem Goes.blinkDueOp (h : Goes ps s₀ s) (hpix : .pix ∈ ps) {k : Nat} :
    Goes ps s₀ (Machine.blinkDueOp s k) :=
  .cond ((h.whenS fun _ h => h.noteDue hpix).modP hpix) h

theorem Goes.framesBegin (h : Goes ps s₀ s) (hkey : .key ∈ ps) (hepd : .epd ∈ ps) :
    Goes ps s₀ (Machine.framesBegin s) :=
  (h.modRun hepd).keyPadsChange hkey

theorem Goes.waveReadOp (h : Goes ps s₀ s) (hkey : .key ∈ ps) (hepd : .epd ∈ ps) (hefl : .efl ∈ ps) :
    Goes ps s₀ (Machine.waveReadOp s) := by
  unfold Machine.waveReadOp
  dsimp only
  split
  · exact .cond h (.cond (((h.modRun hepd).flashResume hefl).framesBegin hkey hepd) ((h.modRun hepd).flashResume hefl))
  · exact h

theorem Goes.railSee (h : Goes ps s₀ s) (hepd : .epd ∈ ps) {mv : List Int} :
    Goes ps s₀ (Machine.railSee s mv) :=
  h.modE hepd

theorem Goes.railUpOp (h : Goes ps s₀ s) (hkey : .key ∈ ps) (hepd : .epd ∈ ps) {mv : List Int} :
    Goes ps s₀ (Machine.railUpOp s mv) := by
  unfold Machine.railUpOp
  dsimp only
  split
  · refine .cond ?_ ?_
    · split
      · exact (h.railSee hepd).modRun hepd
      · exact (h.railSee hepd).modRun hepd
      · exact (h.railSee hepd).modRun hepd
      · exact .cond (((h.railSee hepd).modRun hepd).framesBegin hkey hepd) ((h.railSee hepd).modRun hepd)
      · exact h.railSee hepd
    · exact h.railSee hepd
  · exact h.railSee hepd

theorem Goes.railUpTimeoutOp (h : Goes ps s₀ s) (hepd : .epd ∈ ps) (hefl : .efl ∈ ps) {c : RailCause} {mv : List Int} :
    Goes ps s₀ (Machine.railUpTimeoutOp s c mv) := by
  unfold Machine.railUpTimeoutOp
  dsimp only
  split
  next =>
    split
    · exact .cond (h.railSee hepd) (((h.railSee hepd).modE hepd).flashResume hefl)
    · exact h.railSee hepd
  next => exact h.railSee hepd

theorem Goes.railLostOp (h : Goes ps s₀ s) (hkey : .key ∈ ps) (hepd : .epd ∈ ps) {c : RailCause} {mv : List Int} :
    Goes ps s₀ (Machine.railLostOp s c mv) := by
  unfold Machine.railLostOp
  dsimp only
  split
  · exact .cond (((h.railSee hepd).modE hepd).keyPadsChange hkey) (h.railSee hepd)
  · exact h.railSee hepd

theorem Goes.railDownOp (h : Goes ps s₀ s) (hirqPend : .irqPend ∈ ps) (hbuf : .buf ∈ ps) (hepd : .epd ∈ ps) (hpix : .pix ∈
    ps) {mv : List Int} :
    Goes ps s₀ (Machine.railDownOp s mv) := by
  unfold Machine.railDownOp
  dsimp only
  split
  · split
    · exact (h.railSee hepd).modE hepd
    · exact (h.railSee hepd).modE hepd
    · exact (h.railSee hepd).modE hepd
    · exact (h.railSee hepd).epdEnd hirqPend hbuf hepd hpix
    · exact h.railSee hepd
  · exact h.railSee hepd

theorem Goes.runSecded (h : Goes ps s₀ s) (hbuf : .buf ∈ ps) (hepd : .epd ∈ ps) (hpix : .pix ∈ ps) :
    Goes ps s₀ (Machine.runSecded s) := by
  unfold Machine.runSecded
  dsimp only
  split
  · exact (h.modRun hepd).pixSecded hbuf hpix
  · exact h

theorem Goes.panelFrameOp (h : Goes ps s₀ s) (hbuf : .buf ∈ ps) (hkey : .key ∈ ps) (hepd : .epd ∈ ps) (hpix : .pix ∈ ps) :
    Goes ps s₀ (Machine.panelFrameOp s) := by
  unfold Machine.panelFrameOp
  dsimp only
  split
  · exact .cond ((((h.runSecded hbuf hepd hpix).keyGrant hkey).modRun hepd).whenS fun _ h => h.keyPadsChange hkey) h
  · exact h

theorem Goes.wfValidateStart (h : Goes ps s₀ s) (hpix : .pix ∈ ps) (hefl : .efl ∈ ps) {reload : Bool} :
    Goes ps s₀ (Machine.wfValidateStart s reload) := by
  unfold Machine.wfValidateStart
  dsimp only
  exact (h.whenS fun _ h => h.flashSuspend hefl).modP hpix

theorem Goes.wfValidateEnd (h : Goes ps s₀ s) (hepd : .epd ∈ ps) (hpix : .pix ∈ ps) (hefl : .efl ∈ ps) :
    Goes ps s₀ (Machine.wfValidateEnd s) :=
  .cond (.cond (.cond ((((h.modP hpix).flashResume hefl).modP hpix).tableLost hepd hpix) ((((h.modP hpix).flashResume
    hefl).modP hpix).modP hpix)) (((h.modP hpix).flashResume hefl).tableLost hepd hpix)) h

theorem Goes.wfRegionWritten (h : Goes ps s₀ s) (hepd : .epd ∈ ps) (hpix : .pix ∈ ps) :
    Goes ps s₀ (Machine.wfRegionWritten s) := by
  unfold Machine.wfRegionWritten
  dsimp only
  split
  · exact .cond ((h.modP hpix).tableLost hepd hpix) ((((h.modP hpix).tableLost hepd hpix).modRun hepd).modP hpix)
  · exact (h.modP hpix).tableLost hepd hpix

theorem Goes.epdCntclrOp (h : Goes ps s₀ s) (hepd : .epd ∈ ps) :
    Goes ps s₀ (Machine.epdCntclrOp s) :=
  h.modE hepd

theorem Goes.pixCntclrOp (h : Goes ps s₀ s) (hpix : .pix ∈ ps) :
    Goes ps s₀ (Machine.pixCntclrOp s) :=
  h.modP hpix

theorem Goes.panelCopy (h : Goes ps s₀ s) (hhold : .hold ∈ ps) :
    Goes ps s₀ (Machine.panelCopy s) :=
  h.modH hhold

theorem Goes.hookEpd (h : Goes ps s₀ s) (hhold : .hold ∈ ps) (hbuf : .buf ∈ ps) (hepd : .epd ∈ ps) (hpix : .pix ∈ ps) (hefl
    : .efl ∈ ps) {old : State} :
    Goes ps s₀ (Machine.hookEpd old s) :=
  (((((h.whenS fun _ h => h.panelCopy hhold).whenS fun _ h => h.core_buf hbuf).epdDiscard hepd).foldl fun _ _ h => h.modP
    hpix).whenS fun _ h => (h.epdDiscard hepd).modP hpix).whenS fun _ h => h.wfValidateStart hpix hefl

theorem Goes.epdRegionMoved (h : Goes ps s₀ s) (hepd : .epd ∈ ps) {r : Nat} :
    Goes ps s₀ (Machine.epdRegionMoved s r) :=
  h.epdDiscard hepd

end Rules

end Sys2Proof.Machine
end

section
/-! SUPPORT. Where the operations of EFL and of the rotating log go. -/

set_option Elab.async false

namespace Sys2Proof.Machine

section Rules

variable {ps : List Piece} {s₀ s : State}

theorem Goes.eflSubmit (h : Goes ps s₀ s) (hefl : .efl ∈ ps) {p c addr op count granule : Nat} :
    Goes ps s₀ (Machine.eflSubmit s p c addr op count granule).1 := by
  unfold Machine.eflSubmit
  dsimp only
  split
  · exact h
  · split
    · exact h
    · exact h.modCh hefl

theorem Goes.eflFinish (h : Goes ps s₀ s) (hirqPend : .irqPend ∈ ps) (hefl : .efl ∈ ps) {b c result : Nat} {warn : Bool} :
    Goes ps s₀ (Machine.eflFinish s b c result warn) :=
  (((h.modBank hefl).modCh hefl).whenS fun _ h => h.raise hirqPend).whenS fun _ h => (h.raise hirqPend).raise hirqPend

theorem Goes.opStarted (h : Goes ps s₀ s) (hefl : .efl ∈ ps) {b : Nat} :
    Goes ps s₀ (Machine.opStarted s b) :=
  h.whenS fun _ h => h.flashSuspend hefl

theorem Goes.advStart (h : Goes ps s₀ s) (hefl : .efl ∈ ps) :
    Goes ps s₀ (Machine.advStart s) :=
  (h.modLog hefl).opStarted hefl

theorem Goes.eflStartOp (h : Goes ps s₀ s) (hirqPend : .irqPend ∈ ps) (hbuf : .buf ∈ ps) (hepd : .epd ∈ ps) (hpix : .pix ∈
    ps) (hefl : .efl ∈ ps) {b : Nat} :
    Goes ps s₀ (Machine.eflStartOp s b) := by
  unfold Machine.eflStartOp
  dsimp only
  refine .cond ?_ ?_
  · exact h
  · split
    · exact h
    · exact .cond (((h.modBank hefl).modCh hefl).eflFinish hirqPend hefl) (.cond (((h.modBank hefl).modCh hefl).eflFinish
          hirqPend hefl) (.cond (((h.modBank hefl).modCh hefl).eflFinish hirqPend hefl) (((Goes.cond (((Goes.cond
          ((((h.modBank hefl).modCh hefl).modCh hefl).foldl fun _ _ h => h.bufTouch hbuf) (((h.modBank hefl).modCh
          hefl).modCh hefl)).modCh hefl).advStart hefl) (.cond (((Goes.cond ((((h.modBank hefl).modCh hefl).modCh
          hefl).foldl fun _ _ h => h.bufTouch hbuf) (((h.modBank hefl).modCh hefl).modCh hefl)).modCh hefl).modLog hefl)
          ((Goes.cond ((((h.modBank hefl).modCh hefl).modCh hefl).foldl fun _ _ h => h.bufTouch hbuf) (((h.modBank
          hefl).modCh hefl).modCh hefl)).modCh hefl))).opStarted hefl).whenS fun _ h => h.wfRegionWritten hepd hpix)))

theorem Goes.eflDeliver (hbuf : .buf ∈ ps) {p : Nat} :
    ∀ (l : List (Nat × List Byte)) {s : State} {n : Nat}, Goes ps s₀ s → Goes ps s₀ (Machine.eflDeliver s p l n).1 := by
  intro l
  induction l with
  | nil => exact fun h => h
  | cons e rest ih =>
    intro s n h
    unfold Machine.eflDeliver
    split
    · exact ih (h.granuleFill hbuf)
    · exact h

theorem Goes.eflReadDone (h : Goes ps s₀ s) (hirqPend : .irqPend ∈ ps) (hbuf : .buf ∈ ps) (hefl : .efl ∈ ps) {b c : Nat}
    {obs : EflObs} :
    Goes ps s₀ (Machine.eflReadDone s b c obs) := by
  unfold Machine.eflReadDone
  extract_lets q rows vs gran d s1
  have h1 : Goes ps s₀ s1 := by
    unfold s1 d
    split
    · exact Goes.eflDeliver hbuf _ h
    · exact h
  exact ((h1.modCh hefl).modF hefl).eflFinish hirqPend hefl

theorem Goes.marginClean (h : Goes ps s₀ s) (hflash : .flash ∈ ps) {row : Nat} {counts : List Nat} :
    Goes ps s₀ (Machine.marginClean s row counts) :=
  h.flashClean hflash

theorem Goes.eflMarginDone (h : Goes ps s₀ s) (hirqPend : .irqPend ∈ ps) (hefl : .efl ∈ ps) (hflash : .flash ∈ ps)
    {b c : Nat} {obs : EflObs} :
    Goes ps s₀ (Machine.eflMarginDone s b c obs) :=
  (((h.whenS fun _ h => h.marginClean hflash).modCh hefl).modF hefl).eflFinish hirqPend hefl

theorem Goes.programRows (h : Goes ps s₀ s) (hflash : .flash ∈ ps) {row : Nat} {chunks : List (Option (List Byte))}
    {fail : Option Nat} :
    Goes ps s₀ (Machine.programRows s row chunks fail) := by
  refine h.foldl fun _ _ h => ?_
  split
  · exact h
  · split
    · exact .cond (h.flashProgramRow hflash) (.cond (h.flashUnmark hflash) h)
    · exact h.flashProgramRow hflash

theorem Goes.eflCountFail (h : Goes ps s₀ s) (hefl : .efl ∈ ps) {result : Nat} :
    Goes ps s₀ (Machine.eflCountFail s result) :=
  h.modF hefl

theorem Goes.eflProgramDone (h : Goes ps s₀ s) (hirqPend : .irqPend ∈ ps) (hefl : .efl ∈ ps) (hflash : .flash ∈ ps)
    {b c : Nat} {obs : EflObs} :
    Goes ps s₀ (Machine.eflProgramDone s b c obs) :=
  .cond ((((h.whenS fun _ h => h.modF hefl).modCh hefl).modF hefl).eflFinish hirqPend hefl) (((h.programRows
    hflash).eflCountFail hefl).eflFinish hirqPend hefl)

theorem Goes.eraseSectors (h : Goes ps s₀ s) (hflash : .flash ∈ ps) {k n : Nat} {fail : Bool} :
    Goes ps s₀ (Machine.eraseSectors s k n fail) :=
  .cond ((h.flashErase hflash).flashUndef hflash) (h.flashErase hflash)

theorem Goes.eflEraseDone (h : Goes ps s₀ s) (hirqPend : .irqPend ∈ ps) (hefl : .efl ∈ ps) (hflash : .flash ∈ ps)
    {b c : Nat} {obs : EflObs} :
    Goes ps s₀ (Machine.eflEraseDone s b c obs) :=
  (((h.eraseSectors hflash).whenS fun _ h => h.modLog hefl).eflCountFail hefl).eflFinish hirqPend hefl

theorem Goes.eflFormatDone (h : Goes ps s₀ s) (hirqPend : .irqPend ∈ ps) (hefl : .efl ∈ ps) (hflash : .flash ∈ ps)
    {b : Nat} {obs : EflObs} :
    Goes ps s₀ (Machine.eflFormatDone s b obs) :=
  (((h.eraseSectors hflash).modLog hefl).eflCountFail hefl).eflFinish hirqPend hefl

theorem Goes.eflDoneOp (h : Goes ps s₀ s) (hirqPend : .irqPend ∈ ps) (hbuf : .buf ∈ ps) (hefl : .efl ∈ ps) (hflash : .flash
    ∈ ps) {b : Nat} {obs : EflObs} :
    Goes ps s₀ (Machine.eflDoneOp s b obs) := by
  unfold Machine.eflDoneOp
  split
  · exact h
  · refine .cond ?_ ?_
    · exact h
    · split
      · exact h.eflReadDone hirqPend hbuf hefl
      · exact h.eflProgramDone hirqPend hefl hflash
      · exact h.eflEraseDone hirqPend hefl hflash
      · exact h.eflReadDone hirqPend hbuf hefl
      · exact h.eflMarginDone hirqPend hefl hflash
      · exact h.eflMarginDone hirqPend hefl hflash
      · exact h.eflFormatDone hirqPend hefl hflash
      · exact h

theorem Goes.logAdvanceOp (h : Goes ps s₀ s) (hefl : .efl ∈ ps) :
    Goes ps s₀ (Machine.logAdvanceOp s) :=
  .cond (h.advStart hefl) h

theorem Goes.advFail (h : Goes ps s₀ s) (hirqPend : .irqPend ∈ ps) (hefl : .efl ∈ ps) {result : Nat} :
    Goes ps s₀ (Machine.advFail s result) := by
  unfold Machine.advFail
  dsimp only
  split
  · exact ((h.modLog hefl).eflCountFail hefl).eflFinish hirqPend hefl
  · exact (h.modLog hefl).eflCountFail hefl

theorem Goes.advNext (h : Goes ps s₀ s) (hefl : .efl ∈ ps) {ph : AdvPhase} :
    Goes ps s₀ (Machine.advNext s ph) :=
  h.modLog hefl

theorem Goes.advTry (h : Goes ps s₀ s) (hefl : .efl ∈ ps) :
    Goes ps s₀ (Machine.advTry s) :=
  .cond ((h.modLog hefl).opStarted hefl) h

theorem Goes.gapCheck (h : Goes ps s₀ s) (hirqPend : .irqPend ∈ ps) (hflash : .flash ∈ ps) {obs : EflObs} :
    Goes ps s₀ (Machine.gapCheck s obs) :=
  .cond ((h.eraseSectors hflash).raise hirqPend) (h.marginClean hflash)

theorem Goes.advEnd (h : Goes ps s₀ s) (hirqPend : .irqPend ∈ ps) (hefl : .efl ∈ ps) :
    Goes ps s₀ (Machine.advEnd s) := by
  unfold Machine.advEnd
  dsimp only
  split
  · exact (h.modLog hefl).eflFinish hirqPend hefl
  · exact h.modLog hefl

theorem Goes.advPhaseOp (h : Goes ps s₀ s) (hirqPend : .irqPend ∈ ps) (hefl : .efl ∈ ps) (hflash : .flash ∈ ps)
    {obs : EflObs} :
    Goes ps s₀ (Machine.advPhaseOp s obs) := by
  unfold Machine.advPhaseOp
  dsimp only
  refine .cond ?_ ?_
  · exact h
  · split
    · exact h
    · exact .cond ((h.gapCheck hirqPend hflash).advFail hirqPend hefl) ((h.gapCheck hirqPend hflash).advNext hefl)
    · exact .cond ((h.eraseSectors hflash).advFail hirqPend hefl) ((h.eraseSectors hflash).advNext hefl)
    · exact .cond ((h.programRows hflash).advFail hirqPend hefl) (((h.programRows hflash).modLog hefl).advNext hefl)
    · exact .cond ((h.flashUnmark hflash).advFail hirqPend hefl) (((h.flashProgramRow hflash).modLog hefl).advNext hefl)
    · exact .cond ((h.eraseSectors hflash).advFail hirqPend hefl) (.cond ((h.eraseSectors hflash).advNext hefl)
          ((h.eraseSectors hflash).advEnd hirqPend hefl))
    · exact .cond ((h.eraseSectors hflash).advFail hirqPend hefl) ((h.eraseSectors hflash).advEnd hirqPend hefl)

theorem Goes.logAdopt (h : Goes ps s₀ s) (hefl : .efl ∈ ps) :
    Goes ps s₀ (Machine.logAdopt s) := by
  unfold Machine.logAdopt
  dsimp only
  refine .cond h ?_
  split
  · exact h.modLog hefl
  · exact .cond (h.modLog hefl) (h.modLog hefl)

theorem Goes.logRecoveryOp (h : Goes ps s₀ s) (hirqPend : .irqPend ∈ ps) (hefl : .efl ∈ ps) (hflash : .flash ∈ ps)
    {obs : EflObs} :
    Goes ps s₀ (Machine.logRecoveryOp s obs) :=
  .cond (((Goes.cond ((h.gapCheck hirqPend hflash).eraseSectors hflash) (h.gapCheck hirqPend hflash)).whenS fun _ h =>
    h.eflCountFail hefl).modLog hefl) h

theorem Goes.eflDiscard (h : Goes ps s₀ s) (hirqPend : .irqPend ∈ ps) (hefl : .efl ∈ ps) {c : Nat} {quiet : Bool} :
    Goes ps s₀ (Machine.eflDiscard s c quiet) :=
  .cond ((h.modCh hefl).whenS fun _ h => h.raise hirqPend) h

theorem Goes.eflPartReset (h : Goes ps s₀ s) (hirqPend : .irqPend ∈ ps) (hefl : .efl ∈ ps) {p : Nat} :
    Goes ps s₀ (Machine.eflPartReset s p) :=
  h.foldl fun _ _ h => .cond h (.cond (h.eflDiscard hirqPend hefl) (.cond (h.modCh hefl) h))

theorem Goes.programCut (h : Goes ps s₀ s) (hflash : .flash ∈ ps) {key row : Nat} {chunks : List (Option (List Byte))} :
    Goes ps s₀ (Machine.programCut s key row chunks) := by
  unfold Machine.programCut
  dsimp only
  split
  · exact .cond ((h.programRows hflash).flashUndef hflash) (h.programRows hflash)
  · exact h.programRows hflash

theorem Goes.eflInterrupt (h : Goes ps s₀ s) (hflash : .flash ∈ ps) :
    Goes ps s₀ (Machine.eflInterrupt s) := by
  unfold Machine.eflInterrupt
  extract_lets s1 l sector sec
  have h1 : Goes ps s₀ s1 := h.foldl fun _ _ h => by
    split
    · exact .cond (h.programCut hflash) (.cond (h.flashUndef hflash) (.cond (h.flashUndef hflash) h))
    · exact h
  refine .cond h1 ?_
  split
  · exact h1
  · exact h1.flashUndef hflash
  · exact h1.flashUndef hflash
  · exact h1.programCut hflash
  · exact h1.flashUndef hflash
  · exact h1.flashUndef hflash
  · exact h1.flashUndef hflash

theorem Goes.eflCntclrOp (h : Goes ps s₀ s) (hefl : .efl ∈ ps) :
    Goes ps s₀ (Machine.eflCntclrOp s) :=
  h.modF hefl

theorem Goes.layoutApply (h : Goes ps s₀ s) (hefl : .efl ∈ ps) {bs : List Byte} :
    Goes ps s₀ (Machine.layoutApply s bs) := by
  unfold Machine.layoutApply
  dsimp only
  exact h.modF hefl

end Rules

end Sys2Proof.Machine
end

section
/-! SUPPORT. Where the operations of THM, FLW and GNG go. -/

set_option Elab.async false

namespace Sys2Proof.Machine

section Rules

variable {ps : List Piece} {s₀ s : State}

theorem Goes.thmDeliver (h : Goes ps s₀ s) (hcapo : .capo ∈ ps) (hirqPend : .irqPend ∈ ps) (hthm : .thm ∈ ps)
    {sens : List SenSt} (hsens : sens.length = s.core.thm.sens.length) :
    Goes ps s₀ (Machine.thmDeliver s sens) :=
  (((h.core_thm hthm hsens).whenS fun _ h => h.raiseAll hirqPend).whenS fun _ h => h.capoFault hcapo).whenS fun _ h => h.raiseAll
    hirqPend

theorem Goes.thmSampleOp (h : Goes ps s₀ s) (hcapo : .capo ∈ ps) (hirqPend : .irqPend ∈ ps) (hthm : .thm ∈ ps)
    {uv : List Nat} {die : Int} :
    Goes ps s₀ (Machine.thmSampleOp s uv die) := by
  unfold Machine.thmSampleOp
  dsimp only
  exact (h.thmDeliver hcapo hirqPend hthm (by simp)).core_thm hthm

theorem Goes.thmParity (h : Goes ps s₀ s) (hcapo : .capo ∈ ps) (hirqPend : .irqPend ∈ ps) (hthm : .thm ∈ ps) :
    Goes ps s₀ (Machine.thmParity s) :=
  h.thmDeliver hcapo hirqPend hthm (by simp)

theorem Goes.thmCntclrOp (h : Goes ps s₀ s) (hthm : .thm ∈ ps) :
    Goes ps s₀ (Machine.thmCntclrOp s) :=
  h.core_thm hthm

theorem Goes.hookThm (h : Goes ps s₀ s) {_old : State} :
    Goes ps s₀ (Machine.hookThm _old s) :=
  h

theorem Goes.flowStallOp (h : Goes ps s₀ s) (hcapo : .capo ∈ ps) (hirqPend : .irqPend ∈ ps) (hflw : .flw ∈ ps) {n : Nat} :
    Goes ps s₀ (Machine.flowStallOp s n) :=
  ((h.modDrive hflw).raiseOwner0 hirqPend).capoFault hcapo

theorem Goes.learnOp (h : Goes ps s₀ s) (hregs : .regs ∈ ps) (hflw : .flw ∈ ps) {n b : Nat} :
    Goes ps s₀ (Machine.learnOp s n b) :=
  (h.setRF hregs).modAge hflw

theorem Goes.steadyOp (h : Goes ps s₀ s) (hregs : .regs ∈ ps) (hirqPend : .irqPend ∈ ps) (hflw : .flw ∈ ps) {n : Nat} :
    Goes ps s₀ (Machine.steadyOp s n) :=
  ((((h.setRF hregs).modAge hflw).whenS fun _ h => h.learnOp hregs hflw).whenS fun _ h => h.raiseOwner0 hirqPend).whenS fun
    _ h => h.modAge hflw

theorem Goes.flowChannel (h : Goes ps s₀ s) (hregs : .regs ∈ ps) (hcapo : .capo ∈ ps) (hirqPend : .irqPend ∈ ps) (hflw :
    .flw ∈ ps) {nowUs n : Nat} :
    Goes ps s₀ (Machine.flowChannel s nowUs n) := by
  unfold Machine.flowChannel
  extract_lets d0 first u0 ppr cont d1 cause src back crossed d2 dem loop hard fsReq fsR lp req u integ stallTick d3 s1 s2 s3 s4
    g err steady s5 s6 v0 v1 num code
  have h4 : Goes ps s₀ s4 := (((h.modDrive hflw).whenS fun _ h => h.modFsw hflw).whenS fun _ h =>
    h.raiseOwner0 hirqPend).whenS fun _ h => h.flowStallOp hcapo hirqPend hflw
  have h6 : Goes ps s₀ s6 := (h4.modAge hflw fun g hg => by split <;> exact hg).whenS fun _ h => h.steadyOp hregs hirqPend hflw
  exact .cond h6 (h6.core_flw hflw)

theorem Goes.flowTickOp (h : Goes ps s₀ s) (hregs : .regs ∈ ps) (hcapo : .capo ∈ ps) (hirqPend : .irqPend ∈ ps) (hflw :
    .flw ∈ ps) {nowUs : Nat} :
    Goes ps s₀ (Machine.flowTickOp s nowUs) :=
  h.foldl fun _ _ h => h.flowChannel hregs hcapo hirqPend hflw

theorem Goes.tachEdgeOp (h : Goes ps s₀ s) (hflw : .flw ∈ ps) {n us : Nat} :
    Goes ps s₀ (Machine.tachEdgeOp s n us) :=
  .cond (h.modDrive hflw) (.cond ((h.modFsw hflw).modDrive hflw) h)

theorem Goes.stretchEndOp (h : Goes ps s₀ s) (hflw : .flw ∈ ps) {n : Nat} :
    Goes ps s₀ (Machine.stretchEndOp s n) :=
  .cond h ((h.modDrive hflw).modFsw hflw)

theorem Goes.fswPeriodOp (h : Goes ps s₀ s) (hflw : .flw ∈ ps) {n us : Nat} :
    Goes ps s₀ (Machine.fswPeriodOp s n us) :=
  h.modFsw hflw

theorem Goes.hookFlw (h : Goes ps s₀ s) (hregs : .regs ∈ ps) (hflw : .flw ∈ ps) {old : State} :
    Goes ps s₀ (Machine.hookFlw old s) :=
  h.foldl fun _ _ h => ((h.whenS fun _ h => h.modFsw hflw).whenS fun _ h => h.modDrive hflw).whenS fun _ h => (h.modAge
    hflw).foldl fun _ _ h => h.setRF hregs

theorem Goes.flwCntclrOp (h : Goes ps s₀ s) (hflw : .flw ∈ ps) :
    Goes ps s₀ (Machine.flwCntclrOp s) :=
  h.core_flw hflw

theorem Goes.ageWritten (h : Goes ps s₀ s) (hflw : .flw ∈ ps) {n b : Nat} :
    Goes ps s₀ (Machine.ageWritten s n b) :=
  h.modAge hflw

theorem Goes.stallCleared (h : Goes ps s₀ s) (hflw : .flw ∈ ps) {n : Nat} :
    Goes ps s₀ (Machine.stallCleared s n) :=
  h.modDrive hflw

theorem Goes.gangJudge (h : Goes ps s₀ s) (hirqPend : .irqPend ∈ ps) (hgng : .gng ∈ ps) :
    Goes ps s₀ (Machine.gangJudge s) :=
  .cond (.cond (h.modG hgng) h) (((Goes.cond (h.modG hgng) h).modG hgng).raiseAll hirqPend)

theorem Goes.electKeystone (h : Goes ps s₀ s) (hgng : .gng ∈ ps) :
    Goes ps s₀ (Machine.electKeystone s) := by
  unfold Machine.electKeystone
  dsimp only
  exact h.modG hgng

theorem Goes.setMemStatus (h : Goes ps s₀ s) (hirqPend : .irqPend ∈ ps) (hgng : .gng ∈ ps) {m st : Nat} :
    Goes ps s₀ (Machine.setMemStatus s m st) :=
  .cond h ((Goes.cond (((h.modMem hgng).electKeystone hgng).modG hgng) ((h.modMem hgng).electKeystone hgng)).raiseAll
    hirqPend)

theorem Goes.setMismatch (h : Goes ps s₀ s) (hirqPend : .irqPend ∈ ps) (hgng : .gng ∈ ps) {m f : Nat} :
    Goes ps s₀ (Machine.setMismatch s m f) :=
  .cond (h.modG hgng) ((h.modG hgng).raiseAll hirqPend)

theorem Goes.gangHeard (h : Goes ps s₀ s) (hirqPend : .irqPend ∈ ps) (hgng : .gng ∈ ps) {src : Option Nat} :
    Goes ps s₀ (Machine.gangHeard s src) := by
  unfold Machine.gangHeard
  dsimp only
  split
  · exact h.modG hgng
  · exact .cond ((Goes.cond (((((h.modG hgng).modG hgng).setMismatch hirqPend hgng).electKeystone hgng).raiseAll hirqPend)
        ((((h.modG hgng).modG hgng).setMismatch hirqPend hgng).electKeystone hgng)).gangJudge hirqPend hgng) ((h.modG
        hgng).modMem hgng)

theorem Goes.gangRx (h : Goes ps s₀ s) (hirqPend : .irqPend ∈ ps) (hgng : .gng ∈ ps) {dest : BitVec 4} {src : Option Nat}
    {act : State → State} (hact : ∀ x, Goes ps s₀ x → Goes ps s₀ (act x)) : Goes ps s₀ (Machine.gangRx s dest src act) :=
  .cond (.cond (hact _ (h.gangHeard hirqPend hgng)) (h.gangHeard hirqPend hgng)) h

theorem Goes.gangCapoOp (h : Goes ps s₀ s) (hcapo : .capo ∈ ps) (hirqPend : .irqPend ∈ ps) (hgng : .gng ∈ ps)
    {dest : BitVec 4} :
    Goes ps s₀ (Machine.gangCapoOp s dest) := h.gangRx hirqPend hgng fun _ h => .cond (h.capoTrigger hcapo) h

theorem Goes.gangStateOp (h : Goes ps s₀ s) (hirqPend : .irqPend ∈ ps) (hgng : .gng ∈ ps) {dest : BitVec 4} {src : Nat}
    {vote flags : Byte} :
    Goes ps s₀ (Machine.gangStateOp s dest src vote flags) := h.gangRx hirqPend hgng fun _ h => (Goes.cond (h.modMem hgng) h).gangJudge hirqPend hgng

theorem Goes.gangRpgOp (h : Goes ps s₀ s) (hirqPend : .irqPend ∈ ps) (hgng : .gng ∈ ps) {dest : BitVec 4} {src : Nat}
    {rpg : Byte} :
    Goes ps s₀ (Machine.gangRpgOp s dest src rpg) := h.gangRx hirqPend hgng fun _ h => .cond (h.modMem hgng) h

theorem Goes.alarmFlags (h : Goes ps s₀ s) (haon : .aon ∈ ps) :
    Goes ps s₀ (Machine.alarmFlags s) :=
  h.setA haon

theorem Goes.stepTime (h : Goes ps s₀ s) (haon : .aon ∈ ps) (hirqPend : .irqPend ∈ ps) (hgng : .gng ∈ ps) {d : Int} :
    Goes ps s₀ (Machine.stepTime s d) :=
  .cond ((Goes.cond ((((h.modA haon).modG hgng).modG hgng).raiseAll hirqPend) ((h.modA haon).modG hgng)).alarmFlags haon)
    (.cond ((((h.modA haon).modG hgng).modG hgng).raiseAll hirqPend) ((h.modA haon).modG hgng))

theorem Goes.gangTimeOp (h : Goes ps s₀ s) (haon : .aon ∈ ps) (hirqPend : .irqPend ∈ ps) (hgng : .gng ∈ ps)
    {dest : BitVec 4} {src ticks since : Nat} :
    Goes ps s₀ (Machine.gangTimeOp s dest src ticks since) := h.gangRx hirqPend hgng fun _ h => .cond (.cond (h.stepTime haon hirqPend hgng) h) h

theorem Goes.gangHelloOp (h : Goes ps s₀ s) (hirqPend : .irqPend ∈ ps) (hgng : .gng ∈ ps) {dest : BitVec 4} {src : Nat}
    {devHi devLo format members : Byte} {digest : Word} :
    Goes ps s₀ (Machine.gangHelloOp s dest src devHi devLo format members digest) := by
  unfold Machine.gangHelloOp
  extract_lets owes
  refine h.gangRx hirqPend hgng fun x h => ?_
  extract_lets s1 s2 f s3 s4
  have h1 : Goes ps s₀ s1 := .cond (h.modG hgng) h
  have h2 : Goes ps s₀ s2 := h1.modMem hgng
  have h3 : Goes ps s₀ s3 := .cond (h2.setMismatch hirqPend hgng) (.cond (h2.setMismatch hirqPend hgng) h2)
  exact (Goes.cond h1 (.cond (h3.setMemStatus hirqPend hgng) h3)).gangJudge hirqPend hgng

theorem Goes.keyfwdOp (h : Goes ps s₀ s) (hirqPend : .irqPend ∈ ps) (hkey : .key ∈ ps) (hgng : .gng ∈ ps) {dest : BitVec 4}
    {src : Nat} {group typ subject flags : Byte} {ticks : BitVec 48} :
    Goes ps s₀ (Machine.keyfwdOp s dest src group typ subject flags ticks) := h.gangRx hirqPend hgng fun _ h => .cond (h.fifoPost hirqPend hkey) h

theorem Goes.gangDropOp (h : Goes ps s₀ s) (hgng : .gng ∈ ps) :
    Goes ps s₀ (Machine.gangDropOp s) :=
  .cond (h.modG hgng) h

theorem Goes.memberLossOp (h : Goes ps s₀ s) (hirqPend : .irqPend ∈ ps) (hgng : .gng ∈ ps) {m : Nat} :
    Goes ps s₀ (Machine.memberLossOp s m) :=
  .cond (((h.setMemStatus hirqPend hgng).modG hgng).gangJudge hirqPend hgng) h

theorem Goes.dupClearOp (h : Goes ps s₀ s) (hirqPend : .irqPend ∈ ps) (hgng : .gng ∈ ps) :
    Goes ps s₀ (Machine.dupClearOp s) :=
  .cond ((Goes.cond (((Goes.cond ((h.modG hgng).setMismatch hirqPend hgng) (h.modG hgng)).electKeystone hgng).raiseAll
    hirqPend) ((Goes.cond ((h.modG hgng).setMismatch hirqPend hgng) (h.modG hgng)).electKeystone hgng)).gangJudge hirqPend
    hgng) h

theorem Goes.selfHello (h : Goes ps s₀ s) (hirqPend : .irqPend ∈ ps) (hgng : .gng ∈ ps) :
    Goes ps s₀ (Machine.selfHello s) :=
  .cond (h.modG hgng) (((h.modG hgng).electKeystone hgng).raiseAll hirqPend)

/-- An event taken for forwarding is no member. -/
@[simp] theorem mems_foldl_fwdTake (l : List (Nat × Nat × Nat × Nat × Nat)) (g : GngSt) : (l.foldl fwdTake g).mems = g.mems :=
  List.foldlRecOn l fwdTake (motive := fun x => x.mems = g.mems) rfl fun x hx _ _ => by
    unfold fwdTake
    split <;> exact hx

theorem Goes.gangPass (h : Goes ps s₀ s) (hkey : .key ∈ ps) (hgng : .gng ∈ ps) :
    Goes ps s₀ (Machine.gangPass s) :=
  .cond (((h.modG hgng).modG hgng).modK hkey) (h.modG hgng)

theorem Goes.busStuckOp (h : Goes ps s₀ s) (hgng : .gng ∈ ps) :
    Goes ps s₀ (Machine.busStuckOp s) :=
  .cond (h.modG hgng) h

theorem Goes.statePeriodOp (h : Goes ps s₀ s) (hgng : .gng ∈ ps) :
    Goes ps s₀ (Machine.statePeriodOp s) :=
  .cond (h.modG hgng) h

theorem Goes.helloPeriodOp (h : Goes ps s₀ s) (hgng : .gng ∈ ps) :
    Goes ps s₀ (Machine.helloPeriodOp s) :=
  .cond (h.modG hgng) h

theorem Goes.timePeriodOp (h : Goes ps s₀ s) (hgng : .gng ∈ ps) :
    Goes ps s₀ (Machine.timePeriodOp s) :=
  .cond (h.modG hgng) h

theorem Goes.gangTransmitOp (h : Goes ps s₀ s) (hirqPend : .irqPend ∈ ps) (hkey : .key ∈ ps) (hgng : .gng ∈ ps)
    {wins : Bool} :
    Goes ps s₀ (Machine.gangTransmitOp s wins) := by
  unfold Machine.gangTransmitOp
  split
  · exact h
  · refine .cond h (.cond (h.modG hgng) (Goes.gangPass ?_ hkey hgng))
    extract_lets bs ev rpg s1
    have h1 : Goes ps s₀ s1 := h.modG hgng
    split
    · exact h1.modG hgng
    · exact ((h1.modG hgng).modMem hgng).gangJudge hirqPend hgng
    · exact h1.modG hgng
    · exact h1.modG hgng
    · exact ((h1.modG hgng).selfHello hirqPend hgng).gangJudge hirqPend hgng
    · exact h1.modG hgng

theorem Goes.gangRestart (h : Goes ps s₀ s) (hirqPend : .irqPend ∈ ps) (hgng : .gng ∈ ps) :
    Goes ps s₀ (Machine.gangRestart s) :=
  .cond (.cond ((h.modG hgng).setMismatch hirqPend hgng) (h.modG hgng)) (((Goes.cond ((h.modG hgng).setMismatch hirqPend
    hgng) (h.modG hgng)).modG hgng).raiseAll hirqPend)

theorem Goes.hookGng (h : Goes ps s₀ s) (hirqPend : .irqPend ∈ ps) (hgng : .gng ∈ ps) {old : State} :
    Goes ps s₀ (Machine.hookGng old s) :=
  .cond h (h.gangRestart hirqPend hgng)

theorem Goes.voteWritten (h : Goes ps s₀ s) (hirqPend : .irqPend ∈ ps) (hgng : .gng ∈ ps) {old : State} :
    Goes ps s₀ (Machine.voteWritten old s) :=
  .cond h (h.gangJudge hirqPend hgng)

theorem Goes.gngCntclrOp (h : Goes ps s₀ s) (hgng : .gng ∈ ps) :
    Goes ps s₀ (Machine.gngCntclrOp s) :=
  h.modG hgng

theorem Goes.gangSettle (h : Goes ps s₀ s) (hgng : .gng ∈ ps) {capoTaken : Bool} :
    Goes ps s₀ (Machine.gangSettle s capoTaken) := by
  unfold Machine.gangSettle
  dsimp only
  exact h.modG hgng

end Rules

end Sys2Proof.Machine
end

section
/-! SUPPORT. Where the operations of NFC go. -/

set_option Elab.async false

namespace Sys2Proof.Machine

section Rules

variable {ps : List Piece} {s₀ s : State}

theorem Goes.sendTo (h : Goes ps s₀ s) (hnfc : .nfc ∈ ps) {c ce : Nat} {cy : List NandCycle} :
    Goes ps s₀ (Machine.sendTo s c ce cy) :=
  .cond h (h.modChan hnfc)

theorem Goes.sendLun (h : Goes ps s₀ s) (hnfc : .nfc ∈ ps) {l : Nat} {cy : List NandCycle} :
    Goes ps s₀ (Machine.sendLun s l cy) :=
  h.sendTo hnfc

theorem Goes.applyEntry (h : Goes ps s₀ s) (hnfc : .nfc ∈ ps) {l k : Nat} :
    Goes ps s₀ (Machine.applyEntry s l k) :=
  (h.sendLun hnfc).modLun hnfc

theorem Goes.applyHome (h : Goes ps s₀ s) (hnfc : .nfc ∈ ps) {l : Nat} :
    Goes ps s₀ (Machine.applyHome s l) :=
  .cond h (h.applyEntry hnfc)

theorem Goes.modFl (h : Goes ps s₀ s) (hnfc : .nfc ∈ ps) {num : Nat} {f : Flight → Flight} :
    Goes ps s₀ (Machine.modFl s num f) :=
  h.modN hnfc

/-- What each element satisfies, one element changed that is in place. -/
theorem forall_mem_upd_nth {α : Type} {p : α → Prop} {d : α} {l : List α} {i : Nat} {f : α → α} (hf : p (f (nth l i d)))
    (h : ∀ a ∈ l, p a) : ∀ a ∈ upd l i f, p a := by
  induction l generalizing i with
  | nil => exact fun a ha => absurd ha List.not_mem_nil
  | cons b l ih =>
    have hl : ∀ a ∈ l, p a := fun a ha => h a (List.mem_cons_of_mem _ ha)
    cases i with
    | zero => exact List.forall_mem_cons.mpr ⟨hf, hl⟩
    | succ i => exact List.forall_mem_cons.mpr ⟨h b List.mem_cons_self, ih hf hl⟩

theorem Goes.postOne (h : Goes ps s₀ s) (hirqPend : .irqPend ∈ ps) (hbuf : .buf ∈ ps) (hnfc : .nfc ∈ ps) {f : Flight}
    (hroom : (nth s.core.nfc.wins f.issuer.val {}).count < 256) : Goes ps s₀ (Machine.postOne s f) := by
  unfold Machine.postOne
  extract_lets p w s1 s2 s3
  have h2 : Goes ps s₀ s2 := (h.bufStore hbuf).modN hnfc rfl rfl (length_upd _ _ _) rfl
    (forall_mem_upd_nth (d := {}) (Nat.succ_le_of_lt (by rwa [show (Machine.bufStore s _ _).core.nfc = s.core.nfc from
      ((Goes.refl [.buf] s).bufStore (by decide)).same .nfc (by decide)])))
  exact (h2.modN hnfc).raise hirqPend

theorem Goes.postAll (h : Goes ps s₀ s) (hirqPend : .irqPend ∈ ps) (hbuf : .buf ∈ ps) (hnfc : .nfc ∈ ps) :
    Goes ps s₀ (Machine.postAll s) := by
  unfold Machine.postAll
  extract_lets new s1
  refine Goes.foldl (h.modN hnfc) fun x n h => ?_
  split
  · exact .ite (h.postOne hirqPend hbuf hnfc) fun _ => h
  · exact h

theorem Goes.endFlight (h : Goes ps s₀ s) (hnfc : .nfc ∈ ps) {num status : Nat} :
    Goes ps s₀ (Machine.endFlight s num status) := by
  unfold Machine.endFlight
  dsimp only
  split
  · exact h
  · exact .cond (h.modN hnfc) ((h.modFl hnfc).modN hnfc)

theorem Goes.endAll (h : Goes ps s₀ s) (hnfc : .nfc ∈ ps) {es : List (Nat × Nat)} :
    Goes ps s₀ (Machine.endAll s es) :=
  h.foldl fun _ _ h => h.endFlight hnfc

theorem Goes.discardFlights (h : Goes ps s₀ s) (hnfc : .nfc ∈ ps) {t : Flight → Bool} :
    Goes ps s₀ (Machine.discardFlights s t) :=
  h.endAll hnfc

theorem Goes.lunIdle (h : Goes ps s₀ s) (hnfc : .nfc ∈ ps) {l : Nat} :
    Goes ps s₀ (Machine.lunIdle s l) :=
  (h.modLun hnfc).modChan hnfc

theorem Goes.lunResetOp (h : Goes ps s₀ s) (hnfc : .nfc ∈ ps) {l : Nat} {keep : List Nat} :
    Goes ps s₀ (Machine.lunResetOp s l keep) :=
  ((((h.sendLun hnfc).foldl fun _ _ h => (h.lunIdle hnfc).modLun hnfc).modN hnfc).modChan hnfc).discardFlights hnfc

theorem Goes.initGo (h : Goes ps s₀ s) (hnfc : .nfc ∈ ps) {c e : Nat} :
    Goes ps s₀ (Machine.initGo s c e) := by
  unfold Machine.initGo
  refine Goes.modChan ?_ hnfc
  split
  · exact h.sendTo hnfc
  · exact h

theorem Goes.channelFaultOp (h : Goes ps s₀ s) (hcapo : .capo ∈ ps) (hirqPend : .irqPend ∈ ps) (hnfc : .nfc ∈ ps) {c : Nat}
    {failed : Option Nat} :
    Goes ps s₀ (Machine.channelFaultOp s c failed) :=
  ((((((h.endAll hnfc).foldl fun _ _ h => (h.lunIdle hnfc).modLun hnfc).modN hnfc).modChan hnfc).raiseAll
    hirqPend).capoFault hcapo).whenS fun _ h => h.initGo hnfc

theorem Goes.bankClassOp (h : Goes ps s₀ s) (hcapo : .capo ∈ ps) (hirqPend : .irqPend ∈ ps) (hnfc : .nfc ∈ ps) {c mv : Nat} :
    Goes ps s₀ (Machine.bankClassOp s c mv) :=
  .cond (h.modChan hnfc) (.cond (((h.modChan hnfc).foldl fun _ _ h => h.modLun hnfc).modChan hnfc) ((h.modChan
    hnfc).channelFaultOp hcapo hirqPend hnfc))

theorem Goes.lunOut (h : Goes ps s₀ s) (hnfc : .nfc ∈ ps) {l st : Nat} :
    Goes ps s₀ (Machine.lunOut s l st) :=
  h.modLun hnfc

theorem Goes.initPhaseOp (h : Goes ps s₀ s) (hnfc : .nfc ∈ ps) {c : Nat} {obs : InitObs} :
    Goes ps s₀ (Machine.initPhaseOp s c obs) := by
  unfold Machine.initPhaseOp
  dsimp only
  split
  · exact h.initGo hnfc
  · exact (h.sendTo hnfc).modChan hnfc
  · exact .cond (((h.foldl fun _ _ h => h.modLun hnfc).sendTo hnfc).modChan hnfc) (((h.foldl fun _ _ h => h.lunOut
        hnfc).modChan hnfc).initGo hnfc)
  · split
    · exact (h.foldl fun _ _ h => h.lunOut hnfc).initGo hnfc
    · exact (h.foldl fun _ _ h => h.modLun hnfc).modChan hnfc
  · refine (h.foldl fun x l h => ?_).initGo hnfc
    refine .cond (h.lunOut hnfc) (.cond ((h.modLun hnfc).lunOut hnfc) ?_)
    split
    · exact .cond h ((h.modLun hnfc).lunOut hnfc)
    · exact h.modLun hnfc
  · exact h

theorem Goes.modeSend (h : Goes ps s₀ s) (hnfc : .nfc ∈ ps) {c : Nat} {ok : Bool} :
    Goes ps s₀ (Machine.modeSend s c ok) := by
  have hreset : ∀ (l : List Nat) x, Goes ps s₀ x → Goes ps s₀ (l.foldl (fun s e => Machine.sendTo s c e [.cmd 0xFF]) x) :=
    fun l x h => h.foldl fun _ _ h => h.sendTo hnfc
  have heach : ∀ (l : List Nat) cy x, Goes ps s₀ x → Goes ps s₀ (l.foldl (fun s l => Machine.sendLun s l cy) x) :=
    fun l cy x h => h.foldl fun _ _ h => h.sendLun hnfc
  exact Goes.whenS (heach _ _ _ (heach _ _ _ ((h.whenS (hreset _)).whenS fun x h => heach _ _ x h))) (hreset _)

theorem Goes.modeChangeOp (h : Goes ps s₀ s) (hirqPend : .irqPend ∈ ps) (hnfc : .nfc ∈ ps) {c : Nat} {ok : Bool} :
    Goes ps s₀ (Machine.modeChangeOp s c ok) :=
  .cond h (((((h.modeSend hnfc).modChan hnfc).whenS fun _ h => (h.modN hnfc).raiseAll hirqPend).foldl fun _ _ h =>
    (h.applyHome hnfc).modLun hnfc).endAll hnfc)

theorem Goes.contendUpdate (h : Goes ps s₀ s) (hnfc : .nfc ∈ ps) {l : Nat} :
    Goes ps s₀ (Machine.contendUpdate s l) :=
  .cond h (h.modLun hnfc)

theorem Goes.chooseLun (h : Goes ps s₀ s) (hnfc : .nfc ∈ ps) {l : Nat} :
    Goes ps s₀ (Machine.chooseLun s l).2 := by
  unfold Machine.chooseLun
  dsimp only
  split
  · exact h.contendUpdate hnfc
  · exact (h.contendUpdate hnfc).modLun hnfc

theorem Goes.rawAdvance (h : Goes ps s₀ s) (hnfc : .nfc ∈ ps) {l : Nat} {r : RunSt} :
    Goes ps s₀ (Machine.rawAdvance s l r).2 := h.sendLun hnfc

theorem Goes.runStart (h : Goes ps s₀ s) (hnfc : .nfc ∈ ps) {l : Nat} {r : RunSt} :
    Goes ps s₀ (Machine.runStart s l r) := by
  unfold Machine.runStart
  dsimp only
  split
  · exact h
  · exact .cond ((Goes.cond h (h.applyEntry hnfc)).sendLun hnfc) (.cond (h.sendLun hnfc) (.cond (.cond h ((h.rawAdvance
      hnfc).modLun hnfc)) (.cond (h.sendLun hnfc) (.cond h (h.sendLun hnfc)))))

theorem Goes.dispatchRun (h : Goes ps s₀ s) (hbuf : .buf ∈ ps) (hnfc : .nfc ∈ ps) {l : Nat} {f : Flight} {prog : Bool} :
    Goes ps s₀ (Machine.dispatchRun s l f prog).2 := h.foldl fun _ _ h => (h.foldl fun _ _ h => h.bufTouch hbuf).modFl hnfc

theorem Goes.chooseRun (h : Goes ps s₀ s) (hbuf : .buf ∈ ps) (hnfc : .nfc ∈ ps) {l : Nat} :
    Goes ps s₀ (Machine.chooseRun s l).2 := by
  have h1 : Goes ps s₀ (Machine.chooseLun s l).2 := h.chooseLun hnfc
  unfold Machine.chooseRun
  split
  next e => rwa [e] at h1
  next e =>
    rw [e] at h1
    split
    · exact h1
    · exact (h1.dispatchRun hbuf hnfc).contendUpdate hnfc

theorem Goes.dispatchAll (h : Goes ps s₀ s) (hbuf : .buf ∈ ps) (hnfc : .nfc ∈ ps) :
    Goes ps s₀ (Machine.dispatchAll s) := by
  unfold Machine.dispatchAll
  dsimp only
  refine h.foldl fun x l h => .cond ?_ (h.contendUpdate hnfc)
  split
  · exact ((h.chooseRun hbuf hnfc).modLun hnfc).runStart hnfc
  · exact h.chooseRun hbuf hnfc

theorem Goes.admitAll (h : Goes ps s₀ s) (hnfc : .nfc ∈ ps) :
    Goes ps s₀ (Machine.admitAll s) := by
  unfold Machine.admitAll
  refine List.foldlRecOn _ _ (motive := fun x : State × List (Nat × Nat) => Goes ps s₀ x.1) h fun x h f _ => ?_
  dsimp only
  split
  · exact h
  · have hheld {c : Prop} {_ : Decidable c} {n : Nat} {f : Flight → Flight} :
        Goes ps s₀ (if c then Machine.modFl x.1 n f else x.1) := .cond (h.modFl hnfc) h
    exact .cond_fst h (.cond_fst hheld (.cond_fst (hheld.foldl fun _ _ h => h.modFl hnfc) (hheld.endAll hnfc)))

theorem Goes.xferSend (h : Goes ps s₀ s) (hnfc : .nfc ∈ ps) {l : Nat} {r : RunSt} :
    Goes ps s₀ (Machine.xferSend s l r) := by
  unfold Machine.xferSend
  dsimp only
  refine .cond ?_ ?_
  · exact h.sendLun hnfc
  · refine .cond ?_ ?_
    · exact h.sendLun hnfc
    · refine h.foldl fun x e h => ?_
      split
      · exact .cond (h.sendLun hnfc) h
      · exact h.sendLun hnfc

theorem Goes.grantBus (h : Goes ps s₀ s) (hnfc : .nfc ∈ ps) {c : Nat} :
    Goes ps s₀ (Machine.grantBus s c) := by
  unfold Machine.grantBus
  dsimp only
  refine .cond ?_ ?_
  · exact h
  · split
    · exact h
    · refine Goes.modLun ?_ hnfc
      split
      · exact (h.modChan hnfc).xferSend hnfc
      · exact h.modChan hnfc

theorem Goes.nfcService (h : Goes ps s₀ s) (hbuf : .buf ∈ ps) (hnfc : .nfc ∈ ps) :
    Goes ps s₀ (Machine.nfcService s) :=
  ((((h.admitAll hnfc).dispatchAll hbuf hnfc).admitAll hnfc).foldl fun _ _ h => h.contendUpdate hnfc).foldl fun _ _ h =>
    h.grantBus hnfc

theorem Goes.earlyChoice (h : Goes ps s₀ s) (hbuf : .buf ∈ ps) (hnfc : .nfc ∈ ps) {l : Nat} {second : Bool} {r : RunSt} :
    Goes ps s₀ (Machine.earlyChoice s l second r) := by
  unfold Machine.earlyChoice
  refine .cond h ?_
  have h1 : Goes ps s₀ (Machine.chooseRun s l).2 := h.chooseRun hbuf hnfc
  dsimp only
  split
  · exact h1
  · refine .cond (Goes.modLun ?_ hnfc) (Goes.modLun ?_ hnfc)
    all_goals
      exact .cond ((Goes.cond (h1.foldl fun _ _ h => h.modFl hnfc) h1).sendLun hnfc)
        (.cond (h1.foldl fun _ _ h => h.modFl hnfc) h1)

theorem Goes.rereadOp (h : Goes ps s₀ s) (hnfc : .nfc ∈ ps) {l : Nat} {r : RunSt} {q : Reread} :
    Goes ps s₀ (Machine.rereadOp s l r q) := by
  unfold Machine.rereadOp
  dsimp only
  split
  · exact .cond (((h.applyEntry hnfc).sendLun hnfc).modLun hnfc) h
  · exact h

theorem Goes.busyEndOp (h : Goes ps s₀ s) (hbuf : .buf ∈ ps) (hnfc : .nfc ∈ ps) {l : Nat} {re : Option Reread} :
    Goes ps s₀ (Machine.busyEndOp s l re) := by
  unfold Machine.busyEndOp
  dsimp only
  refine .cond ?_ ?_
  · exact (h.modLun hnfc).modChan hnfc
  · split
    · exact h
    · split
      · exact h.rereadOp hnfc
      · refine .cond ((h.rawAdvance hnfc).modLun hnfc) (.cond (.cond ((h.modLun hnfc).earlyChoice hbuf hnfc) (h.modLun
          hnfc)) ?_)
        split
        · exact .cond (.cond ((h.modLun hnfc).earlyChoice hbuf hnfc) (h.modLun hnfc)) h
        · exact h

theorem Goes.cacheGoesOn (h : Goes ps s₀ s) (hnfc : .nfc ∈ ps) {l : Nat} {second : Bool} {r : RunSt} :
    Goes ps s₀ (Machine.cacheGoesOn s l second r) :=
  .cond h (.cond (h.sendLun hnfc) ((h.sendLun hnfc).modLun hnfc))

theorem Goes.busEndOp (h : Goes ps s₀ s) (hbuf : .buf ∈ ps) (hnfc : .nfc ∈ ps) {c : Nat} :
    Goes ps s₀ (Machine.busEndOp s c) := by
  unfold Machine.busEndOp
  dsimp only
  split
  · exact h
  · refine .cond ?_ ?_
    · split
      · exact .cond ((((h.modChan hnfc).modLun hnfc).rawAdvance hnfc).modLun hnfc) (((Goes.cond (((h.modChan hnfc).modLun
          hnfc).earlyChoice hbuf hnfc) ((h.modChan hnfc).modLun hnfc)).sendLun hnfc).cacheGoesOn hnfc)
      · exact (h.modChan hnfc).modLun hnfc
    · refine .cond ?_ ?_
      · split
        · exact ((Goes.cond (((h.modChan hnfc).modLun hnfc).earlyChoice hbuf hnfc) ((h.modChan hnfc).modLun hnfc)).sendLun
              hnfc).cacheGoesOn hnfc
        · exact (h.modChan hnfc).modLun hnfc
      · exact h.modChan hnfc

theorem Goes.readDeliver (h : Goes ps s₀ s) (hbuf : .buf ∈ ps) {f : Flight} {r : PageRes} :
    Goes ps s₀ (Machine.readDeliver s f r) :=
  h.foldl fun _ _ h => h.foldl fun _ _ h => h.granuleFill hbuf

theorem Goes.granuleSeal (h : Goes ps s₀ s) (hbuf : .buf ∈ ps) {g : Nat} :
    Goes ps s₀ (Machine.granuleSeal s g) := by
  unfold Machine.granuleSeal
  exact (h.bufTouch hbuf).core_buf hbuf id (swf_sset _ _ _ _)

theorem Goes.releaseOne (h : Goes ps s₀ s) (hirqPend : .irqPend ∈ ps) (hbuf : .buf ∈ ps) (hnfc : .nfc ∈ ps) {l : Nat}
    {r : RunSt} {m num : Nat} {obs : NandObs} :
    Goes ps s₀ (Machine.releaseOne s l r m num obs).1 := by
  unfold Machine.releaseOne
  split
  · exact h
  · refine .cond_fst h (.cond_fst ?_ (.cond_fst (h.modFl hnfc) (.cond_fst (h.modFl hnfc) (.cond_fst ?_ h))))
    · extract_lets q ew warn s1 s2 s3 s4 s5
      have h5 : Goes ps s₀ s5 := ((((h.readDeliver hbuf).modFl hnfc).whenS fun _ h => h.raise hirqPend).whenS fun _ h =>
        h.modN hnfc).whenS fun _ h => h.modLun hnfc
      exact .cond_fst (h5.modFl hnfc) h5
    · extract_lets es base din res s1 s2 s3
      have h1 : Goes ps s₀ res.1 := List.foldlRecOn din _ (motive := fun x : State × List Byte => Goes ps s₀ x.1) h
        fun _ h _ _ => h.bufStore hbuf
      exact ((h1.foldl fun _ _ h => h.granuleSeal hbuf).modFl hnfc).whenS fun _ h => h.modChan hnfc

theorem Goes.lunNext (h : Goes ps s₀ s) (hnfc : .nfc ∈ ps) {l : Nat} {second : Bool} :
    Goes ps s₀ (Machine.lunNext s l second) := by
  unfold Machine.lunNext
  split
  · refine Goes.modLun ?_ hnfc
    split
    · exact h.foldl fun _ _ h => h.modFl hnfc
    · exact h
  · have h1 := h.modLun (l := l) (f := fun x => { x with cur := x.nxt, nxt := x.nn, nn := none }) hnfc
    dsimp only
    split
    · exact .cond h1 (h1.runStart hnfc)
    · exact h1

theorem Goes.releaseOp (h : Goes ps s₀ s) (hirqPend : .irqPend ∈ ps) (hbuf : .buf ∈ ps) (hnfc : .nfc ∈ ps) {l : Nat}
    {obs : NandObs} :
    Goes ps s₀ (Machine.releaseOp s l obs) := by
  unfold Machine.releaseOp
  dsimp only
  split
  · exact h
  next r _ =>
    have h1 : ∀ l' : List (Nat × Nat), Goes ps s₀ (l'.foldl (fun (acc : State × List (Nat × Nat)) e =>
        ((Machine.releaseOne acc.1 l r e.2 e.1 obs).1, match (Machine.releaseOne acc.1 l r e.2 e.1 obs).2 with
          | some st => acc.2 ++ [(e.1, st)]
          | none => acc.2)) (s, [])).1 :=
      fun l' => List.foldlRecOn l' _ (motive := fun x : State × List (Nat × Nat) => Goes ps s₀ x.1) h
        fun _ h _ _ => h.releaseOne hirqPend hbuf hnfc
    exact .cond h (((Goes.cond ((h1 _).applyEntry hnfc) (h1 _)).lunNext hnfc).endAll hnfc)

theorem Goes.timeoutOp (h : Goes ps s₀ s) (hcapo : .capo ∈ ps) (hirqPend : .irqPend ∈ ps) (hnfc : .nfc ∈ ps) {l : Nat} :
    Goes ps s₀ (Machine.timeoutOp s l) :=
  .cond (h.channelFaultOp hcapo hirqPend hnfc) (.cond h ((((h.modN hnfc).modChan hnfc).lunResetOp hnfc).endAll hnfc))

theorem Goes.submitOp (h : Goes ps s₀ s) (hpart : .part ∈ ps) (hirqPend : .irqPend ∈ ps) (hnfc : .nfc ∈ ps) {p : Nat}
    {d : List Byte} :
    Goes ps s₀ (Machine.submitOp s p d) :=
  .cond ((h.modWin hnfc).endAll hnfc) (.cond (((h.modWin hnfc).core_part hpart).raise hirqPend) (.cond (h.modWin hnfc)
    (.cond ((Goes.cond ((((h.modWin hnfc).modWin hnfc).modN hnfc).modN hnfc) (((h.modWin hnfc).modWin hnfc).modN
    hnfc)).endAll hnfc) (.cond ((Goes.cond ((((h.modWin hnfc).modWin hnfc).modN hnfc).modN hnfc) (((h.modWin hnfc).modWin
    hnfc).modN hnfc)).endAll hnfc) (.cond (((Goes.cond ((((h.modWin hnfc).modWin hnfc).modN hnfc).modN hnfc) (((h.modWin
    hnfc).modWin hnfc).modN hnfc)).modFl hnfc).lunResetOp hnfc) (.cond ((((h.modWin hnfc).modWin hnfc).modN hnfc).modN
    hnfc) (((h.modWin hnfc).modWin hnfc).modN hnfc)))))))

theorem Goes.ringPopOp (h : Goes ps s₀ s) (hnfc : .nfc ∈ ps) {p k : Nat} :
    Goes ps s₀ (Machine.ringPopOp s p k) := h.modWin hnfc fun _ hw => (Nat.sub_le _ _).trans hw

theorem Goes.nfcPartReset (h : Goes ps s₀ s) (hnfc : .nfc ∈ ps) {p : Nat} :
    Goes ps s₀ (Machine.nfcPartReset s p) := by
  unfold Machine.nfcPartReset
  exact h.modN hnfc

theorem Goes.nfcPartDone (h : Goes ps s₀ s) (hbuf : .buf ∈ ps) (hnfc : .nfc ∈ ps) {p : Nat} :
    Goes ps s₀ (Machine.nfcPartDone s p) :=
  (h.bufStore hbuf).modWin hnfc

theorem Goes.nsMoved (h : Goes ps s₀ s) (hnfc : .nfc ∈ ps) {old n : Nat} :
    Goes ps s₀ (Machine.nsMoved s old n) :=
  h.discardFlights hnfc

theorem Goes.nfcCntclrOp (h : Goes ps s₀ s) (hnfc : .nfc ∈ ps) :
    Goes ps s₀ (Machine.nfcCntclrOp s) := by
  refine h.piece hnfc (fun j hj => ?_) (fun hc => ?_) id id
  · cases j
    case nfc => exact absurd rfl hj
    all_goals rfl
  · unfold Counted at hc ⊢
    simp only [Machine.nfcCntclrOp, Machine.modN, modC, List.length_map] at hc ⊢
    grind

theorem Goes.nfcWarnclrOp (h : Goes ps s₀ s) (hnfc : .nfc ∈ ps) :
    Goes ps s₀ (Machine.nfcWarnclrOp s) :=
  h.modN hnfc

theorem Goes.pollOp (h : Goes ps s₀ s) (hnfc : .nfc ∈ ps) {c : Nat} :
    Goes ps s₀ (Machine.pollOp s c) :=
  .cond h (h.foldl fun _ _ h => h.sendLun hnfc)

end Rules

end Sys2Proof.Machine
end

section
/-! SUPPORT. Where the operations of SEQ, of the courses and of CVU go. -/

set_option Elab.async false

namespace Sys2Proof.Machine

section Rules

variable {ps : List Piece} {s₀ s : State}

@[simp] theorem length_downSet (quar : BitVec 10) (d : Down) (root : Option Nat) (m : BitVec 10) (ws : List RailW) :
    (downSet quar d root m ws).length = ws.length := by simp [downSet]

/-- A fault's reaction keeps the number of rails. -/
@[simp] theorem length_railReact (s : State) (ws : List RailW) (f : RailFaultW) : (railReact s ws f).length = ws.length := by
  unfold railReact
  cases f.down <;> dsimp only
  case retry => split <;> simp
  all_goals simp

@[simp] theorem length_railRequest (s : State) (anyDown : Bool) (old : List RailSt) (ws : List RailW)
    (q : BitVec 10 × BitVec 10) : (railRequest s anyDown old ws q).length = ws.length := by simp [railRequest]

/-- Changes of a list, one after the other, that each keep its length. -/
theorem length_foldl_eq {α β : Type} {f : List β → α → List β} (hf : ∀ ws a, (f ws a).length = ws.length) (l : List α)
    (ws : List β) : (l.foldl f ws).length = ws.length :=
  List.foldlRecOn l f (motive := fun x => x.length = ws.length) rfl fun _ hx a _ => (hf _ a).trans hx

@[simp] theorem length_foldl_railReact (s : State) (l : List RailFaultW) (ws : List RailW) :
    (l.foldl (railReact s) ws).length = ws.length := length_foldl_eq (length_railReact s) l ws

@[simp] theorem length_foldl_railRequest (s : State) (anyDown : Bool) (old : List RailSt) (l : List (BitVec 10 × BitVec 10))
    (ws : List RailW) : (l.foldl (railRequest s anyDown old) ws).length = ws.length :=
  length_foldl_eq (length_railRequest s anyDown old) l ws

@[simp] theorem length_foldl_downSet {α : Type} (quar : BitVec 10) (d : Down) (root : Option Nat) (m : α → BitVec 10)
    (l : List α) (ws : List RailW) : (l.foldl (fun ws a => downSet quar d root (m a) ws) ws).length = ws.length :=
  length_foldl_eq (fun ws a => length_downSet quar d root (m a) ws) l ws

theorem Goes.railRecord (h : Goes ps s₀ s) (hcapo : .capo ∈ ps) (hirqPend : .irqPend ∈ ps) (hseq : .seq ∈ ps)
    {rail kind reaction : Nat} :
    Goes ps s₀ (Machine.railRecord s rail kind reaction) :=
  (Goes.cond ((h.core_seq hseq).raiseOwner0 hirqPend) ((h.core_seq hseq).raise hirqPend)).capoFault hcapo

theorem Goes.seqStep (h : Goes ps s₀ s) (hcapo : .capo ∈ ps) (hirqPend : .irqPend ∈ ps) (hseq : .seq ∈ ps)
    {spg : BitVec 10} {smon : List Nat} :
    Goes ps s₀ (Machine.seqStep s spg smon) :=
  ((((h.core_seq hseq).foldl fun _ _ h => h.railRecord hcapo hirqPend hseq).foldl fun _ _ h => .cond (h.railRecord hcapo
    hirqPend hseq) h).core_seq hseq).foldl fun _ _ h => .cond ((Goes.cond (h.railRecord hcapo hirqPend hseq) h).raiseOwner
    hirqPend) (.cond (h.railRecord hcapo hirqPend hseq) h)

theorem Goes.hookSeq (h : Goes ps s₀ s) (hseq : .seq ∈ ps) {old : State} :
    Goes ps s₀ (Machine.hookSeq old s) :=
  h.core_seq hseq

theorem Goes.railMerge (h : Goes ps s₀ s) (hseq : .seq ∈ ps) {n : Nat} :
    Goes ps s₀ (Machine.railMerge n s) :=
  .cond h (h.core_seq hseq)

theorem Goes.railRequestPush (h : Goes ps s₀ s) (hseq : .seq ∈ ps) {on off : BitVec 10} :
    Goes ps s₀ (Machine.railRequestPush s on off) :=
  .cond h (h.core_seq hseq)

theorem Goes.seqStart (h : Goes ps s₀ s) (hseq : .seq ∈ ps) {held : BitVec 10} :
    Goes ps s₀ (Machine.seqStart held s) :=
  h.core_seq hseq

/-- The pending course takes what stands in the registers as its image. -/
theorem Goes.captured (h : Goes ps s₀ s) (hcourse : .course ∈ ps) {f : CourseSt → CourseSt}
    (hrunning : (f s.core.course).running.length = s.core.course.running.length)
    (himage : (f s.core.course).image = s.core.regs) : Goes ps s₀ (Machine.modCourse s f) := by
  refine h.piece hcourse (fun j hj => ?_) (fun hc => ?_) (fun hc => ?_) id
  · cases j
    case course => exact absurd rfl hj
    all_goals rfl
  · unfold Counted at hc ⊢
    simp only [Machine.modCourse, modC, hrunning] at hc ⊢
    exact hc
  · unfold Canonical at hc ⊢
    simp only [Machine.modCourse, modC, himage] at hc ⊢
    grind

theorem Goes.courseApply (h : Goes ps s₀ s) (hregs : .regs ∈ ps) (hparity : .parity ∈ ps) {t : Nat → Bool} :
    Goes ps s₀ (Machine.courseApply s t) :=
  h.foldl fun _ _ h => (h.setR hregs).core_parity hparity

theorem Goes.coursePublish (h : Goes ps s₀ s) (hcourse : .course ∈ ps) {b : Nat} :
    Goes ps s₀ (Machine.coursePublish s b) :=
  h.modCourse hcourse

theorem Goes.courseHook (h : Goes ps s₀ s) (hps : [.hold, .regs, .irqPend, .buf, .seq, .flw, .key, .epd, .pix, .efl, .gng]
    ⊆ ps) {b : Nat} {old : State} :
    Goes ps s₀ (Machine.courseHook b old s) := by
  unfold Machine.courseHook
  split
  · exact h.hookThm
  · exact h.hookFlw (hps (by decide)) (hps (by decide))
  · exact h.hookKey (hps (by decide)) (hps (by decide))
  · exact h.hookEpd (hps (by decide)) (hps (by decide)) (hps (by decide)) (hps (by decide)) (hps (by decide))
  · exact h.hookSeq (hps (by decide))
  · exact h.hookGng (hps (by decide)) (hps (by decide))
  · exact h

theorem Goes.takeUpRaw (h : Goes ps s₀ s) (hps : [.hold, .regs, .parity, .course, .irqPend, .buf, .seq, .flw, .key, .epd,
    .pix, .efl, .gng] ⊆ ps) {b : Nat} :
    Goes ps s₀ (Machine.takeUpRaw s b) :=
  .cond ((((Goes.cond (h.encFlush (hps (by decide)) (hps (by decide))) h).courseApply (hps (by decide)) (hps (by
    decide))).coursePublish (hps (by decide))).courseHook (List.Subset.trans (by decide) hps)) h

theorem Goes.eflTakeBank (h : Goes ps s₀ s) (hregs : .regs ∈ ps) (hparity : .parity ∈ ps) (hcourse : .course ∈ ps) (hefl :
    .efl ∈ ps) {b : Nat} :
    Goes ps s₀ (Machine.eflTakeBank s b) :=
  .cond (.cond ((((h.modBank hefl).modCourse hcourse).courseApply hregs hparity).coursePublish hcourse) ((h.modBank
    hefl).modCourse hcourse)) h

theorem Goes.eflTakeRaw (h : Goes ps s₀ s) (hregs : .regs ∈ ps) (hparity : .parity ∈ ps) (hcourse : .course ∈ ps) (hefl :
    .efl ∈ ps) :
    Goes ps s₀ (Machine.eflTakeRaw s) :=
  (h.eflTakeBank hregs hparity hcourse hefl).eflTakeBank hregs hparity hcourse hefl

theorem Goes.chanTake (h : Goes ps s₀ s) (hregs : .regs ∈ ps) (hparity : .parity ∈ ps) (hnfc : .nfc ∈ ps) {c : Nat} :
    Goes ps s₀ (Machine.chanTake s c) :=
  (h.courseApply hregs hparity).modChan hnfc

theorem Goes.nfcPublish (h : Goes ps s₀ s) (hregs : .regs ∈ ps) (hparity : .parity ∈ ps) (hcourse : .course ∈ ps) (hnfc :
    .nfc ∈ ps) :
    Goes ps s₀ (Machine.nfcPublish s) :=
  ((h.courseApply hregs hparity).modN hnfc).coursePublish hcourse

theorem Goes.lunTakeRaw (h : Goes ps s₀ s) (hregs : .regs ∈ ps) (hparity : .parity ∈ ps) (hcourse : .course ∈ ps) (hnfc :
    .nfc ∈ ps) {l : Nat} :
    Goes ps s₀ (Machine.lunTakeRaw s l) :=
  .cond (.cond (.cond ((h.courseApply hregs hparity).modLun hnfc) (((h.courseApply hregs hparity).modLun hnfc).chanTake
    hregs hparity hnfc)) ((Goes.cond ((h.courseApply hregs hparity).modLun hnfc) (((h.courseApply hregs hparity).modLun
    hnfc).chanTake hregs hparity hnfc)).nfcPublish hregs hparity hcourse hnfc)) h

theorem Goes.nfcTakeRaw (h : Goes ps s₀ s) (hregs : .regs ∈ ps) (hparity : .parity ∈ ps) (hcourse : .course ∈ ps) (hnfc :
    .nfc ∈ ps) :
    Goes ps s₀ (Machine.nfcTakeRaw s) :=
  h.foldl fun _ _ h => h.lunTakeRaw hregs hparity hcourse hnfc

/-- An empty store is in its form. -/
@[simp] theorem swf_nil {α : Type} [DecidableEq α] (d : Nat → α) : swf d [] = true := rfl

@[simp] theorem running_courseLog (c : CourseSt) (o t : Nat) : (courseLog c o t).running = c.running := rfl
@[simp] theorem image_courseLog (c : CourseSt) (o t : Nat) : (courseLog c o t).image = c.image := rfl

theorem Goes.courseComplete (h : Goes ps s₀ s) (hcourse : .course ∈ ps) (hirqPend : .irqPend ∈ ps) :
    Goes ps s₀ (Machine.courseComplete s) :=
  .cond ((h.modCourse hcourse).raise hirqPend) h

theorem Goes.courseAssign (h : Goes ps s₀ s) (hps : [.hold, .regs, .parity, .course, .irqPend, .buf, .seq, .flw, .key,
    .epd, .pix, .efl, .nfc, .gng] ⊆ ps) {p : Part} {blocks : BitVec 8} :
    Goes ps s₀ (Machine.courseAssign s p blocks) := by
  unfold Machine.courseAssign
  extract_lets ms s1 s2 s3 s4 s5 s6
  have h1 : Goes ps s₀ s1 := h.captured (hps (by decide)) rfl rfl
  have h2 : Goes ps s₀ s2 := .cond (h1.modN (hps (by decide))) h1
  have h3 : Goes ps s₀ s3 := .cond (h2.takeUpRaw (List.Subset.trans (by decide) hps)) h2
  have h4 : Goes ps s₀ s4 := .cond h3 (h3.takeUpRaw (List.Subset.trans (by decide) hps))
  exact ((h4.eflTakeRaw (hps (by decide)) (hps (by decide)) (hps (by decide)) (hps (by decide))).nfcTakeRaw (hps (by decide))
    (hps (by decide)) (hps (by decide)) (hps (by decide))).courseComplete (hps (by decide)) (hps (by decide))

theorem Goes.courseNext (h : Goes ps s₀ s) (hps : [.hold, .regs, .parity, .course, .irqPend, .buf, .seq, .flw, .key, .epd,
    .pix, .efl, .nfc, .gng] ⊆ ps) :
    Goes ps s₀ (Machine.courseNext s) := by
  unfold Machine.courseNext
  split
  · exact .cond h ((h.modCourse (hps (by decide))).courseAssign (List.Subset.trans (by decide) hps))
  · exact h

theorem Goes.courseCheck (h : Goes ps s₀ s) (hps : [.hold, .regs, .parity, .course, .irqPend, .buf, .seq, .flw, .key, .epd,
    .pix, .efl, .nfc, .gng] ⊆ ps) :
    Goes ps s₀ (Machine.courseCheck s) :=
  (h.courseComplete (hps (by decide)) (hps (by decide))).courseNext (List.Subset.trans (by decide) hps)

theorem Goes.takeUp (h : Goes ps s₀ s) (hps : [.hold, .regs, .parity, .course, .irqPend, .buf, .seq, .flw, .key, .epd,
    .pix, .efl, .nfc, .gng] ⊆ ps) {b : Nat} :
    Goes ps s₀ (Machine.takeUp s b) :=
  .cond ((h.takeUpRaw (List.Subset.trans (by decide) hps)).courseCheck (List.Subset.trans (by decide) hps)) h

theorem Goes.gngCourse (h : Goes ps s₀ s) (hps : [.hold, .regs, .parity, .course, .irqPend, .buf, .seq, .flw, .key, .epd,
    .pix, .efl, .nfc, .gng] ⊆ ps) :
    Goes ps s₀ (Machine.gngCourse s) :=
  .cond h (h.takeUp (List.Subset.trans (by decide) hps))

theorem Goes.gangBoundary (h : Goes ps s₀ s) (hps : [.hold, .regs, .parity, .course, .irqPend, .buf, .seq, .flw, .key,
    .epd, .pix, .efl, .nfc, .gng] ⊆ ps) :
    Goes ps s₀ (Machine.gangBoundary s) :=
  (h.gangPass (hps (by decide)) (hps (by decide))).gngCourse (List.Subset.trans (by decide) hps)

theorem Goes.epdCourse (h : Goes ps s₀ s) (hps : [.hold, .regs, .parity, .course, .irqPend, .buf, .seq, .flw, .key, .epd,
    .pix, .efl, .nfc, .gng] ⊆ ps) :
    Goes ps s₀ (Machine.epdCourse s) :=
  .cond (h.takeUp (List.Subset.trans (by decide) hps)) h

theorem Goes.eflCourse (h : Goes ps s₀ s) (hps : [.hold, .regs, .parity, .course, .irqPend, .buf, .seq, .flw, .key, .epd,
    .pix, .efl, .nfc, .gng] ⊆ ps) :
    Goes ps s₀ (Machine.eflCourse s) :=
  .cond ((h.eflTakeRaw (hps (by decide)) (hps (by decide)) (hps (by decide)) (hps (by decide))).courseCheck
    (List.Subset.trans (by decide) hps)) h

theorem Goes.lunTakeUp (h : Goes ps s₀ s) (hps : [.hold, .regs, .parity, .course, .irqPend, .buf, .seq, .flw, .key, .epd,
    .pix, .efl, .nfc, .gng] ⊆ ps) {l : Nat} :
    Goes ps s₀ (Machine.lunTakeUp s l) :=
  .cond ((((h.lunTakeRaw (hps (by decide)) (hps (by decide)) (hps (by decide)) (hps (by decide))).courseCheck
    (List.Subset.trans (by decide) hps)).nfcService (hps (by decide)) (hps (by decide))).postAll (hps (by decide)) (hps (by
    decide)) (hps (by decide))) h

theorem Goes.nfcCourse (h : Goes ps s₀ s) (hps : [.hold, .regs, .parity, .course, .irqPend, .buf, .seq, .flw, .key, .epd,
    .pix, .efl, .nfc, .gng] ⊆ ps) :
    Goes ps s₀ (Machine.nfcCourse s) :=
  .cond ((h.nfcTakeRaw (hps (by decide)) (hps (by decide)) (hps (by decide)) (hps (by decide))).courseCheck
    (List.Subset.trans (by decide) hps)) h

theorem Goes.nfcAfter (h : Goes ps s₀ s) (hps : [.hold, .regs, .parity, .course, .irqPend, .buf, .seq, .flw, .key, .epd,
    .pix, .efl, .nfc, .gng] ⊆ ps) :
    Goes ps s₀ (Machine.nfcAfter s) :=
  (Goes.cond (((h.nfcService (hps (by decide)) (hps (by decide))).nfcCourse (List.Subset.trans (by decide) hps)).nfcService
    (hps (by decide)) (hps (by decide))) (h.nfcService (hps (by decide)) (hps (by decide)))).postAll (hps (by decide)) (hps
    (by decide)) (hps (by decide))

theorem Goes.courseTakeUpOp (h : Goes ps s₀ s) (hps : [.hold, .regs, .parity, .course, .irqPend, .buf, .seq, .flw, .key,
    .epd, .pix, .efl, .nfc, .gng] ⊆ ps) {b : Nat} :
    Goes ps s₀ (Machine.courseTakeUpOp s b) :=
  .cond (h.epdCourse (List.Subset.trans (by decide) hps)) (.cond (h.nfcAfter (List.Subset.trans (by decide) hps)) (.cond
    (h.eflCourse (List.Subset.trans (by decide) hps)) (.cond (h.gngCourse (List.Subset.trans (by decide) hps)) (h.takeUp
    (List.Subset.trans (by decide) hps)))))

theorem Goes.courseStallOp (h : Goes ps s₀ s) (hps : [.hold, .regs, .parity, .course, .capo, .irqPend, .buf, .seq, .flw,
    .key, .epd, .pix, .efl, .nfc, .gng] ⊆ ps) :
    Goes ps s₀ (Machine.courseStallOp s) :=
  .cond ((((((((h.modCourse (hps (by decide))).modN (hps (by decide))).raise (hps (by decide))).raise (hps (by
    decide))).capoFault (hps (by decide))).courseNext (List.Subset.trans (by decide) hps)).nfcService (hps (by decide))
    (hps (by decide))).postAll (hps (by decide)) (hps (by decide)) (hps (by decide))) h

theorem Goes.courseCommitOp (h : Goes ps s₀ s) (hps : [.hold, .regs, .parity, .course, .irqPend, .buf, .seq, .flw, .key,
    .epd, .pix, .efl, .nfc, .gng] ⊆ ps) {p : Part} {blocks : BitVec 8} :
    Goes ps s₀ (Machine.courseCommitOp s p blocks).1 := by
  simp only [Machine.courseCommitOp, apply_ite Prod.fst]
  exact .cond h (.cond (h.courseAssign hps) (.cond (h.modCourse (hps (by decide))) (h.modCourse (hps (by decide)))))

theorem Goes.cvuFeedOp (h : Goes ps s₀ s) (hcvu : .cvu ∈ ps) {u : Nat} {bs : List Byte} :
    Goes ps s₀ (Machine.cvuFeedOp s u bs) :=
  h.modU hcvu

theorem Goes.cvuStartOp (h : Goes ps s₀ s) (hcvu : .cvu ∈ ps) {u : Nat} :
    Goes ps s₀ (Machine.cvuStartOp s u) :=
  h.modU hcvu

theorem Goes.cvuAbandon (h : Goes ps s₀ s) (hcvu : .cvu ∈ ps) {u code : Nat} :
    Goes ps s₀ (Machine.cvuAbandon s u code) :=
  .cond (h.modU hcvu) h

theorem Goes.cvuAbortOp (h : Goes ps s₀ s) (hcvu : .cvu ∈ ps) {u : Nat} :
    Goes ps s₀ (Machine.cvuAbortOp s u) :=
  h.cvuAbandon hcvu

theorem Goes.cvuMoved (h : Goes ps s₀ s) (hcvu : .cvu ∈ ps) {u : Nat} :
    Goes ps s₀ (Machine.cvuMoved s u) :=
  (h.cvuAbandon hcvu).modU hcvu

theorem Goes.cvuClearOp (h : Goes ps s₀ s) (hcvu : .cvu ∈ ps) {u : Nat} :
    Goes ps s₀ (Machine.cvuClearOp s u) :=
  h.modU hcvu

theorem Goes.cvuRearmOp (h : Goes ps s₀ s) (hcvu : .cvu ∈ ps) {u : Nat} :
    Goes ps s₀ (Machine.cvuRearmOp s u) :=
  h.modU hcvu

theorem Goes.cvuFinishOp (h : Goes ps s₀ s) (hregs : .regs ∈ ps) (hirqPend : .irqPend ∈ ps) (hcvu : .cvu ∈ ps) {u : Nat} :
    Goes ps s₀ (Machine.cvuFinishOp s u) :=
  (Goes.cond ((Goes.cond ((h.modU hcvu).setR hregs) (h.modU hcvu)).raiseOwner0 hirqPend) (.cond ((h.modU hcvu).setR hregs)
    (h.modU hcvu))).raiseOwner hirqPend

theorem Goes.cvuGoOp (h : Goes ps s₀ s) (hirqPend : .irqPend ∈ ps) (hcvu : .cvu ∈ ps) {u : Nat} {finish : Bool} :
    Goes ps s₀ (Machine.cvuGoOp s u finish) :=
  .cond (h.modU hcvu) ((h.modU hcvu).raiseOwner hirqPend)

theorem Goes.cvuRunOk (h : Goes ps s₀ s) (hregs : .regs ∈ ps) (hirqPend : .irqPend ∈ ps) (hcvu : .cvu ∈ ps) {u : Nat}
    {bs : List Byte} {unwritten : Bool} :
    Goes ps s₀ (Machine.cvuRunOk s u bs unwritten) :=
  .cond ((((h.cvuFeedOp hcvu).modU hcvu).raiseOwner hirqPend).cvuFinishOp hregs hirqPend hcvu) (((h.cvuFeedOp hcvu).modU
    hcvu).raiseOwner hirqPend)

theorem Goes.cvuRunEndOp (h : Goes ps s₀ s) (hregs : .regs ∈ ps) (hirqPend : .irqPend ∈ ps) (hbuf : .buf ∈ ps) (hcvu : .cvu
    ∈ ps) {u : Nat} :
    Goes ps s₀ (Machine.cvuRunEndOp s u) := by
  unfold Machine.cvuRunEndOp
  dsimp only
  refine .cond ?_ ?_
  · exact h
  · refine .cond ?_ ?_
    · split
      · exact (((h.foldl fun _ _ h => h.bufTouch hbuf).cvuAbandon hcvu).raiseOwner hirqPend).modU hcvu
      · exact (h.foldl fun _ _ h => h.bufTouch hbuf).cvuRunOk hregs hirqPend hcvu
    · exact .cond h (.cond ((h.cvuAbandon hcvu).raiseOwner hirqPend) (h.cvuRunOk hregs hirqPend hcvu))

theorem Goes.cvuCtlOp (h : Goes ps s₀ s) (hregs : .regs ∈ ps) (hirqPend : .irqPend ∈ ps) (hcvu : .cvu ∈ ps) {u : Nat}
    {ctl : Word} {feeds : List Word} :
    Goes ps s₀ (Machine.cvuCtlOp s u ctl feeds).1 := by
  unfold Machine.cvuCtlOp
  extract_lets s1 s2 s3 par mStart s4 mFeed whole last drop s5 mGo goes open1 s6 mFin
  have h1 : Goes ps s₀ s1 := .cond (h.cvuAbortOp hcvu) h
  have h2 : Goes ps s₀ s2 := .cond (h1.cvuClearOp hcvu) h1
  have h3 : Goes ps s₀ s3 := .cond (h2.cvuRearmOp hcvu) h2
  have h4 : Goes ps s₀ s4 := .cond (h3.cvuStartOp hcvu) h3
  have h5 : Goes ps s₀ s5 := .cond (h4.cvuFeedOp hcvu) h4
  have h6 : Goes ps s₀ s6 := .cond (h5.cvuGoOp hirqPend hcvu) h5
  exact .cond (h6.cvuFinishOp hregs hirqPend hcvu) h6

theorem Goes.cvuParityOp (h : Goes ps s₀ s) (hirqPend : .irqPend ∈ ps) (hcvu : .cvu ∈ ps) {u : Nat} :
    Goes ps s₀ (Machine.cvuParityOp s u) :=
  ((h.cvuAbandon hcvu).modU hcvu).raiseOwner0 hirqPend

end Rules

end Sys2Proof.Machine
end

section
/-! SUPPORT. Where the end of an instant, the operations of the partitions and the register writes go. -/

set_option Elab.async false

namespace Sys2Proof.Machine

section Rules

variable {ps : List Piece} {s₀ s : State}

theorem Goes.whenCore (h : Goes ps s₀ s) {f : State → State} (hf : ∀ x, Goes ps s₀ x → Goes ps s₀ (f x)) :
    Goes ps s₀ (Machine.whenCore f s) :=
  .cond (hf s h) h

theorem Goes.tickOp (h : Goes ps s₀ s) (haon : .aon ∈ ps) :
    Goes ps s₀ (Machine.tickOp s) :=
  .cond h (h.modA haon)

theorem Goes.restage (h : Goes ps s₀ s) (hregs : .regs ∈ ps) {mask : Nat → Word} :
    Goes ps s₀ (Machine.restage s mask) :=
  h.foldl fun _ _ h => .cond h (h.setR hregs)

theorem Goes.resMoved (h : Goes ps s₀ s) (hps : [.regs, .irqPend, .key, .epd, .efl, .nfc, .cvu] ⊆ ps) {r : Res}
    {old new : Nat} :
    Goes ps s₀ (Machine.resMoved s r old new) := by
  unfold Machine.resMoved
  refine (Goes.raise ?_ (hps (by decide))).raise (hps (by decide))
  have h1 : Goes ps s₀ (Machine.restage s (resMask s r)) := h.restage (hps (by decide))
  cases r with
  | ns n => exact h1.nsMoved (hps (by decide))
  | key g => exact .cond (h1.keyGroupMoved (hps (by decide)) (hps (by decide))) (h1.encRef (hps (by decide)))
  | panel q => exact h1.epdRegionMoved (hps (by decide))
  | sfr k => exact h1.eflDiscard (hps (by decide)) (hps (by decide))
  | cvu u => exact h1.cvuMoved (hps (by decide))
  | rail n => exact h1
  | flow n => exact h1
  | blink n => exact h1

theorem Goes.ownersMoved (h : Goes ps s₀ s) (hps : [.regs, .irqPend, .key, .epd, .efl, .nfc, .cvu] ⊆ ps) {cls : Nat}
    {old : Word} :
    Goes ps s₀ (Machine.ownersMoved s cls old) :=
  h.foldl fun _ _ h => .cond h (h.resMoved (List.Subset.trans (by decide) hps))

theorem Goes.quotaWrite (h : Goes ps s₀ s) (hregs : .regs ∈ ps) (hparity : .parity ∈ ps) (hbuf : .buf ∈ ps)
    {ws : List (Nat × Word)} :
    Goes ps s₀ (Machine.quotaWrite s ws).1 := by
  have hput : ∀ x, Goes ps s₀ x → Goes ps s₀ (ws.foldl (fun s e => Machine.setR s (0x230 + e.1) e.2)
      (Machine.passes x fun k => ws.any fun e => 0x230 + e.1 == k)) :=
    fun x h => (h.passes hparity).foldl fun _ _ h => h.setR hregs
  simp only [Machine.quotaWrite, apply_ite Prod.fst]
  exact .cond (hput s h) (.cond ((hput s h).foldl fun _ _ h => .cond h (h.granuleClear hbuf)) h)

/-- One mailbox changes, whose messages stay within its slots. -/
theorem Goes.mbx (h : Goes ps s₀ s) (hmbxs : .mbxs ∈ ps) {n : Nat} {f : MbxSt → MbxSt}
    (hheld : (nth s.core.mbxs n {}).held ≤ 8 → (f (nth s.core.mbxs n {})).held ≤ 8) :
    Goes ps s₀ (modC s fun c => { c with mbxs := upd c.mbxs n f }) := by
  refine h.core_mbxs hmbxs (length_upd _ _ _) fun hall => ?_
  refine forall_mem_upd_nth (d := {}) (hheld ?_) hall
  rcases Nat.lt_or_ge n s.core.mbxs.length with hn | hn
  · rw [nth, List.getD_eq_getElem _ _ hn]
    exact hall _ (List.getElem_mem hn)
  · rw [nth, List.getD_eq_default _ _ hn]
    decide

theorem Goes.mbxPostOp (h : Goes ps s₀ s) (hmbxs : .mbxs ∈ ps) (hirqPend : .irqPend ∈ ps) (hbuf : .buf ∈ ps) {n : Nat} :
    Goes ps s₀ (Machine.mbxPostOp s n) := by
  unfold Machine.mbxPostOp
  extract_lets m a bs rcv code s1 upd1
  have h1 : Goes ps s₀ s1 := .cond h (h.bufTouch hbuf)
  have hsame : s1.core.mbxs = s.core.mbxs :=
    (Goes.cond (.refl [.buf] s) ((Goes.refl [.buf] s).bufTouch (by decide))).same .mbxs (by decide)
  refine .ite (fun hcode => (h1.mbx hmbxs fun _ => ?_).raise hirqPend) fun _ => (h1.mbx hmbxs id).raise hirqPend
  have hroom : ¬ 8 ≤ m.held := fun hfull => by simp only [code, if_pos hfull] at hcode; split_ifs at hcode
  rw [hsame]
  exact Nat.lt_of_not_le hroom

theorem Goes.mbxAckOp (h : Goes ps s₀ s) (hmbxs : .mbxs ∈ ps) (hirqPend : .irqPend ∈ ps) {n k : Nat} :
    Goes ps s₀ (Machine.mbxAckOp s n k) := .cond h ((h.mbx hmbxs fun hm => (Nat.sub_le _ _).trans hm).raise hirqPend)

theorem Goes.mbxEmpty (h : Goes ps s₀ s) (hmbxs : .mbxs ∈ ps) (hirqPend : .irqPend ∈ ps) {n : Nat} :
    Goes ps s₀ (Machine.mbxEmpty s n) := .cond h ((h.mbx hmbxs fun _ => Nat.zero_le _).raise hirqPend)

theorem Goes.wdogStart (h : Goes ps s₀ s) (hpart : .part ∈ ps) {p : Nat} :
    Goes ps s₀ (Machine.wdogStart s p) :=
  h.modWdog hpart

theorem Goes.portReset (h : Goes ps s₀ s) (hregs : .regs ∈ ps) (hparity : .parity ∈ ps) (hports : .ports ∈ ps) {p : Nat} :
    Goes ps s₀ (Machine.portReset s p) :=
  .cond (((h.core_ports hports).passes hparity).setR hregs) (h.core_ports hports)

theorem Goes.hrstPulse (h : Goes ps s₀ s) (hports : .ports ∈ ps) {n : Nat} :
    Goes ps s₀ (Machine.hrstPulse s n) := by
  unfold Machine.hrstPulse
  exact h.core_ports hports (length_upd _ _ _)

/-- DEV and the interrupt controllers changed together. -/
theorem Goes.core_dev_irq (h : Goes ps s₀ s) (hdev : .dev ∈ ps) (hp : .irqPend ∈ ps) (hs : .irqSet ∈ ps) (hr : .irqRound ∈ ps)
    {f : DevSt → DevSt} {g : List IrqSt → List IrqSt} (hlatches : ∀ d : DevSt, (f d).latches.length = d.latches.length)
    (hirq : ∀ l : List IrqSt, (g l).length = l.length) :
    Goes ps s₀ (modC s fun c => { c with dev := f c.dev, irq := g c.irq }) :=
  (h.core_dev (f := fun c => f c.dev) hdev (hlatches _)).core_irq (f := fun c => g c.irq) hp hs hr (hirq _)

theorem Goes.partResetStart (h : Goes ps s₀ s) (hps : [.regs, .parity, .dev, .ports, .part, .mbxs, .irqPend, .irqSet,
    .irqRound, .key, .epd, .efl, .nfc, .cvu] ⊆ ps) {p cause : Nat} :
    Goes ps s₀ (Machine.partResetStart s p cause) := by
  unfold Machine.partResetStart
  extract_lets s1 s2 s3 s4 s5 s6 s7 s8 s9 s10 s11 s12 s13
  have h1 : Goes ps s₀ s1 := h.modPart (hps (by decide))
  have h3 : Goes ps s₀ s3 := (h1.modPart (hps (by decide))).modWdog (hps (by decide))
  have h6 : Goes ps s₀ s6 := ((h3.passes (hps (by decide))).portReset (hps (by decide)) (hps (by decide)) (hps (by
    decide))).restage (hps (by decide))
  have h8 : Goes ps s₀ s8 := (h6.foldl fun _ _ h => h.mbxEmpty (hps (by decide)) (hps (by decide))).nfcPartReset (hps (by
    decide))
  have h10 : Goes ps s₀ s10 := (h8.eflPartReset (hps (by decide)) (hps (by decide))).foldl fun _ _ h =>
    h.epdRegionMoved (hps (by decide))
  have h12 : Goes ps s₀ s12 := (h10.keyFifoReset (hps (by decide))).foldl fun _ _ h => h.cvuMoved (hps (by decide))
  have h13 : Goes ps s₀ s13 :=
    h12.core_dev_irq (f := fun d => { d with latches := upd d.latches p fun _ => 0 })
      (g := fun l => upd l p fun q => { asserts := q.asserts }) (hps (by decide)) (hps (by decide)) (hps (by decide)) (hps (by
        decide)) (fun _ => length_upd _ _ _) fun _ => length_upd _ _ _
  exact .cond h1 (.cond (h13.hrstPulse (hps (by decide))) h13)

theorem Goes.partResetDone (h : Goes ps s₀ s) (hps : [.hold, .regs, .parity, .course, .part, .irqPend, .buf, .seq, .flw,
    .key, .epd, .pix, .efl, .nfc, .gng] ⊆ ps) {p : Nat} :
    Goes ps s₀ (Machine.partResetDone s p) :=
  .cond (((((((h.modPart (hps (by decide))).nfcPartDone (hps (by decide)) (hps (by decide))).foldl fun _ _ h =>
    h.granuleClear (hps (by decide))).keyPartReset (hps (by decide))).wdogStart (hps (by decide))).foldl fun _ _ h =>
    h.raise (hps (by decide))).nfcAfter (List.Subset.trans (by decide) hps)) h

theorem Goes.wdogExpire (h : Goes ps s₀ s) (hall : ∀ k : Piece, k ∈ ps) {p cause : Nat} :
    Goes ps s₀ (Machine.wdogExpire s p cause) :=
  .cond (.cond (((Goes.cond ((Goes.cond (((h.modWdog (hall _)).capoFault (hall _)).modWdog (hall _)) ((h.modWdog (hall
    _)).capoFault (hall _))).core_seq (hall _)) (.cond (((h.modWdog (hall _)).capoFault (hall _)).modWdog (hall _))
    ((h.modWdog (hall _)).capoFault (hall _)))).partResetStart (fun _ _ => hall _)).nfcAfter (fun _ _ => hall _))
    ((Goes.cond ((Goes.cond (((h.modWdog (hall _)).capoFault (hall _)).modWdog (hall _)) ((h.modWdog (hall _)).capoFault
    (hall _))).core_seq (hall _)) (.cond (((h.modWdog (hall _)).capoFault (hall _)).modWdog (hall _)) ((h.modWdog (hall
    _)).capoFault (hall _)))).wdogStart (hall _))) h

theorem Goes.wdogWarnOp (h : Goes ps s₀ s) (hpart : .part ∈ ps) (hirqPend : .irqPend ∈ ps) {p : Nat} :
    Goes ps s₀ (Machine.wdogWarnOp s p) :=
  .cond ((h.modWdog hpart).raise hirqPend) h

theorem Goes.wdogKickOp (h : Goes ps s₀ s) (hall : ∀ k : Piece, k ∈ ps) {p : Nat} {v : Word} :
    Goes ps s₀ (Machine.wdogKickOp s p v) :=
  .cond ((Goes.cond ((h.wdogStart (hall _)).modWdog (hall _)) (.cond h (h.wdogExpire hall))).modPart (hall _)) (.cond
    ((h.wdogStart (hall _)).modWdog (hall _)) (.cond h (h.wdogExpire hall)))

theorem Goes.wdogCfgWritten (h : Goes ps s₀ s) (hpart : .part ∈ ps) {p : Nat} {old : Word} :
    Goes ps s₀ (Machine.wdogCfgWritten s p old) :=
  .cond (h.wdogStart hpart) h

theorem Goes.rstWriteOp (h : Goes ps s₀ s) (hps : [.regs, .parity, .dev, .ports, .part, .mbxs, .irqPend, .irqSet,
    .irqRound, .key, .epd, .efl, .nfc, .cvu] ⊆ ps) {p : Nat} {v : Word} :
    Goes ps s₀ (Machine.rstWriteOp s p v) :=
  h.foldl fun _ _ h => h.partResetStart (List.Subset.trans (by decide) hps)

theorem Goes.storeRw (h : Goes ps s₀ s) (hps : [.aon, .regs, .parity, .irqPend, .irqSet, .irqRound, .nfc] ⊆ ps) {p a : Nat}
    {m new : Word} :
    Goes ps s₀ (Machine.storeRw s p a m new) := by
  unfold Machine.storeRw
  dsimp only
  refine .cond ?_ ?_
  · exact .cond h (h.passes (hps (by decide)))
  · refine .cond ?_ ?_
    · split
      · exact (Goes.cond h (h.passes (hps (by decide)))).modIrq (hps (by decide)) (hps (by decide)) (hps (by decide))
      · exact (Goes.cond h (h.passes (hps (by decide)))).modIrq (hps (by decide)) (hps (by decide)) (hps (by decide))
      · exact (Goes.cond h (h.passes (hps (by decide)))).modIrq (hps (by decide)) (hps (by decide)) (hps (by decide))
      · exact (Goes.cond h (h.passes (hps (by decide)))).modIrq (hps (by decide)) (hps (by decide)) (hps (by decide))
      · exact (Goes.cond h (h.passes (hps (by decide)))).modIrq (hps (by decide)) (hps (by decide)) (hps (by decide))
      · exact .cond h (h.passes (hps (by decide)))
    · exact .cond ((Goes.cond h (h.passes (hps (by decide)))).modWin (hps (by decide))) (.cond ((Goes.cond h (h.passes (hps
          (by decide)))).modWin (hps (by decide))) (.cond ((Goes.cond h (h.passes (hps (by decide)))).modWin (hps (by
          decide))) ((Goes.cond h (h.passes (hps (by decide)))).setStored (hps (by decide)) (hps (by decide)))))

theorem Goes.clearBits (h : Goes ps s₀ s) (hps : [.aon, .irqPend, .irqSet, .irqRound, .pwr, .doze, .flw, .cvu] ⊆ ps)
    {a : Nat} {v : Word} :
    Goes ps s₀ (Machine.clearBits s a v) :=
  .cond h (.cond (h.modIrq (hps (by decide)) (hps (by decide)) (hps (by decide))) (.cond (h.core_pwr (hps (by decide)) (hps
    (by decide))) (.cond (h.setA (hps (by decide))) (.cond (h.core_pwr (hps (by decide)) (hps (by decide))) (.cond (h.modA
    (hps (by decide))) (.cond ((Goes.cond (h.stallCleared (hps (by decide))) h).modAge (hps (by decide))) (.cond (h.modU
    (hps (by decide))) h)))))))

theorem Goes.cvuRepaired (h : Goes ps s₀ s) (hcvu : .cvu ∈ ps) {a : Nat} :
    Goes ps s₀ (Machine.cvuRepaired s a) :=
  .cond (h.modU hcvu) h

theorem Goes.writePrimary (h : Goes ps s₀ s) (hps : [.aon, .regs, .parity, .irqPend, .irqSet, .irqRound, .pwr, .doze, .flw,
    .nfc, .cvu] ⊆ ps) {pre : State} {p a : Nat} {r : RegSpec} {v : Word} :
    Goes ps s₀ (Machine.writePrimary pre s p a r v).1 := by
  simp only [Machine.writePrimary, apply_ite Prod.fst]
  exact .cond h (.cond h (((h.cvuRepaired (hps (by decide))).storeRw (List.Subset.trans (by decide) hps)).clearBits (List.Subset.trans (by
    decide) hps)))

theorem Goes.writeStaged (h : Goes ps s₀ s) (hregs : .regs ∈ ps) {pre : State} {p a : Nat} {r : RegSpec} {v : Word} :
    Goes ps s₀ (Machine.writeStaged pre s p a r v).1 := by
  unfold Machine.writeStaged
  dsimp only
  split
  · exact h
  · simp only [apply_ite Prod.fst]
    exact .cond h (.cond h (.cond (h.setR hregs) h))

theorem Goes.writeStore (h : Goes ps s₀ s) (hps : [.aon, .regs, .parity, .irqPend, .irqSet, .irqRound, .pwr, .doze, .flw,
    .nfc, .cvu] ⊆ ps) {pre : State} {p a : Nat} {v : Word} :
    Goes ps s₀ (Machine.writeStore pre s p a v).1 := by
  unfold Machine.writeStore
  split
  · exact h
  · simp only [apply_ite Prod.fst]
    exact .cond (h.writeStaged (hps (by decide))) (.cond (h.writePrimary hps) h)

theorem Goes.writeQuotas (h : Goes ps s₀ s) (hregs : .regs ∈ ps) (hparity : .parity ∈ ps) (hbuf : .buf ∈ ps) {ws : Writes} :
    Goes ps s₀ (Machine.writeQuotas s ws).1 := by
  simp only [Machine.writeQuotas, apply_ite Prod.fst]
  exact .cond h (h.quotaWrite hregs hparity hbuf)

theorem Goes.writeCvu (h : Goes ps s₀ s) (hregs : .regs ∈ ps) (hirqPend : .irqPend ∈ ps) (hcvu : .cvu ∈ ps) {ws : Writes}
    {u : Nat} :
    Goes ps s₀ (Machine.writeCvu s ws u).1 := by
  simp only [Machine.writeCvu, apply_ite Prod.fst]
  exact .cond (h.cvuCtlOp hregs hirqPend hcvu) h

theorem Goes.sleepRequestOp (h : Goes ps s₀ s) (hpwr : .pwr ∈ ps) (hdoze : .doze ∈ ps) :
    Goes ps s₀ (Machine.sleepRequestOp s) :=
  .cond h (h.core_pwr hpwr hdoze)

theorem Goes.errclrOp (h : Goes ps s₀ s) (hports : .ports ∈ ps) {n : Nat} :
    Goes ps s₀ (Machine.errclrOp s n) :=
  h.core_ports hports

theorem Goes.capoReleaseOp (h : Goes ps s₀ s) (hcapo : .capo ∈ ps) :
    Goes ps s₀ (Machine.capoReleaseOp s) :=
  h.core_capo hcapo

theorem Goes.latchOp (h : Goes ps s₀ s) (hdev : .dev ∈ ps) {p : Nat} :
    Goes ps s₀ (Machine.latchOp s p) :=
  h.core_dev hdev

theorem Goes.pwrCntclrOp (h : Goes ps s₀ s) (haon : .aon ∈ ps) :
    Goes ps s₀ (Machine.pwrCntclrOp s) :=
  h.modA haon

theorem Goes.seqCntclrOp (h : Goes ps s₀ s) (hseq : .seq ∈ ps) :
    Goes ps s₀ (Machine.seqCntclrOp s) :=
  h.core_seq hseq

theorem Goes.devrstOp (h : Goes ps s₀ s) (hpwr : .pwr ∈ ps) (hdoze : .doze ∈ ps) {v : Word} :
    Goes ps s₀ (Machine.devrstOp s v).1 := by
  simp only [Machine.devrstOp, apply_ite Prod.fst]
  exact .cond (h.core_pwr hpwr hdoze) h

theorem Goes.lockCtlOp (h : Goes ps s₀ s) (hhold : .hold ∈ ps) (hirqPend : .irqPend ∈ ps) (hkey : .key ∈ ps) {v : Word} :
    Goes ps s₀ (Machine.lockCtlOp s v) :=
  .cond (h.unlockOp hhold hirqPend hkey) (.cond (h.lockOp hhold hirqPend hkey) h)

theorem Goes.alarmWritten (h : Goes ps s₀ s) (haon : .aon ∈ ps) :
    Goes ps s₀ (Machine.alarmWritten s) :=
  .cond (h.alarmFlags haon) h

theorem Goes.writeAct (h : Goes ps s₀ s) (hall : ∀ k : Piece, k ∈ ps) {pre : State} {p : Part} {a : Nat} {v : Word} :
    Goes ps s₀ (Machine.writeAct pre s p a v).1 := by
  simp only [Machine.writeAct, apply_ite Prod.fst]
  exact .cond (h.courseCommitOp (fun _ _ => hall _)) (.cond (.cond (h.capoTrigger (hall _)) h) (.cond (.cond
    (h.capoReleaseOp (hall _)) h) (.cond (.cond (h.latchOp (hall _)) h) (.cond (h.ownersMoved (fun _ _ => hall _)) (.cond
    (h.wdogCfgWritten (hall _)) (.cond (h.wdogKickOp hall) (.cond (h.rstWriteOp (fun _ _ => hall _)) (.cond (.cond
    (h.errclrOp (hall _)) h) (.cond (.cond (h.mbxPostOp (hall _) (hall _) (hall _)) h) (.cond (h.mbxAckOp (hall _) (hall _))
    (.cond (h.advTry (hall _)) (.cond (.cond (h.sleepRequestOp (hall _) (hall _)) h) (.cond (h.alarmWritten (hall _)) (.cond
    (.cond (h.pwrCntclrOp (hall _)) h) (.cond (h.devrstOp (hall _) (hall _)) (.cond (h.railRequestPush (hall _)) (.cond
    (h.railRequestPush (hall _)) (.cond (.cond (h.seqCntclrOp (hall _)) h) (.cond (.cond (h.thmCntclrOp (hall _)) h) (.cond
    (h.ageWritten (hall _)) (.cond (.cond (h.flwCntclrOp (hall _)) h) (.cond (.cond (h.keyCntclrOp (hall _)) h) (.cond
    (h.lockCtlOp (hall _) (hall _) (hall _)) (.cond (h.fifoPopOp (hall _)) (.cond (h.epdRequestOp (hall _) (hall _)) (.cond
    (.cond (h.epdCntclrOp (hall _)) h) (.cond (.cond (h.wfValidateStart (hall _) (hall _)) h) (.cond (.cond (h.pixCntclrOp
    (hall _)) h) (.cond (.cond (h.eflCntclrOp (hall _)) h) (.cond (h.eflSubmit (hall _)) (.cond (.cond ((Goes.cond
    (h.nfcCntclrOp (hall _)) h).nfcWarnclrOp (hall _)) (.cond (h.nfcCntclrOp (hall _)) h)) (.cond (.cond (h.submitOp (hall
    _) (hall _) (hall _)) h) (.cond (h.ringPopOp (hall _)) (.cond (h.voteWritten (hall _) (hall _)) (.cond (.cond
    (h.gngCntclrOp (hall _)) h) h)))))))))))))))))))))))))))))))))))

/-- Words of a frame that each go the same way. -/
theorem Goes.eachWord (h : Goes ps s₀ s) {ws : Writes} {b : Bool} {f : State → Nat → Word → State × Bool}
    (hf : ∀ x a v, Goes ps s₀ x → Goes ps s₀ (f x a v).1) : Goes ps s₀ (eachWord ws (s, b) f).1 :=
  List.foldlRecOn ws _ (motive := fun x : State × Bool => Goes ps s₀ x.1) h fun x hx w _ => hf x.1 w.1 w.2 hx

theorem Goes.applyWrites (h : Goes ps s₀ s) (hall : ∀ k : Piece, k ∈ ps) {p : Part} {ws : Writes} :
    Goes ps s₀ (Machine.applyWrites s p ws).1 := by
  unfold Machine.applyWrites
  extract_lets x q y z m
  have hx : Goes ps s₀ x.1 := h.eachWord fun _ _ _ h => h.writeStore fun _ _ => hall _
  have hq : Goes ps s₀ q.1 := hx.writeQuotas (hall _) (hall _) (hall _)
  have hy : Goes ps s₀ y.1 := hq.eachWord fun _ _ _ h => h.writeAct hall
  have hz : Goes ps s₀ z.1 := List.foldlRecOn (upto 4) _ (motive := fun x : State × Bool => Goes ps s₀ x.1) hy
    fun x hx u _ => hx.writeCvu (hall _) (hall _) (hall _)
  have hm : Goes ps s₀ m := hz.railMerge (hall _)
  exact .cond (hm.nfcAfter fun _ _ => hall _) hm

theorem Goes.writeRegs (h : Goes ps s₀ s) (hall : ∀ k : Piece, k ∈ ps) {p : Part} {ws : Writes} :
    Goes ps s₀ (Machine.writeRegs s p ws).1 := by
  simp only [Machine.writeRegs, apply_ite Prod.fst]
  exact .cond h (h.applyWrites hall)

end Rules

end Sys2Proof.Machine
end

section
/-! SUPPORT. Where the boot, the supplies and the frames go. -/

set_option Elab.async false

namespace Sys2Proof.Machine

section Rules

variable {ps : List Piece} {s₀ s : State}

/-- The core domain at its reset values but for the ports and PWR. -/
theorem Goes.coreReset (h : Goes ps s₀ s) (hall : ∀ k : Piece, k ∈ ps) {q : List PortSt} {w : PwrSt}
    (hports : s.core.ports.length = 4 → q.length = 4) : Goes ps s₀ { s with core := { ports := q, pwr := w } } := by
  refine h.trans ⟨fun j => .inl (hall j), fun hc => ?_, fun hc => ?_, fun _ => ?_, .inl (hall _), .inl (hall _)⟩
  · unfold Counted at hc ⊢
    refine ⟨hports hc.1, ?_⟩
    dsimp only
    decide
  · unfold Canonical at hc ⊢
    obtain ⟨-, -, haon, -, -, -, hflash, hmarkers⟩ := hc
    exact ⟨rfl, rfl, haon, rfl, rfl, rfl, hflash, hmarkers⟩
  · unfold Bounded
    constructor
    · show ∀ m ∈ ({} : CoreSt).mbxs, m.held ≤ 8
      decide
    · show ∀ w ∈ ({} : CoreSt).nfc.wins, w.count ≤ 256
      decide

/-- The core domain at its reset values. -/
theorem Goes.coreGone (h : Goes ps s₀ s) (hall : ∀ k : Piece, k ∈ ps) : Goes ps s₀ { s with core := {} } :=
  h.coreReset hall (q := ({} : CoreSt).ports) (w := {}) fun _ => rfl

/-- Another content of the always-on domain. -/
theorem Goes.aonNew (h : Goes ps s₀ s) (haon : .aon ∈ ps) (hhold : .hold ∈ ps) {a : Aon} {b : AonHold} (hregs : a.regs = []) :
    Goes ps s₀ { s with aon := a, hold := b } := by
  have h1 : Goes ps s₀ (Machine.modA s fun _ => a) := h.modA haon fun _ => by rw [hregs]; rfl
  exact h1.modH hhold (f := fun _ => b)

theorem Goes.setBoth (h : Goes ps s₀ s) (hregs : .regs ∈ ps) {a : Nat} {v : Word} :
    Goes ps s₀ (Machine.setBoth s a v) :=
  (h.setR hregs).setR hregs

theorem Goes.tableApply (h : Goes ps s₀ s) (hregs : .regs ∈ ps) {t : List (Nat × Nat)} {bs : List Byte} :
    Goes ps s₀ (Machine.tableApply s t bs) :=
  h.foldl fun _ _ h => h.setBoth hregs

theorem Goes.railSection (h : Goes ps s₀ s) (hregs : .regs ∈ ps) (hseq : .seq ∈ ps) {bs : List Byte} :
    Goes ps s₀ (Machine.railSection s bs).1 := by
  unfold Machine.railSection
  dsimp only
  split <;> dsimp only
  · exact (h.tableApply hregs).core_seq hseq
  · exact h.core_seq hseq

theorem Goes.flowSection (h : Goes ps s₀ s) (hregs : .regs ∈ ps) (hflw : .flw ∈ ps) {bs : List Byte} :
    Goes ps s₀ (Machine.flowSection s bs).1 := by
  simp only [Machine.flowSection, apply_ite Prod.fst]
  exact .cond (Goes.core_flw (h.foldl fun _ _ h => h.setR hregs) hflw) (h.core_flw hflw)

theorem Goes.keySection (h : Goes ps s₀ s) (hregs : .regs ∈ ps) (hkey : .key ∈ ps) {bs : List Byte} :
    Goes ps s₀ (Machine.keySection s bs).1 := by
  simp only [Machine.keySection, apply_ite Prod.fst]
  exact .cond ((h.tableApply hregs).modK hkey) (h.modK hkey)

theorem Goes.regEntry (h : Goes ps s₀ s) (hall : ∀ k : Piece, k ∈ ps) {bs : List Byte} :
    ∀ u ∈ Machine.regEntry s bs, Goes ps s₀ u := by
  unfold Machine.regEntry
  extract_lets a m v bad new held prim
  split
  · split <;> simp [h]
  next r _ =>
    extract_lets st other wo x sv
    have hx : Goes ps s₀ x.1 := .cond_fst h (h.writeRegs hall)
    split
    · simp
    · split
      · simp
      · split
        · simpa using hx
        · split
          · simp
          · split
            · simp
            next q _ =>
              extract_lets y
              have hy : Goes ps s₀ y.1 := hx.writeStaged (hall _)
              split
              · simp
              · clear_value prim
                cases prim with
                | none => simp
                | some k => simpa using hy.setR (hall _)

theorem Goes.regEntries (hall : ∀ k : Piece, k ∈ ps) : ∀ {n : Nat} {s : State} (_ : Goes ps s₀ s) {bs : List Byte},
    ∀ u ∈ regEntries s n bs, Goes ps s₀ u
  | 0, s, h, bs => by simpa [Machine.regEntries] using h
  | n + 1, s, h, bs => by
    unfold Machine.regEntries
    split
    next t ht => exact Goes.regEntries hall (h.regEntry hall t ht)
    · simp

theorem Goes.regSection (h : Goes ps s₀ s) (hall : ∀ k : Piece, k ∈ ps) {bs : List Byte} :
    Goes ps s₀ (Machine.regSection s bs).1 := by
  unfold Machine.regSection
  split
  · exact h
  · split
    next t ht => exact Goes.regEntries hall h t ht
    · exact h

theorem Goes.layoutSection (h : Goes ps s₀ s) (hefl : .efl ∈ ps) {bs : List Byte} :
    Goes ps s₀ (Machine.layoutSection s bs).1 := by
  simp only [Machine.layoutSection, apply_ite Prod.fst]
  exact .cond (h.layoutApply hefl) h

theorem Goes.bootSection (h : Goes ps s₀ s) (hall : ∀ k : Piece, k ∈ ps) {img : List Byte} {i : Nat} {e : BootSec} :
    Goes ps s₀ (Machine.bootSection s img i e) := by
  have hsec : ∀ x ∈ (match e.typ with
      | 1 => some (Machine.regSection s (imgBytes img e.off e.len)) | 2 => some (Machine.railSection s (imgBytes img e.off e.len))
      | 3 => some (Machine.flowSection s (imgBytes img e.off e.len)) | 4 => some (Machine.keySection s (imgBytes img e.off e.len))
      | 5 => some (Machine.layoutSection s (imgBytes img e.off e.len)) | _ => none : Option (State × Bool)), Goes ps s₀ x.1 := by
    split <;> intro x hx <;> cases hx
    · exact h.regSection hall
    · exact h.railSection (hall _) (hall _)
    · exact h.flowSection (hall _) (hall _)
    · exact h.keySection (hall _) (hall _)
    · exact h.layoutSection (hall _)
  unfold Machine.bootSection
  dsimp only
  split
  · exact h
  next hx => exact (hsec _ hx).modF (hall _)
  next hx => exact (hsec _ hx).modF (hall _)

theorem Goes.bootApply (h : Goes ps s₀ s) (hall : ∀ k : Piece, k ∈ ps) {img : List Byte} :
    Goes ps s₀ (Machine.bootApply s img) :=
  .cond ((((((h.foldl fun _ _ h => h.bootSection hall).foldl fun _ _ h => h.bootSection hall).modF (hall _)).core_gng (hall
    _)).modF (hall _)).setR (hall _)) ((((h.foldl fun _ _ h => h.bootSection hall).foldl fun _ _ h => h.bootSection
    hall).modF (hall _)).core_gng (hall _))

theorem Goes.bootCourse (h : Goes ps s₀ s) (hall : ∀ k : Piece, k ∈ ps) :
    Goes ps s₀ (Machine.bootCourse s) :=
  .cond ((h.modF (hall _)).bootApply hall) (.cond ((h.modF (hall _)).bootApply hall) (h.modF (hall _)))

theorem Goes.setPhase (h : Goes ps s₀ s) (haon : .aon ∈ ps) {ph : Phase} :
    Goes ps s₀ (Machine.setPhase s ph) :=
  h.modA haon

theorem Goes.startWake (h : Goes ps s₀ s) (haon : .aon ∈ ps) (hhold : .hold ∈ ps) {causes : BitVec 8} :
    Goes ps s₀ (Machine.startWake s causes) := by
  unfold Machine.startWake
  dsimp only
  exact (h.modA haon).modH hhold

theorem Goes.sleepArmed (h : Goes ps s₀ s) (haon : .aon ∈ ps) (hhold : .hold ∈ ps) {w : WakeInputs} :
    Goes ps s₀ (Machine.sleepArmed s w) :=
  .cond ((h.setPhase haon).modH hhold) (((h.setPhase haon).modH hhold).startWake haon hhold)

theorem Goes.coreStop (h : Goes ps s₀ s) (hall : ∀ k : Piece, k ∈ ps) {code : Nat} :
    Goes ps s₀ (Machine.coreStop s code) := by
  unfold Machine.coreStop
  extract_lets f excl s1 s2 s3
  have h1 : Goes ps s₀ s1 := .cond h (h.eflInterrupt (hall _))
  have h3 : Goes ps s₀ s3 := (h1.modH (hall _)).modA (hall _)
  exact h3.coreReset hall fun hlen => by simpa using hlen

theorem Goes.coreRestart (h : Goes ps s₀ s) (hall : ∀ k : Piece, k ∈ ps) {code : Nat} :
    Goes ps s₀ (Machine.coreRestart s code) :=
  (h.coreStop hall).startWake (hall _) (hall _)

theorem Goes.faultLevels (h : Goes ps s₀ s) (hhold : .hold ∈ ps) :
    Goes ps s₀ (Machine.faultLevels s) :=
  h.modH hhold

theorem Goes.mainWarnOp (h : Goes ps s₀ s) (hps : [.aon, .hold, .regs, .parity, .course, .capo, .irqPend, .buf, .seq, .flw,
    .key, .epd, .pix, .efl, .nfc, .gng] ⊆ ps) :
    Goes ps s₀ (Machine.mainWarnOp s) :=
  .cond h (.cond ((((h.modA (hps (by decide))).raiseAll (hps (by decide))).capoFault (hps (by decide))).nfcAfter
    (List.Subset.trans (by decide) hps)) (h.modA (hps (by decide))))

theorem Goes.mainWarnEndOp (h : Goes ps s₀ s) (hps : [.aon, .hold, .regs, .parity, .course, .irqPend, .buf, .seq, .flw,
    .key, .epd, .pix, .efl, .nfc, .gng] ⊆ ps) :
    Goes ps s₀ (Machine.mainWarnEndOp s) :=
  .cond (.cond ((((h.modA (hps (by decide))).raiseAll (hps (by decide))).advTry (hps (by decide))).nfcAfter
    (List.Subset.trans (by decide) hps)) (h.modA (hps (by decide)))) h

theorem Goes.switchOverOp (h : Goes ps s₀ s) (hall : ∀ k : Piece, k ∈ ps) :
    Goes ps s₀ (Machine.switchOverOp s) := by
  unfold Machine.switchOverOp
  refine .cond h ?_
  extract_lets s1
  have h1 : Goes ps s₀ s1 := h.modA (hall _)
  split
  · exact h1.coreStop hall
  · exact ((h1.setPhase (hall _)).faultLevels (hall _)).modH (hall _)
  · exact (h1.setPhase (hall _)).modH (hall _)
  · exact h1
  · exact h1
  · exact (h1.setPhase (hall _)).faultLevels (hall _)
  · exact (((h1.setPhase (hall _)).coreGone hall).faultLevels (hall _)).modH (hall _)

theorem Goes.mainAbove (h : Goes ps s₀ s) (haon : .aon ∈ ps) :
    Goes ps s₀ (Machine.mainAbove s) :=
  h.modA haon

theorem Goes.mainAboveOp (h : Goes ps s₀ s) (haon : .aon ∈ ps) :
    Goes ps s₀ (Machine.mainAboveOp s) :=
  .cond h (h.mainAbove haon)

theorem Goes.holdStartOp (h : Goes ps s₀ s) (haon : .aon ∈ ps) :
    Goes ps s₀ (Machine.holdStartOp s) :=
  .cond ((h.mainAbove haon).modA haon) h

theorem Goes.holdBreakOp (h : Goes ps s₀ s) (haon : .aon ∈ ps) :
    Goes ps s₀ (Machine.holdBreakOp s) :=
  h.modA haon

theorem Goes.returnOp (h : Goes ps s₀ s) (haon : .aon ∈ ps) (hhold : .hold ∈ ps) {w : WakeInputs} :
    Goes ps s₀ (Machine.returnOp s w) :=
  .cond h (.cond ((h.modA haon).setPhase haon) (.cond ((h.modA haon).startWake haon hhold) (.cond ((h.modA haon).startWake
    haon hhold) (((h.modA haon).modH hhold).sleepArmed haon hhold))))

theorem Goes.backupOp (h : Goes ps s₀ s) (haon : .aon ∈ ps) {valid : Bool} :
    Goes ps s₀ (Machine.backupOp s valid) :=
  h.modA haon

theorem Goes.coldStartOp (h : Goes ps s₀ s) (hall : ∀ k : Piece, k ∈ ps) : Goes ps s₀ (Machine.coldStartOp s) := by
  unfold Machine.coldStartOp
  extract_lets s1
  have h1 : Goes ps s₀ s1 := .cond (h.eflInterrupt (hall _)) h
  exact (h1.coreGone hall).aonNew (hall _) (hall _) rfl

theorem Goes.powerOnOp (h : Goes ps s₀ s) (haon : .aon ∈ ps) (hhold : .hold ∈ ps) : Goes ps s₀ (Machine.powerOnOp s) := by
  refine .cond ?_ h
  exact h.aonNew haon hhold rfl

theorem Goes.vmeasOp (h : Goes ps s₀ s) (hpwr : .pwr ∈ ps) (hdoze : .doze ∈ ps) {mainMv bakMv : Nat} :
    Goes ps s₀ (Machine.vmeasOp s mainMv bakMv) :=
  h.core_pwr hpwr hdoze

theorem Goes.dozeOp (h : Goes ps s₀ s) (hpwr : .pwr ∈ ps) (hdoze : .doze ∈ ps) :
    Goes ps s₀ (Machine.dozeOp s) :=
  .cond (h.core_pwr hpwr hdoze) h

theorem Goes.sleepEntryOp (h : Goes ps s₀ s) (hall : ∀ k : Piece, k ∈ ps) {w : WakeInputs} :
    Goes ps s₀ (Machine.sleepEntryOp s w) :=
  .cond (.cond ((h.coreStop hall).sleepArmed (hall _) (hall _)) (h.coreStop hall)) h

theorem Goes.sleepTimeoutOp (h : Goes ps s₀ s) (hpwr : .pwr ∈ ps) (hdoze : .doze ∈ ps) :
    Goes ps s₀ (Machine.sleepTimeoutOp s) :=
  .cond (h.core_pwr hpwr hdoze) h

theorem Goes.alarmOp (h : Goes ps s₀ s) (haon : .aon ∈ ps) (hhold : .hold ∈ ps) :
    Goes ps s₀ (Machine.alarmOp s) :=
  .cond (.cond ((h.alarmFlags haon).startWake haon hhold) (.cond ((h.alarmFlags haon).modH hhold) (h.alarmFlags haon))) h

theorem Goes.wakeEventOp (h : Goes ps s₀ s) (haon : .aon ∈ ps) (hhold : .hold ∈ ps) {src : WakeSource} :
    Goes ps s₀ (Machine.wakeEventOp s src) :=
  .cond (h.startWake haon hhold) h

theorem Goes.armEndOp (h : Goes ps s₀ s) (haon : .aon ∈ ps) (hhold : .hold ∈ ps) {straps : BitVec 2} :
    Goes ps s₀ (Machine.armEndOp s straps) :=
  .cond ((h.setPhase haon).modH hhold) h

theorem Goes.vddcReadyOp (h : Goes ps s₀ s) (haon : .aon ∈ ps) (hhold : .hold ∈ ps) :
    Goes ps s₀ (Machine.vddcReadyOp s) :=
  .cond ((h.setPhase haon).modH hhold) h

theorem Goes.x24ReadyOp (h : Goes ps s₀ s) (haon : .aon ∈ ps) (hhold : .hold ∈ ps) :
    Goes ps s₀ (Machine.x24ReadyOp s) :=
  .cond ((h.setPhase haon).modH hhold) h

theorem Goes.pllLockOp (h : Goes ps s₀ s) (haon : .aon ∈ ps) (hhold : .hold ∈ ps) :
    Goes ps s₀ (Machine.pllLockOp s) :=
  .cond ((h.setPhase haon).modH hhold) h

theorem Goes.startReduced (h : Goes ps s₀ s) (haon : .aon ∈ ps) (hhold : .hold ∈ ps) {outcome : Nat} :
    Goes ps s₀ (Machine.startReduced s outcome) :=
  (h.setPhase haon).modH hhold

theorem Goes.refuseOp (h : Goes ps s₀ s) (haon : .aon ∈ ps) (hhold : .hold ∈ ps) :
    Goes ps s₀ (Machine.refuseOp s) := by
  unfold Machine.refuseOp
  dsimp only
  exact (((h.setPhase haon).faultLevels hhold).modH hhold).modA haon

theorem Goes.stepTimeoutOp (h : Goes ps s₀ s) (haon : .aon ∈ ps) (hhold : .hold ∈ ps) :
    Goes ps s₀ (Machine.stepTimeoutOp s) := by
  unfold Machine.stepTimeoutOp
  split
  · exact .cond (h.setPhase haon) (h.refuseOp haon hhold)
  · exact .cond (h.setPhase haon) (h.startReduced haon hhold)
  · exact .cond (h.setPhase haon) (h.startReduced haon hhold)
  · exact h

theorem Goes.backoffEndOp (h : Goes ps s₀ s) (haon : .aon ∈ ps) (hhold : .hold ∈ ps) :
    Goes ps s₀ (Machine.backoffEndOp s) := by
  unfold Machine.backoffEndOp
  split
  · exact (h.setPhase haon).modH hhold
  · exact (h.setPhase haon).modH hhold
  · exact (h.setPhase haon).modH hhold
  · exact h

theorem Goes.resetAssertOp (h : Goes ps s₀ s) (hall : ∀ k : Piece, k ∈ ps) :
    Goes ps s₀ (Machine.resetAssertOp s) := by
  unfold Machine.resetAssertOp
  extract_lets s1 code
  have h1 : Goes ps s₀ s1 := h.modA (hall _)
  have hcode : Goes ps s₀ (code s1) := .cond h1 (h1.modA (hall _))
  split
  · exact h1
  · exact h1
  · exact (h1.coreStop hall).setPhase (hall _)
  · exact hcode.modH (hall _)
  · exact (hcode.setPhase (hall _)).modH (hall _)
  · exact (hcode.setPhase (hall _)).modH (hall _)
  · exact ((hcode.setPhase (hall _)).coreGone hall).modH (hall _)

theorem Goes.resetReleaseOp (h : Goes ps s₀ s) (haon : .aon ∈ ps) (hhold : .hold ∈ ps) :
    Goes ps s₀ (Machine.resetReleaseOp s) :=
  .cond (.cond ((h.modA haon).startWake haon hhold) ((h.modA haon).setPhase haon)) (h.modA haon)

theorem Goes.vddcFaultOp (h : Goes ps s₀ s) (hall : ∀ k : Piece, k ∈ ps) :
    Goes ps s₀ (Machine.vddcFaultOp s) :=
  (h.modA (hall _)).coreRestart hall

theorem Goes.clockWindowOp (h : Goes ps s₀ s) (haon : .aon ∈ ps) (hirqPend : .irqPend ∈ ps) (hpwr : .pwr ∈ ps) (hdoze :
    .doze ∈ ps) {edges : Nat} :
    Goes ps s₀ (Machine.clockWindowOp s edges) :=
  .cond h (.cond (.cond (.cond (h.modA haon) (h.modA haon)) (h.modA haon)) (.cond h (.cond (((h.modA haon).core_pwr hpwr
    hdoze).raiseAll hirqPend) (h.modA haon))))

theorem Goes.pllLossOp (h : Goes ps s₀ s) (hps : [.hold, .regs, .parity, .course, .capo, .irqPend, .buf, .pwr, .doze, .seq,
    .flw, .key, .epd, .pix, .efl, .nfc, .gng] ⊆ ps) :
    Goes ps s₀ (Machine.pllLossOp s) :=
  .cond h ((((h.core_pwr (hps (by decide)) (hps (by decide))).raiseAll (hps (by decide))).foldl fun _ _ h =>
    h.channelFaultOp (hps (by decide)) (hps (by decide)) (hps (by decide))).nfcAfter (List.Subset.trans (by decide) hps))

theorem Goes.blocksStart (h : Goes ps s₀ s) (hps : [.hold, .capo, .part, .irqPend, .seq, .flw, .key, .epd, .pix, .efl,
    .nfc, .gng] ⊆ ps) {pre : State} {obs : StartObs} :
    Goes ps s₀ (Machine.blocksStart pre s obs) :=
  ((((((((((((Goes.cond (h.panelCopy (hps (by decide))) h).seqStart (hps (by decide))).keyStart (hps (by decide)) (hps (by
    decide)) (hps (by decide))).foldl fun _ _ h => h.wdogStart (hps (by decide))).modF (hps (by decide))).logAdopt (hps (by
    decide))).foldl fun _ _ h => h.ageWritten (hps (by decide))).modN (hps (by decide))).foldl fun _ _ h => h.bankClassOp
    (hps (by decide)) (hps (by decide)) (hps (by decide))).hookGng (hps (by decide)) (hps (by decide))).modG (hps (by
    decide))).whenS fun _ h => (h.wfValidateStart (hps (by decide)) (hps (by decide))).wfValidateEnd (hps (by decide)) (hps
    (by decide)) (hps (by decide))).seqStep (hps (by decide)) (hps (by decide)) (hps (by decide))

theorem Goes.coreStartOp (h : Goes ps s₀ s) (hall : ∀ k : Piece, k ∈ ps) {obs : StartObs} :
    Goes ps s₀ (Machine.coreStartOp s obs) := by
  refine .cond ?_ h
  extract_lets s1 s2 s3 s4 s5
  have h1 : Goes ps s₀ s1 := h.coreReset hall (q := ({} : CoreSt).ports) fun _ => rfl
  have h2 : Goes ps s₀ s2 := (h1.setPhase (hall _)).modH (hall _)
  have h3 : Goes ps s₀ s3 := (h2.bootCourse hall).blocksStart fun _ _ => hall _
  have h5 : Goes ps s₀ s5 := (h3.vmeasOp (hall _) (hall _)).raiseAll (hall _)
  exact .cond (h5.raiseAll (hall _)) h5

theorem Goes.pixelWrites (h : Goes ps s₀ s) (hbuf : .buf ∈ ps) (hpix : .pix ∈ ps) {a : Nat} {bs : List Byte} :
    Goes ps s₀ (Machine.pixelWrites s a bs) :=
  (h.pixReplace hbuf hpix).foldl fun _ _ h => h.pixWrite hbuf

/-- The bits and guards of granules change; the bytes of the buffer space stay. -/
theorem Goes.core_bufGuards (h : Goes ps s₀ s) (hbuf : .buf ∈ ps) {l : List Nat} {f : BufSt → Nat → BufSt}
    (hmem : ∀ b g, (f b g).mem = b.mem)
    (hguards : ∀ b g, swf (fun _ => (0 : Word)) b.guards = true → swf (fun _ => 0) (f b g).guards = true) :
    Goes ps s₀ (modC s fun c => { c with buf := l.foldl f c.buf }) :=
  h.core_buf hbuf
    (fun hm => (congrArg (swf bufReset) (List.foldlRecOn l f (motive := fun b => b.mem = s.core.buf.mem) rfl
      fun b hb g _ => (hmem b g).trans hb)).trans hm)
    fun hg => List.foldlRecOn l f (motive := fun b => swf (fun _ => (0 : Word)) b.guards = true) hg fun b hb g _ => hguards b g hb

theorem Goes.bulkWrite (h : Goes ps s₀ s) (hbuf : .buf ∈ ps) (hpix : .pix ∈ ps) {a : Nat} {bs : List Byte}
    {guard : Option Word} :
    Goes ps s₀ (Machine.bulkWrite s a bs guard) := by
  unfold Machine.bulkWrite
  dsimp only
  split
  · exact (h.bufStore hbuf).core_bufGuards hbuf (fun _ _ => rfl) fun _ _ => swf_sset _ _ _ _
  · exact h.pixelWrites hbuf hpix
  · exact h.bufStore hbuf

theorem Goes.frameEnd (h : Goes ps s₀ s) (hall : ∀ k : Piece, k ∈ ps) {p : Nat} {hdr : Hdr} {code bytes : Nat} :
    Goes ps s₀ (Machine.frameEnd s p hdr code bytes) :=
  .cond ((Goes.cond ((h.modPort (hall _)).raise (hall _)) (h.modPort (hall _))).coreRestart hall) (.cond ((h.modPort (hall
    _)).raise (hall _)) (h.modPort (hall _)))

theorem Goes.portBegin (h : Goes ps s₀ s) (hports : .ports ∈ ps) (_hpwr : .pwr ∈ ps) (hdoze : .doze ∈ ps) {p : Nat}
    {mode3 : Bool} :
    Goes ps s₀ (Machine.portBegin s p mode3) := by
  unfold Machine.portBegin
  exact (h.modPort hports).core_doze hdoze

theorem Goes.prstOp (h : Goes ps s₀ s) (hregs : .regs ∈ ps) (hparity : .parity ∈ ps) (hports : .ports ∈ ps) {p : Nat} :
    Goes ps s₀ (Machine.prstOp s p) :=
  h.portReset hregs hparity hports

theorem Goes.frameWrite (h : Goes ps s₀ s) (hall : ∀ k : Piece, k ∈ ps) {p : Part} {hdr : Hdr} {o : OpForm} {body : List Byte} :
    Goes ps s₀ (Machine.frameWrite s p hdr o body).1 := by
  unfold Machine.frameWrite
  extract_lets n
  refine .cond_fst (.cond_fst h ?_) ?_
  · exact h.bulkWrite (hall _) (hall _)
  · exact h.writeRegs hall

theorem Goes.frameRun (h : Goes ps s₀ s) (hall : ∀ k : Piece, k ∈ ps) {f : Frame} {o : OpForm} {hdr : Hdr} {pre : Option Nat} :
    Goes ps s₀ (Machine.frameRun s f o hdr pre) := by
  unfold Machine.frameRun
  extract_lets p need r okData data resp s1 s2
  have h1 : Goes ps s₀ s1 := .cond (h.bufTouch (hall _)) h
  have h2 : Goes ps s₀ s2 := .cond (h1.modPort (hall _)) h1
  refine .cond h2 ?_
  split
  · exact h2.frameEnd hall
  · exact .cond ((h2.frameWrite hall).frameEnd hall) (h2.frameEnd hall)

theorem Goes.evalFrame (h : Goes ps s₀ s) (hall : ∀ k : Piece, k ∈ ps) {f : Frame} :
    Goes ps s₀ (Machine.evalFrame s f) := by
  unfold Machine.evalFrame
  extract_lets p s1 s2 op o hdr
  have h1 : Goes ps s₀ s1 := h.portBegin (hall _) (hall _) (hall _)
  have h2 : Goes ps s₀ s2 := .cond (h1.modPort (hall _)) h1
  refine .cond h (.cond (.cond h2 (h2.prstOp (hall _) (hall _) (hall _))) ?_)
  split
  · exact h2.frameRun hall
  · exact .cond h2 (h2.frameEnd hall)
  · exact h2.frameRun hall
  · exact h2

theorem Goes.frameOpen (h : Goes ps s₀ s) (hports : .ports ∈ ps) (hpwr : .pwr ∈ ps) (hdoze : .doze ∈ ps) {p : Part}
    {seq : Byte} {n : Nat} :
    Goes ps s₀ (Machine.frameOpen s p seq n) :=
  .cond ((h.portBegin hports hpwr hdoze).modPort hports) ((h.portBegin hports hpwr hdoze).modPort hports)

theorem Goes.frameClose (h : Goes ps s₀ s) (hall : ∀ k : Piece, k ∈ ps) {p : Part} {seq : Byte} {a n code : Nat} :
    Goes ps s₀ (Machine.frameClose s p seq a n code) :=
  h.frameEnd hall

theorem Goes.writeFrame (h : Goes ps s₀ s) (hall : ∀ k : Piece, k ∈ ps) {p : Part} {seq : Byte} {a : Nat} {vs : List Word} :
    Goes ps s₀ (Machine.writeFrame s p seq a vs) :=
  .cond (h.frameOpen (hall _) (hall _) (hall _)) (((h.frameOpen (hall _) (hall _) (hall _)).writeRegs hall).frameClose hall)

theorem Goes.clockLowOp (h : Goes ps s₀ s) (hall : ∀ k : Piece, k ∈ ps) {bytes : List Byte} :
    Goes ps s₀ (Machine.clockLowOp s bytes) :=
  .cond h (((h.portBegin (hall _) (hall _) (hall _)).modPort (hall _)).frameEnd hall)

theorem Goes.alertOp (h : Goes ps s₀ s) (hports : .ports ∈ ps) {wins : Bool} :
    Goes ps s₀ (Machine.alertOp s wins) :=
  .cond (h.modPort hports) (h.modPort hports)

end Rules

end Sys2Proof.Machine
end

section
/-! SUPPORT. Where the commands and the end of an instant go. -/

set_option Elab.async false

namespace Sys2Proof.Machine

section Rules

variable {ps : List Piece} {s₀ s : State}

theorem Goes.cvuFeedFrame (h : Goes ps s₀ s) (hall : ∀ k : Piece, k ∈ ps) {p : Part} {seq : Byte} {u : Nat} {ws : List Word} :
    Goes ps s₀ (Machine.cvuFeedFrame s p seq u ws) :=
  h.writeFrame hall

theorem Goes.capoPinOp (h : Goes ps s₀ s) (hcapo : .capo ∈ ps) :
    Goes ps s₀ (Machine.capoPinOp s) :=
  .cond ((h.core_capo hcapo).capoTrigger hcapo) (h.core_capo hcapo)

theorem Goes.parityReact (h : Goes ps s₀ s) (hcapo : .capo ∈ ps) (hirqPend : .irqPend ∈ ps) (hthm : .thm ∈ ps) (hcvu : .cvu
    ∈ ps) (hgng : .gng ∈ ps) {old : State} {a : Nat} :
    Goes ps s₀ (Machine.parityReact old s a) :=
  .cond (h.thmParity hcapo hirqPend hthm) (.cond (h.cvuParityOp hirqPend hcvu) (.cond (h.hookGng hirqPend hgng) h))

theorem Goes.bufferFailOp (h : Goes ps s₀ s) (hbuf : .buf ∈ ps) {w : Nat} {single : Bool} :
    Goes ps s₀ (Machine.bufferFailOp s w single) := by
  unfold Machine.bufferFailOp
  split
  · exact .cond (h.bufFail hbuf) h
  · exact h

theorem Goes.parityOp (h : Goes ps s₀ s) (hps : [.regs, .parity, .capo, .dev, .irqPend, .thm, .cvu, .gng] ⊆ ps) {a : Nat} :
    Goes ps s₀ (Machine.parityOp s a) := by
  unfold Machine.parityOp
  dsimp only
  refine .cond ?_ ?_
  · exact h
  · split
    · exact ((h.core_dev (hps (by decide))).raiseAll (hps (by decide))).capoFault (hps (by decide))
    · split
      · exact (((h.core_dev (hps (by decide))).raiseAll (hps (by decide))).capoFault (hps (by decide))).setR (hps (by decide))
      · exact .cond (((((h.core_dev (hps (by decide))).raiseAll (hps (by decide))).capoFault (hps (by decide))).core_parity
            (hps (by decide))).parityReact (hps (by decide)) (hps (by decide)) (hps (by decide)) (hps (by decide)) (hps (by
            decide))) (((h.core_dev (hps (by decide))).raiseAll (hps (by decide))).capoFault (hps (by decide)))

theorem Goes.mismatchOp (h : Goes ps s₀ s) (hall : ∀ k : Piece, k ∈ ps) {m : Mismatch} : Goes ps s₀ (Machine.mismatchOp s m) := by
  cases m with
  | register a => exact h.parityOp fun _ _ => hall _
  | buffer w single => exact h.bufferFailOp (hall _)

theorem Goes.eflFrame (h : Goes ps s₀ s) (hall : ∀ k : Piece, k ∈ ps) {p : Part} {seq : Byte} {ch : Fin 10} {op : Nat}
    {addr : BitVec 21} {count : BitVec 8} {granule : BitVec 9} :
    Goes ps s₀ (Machine.eflFrame s p seq ch op addr count granule) :=
  h.writeFrame hall

theorem Goes.gangSent (h : Goes ps s₀ s) (hps : [.hold, .regs, .parity, .course, .irqPend, .buf, .seq, .flw, .key, .epd,
    .pix, .efl, .nfc, .gng] ⊆ ps) {wins : Bool} :
    Goes ps s₀ (Machine.gangSent s wins) :=
  (h.gangTransmitOp (hps (by decide)) (hps (by decide)) (hps (by decide))).gngCourse (List.Subset.trans (by decide) hps)

theorem Goes.nandFrame (h : Goes ps s₀ s) (hall : ∀ k : Piece, k ∈ ps) {p : Part} {seq : Byte} {d : Desc} :
    Goes ps s₀ (Machine.nandFrame s p seq d) :=
  h.writeFrame hall

theorem Goes.quotaFrame (h : Goes ps s₀ s) (hall : ∀ k : Piece, k ∈ ps) {p : Part} {seq : Byte} {ws : List (Part × Word)} :
    Goes ps s₀ (Machine.quotaFrame s p seq ws) := by
  unfold Machine.quotaFrame
  dsimp only
  split
  · exact h.writeFrame hall
  · exact h.writeFrame hall

theorem Goes.seqStepOp (h : Goes ps s₀ s) (hall : ∀ k : Piece, k ∈ ps) {spg : BitVec 10} {smon : List Nat} :
    Goes ps s₀ (Machine.seqStepOp s spg smon) :=
  .cond (((h.takeUp (fun _ _ => hall _)).seqStep (hall _) (hall _) (hall _)).coreRestart hall) ((h.takeUp (fun _ _ => hall
    _)).seqStep (hall _) (hall _) (hall _))

@[simp] theorem length_irqWithCapo (s : State) : (irqWithCapo s).length = s.core.irq.length := by
  unfold irqWithCapo
  split <;> simp

@[simp] theorem length_portsAfter (s : State) : (portsAfter s).length = s.core.ports.length := by
  unfold portsAfter
  dsimp only
  split <;> simp

/-- The capo's own source leaves the words of every controller. -/
theorem map_irqWithCapo {β : Type} (s : State) (g : IrqSt → β) (hg : ∀ q, g (q.set 7) = g q) :
    (irqWithCapo s).map g = s.core.irq.map g := by
  unfold irqWithCapo
  split
  · rw [List.map_map]
    exact List.map_congr_left fun q _ => hg q
  · rfl

/-- The end of an instant changes no word of an interrupt controller. -/
theorem irqSet_settle (s : State) : Piece.irqSet.same s (Machine.settle s) := by
  show ((irqWithCapo s).zipIdx.map fun e => irqNext s e.2 e.1).map (fun q => (q.en, q.imm, q.count, q.time)) = _
  rw [List.map_map]
  refine Eq.trans ?_ (map_irqWithCapo s _ fun _ => rfl)
  exact (List.map_map (f := Prod.fst) (g := fun q : IrqSt => (q.en, q.imm, q.count, q.time))).symm.trans
    (congrArg _ (List.zipIdx_map_fst _ _))

/-- The pending bits at the end of an instant are those with the capo's own source. -/
theorem map_pend_settle (s : State) : (Machine.settle s).core.irq.map IrqSt.pend = (irqWithCapo s).map IrqSt.pend := by
  show ((irqWithCapo s).zipIdx.map fun e => irqNext s e.2 e.1).map IrqSt.pend = _
  refine Eq.trans ?_ (congrArg (List.map IrqSt.pend) (List.zipIdx_map_fst 0 (irqWithCapo s)))
  rw [List.map_map, List.map_map]
  exact List.map_congr_left fun e _ => pend_irqNext s e.2 e.1

/-- The end of an instant adds the capo's own source to the pending bits of a partition, where a capo is taken. -/
theorem pend_settle (s : State) (n : Nat) :
    (nth (Machine.settle s).core.irq n {}).pend = (nth s.core.irq n {}).pend ∨
      (s.core.capo.trig ≠ 0 ∧ (nth (Machine.settle s).core.irq n {}).pend = setBit (nth s.core.irq n {}).pend 7 true) := by
  have hmap : (nth (Machine.settle s).core.irq n {}).pend = (nth (irqWithCapo s) n {}).pend := by
    rw [proj_nth_eq_nth_map IrqSt.pend, map_pend_settle, ← proj_nth_eq_nth_map IrqSt.pend]
  rw [hmap]
  unfold irqWithCapo
  split
  next htakes =>
    have htrig : s.core.capo.trig ≠ 0 := by
      simp only [capoTakes, Bool.and_eq_true, bne_iff_ne] at htakes
      exact htakes.1
    rcases Nat.lt_or_ge n s.core.irq.length with hn | hn
    · exact .inr ⟨htrig, by rw [nth_map _ _ hn {}]; rfl⟩
    · exact .inl (by rw [nth_of_le (by simpa using hn), nth_of_le hn])
  · exact .inl rfl

/-- The end of an instant clears no pending bit. -/
theorem pendRises_settle (s : State) : PendRises s (Machine.settle s) := fun p n hb => by
  rcases pend_settle s p with h | ⟨-, h⟩
  · rw [h]
    exact hb
  · rw [h]
    exact bit_pend_set 7 hb

/-- The end of an instant (03 R77, 04 R119, 05 R135, 15 R425). -/
theorem Goes.settle (h : Goes ps s₀ s) (hps : endPieces ⊆ ps) : Goes ps s₀ (Machine.settle s) := by
  refine h.trans ⟨fun j => ?_, fun hc => ?_, id, id, .inr (pendRises_settle s), .inl (hps (by decide))⟩
  · cases j
    case capo | irqRound | irqPend | gng | ports | doze => exact .inl (hps (by decide))
    case irqSet => exact .inr (irqSet_settle s)
    all_goals exact .inr rfl
  · unfold Counted at hc ⊢
    have hports := length_portsAfter s
    have hirq : ((irqWithCapo s).zipIdx.map fun e => irqNext s e.2 e.1).length = s.core.irq.length := by simp
    have hmems : (gngAfter s).mems.length = s.core.gng.mems.length := rfl
    simp only [Machine.settle] at hc ⊢
    grind

end Rules

end Sys2Proof.Machine
end

section
/-! PROOFS. What every step keeps: the bounds of the queues (04 R115, 13 R390), the number of like parts and the form of every
store. -/

set_option Elab.async false

namespace Sys2Proof.Machine

/-- Every part of the state. -/
def everyPiece : List Piece :=
  [.aon, .hold, .regs, .parity, .course, .capo, .dev, .ports, .part, .mbxs, .irqPend, .irqSet, .irqRound, .buf, .pwr, .doze,
    .seq, .thm, .flw, .key, .epd, .pix, .efl, .nfc, .cvu, .gng, .flash, .queue]

theorem mem_everyPiece (k : Piece) : k ∈ everyPiece := by cases k <;> decide

/-- What a command answers is the end of an instant that keeps shape and bounds. -/
def Reaches (s : State) (o : Host.Outcome State Fault Refusal) : Prop := ∃ u, o = .next u ∧ Goes everyPiece s u

section Reaching

variable {s : State} {f : State → State}

/-- A command of the always-on domain. -/
theorem Reaches.aon (hf : ∀ x, Goes everyPiece s x → Goes everyPiece s (f x)) : Reaches s (instant f s) :=
  ⟨_, rfl, (hf s (.refl _ s)).settle fun k _ => mem_everyPiece k⟩

/-- A command of the core. -/
theorem Reaches.core (hf : ∀ x, Goes everyPiece s x → Goes everyPiece s (f x)) : Reaches s (instant (whenCore f) s) :=
  .aon fun _ h => h.whenCore hf

/-- Every command keeps shape and bounds. -/
theorem exec_reaches (c : Instr) (s : State) : Reaches s (exec c s) := by
  have hall := mem_everyPiece
  cases c
  case nop | rd | wr | wrm | brd | bwr | bwg | brg | prst => exact .core fun _ h => h.evalFrame hall
  case registerWrite | errclr | courseCommit | capoTrig | capoRelease | tbaseLatch | stewardLock | ownerChange |
    slotShareWrite | lunMaxWrite | lunWeightWrite | mbxPost | mbxAck | irqCoalWrite | wdogKick | flowRelease |
    partitionResetRequest | sleepRequest | softwareDeviceReset | pwrThreshWrite | pwrCntclr | railOnRequest |
    railOffRequest | groupOnRequest | groupOffRequest | seqCntclr | thmCntclr | stallClear | flwCntclr | keyLock |
    keyUnlock | keyFifoPop | keyCntclr | panelUpdateRequest | wfReload | epdCntclr | epdPixCntclr | eflCntclr | nfcRingPop
    | nfcCntclr | warnclr | cvuStart | cvuGo | cvuFinish | cvuAbort | cvuClear | cvuRearm | gngVoteWrite | gngCntclr =>
    exact .core fun _ h => h.writeFrame hall
  case spClockLowTimeout => exact .core fun _ h => h.clockLowOp hall
  case alertResponse => exact .core fun _ h => h.alertOp (hall _)
  case hrstPulseEnd => exact .core fun _ h => h.modPort (hall _)
  case courseTakeUp => exact .core fun _ h => h.courseTakeUpOp (fun _ _ => hall _)
  case lunCourseTakeUp => exact .core fun _ h => h.lunTakeUp (fun _ _ => hall _)
  case courseStall => exact .core fun _ h => h.courseStallOp (fun _ _ => hall _)
  case capoPinEdge => exact .core fun _ h => h.capoPinOp (hall _)
  case capoDriveEnd => exact .core fun _ h => h.core_capo (hall _)
  case clockWindowCheck => exact .aon fun _ h => h.clockWindowOp (hall _) (hall _) (hall _) (hall _)
  case pllLossOfLock => exact .core fun _ h => h.pllLossOp (fun _ _ => hall _)
  case registerParityFault => exact .core fun _ h => h.mismatchOp hall
  case quotaChange => exact .core fun _ h => h.quotaFrame hall
  case coalesceTimeout => exact .core fun _ h => h.modIrq (hall _) (hall _) (hall _)
  case wdogWarn => exact .core fun _ h => h.wdogWarnOp (hall _) (hall _)
  case wdogExpiry => exact .core fun _ h => h.wdogExpire hall
  case partitionResetComplete => exact .core fun _ h => h.partResetDone (fun _ _ => hall _)
  case mainWarning => exact .aon fun _ h => h.mainWarnOp (fun _ _ => hall _)
  case mainWarningEnd => exact .aon fun _ h => h.mainWarnEndOp (fun _ _ => hall _)
  case switchOver => exact .aon fun _ h => h.switchOverOp hall
  case returnHoldStart => exact .aon fun _ h => h.holdStartOp (hall _)
  case returnComplete => exact .aon fun _ h => h.returnOp (hall _) (hall _)
  case backupSupplyChange => exact .aon fun _ h => h.backupOp (hall _)
  case coldStart => exact .aon fun _ h => h.coldStartOp hall
  case vmeasUpdate => exact .core fun _ h => h.vmeasOp (hall _) (hall _)
  case dozeEntry => exact .core fun _ h => h.dozeOp (hall _) (hall _)
  case sleepEntry => exact .core fun _ h => h.sleepEntryOp hall
  case sleepTimeout => exact .core fun _ h => h.sleepTimeoutOp (hall _) (hall _)
  case alarmFire => exact .aon fun _ h => h.alarmOp (hall _) (hall _)
  case wakeEvent src => exact .aon (f := fun s => wakeEventOp s src) fun _ h => h.wakeEventOp (hall _) (hall _)
  case wakeArmEnd straps => exact .aon (f := fun s => armEndOp s straps) fun _ h => h.armEndOp (hall _) (hall _)
  case vddcReady => exact .aon fun _ h => h.vddcReadyOp (hall _) (hall _)
  case x24Ready => exact .aon fun _ h => h.x24ReadyOp (hall _) (hall _)
  case pllLock => exact .aon fun _ h => h.pllLockOp (hall _) (hall _)
  case wakeStepTimeout => exact .aon fun _ h => h.stepTimeoutOp (hall _) (hall _)
  case backoffEnd => exact .aon fun _ h => h.backoffEndOp (hall _) (hall _)
  case coreStart obs => exact .aon (f := fun s => coreStartOp s obs) fun _ h => h.coreStartOp hall
  case resetNAssert => exact .aon fun _ h => h.resetAssertOp hall
  case resetNRelease => exact .aon fun _ h => h.resetReleaseOp (hall _) (hall _)
  case vddcFault => exact .core fun _ h => h.vddcFaultOp hall
  case sequencerStep => exact .core fun _ h => h.seqStepOp hall
  case thmSample => exact .core fun _ h => (h.takeUp (fun _ _ => hall _)).thmSampleOp (hall _) (hall _) (hall _)
  case flowTick => exact .core fun _ h => (h.takeUp (fun _ _ => hall _)).flowTickOp (hall _) (hall _) (hall _) (hall _)
  case flowStall => exact .core fun _ h => h.whenS fun _ h => h.flowStallOp (hall _) (hall _) (hall _)
  case steadyWindowEnd => exact .core fun _ h => h.whenS fun _ h => h.steadyOp (hall _) (hall _) (hall _)
  case learnComplete => exact .core fun _ h => h.whenS fun _ h => h.learnOp (hall _) (hall _)
  case tachEdge => exact .core fun _ h => h.tachEdgeOp (hall _)
  case fswPeriodStart => exact .core fun _ h => h.fswPeriodOp (hall _)
  case stretchWindowEnd => exact .core fun _ h => h.stretchEndOp (hall _)
  case keyFrameStart =>
    exact .core fun _ h => ((h.encFlush (hall _) (hall _)).takeUp (fun _ _ => hall _)).keyFrameOp (hall _) (hall _) (hall _)
  case keyPass => exact .core fun _ h => h.keyPassOp (hall _) (hall _)
  case wetProbeColumn => exact .core fun _ h => h.probeColOp (hall _) (hall _)
  case keyStuck => exact .core fun _ h => h.keyStuckOp (hall _) (hall _)
  case autolock => exact .core fun _ h => h.whenS fun _ h => h.lockOp (hall _) (hall _) (hall _)
  case encoderEdge => exact .core fun _ h => h.encEdgeOp (hall _)
  case encVelocityUpdate => exact .core fun _ h => h.encVelOp (hall _)
  case updateStart =>
    exact .core fun _ h => .cond (((h.epdCourse (fun _ _ => hall _)).updateStartOp (hall _) (hall _) (hall _) (hall _)
    (hall _) (hall _)).epdCourse (fun _ _ => hall _)) h
  case blinkDue => exact .core fun _ h => h.blinkDueOp (hall _)
  case blinkToggleStart =>
    exact .core fun _ h => .cond (((h.epdCourse (fun _ _ => hall _)).toggleStartOp (hall _) (hall _) (hall _) (hall _)
    (hall _) (hall _)).epdCourse (fun _ _ => hall _)) h
  case waveformReadDone => exact .core fun _ h => h.waveReadOp (hall _) (hall _) (hall _)
  case railUpPhaseEnd => exact .core fun _ h => h.railUpOp (hall _) (hall _)
  case railUpTimeout => exact .core fun _ h => h.railUpTimeoutOp (hall _) (hall _)
  case panelFrame => exact .core fun _ h => h.panelFrameOp (hall _) (hall _) (hall _) (hall _)
  case railLost => exact .core fun _ h => h.railLostOp (hall _) (hall _)
  case railDownPhaseEnd =>
    exact .core fun _ h => (h.railDownOp (hall _) (hall _) (hall _) (hall _)).epdCourse (fun _ _ => hall _)
  case wfValidationDone => exact .core fun _ h => h.wfValidateEnd (hall _) (hall _) (hall _)
  case eflRead | eflProgram | eflErase | scan | marginPv | marginEv | advance | format =>
    exact .core fun _ h => h.eflFrame hall
  case eflOpStart =>
    exact .core fun _ h => (h.eflStartOp (hall _) (hall _) (hall _) (hall _) (hall _)).eflCourse (fun _ _ => hall _)
  case eflOpDone =>
    exact .core fun _ h => ((h.eflDoneOp (hall _) (hall _) (hall _) (hall _)).eflCourse (fun _ _ => hall _)).advTry (hall _)
  case logAdvance => exact .core fun _ h => h.logAdvanceOp (hall _)
  case logAdvancePhaseEnd =>
    exact .core fun _ h => ((h.advPhaseOp (hall _) (hall _) (hall _)).eflCourse (fun _ _ => hall _)).advTry (hall _)
  case logRecovery => exact .core fun _ h => h.logRecoveryOp (hall _) (hall _) (hall _)
  case bankClassChange => exact .core fun _ h => (h.bankClassOp (hall _) (hall _) (hall _)).nfcAfter (fun _ _ => hall _)
  case channelInitPhaseEnd => exact .core fun _ h => (h.initPhaseOp (hall _)).nfcAfter (fun _ _ => hall _)
  case modeChange => exact .core fun _ h => (h.modeChangeOp (hall _) (hall _)).nfcAfter (fun _ _ => hall _)
  case statusPoll => exact .core fun _ h => h.pollOp (hall _)
  case lunTimeout => exact .core fun _ h => (h.timeoutOp (hall _) (hall _) (hall _)).nfcAfter (fun _ _ => hall _)
  case channelFault => exact .core fun _ h => (h.channelFaultOp (hall _) (hall _) (hall _)).nfcAfter (fun _ _ => hall _)
  case nandRead | nandProgram | nandErase | copy | verify | status | resetLun | raw => exact .core fun _ h => h.nandFrame hall
  case nandRelease => exact .core fun _ h => (h.releaseOp (hall _) (hall _) (hall _)).nfcAfter (fun _ _ => hall _)
  case cvuFeed => exact .core fun _ h => h.cvuFeedFrame hall
  case cvuRunEnd => exact .core fun _ h => h.cvuRunEndOp (hall _) (hall _) (hall _) (hall _)
  case gangFrameTransmit => exact .core fun _ h => h.gangSent (fun _ _ => hall _)
  case gangCapo => exact .core fun _ h => (h.gangCapoOp (hall _) (hall _) (hall _)).gangBoundary (fun _ _ => hall _)
  case gangState => exact .core fun _ h => (h.gangStateOp (hall _) (hall _)).gangBoundary (fun _ _ => hall _)
  case gangRpg => exact .core fun _ h => (h.gangRpgOp (hall _) (hall _)).gangBoundary (fun _ _ => hall _)
  case gangTime => exact .core fun _ h => (h.gangTimeOp (hall _) (hall _) (hall _)).gangBoundary (fun _ _ => hall _)
  case gangHello => exact .core fun _ h => (h.gangHelloOp (hall _) (hall _)).gangBoundary (fun _ _ => hall _)
  case keyfwd => exact .core fun _ h => (h.keyfwdOp (hall _) (hall _) (hall _)).gangBoundary (fun _ _ => hall _)
  case statePeriod => exact .core fun _ h => h.statePeriodOp (hall _)
  case helloPeriod => exact .core fun _ h => h.helloPeriodOp (hall _)
  case timePeriod => exact .core fun _ h => h.timePeriodOp (hall _)
  case memberLoss => exact .core fun _ h => h.memberLossOp (hall _) (hall _)
  case duplicateClear => exact .core fun _ h => h.dupClearOp (hall _) (hall _)
  case busStuck => exact .core fun _ h => h.busStuckOp (hall _)
  case aonPowerOn => exact .aon fun _ h => h.powerOnOp (hall _) (hall _)
  case returnHoldBreak => exact .aon fun _ h => h.holdBreakOp (hall _)
  case mainAboveSwitch => exact .aon fun _ h => h.mainAboveOp (hall _)
  case lunBusyEnd => exact .core fun _ h => (h.busyEndOp (hall _) (hall _)).nfcAfter (fun _ _ => hall _)
  case busTransferEnd => exact .core fun _ h => (h.busEndOp (hall _) (hall _)).nfcAfter (fun _ _ => hall _)
  case gangFrameDropped => exact .core fun _ h => (h.gangDropOp (hall _)).gangBoundary (fun _ _ => hall _)

/-- Every step keeps shape and bounds, that of an empty queue too. -/
theorem step_reaches (s : State) : Reaches s (step s) := by
  cases hq : s.pending with
  | nil =>
    rw [step_idle s hq]
    exact ⟨_, rfl, ((Goes.refl _ s).tickOp (mem_everyPiece _)).settle fun k _ => mem_everyPiece k⟩
  | cons c rest =>
    rw [step_command s c rest hq]
    obtain ⟨u, hu, hgoes⟩ := exec_reaches c { s with pending := rest }
    exact ⟨u, hu, ⟨fun k => .inl (mem_everyPiece k), hgoes.counted, hgoes.canonical, hgoes.bounded, .inl (mem_everyPiece _), .inl (mem_everyPiece _)⟩⟩

end Reaching

/-- Settles O5, along the changes that each command makes. -/
theorem everyStepKeepsTheQueuesInBounds : Obligations.EveryStepKeepsTheQueuesInBounds := by
  unfold Obligations.EveryStepKeepsTheQueuesInBounds
  intro s hs
  obtain ⟨t, ht, hgoes⟩ := step_reaches s
  exact ⟨t, ht, hgoes.bounded hs⟩

/-- Settles O6, along the changes that each command makes. -/
theorem everyStepKeepsTheShapeOfTheState : Obligations.EveryStepKeepsTheShapeOfTheState := by
  unfold Obligations.EveryStepKeepsTheShapeOfTheState
  intro s hcnt hcan
  obtain ⟨t, ht, hgoes⟩ := step_reaches s
  exact ⟨t, ht, hgoes.counted hcnt, hgoes.canonical hcan⟩

end Sys2Proof.Machine
end

section
/-! PROOFS. Chapter 05: what a core that does not run does, and how its balls stand (01 R36, 05 R147, R148, 06 R178, 17 R440). -/

set_option Elab.async false

namespace Sys2Proof.Machine

/-- The number that bvOf makes, with its bits and its bound. -/
theorem testBit_bvOf_sum (f : Nat → Bool) (w : Nat) :
    let n := (upto w).foldl (fun acc i => if f i then acc + 2 ^ i else acc) 0
    n < 2 ^ w ∧ ∀ i, n.testBit i = (decide (i < w) && f i) := by
  induction w with
  | zero => exact ⟨Nat.one_pos, fun i => by simp [upto]⟩
  | succ w ih =>
    obtain ⟨hlt, hbit⟩ := ih
    have hstep : (upto (w + 1)).foldl (fun acc i => if f i then acc + 2 ^ i else acc) 0 =
        if f w then (upto w).foldl (fun acc i => if f i then acc + 2 ^ i else acc) 0 + 2 ^ w
        else (upto w).foldl (fun acc i => if f i then acc + 2 ^ i else acc) 0 := by
      simp [upto, List.range_succ]
    rw [hstep]
    generalize (upto w).foldl (fun acc i => if f i then acc + 2 ^ i else acc) 0 = n at hlt hbit ⊢
    refine ⟨by split <;> omega, fun i => ?_⟩
    rcases lt_trichotomy i w with hi | rfl | hi
    · have hb : (n + 2 ^ w).testBit i = n.testBit i := by
        rw [Nat.add_comm, Nat.testBit_two_pow_add_gt hi]
      have h1 : i < w + 1 := by omega
      split <;> simp [hb, hbit, hi, h1]
    · have hb : (n + 2 ^ i).testBit i = !n.testBit i := by rw [Nat.add_comm, Nat.testBit_two_pow_add_eq]
      cases hf : f i <;> simp [hb, hbit]
    · have hpow : 2 ^ (w + 1) ≤ 2 ^ i := Nat.pow_le_pow_right (by decide) hi
      have h1 : ¬ i < w + 1 := by omega
      split
      · rw [Nat.testBit_lt_two_pow (by omega)]
        simp [h1]
      · rw [Nat.testBit_lt_two_pow (by omega)]
        simp [h1]

/-- A bit of bvOf. -/
theorem bit_bvOf {w : Nat} (f : Nat → Bool) {i : Nat} (hi : i < w) : bit (bvOf w f) i = f i := by
  obtain ⟨hlt, hbit⟩ := testBit_bvOf_sum f w
  unfold bit bvOf
  rw [BitVec.toNat_ofNat, Nat.mod_eq_of_lt hlt, hbit]
  simp [hi]

section Stopped

variable {s : State}

/-- A command of the core, where the core does not run. -/
theorem exec_core_down (hdown : coreUp s = false) {c : Instr} (hc : aonCommand c = false) : exec c s = .next (settle s) := by
  cases c
  case mainWarning | mainWarningEnd | switchOver | returnHoldStart | returnComplete | backupSupplyChange | coldStart | alarmFire
    | wakeEvent | wakeArmEnd | vddcReady | x24Ready | pllLock | wakeStepTimeout | backoffEnd | coreStart | resetNAssert
    | resetNRelease | aonPowerOn | returnHoldBreak | mainAboveSwitch | clockWindowCheck => exact Bool.noConfusion hc
  all_goals exact congrArg (fun x => Host.Outcome.next (settle x)) (whenCore_down s _ hdown)

/-- A ball of the core that is at high impedance while the core is stopped. -/
theorem coreBall_z (h : s.aon.phase ≠ .run) (l : Level) : coreBall s .z l = .z := by
  unfold coreBall powerOf
  cases hp : s.aon.phase <;> simp_all

/-- A ball that the always-on domain drives, while the core does not run. -/
theorem aonBall_stopped (h : s.aon.phase ≠ .run) (hdead : s.aon.phase ≠ .dead) (l m : Level) : aonBall s l m = l := by
  unfold aonBall powerOf
  cases hp : s.aon.phase <;> simp_all

theorem powerOf_stopped (h : s.aon.phase ≠ .run) (hdead : s.aon.phase ≠ .dead) (hoff : s.aon.phase ≠ .off) :
    powerOf s = .stopped := by
  unfold powerOf
  cases hp : s.aon.phase <;> simp_all

theorem coreUp_eq_false (h : s.aon.phase ≠ .run) : coreUp s = false := beq_eq_false_iff_ne.mpr h

theorem fswPin_stopped (h : s.aon.phase ≠ .run) (hdead : s.aon.phase ≠ .dead) (n k : Nat) :
    fswPin s n k = if bit s.hold.fsLevels n = bit (aused s 0xA16) (16 + n) then .low else .high := by
  have hball := aonBall_stopped h hdead (activeAt (fswPol s n) (fswOn s n k)) (activeAt (fswPol s n) (fswOn s n k))
  refine hball.trans ?_
  simp only [activeAt, pushPull, fswPol, fswOn, coreUp_eq_false h, Bool.false_and, Bool.false_eq_true, if_false]
  cases bit s.hold.fsLevels n <;> cases bit (aused s 0xA16) (16 + n) <;> rfl

theorem senPin_stopped (h : s.aon.phase ≠ .run) (hdead : s.aon.phase ≠ .dead) (r : Fin 10) :
    senPin s r.val = if bit s.hold.senCap r.val && bit (aused s 0xA17) r.val then .high else .low := by
  refine (aonBall_stopped h hdead _ _).trans ?_
  rw [senHeld, bit_bvOf _ r.isLt]
  rfl

end Stopped

/-- Settles O7: every command of the core waits for the core to run, and each ball goes by how far the device is on. -/
theorem stoppedCoreIgnoresCoreCommands : Obligations.StoppedCoreIgnoresCoreCommands := by
  unfold Obligations.StoppedCoreIgnoresCoreCommands
  refine ⟨fun s c h hc => exec_core_down (coreUp_eq_false h) hc, fun s h => ?_⟩
  have hdown := coreUp_eq_false h
  refine ⟨fun n => ⟨coreBall_z h _, coreBall_z h _⟩, coreBall_z h _, coreBall_z h _, fun n => by simp [fvsPin, hdown],
    fun hdead => ⟨?nwp, senPin_stopped h hdead, fun n k => fswPin_stopped h hdead n.val k⟩, fun hdead hoff => ?stopped,
    fun hoff powered b sig pos => ?off⟩
  case nwp =>
    refine (aonBall_stopped h hdead _ _).trans ?_
    simp [openDrain, nwpLow, hdown]
  case stopped =>
    have hpower := powerOf_stopped h hdead hoff
    exact ⟨fun powered b => by simp [nandStopped, hpower], fun sig pos => by simp [panelPin, coreBall, hpower]⟩
  case off =>
    have hpower : powerOf s = .off := by simp [powerOf, hoff]
    exact ⟨by simp [nandStopped, hpower], by simp [panelPin, coreBall, hpower]⟩

end Sys2Proof.Machine
end

section
/-! PROOFS. Chapter 03: what the end of an instant changes, and the interrupt rounds (03 R77, R94, 04 R118, R119, 15 R425). -/

set_option Elab.async false

namespace Sys2Proof.Machine

variable {s : State}

/-- An element of a list mapped with its places. -/
theorem nth_map_zipIdx {α β : Type} (g : α → Nat → β) (l : List α) {i : Nat} (hi : i < l.length) (a : α) (b : β) :
    nth (l.zipIdx.map fun e => g e.1 e.2) i b = g (nth l i a) i := by
  simp [nth, List.getD, hi]

/-- A word that is not 0 has a bit. -/
theorem popcnt_pos {w : Nat} {x : BitVec w} (hx : x ≠ 0) : 1 ≤ popcnt x := by
  by_contra hno
  refine hx (BitVec.eq_of_getLsbD_eq fun i hi => ?_)
  have hnil : bitsOf x w = [] := List.length_eq_zero_iff.mp (by unfold popcnt at hno; omega)
  have hbit : i ∉ bitsOf x w := by rw [hnil]; exact List.not_mem_nil
  simpa [bitsOf, upto, hi, bit, BitVec.testBit_toNat] using hbit

/-- The controller of a partition at the end of an instant. -/
theorem nth_irq_settle (s : State) {n : Nat} (hn : n < s.core.irq.length) :
    nth (settle s).core.irq n {} = irqNext s n (nth (irqWithCapo s) n {}) :=
  nth_map_zipIdx (fun q k => irqNext s k q) (irqWithCapo s) (by simpa using hn) {} {}

/-- Without a trigger the capo record stays. -/
theorem capoAfter_of_noTrigger (h : s.core.capo.trig = 0) : capoAfter s = s.core.capo := by simp [capoAfter, h]

theorem capoTakes_eq_false (h : s.core.capo.trig = 0 ∨ s.core.capo.held = true) : capoTakes s = false := by
  unfold capoTakes
  rcases h with h | h <;> simp [h]

/-- A port at the end of an instant, but for SP_ALERT_N. -/
theorem portOf_settle_alert (s : State) (p : Part) :
    { portOf (settle s) p with alertOff := (portOf s p).alertOff } = portOf s p := by
  rcases eq_or_ne p 3 with rfl | hp
  · show { nth (portsAfter s) 3 {} with alertOff := (nth s.core.ports 3 {}).alertOff } = nth s.core.ports 3 {}
    unfold portsAfter
    dsimp only
    split
    · rfl
    · rcases Nat.lt_or_ge 3 s.core.ports.length with h3 | h3
      · rw [nth_upd_same _ _ _ _ h3]
      · rw [nth_of_le (by simpa using h3), nth_of_le h3]
  · rw [portOf_settle s hp]

section Round

variable {now : Nat} {q : IrqSt}

/-- The round of a controller without an active source. -/
theorem irqAfter_idle (hact : q.pend &&& q.en = 0) :
    (irqAfter now q).summary = false ∧ (irqAfter now q).events = 0 ∧ (irqAfter now q).first = none := by
  simp [irqAfter, hact]

theorem events_irqAfter (hact : q.pend &&& q.en ≠ 0) :
    (irqAfter now q).events = sat 255 (q.events + popcnt (q.pend &&& q.en &&& (q.raised ||| ~~~q.prev))) := by
  simp only [irqAfter, if_neg hact]

/-- An asserted summary stays while a source is active. -/
theorem summary_irqAfter_held (hact : q.pend &&& q.en ≠ 0) (hsum : q.summary = true) : (irqAfter now q).summary = true := by
  simp only [irqAfter, if_neg hact, hsum, Bool.true_or]

/-- An active source of IMM asserts the summary. -/
theorem summary_irqAfter_imm (himm : q.pend &&& q.en &&& q.imm ≠ 0) : (irqAfter now q).summary = true := by
  have hact : q.pend &&& q.en ≠ 0 := fun h => himm (by rw [h]; exact BitVec.zero_and)
  simp only [irqAfter, if_neg hact, bne_iff_ne.mpr himm, Bool.or_true, Bool.true_or]

/-- An event asserts the summary at once where the round waits for one event, or for no time. -/
theorem summary_irqAfter_new (hnew : q.pend &&& q.en &&& (q.raised ||| ~~~q.prev) ≠ 0) (hone : q.count ≤ 1 ∨ q.time = 0) :
    (irqAfter now q).summary = true := by
  have hact : q.pend &&& q.en ≠ 0 := fun h => hnew (by rw [h]; exact BitVec.zero_and)
  have hevents : 1 ≤ sat 255 (q.events + popcnt (q.pend &&& q.en &&& (q.raised ||| ~~~q.prev))) := by
    have hpos := popcnt_pos hnew
    unfold sat
    split <;> omega
  simp only [irqAfter, if_neg hact, Bool.or_eq_true, Bool.and_eq_true, decide_eq_true_eq]
  refine .inr ⟨hevents, ?_⟩
  rcases hone with hcount | htime
  · exact .inl (.inl (hcount.trans hevents))
  · refine .inr ?_
    have hlate : ∀ t0, decide (q.time * 10 * 32768 ≤ (now - t0) * 1000000) = true := fun t0 => by simp [htime]
    cases q.first with
    | none => rw [if_pos ⟨rfl, hnew⟩]; exact hlate now
    | some t0 => rw [if_neg fun h => Bool.noConfusion h.1]; exact hlate t0

end Round

/-- Settles O8: the end of an instant part by part, and a round by the branches of what a controller makes of its bits. -/
theorem endOfInstantAndItsSummaries : Obligations.EndOfInstantAndItsSummaries := by
  unfold Obligations.EndOfInstantAndItsSummaries
  refine ⟨fun s => ⟨((Goes.refl endPieces s).settle (List.Subset.refl _)).keeps, fun htrig => ?quiet, fun p => pend_settle s p.val,
    fun p hp => nth_irq_settle s hp, ?gang, portOf_settle_alert s⟩, fun now q => ?_⟩
  case quiet =>
    refine ⟨capoAfter_of_noTrigger htrig, ?_⟩
    exact (map_pend_settle s).trans (by rw [irqWithCapo_of_noTrigger htrig])
  case gang =>
    refine ⟨rfl, ?_, ?_, fun hno => ?_⟩
    · simp [settle, gngAfter, gangSettle, modG, modC]
    · simp [settle, gngAfter, gangSettle, modG, modC]
    · have hcapo : (gngEn s && (capoTakes s && bit (used s 0x2400) 1 && s.core.capo.trig != 4)) = false := by
        rcases hno with h | h | h
        · simp [capoTakes_eq_false (.inl h)]
        · simp [capoTakes_eq_false (.inr h)]
        · simp [h]
      simp only [settle, gngAfter, gangSettle, modG, modC, hcapo, Bool.or_false]
  · refine ⟨irqAfter_idle, summary_irqAfter_held, summary_irqAfter_imm, summary_irqAfter_new, events_irqAfter, ?_⟩
    unfold irqAfter
    dsimp only
    split <;> exact ⟨rfl, rfl, rfl⟩

end Sys2Proof.Machine
end

section
/-! SUPPORT. The bits of a word made of fields. -/

set_option Elab.async false

namespace Sys2Proof.Machine

/-- A bit of the number made of fields is that of a field that covers it. -/
theorem testBit_mkN (fs : Fields) (i : Nat) :
    (mkN fs).testBit i = fs.any fun f => decide (f.1 ≤ i) && (decide (i - f.1 < f.2.1) && f.2.2.testBit (i - f.1)) := by
  suffices h : ∀ acc, (fs.foldl (fun acc f => acc ||| ((f.2.2 % 2 ^ f.2.1) <<< f.1)) acc).testBit i =
      (acc.testBit i || fs.any fun f => decide (f.1 ≤ i) && (decide (i - f.1 < f.2.1) && f.2.2.testBit (i - f.1))) by
    rw [mkN, h 0]
    simp
  induction fs with
  | nil => simp
  | cons f fs ih =>
    intro acc
    rw [List.foldl_cons, ih, List.any_cons, Nat.testBit_or, Nat.testBit_shiftLeft, Nat.testBit_mod_two_pow, Bool.or_assoc]

/-- A bit of a word made of fields. -/
theorem bit_mkW (fs : Fields) {i : Nat} (hi : i < 32) :
    bit (mkW fs) i = fs.any fun f => decide (f.1 ≤ i) && (decide (i - f.1 < f.2.1) && f.2.2.testBit (i - f.1)) := by
  rw [bit, mkW, BitVec.toNat_ofNat, Nat.testBit_mod_two_pow, testBit_mkN]
  simp [hi]

/-- A bit of a field of a word. -/
theorem testBit_fld {w : Nat} (x : BitVec w) (lo n i : Nat) : (fld x lo n).testBit i = (decide (i < n) && bit x (lo + i)) := by
  rw [fld, Nat.testBit_mod_two_pow, Nat.testBit_shiftRight, bit]

/-- A field of a word made of fields that do not meet. -/
theorem fld_mkW {fs : Fields} {lo n v : Nat} (hn : lo + n ≤ 32) (hmem : (lo, n, v) ∈ fs)
    (hdisjoint : ∀ f ∈ fs, f = (lo, n, v) ∨ f.1 + f.2.1 ≤ lo ∨ lo + n ≤ f.1) : fld (mkW fs) lo n = v % 2 ^ n := by
  refine Nat.eq_of_testBit_eq fun i => ?_
  rw [testBit_fld, Nat.testBit_mod_two_pow]
  rcases Nat.lt_or_ge i n with hi | hi
  · rw [bit_mkW fs (by omega)]
    simp only [hi, decide_true, Bool.true_and]
    rw [Bool.eq_iff_iff, List.any_eq_true]
    constructor
    · rintro ⟨f, hf, hbit⟩
      rcases hdisjoint f hf with rfl | h
      · simpa [hi] using hbit
      · simp only [Bool.and_eq_true, decide_eq_true_eq] at hbit
        omega
    · exact fun hbit => ⟨_, hmem, by simp [hi, hbit]⟩
  · simp [Nat.not_lt.mpr hi]

end Sys2Proof.Machine
end

section
/-! PROOFS. Chapter 03: a capo is taken or missed (03 R94-R98, Table 3-6). -/

set_option Elab.async false

namespace Sys2Proof.Machine

section Store

variable {α : Type} {d : Nat → α}

/-- A key that is not listed reads its unlisted value. -/
theorem sget_of_forall_ne {m : List (Nat × α)} {k : Nat} (h : ∀ e ∈ m, e.1 ≠ k) : sget d m k = d k := by
  induction m with
  | nil => rfl
  | cons e m ih =>
    rw [sget, if_neg (h e List.mem_cons_self)]
    exact ih fun x hx => h x (List.mem_cons_of_mem _ hx)

/-- A key that is not in the first part is read in the second. -/
theorem sget_append_right {m m' : List (Nat × α)} {k : Nat} (h : ∀ e ∈ m, e.1 ≠ k) : sget d (m ++ m') k = sget d m' k := by
  induction m with
  | nil => rfl
  | cons e m ih =>
    rw [List.cons_append, sget, if_neg (h e List.mem_cons_self)]
    exact ih fun x hx => h x (List.mem_cons_of_mem _ hx)

/-- A key that is not in the second part is read in the first. -/
theorem sget_append_left {m m' : List (Nat × α)} {k : Nat} (h : ∀ e ∈ m', e.1 ≠ k) : sget d (m ++ m') k = sget d m k := by
  induction m with
  | nil => exact sget_of_forall_ne h
  | cons e m ih => simp only [List.cons_append, sget, ih]

end Store

/-- The words of a list from an address on, those that are not 0. -/
def bankFrom (base n : Nat) (ws : List Word) : List (Nat × Word) :=
  ((ws.zipIdx n).map fun e => (base + e.2, e.1)).filter fun e => e.2 != 0

theorem bankFrom_keys {base n : Nat} {ws : List Word} {e : Nat × Word} (he : e ∈ bankFrom base n ws) :
    base + n ≤ e.1 ∧ e.1 < base + n + ws.length := by
  obtain ⟨x, hx, rfl⟩ := List.mem_map.mp (List.mem_of_mem_filter he)
  have hlo := List.le_snd_of_mem_zipIdx hx
  have hhi := List.snd_lt_of_mem_zipIdx hx
  dsimp only
  omega

/-- A word of the list, read at its address. -/
theorem sget_bankFrom (base n j : Nat) (ws : List Word) :
    sget (fun _ => 0) (bankFrom base n ws) (base + n + j) = nth ws j 0 := by
  induction ws generalizing n j with
  | nil => simp [bankFrom, sget, nth]
  | cons w ws ih =>
    have hcons : bankFrom base n (w :: ws) = (if w != 0 then [(base + n, w)] else []) ++ bankFrom base (n + 1) ws := by
      simp only [bankFrom, List.zipIdx_cons, List.map_cons, List.filter_cons]
      split <;> rfl
    rw [hcons]
    cases j with
    | zero =>
      have htail : ∀ e ∈ bankFrom base (n + 1) ws, e.1 ≠ base + n + 0 := fun e he => by have := bankFrom_keys he; omega
      rw [sget_append_left htail]
      split
      · simp [sget, nth]
      next hw =>
        have hzero : w = 0 := by simpa using hw
        simp [sget, nth, hzero]
    | succ j =>
      have hhead : ∀ e ∈ (if w != 0 then [(base + n, w)] else []), e.1 ≠ base + n + (j + 1) := by
        split
        · simp
        · simp
      rw [sget_append_right hhead, show base + n + (j + 1) = base + (n + 1) + j by omega, ih]
      rfl

/-- Every block copies at most 17 words. -/
theorem length_capoCopies (blk : Nat) : (capoCopies blk).length ≤ 17 := by
  unfold capoCopies
  split <;> first | exact Nat.zero_le _ | decide

variable {s : State}

/-- The words of a block's bank: the stamp, then the copies (03 Table 3-6). -/
def bankWords (s : State) (num : Nat) (src : BitVec 4) (blk : Nat) : List Word :=
  [mkW [(0, 16, num), (16, 16, (stampCourse s blk).1)], BitVec.ofNat 32 (stamp s),
    mkW [(0, 16, stamp s / 4294967296), (16, 4, src.toNat), (20, 1, 1)],
    mkW [(0, 16, (stampCourse s blk).2.1), (16, 1, b2n (stampCourse s blk).2.2)]] ++ (capoCopies blk).map (regValue s 0)

theorem capoBlock_eq (s : State) (num : Nat) (src : BitVec 4) (blk : Nat) :
    capoBlock s num src blk = bankFrom (0x200 * blk + 0x1C0) 0 (bankWords s num src blk) := rfl

theorem capoBlock_keys {num : Nat} {src : BitVec 4} {blk : Nat} {e : Nat × Word} (he : e ∈ capoBlock s num src blk) :
    0x200 * blk + 0x1C0 ≤ e.1 ∧ e.1 < 0x200 * blk + 0x1C0 + 64 := by
  have hlen : (bankWords s num src blk).length ≤ 21 := by
    have hcopies := length_capoCopies blk
    simp [bankWords]
    omega
  have hkeys := bankFrom_keys (capoBlock_eq s num src blk ▸ he)
  omega

/-- A word of a block's bank among those of all blocks. -/
theorem sget_capoBanks (s : State) (num : Nat) (src : BitVec 4) {blk j : Nat} (hblk : blk < 19) (hj : j < 64) :
    sget (fun _ => 0) (capoBanks s num src) (0x200 * blk + 0x1C0 + j) = nth (bankWords s num src blk) j 0 := by
  have hother : ∀ b, b ≠ blk → ∀ e ∈ capoBlock s num src b, e.1 ≠ 0x200 * blk + 0x1C0 + j := fun b hb e he => by
    have := capoBlock_keys he
    omega
  have hlist : ∀ l : List Nat, l.Nodup → blk ∈ l → sget (fun _ => 0) (l.map (capoBlock s num src)).flatten
      (0x200 * blk + 0x1C0 + j) = nth (bankWords s num src blk) j 0 := by
    intro l
    induction l with
    | nil => exact fun _ h => absurd h List.not_mem_nil
    | cons b l ih =>
      intro hnodup hmem
      obtain ⟨hb, hl⟩ := List.nodup_cons.mp hnodup
      rw [List.map_cons, List.flatten_cons]
      rcases eq_or_ne b blk with rfl | hne
      · rw [sget_append_left fun e he => ?_, capoBlock_eq]
        · exact sget_bankFrom _ 0 j _
        · obtain ⟨m, hm, hem⟩ := List.mem_flatten.mp he
          obtain ⟨c, hc, rfl⟩ := List.mem_map.mp hm
          exact hother c (fun h => hb (h ▸ hc)) e hem
      · rw [sget_append_right (hother b hne)]
        exact ih hl ((List.mem_cons.mp hmem).resolve_left hne.symm)
  exact hlist _ List.nodup_range (List.mem_range.mpr hblk)

/-- A word of a capo bank is that of the record. -/
theorem wordValue_bank (t : State) (p : Nat) {blk j : Nat} (hblk : blk < 19) (hj : j < 64) :
    wordValue t p (0x200 * blk + 0x1C0 + j) = sget (fun _ => 0) t.core.capo.bank (0x200 * blk + 0x1C0 + j) := by
  have h1 : ¬ 0x2600 ≤ 0x200 * blk + 0x1C0 + j := by omega
  have h2 : ¬ (0x200 * blk + 0x1C0 + j) % 0x200 < 0x100 := by omega
  have h3 : isStaged (0x200 * blk + 0x1C0 + j) = false := decide_eq_false (by omega)
  rw [wordValue, if_neg h1, if_neg h2, h3, if_neg Bool.false_ne_true]

/-- The record after a capo that is taken. -/
theorem capoAfter_taken (htrig : s.core.capo.trig ≠ 0) (hheld : s.core.capo.held = false) :
    (capoAfter s).seq = s.core.capo.seq + 1 ∧ (capoAfter s).held = bit (used s 0x53) 7 ∧
    (capoAfter s).missed = s.core.capo.missed ∧
    (capoAfter s).bank = capoBanks s (s.core.capo.seq + 1).toNat s.core.capo.trig := by
  simp only [capoAfter, if_neg htrig, hheld, Bool.false_eq_true, if_false, and_self]

/-- A capo that is taken makes its own source pending in every partition. -/
theorem pend_capo_taken (htrig : s.core.capo.trig ≠ 0) (hheld : s.core.capo.held = false) :
    ∀ q ∈ (settle s).core.irq, bit q.pend 7 = true := by
  intro q hq
  have hpend : q.pend ∈ (irqWithCapo s).map IrqSt.pend := map_pend_settle s ▸ List.mem_map_of_mem hq
  have htakes : capoTakes s = true := by
    simp only [capoTakes, hheld, Bool.not_false, Bool.and_true, bne_iff_ne]
    exact htrig
  rw [irqWithCapo, if_pos htakes, List.map_map] at hpend
  obtain ⟨q', -, hq'⟩ := List.mem_map.mp hpend
  rw [← hq']
  exact bit_setBit_same q'.pend 7 true (by decide)

/-- The course that a block's stamp names. -/
theorem stampCourse_target {blk : Nat} (hcourse : (blockCourse blk).isSome = true) (hpending : s.core.course.state = 1) :
    (stampCourse s blk).2.1 = s.core.course.number := by
  obtain ⟨b, hb⟩ := Option.isSome_iff_exists.mp hcourse
  simp only [stampCourse, hb, if_pos hpending]

/-- Settles O9: the record after the trigger, and the words of the banks by their addresses. -/
theorem capoIsTakenOrMissed : Obligations.CapoIsTakenOrMissed := by
  unfold Obligations.CapoIsTakenOrMissed
  refine fun s htrig => ⟨fun hheld => ?taken, fun hheld => ?missed⟩
  case taken =>
    obtain ⟨hseq, hhold, hmissed, hbank⟩ := capoAfter_taken htrig hheld
    have hword : ∀ {blk j : Nat}, blk < 19 → j < 64 → wordValue (settle s) 0 (0x200 * blk + 0x1C0 + j) =
        nth (bankWords s (s.core.capo.seq + 1).toNat s.core.capo.trig blk) j 0 := fun hblk hj => by
      rw [wordValue_bank _ _ hblk hj]
      show sget (fun _ => 0) (capoAfter s).bank _ = _
      rw [hbank, sget_capoBanks s _ _ hblk hj]
    refine ⟨hseq, hhold, hmissed, pend_capo_taken htrig hheld, fun blk i a ha => ?copy, fun blk hcourse hpending => ?stamp⟩
    case copy =>
      have hi : i < 17 := (List.getElem?_eq_some_iff.mp ha).1.trans_le (length_capoCopies _)
      rw [show 0x200 * blk.val + 0x1C4 + i = 0x200 * blk.val + 0x1C0 + (4 + i) by omega, hword blk.isLt (by omega)]
      simp [bankWords, nth, ha, Nat.add_comm 4 i]
    case stamp =>
      rw [show 0x200 * blk.val + 0x1C3 = 0x200 * blk.val + 0x1C0 + 3 by omega, hword blk.isLt (by omega)]
      show fld (mkW [(0, 16, (stampCourse s blk.val).2.1), (16, 1, _)]) 0 16 = _
      exact (fld_mkW (n := 16) (by decide) List.mem_cons_self (by simp)).trans (congrArg (· % 65536) (stampCourse_target hcourse hpending))
  case missed =>
    show (capoAfter s).seq = _ ∧ (capoAfter s).bank = _ ∧ (capoAfter s).held = _ ∧ (capoAfter s).missed = _ ∧
      (capoAfter s).missedSrc = _
    simp only [capoAfter, if_neg htrig, hheld, if_true, and_self]

end Sys2Proof.Machine
end

section
/-! PROOFS. Chapter 02: the bookkeeping of a write frame, and reads that touch only their port (02 R59-R62). -/

set_option Elab.async false

namespace Sys2Proof.Machine

/-- A change of the ports and of DOZE keeps every other part of the device. -/
theorem goes_withPorts {s : State} {ps : List PortSt} (d : Bool) (hlen : ps.length = s.core.ports.length) :
    Goes [.ports, .doze] s (withPorts s ps d) :=
  ((Goes.refl _ s).core_ports (by simp) (f := fun _ => ps) hlen).core_doze (by simp) (f := fun _ => d)

theorem PortOnly.goes {p : Part} {s t : State} (h : PortOnly p s t) : Goes [.ports, .doze] s t := by
  obtain ⟨ps, d, rfl, hlen, -⟩ := h
  exact goes_withPorts d hlen

/-- So does one that may raise PORT_ERR, which is a pending bit. -/
theorem PortAndErr.goes {p : Part} {s t : State} (h : PortAndErr p s t) : Goes [.ports, .irqPend, .doze] s t := by
  obtain ⟨u, hu, e⟩ := h
  have hgoes : Goes [.ports, .irqPend, .doze] s u := hu.goes.mono (by simp)
  rcases e with rfl | rfl
  · exact hgoes
  · exact hgoes.raise (by simp)

/-- The record of a port whose frame has been judged, out of reset (02 R59, Table 2-16). -/
def judged (h : Hdr) (code bytes : Nat) (q : PortSt) : PortSt :=
  { q with
    frames := q.frames + 1
    errs := (match errIndex code with
      | some i => upd q.errs i (fun n => sat 255 (n + 1))
      | none => q.errs)
    failHdr := if code != 0 && code != 1 then (failWords h code bytes).1 else q.failHdr
    failInfo := if code != 0 && code != 1 then (failWords h code bytes).2 else q.failInfo
    lastStatus := BitVec.ofNat 8 code
    lastSeq := BitVec.ofNat 8 h.seq }

/-- The outcome of a frame on a port that listens: the record of the port, and PORT_ERR for the codes that a counter counts. -/
theorem frameEnd_listens {s : State} {p : Part} (hl : Listens s p) (h : Hdr) (code n : Nat) :
    frameEnd s p.val h code n = if (errIndex code).isSome then raise (modPort s p.val (judged h code n)) p.val 8
      else modPort s p.val (judged h code n) := by
  have hdev : ∀ f, (raise (modPort s p.val f) p.val 8).core.pwr.devrst = false := fun _ => hl.noDeviceReset
  have hdev' : ∀ f, (modPort s p.val f).core.pwr.devrst = false := fun _ => hl.noDeviceReset
  simp only [frameEnd, hl.notInReset, Bool.false_eq_true, if_false]
  split
  · rw [if_neg (by rw [hdev]; decide)]
    rfl
  · rw [if_neg (by rw [hdev']; decide)]
    rfl

/-- The record of a port that listens after the outcome of a frame. -/
theorem portOf_frameEnd {s : State} {p : Part} (hl : Listens s p) (h : Hdr) (code n : Nat) :
    portOf (frameEnd s p.val h code n) p = judged h code n (portOf s p) := by
  rw [frameEnd_listens hl]
  split <;> exact portOf_modPort s p _ hl.fourPorts

/-- A write frame as its port finds it, on a host port: the response is ready (02 R53). -/
theorem frameOpen_host (s : State) {p : Part} (hp : p ≠ 3) (seq : Byte) (n : Nat) :
    frameOpen s p seq n =
      let x := portBegin s p.val (portOf s p).mode3
      modPort x p.val fun q => { q with resp := response x p.val seq.toNat (reducedFlag x) [] true [] } := if_neg hp

/-- A write frame as its port finds it, on SP: every byte is acknowledged (02 R69). -/
theorem frameOpen_sp (s : State) (seq : Byte) (n : Nat) :
    frameOpen s 3 seq n = modPort (portBegin s 3 (portOf s 3).mode3) 3 fun q => { q with acks := List.replicate (8 + 4 * n) true } :=
  rfl

/-- A frame has begun: no response and no acknowledge yet, all counters as they were. -/
theorem portOf_portBegin {s : State} {p : Part} (hlen : s.core.ports.length = 4) (m : Bool) :
    portOf (portBegin s p.val m) p = { portOf s p with
      width := if p.val < 3 then BitVec.ofNat 2 (uf s (0x400 + 0x10 * p.val) 0 2) else 0
      mode3 := (decide (p.val < 3) && m), resp := [], acks := [] } :=
  portOf_modPort s p _ hlen

/-- What the arrival of a write frame leaves of its port's record. -/
theorem portOf_frameOpen {s : State} {p : Part} (hlen : s.core.ports.length = 4) (seq : Byte) (n : Nat) :
    (portOf (frameOpen s p seq n) p).frames = (portOf s p).frames ∧
    (p ≠ 3 → (portOf (frameOpen s p seq n) p).resp.take 2 = [(portOf s p).lastStatus, (portOf s p).lastSeq]) ∧
    (p = 3 → (portOf (frameOpen s p seq n) p).acks = List.replicate (8 + 4 * n) true ∧ (portOf (frameOpen s p seq n) p).resp = []) := by
  have hbegin : ∀ m, (portBegin s p.val m).core.ports.length = 4 := fun m => (length_upd _ _ _).trans hlen
  by_cases h3 : p = 3
  · subst h3
    have hport : portOf (frameOpen s 3 seq n) 3 = { portOf (portBegin s 3 (portOf s 3).mode3) 3 with acks := List.replicate (8 + 4 * n) true } :=
      (congrArg (portOf · 3) (frameOpen_sp s seq n)).trans (portOf_modPort _ 3 _ (hbegin _))
    rw [hport, show portOf (portBegin s 3 (portOf s 3).mode3) 3 = _ from portOf_portBegin (p := 3) hlen _]
    exact ⟨rfl, fun h => absurd rfl h, fun _ => ⟨rfl, rfl⟩⟩
  · rw [frameOpen_host s h3, portOf_modPort _ _ _ (hbegin _), response_host _ h3, portOf_portBegin hlen]
    exact ⟨rfl, fun _ => rfl, fun h => absurd h h3⟩

/-- Settles O10: the frame's arrival and its outcome both change their port's record, and the outcome raises PORT_ERR where a
counter counts it. -/
theorem writeFrameBookkeeping : Obligations.WriteFrameBookkeeping := by
  unfold Obligations.WriteFrameBookkeeping
  intro s p seq a n code hl t
  have hopen := PortOnly.frameOpen p s seq n
  have hlo := hopen.listens hl
  obtain ⟨hframes, hhost, hsp⟩ := portOf_frameOpen (p := p) hl.fourPorts seq n
  have hclose : PortAndErr p s t := hopen.frameEnd hl.noDeviceReset ..
  have hport : portOf t p = judged _ code _ (portOf (frameOpen s p seq n) p) := portOf_frameEnd hlo _ code _
  have hirq : t.core.irq = if (errIndex code).isSome then (raise s p.val 8).core.irq else s.core.irq := by
    have hirq0 : (frameOpen s p seq n).core.irq = s.core.irq := by
      obtain ⟨ps, d, e, -⟩ := hopen
      rw [e]
      rfl
    have ht : t = _ := frameEnd_listens hlo _ code _
    rw [ht]
    split
    · exact congrArg (fun q => upd q p.val fun c => c.set 8) hirq0
    · exact hirq0
  have hdoze : t.core.pwr.doze = false := by
    have ht : t = _ := frameEnd_listens hlo _ code _
    have hd : (frameOpen s p seq n).core.pwr.doze = false := by
      unfold frameOpen
      dsimp only
      split <;> rfl
    rw [ht]
    split <;> exact hd
  refine ⟨?_, ?_, ?_, fun hp => ?_, fun hp => ?_, fun q hq => ?_, fun h => ?_, fun h => ?_, hdoze, hclose.goes.keeps⟩
  · rw [hport]
    rfl
  · rw [hport]
    exact BitVec.ofNat_toNat .. |>.trans (BitVec.setWidth_eq ..)
  · rw [hport]
    exact congrArg (· + 1) hframes
  · rw [hport]
    exact hhost hp
  · rw [hport]
    exact hsp hp
  · obtain ⟨u, ⟨ps, d, rfl, -, hoth⟩, e | e⟩ := hclose <;> rw [e] <;> exact hoth q hq
  · rw [h] at hirq
    exact congrArg (List.map IrqSt.pend) hirq
  · rw [hirq, if_pos h]

/-- A frame of a form that writes nothing changes its port, and in a bulk read perhaps the count of corrected errors. -/
inductive ReadEffect (p : Part) (bulkRead : Prop) (b t : State) : Prop where
  | port (h : PortAndErr p b t)
  | counted (hbulk : bulkRead) (a n : Nat) (h : PortAndErr p (bufTouch b a n) t)

/-- A frame of a known form that writes nothing. -/
theorem frameRun_readEffect {b s : State} {f : Frame} {o : OpForm} {pre : Option Nat} (h : Hdr) (hs : PortOnly f.port b s)
    (hdev : b.core.pwr.devrst = false) (ho : o.writes = false) :
    ReadEffect f.port (o.bulk = true ∧ o.reads = true) b (frameRun s f o h pre) := by
  unfold frameRun
  extract_lets p need r okData data resp s' s1 x
  have hend : ∀ {u}, u.core.pwr.devrst = false → PortOnly p u s' → PortAndErr p u (if inReset s' p.val then s1 else
      match (match pre with
        | some c => some c
        | none => checkOutcome s' f o need) with
      | some c => frameEnd s1 p.val h c (hostBytes f)
      | none =>
        if o.writes then frameEnd x.1 p.val h x.2 (hostBytes f)
        else frameEnd s1 p.val h (if r.1 ≠ 0 then r.1 else if o.reads && f.late then 0x22 else 0) (hostBytes f)) := by
    intro u hu hs'
    have hs1 : PortOnly p u s1 := by
      unfold s1
      split
      · exact hs'.modPort _
      · exact hs'
    split
    · exact hs1.portAndErr
    · split
      · exact hs1.frameEnd hu ..
      · rw [ho]
        exact hs1.frameEnd hu ..
  by_cases ht : (o.bulk && o.reads && responds f o need && decide (r.1 = 0 ∨ r.1 = 0x25)) = true
  · have hs' : PortOnly p (bufTouch b h.addr (4 * (h.len + 1))) s' := by
      unfold s'
      rw [if_pos ht]
      exact hs.bufTouch _ _
    simp only [Bool.and_eq_true] at ht
    exact .counted ht.1.1 _ _ (hend hdev hs')
  · have hs' : PortOnly p b s' := by
      unfold s'
      rw [if_neg ht]
      exact hs
    exact .port (hend hdev hs')

/-- The first byte of the frame is not that of PRST nor of a form that writes (02 Table 2-3). -/
def readingFrame (f : Frame) : Prop := f.bytes.head? ≠ some 0xFF ∧ ∀ o, opForm (nth f.bytes 0 0).toNat = some o → o.writes = false

/-- A frame that carries no write, of whatever bytes. -/
theorem evalFrame_readEffect {s : State} {f : Frame} (hdev : s.core.pwr.devrst = false) (hf : readingFrame f) :
    ReadEffect f.port (f.bytes.head? = some 0x10 ∨ f.bytes.head? = some 0x13) s (evalFrame s f) := by
  obtain ⟨hop, hform⟩ := hf
  unfold evalFrame
  extract_lets p s1 s2 op o h
  have h2 : PortOnly f.port s s2 := by
    unfold s2
    split
    next h3 =>
      rw [← h3]
      exact (PortOnly.portBegin ..).modPort _
    next => exact PortOnly.portBegin ..
  have hrun : ∀ q pre, o = some q →
      ReadEffect f.port (f.bytes.head? = some 0x10 ∨ f.bytes.head? = some 0x13) s (frameRun s2 f q h pre) := by
    intro q pre hq
    obtain ⟨hb, hq⟩ : f.bytes ≠ [] ∧ opForm op = some q := by simpa [o] using hq
    cases frameRun_readEffect (pre := pre) h h2 hdev (hform q hq) with
    | port h => exact .port h
    | counted hbulk a n h => exact .counted (head?_of_bulkRead hb hq hbulk) a n h
  split
  · exact .port (PortOnly.refl _ _).portAndErr
  · split
    next hff => exact absurd (head?_of_opcode hff.1 hff.2) hop
    next =>
      split
      next hq => exact hrun _ _ hq
      next =>
        split
        · exact .port h2.portAndErr
        · exact .port (h2.frameEnd hdev ..)
      next hq => exact hrun _ _ hq
      next => exact .port h2.portAndErr

/-- The opcodes of the device (02 Table 2-3) but for those of the three kinds of write. -/
theorem opForm_writes_false {op : Byte} (hop : knownOpcodes.elem op = false ∨ op ∈ [0x00, 0x01, 0x10, 0x13]) {o : OpForm}
    (h : opForm op.toNat = some o) : o.writes = false := by
  rcases hop with hop | hop
  · exfalso
    have hall : ∀ b : Byte, knownOpcodes.elem b = false → opForm b.toNat = none := by decide +kernel
    rw [hall op hop] at h
    cases h
  · simp only [List.mem_cons, List.not_mem_nil, or_false] at hop
    rcases hop with rfl | rfl | rfl | rfl <;> cases h <;> rfl

/-- A frame of a row begins with the row's opcode, or with none that is known. -/
theorem opcode_of_wf {f : Frame} {op b : Byte} {rest : List Byte} (h : f.wf op = true) (hb : f.bytes = b :: rest) :
    b = op ∨ knownOpcodes.elem b = false := by
  unfold Frame.wf at h
  rw [hb] at h
  simp only [Bool.and_eq_true, Bool.or_eq_true, beq_iff_eq, Bool.not_eq_true'] at h
  exact h.1.imp_right And.right

/-- Frames of the rows of NOP, RD, BRD and BRG carry no write. -/
theorem readingFrame_of_wf {f : Frame} {op : Byte} (h : f.wf op = true) (hop : op ∈ [0x00, 0x01, 0x10, 0x13]) : readingFrame f := by
  cases hb : f.bytes with
  | nil => exact ⟨by simp [hb], fun o ho => by rw [hb] at ho; cases ho; rfl⟩
  | cons b rest =>
    have hcode : knownOpcodes.elem b = false ∨ b ∈ [0x00, 0x01, 0x10, 0x13] :=
      (opcode_of_wf h hb).elim (fun e => .inr (e ▸ hop)) .inl
    refine ⟨fun e => ?_, fun o ho => opForm_writes_false hcode (by rwa [hb] at ho)⟩
    obtain rfl : b = 0xFF := by simpa [hb] using e
    revert hcode
    decide

/-- A frame of the row of NOP or of RD is no bulk read. -/
theorem not_bulkRead_of_wf {f : Frame} {op : Byte} (h : f.wf op = true) (hop : op = 0x00 ∨ op = 0x01) :
    ¬(f.bytes.head? = some 0x10 ∨ f.bytes.head? = some 0x13) := by
  cases hb : f.bytes with
  | nil => simp
  | cons b rest =>
    have hcode := opcode_of_wf h hb
    intro hbulk
    have hbulk : b = 0x10 ∨ b = 0x13 := by simpa using hbulk
    rcases hop with rfl | rfl <;> rcases hbulk with rfl | rfl <;> revert hcode <;> decide

/-- Settles O11: a frame that writes nothing changes its port and PORT_ERR, and a bulk read the count of corrected errors. -/
theorem readFramesTouchOnlyTheirPort : Obligations.ReadFramesTouchOnlyTheirPort := by
  unfold Obligations.ReadFramesTouchOnlyTheirPort
  intro s f hs
  have hport : ∀ op ∈ [(0x00 : Byte), 0x01, 0x10, 0x13], f.wf op = true →
      OnlyPortAndCount f.port s (settle (whenCore (fun s => evalFrame s f) s)) ∧
        (op = 0x00 ∨ op = 0x01 → OnlyPort f.port s (settle (whenCore (fun s => evalFrame s f) s))) := by
    intro op hop hwf
    cases hup : coreUp s with
    | false =>
      rw [whenCore_down s _ hup]
      have hnone := (PortOnly.refl f.port s).portAndErr.onlyPort_settle hs
      exact ⟨hnone.onlyPortAndCount, fun _ => hnone⟩
    | true =>
      rw [whenCore_up s _ hup]
      cases evalFrame_readEffect hs.noDeviceReset (readingFrame_of_wf hwf hop) with
      | port h =>
        have hport := h.onlyPort_settle hs
        exact ⟨hport.onlyPortAndCount, fun _ => hport⟩
      | counted hbulk a n h =>
        have hport : OnlyPort f.port (bufTouch s a n) _ := h.onlyPort_settle hs
        exact ⟨hport.onlyPortAndCount_of_bufTouch, fun hreg => absurd hbulk (not_bulkRead_of_wf hwf hreg)⟩
  exact ⟨fun h => ⟨_, rfl, (hport _ (by decide) h).2 (.inl rfl)⟩, fun h => ⟨_, rfl, (hport _ (by decide) h).2 (.inr rfl)⟩,
    fun h => ⟨_, rfl, (hport _ (by decide) h).1⟩, fun h => ⟨_, rfl, (hport _ (by decide) h).1⟩⟩

end Sys2Proof.Machine
end

section
/-! SUPPORT. The end of a quiet instant, in which no capo is triggered and the gang link has nothing new to say (03 R77, 15 R425). -/

set_option Elab.async false

namespace Sys2Proof.Machine

/-- The gang link has noted the vote and the power-good, and no capo trigger waits. -/
structure Quiet (s : State) : Prop where
  trig : s.core.capo.trig = 0
  vote : s.core.gng.lastVote = effVote s
  rpg : s.core.gng.lastRpg = s.core.seq.rpgOut
  devrst : s.core.pwr.devrst = false

theorem Settled.quiet {s : State} (hs : Settled s) : Quiet s :=
  ⟨hs.noTrigger, hs.gangNoted.1, hs.gangNoted.2, hs.noDeviceReset⟩

/-- The end of a quiet instant changes rounds, SP_ALERT_N and DOZE. -/
theorem Quiet.keeps_settle {s : State} (h : Quiet s) : Keeps [.irqRound, .ports, .doze] s (settle s) := by
  intro k
  cases k
  case irqRound | ports | doze => exact .inl (by decide)
  case capo => exact .inr (capoAfter_of_noTrigger h.trig)
  case gng => exact .inr (gngAfter_eq_self h.trig h.vote h.rpg)
  case irqPend => exact .inr (map_irq_settle s h.trig IrqSt.pend (pend_irqNext s))
  all_goals exact .inr ((((Goes.refl endPieces s).settle (List.Subset.refl _)).keeps _).resolve_left (by decide))

/-- Where no source of P3 is newly pending, the end of a quiet instant leaves the ports. -/
theorem Quiet.ports_settle {s : State} (h : Quiet s) (hnew : (nth s.core.irq 3 {}).pend &&& ~~~(nth s.core.irq 3 {}).lastPend = 0) :
    (settle s).core.ports = s.core.ports := by
  show portsAfter s = _
  simp only [portsAfter, irqWithCapo_of_noTrigger h.trig, hnew, if_true]

/-- In a settled state no source of P3 is newly pending. -/
theorem Settled.noNewPend {s : State} (hs : Settled s) : (nth s.core.irq 3 {}).pend &&& ~~~(nth s.core.irq 3 {}).lastPend = 0 := by
  rw [hs.lastPend 3]
  simp

/-- What reads neither the ports nor DOZE is the same where a port alone has changed. -/
theorem PortOnly.same {α : Type} {p : Part} {s t : State} (h : PortOnly p s t) (g : State → α)
    (hw : ∀ s ps d, g (withPorts s ps d) = g s := by intros; rfl) : g t = g s := by
  obtain ⟨ps, d, rfl, -⟩ := h
  exact hw s ps d

/-- A change of ports and of DOZE alone leaves an instant quiet. -/
theorem Quiet.withPorts {s : State} (h : Quiet s) (ps : List PortSt) (d : Bool) : Quiet (withPorts s ps d) :=
  ⟨h.trig, h.vote, h.rpg, h.devrst⟩

theorem PortOnly.quiet {p : Part} {s t : State} (h : PortOnly p s t) (hs : Quiet s) : Quiet t := by
  obtain ⟨ps, d, rfl, -⟩ := h
  exact hs.withPorts ps d

/-- The effective vote reads two words of GNG, the link's record and the straps (15 R420). -/
theorem effVote_congr {s t : State} (hcfg : used t 0x2400 = used s 0x2400) (hvote : used t 0x2401 = used s 0x2401)
    (hg : t.core.gng = s.core.gng) (hstraps : t.hold.straps = s.hold.straps) : effVote t = effVote s := by
  have hown : ownVote t = ownVote s := congrArg (fld · 0 3) hvote
  have hself : selfId t = selfId s := congrArg BitVec.toNat hstraps
  have hen : gngEn t = gngEn s := congrArg (bit · 0) hcfg
  have hids : gangIds t = gangIds s := by simp only [gangIds, gngMembers, uf, hcfg]
  have hmem : memStatus t = memStatus s := by
    funext m
    simp only [memStatus, hen, hself, hg]
  have hforced : voteForced t = voteForced s := by
    simp only [voteForced, gangForming, anyLost, digestDiffers, hown, hg, hself, hen, hids, hmem]
  rw [effVote, effVote, hforced, hown]

/-- An instant stays quiet where nothing that the gang link follows has changed. -/
theorem Quiet.of_same {s t : State} (h : Quiet s) (hcfg : used t 0x2400 = used s 0x2400) (hvote : used t 0x2401 = used s 0x2401)
    (hg : t.core.gng = s.core.gng) (hstraps : t.hold.straps = s.hold.straps) (htrig : t.core.capo.trig = 0)
    (hrpg : t.core.seq.rpgOut = s.core.seq.rpgOut) (hdev : t.core.pwr.devrst = false) : Quiet t :=
  ⟨htrig, by rw [hg, effVote_congr hcfg hvote hg hstraps, h.vote], by rw [hg, hrpg, h.rpg], hdev⟩

/-- A word is used as it was where it reads the same and has kept or passed its parity. -/
theorem used_congr {s t : State} {a : Nat} (hrd : rd t a = rd s a) (hpar : t.core.parity.elem a = s.core.parity.elem a) :
    used t a = used s a := by
  rw [used, used, hpar, hrd]

/-- An instant stays quiet where it has touched neither what the gang link follows nor the capo. -/
theorem Goes.quiet {s t : State} {ps : List Piece} (h : Goes ps s t) (hq : Quiet s) (hps : ∀ k ∈ [Piece.gng, .hold, .capo, .seq], k ∉ ps)
    (hcfg : used t 0x2400 = used s 0x2400) (hvote : used t 0x2401 = used s 0x2401) (hdev : t.core.pwr.devrst = false) : Quiet t := by
  have hhold : t.hold = s.hold := (h.keeps .hold).resolve_left (hps _ (by simp))
  have hcapo : t.core.capo = s.core.capo := (h.keeps .capo).resolve_left (hps _ (by simp))
  have hseq : t.core.seq = s.core.seq := (h.keeps .seq).resolve_left (hps _ (by simp))
  exact hq.of_same hcfg hvote ((h.keeps .gng).resolve_left (hps _ (by simp))) (by rw [hhold]) (by rw [hcapo]; exact hq.trig)
    (by rw [hseq]) hdev

/-- The end of a quiet instant that has raised no source but in the own partition: nothing but the parts named, the own port,
DOZE and the rounds. -/
theorem Goes.keepsPort_settle {s t : State} {p : Part} {ps but : List Piece} (h : Goes ps s t) (hs : Settled s) (hq : Quiet t)
    (hports : ∀ q : Part, q ≠ p → portOf t q = portOf s q)
    (hirq : ∀ q : Part, q ≠ p → nth t.core.irq q.val {} = nth s.core.irq q.val {})
    (hsub : ps ⊆ but ++ [.ports, .irqRound, .doze]) : KeepsPort p but s (Machine.settle t) := by
  refine ⟨(h.keeps.trans hq.keeps_settle).mono ?_, fun q hqp => ?_⟩
  · exact List.append_subset.mpr ⟨hsub, fun k hk => by
      simp only [List.mem_cons, List.not_mem_nil, or_false, List.mem_append] at hk ⊢
      tauto⟩
  · refine Eq.trans ?_ (hports q hqp)
    by_cases h3 : q = 3
    · subst h3
      have hnew : (nth t.core.irq 3 {}).pend &&& ~~~(nth t.core.irq 3 {}).lastPend = 0 := by
        rw [show nth t.core.irq 3 {} = nth s.core.irq 3 {} from hirq 3 hqp]
        exact hs.noNewPend
      exact congrArg (fun l => nth l 3 ({} : PortSt)) (hq.ports_settle hnew)
    · exact portOf_settle t h3

end Sys2Proof.Machine
end

section
/-! SUPPORT. Frames that write one register word: the response, the write, the outcome (02 R54, R59, 00 R16). -/

set_option Elab.async false

namespace Sys2Proof.Machine

variable {s : State} {p : Part} {a : Nat} {v : Word} {r : RegSpec}

/-- A frame that writes one word, on a port that listens. -/
theorem instant_writeFrame (hl : Listens s p) (seq : Byte) (a : Nat) (v : Word) :
    instant (whenCore fun s => writeFrame s p seq a [v]) s =
      .next (settle (frameClose (writeRegs (frameOpen s p seq 1) p [(a, v)]).1 p seq a 1
        (writeRegs (frameOpen s p seq 1) p [(a, v)]).2)) := by
  have hopen : Listens (frameOpen s p seq 1) p := (PortOnly.frameOpen p s seq 1).listens hl
  rw [instant_eq, whenCore_up s _ hl.up]
  simp [writeFrame, hopen.notInReset]

/-- A frame of one word whose effect and outcome are known. -/
theorem instant_framed (hl : Listens s p) (seq : Byte) {a : Nat} {v : Word} {f : State → State} {code : Nat}
    (hw : writeRegs (frameOpen s p seq 1) p [(a, v)] = (f (frameOpen s p seq 1), code)) :
    instant (whenCore fun s => writeFrame s p seq a [v]) s = .next (framed s p seq a 1 code f) := by
  rw [instant_writeFrame hl, hw]
  rfl

/-- A frame of one word that is refused. -/
theorem writeRegs_denied {a : Nat} {v : Word} (h : wordDenied s p.val a v = true) : writeRegs s p [(a, v)] = (s, 0x20) := by
  simp [writeRegs, h]

/-- A frame of one word that is refused changes nothing but its port (02 R62). -/
theorem instant_denied (hl : Listens s p) (seq : Byte) {a : Nat} {v : Word} (h : wordDenied (frameOpen s p seq 1) p.val a v = true) :
    instant (whenCore fun s => writeFrame s p seq a [v]) s = .next (deniedAt s p seq a 1) :=
  instant_framed hl seq (f := id) (writeRegs_denied h)

/-- NAND work goes on, where the frame may have unblocked it. -/
def nfcGoesOn (a : Nat) (v : Word) (s : State) : State := if touchesNfc [(a, v)] then nfcAfter s else s

theorem nfcGoesOn_of_not {a : Nat} {v : Word} {s : State} (h : touchesNfc [(a, v)] = false) : nfcGoesOn a v s = s := by
  simp [nfcGoesOn, h]

theorem nfcGoesOn_of {a : Nat} {v : Word} {s : State} (h : touchesNfc [(a, v)] = true) : nfcGoesOn a v s = nfcAfter s := by
  simp [nfcGoesOn, h]

/-- One word that is no quota and no word of a check unit: it is stored, it acts, and NAND work goes on where it may have
unblocked it. -/
theorem applyWrites_one (hquota : ¬(0x230 ≤ a ∧ a < 0x234)) (hcvu : ¬(0x2200 ≤ a ∧ a < 0x2240)) {x y : State × Bool}
    (hx : writeStore s s p.val a v = x) (hy : writeAct s x.1 p a v = y)
    (hreqs : y.1.core.seq.reqs.length ≤ s.core.seq.reqs.length + 1) :
    applyWrites s p [(a, v)] = (nfcGoesOn a v y.1, x.2 || y.2) := by
  have hq : ∀ t, writeQuotas t [(a, v)] = (t, false) := fun t => by simp [writeQuotas, hquota]
  have hu : ∀ t, ∀ u ∈ upto 4, writeCvu t [(a, v)] u = (t, false) := fun t u hu => by
    have hu : u < 4 := List.mem_range.mp hu
    have hne : ∀ j < 3, (a == cvuA u j) = false := fun j hj => beq_false_of_ne (by rw [cvuA]; omega)
    simp [writeCvu, hne]
  have hfold : ∀ (l : List Nat) (z : State × Bool), (∀ u ∈ l, u ∈ upto 4) →
      l.foldl (fun z u => let c := writeCvu z.1 [(a, v)] u; (c.1, z.2 || c.2)) z = z := by
    intro l
    induction l with
    | nil => intros; rfl
    | cons u l ih =>
      intro z h
      rw [List.foldl_cons, hu z.1 u (h u List.mem_cons_self)]
      simpa using ih z fun w hw => h w (List.mem_cons_of_mem _ hw)
  have hmerge : railMerge s.core.seq.reqs.length y.1 = y.1 := if_pos hreqs
  simp only [applyWrites, eachWord, List.foldl_cons, List.foldl_nil, hq, Bool.or_false, Bool.false_or, hfold _ _ fun u h => h,
    hx, hy, hmerge, nfcGoesOn]

/-- A frame of one word that is not refused, by what is stored and what it does. -/
theorem writeRegs_one (hden : wordDenied s p.val a v = false) (hquota : ¬(0x230 ≤ a ∧ a < 0x234))
    (hcvu : ¬(0x2200 ≤ a ∧ a < 0x2240)) {x y : State × Bool} (hx : writeStore s s p.val a v = x) (hy : writeAct s x.1 p a v = y)
    (hreqs : y.1.core.seq.reqs.length ≤ s.core.seq.reqs.length + 1) :
    writeRegs s p [(a, v)] = (nfcGoesOn a v y.1, if (x.2 || y.2) = true then 0x01 else 0x00) := by
  simp [writeRegs, hden, applyWrites_one hquota hcvu hx hy hreqs]

/-- A mask of fields none of which is chosen. -/
theorem accMask_eq_zero {t : FieldS → Bool} (h : ∀ f ∈ r.fs, t f = false) : accMask r t = 0 := by
  have hnil : r.fs.filter t = [] := List.filter_eq_nil_iff.mpr fun f hf => by simp [h f hf]
  rw [accMask, hnil]
  rfl

/-- A register whose fields are all of WO stores nothing, and masks nothing, but for the owner's unlocked WO of the lock. -/
theorem writeStore_wo {pre : State} {p : Nat} (hreg : regAt a = some r) (hst : isStaged a = false) (hprim : a % 0x200 < 0x100)
    (hwo : ∀ f ∈ r.fs, f.acc = .wo ∧ f.lk = false) (hcvu : ¬(0x2200 ≤ a ∧ a < 0x2240)) :
    writeStore pre s p a v = (s, false) := by
  have hrw : accMask r (fun f => f.acc == .rw && (!f.lk || (p == 0 && !locked pre))) = 0 :=
    accMask_eq_zero fun f hf => by simp [(hwo f hf).1]
  have hkeep : accMask r (fun f => f.acc == .ro || f.acc == .st || (f.lk && !(p == 0 && !locked pre))) = 0 :=
    accMask_eq_zero fun f hf => by simp [(hwo f hf).1, (hwo f hf).2]
  have hw1c : accMask r (fun f => f.acc == .w1c) = 0 := accMask_eq_zero fun f hf => by simp [(hwo f hf).1]
  have hheld : cvuHeld pre a = false := by simp [cvuHeld, hcvu]
  have hrep : ∀ s, cvuRepaired s a = s := fun s => by
    rw [cvuRepaired, if_neg (fun h => hcvu ⟨h.1, h.2.1⟩)]
  have hzero : ∀ w : Word, w &&& 0 = 0 := fun w => BitVec.and_zero
  have hclear : clearBits s a 0 = s := if_pos rfl
  have hstore : ∀ w, storeRw s p a 0 w = s := fun w => by simp only [storeRw, if_true]
  have hne : ((0 : Word) != 0) = false := rfl
  simp only [writeStore, hreg, hst, Bool.false_eq_true, if_false, if_pos hprim, writePrimary, hrw, hkeep, hw1c, hheld, hrep,
    if_true, hzero, hclear, hstore, hne, Bool.or_self, ite_self]

/-- A frame of one word of a WO register does what the write of that word asks for (00 R16). -/
theorem writeRegs_wo (hreg : regAt a = some r) (hden : wordDenied s p.val a v = false) (hst : isStaged a = false)
    (hprim : a % 0x200 < 0x100) (hwo : ∀ f ∈ r.fs, f.acc = .wo ∧ f.lk = false) (hquota : ¬(0x230 ≤ a ∧ a < 0x234))
    (hcvu : ¬(0x2200 ≤ a ∧ a < 0x2240)) {y : State × Bool} (hy : writeAct s s p a v = y)
    (hreqs : y.1.core.seq.reqs.length ≤ s.core.seq.reqs.length + 1) :
    writeRegs s p [(a, v)] = (nfcGoesOn a v y.1, if y.2 = true then 0x01 else 0x00) := by
  rw [writeRegs_one hden hquota hcvu (writeStore_wo hreg hst hprim hwo hcvu) hy hreqs]
  simp

end Sys2Proof.Machine
end

section
/-! SUPPORT. Sound frames: their checks pass, so that they are judged by their header alone (02 R57, R59, R68, Table 2-5). -/

set_option Elab.async false

namespace Sys2Proof.Machine

/-- Iterating a function all of whose values are below a bound. -/
theorem iter_lt {f : Nat → Nat} {b : Nat} (hf : ∀ c, f c < b) (n x : Nat) : iter f (n + 1) x < b := by
  induction n generalizing x with
  | zero => exact hf x
  | succ n ih => exact ih (f x)

/-- The frame CRC has sixteen bits (02 R57). -/
theorem crc16_lt (bs : List Byte) : crc16 bs < 65536 := by
  have hstep : ∀ c, crc16Shift c < 65536 := fun c => by
    unfold crc16Shift
    split
    · exact Nat.mod_lt _ (by decide)
    · omega
  refine List.foldlRecOn bs crc16Byte (motive := (· < 65536)) (by decide) fun c _ b _ => iter_lt hstep 7 _

/-- The PEC has eight bits (02 R68). -/
theorem crc8_lt (bs : List Byte) : crc8 bs < 256 := by
  refine List.foldlRecOn bs crc8Byte (motive := (· < 256)) (by decide) fun c _ b _ => iter_lt (fun c => ?_) 7 _
  split
  · exact Nat.mod_lt _ (by decide)
  · omega

/-- Two bytes of a number below 65,536, most significant first. -/
theorem beNat_two {c : Nat} (hc : c < 65536) : beNat (leBytes 2 c).reverse = c := by
  simp [beNat, leBytes]
  omega

/-- The bytes of a sound frame: those given, and two of CRC. -/
theorem length_sound (p : Part) (bs : List Byte) : (sound p bs).bytes.length = bs.length + 2 := by simp [sound, leBytes]

/-- The request CRC of a frame that begins with the bytes of a sound one matches (02 R57). -/
theorem requestCrcOk_of_sound {f : Frame} {p : Part} {bs rest : List Byte} (hp : f.port = p) (hb : f.bytes = (sound p bs).bytes ++ rest) :
    requestCrcOk f (bs.length + 2) = true := by
  have htake : f.bytes.take (bs.length + 2 - 2) = bs := by simp [hb, sound]
  have hdrop : (f.bytes.drop (bs.length + 2 - 2)).take 2 = (leBytes 2 (crc16 (BitVec.ofNat 8 p.val :: bs))).reverse := by
    simp [hb, sound, leBytes]
  rw [requestCrcOk, htake, hdrop, beNat_two (crc16_lt _), hp]
  simp

/-- A sound frame of a form that writes nothing has no fault of Table 2-5's orders 7 to 10. -/
theorem checkOutcome_read {s : State} {f : Frame} {o : OpForm} {p : Part} {bs : List Byte} (hw : o.writes = false)
    (hp : f.port = p) (hb : f.bytes = (sound p bs).bytes) (hpart : f.partialByte = false) (hx : f.extra = false) :
    checkOutcome s f o (bs.length + 2) = none := by
  have hcrc := requestCrcOk_of_sound (rest := []) hp (hb.trans (List.append_nil _).symm)
  have hlen : f.bytes.length = bs.length + 2 := by rw [hb, length_sound]
  simp [checkOutcome, requestLen, hw, b2n, hcrc, hlen, hpart, hx]

/-- A sound write frame on a host port has none either, nor one on SP whose PEC is right (02 R68). -/
theorem checkOutcome_write {s : State} {f : Frame} {o : OpForm} {p : Part} {bs : List Byte} (hw : o.writes = true)
    (hp : f.port = p) (hb : f.bytes = (soundWrite s p bs).bytes) (hpart : f.partialByte = false) (hx : f.extra = false) :
    checkOutcome s f o (bs.length + 2) = none := by
  by_cases h3 : p = 3
  · subst h3
    have hb' : f.bytes = (sound 3 bs).bytes ++ [BitVec.ofNat 8 (crc8 (BitVec.ofNat 8 (2 * (0x58 + selfId s)) :: (sound 3 bs).bytes))] := hb
    have hcrc := requestCrcOk_of_sound hp hb'
    have hlen : f.bytes.length = bs.length + 3 := by rw [hb', List.length_append, length_sound]; rfl
    have hpec : pecOk s f (bs.length + 2) = true := by
      have hget : f.bytes[bs.length + 2]? = some (BitVec.ofNat 8 (crc8 (BitVec.ofNat 8 (2 * (0x58 + selfId s)) :: (sound 3 bs).bytes))) := by
        rw [hb', List.getElem?_append_right (by rw [length_sound]), length_sound, Nat.sub_self]
        rfl
      have htake : f.bytes.take (bs.length + 2) = (sound 3 bs).bytes := by
        rw [hb', List.take_append_of_le_length (by rw [length_sound]), ← length_sound 3 bs, List.take_length]
      rw [pecOk, hget, htake]
      simp [Nat.mod_eq_of_lt (crc8_lt _)]
    simp [checkOutcome, requestLen, hw, hp, b2n, hcrc, hlen, hpec, hpart, hx]
  · have hb' : f.bytes = (sound p bs).bytes := by rw [hb, soundWrite, if_neg h3]
    have hcrc := requestCrcOk_of_sound (rest := []) hp (hb'.trans (List.append_nil _).symm)
    have hlen : f.bytes.length = bs.length + 2 := by rw [hb', length_sound]
    simp [checkOutcome, requestLen, hw, hp, h3, b2n, hcrc, hlen, hx]

/-- A frame as its port finds it: on SP the bytes are acknowledged (02 R69). -/
def received (s : State) (f : Frame) : State :=
  let s1 := portBegin s f.port.val f.mode3
  if f.port.val = 3 then modPort s1 3 (fun q => { q with acks := spAcks s1 f }) else s1

theorem PortOnly.received (s : State) {f : Frame} {p : Part} (hp : f.port = p) : PortOnly p s (received s f) := by
  subst hp
  unfold Machine.received
  dsimp only
  split
  next h3 =>
    have h3' : f.port = 3 := Fin.ext h3
    rw [← h3]
    exact (PortOnly.portBegin ..).modPort _
  next => exact PortOnly.portBegin ..

/-- A frame whose opcode is known and whose header is sound runs on the port as it finds it. -/
theorem evalFrame_known {s : State} {f : Frame} {o : OpForm} {h : Hdr} (he : f.noEdges = false)
    (hop : opForm (nth f.bytes 0 0).toNat = some o) (hh : frameHdr (received s f) f (some o) = h)
    (hok : headerOutcome f (some o) h = none) : evalFrame s f = frameRun (received s f) f o h none := by
  have hb : f.bytes ≠ [] := fun c => by simp [headerOutcome, c] at hok
  unfold evalFrame
  generalize hopc : (nth f.bytes 0 0).toNat = op at hop ⊢
  have hop' : op ≠ 0xFF := by rintro rfl; cases hop
  have hrec : (if f.port.val = 3 then modPort (portBegin s f.port.val f.mode3) 3 (fun q =>
      { q with acks := spAcks (portBegin s f.port.val f.mode3) f }) else portBegin s f.port.val f.mode3) = received s f := rfl
  have hempty : f.bytes.isEmpty = false := by simpa using hb
  simp only [he, hempty, Bool.or_self, Bool.false_and, Bool.false_eq_true, if_false, hrec, hop', and_false, hb, hop, hh, hok]

end Sys2Proof.Machine
end

section
/-! PROOFS. Chapter 02: NOP, PRST, the events of the ports and the clear of their counters (02 R52, R56, R71-R75). -/

set_option Elab.async false

namespace Sys2Proof.Machine

variable {s : State} {p : Part}

/-- The form of NOP (02 Table 2-3). -/
def nopForm : OpForm := { lenMax := 0, bulk := false, unit := 0, guard := false, writes := false, reads := false }

/-- The header of a NOP frame. -/
def nopHdr (seq : Byte) : Hdr := { op := 0, seq := seq.toNat, addr := 0, len := 0, bulk := false }

/-- A NOP whose checks pass: a response without data, and outcome OK (02 R52). -/
theorem frameRun_nop {f : Frame} {h : Hdr} (hlen : h.len = 0) (hin : inReset s f.port.val = false) (hc : checkOutcome s f nopForm 7 = none) :
    frameRun s f nopForm h none =
      frameEnd (modPort s f.port.val fun q => { q with resp := response s f.port.val h.seq (reducedFlag s) [] true f.bytes })
        f.port.val h 0 (hostBytes f) := by
  obtain ⟨hneed, hcrc⟩ := whole_of_checkOutcome_none hc
  have hhost : nopForm.hostLen (h.len + 1) = 7 := by rw [hlen]; rfl
  have hr : nopForm.reads = false := rfl
  have hw : nopForm.writes = false := rfl
  have hbulk : nopForm.bulk = false := rfl
  have hread : frameRead s f.port.val h nopForm = (0, [], 0) := rfl
  simp [frameRun, responds, hhost, hin, hr, hw, hbulk, hc, hread, hneed, hcrc]

/-- A response begins with STATUS, PSEQ and RFLAGS (02 R53). -/
theorem response_take_three (s : State) (p : Part) (seq flags : Nat) (data sent : List Byte) :
    (response s p.val seq flags data true sent).take 3 = [(portOf s p).lastStatus, (portOf s p).lastSeq, BitVec.ofNat 8 flags] := by
  simp only [response]
  split <;> rfl

/-- What a frame finds of its port's record: the STATUS and SEQ to report, and the count. -/
theorem portOf_received (hlen : s.core.ports.length = 4) {f : Frame} (hp : f.port = p) :
    (portOf (received s f) p).lastStatus = (portOf s p).lastStatus ∧ (portOf (received s f) p).lastSeq = (portOf s p).lastSeq ∧
      (portOf (received s f) p).frames = (portOf s p).frames ∧ (portOf (received s f) p).resp = [] := by
  subst hp
  have hbegin := portOf_portBegin (p := f.port) hlen f.mode3
  have hlen' : (portBegin s f.port.val f.mode3).core.ports.length = 4 := (length_upd _ _ _).trans hlen
  unfold received
  dsimp only
  split
  next h3 =>
    have hp := portOf_modPort (portBegin s f.port.val f.mode3) f.port (fun q => { q with acks := spAcks (portBegin s f.port.val f.mode3) f }) hlen'
    rw [h3] at hp hbegin ⊢
    rw [hp, hbegin]
    exact ⟨rfl, rfl, rfl, rfl⟩
  next =>
    rw [hbegin]
    exact ⟨rfl, rfl, rfl, rfl⟩

/-- A sound NOP on a port that listens. -/
theorem evalFrame_nop (hl : Listens s p) (seq : Byte) :
    evalFrame s (sound p [0x00, seq, 0, 0, 0]) =
      let x := received s (sound p [0x00, seq, 0, 0, 0])
      frameEnd (modPort x p.val fun q => { q with
        resp := response x p.val seq.toNat (reducedFlag x) [] true (sound p [0x00, seq, 0, 0, 0]).bytes }) p.val (nopHdr seq) 0
        (hostBytes (sound p [0x00, seq, 0, 0, 0])) := by
  have hport := PortOnly.received s (p := p) (f := sound p [0x00, seq, 0, 0, 0]) rfl
  rw [evalFrame_known (f := sound p [0x00, seq, 0, 0, 0]) (o := nopForm) (h := nopHdr seq) rfl rfl rfl rfl]
  exact frameRun_nop (f := sound p [0x00, seq, 0, 0, 0]) rfl (hport.listens hl).notInReset
    (checkOutcome_read (bs := [0x00, seq, 0, 0, 0]) rfl rfl rfl rfl rfl)

/-- A port's record at the end of an instant, but for SP_ALERT_N, and so every field of it but that one. -/
theorem port_settle {α : Type} (t : State) (p : Part) (g : PortSt → α) (hg : ∀ q b, g { q with alertOff := b } = g q := by intros; rfl) :
    g (portOf (settle t) p) = g (portOf t p) := by
  rw [← hg (portOf (settle t) p) (portOf t p).alertOff, portOf_settle_alert]

/-- NOP of O13. -/
theorem nop_completes (hl : Listens s p) (hs : Settled s) (seq : Byte) :
    ∃ t, exec (.nop (sound p [0x00, seq, 0, 0, 0])) s = .next t ∧
      (portOf t p).resp.take 3 = [(portOf s p).lastStatus, (portOf s p).lastSeq, BitVec.ofNat 8 (reducedFlag s)] ∧
      (portOf t p).lastStatus = 0x00 ∧ (portOf t p).lastSeq = seq ∧ (portOf t p).frames = (portOf s p).frames + 1 ∧
      KeepsPort p [] s t := by
  have hrec := PortOnly.received s (p := p) (f := sound p [0x00, seq, 0, 0, 0]) rfl
  obtain ⟨hst, hseq, hfr, -⟩ := portOf_received (p := p) hl.fourPorts (f := sound p [0x00, seq, 0, 0, 0]) rfl
  have hlr := hrec.listens hl
  have hflag : reducedFlag (received s (sound p [0x00, seq, 0, 0, 0])) = reducedFlag s := hrec.same reducedFlag
  have hexec : exec (.nop (sound p [0x00, seq, 0, 0, 0])) s = .next (settle (evalFrame s (sound p [0x00, seq, 0, 0, 0]))) := by
    show instant (whenCore fun s => evalFrame s (sound p [0x00, seq, 0, 0, 0])) s = _
    rw [instant_eq, whenCore_up s _ hl.up]
  refine ⟨_, hexec, ?_⟩
  rw [evalFrame_nop hl]
  extract_lets x
  have hlx : Listens (modPort x p.val fun q => { q with
      resp := response x p.val seq.toNat (reducedFlag x) [] true (sound p [0x00, seq, 0, 0, 0]).bytes }) p := listens_modPort _ _ hlr
  rw [port_settle _ _ PortSt.resp, port_settle _ _ PortSt.lastStatus, port_settle _ _ PortSt.lastSeq, port_settle _ _ PortSt.frames,
    portOf_frameEnd hlx, portOf_modPort _ _ _ hlr.fourPorts, frameEnd_ok hlx]
  refine ⟨(response_take_three ..).trans (by rw [hst, hseq, hflag]), rfl, ?_, congrArg (· + 1) hfr, ?_⟩
  · exact BitVec.ofNat_toNat .. |>.trans (BitVec.setWidth_eq ..)
  · exact ((hrec.modPort _).modPort _).keepsPort_settle hs

/-- PRST on SP: the port alone (02 R56). -/
theorem prstOp_sp (s : State) : prstOp s 3 = modPort s 3 fun q => { q with lastStatus := 0x30, lastSeq := 0 } := rfl

/-- PRST on a host port: its configuration word too, which passes its parity (02 R56, 01 R40). -/
theorem prstOp_host (s : State) (h3 : p ≠ 3) : prstOp s p.val =
    setR (passes (modPort s p.val fun q => { q with lastStatus := 0x30, lastSeq := 0 }) fun k => k == 0x400 + 0x10 * p.val)
      (0x400 + 0x10 * p.val) 0x6000 :=
  if_pos (by have : p.val ≠ 3 := fun e => h3 (Fin.ext e); omega)

/-- The parity list after PRST: on a host port its configuration word passes. -/
theorem parity_prstOp (p : Part) :
    (prstOp s p.val).core.parity = s.core.parity.filter (fun k => p = 3 || k != 0x400 + 0x10 * p.val) := by
  by_cases h3 : p = 3
  · subst h3
    rw [show prstOp s (3 : Part).val = _ from prstOp_sp s]
    simp [modPort, modC]
  · rw [prstOp_host s h3]
    simp only [h3, decide_false, Bool.false_or]
    rfl

/-- PRST sets the configuration word of a host port. -/
theorem regs_prstOp (p : Part) :
    (prstOp s p.val).core.regs = if p = 3 then s.core.regs else sset regReset s.core.regs (0x400 + 0x10 * p.val) 0x6000 := by
  split
  next h3 =>
    subst h3
    rfl
  next h3 =>
    rw [prstOp_host s h3]
    rfl

/-- PRST sets what its port's next response reports, and nothing else of the port. -/
theorem ports_prstOp (p : Part) :
    (prstOp s p.val).core.ports = upd s.core.ports p.val fun q => { q with lastStatus := 0x30, lastSeq := 0 } := by
  by_cases h3 : p = 3
  · subst h3
    rfl
  · rw [prstOp_host s h3]
    rfl

/-- PRST leaves every word but the configuration of its port. -/
theorem used_prstOp (p : Part) {a : Nat} (ha : 0x430 ≤ a) : used (prstOp s p.val) a = used s a := by
  have hne : a ≠ 0x400 + 0x10 * p.val ∨ p = 3 := by
    by_cases h3 : p = 3
    · exact .inr h3
    · have : p.val ≠ 3 := fun e => h3 (Fin.ext e)
      exact .inl (by omega)
  refine used_congr ?_ ?_
  · rw [rd, rd, regs_prstOp]
    split
    next => rfl
    next h3 => exact sget_sset_ne regReset _ _ _ _ (hne.resolve_right h3)
  · rw [parity_prstOp]
    rcases hne with h | h <;> simp [h]

/-- PRST of O13. -/
theorem prst_completes (hl : Listens s p) (hs : Settled s) (rest : List Byte) :
    ∃ t, exec (.prst { port := p, bytes := 0xFF :: rest }) s = .next t ∧
      (p ≠ 3 → t.core.regs = sset regReset s.core.regs (0x400 + 0x10 * p.val) 0x6000) ∧ (p = 3 → t.core.regs = s.core.regs) ∧
      t.core.parity = s.core.parity.filter (fun k => p = 3 || k != 0x400 + 0x10 * p.val) ∧
      (portOf t p).lastStatus = 0x30 ∧ (portOf t p).lastSeq = 0x00 ∧ (portOf t p).resp = [] ∧
      (portOf t p).frames = (portOf s p).frames ∧ KeepsPort p [.regs, .parity] s t := by
  have hrec : PortOnly p s (received s { port := p, bytes := 0xFF :: rest }) := PortOnly.received s rfl
  obtain ⟨-, -, hfr, hresp⟩ := portOf_received hl.fourPorts (f := { port := p, bytes := 0xFF :: rest }) rfl
  have hlr := hrec.listens hl
  have heval : evalFrame s { port := p, bytes := 0xFF :: rest } = prstOp (received s { port := p, bytes := 0xFF :: rest }) p.val := by
    have hff : (nth (0xFF :: rest) 0 (0 : Byte)).toNat = 0xFF := rfl
    have hin : inReset (received s { port := p, bytes := 0xFF :: rest }) p.val = false := hlr.notInReset
    unfold evalFrame
    extract_lets q s1 s2 op o h
    have hs2 : s2 = received s { port := p, bytes := 0xFF :: rest } := rfl
    rw [if_neg (by simp), if_pos ⟨by simp, hff⟩, hs2, if_neg (by rw [hin]; decide)]
  generalize received s { port := p, bytes := 0xFF :: rest } = x at *
  have hregs : x.core.regs = s.core.regs := hrec.same fun x => x.core.regs
  have hpar : x.core.parity = s.core.parity := hrec.same fun x => x.core.parity
  have hexec : exec (.prst { port := p, bytes := 0xFF :: rest }) s = .next (settle (prstOp x p.val)) := by
    show instant (whenCore fun s => evalFrame s { port := p, bytes := 0xFF :: rest }) s = _
    rw [instant_eq, whenCore_up s _ hl.up, heval]
  have hport : portOf (prstOp x p.val) p = { portOf x p with lastStatus := 0x30, lastSeq := 0 } := by
    rw [portOf, ports_prstOp]
    exact nth_upd_same _ _ _ _ (by have := hlr.fourPorts; omega)
  refine ⟨_, hexec, fun h3 => ?_, fun h3 => ?_, ?_, ?_, ?_, ?_, ?_, ?_⟩
  · exact (regs_prstOp p).trans (by rw [if_neg h3, hregs])
  · exact (regs_prstOp p).trans (by rw [if_pos h3, hregs])
  · exact (parity_prstOp p).trans (by rw [hpar])
  · rw [port_settle _ _ PortSt.lastStatus, hport]
  · rw [port_settle _ _ PortSt.lastSeq, hport]
  · rw [port_settle _ _ PortSt.resp, hport]
    exact hresp
  · rw [port_settle _ _ PortSt.frames, hport]
    exact hfr
  · have hgoes : Goes [.regs, .parity, .ports, .doze] s (prstOp x p.val) :=
      (hrec.goes.mono (qs := [.regs, .parity, .ports, .doze]) (by simp)).prstOp (by simp) (by simp) (by simp)
    have hused : ∀ a, 0x430 ≤ a → used (prstOp x p.val) a = used s a := fun a ha =>
      (used_prstOp p ha).trans (hrec.same fun x => used x a)
    have hdev : (prstOp x p.val).core.pwr.devrst = false :=
      (show (prstOp x p.val).core.pwr.devrst = x.core.pwr.devrst by unfold prstOp portReset; dsimp only; split <;> rfl).trans
        hlr.noDeviceReset
    have hirq : (prstOp x p.val).core.irq = x.core.irq := by unfold prstOp portReset; dsimp only; split <;> rfl
    refine hgoes.keepsPort_settle hs (hgoes.quiet hs.quiet (by simp) (hused _ (by decide)) (hused _ (by decide)) hdev)
      (fun q hq => ?_) (fun q _ => by rw [hirq.trans (hrec.same fun x => x.core.irq)]) (by simp)
    obtain ⟨ps, d, rfl, -, hoth⟩ := hrec
    rw [portOf, ports_prstOp, nth_upd_ne _ _ _ _ _ fun e => hq (Fin.ext e)]
    exact hoth q hq

/-- A clock-low time-out judges the bytes that came as SHORT (02 R72). -/
theorem clockLow_completes (hl : Listens s 3) (hs : Settled s) (bytes : List Byte) (hen : bit (used s 0x430) 0 = true) :
    ∃ t, exec (.spClockLowTimeout bytes) s = .next t ∧ (portOf t 3).lastStatus = 0x11 ∧
      (portOf t 3).frames = (portOf s 3).frames + 1 ∧ OnlyPort 3 s t := by
  have hin : inReset s 3 = false := hl.notInReset
  have hbegin : PortOnly 3 s (portBegin s (3 : Part).val false) := PortOnly.portBegin 3 s false
  have hport := hbegin.modPort fun q => { q with acks := spAcks s { port := 3, bytes := bytes } }
  have hexec : exec (.spClockLowTimeout bytes) s = .next (settle (clockLowOp s bytes)) := by
    show instant (whenCore fun s => clockLowOp s bytes) s = _
    rw [instant_eq, whenCore_up s _ hl.up]
  have hop : clockLowOp s bytes = frameEnd (modPort (portBegin s (3 : Part).val false) (3 : Part).val fun q =>
      { q with acks := spAcks s { port := 3, bytes := bytes } }) (3 : Part).val _ 0x11 bytes.length := if_neg (by simp [hen, hin])
  rw [hop] at hexec
  have hlx := hport.listens hl
  refine ⟨_, hexec, ?_, ?_, (hport.frameEnd hs.noDeviceReset ..).onlyPort_settle hs⟩
  · rw [port_settle _ _ PortSt.lastStatus, portOf_frameEnd hlx]
    rfl
  · rw [port_settle _ _ PortSt.frames, portOf_frameEnd hlx, portOf_modPort _ _ _ (hbegin.listens hl).fourPorts,
      portOf_portBegin hl.fourPorts]
    rfl

/-- A change of one port alone keeps its record at the end of a settled instant. -/
theorem PortOnly.portOf_settle {q : Part} {t : State} (h : PortOnly p s t) (hs : Settled s) : portOf (settle t) q = portOf t q := by
  have hirq : t.core.irq = s.core.irq := h.same fun x => x.core.irq
  exact congrArg (fun l => nth l q.val ({} : PortSt)) ((h.quiet hs.quiet).ports_settle (by rw [hirq]; exact hs.noNewPend))

/-- A read of the alert address (02 R71). -/
theorem alert_completes (hs : Settled s) (wins : Bool) (hup : coreUp s = true) (hlen : s.core.ports.length = 4) :
    ∃ t, exec (.alertResponse wins) s = .next t ∧
      (spAlert s = true → bit (used s 0x430) 1 = true →
        (portOf t 3).resp = [BitVec.ofNat 8 (2 * (0x58 + selfId s))] ∧ (portOf t 3).alertOff = wins) ∧
      (spAlert s = false → (portOf t 3).resp = [] ∧ (portOf t 3).alertOff = (portOf s 3).alertOff) ∧
      KeepsPort 3 [] s t := by
  have hport : ∀ f, PortOnly 3 s (modPort s (3 : Part).val f) := fun f => (PortOnly.refl 3 s).modPort f
  have hval : ∀ f, portOf (settle (modPort s (3 : Part).val f)) 3 = f (portOf s 3) := fun f => by
    rw [(hport f).portOf_settle hs, portOf_modPort _ _ _ hlen]
  refine ⟨settle (alertOp s wins), ?_, fun hal hen => ?_, fun hal => ?_, ?_⟩
  · show instant (whenCore fun s => alertOp s wins) s = _
    rw [instant_eq, whenCore_up s _ hup]
  · have hop : alertOp s wins = modPort s (3 : Part).val fun q =>
        { q with resp := [BitVec.ofNat 8 (2 * (0x58 + selfId s))], alertOff := wins } := if_pos (by simp [hal, hen])
    rw [hop, hval]
    exact ⟨rfl, rfl⟩
  · have hop : alertOp s wins = modPort s (3 : Part).val fun q => { q with resp := [] } := if_neg (by simp [hal])
    rw [hop, hval]
    exact ⟨rfl, rfl⟩
  · have halert : PortOnly 3 s (alertOp s wins) := by
      unfold alertOp
      split <;> exact hport _
    exact halert.keepsPort_settle hs

/-- The ERRCLR register of a port (02 Table 2-16). -/
theorem regAt_errclr (n : Part) : regAt (0x406 + 0x10 * n.val) = some { fs := [fWo 1 .any] } := by
  fin_cases n <;> rfl

/-- The clear of a port's counters, by its partition or by P0, is not refused (02 R75). -/
theorem wordDenied_errclr (n : Part) (hpn : p = 0 ∨ p = n) (v : Word) : wordDenied s p.val (0x406 + 0x10 * n.val) v = false := by
  have hspecial : specialDenied s p.val (0x406 + 0x10 * n.val) v = false := by
    have haddr : ∀ m : Part, ¬(0x406 + 0x10 * m.val = 0x50) ∧ ¬(0x406 + 0x10 * m.val = 0x274) ∧ ¬(0x406 + 0x10 * m.val = 0xC80) ∧
        (0x400 ≤ 0x406 + 0x10 * m.val ∧ 0x406 + 0x10 * m.val < 0x440 ∧ (0x406 + 0x10 * m.val) % 16 = 6) ∧
        (0x406 + 0x10 * m.val - 0x400) / 16 = m.val := by decide
    obtain ⟨h1, h2, h3, h4, h5⟩ := haddr n
    rw [specialDenied, if_neg h1, if_neg h2, if_neg h3, if_pos h4, h5]
    rcases hpn with rfl | rfl <;> simp
  simp [wordDenied, regAt_errclr, hspecial, fWo, writerOf]

/-- The clear of a port's counters is a frame of one word that stores nothing. -/
theorem writeRegs_errclr (n : Part) (hpn : p = 0 ∨ p = n) {v : Word} (hv : bit v 0 = true) :
    writeRegs s p [(0x406 + 0x10 * n.val, v)] = (errclrOp s n.val, 0x00) := by
  have hact : writeAct s s p (0x406 + 0x10 * n.val) v = (errclrOp s n.val, false) := by
    have h : writeAct s s p (0x406 + 0x10 * n.val) v = (if bit v 0 then errclrOp s n.val else s, false) := by
      fin_cases n <;> rfl
    rw [h, if_pos hv]
  have hnfc : touchesNfc [(0x406 + 0x10 * n.val, v)] = false := by simp [touchesNfc]; omega
  have hst : isStaged (0x406 + 0x10 * n.val) = false := by fin_cases n <;> rfl
  rw [writeRegs_wo (regAt_errclr n) (wordDenied_errclr n hpn v) hst (by omega) (by simp [fWo]) (by omega) (by omega) hact
    (Nat.le_succ _), nfcGoesOn_of_not hnfc]
  rfl

/-- The clear of O13. -/
theorem errclr_completes (hl : Listens s p) (hs : Settled s) (n : Part) (seq : Byte) {v : Word} (hv : bit v 0 = true)
    (hpn : p = 0 ∨ p = n) :
    ∃ t, exec (.errclr p seq n v) s = .next t ∧ (portOf t n).errs = List.replicate 8 0 ∧
      (portOf t p).lastStatus = 0x00 ∧ (∀ q : Part, q ≠ p → q ≠ n → portOf t q = portOf s q) ∧
      Keeps [.ports, .irqRound, .doze] s t := by
  have hopen := PortOnly.frameOpen p s seq 1
  have hlo := hopen.listens hl
  have hclear : errclrOp (frameOpen s p seq 1) n.val = modPort (frameOpen s p seq 1) n.val fun q => { q with errs := List.replicate 8 0 } :=
    rfl
  have hlc : Listens (errclrOp (frameOpen s p seq 1) n.val) p := by
    rw [hclear]
    exact listens_modPort _ _ hlo
  have hexec := instant_framed hl seq (f := fun x => errclrOp x n.val) (writeRegs_errclr (s := frameOpen s p seq 1) n hpn hv)
  have hend : frameClose (errclrOp (frameOpen s p seq 1) n.val) p seq (0x406 + 0x10 * n.val) 1 0 = _ := frameEnd_ok hlc _ _
  obtain ⟨ps, d, hps, hlen, hoth⟩ := hopen
  have hend' : frameClose (errclrOp (frameOpen s p seq 1) n.val) p seq (0x406 + 0x10 * n.val) 1 0 =
      withPorts s (upd (upd ps n.val fun q => { q with errs := List.replicate 8 0 }) p.val fun q =>
        { q with frames := q.frames + 1, lastStatus := 0, lastSeq := BitVec.ofNat 8 seq.toNat }) d := by
    rw [hend, hps]
    rfl
  have hquiet := hs.quiet.withPorts (upd (upd ps n.val fun q => { q with errs := List.replicate 8 0 }) p.val fun q =>
        { q with frames := q.frames + 1, lastStatus := 0, lastSeq := BitVec.ofNat 8 seq.toNat }) d
  have hps4 : ps.length = 4 := hlen.trans hl.fourPorts
  have hports := hquiet.ports_settle hs.noNewPend
  rw [← hend'] at hports hquiet
  refine ⟨_, hexec, ?_, lastStatus_frameClose hlc seq _ 1 0, fun q hqp hqn => ?_, ?_⟩
  · rw [framed, port_settle _ _ PortSt.errs, hend']
    show (nth (upd (upd ps n.val _) p.val _) n.val {}).errs = _
    have hn : (nth (upd ps n.val fun q => { q with errs := List.replicate 8 0 }) n.val {}).errs = List.replicate 8 0 := by
      rw [nth_upd_same _ _ _ _ (by omega)]
    by_cases hnp : n.val = p.val
    · rw [← hnp, nth_upd_same _ _ _ _ (by rw [length_upd]; omega)]
      exact hn
    · rw [nth_upd_ne _ _ _ _ _ hnp]
      exact hn
  · refine (congrArg (fun l => nth l q.val ({} : PortSt)) hports).trans ?_
    rw [hend']
    show nth (upd (upd ps n.val _) p.val _) q.val {} = _
    rw [nth_upd_ne _ _ _ _ _ fun e => hqp (Fin.ext e), nth_upd_ne _ _ _ _ _ fun e => hqn (Fin.ext e)]
    exact hoth q hqp
  · have hgoes : Goes [.ports, .doze] s (frameClose (errclrOp (frameOpen s p seq 1) n.val) p seq (0x406 + 0x10 * n.val) 1 0) := by
      rw [hend']
      exact goes_withPorts d (((length_upd _ _ _).trans (length_upd _ _ _)).trans hlen)
    exact (hgoes.keeps.trans hquiet.keeps_settle).mono (by simp)

/-- The end of a reset pulse of O13. -/
theorem hrstPulseEnd_completes (hs : Settled s) (n : Fin 3) (hup : coreUp s = true) (hlen : s.core.ports.length = 4) :
    ∃ t, exec (.hrstPulseEnd n) s = .next t ∧ (nth t.core.ports n.val {}).hrstEnd = none ∧
      (∀ q : Part, q.val ≠ n.val → portOf t q = portOf s q) ∧ Keeps [.ports, .irqRound] s t := by
  have hport : PortOnly n.castSucc s (modPort s n.val fun q => { q with hrstEnd := none }) := (PortOnly.refl _ s).modPort _
  refine ⟨settle (modPort s n.val fun q => { q with hrstEnd := none }), ?_, ?_, fun q hq => ?_, fun k => ?_⟩
  · show instant (whenCore fun s => modPort s n.val fun q => { q with hrstEnd := none }) s = _
    rw [instant_eq, whenCore_up s _ hup]
  · show (portOf (settle _) n.castSucc).hrstEnd = none
    rw [hport.portOf_settle hs]
    exact (congrArg PortSt.hrstEnd (portOf_modPort s n.castSucc _ hlen)).trans rfl
  · rw [hport.portOf_settle hs]
    exact nth_upd_ne _ _ _ _ _ hq
  · by_cases hk : k = .doze
    · obtain ⟨-, -, hdoze, -⟩ := hs
      have hwork : workPresent (modPort s n.val fun q => { q with hrstEnd := none }) = workPresent s := rfl
      refine .inr ?_
      rw [hk]
      show (s.core.pwr.doze && !workPresent _) = s.core.pwr.doze
      rw [hwork]
      cases hd : s.core.pwr.doze with
      | false => rfl
      | true => simp [hdoze hd]
    · refine ((hport.keepsPort_settle hs).1 k).imp_left fun hm => ?_
      simpa [hk] using hm

/-- Settles O13: NOP and PRST are judged by their first byte; each event of a port changes that port's record alone. -/
theorem portFramesAndPortEvents : Obligations.PortFramesAndPortEvents := by
  unfold Obligations.PortFramesAndPortEvents
  exact ⟨fun s p seq rest hl hs => ⟨nop_completes hl hs seq, prst_completes hl hs rest⟩,
    fun s hs => ⟨fun bytes hl hen => clockLow_completes hl hs bytes hen, fun wins hup hlen => alert_completes hs wins hup hlen,
      fun p n seq v hl hv hpn => errclr_completes hl hs n seq hv hpn, fun n hup hlen => hrstPulseEnd_completes hs n hup hlen⟩⟩

end Sys2Proof.Machine
end

section
/-! PROOFS. Chapter 05: the events of the supplies, power-on and the wake sequence (05 R131, R132, R141-R144, R155). -/

set_option Elab.async false

namespace Sys2Proof.Machine

variable {s t : State} {ps : List Piece}

/-- As many controllers as before, where their settings are the same. -/
theorem Goes.irq_length (h : Goes ps s t) (hset : .irqSet ∉ ps) : t.core.irq.length = s.core.irq.length := by
  have hmap : t.core.irq.map _ = s.core.irq.map _ := h.same .irqSet hset
  simpa using congrArg List.length hmap

/-- A source that is raised stays pending. -/
theorem Goes.pend_of (h : Goes ps s t) (hset : .irqSet ∉ ps) {p n : Nat} (hb : bit (nth s.core.irq p {}).pend n = true) :
    bit (nth t.core.irq p {}).pend n = true :=
  h.pend.resolve_left hset p n hb

/-- A source pending in every partition stays so. -/
theorem Goes.pend_all (h : Goes ps s t) (hset : .irqSet ∉ ps) {n : Nat} (hall : ∀ q ∈ s.core.irq, bit q.pend n = true) :
    ∀ q ∈ t.core.irq, bit q.pend n = true := by
  intro q hq
  obtain ⟨i, hi, rfl⟩ := List.getElem_of_mem hq
  have hi' : i < s.core.irq.length := (h.irq_length hset) ▸ hi
  have hb : bit (nth s.core.irq i {}).pend n = true := by
    have hmem : nth s.core.irq i {} ∈ s.core.irq := by
      simp [nth, List.getD, hi']
    exact hall _ hmem
  have ht := h.pend_of hset hb
  simpa [nth, List.getD, hi] using ht

/-- A source raised in every partition is pending in every one. -/
theorem pend_raiseAll_all {n : Nat} (hn : n < 64) : ∀ q ∈ (raiseAll s n).core.irq, bit q.pend n = true := by
  intro q hq
  obtain ⟨r, -, rfl⟩ := List.mem_map.mp hq
  exact bit_setBit_same _ _ _ hn

/-- The parts that NAND work may touch as it goes on. -/
def nandPieces : List Piece :=
  [.hold, .regs, .parity, .course, .irqPend, .buf, .seq, .flw, .key, .epd, .pix, .efl, .nfc, .gng]

/-- The warning of O28. -/
theorem mainWarning_moves (s : State) (hphase : s.aon.phase ≠ .dead) :
    ∃ t, exec .mainWarning s = .next t ∧ t.aon.tbase = s.aon.tbase ∧ t.aon.osc = s.aon.osc ∧
      (s.aon.warn = true → t = settle s) ∧
      (s.aon.warn = false → t.aon = { s.aon with warn := true, warnings := sat 255 (s.aon.warnings + 1) } ∧
        (coreUp s = true → ∀ q ∈ t.core.irq, bit q.pend 1 = true)) := by
  refine ⟨settle (mainWarnOp s), rfl, ?_⟩
  cases hw : s.aon.warn with
  | true =>
    have hop : mainWarnOp s = s := if_pos (.inr hw)
    rw [hop]
    exact ⟨rfl, rfl, fun _ => rfl, nofun⟩
  | false =>
    have hop : mainWarnOp s = _ := if_neg (by simp [hphase, hw])
    rw [hop]
    extract_lets u
    have hup : coreUp u = coreUp s := rfl
    have haon : (if coreUp u = true then nfcAfter (capoFault (raiseAll u 1) 16) else u).aon = u.aon := by
      split
      · exact (((((Goes.refl (.capo :: nandPieces) u).raiseAll (by decide)).capoFault (by decide)).nfcAfter (by decide)).same .aon (by decide))
      · rfl
    refine ⟨(congrArg Aon.tbase haon :), (congrArg Aon.osc haon :), nofun, fun _ => ⟨haon, fun hrun => ?_⟩⟩
    rw [if_pos (hup.trans hrun)]
    have hgoes := (((Goes.refl (.capo :: .irqRound :: .ports :: .doze :: nandPieces) (raiseAll u 1)).capoFault (by decide) (n := 16)).nfcAfter
      (by decide)).settle (by decide)
    exact hgoes.pend_all (by decide) (pend_raiseAll_all (by decide))

/-- The end of the warning. -/
theorem mainWarningEnd_moves (s : State) :
    ∃ t, exec .mainWarningEnd s = .next t ∧
      (s.aon.warn = false → t = settle s) ∧
      (s.aon.warn = true → t.aon = { s.aon with warn := false } ∧ (coreUp s = true → ∀ q ∈ t.core.irq, bit q.pend 2 = true)) := by
  refine ⟨settle (mainWarnEndOp s), rfl, fun hw => ?_, fun hw => ?_⟩
  · rw [mainWarnEndOp, if_neg (by simp [hw])]
  · rw [mainWarnEndOp, if_pos hw]
    extract_lets u
    have hup : coreUp u = coreUp s := rfl
    have haon : (if coreUp u = true then nfcAfter (advTry (raiseAll u 2)) else u).aon = u.aon := by
      split
      · exact (((((Goes.refl nandPieces u).raiseAll (by decide)).advTry (by decide)).nfcAfter (by decide)).same .aon (by decide))
      · rfl
    refine ⟨haon, fun hrun => ?_⟩
    rw [if_pos (hup.trans hrun)]
    have hgoes := (((Goes.refl (.capo :: .irqRound :: .ports :: .doze :: nandPieces) (raiseAll u 2)).advTry (by decide)).nfcAfter
      (by decide)).settle (by decide)
    exact hgoes.pend_all (by decide) (pend_raiseAll_all (by decide))

/-- Settles O28: each event of the supplies writes its own words of the always-on domain. -/
theorem supplyEventsMoveTheAlwaysOnDomain : Obligations.SupplyEventsMoveTheAlwaysOnDomain := by
  unfold Obligations.SupplyEventsMoveTheAlwaysOnDomain
  intro s hphase
  refine ⟨mainWarning_moves s hphase, mainWarningEnd_moves s, fun valid => ?_, ?_, fun hoff => ?_, rfl⟩
  · have hlive : (s.aon.phase != .dead) = true := by simpa using hphase
    have hop : backupOp s valid = { s with aon := { s.aon with bakValid := valid, srcVbak := !s.aon.mainOk && valid } } := by
      simp only [backupOp, modA, hlive, Bool.and_true]
    exact congrArg (fun x => Host.Outcome.next (settle x)) hop
  · show Host.Outcome.next (settle (mainAboveOp s)) = _
    rw [mainAboveOp, if_neg hphase]
    rfl
  · show Host.Outcome.next (settle (holdStartOp s)) = _
    rw [holdStartOp, if_pos hoff]
    rfl

/-- A controller with no pending source has nothing to do. -/
theorem irqNext_idle (x : State) (n : Nat) : irqNext x n {} = {} := by
  have hact : (0 : BitVec 64) &&& irqBits x n 2 0 = 0 := BitVec.zero_and
  simp only [irqNext, irqUsed, irqAfter, hact, if_true]

/-- Every word of a core domain that has lost its registers is used at its reset value. -/
theorem used_lost {x : State} {l : List PortSt} (hcore : x.core = { ports := l }) (a : Nat) : used x a = regReset a := by
  rw [used, rd, hcore]
  rfl

/-- A core domain that has lost everything but its ports stays so at the end of the instant. -/
theorem settle_core_lost {x : State} {l : List PortSt} (hcore : x.core = { ports := l }) : (settle x).core = { ports := l } := by
  have hvote : used x 0x2401 = 2 := (used_lost hcore _).trans (by decide +kernel)
  have hcfg : used x 0x2400 = 0xA00 := (used_lost hcore _).trans (by decide +kernel)
  have hen : gngEn x = false := by
    rw [gngEn, hcfg]
    decide
  have hown : ownVote x = 2 := by
    rw [ownVote, uf, hvote]
    decide
  have heff : effVote x = 2 := by
    rw [effVote, voteForced, hen, hown]
    rfl
  have hcapo : capoAfter x = {} := by
    have hc : x.core.capo = {} := by rw [hcore]
    rw [capoAfter_of_noTrigger (by rw [hc]), hc]
  have hirq : irqWithCapo x = List.replicate 4 {} := by
    rw [irqWithCapo_of_noTrigger (by rw [hcore]), hcore]
  have hgng : gngAfter x = {} := by
    have hg : x.core.gng = {} := by rw [hcore]
    have hr : x.core.seq.rpgOut = ({} : SeqSt).rpgOut := by rw [hcore]
    rw [gngAfter_eq_self (by rw [hcore]) (by rw [hg, heff]) (by rw [hg, hr])]
    exact hg
  have hports : portsAfter x = l := by
    simp only [portsAfter, hirq]
    rw [if_pos (by decide), hcore]
  have hround : (irqWithCapo x).zipIdx.map (fun e => irqNext x e.2 e.1) = List.replicate 4 {} := by
    rw [hirq]
    show [irqNext x 0 {}, irqNext x 1 {}, irqNext x 2 {}, irqNext x 3 {}] = _
    simp only [irqNext_idle]
    rfl
  simp only [settle, hcapo, hgng, hports, hround]
  rw [hcore]
  rfl

end Sys2Proof.Machine
end

section
/-! PROOFS. Chapter 05: loss of the always-on state, power-on, and the wake sequence (05 R132, R141-R144, R155). -/

set_option Elab.async false

namespace Sys2Proof.Machine

variable {s : State}

/-- An interruption of setup flash work where no bank works and the log is in no phase changes nothing (11 R319). -/
theorem eflInterrupt_idle (hbanks : s.core.efl.banks.all (fun b => b.chan.isNone) = true) (hlog : s.core.efl.log.phase = none) :
    eflInterrupt s = s := by
  have hidle : ∀ b, (nth s.core.efl.banks b {}).chan = none := fun b => by
    rcases Nat.lt_or_ge b s.core.efl.banks.length with hlt | hge
    · have hmem : nth s.core.efl.banks b {} ∈ s.core.efl.banks := by simp [nth, List.getD, hlt]
      simpa using List.all_eq_true.mp hbanks _ hmem
    · rw [nth_of_le hge]
  have hphase : (logOf s).phase = none := hlog
  have htwo : upto 2 = [0, 1] := rfl
  simp only [eflInterrupt, htwo, List.foldl_cons, List.foldl_nil, hidle, hphase, ite_self]

/-- What VAON takes away (05 R132). -/
theorem coldStart_loses (s : State) :
    ∃ t, exec .coldStart s = .next t ∧ t.core = {} ∧ t.hold = { coldWake := true, vddcTries := 0, x24Tries := 0, pllTries := 0 } ∧
      t.aon = { phase := .dead, onRc32 := true, mainOk := false, wake := 0, cold := false, bakValid := s.aon.bakValid, resetLow := s.aon.resetLow } ∧
      (s.core.efl.banks.all (fun b => b.chan.isNone) = true → s.core.efl.log.phase = none → t.flash = s.flash) := by
  have haon : (eflInterrupt s).aon = s.aon := ((Goes.refl [.flash] s).eflInterrupt (by decide)).same .aon (by decide)
  have haon' : (if coreUp s = true then eflInterrupt s else s).aon = s.aon := by
    split
    · exact haon
    · rfl
  refine ⟨settle (coldStartOp s), rfl, settle_core_lost (l := ({} : CoreSt).ports) rfl, rfl, ?_, fun hbanks hlog => ?_⟩
  · show Aon.mk .. = Aon.mk ..
    rw [haon']
  · show (if coreUp s = true then eflInterrupt s else s).flash = s.flash
    rw [eflInterrupt_idle hbanks hlog, ite_self]

/-- What power-on puts in its place (05 R132, Table 5-7). -/
theorem powerOn_sets (s : State) :
    ∃ t, exec .aonPowerOn s = .next t ∧ (s.aon.phase ≠ .dead → t = settle s) ∧
      (s.aon.phase = .dead → t.aon.regs = [] ∧ t.aon.tbase = 0 ∧ t.aon.switchovers = 0 ∧ t.aon.refusals = 0 ∧ t.aon.vddcFaults = 0 ∧
        t.aon = {
          phase := .off, onRc32 := true, mainOk := false, warn := true, wake := 0, cold := true
          srcVbak := s.aon.bakValid, bakValid := s.aon.bakValid, resetLow := s.aon.resetLow } ∧
        t.hold = { coldWake := true, vddcTries := 0, x24Tries := 0, pllTries := 0 } ∧ t.flash = s.flash) := by
  refine ⟨settle (powerOnOp s), rfl, fun h => ?_, fun h => ?_⟩
  · rw [powerOnOp, if_neg h]
  · rw [powerOnOp, if_pos h]
    exact ⟨rfl, rfl, rfl, rfl, rfl, rfl, rfl, rfl⟩

/-- A return that may go on ends the hold (05 R141). -/
theorem returnOp_of_hold {w : WakeInputs} (hoff : s.aon.phase = .off) (hhold : s.aon.holdStart ≠ none) (hhigh : s.aon.resetLow = false) :
    returnOp s w =
      let u := modA s fun a => { a with holdStart := none }
      let en := aused u 0xA08
      if s.hold.coldWake then startWake u (wakeBit 7)
      else if s.hold.afterRefusal || s.hold.aborted || s.aon.stop != 1 || bit en 9 then
        startWake u (wakeBit 5 ||| (if s.hold.timerOff && bit en 4 then wakeBit 2 else 0) ||| (if 3 ≤ s.aon.stop then wakeBit 6 else 0))
      else sleepArmed (modH u fun h => { h with timerOff := false }) w := by
  have hgo : ¬(s.aon.phase ≠ .off ∨ s.aon.holdStart = none) := by simp [hoff, hhold]
  have hlow : (modA s fun a => { a with holdStart := none }).aon.resetLow = false := hhigh
  rw [returnOp, if_neg hgo]
  simp only [hlow, Bool.false_eq_true, if_false]
  rfl

/-- Settles O30: what VAON takes away, what power-on puts in its place, and what a return leads to. -/
theorem coldStartAndPowerOn : Obligations.ColdStartAndPowerOn := by
  unfold Obligations.ColdStartAndPowerOn
  refine fun s => ⟨coldStart_loses s, powerOn_sets s, fun w hoff hhold hhigh => ⟨settle (returnOp s w), rfl, ?_⟩⟩
  rw [returnOp_of_hold hoff hhold hhigh]
  extract_lets u en
  refine ⟨?_, fun hcold hab => ?_, fun hcold hstop => ?_⟩
  · have hwake : ∀ c, (settle (startWake u c)).aon.holdStart = none := fun _ => rfl
    split
    · exact hwake _
    · split
      · exact hwake _
      · show (sleepArmed _ w).aon.holdStart = none
        unfold sleepArmed
        dsimp only
        split <;> rfl
  · rw [if_pos hcold]
    refine ⟨rfl, ?_⟩
    show (if s.hold.aborted = true then s.aon.wake else 0) ||| wakeBit 7 = 0x80
    rw [if_neg (by simp [hab])]
    decide
  · have hgo : (s.hold.afterRefusal || s.hold.aborted || s.aon.stop != 1 || bit en 9) = true := by simp [hstop]
    rw [if_neg (by simp [hcold]), if_pos hgo]
    refine ⟨rfl, ?_⟩
    show bit ((if s.hold.aborted = true then s.aon.wake else 0) ||| (wakeBit 5 ||| _ ||| _)) 5 = true
    have h5 : bit (wakeBit 5) 5 = true := by decide
    simp only [bit, BitVec.toNat_or, Nat.testBit_or] at h5 ⊢
    simp [h5]

/-- An attempt of a wake step that times out (05 R142-R144). -/
theorem stepTimeout_leads (s : State) :
    ∃ t, exec .wakeStepTimeout s = .next t ∧
      (s.aon.phase = .vddc → s.hold.vddcTries < 4 → t = settle { s with aon := { s.aon with phase := .backVddc } }) ∧
      (s.aon.phase = .vddc → 4 ≤ s.hold.vddcTries → t.aon.phase = .refusal ∧ t.hold.outcome = 3 ∧ t.aon.refusedSeen = true ∧
        t.aon.refusals = sat 255 (s.aon.refusals + 1) ∧ t.hold.fsLevels = BitVec.ofNat 4 (fld (aused s 0xA16) 0 4)) ∧
      (s.aon.phase = .x24 → s.hold.x24Tries < 4 → t = settle { s with aon := { s.aon with phase := .backX24 } }) ∧
      (s.aon.phase = .x24 → 4 ≤ s.hold.x24Tries → t.aon.phase = .coreStart ∧ t.hold.outcome = 1) ∧
      (s.aon.phase = .pll → s.hold.pllTries < 4 → t = settle { s with aon := { s.aon with phase := .backPll } }) ∧
      (s.aon.phase = .pll → 4 ≤ s.hold.pllTries → t.aon.phase = .coreStart ∧ t.hold.outcome = 2) := by
  refine ⟨settle (stepTimeoutOp s), rfl, fun h hlt => ?_, fun h hge => ?_, fun h hlt => ?_, fun h hge => ?_, fun h hlt => ?_,
    fun h hge => ?_⟩
  all_goals unfold stepTimeoutOp; rw [h]; dsimp only
  · rw [if_pos hlt]
    rfl
  · rw [if_neg (Nat.not_lt.mpr hge)]
    exact ⟨rfl, rfl, rfl, rfl, rfl⟩
  · rw [if_pos hlt]
    rfl
  · rw [if_neg (Nat.not_lt.mpr hge)]
    exact ⟨rfl, rfl⟩
  · rw [if_pos hlt]
    rfl
  · rw [if_neg (Nat.not_lt.mpr hge)]
    exact ⟨rfl, rfl⟩

/-- The end of a back-off (05 R142). -/
theorem backoffEnd_leads (s : State) :
    ∃ t, exec .backoffEnd s = .next t ∧
      (s.aon.phase = .backVddc → t.aon.phase = .vddc ∧ t.hold = { s.hold with vddcTries := s.hold.vddcTries + 1 }) ∧
      (s.aon.phase = .backX24 → t.aon.phase = .x24 ∧ t.hold = { s.hold with x24Tries := s.hold.x24Tries + 1 }) ∧
      (s.aon.phase = .backPll → t.aon.phase = .pll ∧ t.hold = { s.hold with pllTries := s.hold.pllTries + 1 }) := by
  refine ⟨settle (backoffEndOp s), rfl, fun h => ?_, fun h => ?_, fun h => ?_⟩
  all_goals
    unfold backoffEndOp
    rw [h]
    exact ⟨rfl, rfl⟩

/-- The release of RESET_N (05 R155). -/
theorem resetRelease_leads (s : State) :
    ∃ t, exec .resetNRelease s = .next t ∧ t.aon.resetLow = false ∧
      (s.aon.phase = .held → s.aon.mainOk = true → t.aon.phase = .arm) ∧
      (s.aon.phase = .held → s.aon.mainOk = false → t.aon.phase = .off) ∧
      (s.aon.phase ≠ .held → t = settle { s with aon := { s.aon with resetLow := false } }) := by
  have hheld : ∀ h : s.aon.phase = .held, resetReleaseOp s = if s.aon.mainOk then
      startWake (modA s fun a => { a with resetLow := false }) (if s.hold.coldWake then wakeBit 7 else wakeBit 6)
      else setPhase (modA s fun a => { a with resetLow := false }) .off := fun h => if_pos h
  have hnot : ∀ h : s.aon.phase ≠ .held, resetReleaseOp s = modA s fun a => { a with resetLow := false } := fun h => if_neg h
  refine ⟨settle (resetReleaseOp s), rfl, ?_, fun h hmain => ?_, fun h hmain => ?_, fun h => ?_⟩
  · by_cases h : s.aon.phase = .held
    · rw [hheld h]
      split <;> rfl
    · rw [hnot h]
      rfl
  · rw [hheld h, hmain]
    rfl
  · rw [hheld h, hmain]
    rfl
  · rw [hnot h]
    rfl

/-- Settles O31: each event acts in its own phase of the wake sequence. -/
theorem wakeSequenceStepsInOrder : Obligations.WakeSequenceStepsInOrder := by
  unfold Obligations.WakeSequenceStepsInOrder
  refine fun s => ⟨fun straps h => ?_, fun h => ?_, fun h => ?_, fun h => ?_, stepTimeout_leads s, backoffEnd_leads s, resetRelease_leads s⟩
  · show Host.Outcome.next (settle (armEndOp s straps)) = _
    rw [armEndOp, if_pos h]
    rfl
  · show Host.Outcome.next (settle (vddcReadyOp s)) = _
    rw [vddcReadyOp, if_pos h]
    rfl
  · show Host.Outcome.next (settle (x24ReadyOp s)) = _
    rw [x24ReadyOp, if_pos h]
    rfl
  · show Host.Outcome.next (settle (pllLockOp s)) = _
    rw [pllLockOp, if_pos h]
    rfl

end Sys2Proof.Machine
end

section
/-! SUPPORT. What a write frame of one word leaves besides its effect, and how the word is judged and stored (00 R16, 02 R59-R62,
04 R102-R105). -/

set_option Elab.async false

namespace Sys2Proof.Machine

variable {s x : State} {p : Part} {a n code : Nat} {v : Word} {r : RegSpec} {f : State → State} {seq : Byte}

/-- The outcome of a write frame on a port that listens touches the port and PORT_ERR. -/
theorem goes_frameClose (hl : Listens x p) : Goes [.ports, .irqPend] x (frameClose x p seq a n code) := by
  rw [frameClose, frameEnd_listens hl]
  exact .cond (((Goes.refl _ x).modPort (by simp)).raise (by simp)) ((Goes.refl _ x).modPort (by simp))

/-- From the effect of a write frame to its next state. -/
theorem goes_framed (hl : Listens (f (frameOpen s p seq n)) p) : Goes endPieces (f (frameOpen s p seq n)) (framed s p seq a n code f) :=
  ((goes_frameClose hl).mono (by decide)).settle (List.Subset.refl _)

/-- The port reports the outcome of the frame. -/
theorem lastStatus_framed (hl : Listens (f (frameOpen s p seq n)) p) :
    (portOf (framed s p seq a n code f) p).lastStatus = BitVec.ofNat 8 code := lastStatus_frameClose hl seq a n code

/-- A frame refused with DENIED reports it, and changes nothing but its port (02 R62). -/
theorem deniedAt_onlyPort (hl : Listens s p) (hs : Settled s) :
    (portOf (deniedAt s p seq a n) p).lastStatus = 0x20 ∧ OnlyPort p s (deniedAt s p seq a n) := by
  have hopen := PortOnly.frameOpen p s seq n
  exact ⟨lastStatus_framed (f := id) (hopen.listens hl), (hopen.frameEnd hs.noDeviceReset ..).onlyPort_settle hs⟩

/-- A frame whose effect stays quiet, raises no source and leaves the ports: nothing but the parts it names, the own port, DOZE and
the rounds changes, and PORT_ERR where a counter counts the outcome. -/
theorem keepsPort_framed {ps but : List Piece} (hs : Settled s) (hl : Listens (f (frameOpen s p seq n)) p)
    (hgoes : Goes ps (frameOpen s p seq n) (f (frameOpen s p seq n))) (hquiet : Quiet (f (frameOpen s p seq n)))
    (hirq : (f (frameOpen s p seq n)).core.irq = (frameOpen s p seq n).core.irq)
    (hports : (f (frameOpen s p seq n)).core.ports = (frameOpen s p seq n).core.ports)
    (hsub : ps ⊆ but ++ [.ports, .irqRound, .doze]) (herr : errIndex code = none ∨ .irqPend ∈ but) :
    KeepsPort p but s (framed s p seq a n code f) := by
  have hopen := PortOnly.frameOpen p s seq n
  obtain ⟨l, d, hl0, -, hoth⟩ := PortOnly.frameOpen p s seq n
  have hopenGoes : Goes (ps ++ [.ports, .doze]) s (frameOpen s p seq n) := hopen.goes.mono (by simp)
  have hirq0 : (frameOpen s p seq n).core.irq = s.core.irq := hopen.same fun y => y.core.irq
  have hports0 : ∀ q : Part, q ≠ p → portOf (f (frameOpen s p seq n)) q = portOf s q := fun q hq => by
    rw [portOf, hports, hl0]
    exact hoth q hq
  have heff := hopenGoes.trans (hgoes.mono (by simp))
  rw [framed, frameClose, frameEnd_listens hl]
  have hmod : ∀ g, Quiet (modPort (f (frameOpen s p seq n)) p.val g) := fun g =>
    ⟨hquiet.trig, hquiet.vote, hquiet.rpg, hquiet.devrst⟩
  have hother : ∀ (g : PortSt → PortSt) (q : Part), q ≠ p → portOf (modPort (f (frameOpen s p seq n)) p.val g) q = portOf s q :=
    fun g q hq => (nth_upd_ne _ _ _ _ _ fun e => hq (Fin.ext e)).trans (hports0 q hq)
  split
  next herr' =>
    have hmem : .irqPend ∈ but := herr.resolve_left fun e => by simp [e] at herr'
    have hq : Quiet (raise (modPort (f (frameOpen s p seq n)) p.val (judged
        { op := 0x02, seq := seq.toNat, addr := a, len := n - 1, bulk := false } code (7 + 4 * n + b2n (p == 3)))) p.val 8) :=
      ⟨hquiet.trig, hquiet.vote, hquiet.rpg, hquiet.devrst⟩
    refine (((heff.mono (qs := .irqPend :: ps ++ [.ports, .doze]) (by simp)).modPort (by simp)).raise (by simp)).keepsPort_settle hs hq
      (fun q hqp => hother _ q hqp) (fun q hqp => ?_) ?_
    · show nth (upd (f (frameOpen s p seq n)).core.irq p.val _) q.val ({} : IrqSt) = _
      rw [nth_upd_ne _ _ _ _ _ fun e => hqp (Fin.ext e)]
      exact congrArg (fun l => nth l q.val ({} : IrqSt)) (hirq.trans hirq0)
    · simp only [List.cons_append, List.cons_subset, List.append_subset, List.mem_append]
      exact ⟨.inl hmem, hsub, by simp⟩
  next =>
    refine (heff.modPort (by simp)).keepsPort_settle hs (hmod _) (fun q hqp => hother _ q hqp) (fun q _ => ?_) ?_
    · exact congrArg (fun l => nth l q.val ({} : IrqSt)) (hirq.trans hirq0)
    · exact List.append_subset.mpr ⟨hsub, by simp⟩

/-- Of the addresses with a refusal of their own (02 R75, 03 R95, 04 R125, 06 R168), this is none. -/
theorem specialDenied_of_not {q : Nat} (h1 : a ≠ 0x50) (h2 : a ≠ 0x274) (h3 : a ≠ 0xC80)
    (h4 : ¬(0x400 ≤ a ∧ a < 0x440 ∧ a % 16 = 6)) : specialDenied s q a v = false := by
  rw [specialDenied, if_neg h1, if_neg h2, if_neg h3, if_neg h4]

/-- A partition that owns no field of a register of one resource is refused (04 R105). -/
theorem wordDenied_of_noField {q : Nat} (hreg : regAt a = some r) (hne : r.fs ≠ []) (hown : ∀ f ∈ r.fs, writerOf s q f.own ≠ q)
    (hone : severalRes r = false) : wordDenied s q a v = true := by
  have hall : r.fs.all (fun f => writerOf s q f.own != q) = true := List.all_eq_true.mpr fun f hf => by simpa using hown f hf
  have hne' : r.fs.isEmpty = false := by simpa using hne
  simp [wordDenied, hreg, hall, hne', hone]

/-- The writer that owns every field of a register is not refused, special refusals aside (04 R105). -/
theorem wordDenied_of_ownsAll {q : Nat} (hreg : regAt a = some r) (hown : ∀ f ∈ r.fs, writerOf s q f.own = q)
    (hspecial : specialDenied s q a v = false) : wordDenied s q a v = false := by
  have hany : ∀ g : FieldS → Bool, r.fs.any (fun f => writerOf s q f.own != q && g f) = false := fun g =>
    List.any_eq_false.mpr fun f hf => by simp [hown f hf]
  simp only [wordDenied, hreg, hany, hspecial, Bool.or_false, Bool.and_eq_false_iff, Bool.not_eq_false']
  left
  cases hfs : r.fs with
  | nil => simp
  | cons f fs => exact .inr (by simp [hown f (by simp [hfs])])

/-- A word at a primary offset is stored by access code: the RW bits by the rules of its chapter, then W1C bits clear (00 R16). -/
theorem writeStore_primary {pre : State} {q : Nat} {rw keep w1c : Word} (hreg : regAt a = some r) (hst : isStaged a = false)
    (hprim : a % 0x200 < 0x100) (hquota : ¬(0x230 ≤ a ∧ a < 0x234)) (hcvu : ¬(0x2200 ≤ a ∧ a < 0x2240))
    (hrw : accMask r (fun f => f.acc == .rw && (!f.lk || (q == 0 && !locked pre))) = rw)
    (hkeep : accMask r (fun f => f.acc == .ro || f.acc == .st || (f.lk && !(q == 0 && !locked pre))) = keep)
    (hw1c : accMask r (fun f => f.acc == .w1c) = w1c) {held : Word} (hheld : wordValue pre q a = held) :
    writeStore pre s q a v =
      let y := if rw = 0 then (held, false) else fixWord s a held (blend held v rw)
      (clearBits (storeRw s q a rw y.1) a (v &&& w1c), ((v ^^^ held) &&& keep != 0) || y.2) := by
  have hno : cvuHeld pre a = false := by simp [cvuHeld, hcvu]
  have hrep : cvuRepaired s a = s := by rw [cvuRepaired, if_neg (fun h => hcvu ⟨h.1, h.2.1⟩)]
  simp only [writeStore, hreg, hst, Bool.false_eq_true, if_false, if_pos hprim, writePrimary, hrw, hkeep, hw1c, hno, hrep, hheld,
    if_neg hquota]

/-- A word that is none of the interrupt controllers' nor of the NFC windows is held in its domain's registers, and passes its
parity (00 R16, 01 R40). -/
theorem storeRw_stored {q : Nat} {m new : Word} (hm : m ≠ 0) (hirq : ¬(0x800 ≤ a ∧ a < 0x900)) (hsub : ¬(0x1858 ≤ a ∧ a < 0x1860))
    (hslot : a ≠ 0x1864) (hqsel : a ≠ 0x1866) :
    storeRw s q a m new = setStored (passes s fun k => k == a) a (blend (stored s a) new m) := by
  simp only [storeRw, if_neg hm, if_neg hirq, if_neg hsub, if_neg hslot, if_neg hqsel]
  rfl

/-- Bits that a write has put in place stay when it is written again. -/
theorem blend_blend (old v m : Word) : blend old (blend old v m) m = blend old v m := by
  ext i hi
  simp only [blend, BitVec.getElem_or, BitVec.getElem_and, BitVec.getElem_not]
  cases m[i] <;> simp

theorem blend_self (old m : Word) : blend old old m = old := by
  ext i hi
  simp only [blend, BitVec.getElem_or, BitVec.getElem_and, BitVec.getElem_not]
  cases m[i] <;> simp

end Sys2Proof.Machine
end

section
/-! PROOFS. Chapter 05: the thresholds of the supervisor, and the clear of the supply counters (05 R130, Table 5-10). -/

set_option Elab.async false

namespace Sys2Proof.Machine

variable {s x : State} {p : Part} {v w : Word} {a : Nat}

/-- A word of the always-on domain is held, and passes its parity (05 Table 5-8, 01 R40). -/
def heldA (a : Nat) (w : Word) (s : State) : State := setA (passes s fun k => k == a) a w

theorem goes_heldA (a : Nat) (w : Word) (s : State) : Goes [.aon, .parity] s (heldA a w s) :=
  ((Goes.refl _ s).passes (by simp)).setA (by simp)

/-- Every core word but the one written is used as it was. -/
theorem used_passes_ne {k : Nat} (h : k ≠ a) (s : State) : used (passes s fun k => k == a) k = used s k :=
  used_congr rfl (by simp [passes, modC, h])

theorem quiet_heldA (h : Quiet s) (h0 : a ≠ 0x2400) (h1 : a ≠ 0x2401) : Quiet (heldA a w s) :=
  (goes_heldA a w s).quiet h (by simp) (used_passes_ne (Ne.symm h0) s) (used_passes_ne (Ne.symm h1) s) h.devrst

/-- A port listens whatever an always-on word holds. -/
theorem Listens.heldA (h : Listens s p) : Listens (heldA a w s) p := ⟨h.up, h.notInReset, h.noDeviceReset, h.fourPorts⟩

/-- The words of PWR_THRESH that R130 allows, by its fields. -/
def threshOk (v : Word) : Bool :=
  decide (20 ≤ fld v 0 8 ∧ fld v 0 8 ≤ 60 ∧ 50 ≤ fld v 8 8 ∧ fld v 8 8 ≤ 80 ∧ 30 ≤ fld v 16 8 ∧ fld v 16 8 ≤ 80 ∧ 1 ≤ fld v 24 8 ∧
    fld v 24 8 ≤ 100 ∧ fld v 0 8 + 10 ≤ fld v 8 8 ∧ fld v 0 8 + 10 ≤ fld v 16 8)

theorem regAt_thresh : regAt 0xA02 = some { reset := 0x05373C28, fs := [fLk allBits] } := rfl

theorem specialDenied_thresh (q : Nat) : specialDenied x q 0xA02 v = false :=
  specialDenied_of_not (by decide) (by decide) (by decide) (by decide)

/-- A write of PWR_THRESH by P0, without the lock: the word whole, or the old one with MASKED (05 R130). -/
theorem writeRegs_thresh (hlock : locked x = false) :
    writeRegs x 0 [(0xA02, v)] = (heldA 0xA02 (if threshOk v then v else ard x 0xA02) x, if threshOk v then 0x00 else 0x01) := by
  have hrw : accMask { reset := 0x05373C28, fs := [fLk allBits] } (fun f => f.acc == .rw && (!f.lk || ((0 : Nat) == 0 && !locked x))) = allBits := by
    rw [hlock]
    decide
  have hkeep : accMask { reset := 0x05373C28, fs := [fLk allBits] }
      (fun f => f.acc == .ro || f.acc == .st || (f.lk && !((0 : Nat) == 0 && !locked x))) = 0 := by
    rw [hlock]
    decide
  have hfix : fixWord x 0xA02 (ard x 0xA02) v = if threshOk v then (v, false) else (ard x 0xA02, true) := by
    show (if (!threshOk v) = true then (ard x 0xA02, true) else (v, false)) = _
    cases threshOk v <;> rfl
  have hne : allBits ≠ 0 := by decide
  have hzero : (v ^^^ ard x 0xA02) &&& (0 : Word) = 0 := BitVec.and_zero
  have hstore : writeStore x x 0 0xA02 v = (heldA 0xA02 (if threshOk v then v else ard x 0xA02) x, !threshOk v) := by
    rw [writeStore_primary regAt_thresh rfl (by decide) (by decide) (by decide) hrw hkeep rfl (held := ard x 0xA02) rfl]
    simp only [if_neg hne, blend_allBits, hfix, hzero]
    have hstored : ∀ w, storeRw x 0 0xA02 allBits w = heldA 0xA02 w x := fun w => by
      rw [storeRw_stored hne (by decide) (by decide) (by decide) (by decide), blend_allBits]
      rfl
    have hclear : ∀ y : State, clearBits y 0xA02 (v &&& accMask { reset := 0x05373C28, fs := [fLk allBits] } fun f => f.acc == .w1c) = y :=
      fun y => if_pos BitVec.and_zero
    cases threshOk v <;> simp only [hstored, hclear] <;> rfl
  have hden : wordDenied x (0 : Part).val 0xA02 v = false :=
    wordDenied_of_ownsAll regAt_thresh (by simp [fLk, writerOf]) (specialDenied_thresh 0)
  rw [writeRegs_one hden (by decide) (by decide) hstore rfl (Nat.le_succ _), nfcGoesOn_of_not rfl]
  cases threshOk v <;> rfl

/-- Another partition's write is refused (04 R102). -/
theorem wordDenied_thresh (hp : p ≠ 0) : wordDenied x p.val 0xA02 v = true :=
  wordDenied_of_noField regAt_thresh (by simp) (by simpa [fLk, writerOf] using fun h => hp (Fin.ext h.symm)) (by decide)

/-- The lock is the same where a port alone has changed. -/
theorem PortOnly.locked (h : PortOnly p s x) : Machine.locked x = Machine.locked s := h.same Machine.locked

/-- A written PWR_THRESH of O34. -/
theorem pwrThresh_written (hl : Listens s p) (hs : Settled s) (seq : Byte) (v : Word) (hwf : swf regReset s.aon.regs = true)
    (hlock : locked s = false) :
    ∃ t, exec (.pwrThreshWrite p seq v) s = .next t ∧
      (p = 0 → threshOk v = true → ard t 0xA02 = v ∧ (portOf t p).lastStatus = 0x00) ∧
      (p = 0 → ¬threshOk v = true → ard t 0xA02 = ard s 0xA02 ∧ (portOf t p).lastStatus = 0x01) ∧
      (p ≠ 0 → ard t 0xA02 = ard s 0xA02 ∧ (portOf t p).lastStatus = 0x20) ∧
      (p = 0 → t.core.parity = s.core.parity.filter (fun a => a != 0xA02)) ∧
      (∀ a, a ≠ 0xA02 → ard t a = ard s a) ∧ KeepsPort p [.aon, .parity, .irqPend] s t := by
  have hopen := PortOnly.frameOpen p s seq 1
  have hlo := hopen.listens hl
  by_cases hp : p = 0
  · subst hp
    have haon : (frameOpen s 0 seq 1).aon = s.aon := hopen.same State.aon
    have hold : ard (frameOpen s 0 seq 1) 0xA02 = ard s 0xA02 := hopen.same fun y => ard y 0xA02
    have hexec : exec (.pwrThreshWrite 0 seq v) s = .next (framed s 0 seq 0xA02 1 (if threshOk v then 0x00 else 0x01)
        (heldA 0xA02 (if threshOk v then v else ard s 0xA02))) :=
      instant_framed hl seq (by rw [writeRegs_thresh (hopen.locked.trans hlock), hold])
    have hframe := goes_framed (a := 0xA02) (code := if threshOk v then 0x00 else 0x01)
      (f := heldA 0xA02 (if threshOk v then v else ard s 0xA02)) hlo.heldA
    have hregs : (framed s 0 seq 0xA02 1 (if threshOk v then 0x00 else 0x01)
        (heldA 0xA02 (if threshOk v then v else ard s 0xA02))).aon.regs =
        sset regReset s.aon.regs 0xA02 (if threshOk v then v else ard s 0xA02) := by
      rw [hframe.same .aon (by decide), ← haon]
      rfl
    have hword : ard (framed s 0 seq 0xA02 1 (if threshOk v then 0x00 else 0x01)
        (heldA 0xA02 (if threshOk v then v else ard s 0xA02))) 0xA02 = if threshOk v then v else ard s 0xA02 := by
      rw [ard, hregs, sget_sset _ _ _ _ hwf]
    have hstatus := lastStatus_framed (a := 0xA02) (code := if threshOk v then 0x00 else 0x01)
      (f := heldA 0xA02 (if threshOk v then v else ard s 0xA02)) hlo.heldA
    refine ⟨_, hexec, fun _ h => ?_, fun _ h => ?_, fun h => absurd rfl h, fun _ => ?_, fun a ha => ?_, ?_⟩
    · rw [hword, hstatus, if_pos h, if_pos h]
      exact ⟨rfl, rfl⟩
    · rw [hword, hstatus, if_neg h, if_neg h]
      exact ⟨rfl, rfl⟩
    · rw [hframe.same .parity (by decide), ← hopen.same fun y => y.core.parity]
      rfl
    · rw [ard, hregs, sget_sset_ne _ _ _ _ _ ha]
      rfl
    · exact keepsPort_framed hs hlo.heldA (goes_heldA ..) (quiet_heldA (hopen.quiet hs.quiet) (by decide) (by decide)) rfl rfl
        (by decide) (.inr (by decide))
  · obtain ⟨hst, hkeeps, hother, -⟩ := deniedAt_onlyPort (a := 0xA02) (n := 1) (seq := seq) hl hs
    have haon : (deniedAt s p seq 0xA02 1).aon = s.aon := (hkeeps .aon).resolve_left (by decide)
    refine ⟨_, instant_denied hl seq (wordDenied_thresh hp), fun h => absurd h hp, fun h => absurd h hp, fun _ => ⟨?_, hst⟩,
      fun h => absurd h hp, fun a _ => ?_, hkeeps.mono (by decide), hother⟩
    · rw [ard, haon]
      rfl
    · rw [ard, haon]
      rfl

theorem regAt_pwrCntclr : regAt 0xA15 = some { fs := [fWo 1] } := rfl

/-- The clear of O34. -/
theorem pwrCntclr_written (hl : Listens s p) (hs : Settled s) (seq : Byte) (v : Word) :
    ∃ t, exec (.pwrCntclr p seq v) s = .next t ∧
      (p = 0 → bit v 0 = true → t.aon = { s.aon with switchovers := 0, warnings := 0, refusals := 0, vddcFaults := 0 } ∧
        (portOf t p).lastStatus = 0x00) ∧
      (p ≠ 0 → t.aon = s.aon ∧ (portOf t p).lastStatus = 0x20 ∧ OnlyPort p s t) := by
  have hopen := PortOnly.frameOpen p s seq 1
  have hlo := hopen.listens hl
  by_cases hp : p = 0
  · subst hp
    have hden : wordDenied (frameOpen s 0 seq 1) (0 : Part).val 0xA15 v = false :=
      wordDenied_of_ownsAll regAt_pwrCntclr (by simp [fWo, writerOf]) (specialDenied_of_not (by decide) (by decide) (by decide) (by decide))
    have hw : writeRegs (frameOpen s 0 seq 1) 0 [(0xA15, v)] =
        ((fun x => if bit v 0 then pwrCntclrOp x else x) (frameOpen s 0 seq 1), 0x00) := by
      rw [writeRegs_wo regAt_pwrCntclr hden rfl (by decide) (by simp [fWo]) (by decide) (by decide)
        (y := (if bit v 0 then pwrCntclrOp (frameOpen s 0 seq 1) else frameOpen s 0 seq 1, false)) rfl (by split <;> exact Nat.le_succ _),
        nfcGoesOn_of_not rfl]
      rfl
    refine ⟨_, instant_framed hl seq hw, fun _ hv => ?_, fun h => absurd rfl h⟩
    have hlisten : Listens ((fun x => if bit v 0 then pwrCntclrOp x else x) (frameOpen s 0 seq 1)) 0 := by
      dsimp only
      rw [if_pos hv]
      exact ⟨hlo.up, hlo.notInReset, hlo.noDeviceReset, hlo.fourPorts⟩
    refine ⟨?_, lastStatus_framed hlisten⟩
    rw [(goes_framed hlisten).same .aon (by decide)]
    simp only [if_pos hv]
    show Aon.mk .. = Aon.mk ..
    rw [show (frameOpen s 0 seq 1).aon = s.aon from hopen.same State.aon]
  · obtain ⟨hst, honly⟩ := deniedAt_onlyPort (a := 0xA15) (n := 1) (seq := seq) hl hs
    have hden : wordDenied (frameOpen s p seq 1) p.val 0xA15 v = true :=
      wordDenied_of_noField regAt_pwrCntclr (by simp) (by simpa [fWo, writerOf] using fun h => hp (Fin.ext h.symm)) (by decide)
    exact ⟨_, instant_denied hl seq hden, fun h => absurd h hp, fun _ => ⟨(honly.1 .aon).resolve_left (by decide), hst, honly⟩⟩

/-- Settles O34: P0's word is judged whole, another partition's is refused. -/
theorem supervisorThresholdsAreCheckedWhole : Obligations.SupervisorThresholdsAreCheckedWhole := by
  unfold Obligations.SupervisorThresholdsAreCheckedWhole
  intro s p seq v hl hs hwf hlock ok
  have hok : threshOk v = true ↔ ok := decide_eq_true_iff
  refine ⟨?_, pwrCntclr_written hl hs seq v⟩
  obtain ⟨t, ht, h1, h2, hrest⟩ := pwrThresh_written hl hs seq v hwf hlock
  exact ⟨t, ht, fun hp h => h1 hp (hok.mpr h), fun hp h => h2 hp (hok.not.mpr h), hrest⟩

end Sys2Proof.Machine
end

section
/-! PROOFS. The counter clears of the blocks (06 R186, 07, 08, 09, 10, 11, 12, 15, their tables of registers). -/

set_option Elab.async false

namespace Sys2Proof.Machine

variable {s x : State} {p : Part} {v : Word} {a : Nat} {r : RegSpec} {seq : Byte}

/-- A primary address whose write is judged and stored by the access codes of its fields alone. -/
def ordinaryAddr (a : Nat) : Prop :=
  a % 0x200 < 0x100 ∧ ¬(0x230 ≤ a ∧ a < 0x234) ∧ ¬(0x2200 ≤ a ∧ a < 0x2240) ∧ a ≠ 0x50 ∧ a ≠ 0x274 ∧ a ≠ 0xC80 ∧
    ¬(0x400 ≤ a ∧ a < 0x440 ∧ a % 16 = 6)

theorem isStaged_of_primary (h : a % 0x200 < 0x100) : isStaged a = false := decide_eq_false (by omega)

/-- The only writer of a register's fields is refused nothing. -/
theorem wordDenied_ordinary {q : Nat} (hreg : regAt a = some r) (ha : ordinaryAddr a) (hown : ∀ f ∈ r.fs, writerOf s q f.own = q) :
    wordDenied s q a v = false := by
  obtain ⟨-, -, -, h1, h2, h3, h4⟩ := ha
  exact wordDenied_of_ownsAll hreg hown (specialDenied_of_not h1 h2 h3 h4)

/-- A frame of one word of WO fields, all of them the writer's, does what the write asks for, with outcome OK. -/
theorem instant_wo {f : State → State} (hl : Listens s p) (hreg : regAt a = some r) (ha : ordinaryAddr a)
    (hwo : ∀ g ∈ r.fs, g.acc = .wo ∧ g.lk = false) (hown : ∀ g ∈ r.fs, writerOf (frameOpen s p seq 1) p.val g.own = p.val)
    (hact : ∀ x, writeAct x x p a v = (f x, false))
    (hreqs : ∀ x, (f x).core.seq.reqs.length ≤ x.core.seq.reqs.length + 1) :
    instant (whenCore fun s => writeFrame s p seq a [v]) s =
      .next (framed s p seq a 1 0x00 fun x => nfcGoesOn a v (f x)) := by
  have hden : wordDenied (frameOpen s p seq 1) p.val a v = false := wordDenied_ordinary hreg ha hown
  obtain ⟨hprim, hquota, hcvu, -⟩ := ha
  have hw : writeRegs (frameOpen s p seq 1) p [(a, v)] = (nfcGoesOn a v (f (frameOpen s p seq 1)), 0x00) := by
    rw [writeRegs_wo hreg hden (isStaged_of_primary hprim) hprim hwo hquota hcvu (hact _) (hreqs _)]
    rfl
  exact instant_framed (f := fun x => nfcGoesOn a v (f x)) hl seq hw

/-- A frame of one word of the steward's fields from another partition is refused (04 R102, R105). -/
theorem instant_steward_denied (hl : Listens s p) (hp : p ≠ 0) (hreg : regAt a = some r) (hne : r.fs ≠ [])
    (hown : ∀ g ∈ r.fs, g.own = .steward) (hone : severalRes r = false) :
    instant (whenCore fun s => writeFrame s p seq a [v]) s = .next (deniedAt s p seq a 1) :=
  instant_denied hl seq (wordDenied_of_noField hreg hne
    (fun g hg => by rw [hown g hg]; exact fun h => hp (Fin.ext h.symm)) hone)

/-- A counter clear: P0's, which sets the counters to 0 where CLEAR is 1. -/
theorem counterClear (hl : Listens s p) (hreg : regAt a = some { fs := [fWo 1] }) (ha : ordinaryAddr a) (hnfc : touchesNfc [(a, v)] = false)
    {g : CoreSt → CoreSt} (hact : ∀ x, writeAct x x 0 a v = (if bit v 0 then { x with core := g x.core } else x, false))
    (hreqs : ∀ c, (g c).seq.reqs = c.seq.reqs) :
    (p ≠ 0 → instant (whenCore fun s => writeFrame s p seq a [v]) s = .next (deniedAt s p seq a 1)) ∧
    (p = 0 → instant (whenCore fun s => writeFrame s p seq a [v]) s =
      .next (framed s p seq a 1 0x00 fun x => if bit v 0 then { x with core := g x.core } else x)) := by
  refine ⟨fun hp => instant_steward_denied hl hp hreg (by simp) (by simp [fWo]) (by decide), fun hp => ?_⟩
  subst hp
  rw [instant_wo (f := fun x => if bit v 0 then { x with core := g x.core } else x) hl hreg ha (by simp [fWo]) (by simp [fWo, writerOf])
    hact fun x => ?_]
  · simp only [nfcGoesOn_of_not hnfc]
  · split
    · exact (congrArg List.length (hreqs x.core)).trans_le (Nat.le_succ _)
    · exact Nat.le_succ _

/-- The clear of the NAND counters and of the namespace warnings (12, Registers). -/
theorem nandClear (hl : Listens s p) :
    (p ≠ 0 → instant (whenCore fun s => writeFrame s p seq 0x1804 [v]) s = .next (deniedAt s p seq 0x1804 1)) ∧
    (p = 0 → instant (whenCore fun s => writeFrame s p seq 0x1804 [v]) s =
      .next (framed s p seq 0x1804 1 0x00 (fun x => nfcAfter (modN x (fun n => { n with
        counts := if bit v 0 then [0, 0, 0, 0] else n.counts
        chans := if bit v 0 then n.chans.map (fun k => { k with faults := 0, fallbacks := 0, resets := 0, timeouts := 0 }) else n.chans
        nsWarn := if bit v 1 then List.replicate 16 0 else n.nsWarn }))))) := by
  have hreg : regAt 0x1804 = some { fs := [fWo 3] } := rfl
  refine ⟨fun hp => instant_steward_denied hl hp hreg (by simp) (by simp [fWo]) (by decide), fun hp => ?_⟩
  subst hp
  have hact : ∀ x : State, writeAct x x 0 0x1804 v = (modN x (fun n => { n with
        counts := if bit v 0 then [0, 0, 0, 0] else n.counts
        chans := if bit v 0 then n.chans.map (fun k => { k with faults := 0, fallbacks := 0, resets := 0, timeouts := 0 }) else n.chans
        nsWarn := if bit v 1 then List.replicate 16 0 else n.nsWarn }), false) := fun x => by
    show (if bit v 1 then nfcWarnclrOp (if bit v 0 then nfcCntclrOp x else x) else if bit v 0 then nfcCntclrOp x else x, false) = _
    cases bit v 0 <;> cases bit v 1 <;> rfl
  rw [instant_wo hl hreg ⟨by decide, by decide, by decide, by decide, by decide, by decide, by decide⟩ (by simp [fWo])
    (by simp [fWo, writerOf]) hact fun x => Nat.le_succ _]
  simp only [nfcGoesOn_of (show touchesNfc [(0x1804, v)] = true from rfl)]

/-- Settles O53: each of the nine registers is a counter clear. -/
theorem counterClearsAreTheStewards : Obligations.CounterClearsAreTheStewards := by
  unfold Obligations.CounterClearsAreTheStewards
  intro s p seq v hl cleared
  refine ⟨fun e he => ?_, fun c hc => ?_⟩
  · have haddr : ∀ a ∈ [0xC85, 0xE05, 0x10A3, 0x1203, 0x142E, 0x1458, 0x1604, 0x2409], ordinaryAddr a := by
      unfold ordinaryAddr
      decide
    simp only [cleared, List.mem_cons, List.not_mem_nil, or_false] at he
    rcases he with rfl | rfl | rfl | rfl | rfl | rfl | rfl | rfl <;>
      exact counterClear hl rfl (haddr _ (by decide)) rfl (fun _ => rfl) (fun _ => rfl)
  · simp only [List.mem_cons, List.not_mem_nil, or_false] at hc
    rcases hc with rfl | rfl
    · exact nandClear hl
    · exact nandClear hl

end Sys2Proof.Machine
end

section
/-! PROOFS. Chapter 06: a rail or group request waits for the next sequencer step, or is refused (06 R167, R168). -/

set_option Elab.async false

namespace Sys2Proof.Machine

variable {s x : State} {p : Part} {v : Word} {seq : Byte}

/-- Two words meet in no bit. -/
theorem and_eq_zero_iff (v m : Word) : v &&& m = 0 ↔ ∀ i < 32, bit m i = true → bit v i = false := by
  constructor
  · intro h i hi hm
    have hbit : (v &&& m).getLsbD i = false := by
      rw [h]
      exact BitVec.getLsbD_zero
    rw [BitVec.getLsbD_and, ← bit_eq, ← bit_eq, hm, Bool.and_true] at hbit
    exact hbit
  · refine fun h => BitVec.eq_of_getLsbD_eq fun i hi => ?_
    rw [BitVec.getLsbD_and, ← bit_eq, ← bit_eq]
    cases hm : bit m i with
    | false => simp
    | true => simp [h i hi hm]

/-- The fields of SEQ_REQUEST: for each rail an ON and an OFF bit of its owner (06 Table 6-7). -/
def railFields : List FieldS := perRail (fun m r => fWo m (.owner r) (some r)) [0, 16]

theorem regAt_railRequest : regAt 0xC80 = some { fs := railFields } := rfl

/-- The bits of rail r in SEQ_REQUEST. -/
theorem bit_railMask {r i : Nat} (hr : r < 10) (hi : i < 32) : bit (bitsM [(r, 1), (16 + r, 1)]) i = (decide (i = r) || decide (i = 16 + r)) := by
  have hall : ∀ r : Fin 10, ∀ i : Fin 32, bit (bitsM [(r.val, 1), (16 + r.val, 1)]) i.val = (decide (i.val = r.val) || decide (i.val = 16 + r.val)) := by
    decide +kernel
  exact hall ⟨r, hr⟩ ⟨i, hi⟩

/-- A write of SEQ_REQUEST names rail r where one of its bits is 1. -/
theorem railMask_and {r : Nat} (hr : r < 10) (v : Word) :
    (v &&& bitsM [(r, 1), (16 + r, 1)] != 0) = (bit v r || bit v (16 + r)) := by
  rw [Bool.eq_iff_iff, bne_iff_ne, ne_eq, and_eq_zero_iff, Bool.or_eq_true]
  constructor
  · intro h
    by_contra hno
    simp only [not_or, Bool.not_eq_true] at hno
    refine h fun i hi hm => ?_
    rw [bit_railMask hr hi] at hm
    simp only [Bool.or_eq_true, decide_eq_true_eq] at hm
    rcases hm with rfl | rfl
    · exact hno.1
    · exact hno.2
  · intro h hno
    have h1 := hno r (by omega) (by rw [bit_railMask hr (by omega)]; simp)
    have h2 := hno (16 + r) (by omega) (by rw [bit_railMask hr (by omega)]; simp)
    simp [h1, h2] at h

/-- A request is refused where it names a rail of another partition, or where an OFF would take one down (06 R168, 04 R105). -/
theorem wordDenied_railRequest (p : Part) (v : Word) : wordDenied x p.val 0xC80 v =
    ((upto 10).any (fun r => ownerN x (.rail r) != p.val && (bit v r || bit v (16 + r))) ||
      offDenied x p.val (BitVec.ofNat 10 (fld v 16 10))) := by
  have hspecial : specialDenied x p.val 0xC80 v = offDenied x p.val (BitVec.ofNat 10 (fld v 16 10)) := rfl
  have hseveral : severalRes { fs := railFields } = true := by decide
  have hany : railFields.any (fun f => writerOf x p.val f.own != p.val && fieldMoves x (isStaged 0xC80) f (wordValue x p.val 0xC80) v) =
      (upto 10).any (fun r => ownerN x (.rail r) != p.val && (bit v r || bit v (16 + r))) := by
    rw [railFields, perRail, List.any_map, Bool.eq_iff_iff, List.any_eq_true, List.any_eq_true]
    refine exists_congr fun r => and_congr_right fun hr => ?_
    rw [← railMask_and (List.mem_range.mp hr)]
    simp only [Function.comp, List.map_cons, List.map_nil, Nat.zero_add]
    rfl
  simp only [wordDenied, regAt_railRequest, hseveral, hspecial, hany, Bool.not_true, Bool.and_false, Bool.false_or]

/-- What a request waits as (06 R167). -/
def railPush (on off : BitVec 10) (x : State) : State :=
  if on = 0 ∧ off = 0 then x else { x with core := { x.core with seq := { x.core.seq with reqs := x.core.seq.reqs ++ [(on, off)] } } }

theorem railRequestPush_eq (on off : BitVec 10) (x : State) : railRequestPush x on off = railPush on off x := rfl

theorem railPush_reqs (on off : BitVec 10) (x : State) : (railPush on off x).core.seq.reqs.length ≤ x.core.seq.reqs.length + 1 := by
  unfold railPush
  split
  · exact Nat.le_succ _
  · simp

/-- A frame of SEQ_REQUEST that is not refused queues its rails, with outcome OK. -/
theorem instant_railRequest (hl : Listens s p) (hden : wordDenied (frameOpen s p seq 1) p.val 0xC80 v = false) :
    instant (whenCore fun s => writeFrame s p seq 0xC80 [v]) s =
      .next (framed s p seq 0xC80 1 0x00 (railPush (BitVec.ofNat 10 (fld v 0 10)) (BitVec.ofNat 10 (fld v 16 10)))) := by
  have hwo : ∀ f ∈ railFields, f.acc = .wo ∧ f.lk = false := by decide
  refine instant_framed hl seq ?_
  rw [writeRegs_wo regAt_railRequest hden rfl (by decide) hwo (by decide) (by decide)
    (y := (railPush (BitVec.ofNat 10 (fld v 0 10)) (BitVec.ofNat 10 (fld v 16 10)) (frameOpen s p seq 1), false)) rfl
    (railPush_reqs ..), nfcGoesOn_of_not rfl]
  rfl

/-- A frame of SEQ_GROUP_REQ of P0 queues the rails of its groups. -/
theorem instant_groupRequest (hl : Listens s 0) :
    instant (whenCore fun s => writeFrame s 0 seq 0xC81 [v]) s =
      .next (framed s 0 seq 0xC81 1 0x00 (railPush (groupsRails s (BitVec.ofNat 4 (fld v 0 4))) (groupsRails s (BitVec.ofNat 4 (fld v 8 4))))) := by
  have hreg : regAt 0xC81 = some { fs := [fWo (bitsM [(0, 4), (8, 4)])] } := rfl
  have hden : wordDenied (frameOpen s 0 seq 1) (0 : Part).val 0xC81 v = false :=
    wordDenied_of_ownsAll hreg (by simp [fWo, writerOf]) (specialDenied_of_not (by decide) (by decide) (by decide) (by decide))
  have hgroups : ∀ g, groupsRails (frameOpen s 0 seq 1) g = groupsRails s g := fun g =>
    (PortOnly.frameOpen 0 s seq 1).same fun y => groupsRails y g
  refine instant_framed hl seq ?_
  rw [writeRegs_wo hreg hden rfl (by decide) (by simp [fWo]) (by decide) (by decide)
    (y := (railPush (groupsRails (frameOpen s 0 seq 1) (BitVec.ofNat 4 (fld v 0 4)))
      (groupsRails (frameOpen s 0 seq 1) (BitVec.ofNat 4 (fld v 8 4))) (frameOpen s 0 seq 1), false)) rfl
    (railPush_reqs ..), nfcGoesOn_of_not rfl, hgroups, hgroups]
  rfl

/-- A number of as many bits as its field, taken back from a word. -/
theorem ofNat_fld_mkW {n lo : Nat} (b : BitVec n) (hn : lo + n ≤ 32) : BitVec.ofNat n (fld (mkW [(lo, n, b.toNat)]) lo n) = b := by
  rw [fld_mkW hn (List.mem_singleton.mpr rfl) (by simp), Nat.mod_eq_of_lt b.isLt, BitVec.ofNat_toNat, BitVec.setWidth_eq]

/-- A field that a word does not name is 0. -/
theorem fld_mkW_other {lo n lo' n' v : Nat} (h : lo' + n' ≤ lo ∨ lo + n ≤ lo') (hn : lo + n ≤ 32) : fld (mkW [(lo', n', v)]) lo n = 0 := by
  refine Nat.eq_of_testBit_eq fun i => ?_
  rw [testBit_fld, Nat.zero_testBit]
  by_cases hi : i < n
  · rw [bit_mkW _ (by omega)]
    have hout : ¬(lo' ≤ lo + i ∧ lo + i - lo' < n') := by omega
    simp only [List.any_cons, List.any_nil, Bool.or_false, decide_eq_true hi, Bool.true_and]
    by_cases hlo : lo' ≤ lo + i
    · simp [show ¬(lo + i - lo' < n') from fun h => hout ⟨hlo, h⟩]
    · simp [hlo]
  · simp [hi]

/-- A bit of a word of one field. -/
theorem bit_mkW_field {n lo i : Nat} (b : BitVec n) (hi : i < 32) :
    bit (mkW [(lo, n, b.toNat)]) i = (decide (lo ≤ i) && (decide (i - lo < n) && bit b (i - lo))) := by
  rw [bit_mkW _ hi]
  simp [bit]

/-- No rail is in the closure of none (06 R166). -/
theorem closureOf_zero (s : State) : closureOf s 0 = 0 := by
  have hstep : closureStep s 0 = 0 := by
    refine BitVec.eq_of_getLsbD_eq fun i hi => ?_
    rw [← bit_eq, ← bit_eq, closureStep, bit_bvOf _ hi]
    simp [bit]
  show iter (closureStep s) 10 0 = 0
  simp only [iter, hstep]

/-- The rails named in a request, of another partition. -/
theorem foreignRail_iff (s : State) (p : Part) (rails : BitVec 10) (lo : Nat) (hlo : lo = 0 ∨ lo = 16) :
    (upto 10).any (fun r => ownerN s (.rail r) != p.val &&
      (bit (mkW [(lo, 10, rails.toNat)]) r || bit (mkW [(lo, 10, rails.toNat)]) (16 + r))) = true ↔
      ¬∀ r : Fin 10, bit rails r.val = true → ownerN s (.rail r.val) = p.val := by
  have hbit : ∀ r < 10, (bit (mkW [(lo, 10, rails.toNat)]) r || bit (mkW [(lo, 10, rails.toNat)]) (16 + r)) = bit rails r := by
    intro r hr
    rw [bit_mkW_field rails (by omega), bit_mkW_field rails (by omega)]
    rcases hlo with rfl | rfl
    · have h16 : ¬(16 + r < 10) := by omega
      simp [hr, h16]
    · have hle : ¬(16 ≤ r) := by omega
      simp [hr, hle]
  rw [List.any_eq_true]
  constructor
  · rintro ⟨r, hr, h⟩ hall
    have hr : r < 10 := List.mem_range.mp hr
    rw [hbit r hr] at h
    simp only [Bool.and_eq_true, bne_iff_ne] at h
    exact h.1 (hall ⟨r, hr⟩ h.2)
  · intro h
    obtain ⟨r, hr⟩ := not_forall.mp h
    rw [Classical.not_imp] at hr
    refine ⟨r.val, List.mem_range.mpr r.isLt, ?_⟩
    rw [hbit r.val r.isLt]
    simp [hr.1, hr.2]

/-- An OFF would take down a rail of another partition whose target is ON (06 R168). -/
theorem offDenied_iff (s : State) (p : Part) (rails : BitVec 10) : offDenied s p.val rails = true ↔
    ¬(p = 0 ∨ ∀ r : Fin 10, bit (closureOf s rails) r.val = true →
      ownerN s (.rail r.val) = p.val ∨ (nth s.core.seq.rails r.val {}).target = false) := by
  rw [offDenied, Bool.and_eq_true, not_or, bne_iff_ne, List.any_eq_true]
  refine and_congr (not_congr Fin.val_eq_zero_iff) ?_
  constructor
  · rintro ⟨r, hr, h⟩ hall
    obtain ⟨hr, hb⟩ := List.mem_filter.mp hr
    have hr : r < 10 := List.mem_range.mp hr
    simp only [Bool.and_eq_true, bne_iff_ne] at h
    rcases hall ⟨r, hr⟩ hb with h1 | h1
    · exact h.1 h1
    · exact absurd (h.2.symm.trans h1) (by decide)
  · intro h
    obtain ⟨r, hr⟩ := not_forall.mp h
    rw [Classical.not_imp, not_or] at hr
    refine ⟨r.val, List.mem_filter.mpr ⟨List.mem_range.mpr r.isLt, hr.1⟩, ?_⟩
    simp [hr.2.1, hr.2.2]

/-- Settles O35: a request is refused for a foreign rail in it or under it, and waits otherwise. -/
theorem railRequestsWaitForTheNextStep : Obligations.RailRequestsWaitForTheNextStep := by
  unfold Obligations.RailRequestsWaitForTheNextStep
  intro s p seq rails groups hl own frees push
  have hopen := PortOnly.frameOpen p s seq 1
  have hden : ∀ v, wordDenied (frameOpen s p seq 1) p.val 0xC80 v = wordDenied s p.val 0xC80 v := fun v => by
    rw [wordDenied_railRequest, wordDenied_railRequest]
    exact hopen.same fun x => (upto 10).any (fun r => ownerN x (.rail r) != p.val && (bit v r || bit v (16 + r))) ||
      offDenied x p.val (BitVec.ofNat 10 (fld v 16 10))
  have hon : wordDenied s p.val 0xC80 (mkW [(0, 10, rails.toNat)]) = true ↔ ¬own := by
    have hzero : BitVec.ofNat 10 (fld (mkW [(0, 10, rails.toNat)]) 16 10) = 0 := by rw [fld_mkW_other (by decide) (by decide)]; rfl
    have hoff : offDenied s p.val 0 = false := by
      have hnone : bitsOf (0 : BitVec 10) 10 = [] := by decide
      rw [offDenied, closureOf_zero, hnone, List.any_nil, Bool.and_false]
    rw [wordDenied_railRequest, hzero, hoff, Bool.or_false]
    exact foreignRail_iff s p rails 0 (.inl rfl)
  have hoff : wordDenied s p.val 0xC80 (mkW [(16, 10, rails.toNat)]) = true ↔ ¬own ∨ ¬frees := by
    rw [wordDenied_railRequest, ofNat_fld_mkW rails (by decide), Bool.or_eq_true, foreignRail_iff s p rails 16 (.inr rfl), offDenied_iff]
  refine ⟨fun h => ?_, fun h => ?_, fun h hf => ?_, fun h => ?_, fun hp => ?_, fun hp => ?_⟩
  · have hno : wordDenied s p.val 0xC80 (mkW [(0, 10, rails.toNat)]) = false := by
      rw [Bool.eq_false_iff, ne_eq, hon]
      exact not_not.mpr h
    refine (instant_railRequest hl ((hden _).trans hno)).trans ?_
    rw [ofNat_fld_mkW rails (by decide), fld_mkW_other (by decide) (by decide)]
    rfl
  · exact instant_denied hl seq ((hden _).trans (hon.mpr h))
  · have hno : wordDenied s p.val 0xC80 (mkW [(16, 10, rails.toNat)]) = false := by
      rw [Bool.eq_false_iff, ne_eq, hoff, not_or]
      exact ⟨not_not.mpr h, not_not.mpr hf⟩
    refine (instant_railRequest hl ((hden _).trans hno)).trans ?_
    rw [ofNat_fld_mkW rails (by decide), fld_mkW_other (by decide) (by decide)]
    rfl
  · exact instant_denied hl seq ((hden _).trans (hoff.mpr h))
  · subst hp
    have hnone : groupsRails s (BitVec.ofNat 4 0) = 0 := by
      refine BitVec.eq_of_getLsbD_eq fun i hi => ?_
      rw [← bit_eq, ← bit_eq, groupsRails, bit_bvOf _ hi]
      simp [bit]
    constructor
    · refine (instant_groupRequest hl).trans ?_
      rw [ofNat_fld_mkW groups (by decide), fld_mkW_other (by decide) (by decide), hnone]
      rfl
    · refine (instant_groupRequest hl).trans ?_
      rw [ofNat_fld_mkW groups (by decide), fld_mkW_other (by decide) (by decide), hnone]
      rfl
  · have hreg : regAt 0xC81 = some { fs := [fWo (bitsM [(0, 4), (8, 4)])] } := rfl
    have hdenied : ∀ v, instant (whenCore fun s => writeFrame s p seq 0xC81 [v]) s = .next (deniedAt s p seq 0xC81 1) := fun v =>
      instant_steward_denied hl hp hreg (by simp) (by simp [fWo]) (by decide)
    exact ⟨hdenied _, hdenied _⟩

end Sys2Proof.Machine
end

section
/-! SUPPORT. Bits and fields of words put together (02 R54), and the words of one field of P0 (00 R16). -/

set_option Elab.async false

namespace Sys2Proof.Machine

variable {s x : State} {p : Part} {v : Word} {seq : Byte} {a : Nat} {r : RegSpec}

/-- Words are equal where their bits are. -/
theorem word_ext {u w : Word} (h : ∀ i < 32, bit u i = bit w i) : u = w :=
  BitVec.eq_of_getLsbD_eq fun i hi => h i hi

theorem bit_and (u w : Word) (i : Nat) : bit (u &&& w) i = (bit u i && bit w i) := BitVec.getLsbD_and

theorem bit_or (u w : Word) (i : Nat) : bit (u ||| w) i = (bit u i || bit w i) := BitVec.getLsbD_or

theorem bit_not (u : Word) {i : Nat} (hi : i < 32) : bit (~~~u) i = !bit u i := by
  rw [bit_eq, BitVec.getLsbD_not, bit_eq]
  simp [hi]

/-- The bits of a mask. -/
theorem bit_maskW {lo n i : Nat} (hi : i < 32) : bit (maskW lo n) i = (decide (lo ≤ i) && decide (i < lo + n)) := by
  rw [bit, maskW, BitVec.toNat_ofNat, Nat.testBit_mod_two_pow, Nat.testBit_shiftLeft, Nat.testBit_two_pow_sub_one]
  by_cases hlo : lo ≤ i
  · have hlt : decide (i - lo < n) = decide (i < lo + n) := decide_eq_decide.mpr (by omega)
    simp [hi, hlo, hlt]
  · simp [hlo]

/-- A bit of a blend: the new one under the mask, the old one elsewhere (02 R54). -/
theorem bit_blend (old w m : Word) {i : Nat} (hi : i < 32) : bit (blend old w m) i = if bit m i then bit w i else bit old i := by
  rw [blend, bit_or, bit_and, bit_and, bit_not m hi]
  cases bit m i <;> simp

/-- A bit of a word with a field replaced. -/
theorem bit_putFld (u : Word) (lo n w : Nat) {i : Nat} (hi : i < 32) :
    bit (putFld u lo n w) i = if lo ≤ i ∧ i < lo + n then w.testBit (i - lo) else bit u i := by
  have hval : bit (BitVec.ofNat 32 ((w % 2 ^ n) <<< lo)) i = (decide (lo ≤ i) && (decide (i - lo < n) && w.testBit (i - lo))) := by
    rw [bit, BitVec.toNat_ofNat, Nat.testBit_mod_two_pow, Nat.testBit_shiftLeft, Nat.testBit_mod_two_pow]
    simp [hi]
  rw [putFld, bit_or, bit_and, bit_not _ hi, bit_maskW hi, hval]
  by_cases hlo : lo ≤ i
  · by_cases hlt : i < lo + n
    · have hsub : i - lo < n := by omega
      simp [hlo, hlt, hsub]
    · have hsub : ¬(i - lo < n) := by omega
      simp [hlt, hsub]
  · simp [hlo]

/-- A field is the bits of it. -/
theorem fld_congr {u w : Word} {lo n : Nat} (h : ∀ i, lo ≤ i → i < lo + n → bit u i = bit w i) : fld u lo n = fld w lo n := by
  refine Nat.eq_of_testBit_eq fun i => ?_
  rw [testBit_fld, testBit_fld]
  by_cases hi : i < n
  · rw [h (lo + i) (by omega) (by omega)]
  · simp [hi]

/-- A field that the mask covers is that of the new word. -/
theorem fld_blend {old w m : Word} {lo n : Nat} (hn : lo + n ≤ 32) (hm : ∀ i, lo ≤ i → i < lo + n → bit m i = true) :
    fld (blend old w m) lo n = fld w lo n :=
  fld_congr fun i h1 h2 => by rw [bit_blend _ _ _ (by omega), if_pos (hm i h1 h2)]

/-- The mask of the only field of a register, where it is chosen. -/
theorem accMask_one {w0 : Word} {f : FieldS} {t : FieldS → Bool} {m : Word} (hm : f.mask = m) (ht : t f = true) :
    accMask { reset := w0, fs := [f] } t = m := by
  have hzero : ∀ w : Word, 0 ||| w = w := fun w => BitVec.zero_or
  rw [accMask, List.filter_cons_of_pos ht, ← hm]
  exact hzero f.mask

/-- A mask of the only field of a register, where it is not chosen. -/
theorem accMask_none {w0 : Word} {f : FieldS} {t : FieldS → Bool} (ht : t f = false) : accMask { reset := w0, fs := [f] } t = 0 :=
  accMask_eq_zero fun g hg => by rw [List.mem_singleton.mp hg, ht]

/-- A register word of the core whose RW fields a frame of one word writes: stored as its chapter allows, with MASKED where it does
not, and then acted on (00 R16, 02 R60). -/
theorem writeRegs_rwAct {q : Part} {m : Word} {y : Word × Bool} {z : State} (hreg : regAt a = some r) (ha : ordinaryAddr a)
    (hden : wordDenied x q.val a v = false)
    (hrw : accMask r (fun f => f.acc == .rw && (!f.lk || (q.val == 0 && !locked x))) = m) (hm : m ≠ 0)
    (hkeep : accMask r (fun f => f.acc == .ro || f.acc == .st || (f.lk && !(q.val == 0 && !locked x))) = 0)
    (hw1c : accMask r (fun f => f.acc == .w1c) = 0) (hval : wordValue x q.val a = rd x a) (haon : isAon a = false)
    (hirq : ¬(0x800 ≤ a ∧ a < 0x900)) (hsub : ¬(0x1858 ≤ a ∧ a < 0x1860)) (hslot : a ≠ 0x1864) (hqsel : a ≠ 0x1866)
    (hfix : fixWord x a (rd x a) (blend (rd x a) v m) = y)
    (hact : writeAct x (putReg x a (blend (rd x a) y.1 m)) q a v = (z, false))
    (hreqs : z.core.seq.reqs.length ≤ x.core.seq.reqs.length + 1) :
    writeRegs x q [(a, v)] = (nfcGoesOn a v z, if y.2 = true then 0x01 else 0x00) := by
  obtain ⟨hprim, hquota, hcvu, -⟩ := ha
  have hstored : stored x a = rd x a := by rw [stored, haon]; rfl
  have hstore : writeStore x x q.val a v = (putReg x a (blend (rd x a) y.1 m), y.2) := by
    have hzero : ∀ w : Word, w &&& 0 = 0 := fun w => BitVec.and_zero
    have hput : storeRw x q.val a m y.1 = putReg x a (blend (rd x a) y.1 m) := by
      rw [storeRw_stored hm hirq hsub hslot hqsel, setStored, haon, hstored]
      rfl
    have hclear : ∀ z : State, clearBits z a 0 = z := fun z => if_pos rfl
    rw [writeStore_primary hreg (isStaged_of_primary hprim) hprim hquota hcvu hrw hkeep hw1c hval]
    simp only [if_neg hm, hfix, hput, hzero, hclear]
    rfl
  rw [writeRegs_one hden hquota hcvu hstore hact hreqs]
  simp

/-- The same where the word asks for nothing further. -/
theorem writeRegs_rw {q : Part} {m : Word} {y : Word × Bool} (hreg : regAt a = some r) (ha : ordinaryAddr a)
    (hden : wordDenied x q.val a v = false)
    (hrw : accMask r (fun f => f.acc == .rw && (!f.lk || (q.val == 0 && !locked x))) = m) (hm : m ≠ 0)
    (hkeep : accMask r (fun f => f.acc == .ro || f.acc == .st || (f.lk && !(q.val == 0 && !locked x))) = 0)
    (hw1c : accMask r (fun f => f.acc == .w1c) = 0) (hval : wordValue x q.val a = rd x a) (haon : isAon a = false)
    (hirq : ¬(0x800 ≤ a ∧ a < 0x900)) (hsub : ¬(0x1858 ≤ a ∧ a < 0x1860)) (hslot : a ≠ 0x1864) (hqsel : a ≠ 0x1866)
    (hfix : fixWord x a (rd x a) (blend (rd x a) v m) = y)
    (hact : ∀ z : State, writeAct x z q a v = (z, false)) :
    writeRegs x q [(a, v)] = (nfcGoesOn a v (putReg x a (blend (rd x a) y.1 m)), if y.2 = true then 0x01 else 0x00) :=
  writeRegs_rwAct hreg ha hden hrw hm hkeep hw1c hval haon hirq hsub hslot hqsel hfix (hact _) (Nat.le_succ _)

end Sys2Proof.Machine
end

section
/-! PROOFS. Chapter 04: the words of the steward, and each partition's coalescing word (04 R103, R110-R112, R119). -/

set_option Elab.async false

namespace Sys2Proof.Machine

variable {s x : State} {p : Part} {v : Word} {seq : Byte}

/-- P0 is refused nothing in the words of PART. -/
theorem wordDenied_part {a : Nat} {f : FieldS} {w0 : Word} (hreg : regAt a = some { reset := w0, fs := [f] }) (hf : f.own = .steward)
    (ha : ordinaryAddr a) : wordDenied x 0 a v = false :=
  wordDenied_ordinary hreg ha (by simp [hf, writerOf])

/-- The address of a share, limit, weight or lock is ordinary. -/
theorem ordinaryAddr_part {a : Nat} (ha : a ∈ [0x200, 0x240, 0x241, 0x242, 0x243, 0x250, 0x251]) : ordinaryAddr a := by
  have hall : ∀ a ∈ [0x200, 0x240, 0x241, 0x242, 0x243, 0x250, 0x251], ordinaryAddr a := by
    unfold ordinaryAddr
    decide
  exact hall a ha

/-- Another partition than P0 writes none of these words. -/
theorem instant_part_denied (hl : Listens s p) (hp : p ≠ 0) {a : Nat} {f : FieldS} {w0 : Word} (hreg : regAt a = some { reset := w0, fs := [f] })
    (hf : f.own = .steward) (hc : f.conc = none) :
    instant (whenCore fun s => writeFrame s p seq a [v]) s = .next (deniedAt s p seq a 1) :=
  instant_steward_denied hl hp hreg (by simp) (by simp [hf]) (by simp [severalRes, hc])

/-- The lock is taken (04 R103). -/
theorem writeRegs_lock_open (hlock : locked x = false) :
    writeRegs x 0 [(0x200, v)] = (nfcAfter (putReg x 0x200 (blend (rd x 0x200) v 1)), 0x00) := by
  have hrw : accMask { fs := [fLk 1] } (fun f => f.acc == .rw && (!f.lk || ((0 : Part).val == 0 && !locked x))) = 1 := by
    rw [hlock]
    decide
  have hkeep : accMask { fs := [fLk 1] } (fun f => f.acc == .ro || f.acc == .st || (f.lk && !((0 : Part).val == 0 && !locked x))) = 0 := by
    rw [hlock]
    decide
  have hnfc : ∀ z, nfcGoesOn 0x200 v z = nfcAfter z := fun z => nfcGoesOn_of rfl
  have hord : ordinaryAddr 0x200 := ordinaryAddr_part (by decide)
  have hden : wordDenied x (0 : Part).val 0x200 v = false := wordDenied_part (f := fLk 1) (w0 := 0) rfl rfl hord
  have hfix : fixWord x 0x200 (rd x 0x200) (blend (rd x 0x200) v 1) = (blend (rd x 0x200) v 1, false) := rfl
  have hw1c : accMask { fs := [fLk 1] } (fun f => f.acc == .w1c) = 0 := accMask_none rfl
  rw [writeRegs_rw rfl hord hden hrw (by decide) hkeep hw1c rfl rfl (by decide) (by decide) (by decide) (by decide) hfix
    (fun _ => rfl), blend_blend, hnfc]
  rfl

/-- The bit of the lock that a write would change. -/
theorem xor_and_one (u w : Word) : ((u ^^^ w) &&& 1 != 0) = (bit u 0 != bit w 0) := by
  rw [Bool.eq_iff_iff, bne_iff_ne, ne_eq, and_eq_zero_iff, bne_iff_ne]
  have hone : ∀ i < 32, bit (1 : Word) i = true → i = 0 := by decide
  have hxor : bit (u ^^^ w) 0 = (bit u 0 ^^ bit w 0) := BitVec.getLsbD_xor
  constructor
  · intro h e
    refine h fun i hi hb => ?_
    rw [hone i hi hb, hxor, e, Bool.xor_self]
  · intro h hno
    have := hno 0 (by decide) (by decide)
    rw [hxor] at this
    cases hu : bit u 0 <;> cases hw : bit w 0 <;> simp_all

/-- The lock, once set, stays (04 R103). -/
theorem writeRegs_lock_shut (hlock : locked x = true) :
    writeRegs x 0 [(0x200, v)] = (nfcAfter x, if bit v 0 = bit (rd x 0x200) 0 then 0x00 else 0x01) := by
  have hrw : accMask { fs := [fLk 1] } (fun f => f.acc == .rw && (!f.lk || ((0 : Nat) == 0 && !locked x))) = 0 := by
    rw [hlock]
    decide
  have hkeep : accMask { fs := [fLk 1] } (fun f => f.acc == .ro || f.acc == .st || (f.lk && !((0 : Nat) == 0 && !locked x))) = 1 := by
    rw [hlock]
    decide
  have hstore : writeStore x x 0 0x200 v = (x, bit v 0 != bit (rd x 0x200) 0) := by
    rw [writeStore_primary (r := { fs := [fLk 1] }) rfl rfl (by decide) (by decide) (by decide) hrw hkeep rfl (held := rd x 0x200) rfl]
    have hput : ∀ w, storeRw x 0 0x200 0 w = x := fun w => by simp only [storeRw, if_true]
    have hclear : ∀ z : State, clearBits z 0x200 (v &&& accMask { fs := [fLk 1] } fun f => f.acc == .w1c) = z := fun z =>
      if_pos BitVec.and_zero
    simp only [if_true, hput, hclear, xor_and_one, Bool.or_false]
  have hden : wordDenied x (0 : Part).val 0x200 v = false := wordDenied_part (f := fLk 1) (w0 := 0) rfl rfl (ordinaryAddr_part (by decide))
  rw [writeRegs_one hden (by decide) (by decide) hstore rfl (Nat.le_succ _), nfcGoesOn_of rfl]
  cases bit v 0 <;> cases bit (rd x 0x200) 0 <;> rfl

/-- The sum of the guaranteed slots, were q's share that of v (04 R110). -/
def shareSum (s : State) (q : Nat) (v : Word) : Nat :=
  fld v 0 11 + (((upto 4).filter (fun i => i != q)).map (fun i => uf s (0x240 + i) 0 11)).sum

/-- A word of PART with one RW field, of P0 (04 Table 4-9): stored as its description allows, and NAND work goes on. -/
theorem writeRegs_partRw {a : Nat} {w0 m : Word} {y : Word × Bool} (hreg : regAt a = some { reset := w0, fs := [fRw m] }) (ha : ordinaryAddr a)
    (hm : m ≠ 0) (hval : wordValue x 0 a = rd x a) (haon : isAon a = false) (hpart : a < 0x400) (hnfc : touchesNfc [(a, v)] = true)
    (hfix : fixWord x a (rd x a) (blend (rd x a) v m) = y) (hact : ∀ z : State, writeAct x z 0 a v = (z, false)) :
    writeRegs x 0 [(a, v)] = (nfcAfter (putReg x a (blend (rd x a) y.1 m)), if y.2 = true then 0x01 else 0x00) := by
  have hrw : accMask { reset := w0, fs := [fRw m] } (fun f => f.acc == .rw && (!f.lk || ((0 : Part).val == 0 && !locked x))) = m :=
    accMask_one rfl (by simp [fRw])
  have hkeep : accMask { reset := w0, fs := [fRw m] }
      (fun f => f.acc == .ro || f.acc == .st || (f.lk && !((0 : Part).val == 0 && !locked x))) = 0 := accMask_none (by simp [fRw])
  have hden : wordDenied x (0 : Part).val a v = false := wordDenied_part hreg rfl ha
  rw [writeRegs_rw hreg ha hden hrw hm hkeep (accMask_none rfl) hval haon
    (by omega) (by omega) (by omega) (by omega) hfix hact, nfcGoesOn_of hnfc]

/-- The guaranteed slots, added up with q's share as the write has it. -/
theorem shares_foldl (q : Part) (n : Nat) (f : Nat → Nat) :
    (upto 4).foldl (fun k i => k + (if 0x240 + i = 0x240 + q.val then n else f i)) 0 =
      n + (((upto 4).filter (fun i => i != q.val)).map f).sum := by
  fin_cases q <;> simp [upto, List.range_succ, List.filter] <;> omega

/-- A slot share, stored where the shares fit (04 R110). -/
theorem writeRegs_share (q : Part) :
    writeRegs x 0 [(0x240 + q.val, v)] =
      (nfcAfter (putReg x (0x240 + q.val) (if shareSum x q.val v ≤ 1024 then blend (rd x (0x240 + q.val)) v 0x07FF07FF else rd x (0x240 + q.val))),
        if shareSum x q.val v ≤ 1024 then 0x00 else 0x01) := by
  have hreg : regAt (0x240 + q.val) = some { reset := if q.val = 3 then 0x00400000 else 0x01000100, fs := [fRw 0x07FF07FF] } := by
    fin_cases q <;> rfl
  have hord : ordinaryAddr (0x240 + q.val) := ordinaryAddr_part (by fin_cases q <;> decide)
  have hfix : fixWord x (0x240 + q.val) (rd x (0x240 + q.val)) (blend (rd x (0x240 + q.val)) v 0x07FF07FF) =
      if decide (1024 < shareSum x q.val v) = true then (rd x (0x240 + q.val), true) else
        (blend (rd x (0x240 + q.val)) v 0x07FF07FF, false) := by
    have hlow : fld (blend (rd x (0x240 + q.val)) v 0x07FF07FF) 0 11 = fld v 0 11 :=
      fld_blend (by decide) fun i h1 h2 => by interval_cases i <;> rfl
    have h1 : ¬(0x240 + q.val = 0x43) := by omega
    have h2 : ¬(0x240 + q.val = 0x400 ∨ 0x240 + q.val = 0x410 ∨ 0x240 + q.val = 0x420) := by omega
    have h3 : 0x240 ≤ 0x240 + q.val ∧ 0x240 + q.val < 0x244 := by omega
    rw [fixWord]
    simp only [if_neg h1, if_neg h2, if_pos h3, hlow, shares_foldl, shareSum]
    rfl
  rw [writeRegs_partRw hreg hord (by decide) (by fin_cases q <;> rfl) (by fin_cases q <;> rfl) (by omega) (by fin_cases q <;> rfl) hfix
    (fun _ => by fin_cases q <;> rfl)]
  by_cases h : shareSum x q.val v ≤ 1024
  · have h' : ¬(1024 < shareSum x q.val v) := by omega
    simp only [h, h', decide_false, Bool.false_eq_true, if_false, if_true, blend_blend]
  · have h' : 1024 < shareSum x q.val v := by omega
    simp only [h, h', decide_true, if_false, if_true, blend_self]

/-- The limits of the LUNs may stand (04 R111). -/
abbrev limitsOk (v : Word) : Prop :=
  1 ≤ fld v 0 7 ∧ 1 ≤ fld v 8 7 ∧ 1 ≤ fld v 16 7 ∧ 1 ≤ fld v 24 7 ∧ fld v 0 7 + fld v 8 7 + fld v 16 7 + fld v 24 7 ≤ 64

theorem limitsOk_of_fields {u : Word} (h : ∀ k < 4, fld u (8 * k) 7 = fld v (8 * k) 7) :
    ((upto 4).any (fun k => fld u (8 * k) 7 == 0) || decide (64 < fld u 0 7 + fld u 8 7 + fld u 16 7 + fld u 24 7)) = true ↔ ¬limitsOk v := by
  have h0 : fld u 0 7 = fld v 0 7 := h 0 (by decide)
  have h1 : fld u 8 7 = fld v 8 7 := h 1 (by decide)
  have h2 : fld u 16 7 = fld v 16 7 := h 2 (by decide)
  have h3 : fld u 24 7 = fld v 24 7 := h 3 (by decide)
  simp only [upto, List.range_succ, List.range_zero, List.nil_append, List.any_cons, List.any_nil, Nat.reduceMul, h0, h1, h2, h3,
    limitsOk, Bool.or_eq_true, beq_iff_eq, decide_eq_true_eq, Bool.false_eq_true, or_false, List.cons_append, mul_zero]
  omega

/-- The limits, stored where they may stand (04 R111). -/
theorem writeRegs_lunMax :
    writeRegs x 0 [(0x251, v)] =
      (nfcAfter (putReg x 0x251 (if limitsOk v then blend (rd x 0x251) v 0x7F7F7F7F else rd x 0x251)), if limitsOk v then 0x00 else 0x01) := by
  have hfix : fixWord x 0x251 (rd x 0x251) (blend (rd x 0x251) v 0x7F7F7F7F) =
      if limitsOk v then (blend (rd x 0x251) v 0x7F7F7F7F, false) else (rd x 0x251, true) := by
    have hbad := limitsOk_of_fields (u := blend (rd x 0x251) v 0x7F7F7F7F) (v := v) fun k hk =>
      fld_blend (by omega) fun i h1 h2 => by interval_cases k <;> interval_cases i <;> rfl
    by_cases h : limitsOk v
    · rw [if_pos h]
      exact if_neg fun hno => hbad.mp hno h
    · rw [if_neg h]
      exact if_pos (hbad.mpr h)
  rw [writeRegs_partRw rfl (ordinaryAddr_part (by decide)) (by decide) rfl rfl (by decide) rfl hfix (fun _ => rfl)]
  by_cases h : limitsOk v
  · simp only [if_pos h, Bool.false_eq_true, if_false, blend_blend]
  · simp only [if_neg h, if_true, blend_self]

/-- The bits of nibbles kept where the new one is 0: of the nibbles of l, those of old. -/
theorem bit_keepNibbles (old new : Word) (l : List Nat) (y : Word × Bool) {i : Nat} (hi : i < 32) :
    bit (l.foldl (fun y k => keepIf (fld new (4 * k) 4 == 0) old (4 * k) 4 y) y).1 i =
      if i / 4 ∈ l ∧ fld new (4 * (i / 4)) 4 = 0 then bit old i else bit y.1 i := by
  induction l generalizing y with
  | nil => simp
  | cons k l ih =>
    rw [List.foldl_cons, ih]
    by_cases hk : i / 4 = k
    · by_cases hz : fld new (4 * k) 4 = 0
      · have hin : 4 * k ≤ i ∧ i < 4 * k + 4 := by omega
        have hold : (fld old (4 * k) 4).testBit (i - 4 * k) = bit old i := by
          have hlt : i - 4 * k < 4 := by omega
          have hsum : 4 * k + (i - 4 * k) = i := by omega
          rw [testBit_fld, hsum, decide_eq_true hlt, Bool.true_and]
        simp [hk, hz, keepIf, bit_putFld _ _ _ _ hi, hin, hold]
      · simp [hk, hz, keepIf]
    · have hout : ¬(4 * k ≤ i ∧ i < 4 * k + 4) := by omega
      have hstep : bit (keepIf (fld new (4 * k) 4 == 0) old (4 * k) 4 y).1 i = bit y.1 i := by
        rw [keepIf]
        split
        · rw [bit_putFld _ _ _ _ hi, if_neg hout]
        · rfl
      simp [hk, hstep]

/-- Whether a nibble was kept. -/
theorem flag_keepNibbles (old new : Word) (l : List Nat) (y : Word × Bool) :
    (l.foldl (fun y k => keepIf (fld new (4 * k) 4 == 0) old (4 * k) 4 y) y).2 = (y.2 || l.any fun k => fld new (4 * k) 4 == 0) := by
  induction l generalizing y with
  | nil => simp
  | cons k l ih =>
    rw [List.foldl_cons, ih, List.any_cons]
    cases hz : fld new (4 * k) 4 == 0 <;> simp [keepIf]

/-- The bits of a word whose nibbles of l take those of v that are not 0. -/
theorem bit_putNibbles (l : List Nat) (u : Word) {i : Nat} (hi : i < 32) :
    bit (l.foldl (fun u k => if fld v (4 * k) 4 = 0 then u else putFld u (4 * k) 4 (fld v (4 * k) 4)) u) i =
      if i / 4 ∈ l ∧ fld v (4 * (i / 4)) 4 ≠ 0 then bit v i else bit u i := by
  induction l generalizing u with
  | nil => simp
  | cons k l ih =>
    rw [List.foldl_cons, ih]
    by_cases hk : i / 4 = k
    · by_cases hz : fld v (4 * k) 4 = 0
      · simp [hk, hz]
      · have hin : 4 * k ≤ i ∧ i < 4 * k + 4 := by omega
        have hnew : (fld v (4 * k) 4).testBit (i - 4 * k) = bit v i := by
          have hlt : i - 4 * k < 4 := by omega
          have hsum : 4 * k + (i - 4 * k) = i := by omega
          rw [testBit_fld, hsum, decide_eq_true hlt, Bool.true_and]
        simp [hk, hz, bit_putFld _ _ _ _ hi, hin, hnew]
    · have hout : ¬(4 * k ≤ i ∧ i < 4 * k + 4) := by omega
      have hstep : bit (if fld v (4 * k) 4 = 0 then u else putFld u (4 * k) 4 (fld v (4 * k) 4)) i = bit u i := by
        split
        · rfl
        · rw [bit_putFld _ _ _ _ hi, if_neg hout]
      simp [hk, hstep]

/-- The weights that a write of v leaves: each non-zero one is stored (04 R112). -/
def weightsAfter (old v : Word) : Word :=
  (upto 4).foldl (fun u k => if fld v (4 * k) 4 = 0 then u else putFld u (4 * k) 4 (fld v (4 * k) 4)) old

/-- The weights, each stored where it is not 0 (04 R112). -/
theorem writeRegs_lunWeight :
    writeRegs x 0 [(0x250, v)] =
      (nfcAfter (putReg x 0x250 (weightsAfter (rd x 0x250) v)), if ∀ k : Part, fld v (4 * k.val) 4 ≠ 0 then 0x00 else 0x01) := by
  have hnib : ∀ k < 4, fld (blend (rd x 0x250) v (maskW 0 16)) (4 * k) 4 = fld v (4 * k) 4 := fun k hk =>
    fld_blend (by omega) fun i h1 h2 => by
      have hin : i < 0 + 16 := by omega
      rw [bit_maskW (by omega), decide_eq_true (Nat.zero_le i), decide_eq_true hin, Bool.and_self]
  rw [writeRegs_partRw rfl (ordinaryAddr_part (by decide)) (m := maskW 0 16) (by decide) rfl rfl (by decide) rfl rfl (fun _ => rfl)]
  have hword : blend (rd x 0x250) (fixWord x 0x250 (rd x 0x250) (blend (rd x 0x250) v (maskW 0 16))).1 (maskW 0 16) =
      weightsAfter (rd x 0x250) v := by
    refine word_ext fun i hi => ?_
    have hfix : bit (fixWord x 0x250 (rd x 0x250) (blend (rd x 0x250) v (maskW 0 16))).1 i = _ :=
      bit_keepNibbles (rd x 0x250) (blend (rd x 0x250) v (maskW 0 16)) (upto 4) (blend (rd x 0x250) v (maskW 0 16), false) hi
    rw [bit_blend _ _ _ hi, hfix, weightsAfter, bit_putNibbles _ _ hi, bit_maskW hi, bit_blend _ _ _ hi, bit_maskW hi]
    by_cases hlt : i < 16
    · have hmem : i / 4 ∈ upto 4 := List.mem_range.mpr (by omega)
      have hnib := hnib (i / 4) (by omega)
      by_cases hz : fld v (4 * (i / 4)) 4 = 0 <;> simp [hlt, hmem, hnib, hz]
    · have hmem : i / 4 ∉ upto 4 := fun h => by
        have := List.mem_range.mp h
        omega
      simp [hlt, hmem]
  have hflag : (fixWord x 0x250 (rd x 0x250) (blend (rd x 0x250) v (maskW 0 16))).2 = true ↔ ¬∀ k : Part, fld v (4 * k.val) 4 ≠ 0 := by
    have hany : (fixWord x 0x250 (rd x 0x250) (blend (rd x 0x250) v (maskW 0 16))).2 = _ :=
      flag_keepNibbles (rd x 0x250) (blend (rd x 0x250) v (maskW 0 16)) (upto 4) (blend (rd x 0x250) v (maskW 0 16), false)
    rw [hany, Bool.false_or, List.any_eq_true]
    constructor
    · rintro ⟨k, hk, hz⟩ hall
      have hk : k < 4 := List.mem_range.mp hk
      exact hall ⟨k, hk⟩ ((hnib k hk).symm.trans (beq_iff_eq.mp hz))
    · intro hno
      obtain ⟨k, hk⟩ := not_forall.mp hno
      exact ⟨k.val, List.mem_range.mpr k.isLt, beq_iff_eq.mpr ((hnib k.val k.isLt).trans (not_not.mp hk))⟩
  rw [hword]
  by_cases h : ∀ k : Part, fld v (4 * k.val) 4 ≠ 0
  · rw [if_pos h, if_neg fun hno => hflag.mp hno h]
  · rw [if_neg h, if_pos (hflag.mpr h)]

/-- An element changed alike by two functions. -/
theorem upd_congr {α : Type} {d : α} {f g : α → α} : ∀ {l : List α} {i : Nat}, f (nth l i d) = g (nth l i d) → upd l i f = upd l i g
  | [], _, _ => rfl
  | _ :: _, 0, h => congrArg (· :: _) h
  | _ :: l, i + 1, h => congrArg (_ :: ·) (upd_congr (l := l) (i := i) h)

/-- The coalescing word of its partition (04 R119). -/
theorem writeRegs_coalescing (q : Part) :
    writeRegs x q [(0x806 + 0x40 * q.val, v)] =
      (modIrq (passes x (fun k => k == 0x806 + 0x40 * q.val)) q.val (fun i => { i with
        count := if fld v 0 8 = 0 then i.count % 256 else fld v 0 8, time := fld v 16 16 }), if fld v 0 8 = 0 then 0x01 else 0x00) := by
  generalize ha : 0x806 + 0x40 * q.val = a
  have hreg : regAt a = some { reset := 1, fs := [fRw 0xFFFF00FF (.part q.val)] } := by
    rw [← ha]
    fin_cases q <;> rfl
  have hord : ordinaryAddr a := by
    unfold ordinaryAddr
    omega
  obtain ⟨hprim, hquota, hcvu, -⟩ := id hord
  have hrange : 0x800 ≤ a ∧ a < 0x900 := by omega
  have hword : a % 64 = 6 := by omega
  have hctl : (a - 0x800) / 64 = q.val := by omega
  let i := nth x.core.irq q.val {}
  let old := mkW [(0, 8, i.count), (16, 16, i.time)]
  have hold : wordValue x q.val a = old := by
    rw [← ha]
    fin_cases q <;> rfl
  have hden : wordDenied x q.val a v = false := wordDenied_ordinary hreg hord (by simp [fRw, writerOf])
  have hcount : fld (blend old v 0xFFFF00FF) 0 8 = fld v 0 8 := fld_blend (by decide) fun i h1 h2 => by interval_cases i <;> rfl
  have htime : fld (blend old v 0xFFFF00FF) 16 16 = fld v 16 16 := fld_blend (by decide) fun i h1 h2 => by interval_cases i <;> rfl
  have holdCount : fld old 0 8 = i.count % 256 := fld_mkW (by decide) (by simp) (by simp)
  have hfix : fixWord x a old (blend old v 0xFFFF00FF) = keepIf (fld v 0 8 == 0) old 0 8 (blend old v 0xFFFF00FF, false) := by
    have h1 : ¬(a = 0x43) := by omega
    have h2 : ¬(a = 0x400 ∨ a = 0x410 ∨ a = 0x420) := by omega
    have h3 : ¬(0x240 ≤ a ∧ a < 0x244) := by omega
    have h4 : ¬(a = 0x250) := by omega
    have h5 : ¬(a = 0x251) := by omega
    have h6 : ¬(0x260 ≤ a ∧ a < 0x264) := by omega
    have h7 : 0x800 ≤ a ∧ a < 0x900 ∧ a % 64 = 6 := ⟨hrange.1, hrange.2, hword⟩
    rw [fixWord]
    simp only [if_neg h1, if_neg h2, if_neg h3, if_neg h4, if_neg h5, if_neg h6, if_pos h7, hcount]
  have hstoreRw : ∀ w : Word, storeRw x q.val a 0xFFFF00FF w =
      modIrq (passes x (fun k => k == a)) q.val (fun i => { i with count := fld w 0 8, time := fld w 16 16 }) := fun w => by
    have hm : ¬((0xFFFF00FF : Word) = 0) := by decide
    simp only [storeRw, if_neg hm, if_pos hrange, hword, hctl]
  have hzero : ∀ w : Word, w &&& 0 = 0 := fun w => BitVec.and_zero
  have hclear : ∀ z : State, clearBits z a 0 = z := fun z => if_pos rfl
  have hstore : writeStore x x q.val a v = (modIrq (passes x (fun k => k == a)) q.val (fun i => { i with
      count := if fld v 0 8 = 0 then i.count % 256 else fld v 0 8, time := fld v 16 16 }), fld v 0 8 == 0) := by
    rw [writeStore_primary hreg (isStaged_of_primary hprim) hprim hquota hcvu (rw := 0xFFFF00FF) (accMask_one rfl (by simp [fRw])) (keep := 0)
      (accMask_none (by simp [fRw])) (w1c := 0) (accMask_none rfl) hold]
    have hm : ¬((0xFFFF00FF : Word) = 0) := by decide
    simp only [if_neg hm, hfix, hstoreRw, hzero, hclear]
    cases hz : fld v 0 8 == 0 with
    | true =>
      have hz : fld v 0 8 = 0 := beq_iff_eq.mp hz
      have hkept : fld (putFld (blend old v 0xFFFF00FF) 0 8 (fld old 0 8)) 0 8 = i.count % 256 := by
        refine Nat.eq_of_testBit_eq fun j => ?_
        rw [testBit_fld, ← holdCount]
        by_cases hj : j < 8
        · have hin : 0 ≤ 0 + j ∧ 0 + j < 0 + 8 := by omega
          rw [bit_putFld _ _ _ _ (by omega), if_pos hin, decide_eq_true hj, Bool.true_and, Nat.zero_add, Nat.sub_zero]
        · rw [testBit_fld, decide_eq_false hj, Bool.false_and, Bool.false_and]
      have hsame : fld (putFld (blend old v 0xFFFF00FF) 0 8 (fld old 0 8)) 16 16 = fld v 16 16 := by
        rw [← htime]
        refine fld_congr fun j h1 h2 => ?_
        have hout : ¬(0 ≤ j ∧ j < 0 + 8) := by omega
        rw [bit_putFld _ _ _ _ (by omega), if_neg hout]
      refine Prod.ext ?_ (by simp [keepIf])
      refine congrArg (fun l => modC (passes x fun k => k == a) fun c => { c with irq := l }) (upd_congr (d := {}) ?_)
      simp only [keepIf, if_true, hkept, hsame, if_pos hz]
      rfl
    | false =>
      have hz : ¬(fld v 0 8 = 0) := beq_eq_false_iff_ne.mp hz
      simp only [keepIf, Bool.false_eq_true, if_false, hcount, htime, if_neg hz]
      rfl
  have hact : ∀ z : State, writeAct x z q a v = (z, false) := fun z => by
    rw [← ha]
    fin_cases q <;> rfl
  have hnfc : touchesNfc [(a, v)] = false := by
    rw [← ha]
    fin_cases q <;> rfl
  rw [writeRegs_one hden hquota hcvu hstore (hact _) (Nat.le_succ _), nfcGoesOn_of_not hnfc, Bool.or_false]
  by_cases hz : fld v 0 8 = 0 <;> simp [hz]

/-- Another partition's coalescing word is refused (04 R105). -/
theorem instant_coalescing_denied (hl : Listens s p) {q : Part} (hpq : p ≠ q) :
    instant (whenCore fun s => writeFrame s p seq (0x806 + 0x40 * q.val) [v]) s = .next (deniedAt s p seq (0x806 + 0x40 * q.val) 1) := by
  have hreg : regAt (0x806 + 0x40 * q.val) = some { reset := 1, fs := [fRw 0xFFFF00FF (.part q.val)] } := by fin_cases q <;> rfl
  have hne : q.val ≠ p.val := fun h => hpq (Fin.ext h).symm
  exact instant_denied hl seq (wordDenied_of_noField hreg (by simp) (by simpa [fRw, writerOf] using hne) rfl)

/-- Settles O22: each word of the steward is one field of P0, judged by its description. -/
theorem stewardWordsAreStoredKeptOrDenied : Obligations.StewardWordsAreStoredKeptOrDenied := by
  intro s p q seq v hl
  refine ⟨fun hp => ⟨?_, ?_, ?_, ?_⟩, fun hp => ?_, fun hpq => instant_coalescing_denied hl hpq, fun hpq => ?_⟩
  · exact instant_part_denied hl hp (a := 0x200) (f := fLk 1) rfl rfl rfl
  · have hreg : regAt (0x240 + q.val) = some { reset := if q.val = 3 then 0x00400000 else 0x01000100, fs := [fRw 0x07FF07FF] } := by
      fin_cases q <;> rfl
    exact instant_part_denied hl hp hreg rfl rfl
  · exact instant_part_denied hl hp (a := 0x250) (f := fRw (maskW 0 16)) rfl rfl rfl
  · exact instant_part_denied hl hp (a := 0x251) (f := fRw 0x7F7F7F7F) rfl rfl rfl
  · subst hp
    have hopen := PortOnly.frameOpen 0 s seq 1
    have hrd : ∀ a, rd (frameOpen s 0 seq 1) a = rd s a := fun a => hopen.same fun x => rd x a
    refine ⟨fun hlock => ?_, fun hlock => ?_, ?_, ?_, ?_⟩
    · exact instant_framed hl seq (f := fun x => nfcAfter (putReg x 0x200 (blend (rd s 0x200) v 1)))
        ((writeRegs_lock_open (hopen.locked.trans hlock)).trans (by rw [hrd]))
    · exact instant_framed hl seq (f := nfcAfter) ((writeRegs_lock_shut (hopen.locked.trans hlock)).trans (by rw [hrd]))
    · have hsum : shareSum (frameOpen s 0 seq 1) q.val v = shareSum s q.val v := hopen.same fun x => shareSum x q.val v
      exact instant_framed hl seq ((writeRegs_share q).trans (by rw [hrd, hsum]; rfl))
    · exact instant_framed hl seq (writeRegs_lunMax.trans (by rw [hrd]))
    · exact instant_framed hl seq (writeRegs_lunWeight.trans (by rw [hrd]; rfl))
  · subst hpq
    exact instant_framed hl seq (writeRegs_coalescing p)

end Sys2Proof.Machine
end

section
/-! PROOFS. Chapter 03: capo triggers, the release of a held capo, and the latch of the timebase (03 R81, R95-R98). -/

set_option Elab.async false

namespace Sys2Proof.Machine

variable {s x : State} {p : Part} {v : Word} {seq : Byte}

/-- A command of the core while the core runs, and the end of its instant. -/
theorem instant_core (f : State → State) (hup : coreUp s = true) : instant (whenCore f) s = .next (settle (f s)) := by
  rw [instant_eq, whenCore_up s f hup]

/-- A quiet end of an instant in which no source of P3 has become pending changes the rounds and DOZE alone. -/
theorem Quiet.keeps_settle_ports {u : State} (hq : Quiet u) (hnew : (nth u.core.irq 3 {}).pend &&& ~~~(nth u.core.irq 3 {}).lastPend = 0) :
    Keeps [.irqRound, .doze] u (settle u) := fun k => by
  rcases eq_or_ne k .ports with rfl | hne
  · exact .inr (hq.ports_settle hnew)
  · refine (hq.keeps_settle k).imp_left fun hk => ?_
    simp only [List.mem_cons, List.not_mem_nil, or_false] at hk ⊢
    tauto

/-- And where DOZE need not end, the rounds alone. -/
theorem Quiet.keeps_settle_doze {u : State} (hq : Quiet u) (hnew : (nth u.core.irq 3 {}).pend &&& ~~~(nth u.core.irq 3 {}).lastPend = 0)
    (hdoze : u.core.pwr.doze = true → workPresent u = false) : Keeps [.irqRound] u (settle u) := fun k => by
  rcases eq_or_ne k .doze with rfl | hne
  · refine .inr ?_
    show (u.core.pwr.doze && !workPresent u) = u.core.pwr.doze
    cases h : u.core.pwr.doze with
    | false => rfl
    | true => rw [hdoze h]; rfl
  · refine (hq.keeps_settle_ports hnew k).imp_left fun hk => ?_
    simp only [List.mem_cons, List.not_mem_nil, or_false] at hk ⊢
    tauto

/-- A trigger waits once one has come. -/
theorem trig_capoTrigger (x : State) {src : Nat} (hsrc : src < 4) : (capoTrigger x src).core.capo.trig ≠ 0 := fun h => by
  have hset : bit (capoTrigger x src).core.capo.trig src = true := bit_setBit_same _ _ _ hsrc
  rw [h, bit_eq] at hset
  simp at hset

/-- The end of an instant with a trigger takes a capo where none is held (03 R94). -/
theorem seq_settle_capoTrigger (t : State) {src : Nat} (hsrc : src < 4) (hcapo : t.core.capo = (capoTrigger x src).core.capo)
    (hheld : x.core.capo.held = false) : (settle t).core.capo.seq = x.core.capo.seq + 1 := by
  have htrig : t.core.capo.trig ≠ 0 := hcapo ▸ trig_capoTrigger x hsrc
  have hno : t.core.capo.held = false := by
    rw [hcapo]
    exact hheld
  exact (capoAfter_taken htrig hno).1.trans (by rw [hcapo]; rfl)

/-- A trigger by a write (03 R95). -/
theorem exec_capoTrig (hl : Listens s p) (hv : bit v 0 = true) (hen : bit (used s 0x53) p.val = true) :
    exec (.capoTrig p seq v) s = .next (framed s p seq 0x50 1 0x00 fun x => capoTrigger x 0) := by
  have hopen := PortOnly.frameOpen p s seq 1
  have hspecial : specialDenied (frameOpen s p seq 1) p.val 0x50 v = false := by
    have hused : bit (used (frameOpen s p seq 1) 0x53) p.val = true := (hopen.same fun x => bit (used x 0x53) p.val).trans hen
    simp [specialDenied, hused]
  have hden : wordDenied (frameOpen s p seq 1) p.val 0x50 v = false :=
    wordDenied_of_ownsAll (r := { fs := [fWo 1 .any] }) rfl (by simp [fWo, writerOf]) hspecial
  refine instant_framed hl seq ?_
  rw [writeRegs_wo (r := { fs := [fWo 1 .any] }) rfl hden rfl (by decide) (by simp [fWo]) (by decide) (by decide)
    (y := (capoTrigger (frameOpen s p seq 1) 0, false)) ?_ (Nat.le_succ _), nfcGoesOn_of_not rfl]
  · rfl
  · show ((if bit v 0 then capoTrigger (frameOpen s p seq 1) 0 else frameOpen s p seq 1), false) = _
    rw [if_pos hv]

/-- A trigger by a partition without WRITE_EN is refused (03 R95). -/
theorem exec_capoTrig_denied (hl : Listens s p) (hv : bit v 0 = true) (hen : bit (used s 0x53) p.val = false) :
    exec (.capoTrig p seq v) s = .next (deniedAt s p seq 0x50 1) := by
  have hopen := PortOnly.frameOpen p s seq 1
  have hused : bit (used (frameOpen s p seq 1) 0x53) p.val = false := (hopen.same fun x => bit (used x 0x53) p.val).trans hen
  have hspecial : specialDenied (frameOpen s p seq 1) p.val 0x50 v = true := by simp [specialDenied, hv, hused]
  refine instant_denied hl seq ?_
  have hreg : regAt 0x50 = some { fs := [fWo 1 .any] } := rfl
  simp [wordDenied, hreg, hspecial]

/-- What a trigger by a write leaves. -/
theorem capoTrig_written (hl : Listens s p) (hv : bit v 0 = true) (hen : bit (used s 0x53) p.val = true)
    (hheld : s.core.capo.held = false) :
    ∃ t, exec (.capoTrig p seq v) s = .next t ∧ t.core.capo.seq = s.core.capo.seq + 1 ∧
      (portOf t p).lastStatus = 0x00 ∧ Keeps [.capo, .ports, .irqPend, .irqRound, .gng, .doze] s t := by
  have hopen := PortOnly.frameOpen p s seq 1
  have hlo := hopen.listens hl
  have hlt : Listens (capoTrigger (frameOpen s p seq 1) 0) p := ⟨hlo.up, hlo.notInReset, hlo.noDeviceReset, hlo.fourPorts⟩
  have hcapo : (frameOpen s p seq 1).core.capo = s.core.capo := hopen.same fun x => x.core.capo
  have hclose : (frameClose (capoTrigger (frameOpen s p seq 1) 0) p seq 0x50 1 0x00).core.capo =
      (capoTrigger (frameOpen s p seq 1) 0).core.capo := (goes_frameClose hlt).same .capo (by decide)
  have hopenGoes : Goes [.ports, .doze] s (frameOpen s p seq 1) := hopen.goes
  have htrig : Goes [.capo] (frameOpen s p seq 1) (capoTrigger (frameOpen s p seq 1) 0) := (Goes.refl _ _).capoTrigger (by simp)
  refine ⟨_, exec_capoTrig hl hv hen, ?_, lastStatus_framed hlt, ?_⟩
  · have hseq := seq_settle_capoTrigger (frameClose (capoTrigger (frameOpen s p seq 1) 0) p seq 0x50 1 0x00) (by decide) hclose
      (by rw [hcapo]; exact hheld)
    exact hseq.trans (by rw [hcapo])
  · have hframe : Goes endPieces (capoTrigger (frameOpen s p seq 1) 0) (framed s p seq 0x50 1 0x00 fun x => capoTrigger x 0) :=
      goes_framed (f := fun x => capoTrigger x 0) hlt
    exact ((hopenGoes.keeps.trans htrig.keeps).trans hframe.keeps).mono (by decide)

/-- A falling edge of the CAPO pin (03 R96, R97). -/
theorem capoPinEdge_seen (hup : coreUp s = true) :
    ∃ t, exec .capoPinEdge s = .next t ∧
      (bit (used s 0x53) 4 = true → s.core.capo.driving = false → s.core.capo.held = false → t.core.capo.seq = s.core.capo.seq + 1) ∧
      ((bit (used s 0x53) 4 = false ∨ s.core.capo.driving = true) →
        t = settle { s with core := { s.core with capo := { s.core.capo with pinReset := false } } }) := by
  refine ⟨settle (capoPinOp s), instant_core _ hup, fun hin hdrive hheld => ?_, fun h => ?_⟩
  · have hedge : capoPinOp s = capoTrigger (modC s fun c => { c with capo := { c.capo with pinReset := false } }) 1 :=
      if_pos (by
        show (bit (used s 0x53) 4 && !s.core.capo.driving) = true
        rw [hin, hdrive]
        rfl)
    rw [hedge]
    exact seq_settle_capoTrigger (x := modC s fun c => { c with capo := { c.capo with pinReset := false } }) _ (by decide) rfl hheld
  · refine congrArg settle (if_neg ?_)
    show ¬((bit (used s 0x53) 4 && !s.core.capo.driving) = true)
    rcases h with h | h <;> simp [h]

/-- The end of the drive of the CAPO line (03 R97). -/
theorem capoDriveEnd_released (hup : coreUp s = true) (hs : Settled s) :
    ∃ t, exec .capoDriveEnd s = .next t ∧ t.core.capo = { s.core.capo with driving := false } ∧ Keeps [.capo, .irqRound, .doze] s t := by
  let u := modC s fun c => { c with capo := { c.capo with driving := false } }
  have hq : Quiet u := ⟨hs.quiet.trig, hs.quiet.vote, hs.quiet.rpg, hs.quiet.devrst⟩
  exact ⟨settle u, instant_core _ hup, capoAfter_of_noTrigger hq.trig,
    (((Goes.refl [.capo] s).core_capo (by simp)).keeps.trans (hq.keeps_settle_ports hs.noNewPend)).mono (by decide)⟩

/-- The release of a capo (03 R98). -/
theorem capoRelease_written (hl : Listens s p) (hs : Settled s) (hv : bit v 0 = true) :
    ∃ t, exec (.capoRelease p seq v) s = .next t ∧
      (p = 0 → t.core.capo = { s.core.capo with held := false, missed := 0, missedSrc := 0 } ∧
        (portOf t p).lastStatus = 0x00 ∧ KeepsPort p [.capo] s t) ∧
      (p ≠ 0 → (portOf t p).lastStatus = 0x20 ∧ OnlyPort p s t) := by
  obtain ⟨hother, hsteward⟩ := counterClear (a := 0x52) (v := v) (seq := seq) hl rfl (by unfold ordinaryAddr; decide) rfl
    (g := fun c => { c with capo := { c.capo with held := false, missed := 0, missedSrc := 0 } }) (fun _ => rfl) (fun _ => rfl)
  by_cases hp : p = 0
  · subst hp
    have hexec : exec (.capoRelease 0 seq v) s = .next (framed s 0 seq 0x52 1 0x00 capoReleaseOp) :=
      (hsteward rfl).trans (by simp only [hv, if_true]; rfl)
    refine ⟨_, hexec, fun _ => ?_, fun h => absurd rfl h⟩
    have hopen := PortOnly.frameOpen 0 s seq 1
    have hlo := hopen.listens hl
    have hlt : Listens (capoReleaseOp (frameOpen s 0 seq 1)) 0 := ⟨hlo.up, hlo.notInReset, hlo.noDeviceReset, hlo.fourPorts⟩
    have hqo := hopen.quiet hs.quiet
    have hq : Quiet (capoReleaseOp (frameOpen s 0 seq 1)) := ⟨hqo.trig, hqo.vote, hqo.rpg, hqo.devrst⟩
    have hgoes : Goes [.capo] (frameOpen s 0 seq 1) (capoReleaseOp (frameOpen s 0 seq 1)) := (Goes.refl _ _).capoReleaseOp (by simp)
    have hkeeps : KeepsPort 0 [.capo] s (framed s 0 seq 0x52 1 0x00 capoReleaseOp) :=
      keepsPort_framed hs hlt hgoes hq rfl rfl (by decide) (.inl (by decide))
    refine ⟨?_, lastStatus_framed hlt, hkeeps⟩
    have hclose : (frameClose (capoReleaseOp (frameOpen s 0 seq 1)) 0 seq 0x52 1 0x00).core.capo =
        (capoReleaseOp (frameOpen s 0 seq 1)).core.capo := (goes_frameClose hlt).same .capo (by decide)
    refine (capoAfter_of_noTrigger (by rw [hclose]; exact hq.trig)).trans (hclose.trans ?_)
    show CapoSt.mk .. = CapoSt.mk ..
    rw [show (frameOpen s 0 seq 1).core.capo = s.core.capo from hopen.same fun x => x.core.capo]
  · exact ⟨_, hother hp, fun h => absurd h hp, fun _ => deniedAt_onlyPort hl hs⟩

/-- The latch of the timebase (03 R81). -/
theorem tbaseLatch_written (hl : Listens s p) (hs : Settled s) (hv : bit v 0 = true) (hlen : s.core.dev.latches.length = 4) :
    ∃ t, exec (.tbaseLatch p seq v) s = .next t ∧ nth t.core.dev.latches p.val 0 = s.aon.tbase ∧
      (∀ q : Part, q ≠ p → nth t.core.dev.latches q.val 0 = nth s.core.dev.latches q.val 0) ∧
      t.core.dev.parityCount = s.core.dev.parityCount ∧ (portOf t p).lastStatus = 0x00 ∧ KeepsPort p [.dev] s t := by
  have hopen := PortOnly.frameOpen p s seq 1
  have hlo := hopen.listens hl
  have hexec : exec (.tbaseLatch p seq v) s = .next (framed s p seq 0x62 1 0x00 fun x => latchOp x p.val) := by
    have hwo := instant_wo (v := v) (seq := seq) (r := { fs := [fWo 1 .any] }) (a := 0x62)
      (f := fun x => latchOp x p.val) hl rfl (by unfold ordinaryAddr; decide) (by simp [fWo]) (by simp [fWo, writerOf])
      (fun x => by
        show ((if bit v 0 then latchOp x p.val else x), false) = _
        rw [if_pos hv]) (fun _ => Nat.le_succ _)
    exact hwo.trans (by simp only [nfcGoesOn_of_not (a := 0x62) (v := v) rfl])
  have hlt : Listens (latchOp (frameOpen s p seq 1) p.val) p := ⟨hlo.up, hlo.notInReset, hlo.noDeviceReset, hlo.fourPorts⟩
  have hqo := hopen.quiet hs.quiet
  have hq : Quiet (latchOp (frameOpen s p seq 1) p.val) := ⟨hqo.trig, hqo.vote, hqo.rpg, hqo.devrst⟩
  have hgoes : Goes [.dev] (frameOpen s p seq 1) (latchOp (frameOpen s p seq 1) p.val) := (Goes.refl _ _).latchOp (by simp)
  have hdev : (framed s p seq 0x62 1 0x00 fun x => latchOp x p.val).core.dev =
      { s.core.dev with latches := upd s.core.dev.latches p.val fun _ => s.aon.tbase } := by
    rw [(goes_framed (f := fun x => latchOp x p.val) hlt).same .dev (by decide)]
    show DevSt.mk .. = DevSt.mk ..
    rw [show (frameOpen s p seq 1).core.dev = s.core.dev from hopen.same fun x => x.core.dev,
      show (frameOpen s p seq 1).aon.tbase = s.aon.tbase from hopen.same fun x => x.aon.tbase]
  refine ⟨_, hexec, ?_, fun q hqp => ?_, by rw [hdev], lastStatus_framed hlt,
    keepsPort_framed hs hlt hgoes hq rfl rfl (by decide) (.inl (by decide))⟩
  · rw [hdev]
    exact nth_upd_same _ _ _ _ (by rw [hlen]; exact p.isLt)
  · rw [hdev]
    exact nth_upd_ne _ _ _ _ _ fun e => hqp (Fin.ext e)

/-- Settles O20: each trigger sets its bit for the end of the instant, which takes the capo; the release and the latch are words
of one field. -/
theorem capoTriggersReleaseAndLatch : Obligations.CapoTriggersReleaseAndLatch := by
  refine ⟨fun s p seq v hs hv => ⟨fun hl hen hheld => capoTrig_written hl hv hen hheld, fun hl hen => ?_, fun hup => ?_, fun hl =>
    capoRelease_written hl hs hv⟩, fun s p seq v hl hs hv hlen => tbaseLatch_written hl hs hv hlen⟩
  · exact ⟨_, exec_capoTrig_denied hl hv hen, deniedAt_onlyPort hl hs⟩
  · exact ⟨capoPinEdge_seen hup, capoDriveEnd_released hup hs⟩

end Sys2Proof.Machine
end

section
/-! PROOFS. Chapter 05: SLEEP, DOZE, the alarm and the wake sources (05 R134-R140). -/

set_option Elab.async false

namespace Sys2Proof.Machine

variable {s x : State} {p : Part} {v : Word} {seq : Byte}

/-- A partition still listens where neither PART, nor the ports, nor the phase of the device have changed. -/
theorem Goes.listens {ps : List Piece} {y : State} (h : Goes ps x y) (hps : ∀ k ∈ [Piece.aon, .part, .ports], k ∉ ps) (hdev : y.core.pwr.devrst = false)
    (hl : Listens x p) : Listens y p := by
  have haon : y.aon = x.aon := h.same .aon (hps _ (by simp))
  have hpart : y.core.part = x.core.part := h.same .part (hps _ (by simp))
  have hports : y.core.ports = x.core.ports := h.same .ports (hps _ (by simp))
  refine ⟨?_, ?_, hdev, by rw [hports]; exact hl.fourPorts⟩
  · rw [coreUp, haon]
    exact hl.up
  · rw [inReset, hpart]
    exact hl.notInReset

/-- PWR_SLEEP with the time-out field as P0 writes it (05 Table 5-9). -/
def sleepStored (v : Word) (x : State) : State :=
  setR (passes x fun k => k == 0xA04) 0xA04
    (blend (rd x 0xA04) (fixWord x 0xA04 (wordValue x 0 0xA04) (blend (wordValue x 0 0xA04) v (maskW 16 16))).1 (maskW 16 16))

/-- And with TIMED_OUT as the write has it. -/
def sleepFields (v : Word) (x : State) : State :=
  if v &&& 4 = 0 then sleepStored v x
  else modC (sleepStored v x) fun c => { c with pwr := { c.pwr with timedOut := c.pwr.timedOut && !bit v 2 } }

/-- What a write of PWR_SLEEP by P0 does: its fields, then the request (05 R137). -/
def sleepWritten (v : Word) (x : State) : State := if bit v 0 then sleepRequestOp (sleepFields v x) else sleepFields v x

/-- The TIMED_OUT bit of a written word. -/
theorem bit_two_and_four (v : Word) : bit (v &&& 4) 2 = bit v 2 := by
  rw [bit_and, show bit (4 : Word) 2 = true from by decide, Bool.and_true]

theorem goes_sleepFields : Goes [.regs, .parity, .pwr, .doze] x (sleepFields v x) := by
  have hstored : Goes [.regs, .parity, .pwr, .doze] x (sleepStored v x) := ((Goes.refl _ x).passes (by simp)).setR (by simp)
  exact .cond hstored (hstored.core_pwr (by simp) (by simp))

theorem goes_sleepWritten : Goes [.regs, .parity, .pwr, .doze] x (sleepWritten v x) :=
  .cond (goes_sleepFields.sleepRequestOp (by simp) (by simp)) goes_sleepFields

theorem writeRegs_sleep : ∃ code, writeRegs x 0 [(0xA04, v)] = (sleepWritten v x, code) := by
  let r : RegSpec := { reset := 0x03E80000, fs := [fWo 1, fRo 2, fW1c 4, fRw (maskW 16 16)] }
  have hreg : regAt 0xA04 = some r := rfl
  have hden : wordDenied x (0 : Part).val 0xA04 v = false :=
    wordDenied_ordinary hreg (by unfold ordinaryAddr; decide) (by simp [r, fWo, fRo, fW1c, fRw, writerOf])
  have hrw : accMask r (fun f => f.acc == .rw && (!f.lk || ((0 : Part).val == 0 && !locked x))) = maskW 16 16 := by
    cases locked x <;> decide
  have hkeep : accMask r (fun f => f.acc == .ro || f.acc == .st || (f.lk && !((0 : Part).val == 0 && !locked x))) = 2 := by
    cases locked x <;> decide
  have hw1c : accMask r (fun f => f.acc == .w1c) = 4 := by decide
  have hclear : clearBits (sleepStored v x) 0xA04 (v &&& 4) = sleepFields v x := by
    rw [sleepFields, ← bit_two_and_four v]
    rfl
  have hstore : ∃ b, writeStore x x (0 : Part).val 0xA04 v = (sleepFields v x, b) := by
    rw [writeStore_primary hreg rfl (by decide) (by decide) (by decide) hrw hkeep hw1c rfl]
    have hm : ¬(maskW 16 16 = 0) := by decide
    simp only [if_neg hm, storeRw_stored hm (a := 0xA04) (by decide) (by decide) (by decide) (by decide)]
    exact ⟨_, Prod.ext hclear rfl⟩
  obtain ⟨b, hstore⟩ := hstore
  have hact : ∀ z, writeAct x z 0 0xA04 v = (if bit v 0 then sleepRequestOp z else z, false) := fun _ => rfl
  have hw := writeRegs_one hden (by decide) (by decide) hstore (hact _) (by
    show (sleepWritten v x).core.seq.reqs.length ≤ _
    rw [goes_sleepWritten.same .seq (by decide)]
    exact Nat.le_succ _)
  rw [nfcGoesOn_of_not rfl] at hw
  exact ⟨_, hw⟩

/-- A request leaves the request waiting, and TIMED_OUT as the write has it. -/
theorem pwr_sleepWritten (hv : bit v 0 = true) (hdev : x.core.pwr.devrst = false) :
    (sleepWritten v x).core.pwr.waiting = true ∧ (sleepWritten v x).core.pwr.timedOut = (x.core.pwr.timedOut && !bit v 2) ∧
      (sleepWritten v x).core.pwr.devrst = false := by
  have hzero : v &&& 4 = 0 → bit v 2 = false := fun h => by
    rw [← bit_two_and_four v, h]
    decide
  have hop : ∀ z : State, (sleepRequestOp z).core.pwr.waiting = true ∧ (sleepRequestOp z).core.pwr.timedOut = z.core.pwr.timedOut ∧
      (sleepRequestOp z).core.pwr.devrst = z.core.pwr.devrst := fun z => by
    by_cases hw : z.core.pwr.waiting = true
    · rw [sleepRequestOp, if_pos hw]
      exact ⟨hw, rfl, rfl⟩
    · rw [sleepRequestOp, if_neg hw]
      exact ⟨rfl, rfl, rfl⟩
  rw [sleepWritten, if_pos hv]
  refine ⟨(hop _).1, (hop _).2.1.trans ?_, (hop _).2.2.trans ?_⟩
  · rw [sleepFields]
    split
    next h => rw [hzero h, Bool.not_false, Bool.and_true]; rfl
    next => rfl
  · rw [sleepFields]
    split <;> exact hdev

/-- A SLEEP request (05 R137). -/
theorem sleepRequest_written (hl : Listens s p) (hs : Settled s) (hv : bit v 0 = true) :
    ∃ t, exec (.sleepRequest p seq v) s = .next t ∧
      (p = 0 → t.core.pwr.waiting = true ∧ (bit v 2 = false → t.core.pwr.timedOut = s.core.pwr.timedOut) ∧
        (bit v 2 = true → t.core.pwr.timedOut = false)) ∧
      (p ≠ 0 → (portOf t p).lastStatus = 0x20 ∧ OnlyPort p s t) := by
  by_cases hp : p = 0
  · subst hp
    have hopen := PortOnly.frameOpen 0 s seq 1
    have hlo := hopen.listens hl
    obtain ⟨code, hw⟩ := writeRegs_sleep (x := frameOpen s 0 seq 1) (v := v)
    obtain ⟨hwait, htime, hdev⟩ := pwr_sleepWritten (x := frameOpen s 0 seq 1) hv hlo.noDeviceReset
    have hlt : Listens (sleepWritten v (frameOpen s 0 seq 1)) 0 := goes_sleepWritten.listens (by decide) hdev hlo
    have hpwr := (goes_framed (a := 0xA04) (code := code) hlt).same .pwr (by decide)
    have hframedWait : (framed s 0 seq 0xA04 1 code (sleepWritten v)).core.pwr.waiting = true :=
      (congrArg PwrSt.waiting hpwr).trans hwait
    have hframedTime : (framed s 0 seq 0xA04 1 code (sleepWritten v)).core.pwr.timedOut = (s.core.pwr.timedOut && !bit v 2) :=
      (congrArg PwrSt.timedOut hpwr).trans (htime.trans (by rw [hopen.same fun x => x.core.pwr.timedOut]))
    refine ⟨_, instant_framed hl seq hw, fun _ => ⟨hframedWait, fun h => ?_, fun h => ?_⟩, fun h => absurd rfl h⟩
    · rw [hframedTime, h, Bool.not_false, Bool.and_true]
    · rw [hframedTime, h, Bool.not_true, Bool.and_false]
  · refine ⟨_, instant_steward_denied (a := 0xA04) hl hp rfl (by simp) (by simp [fWo, fRo, fW1c, fRw]) rfl, fun h => absurd h hp, fun _ =>
      deniedAt_onlyPort hl hs⟩

/-- The core stops for SLEEP where every condition holds (05 R137-R139). -/
theorem sleepEntry_stops (w : WakeInputs) (hup : coreUp s = true) (hmain : s.aon.mainOk = true) :
    ∃ t, exec (.sleepEntry w) s = .next t ∧
      ((s.core.pwr.waiting && sleepReady s) = false → t = settle s) ∧
      ((s.core.pwr.waiting && sleepReady s) = true →
        t.aon.stop = 1 ∧ (t.aon.phase = .sleep ∨ t.aon.phase = .arm) ∧ t.core.regs = [] ∧ t.aon.regs = s.aon.regs ∧
        t.aon.tbase = s.aon.tbase ∧ t.flash = s.flash) := by
  refine ⟨settle (sleepEntryOp s w), instant_core _ hup, fun h => ?_, fun h => ?_⟩
  · rw [sleepEntryOp, h]
    rfl
  · have hop : sleepEntryOp s w = sleepArmed (coreStop s 1) w := by
      rw [sleepEntryOp, if_pos h]
      exact if_pos hmain
    rw [hop]
    unfold sleepArmed
    dsimp only
    split
    · exact ⟨rfl, .inl rfl, rfl, rfl, rfl, rfl⟩
    · exact ⟨rfl, .inr rfl, rfl, rfl, rfl, rfl⟩

/-- A request lapses (05 R137). -/
theorem sleepTimeout_lapses (hup : coreUp s = true) (hs : Settled s) :
    ∃ t, exec .sleepTimeout s = .next t ∧
      (s.core.pwr.waiting = true → sleepReady s = false → t.core.pwr.waiting = false ∧ t.core.pwr.timedOut = true) ∧
      Keeps [.pwr, .irqRound] s t := by
  refine ⟨settle (sleepTimeoutOp s), instant_core _ hup, fun hw hr => ?_, ?_⟩
  · rw [sleepTimeoutOp, if_pos (by rw [hw, hr]; rfl)]
    exact ⟨rfl, rfl⟩
  · rw [sleepTimeoutOp]
    split
    · let u := modC s fun c => { c with pwr := { c.pwr with waiting := false, timedOut := true } }
      have hq : Quiet u := ⟨hs.quiet.trig, hs.quiet.vote, hs.quiet.rpg, hs.quiet.devrst⟩
      have hdoze : u.core.pwr.doze = true → workPresent u = false := hs.2.2.1
      have hu : Keeps [.pwr] s u := fun k => by
        cases k
        case pwr => exact .inl (by decide)
        all_goals exact .inr rfl
      exact (hu.trans (hq.keeps_settle_doze hs.noNewPend hdoze)).mono (by decide)
    · exact (hs.quiet.keeps_settle_doze hs.noNewPend hs.2.2.1).mono (by decide)

/-- DOZE is entered where nothing works (05 R135). -/
theorem dozeEntry_sets (hup : coreUp s = true) (hs : Settled s) :
    ∃ t, exec .dozeEntry s = .next t ∧
      t.core.pwr.doze = (s.core.pwr.doze || (bit (aused s 0xA05) 0 && !workPresent s)) ∧ Keeps [.doze, .irqRound] s t := by
  have hold : (s.core.pwr.doze && !workPresent s) = s.core.pwr.doze := by
    cases h : s.core.pwr.doze with
    | false => rfl
    | true => rw [hs.2.2.1 h]; rfl
  refine ⟨settle (dozeOp s), instant_core _ hup, ?_, ?_⟩
  · rw [dozeOp]
    split
    next h =>
      show (true && !workPresent s) = _
      rw [h, Bool.or_true]
      exact (Bool.and_eq_true _ _ ▸ h).2
    next h =>
      rw [Bool.not_eq_true] at h
      rw [h, Bool.or_false]
      exact hold
  · rw [dozeOp]
    split
    · let u := modC s fun c => { c with pwr := { c.pwr with doze := true } }
      have hq : Quiet u := ⟨hs.quiet.trig, hs.quiet.vote, hs.quiet.rpg, hs.quiet.devrst⟩
      have hu : Keeps [.doze] s u := ((Goes.refl [.doze] s).core_doze (by simp)).keeps
      exact (hu.trans (hq.keeps_settle_ports hs.noNewPend)).mono (by decide)
    · exact (hs.quiet.keeps_settle_ports hs.noNewPend).mono (by decide)

/-- The bit of a wake cause stands in the record of the sequence that it starts. -/
theorem or_and_self_right (a c : BitVec 8) : (a ||| c) &&& c = c := by
  ext i hi
  simp only [BitVec.getElem_and, BitVec.getElem_or]
  exact Bool.eq_iff_iff.mpr (by simpa using Or.inr)

/-- The alarm (05 R139, R140). -/
theorem alarmFire_sets (s : State) :
    ∃ t, exec .alarmFire s = .next t ∧
      (alarmDue s = false → t = settle s) ∧ (bit (aused s 0xA0B) 16 = false → t = settle s) ∧
      (s.aon.phase ≠ .dead → swf regReset s.aon.regs = true → alarmDue s = true →
        bit (ard t 0xA0B) 16 = false ∧ bit (ard t 0xA0B) 17 = true ∧
        (s.aon.phase = .sleep → s.hold.armed = true → bit (aused s 0xA08) 4 = true → t.aon.phase = .arm ∧ bit t.aon.wake 2 = true)) := by
  have hnot : alarmDue s = false → alarmOp s = s := fun h => if_neg (by simp [h])
  refine ⟨settle (alarmOp s), rfl, fun h => by rw [hnot h], fun h => by rw [hnot (by rw [alarmDue, h]; rfl)], fun hphase hwf hdue => ?_⟩
  have hword : ard (alarmFlags s) 0xA0B = putFld (ard s 0xA0B) 16 2 2 := sget_sset _ _ _ _ hwf
  have haused : aused (alarmFlags s) 0xA08 = aused s 0xA08 := by
    rw [aused, aused, show ard (alarmFlags s) 0xA08 = ard s 0xA08 from sget_sset_ne _ _ _ _ _ (by decide)]
    rfl
  have hregs : (alarmOp s).aon.regs = (alarmFlags s).aon.regs := by
    rw [alarmOp, if_pos ⟨hphase, hdue⟩]
    dsimp only
    split
    · rfl
    · split <;> rfl
  have hard : ard (settle (alarmOp s)) 0xA0B = putFld (ard s 0xA0B) 16 2 2 := by
    rw [← hword, ard, ard]
    exact congrArg (fun m => sget regReset m 0xA0B) hregs
  refine ⟨?_, ?_, fun hsleep harmed hen => ?_⟩
  · rw [hard, bit_putFld _ _ _ _ (by decide), if_pos (by decide)]
    decide
  · rw [hard, bit_putFld _ _ _ _ (by decide), if_pos (by decide)]
    decide
  · have hop : alarmOp s = startWake (alarmFlags s) (wakeBit 2) := by
      rw [alarmOp, if_pos ⟨hphase, hdue⟩]
      exact if_pos ⟨hsleep, harmed, by rw [haused]; exact hen⟩
    rw [hop]
    refine ⟨rfl, ?_⟩
    have hor := or_and_self_right (if (alarmFlags s).hold.aborted then (alarmFlags s).aon.wake else 0) (wakeBit 2)
    have hbit : bit (((if (alarmFlags s).hold.aborted then (alarmFlags s).aon.wake else 0) ||| wakeBit 2) &&& wakeBit 2) 2 = true := by
      rw [hor]
      decide
    rw [bit_eq, BitVec.getLsbD_and, Bool.and_eq_true] at hbit
    exact (bit_eq _ _).trans hbit.1

/-- A wake source (05 R139). -/
theorem wakeEvent_starts (s : State) (src : WakeSource) :
    ∃ t, exec (.wakeEvent src) s = .next t ∧
      (s.aon.phase = .sleep → s.hold.armed = true → wakeEnabled s src = true → t.aon.phase = .arm ∧
        t.aon.wake &&& wakeCause src = wakeCause src) ∧
      (wakeEnabled s src = false → t = settle s) := by
  refine ⟨settle (wakeEventOp s src), rfl, fun hsleep harmed hen => ?_, fun hen => ?_⟩
  · rw [wakeEventOp, if_pos ⟨hsleep, harmed, hen⟩]
    exact ⟨rfl, or_and_self_right _ _⟩
  · rw [wakeEventOp, if_neg (by simp [hen])]

/-- The measurement of the supplies (05 R134). -/
theorem vmeasUpdate_stores (mv bv : Nat) (hup : coreUp s = true) (hs : Settled s) :
    ∃ t, exec (.vmeasUpdate mv bv) s = .next t ∧
      t.core.pwr.vmain = sat 4095 mv ∧ t.core.pwr.vbak = sat 8191 bv ∧
      bakLow t = decide (sat 8191 bv < 20 * auf s 0xA03 8 8) ∧ Keeps [.pwr, .irqRound] s t := by
  have hq : Quiet (vmeasOp s mv bv) := ⟨hs.quiet.trig, hs.quiet.vote, hs.quiet.rpg, hs.quiet.devrst⟩
  have hu : Keeps [.pwr] s (vmeasOp s mv bv) := fun k => by
    cases k
    case pwr => exact .inl (by decide)
    all_goals exact .inr rfl
  refine ⟨settle (vmeasOp s mv bv), instant_core _ hup, rfl, rfl, ?_, (hu.trans (hq.keeps_settle_doze hs.noNewPend hs.2.2.1)).mono (by decide)⟩
  rw [Nat.mul_comm]
  rfl

/-- Settles O33, command by command. -/
theorem sleepDozeAlarmAndWake : Obligations.SleepDozeAlarmAndWake := fun s hs =>
  ⟨fun _ _ _ hl hv => sleepRequest_written hl hs hv, fun w hup hmain => sleepEntry_stops w hup hmain, fun hup => sleepTimeout_lapses hup hs,
    fun hup => dozeEntry_sets hup hs, alarmFire_sets s, wakeEvent_starts s, fun mv bv hup => vmeasUpdate_stores mv bv hup hs⟩

end Sys2Proof.Machine
end

section
/-! PROOFS. Chapter 07: P0 owns the read-only fields of every FLW_CHn_STATUS, and is refused none of its own (04 R105). -/

set_option Elab.async false

namespace Sys2Proof.Machine

/-- Flow channel 0 is partition 1's. -/
def channelOfP1 : State := setR State.reset 0x211 1

/-- The state meets what the statement asks. -/
theorem channelOfP1_meets : Listens channelOfP1 0 ∧ Settled channelOfP1 ∧ channelOfP1.core.flw.drive.length = 6 ∧
    (0 : Part).val ≠ ownerN channelOfP1 (.flow (0 : Fin 6).val) := by
  unfold Settled IrqSettled Listens
  decide +kernel

/-- P0's write of 0 to the status word of the channel is not refused: it would change no field that P0 does not own. -/
theorem channelOfP1_accepts : writeRegs (frameOpen channelOfP1 0 0 1) 0 [(0x100B, 0)] = (frameOpen channelOfP1 0 0 1, 0x00) := by
  decide +kernel

/-- Refutes O39: its clause that a write of another partition to FLW_CHn_STATUS is DENIED leaves out P0, which owns the read-only
fields of the word (04 R102): its write of 0 changes no field of the channel's owner, and is not refused (04 R105). -/
theorem not_tachStretchAndStallEvents : ¬ Obligations.TachStretchAndStallEvents := by
  unfold Obligations.TachStretchAndStallEvents
  rintro ⟨-, -, -, -, hclear⟩
  obtain ⟨hl, hs, hdrive, howner⟩ := channelOfP1_meets
  obtain ⟨hdenied, -⟩ := hclear channelOfP1 0 0 0 0 hl hs hdrive
  have hok : exec (.stallClear 0 0 0 0) channelOfP1 = .next (framed channelOfP1 0 0 0x100B 1 0x00 id) :=
    instant_framed hl 0 channelOfP1_accepts
  have hsame := Host.Outcome.next.inj (hok.symm.trans (hdenied howner))
  have hlo := (PortOnly.frameOpen 0 channelOfP1 0 1).listens hl
  have hstatus := congrArg (fun t => (portOf t 0).lastStatus) hsame
  have hfirst : (portOf (framed channelOfP1 0 0 0x100B 1 0x00 id) 0).lastStatus = 0x00 := lastStatus_framed hlo
  have hsecond : (portOf (deniedAt channelOfP1 0 0 0x100B 1) 0).lastStatus = 0x20 := lastStatus_framed hlo
  exact absurd (hfirst.symm.trans (hstatus.trans hsecond)) (by decide)

end Sys2Proof.Machine
end

section
/-! PROOFS. Chapter 08: the key lock and stuck keys (08 R231, R234-R236). -/

set_option Elab.async false

namespace Sys2Proof.Machine

variable {s x : State} {p : Part} {v : Word} {seq : Byte}

theorem nth_mem {α : Type} {l : List α} {i : Nat} {d : α} (h : i < l.length) : nth l i d ∈ l := by
  simp [nth, List.getD, h]

/-- What each step of a run keeps, the run keeps. -/
theorem foldl_same {α β : Type} {f : State → α → State} {g : State → β} (hf : ∀ s a, g (f s a) = g s) (l : List α) :
    g (l.foldl f s) = g s := by
  induction l generalizing s with
  | nil => rfl
  | cons a l ih => exact (ih (s := f s a)).trans (hf s a)

section Posts

variable {typ subj flags data tick vel : Nat}

/-- A post changes neither a position nor what the core reads of the supplies. -/
@[simp] theorem keys_fifoPost {q : Nat} : (fifoPost s q typ subj flags data tick vel).core.key.keys = s.core.key.keys := by
  rw [fifoPost]
  split <;> rfl

@[simp] theorem pwr_fifoPost {q : Nat} : (fifoPost s q typ subj flags data tick vel).core.pwr = s.core.pwr := by
  rw [fifoPost]
  split <;> rfl

@[simp] theorem idleFrom_fifoPost {q : Nat} : (fifoPost s q typ subj flags data tick vel).core.key.idleFrom = s.core.key.idleFrom := by
  rw [fifoPost]
  split <;> rfl

@[simp] theorem length_fifoPost {q : Nat} : (fifoPost s q typ subj flags data tick vel).core.key.fifos.length = s.core.key.fifos.length := by
  rw [fifoPost]
  split <;> exact length_upd _ _ _

/-- A post leaves the other FIFOs. -/
theorem fifoPost_other {q r : Nat} (h : r ≠ q) :
    nth (fifoPost s q typ subj flags data tick vel).core.key.fifos r {} = nth s.core.key.fifos r {} := by
  rw [fifoPost]
  split <;> exact nth_upd_ne _ _ _ _ _ h

/-- A post with space appends its entry (08 R240, Table 8-5). -/
theorem fifoPost_space {q : Nat} (hq : q < s.core.key.fifos.length) (hspace : (nth s.core.key.fifos q {}).entries.length < 64) :
    ∃ e, nth (fifoPost s q typ subj flags data tick vel).core.key.fifos q {} =
        { nth s.core.key.fifos q {} with
          entries := (nth s.core.key.fifos q {}).entries ++ [e], nextSeq := (nth s.core.key.fifos q {}).nextSeq + 1, loss := false } ∧
      fld e.1 0 8 = typ % 256 := by
  have hfull : ¬(64 ≤ (nth s.core.key.fifos q {}).entries.length) := by omega
  rw [fifoPost, if_neg hfull]
  refine ⟨_, nth_upd_same _ _ _ _ hq, ?_⟩
  exact fld_mkW (by decide) (by simp) (by simp)

/-- A post to a full FIFO is dropped and counted (08 R242). -/
theorem fifoPost_full {q : Nat} (hq : q < s.core.key.fifos.length) (hfull : 64 ≤ (nth s.core.key.fifos q {}).entries.length) :
    nth (fifoPost s q typ subj flags data tick vel).core.key.fifos q {} =
      { nth s.core.key.fifos q {} with drops := sat 255 ((nth s.core.key.fifos q {}).drops + 1), loss := true } := by
  rw [fifoPost, if_pos hfull]
  exact nth_upd_same _ _ _ _ hq

end Posts

/-- The four posts of a lock event (08 R235). -/
def lockPosts (typ : Nat) (s : State) (l : List Nat) : State := l.foldl (fun s p => fifoPost s p typ 0 0 0 (stamp s) 0) s

theorem key_raiseAll (x : State) (n : Nat) : (raiseAll x n).core.key = x.core.key := rfl

theorem pwr_raiseAll (x : State) (n : Nat) : (raiseAll x n).core.pwr = x.core.pwr := rfl

theorem lockPost_eq (s : State) (typ : Nat) : lockPost s typ = raiseAll (lockPosts typ s (upto 4)) 26 := rfl

/-- A FIFO that is not of the list keeps its entries. -/
theorem lockPosts_other {typ r : Nat} {l : List Nat} (hr : r ∉ l) :
    nth (lockPosts typ s l).core.key.fifos r {} = nth s.core.key.fifos r {} := by
  induction l generalizing s with
  | nil => rfl
  | cons q l ih =>
    obtain ⟨hne, hl⟩ := not_or.mp (fun h => hr (List.mem_cons.mpr h))
    exact (ih (s := fifoPost s q typ 0 0 0 (stamp s) 0) hl).trans (fifoPost_other hne)

/-- Every FIFO of the list with space has the event as its last entry. -/
theorem lockPosts_told {typ q : Nat} {l : List Nat} (hq : q ∈ l) (hl : l.Nodup) (hlen : q < s.core.key.fifos.length)
    (hspace : (nth s.core.key.fifos q {}).entries.length < 64) :
    ∃ w ∈ (nth (lockPosts typ s l).core.key.fifos q {}).entries.getLast?, fld w.1 0 8 = typ % 256 := by
  induction l generalizing s with
  | nil => exact absurd hq List.not_mem_nil
  | cons r l ih =>
    obtain ⟨hr, hnodup⟩ := List.nodup_cons.mp hl
    rcases eq_or_ne q r with rfl | hne
    · obtain ⟨e, he, htyp⟩ := fifoPost_space (typ := typ) (subj := 0) (flags := 0) (data := 0) (tick := stamp s) (vel := 0) hlen hspace
      have hlast : nth (lockPosts typ s (q :: l)).core.key.fifos q {} = _ := (lockPosts_other hr).trans he
      refine ⟨e, ?_, htyp⟩
      rw [hlast]
      simp
    · have hsame : nth (fifoPost s r typ 0 0 0 (stamp s) 0).core.key.fifos q {} = nth s.core.key.fifos q {} := fifoPost_other hne
      exact ih (s := fifoPost s r typ 0 0 0 (stamp s) 0) ((List.mem_cons.mp hq).resolve_left hne) hnodup
        (by rw [length_fifoPost]; exact hlen) (by rw [hsame]; exact hspace)

/-- Every partition is told of a lock event: KEY_LOCK is pending, and its FIFO, where it has space, ends with the event. -/
theorem lockPost_told {typ : Nat} (htyp : typ < 256) (hlen : s.core.key.fifos.length = 4) (hirq : s.core.irq.length = 4) (q : Part) :
    bit (nth (lockPost s typ).core.irq q.val {}).pend 26 = true ∧
      ((nth s.core.key.fifos q.val {}).entries.length < 64 →
        ∃ w ∈ (nth (lockPost s typ).core.key.fifos q.val {}).entries.getLast?, fld w.1 0 8 = typ) := by
  constructor
  · have hgoes : Goes [.key, .irqPend] s (lockPost s typ) := (Goes.refl _ s).lockPost (by simp) (by simp)
    have hq : q.val < (lockPost s typ).core.irq.length := by
      rw [hgoes.irq_length (by decide), hirq]
      exact q.isLt
    rw [lockPost_eq] at hq ⊢
    exact raiseAll_pend _ 26 (by decide) _ (nth_mem hq)
  · intro hspace
    have htold := lockPosts_told (typ := typ) (l := upto 4) (List.mem_range.mpr q.isLt) List.nodup_range
      (by rw [hlen]; exact q.isLt) hspace
    rw [Nat.mod_eq_of_lt htyp] at htold
    rw [lockPost_eq, key_raiseAll]
    exact htold

/-- A lock event changes no position. -/
@[simp] theorem keys_lockPost {typ : Nat} : (lockPost s typ).core.key.keys = s.core.key.keys := by
  have hposts : ∀ l, (lockPosts typ s l).core.key.keys = s.core.key.keys :=
    fun l => foldl_same (g := fun s => s.core.key.keys) (fun _ _ => keys_fifoPost) l
  rw [lockPost_eq, key_raiseAll, hposts]

@[simp] theorem pwr_lockPost {typ : Nat} : (lockPost s typ).core.pwr = s.core.pwr := by
  have hposts : ∀ l, (lockPosts typ s l).core.pwr = s.core.pwr :=
    fun l => foldl_same (g := fun s => s.core.pwr) (fun _ _ => pwr_fifoPost) l
  rw [lockPost_eq, pwr_raiseAll, hposts]

@[simp] theorem idleFrom_lockPost {typ : Nat} : (lockPost s typ).core.key.idleFrom = s.core.key.idleFrom := by
  have hposts : ∀ l, (lockPosts typ s l).core.key.idleFrom = s.core.key.idleFrom :=
    fun l => foldl_same (g := fun s => s.core.key.idleFrom) (fun _ _ => idleFrom_fifoPost) l
  rw [lockPost_eq, key_raiseAll, hposts]

/-- A key set to release-before-report, and no other, where it is not UP (08 R231). -/
theorem keyOf_keyRbr (hwf : swf (fun _ => {}) s.core.key.keys = true) (pos q : Nat) :
    keyOf (keyRbr s pos) q = if q = pos ∧ (keyOf s pos).st ≠ .up then { keyOf s pos with rbr := true } else keyOf s q := by
  unfold keyRbr
  extract_lets k
  split
  next hup => rw [if_neg (fun h => h.2 hup)]
  next hup =>
    rcases eq_or_ne q pos with rfl | hne
    · rw [if_pos ⟨rfl, hup⟩]
      exact sget_sset _ _ _ _ hwf
    · rw [if_neg (fun h => hne h.1)]
      exact sget_sset_ne _ _ _ _ _ hne

theorem swf_keyRbr (pos : Nat) (hwf : swf (fun _ => {}) s.core.key.keys = true) :
    swf (fun _ => {}) (keyRbr s pos).core.key.keys = true := by
  unfold keyRbr
  extract_lets k
  split
  · exact hwf
  · exact swf_sset _ _ _ _ hwf

/-- The keys of a list that a lock holds until their release, but for those that are spared. -/
def holdKeys (spared : State → Nat → Bool) (s : State) (l : List Nat) : State :=
  l.foldl (fun s pos => if spared s pos then s else keyRbr s pos) s

/-- What each position is after the keys of a list are held: no state moves, a spared key is untouched, and every other of the list
that is not UP is held. -/
theorem keyOf_holdKeys {spared : State → Nat → Bool} (hsp : ∀ s a b, spared (keyRbr s a) b = spared s b) {l : List Nat}
    (hwf : swf (fun _ => {}) s.core.key.keys = true) (q : Nat) :
    (keyOf (holdKeys spared s l) q).st = (keyOf s q).st ∧
      (spared s q = true → keyOf (holdKeys spared s l) q = keyOf s q) ∧
      (spared s q = false → (keyOf s q).st ≠ .up → q ∈ l ∨ (keyOf s q).rbr = true → (keyOf (holdKeys spared s l) q).rbr = true) := by
  induction l generalizing s with
  | nil => exact ⟨rfl, fun _ => rfl, fun _ _ h => h.resolve_left List.not_mem_nil⟩
  | cons pos l ih =>
    by_cases hpos : spared s pos = true
    · have hstep : holdKeys spared s (pos :: l) = holdKeys spared s l := by simp [holdKeys, hpos]
      rw [hstep]
      refine ⟨(ih hwf).1, (ih hwf).2.1, fun hq hup h => (ih hwf).2.2 hq hup ?_⟩
      rcases h with h | h
      · rcases List.mem_cons.mp h with rfl | h
        · exact absurd hpos (by simp [hq])
        · exact .inl h
      · exact .inr h
    · have hstep : holdKeys spared s (pos :: l) = holdKeys spared (keyRbr s pos) l := by simp [holdKeys, hpos]
      have hkey := keyOf_keyRbr hwf pos q
      obtain ⟨hst, hkeep, hheld⟩ := ih (s := keyRbr s pos) (swf_keyRbr pos hwf)
      rw [hsp] at hkeep hheld
      rw [hstep]
      have hst' : (keyOf (keyRbr s pos) q).st = (keyOf s q).st := by
        rw [hkey]
        split
        next h => rw [h.1]
        next => rfl
      refine ⟨hst.trans hst', fun hq => (hkeep hq).trans ?_, fun hq hup h => hheld hq (by rw [hst']; exact hup) ?_⟩
      · rw [hkey, if_neg]
        rintro ⟨rfl, -⟩
        exact hpos hq
      · rcases h with h | h
        · rcases List.mem_cons.mp h with rfl | h
          · rw [hkey, if_pos ⟨rfl, hup⟩]
            exact .inr rfl
          · exact .inl h
        · refine .inr ?_
          rw [hkey]
          split
          · rfl
          · exact h

/-- A position that is not UP is listed. -/
theorem mem_heldKeys {q : Nat} (hup : (keyOf s q).st ≠ .up) : q ∈ heldKeys s := by
  by_contra hno
  refine hup ?_
  rw [keyOf, sget_of_forall_ne fun e he heq => hno (List.mem_map.mpr ⟨e, he, heq⟩)]

theorem pwr_keyRbr (pos : Nat) : (keyRbr s pos).core.pwr = s.core.pwr := by
  unfold keyRbr
  extract_lets k
  split <;> rfl

theorem pwr_holdKeys (spared : State → Nat → Bool) (l : List Nat) : (holdKeys spared s l).core.pwr = s.core.pwr :=
  foldl_same (g := fun s => s.core.pwr) (fun s a => by
    split
    · rfl
    · exact pwr_keyRbr a) l

theorem goes_holdKeys (spared : State → Nat → Bool) (l : List Nat) : Goes [.key] s (holdKeys spared s l) :=
  (Goes.refl _ s).foldl fun _ _ h => .cond h (h.keyRbr (by simp))

theorem lockOp_eq (hopen : keyLocked s = false) :
    lockOp s = lockPost (matchIdle (holdKeys keyAlways (setLocked s true) (heldKeys s))) 0x20 := by
  rw [lockOp, if_neg (by simp [hopen])]
  rfl

/-- The keys that an unlock holds: every one that is not UP. -/
def unlockHeld (s : State) : State := holdKeys (fun _ _ => false) (setLocked s false) (heldKeys s)

/-- The matcher idle, and the idle time started again. -/
def idleAgain (y : State) : State := modK (matchIdle y) fun b => { b with idleFrom := now y }

theorem idleAgain_pwr (y : State) : (idleAgain y).core.pwr = y.core.pwr := rfl

theorem idleAgain_fifos (y : State) : (idleAgain y).core.key.fifos = y.core.key.fifos := rfl

theorem idleAgain_keys (y : State) : (idleAgain y).core.key.keys = y.core.key.keys := rfl

theorem keyLocked_idleAgain (y : State) : keyLocked (idleAgain y) = keyLocked y := rfl

theorem unlockOp_eq (hlocked : keyLocked s = true) :
    unlockOp s = lockPost (idleAgain (unlockHeld s)) 0x21 := by
  rw [unlockOp, if_pos hlocked]
  have hfold : (heldKeys s).foldl keyRbr (setLocked s false) = unlockHeld s := by simp [unlockHeld, holdKeys]
  show lockPost (idleAgain ((heldKeys s).foldl keyRbr (setLocked s false))) 0x21 = _
  rw [hfold]

/-- A spared key is judged by the map byte, which no hold touches. -/
theorem keyAlways_keyRbr (s : State) (a b : Nat) : keyAlways (keyRbr s a) b = keyAlways s b := by
  unfold keyRbr
  extract_lets k
  split <;> rfl

/-- A write of the lock word by P0. -/
theorem exec_lockCtl (hl : Listens s 0) :
    instant (whenCore fun s => writeFrame s 0 seq 0x1278 [v]) s = .next (framed s 0 seq 0x1278 1 0x00 fun x => lockCtlOp x v) := by
  refine (instant_wo (v := v) (seq := seq) (r := { fs := [fWo 3] }) (a := 0x1278) (f := fun x => lockCtlOp x v) hl rfl
    (by unfold ordinaryAddr; decide) (by simp [fWo]) (by simp [fWo, writerOf]) (fun _ => rfl) fun x => ?_).trans
    (by simp only [nfcGoesOn_of_not (a := 0x1278) (v := v) rfl])
  have hgoes : Goes [.hold, .irqPend, .key] x (lockCtlOp x v) :=
    .cond ((Goes.refl _ x).unlockOp (by simp) (by simp) (by simp)) (.cond ((Goes.refl _ x).lockOp (by simp) (by simp) (by simp)) (.refl _ x))
  rw [hgoes.same .seq (by decide)]
  exact Nat.le_succ _

/-- Every partition has been told of a lock event. -/
def told (s t : State) (typ : Nat) : Prop :=
  ∀ q : Part, bit (nth t.core.irq q.val {}).pend 26 = true ∧
    ((nth s.core.key.fifos q.val {}).entries.length < 64 →
      ∃ w ∈ (nth t.core.key.fifos q.val {}).entries.getLast?, fld w.1 0 8 = typ)

/-- What the frame of a lock event leaves of it. -/
theorem told_framed {typ : Nat} {f : State → State} (htyp : typ < 256) (hl : Listens (f (frameOpen s 0 seq 1)) 0)
    (hirq : x.core.irq.length = 4) (hfifo : x.core.key.fifos.length = 4) (hsame : x.core.key.fifos = s.core.key.fifos)
    (hf : f (frameOpen s 0 seq 1) = lockPost x typ) : told s (framed s 0 seq 0x1278 1 0x00 f) typ := by
  intro q
  have hframe := goes_framed (a := 0x1278) (code := 0x00) hl
  obtain ⟨hpend, hlast⟩ := lockPost_told htyp hfifo hirq q
  rw [← hf] at hpend hlast
  refine ⟨hframe.pend_of (by decide) hpend, fun hspace => ?_⟩
  rw [hframe.same .key (by decide)]
  exact hlast (by rw [hsame]; exact hspace)

/-- What the frame of a lock event leaves: y is the state whose positions are held, z the one whose event is posted. -/
theorem lockEvent_framed {typ : Nat} {y z : State} (htyp : typ < 256) (hl : Listens s 0) (hirq : s.core.irq.length = 4)
    (hfifo : s.core.key.fifos.length = 4) (hop : lockCtlOp (frameOpen s 0 seq 1) v = lockPost z typ)
    (hy : Goes [.hold, .key] (frameOpen s 0 seq 1) z) (hpwr : z.core.pwr = (frameOpen s 0 seq 1).core.pwr)
    (hkeep : z.core.key.fifos = (frameOpen s 0 seq 1).core.key.fifos) (hlocked : keyLocked z = keyLocked y)
    (hkeys : z.core.key.keys = y.core.key.keys) :
    ∃ t, instant (whenCore fun s => writeFrame s 0 seq 0x1278 [v]) s = .next t ∧ keyLocked t = keyLocked y ∧ told s t typ ∧
      (portOf t 0).lastStatus = 0x00 ∧ t.core.regs = s.core.regs ∧ t.core.key.idleFrom = z.core.key.idleFrom ∧
      ∀ pos, keyOf t pos = keyOf y pos := by
  have hport := PortOnly.frameOpen 0 s seq 1
  have hlo := hport.listens hl
  have hgoes : Goes [.hold, .irqPend, .key] (frameOpen s 0 seq 1) (lockCtlOp (frameOpen s 0 seq 1) v) := by
    rw [hop]
    exact (hy.mono (by simp)).lockPost (by simp) (by simp)
  have hdev : (lockCtlOp (frameOpen s 0 seq 1) v).core.pwr.devrst = false := by
    rw [hop, pwr_lockPost, hpwr]
    exact hlo.noDeviceReset
  have hlt : Listens (lockCtlOp (frameOpen s 0 seq 1) v) 0 := hgoes.listens (by decide) hdev hlo
  have hframe := goes_framed (f := fun x => lockCtlOp x v) (a := 0x1278) (code := 0x00) hlt
  have hkey := hframe.same .key (by decide)
  have hpost : Goes [.irqPend, .key] z (lockPost z typ) := (Goes.refl _ z).lockPost (by simp) (by simp)
  refine ⟨_, exec_lockCtl hl, ?_, told_framed (x := z) (f := fun x => lockCtlOp x v) htyp hlt ?_ ?_ ?_ hop, lastStatus_framed hlt, ?_, ?_, fun pos => ?_⟩
  · rw [keyLocked, hframe.same .hold (by decide)]
    show (lockCtlOp (frameOpen s 0 seq 1) v).hold.locked = _
    rw [hop, hpost.same .hold (by decide)]
    exact hlocked
  · rw [hy.irq_length (by decide), hport.same fun x => x.core.irq.length]
    exact hirq
  · rw [hkeep, hport.same fun x => x.core.key.fifos]
    exact hfifo
  · exact hkeep.trans (hport.same fun x => x.core.key.fifos)
  · rw [hframe.same .regs (by decide)]
    exact (hgoes.same .regs (by decide)).trans (hport.same fun x => x.core.regs)
  · rw [hkey]
    show (lockCtlOp (frameOpen s 0 seq 1) v).core.key.idleFrom = _
    rw [hop, idleFrom_lockPost]
  · have hkeys' : (framed s 0 seq 0x1278 1 0x00 fun x => lockCtlOp x v).core.key.keys = y.core.key.keys := by
      rw [hkey]
      show (lockCtlOp (frameOpen s 0 seq 1) v).core.key.keys = _
      rw [hop, keys_lockPost, hkeys]
    rw [keyOf, hkeys']
    rfl

/-- The FIFOs stay where keys are held. -/
theorem fifos_holdKeys (spared : State → Nat → Bool) (l : List Nat) : (holdKeys spared s l).core.key.fifos = s.core.key.fifos :=
  foldl_same (g := fun s => s.core.key.fifos) (fun s a => by
    split
    · rfl
    · unfold keyRbr
      extract_lets k
      split <;> rfl) l

/-- P0's lock of an unlocked device (08 R235). -/
theorem keyLock_locks (hl : Listens s 0) (hirq : s.core.irq.length = 4) (hfifo : s.core.key.fifos.length = 4)
    (hwf : swf (fun _ => {}) s.core.key.keys = true) (hv0 : bit v 0 = true) (hv1 : bit v 1 = false) (hopen : keyLocked s = false) :
    ∃ t, exec (.keyLock 0 seq v) s = .next t ∧ keyLocked t = true ∧ told s t 0x20 ∧
      (portOf t 0).lastStatus = 0x00 ∧ t.core.regs = s.core.regs ∧
      (∀ pos : Fin 160, (keyOf t pos.val).st = (keyOf s pos.val).st ∧
        (keyAlways s pos.val = false → (keyOf s pos.val).st ≠ .up → (keyOf t pos.val).rbr = true) ∧
        (keyAlways s pos.val = true → keyOf t pos.val = keyOf s pos.val)) := by
  have hport := PortOnly.frameOpen 0 s seq 1
  let x := frameOpen s 0 seq 1
  let y := holdKeys keyAlways (setLocked x true) (heldKeys x)
  have hop : lockCtlOp x v = lockPost (matchIdle y) 0x20 := by
    rw [lockCtlOp, if_neg (by simp [hv1]), if_pos hv0]
    exact lockOp_eq ((hport.same keyLocked).trans hopen)
  have hy : Goes [.hold, .key] x (matchIdle y) :=
    (((Goes.refl [.hold, .key] x).setLocked (by simp)).trans ((goes_holdKeys keyAlways (heldKeys x)).mono (by simp))).matchIdle (by simp)
  obtain ⟨t, ht, hlocked, htold, hstatus, hregs, -, hkeys⟩ := lockEvent_framed (y := y) (by decide) hl hirq hfifo hop hy
    (pwr_holdKeys _ _) (fifos_holdKeys _ _) rfl rfl
  have hhold : y.hold = (setLocked x true).hold := (goes_holdKeys keyAlways (heldKeys x)).same .hold (by decide)
  refine ⟨t, ht, hlocked.trans (by rw [keyLocked, hhold]; rfl), htold, hstatus, hregs, fun pos => ?_⟩
  have hsame : keyOf (setLocked x true) pos.val = keyOf s pos.val := hport.same fun x => keyOf x pos.val
  have halways : keyAlways (setLocked x true) pos.val = keyAlways s pos.val := hport.same fun x => keyAlways x pos.val
  obtain ⟨hst, hspared, hheld⟩ := keyOf_holdKeys keyAlways_keyRbr (s := setLocked x true) (l := heldKeys x)
    ((hport.same fun x => swf (fun _ => ({} : KeySt)) x.core.key.keys).trans hwf) pos.val
  rw [halways] at hspared hheld
  rw [hsame] at hst hspared hheld
  rw [hkeys]
  refine ⟨hst, fun hal hup => hheld hal hup (.inl ?_), hspared⟩
  refine mem_heldKeys (s := x) ?_
  rw [show keyOf x pos.val = keyOf s pos.val from hsame]
  exact hup

/-- P0's unlock of a locked device (08 R235). -/
theorem keyUnlock_unlocks (hl : Listens s 0) (hirq : s.core.irq.length = 4) (hfifo : s.core.key.fifos.length = 4)
    (hwf : swf (fun _ => {}) s.core.key.keys = true) (hv1 : bit v 1 = true) (hlocked : keyLocked s = true) :
    ∃ t, exec (.keyUnlock 0 seq v) s = .next t ∧ keyLocked t = false ∧ told s t 0x21 ∧
      (portOf t 0).lastStatus = 0x00 ∧ t.core.key.idleFrom = now s ∧ t.core.regs = s.core.regs ∧
      (∀ pos : Fin 160, (keyOf t pos.val).st = (keyOf s pos.val).st ∧
        ((keyOf s pos.val).st ≠ .up → (keyOf t pos.val).rbr = true)) := by
  have hport := PortOnly.frameOpen 0 s seq 1
  let x := frameOpen s 0 seq 1
  let y := unlockHeld x
  have hop : lockCtlOp x v = lockPost (idleAgain y) 0x21 := by
    rw [lockCtlOp, if_pos hv1]
    exact unlockOp_eq ((hport.same keyLocked).trans hlocked)
  have hlockedGoes : Goes [.hold, .key] x (setLocked x false) := (Goes.refl [.hold, .key] x).setLocked (by simp)
  have hkeyGoes : Goes [.key] (setLocked x false) y := goes_holdKeys (fun _ _ => false) (heldKeys x)
  have hheldGoes : Goes [.hold, .key] x y := hlockedGoes.trans (hkeyGoes.mono (by simp))
  have hpwr : y.core.pwr = (setLocked x false).core.pwr := pwr_holdKeys (fun _ _ => false) (heldKeys x)
  have hfifos : y.core.key.fifos = (setLocked x false).core.key.fifos := fifos_holdKeys (fun _ _ => false) (heldKeys x)
  have hy : Goes [.hold, .key] x (idleAgain y) := (hheldGoes.matchIdle (by simp)).modK (by simp)
  obtain ⟨t, ht, hunlocked, htold, hstatus, hregs, hidle, hkeys⟩ := lockEvent_framed (y := y) (by decide) hl hirq hfifo hop hy
    ((idleAgain_pwr y).trans hpwr) ((idleAgain_fifos y).trans hfifos) (keyLocked_idleAgain y) (idleAgain_keys y)
  have hhold : y.hold = (setLocked x false).hold := hkeyGoes.same .hold (by decide)
  have hnow : now y = now s := by
    rw [now, hheldGoes.same .aon (by decide)]
    exact hport.same now
  refine ⟨t, ht, hunlocked.trans (by rw [keyLocked, hhold]; rfl), htold, hstatus, hidle.trans hnow, hregs, fun pos => ?_⟩
  have hsame : keyOf (setLocked x false) pos.val = keyOf s pos.val := hport.same fun x => keyOf x pos.val
  obtain ⟨hst, -, hheld⟩ := keyOf_holdKeys (spared := fun _ _ => false) (fun _ _ _ => rfl) (s := setLocked x false) (l := heldKeys x)
    ((hport.same fun x => swf (fun _ => ({} : KeySt)) x.core.key.keys).trans hwf) pos.val
  rw [hsame] at hst hheld
  rw [hkeys]
  refine ⟨hst, fun hup => hheld rfl hup (.inl (mem_heldKeys (s := x) ?_))⟩
  rw [show keyOf x pos.val = keyOf s pos.val from hsame]
  exact hup

/-- A lock or unlock of a device that is so already changes nothing but the port. -/
theorem exec_lockCtl_same (hl : Listens s 0) (hsame : lockCtlOp (frameOpen s 0 seq 1) v = frameOpen s 0 seq 1) :
    instant (whenCore fun s => writeFrame s 0 seq 0x1278 [v]) s = .next (framed s 0 seq 0x1278 1 0x00 id) := by
  rw [exec_lockCtl hl, framed, framed, hsame]
  rfl

/-- The automatic lock (08 R235). -/
theorem autolock_locks (hup : coreUp s = true) :
    (uf s 0x127A 8 8 = 0 ∨ now s - s.core.key.idleFrom < uf s 0x127A 8 8 * 327680 ∨ keyLocked s = true → exec .autolock s = .next (settle s)) ∧
    (uf s 0x127A 8 8 ≠ 0 → uf s 0x127A 8 8 * 327680 ≤ now s - s.core.key.idleFrom →
      ∃ t, exec .autolock s = .next t ∧ keyLocked t = true ∧ t.core.regs = s.core.regs) := by
  have hexec : exec .autolock s = .next (settle (if autolockDue s then lockOp s else s)) := instant_core _ hup
  have hdue : autolockDue s = true ↔ uf s 0x127A 8 8 ≠ 0 ∧ uf s 0x127A 8 8 * 327680 ≤ now s - s.core.key.idleFrom := by
    simp only [autolockDue, Bool.and_eq_true, bne_iff_ne, decide_eq_true_eq, Nat.mul_assoc, Nat.reduceMul]
  have hlock : keyLocked s = true → lockOp s = s := fun h => if_pos h
  refine ⟨fun h => ?_, fun hne hle => ⟨_, hexec, ?_⟩⟩
  · rw [hexec]
    split
    next hd =>
      obtain ⟨hne, hle⟩ := hdue.mp hd
      rw [hlock ((h.resolve_left hne).resolve_left (by omega))]
    next => rfl
  · rw [if_pos (hdue.mpr ⟨hne, hle⟩)]
    have hgoes : Goes [.hold, .irqPend, .key] s (lockOp s) := (Goes.refl _ s).lockOp (by simp) (by simp) (by simp)
    refine ⟨?_, hgoes.same .regs (by decide)⟩
    show (lockOp s).hold.locked = true
    cases hl : keyLocked s with
    | true =>
      rw [hlock hl]
      exact hl
    | false =>
      rw [lockOp_eq hl]
      have hpost : ∀ z, (lockPost z 0x20).hold = z.hold := fun z =>
        ((Goes.refl [.irqPend, .key] z).lockPost (by simp) (by simp)).same .hold (by decide)
      rw [hpost]
      exact congrArg AonHold.locked ((goes_holdKeys keyAlways (heldKeys s)).same .hold (by decide))

/-- A key that is down too long (08 R234). -/
theorem keyStuck_masks (pos : Nat) (hup : coreUp s = true) (hwf : swf (fun _ => {}) s.core.key.keys = true) :
    let k := keyOf s pos
    ((160 ≤ pos ∨ k.st = .up ∨ k.st = .pressPending ∨ k.masked = true) → exec (.keyStuck pos) s = .next (settle s)) ∧
    (pos < 160 → (k.st = .down ∨ k.st = .releasePending) → k.masked = false →
      ∃ t, exec (.keyStuck pos) s = .next t ∧ keyOf t pos = { k with masked := true } ∧ (∀ q, q ≠ pos → keyOf t q = keyOf s q)) := by
  intro k
  have hexec : exec (.keyStuck pos) s = .next (settle (keyStuckOp s pos)) := instant_core _ hup
  refine ⟨fun h => ?_, fun hpos hst hm => ?_⟩
  · have hno : ¬(pos < 160 ∧ ((keyOf s pos).st = .down ∨ (keyOf s pos).st = .releasePending) ∧ (keyOf s pos).masked = false) := by
      rintro ⟨hlt, hst, hm⟩
      rcases h with h | h | h | h
      · omega
      · rcases hst with e | e <;> exact absurd (h.symm.trans e) (by decide)
      · rcases hst with e | e <;> exact absurd (h.symm.trans e) (by decide)
      · exact absurd (h.symm.trans hm) (by decide)
    rw [hexec, keyStuckOp, if_neg hno]
  · have hkeys : (keyStuckOp s pos).core.key.keys = sset (fun _ => {}) s.core.key.keys pos { k with masked := true } := by
      rw [keyStuckOp, if_pos ⟨hpos, hst, hm⟩, whenS]
      split
      · rw [keyPost, keyFwd]
        split
        · exact keys_fifoPost
        · exact keys_fifoPost
      · rfl
    refine ⟨_, hexec, ?_, fun q hq => ?_⟩
    · show sget _ (keyStuckOp s pos).core.key.keys pos = _
      rw [hkeys]
      exact sget_sset _ _ _ _ hwf
    · show sget _ (keyStuckOp s pos).core.key.keys q = _
      rw [hkeys]
      exact sget_sset_ne _ _ _ _ _ hq

/-- Settles O43: a lock event holds the keys one by one and is posted to each FIFO. -/
theorem lockAndUnlockOfTheKeys : Obligations.LockAndUnlockOfTheKeys := by
  refine ⟨fun s p seq v hl hirq hfifo hwf => ⟨fun hp => ?_, fun hp hv0 hv1 => ?_, fun hp hv1 => ?_⟩, fun s hup => autolock_locks hup,
    fun s pos hup hwf => keyStuck_masks pos hup hwf⟩
  · have hdenied : instant (whenCore fun s => writeFrame s p seq 0x1278 [v]) s = .next (deniedAt s p seq 0x1278 1) :=
      instant_steward_denied hl hp rfl (by simp) (by simp [fWo]) rfl
    exact ⟨hdenied, hdenied⟩
  · subst hp
    have hsame := (PortOnly.frameOpen 0 s seq 1).same keyLocked
    refine ⟨fun hlocked => exec_lockCtl_same hl ?_, fun hopen => keyLock_locks hl hirq hfifo hwf hv0 hv1 hopen⟩
    rw [lockCtlOp, if_neg (by simp [hv1]), if_pos hv0, lockOp, if_pos (hsame.trans hlocked)]
  · subst hp
    have hsame := (PortOnly.frameOpen 0 s seq 1).same keyLocked
    refine ⟨fun hopen => exec_lockCtl_same hl ?_, fun hlocked => keyUnlock_unlocks hl hirq hfifo hwf hv1 hlocked⟩
    rw [lockCtlOp, if_pos hv1, unlockOp, if_neg (by simp [hsame, hopen])]

end Sys2Proof.Machine
end

section
/-! PROOFS. Chapter 08: encoders, probe columns and the event FIFOs (08 R223-R227, R238-R242). -/

set_option Elab.async false

namespace Sys2Proof.Machine

variable {s x : State} {p : Part} {v : Word} {seq : Byte}

/-- A change of KEY alone, and the end of a quiet instant. -/
theorem keeps_settle_modK (hs : Settled s) (f : KeyBlk → KeyBlk) : Keeps [.key, .irqRound] s (settle (modK s f)) := by
  have hq : Quiet (modK s f) := ⟨hs.quiet.trig, hs.quiet.vote, hs.quiet.rpg, hs.quiet.devrst⟩
  have hu : Keeps [.key] s (modK s f) := fun k => by
    cases k
    case key => exact .inl (by decide)
    all_goals exact .inr rfl
  exact (hu.trans (hq.keeps_settle_doze hs.noNewPend hs.2.2.1)).mono (by decide)

/-- Gray steps: one forward is a COUNT up in the forward direction and down in the other (08 R238). -/
theorem encoderEdge_moves (n : Fin 3) (a b : Bool) (hup : coreUp s = true) (hs : Settled s) (hlen : s.core.key.encs.length = 3) :
    let e := nth s.core.key.encs n.val {}
    let gray := fun (x y : Bool) => if x then (if y then 2 else 3) else (if y then 1 else 0)
    let d := (gray a b + 4 - gray e.a e.b) % 4
    let fwd := bit (used s (0x1290 + 4 * n.val)) 3 = false
    ∃ t, exec (.encoderEdge n a b) s = .next t ∧ Keeps [.key, .irqRound] s t ∧
      (∀ k : Fin 3, k ≠ n → nth t.core.key.encs k.val {} = nth s.core.key.encs k.val {}) ∧
      nth t.core.key.encs n.val {} =
        (if d = 0 then { e with a := a, b := b }
         else if d = 2 then { e with a := a, b := b, errors := sat 65535 (e.errors + 1) }
         else if (d = 1 ∧ fwd) ∨ (d = 3 ∧ ¬fwd) then { e with a := a, b := b, count := e.count + 1 }
         else { e with a := a, b := b, count := e.count - 1 }) := by
  extract_lets e gray d fwd
  refine ⟨settle (encEdgeOp s n.val a b), instant_core _ hup, keeps_settle_modK hs _, fun k hk => ?_, ?_⟩
  · exact nth_upd_ne _ _ _ _ _ fun h => hk (Fin.ext h)
  · refine (nth_upd_same _ _ _ _ (by rw [hlen]; exact n.isLt)).trans ?_
    show (if d = 0 then { e with a := a, b := b }
      else if d = 2 then { e with a := a, b := b, errors := sat 65535 (e.errors + 1) }
      else if ((d = 1 : Bool) != bit (used s (0x1290 + 4 * n.val)) 3) = true then { e with a := a, b := b, count := e.count + 1 }
      else { e with a := a, b := b, count := e.count - 1 }) = _
    have hlt : d < 4 := Nat.mod_lt _ (by decide)
    split
    · rfl
    split
    · rfl
    next h0 h2 =>
      have hiff : ((d = 1 : Bool) != bit (used s (0x1290 + 4 * n.val)) 3) = true ↔ (d = 1 ∧ fwd) ∨ (d = 3 ∧ ¬fwd) := by
        show _ ↔ (d = 1 ∧ bit (used s (0x1290 + 4 * n.val)) 3 = false) ∨ (d = 3 ∧ ¬(bit (used s (0x1290 + 4 * n.val)) 3 = false))
        have hd : d = 1 ∨ d = 3 := by omega
        rcases hd with hd | hd <;> cases bit (used s (0x1290 + 4 * n.val)) 3 <;> simp [hd]
      simp only [hiff]

/-- A rounded quotient lies within one of what it rounds (08 R239). -/
theorem velOf_near {win up : Nat} (hwin : 0 < win) (change : Int) :
    -32767 ≤ velOf win change up ∧ velOf win change up ≤ 32767 ∧
      (-32767 < velOf win change up → velOf win change up < 32767 → (velOf win change up * win - change * 100).natAbs < win) := by
  generalize hr : (((win - 1) * (up % 2) : Nat) : Int) = r
  have hr0 : 0 ≤ r := by omega
  have hr1 : r < win := by
    have hup : up % 2 ≤ 1 := by omega
    have := Nat.mul_le_mul_left (win - 1) hup
    omega
  have hwin' : (0 : Int) < win := by exact_mod_cast hwin
  have hdiv := Int.mul_ediv_add_emod (change * 100 + r) win
  have hlo := Int.emod_nonneg (change * 100 + r) hwin'.ne'
  have hhi := Int.emod_lt_of_pos (change * 100 + r) hwin'
  rw [velOf, clampI, hr]
  generalize (change * 100 + r) / (win : Int) = q at hdiv ⊢
  generalize (change * 100 + r) % (win : Int) = m at hdiv hlo hhi
  have hmul : q * (win : Int) = (win : Int) * q := Int.mul_comm _ _
  split
  · exact ⟨by omega, by omega, fun h => absurd h (lt_irrefl _)⟩
  split
  · exact ⟨by omega, by omega, fun _ h => absurd h (lt_irrefl _)⟩
  · refine ⟨by omega, by omega, fun _ _ => ?_⟩
    rw [hmul]
    omega

/-- An element of a list whose elements change by their place. -/
theorem nth_zipIdx_map {α : Type} {f : α × Nat → α} {l : List α} {i : Nat} {d : α} (hi : i < l.length) :
    nth (l.zipIdx.map f) i d = f (nth l i d, i) :=
  nth_map_zipIdx (fun a i => f (a, i)) l hi d d

/-- A velocity update moves no COUNT (08 R239). -/
theorem encVelocityUpdate_moves (hup : coreUp s = true) (hs : Settled s) (hlen : s.core.key.encs.length = 3) :
    ∃ t, exec .encVelocityUpdate s = .next t ∧ Keeps [.key, .irqRound] s t ∧
      (∀ n : Fin 3, let e := nth s.core.key.encs n.val {}
        let x := nth t.core.key.encs n.val {}
        let win := if uf s (0x1290 + 4 * n.val) 16 8 = 0 then 1 else uf s (0x1290 + 4 * n.val) 16 8
        let change := sgn 16 (e.count - nth e.hist (win - 1) 0).toNat
        x.count = e.count ∧ x.errors = e.errors ∧ x.hist = (e.count :: e.hist).take 256 ∧ -32767 ≤ x.vel ∧ x.vel ≤ 32767 ∧
        (-32767 < x.vel → x.vel < 32767 → (x.vel * win - change * 100).natAbs < win)) := by
  refine ⟨settle (encVelOp s), instant_core _ hup, keeps_settle_modK hs _, fun n => ?_⟩
  extract_lets e x win change
  have hwin : nmax 1 (uf s (0x1290 + 4 * n.val) 16 8) = win := by
    show nmax 1 (uf s (0x1290 + 4 * n.val) 16 8) = if uf s (0x1290 + 4 * n.val) 16 8 = 0 then 1 else uf s (0x1290 + 4 * n.val) 16 8
    rw [nmax]
    split <;> split <;> omega
  have hpos : 0 < win := by
    rw [← hwin, nmax]
    split <;> omega
  have hx : x = { e with vel := velOf win change (free s n.val), hist := (e.count :: e.hist).take 256 } := by
    refine (nth_zipIdx_map (by rw [hlen]; exact n.isLt)).trans ?_
    show (let win := nmax 1 (uf s (0x1290 + 4 * n.val) 16 8)
      { e with vel := velOf win (sgn 16 (e.count - nth e.hist (win - 1) 0).toNat) (free s n.val), hist := (e.count :: e.hist).take 256 }) = _
    rw [hwin]
  rw [hx]
  exact ⟨rfl, rfl, rfl, velOf_near hpos change⟩

/-- The wet state of FILM and of DRY (08 R227). -/
theorem wetState_film {sus film hyst st leak : Nat} : (film ≤ leak → wetState sus film hyst st leak = 2) ∧
    (leak < sus - hyst → leak < film → wetState sus film hyst st leak = 0) := by
  refine ⟨fun h => if_pos h, fun h1 h2 => ?_⟩
  rw [wetState, if_neg (by omega), if_pos h1]

/-- A column is busy: a key of it is closed, not UP, or masked. -/
def columnBusy (s : State) (c : Nat) : Bool :=
  (upto 10).any fun r => bit s.core.key.closed (16 * r + c) || (keyOf s (16 * r + c)).st != .up || (keyOf s (16 * r + c)).masked

/-- What a probe slot finds of its column (08 R225-R227). -/
def probedColumn (s : State) (iA iB : Int) (c : Nat) : ColSt :=
  let old := nth s.core.key.cols c {}
  let up : Int := (free s 0 % 2 : Nat)
  let comm := (iA + iB + up) / 2
  if columnBusy s c then { old with stale := true }
  else if 4095 < iA.natAbs ∨ 4095 < iB.natAbs then { old with stale := false, saturated := true }
  else
    let leak := ((iA - iB + up) / 2).toNat
    { leak := leak
      common := if -2048 ≤ comm ∧ comm ≤ 2047 then comm else sgn 12 (free s 1)
      stale := false, saturated := false
      state := wetState (uf s 0x1220 0 12) (uf s 0x1220 16 12) (uf s 0x1221 0 12) old.state leak }

/-- The record of a column and the step of the probe. -/
def probeStepped (s : State) (iA iB : Int) (c : Nat) : State :=
  let next := (bitsOf (probeSet s) 16).filter (fun x => decide (c < x))
  modK s fun b => { b with
    cols := upd b.cols c (fun _ => probedColumn s iA iB c)
    probe := next.head?
    grantLeft := b.grantLeft - 60
    probes := if next.isEmpty then b.probes + 1 else b.probes }

/-- A change of a column's wet state is reported to the owners of the groups that use it. -/
def wetReported (c : Nat) (s : State) : State :=
  (upto 8).foldl (fun s g => if bit (columnSet s g) c then raiseOwner s (.key g) 25 else s) s

theorem probeColOp_some {iA iB : Int} {c : Nat} (hslot : probeSlot s = true) (hprobe : s.core.key.probe = some c) :
    probeColOp s iA iB = if (probedColumn s iA iB c).state = (nth s.core.key.cols c {}).state then probeStepped s iA iB c
      else wetReported c (probeStepped s iA iB c) := by
  have hpick : (if probeSlot s = true then s.core.key.probe else none) = some c := by rw [if_pos hslot, hprobe]
  rw [probeColOp, hpick]
  rfl

theorem probeColOp_none {iA iB : Int} (h : s.core.key.probe = none ∨ probeSlot s = false) : probeColOp s iA iB = s := by
  have hpick : (if probeSlot s = true then s.core.key.probe else none) = none := by
    rcases h with h | h
    · rw [h, ite_self]
    · rw [h, if_neg Bool.false_ne_true]
  rw [probeColOp, hpick]

/-- What a report of a wet state leaves alone: everything but the pending bits. -/
theorem wetReported_same {β : Type} {g : State → β} (hg : ∀ (x : State) (o n : Nat), g (raise x o n) = g x) (c : Nat) (x : State) :
    g (wetReported c x) = g x :=
  foldl_same (g := g) (fun x a => by
    split
    · exact hg x _ _
    · rfl) (upto 8)

/-- What the slot of a column leaves alone likewise. -/
theorem probeColOp_same {β : Type} {g : State → β} {iA iB : Int} {c : Nat} (hslot : probeSlot s = true) (hprobe : s.core.key.probe = some c)
    (hg : ∀ (x : State) (o n : Nat), g (raise x o n) = g x) : g (probeColOp s iA iB) = g (probeStepped s iA iB c) := by
  rw [probeColOp_some hslot hprobe]
  split
  · rfl
  · exact wetReported_same hg c _

/-- A quiet end of an instant where DOZE need not end. -/
theorem Quiet.keeps_settle_alert {u : State} (hq : Quiet u) (hdoze : u.core.pwr.doze = true → workPresent u = false) :
    Keeps [.irqRound, .ports] u (settle u) := fun k => by
  rcases eq_or_ne k .doze with rfl | hne
  · refine .inr ?_
    show (u.core.pwr.doze && !workPresent u) = u.core.pwr.doze
    cases h : u.core.pwr.doze with
    | false => rfl
    | true => rw [hdoze h]; rfl
  · refine (hq.keeps_settle k).imp_left fun hk => ?_
    simp only [List.mem_cons, List.not_mem_nil, or_false] at hk ⊢
    tauto

/-- The judgement of a column whose currents are within 12 bits (08 R226, R227). -/
theorem probedColumn_measured {iA iB : Int} {c : Nat} (hbusy : columnBusy s c = false) (hA : iA.natAbs ≤ 4095) (hB : iB.natAbs ≤ 4095)
    (hle : iB ≤ iA) :
    let x := probedColumn s iA iB c
    (2 * (x.leak : Int) - (iA - iB)).natAbs ≤ 1 ∧ x.stale = false ∧ x.saturated = false ∧
      (uf s 0x1220 16 12 ≤ x.leak → x.state = 2) ∧
      (x.leak < uf s 0x1220 0 12 - uf s 0x1221 0 12 → x.leak < uf s 0x1220 16 12 → x.state = 0) := by
  have hout : ¬(4095 < iA.natAbs ∨ 4095 < iB.natAbs) := by omega
  extract_lets x
  have hup : free s 0 % 2 < 2 := Nat.mod_lt _ (by decide)
  have hx : x.leak = ((iA - iB + (free s 0 % 2 : Nat)) / 2).toNat ∧ x.stale = false ∧ x.saturated = false ∧
      x.state = wetState (uf s 0x1220 0 12) (uf s 0x1220 16 12) (uf s 0x1221 0 12) (nth s.core.key.cols c {}).state x.leak := by
    simp only [x, probedColumn, hbusy, Bool.false_eq_true, if_false, if_neg hout, and_self]
  obtain ⟨hleak, hstale, hsat, hstate⟩ := hx
  refine ⟨?_, hstale, hsat, ?_, ?_⟩
  · rw [hleak]
    omega
  · rw [hstate]
    exact wetState_film.1
  · rw [hstate]
    exact wetState_film.2

/-- A probe column (08 R223, R225-R227). -/
theorem wetProbeColumn_judges (iA iB : Int) (hup : coreUp s = true) (hs : Settled s) (hlen : s.core.key.cols.length = 16) :
    let slot := s.core.key.passStart = none ∧ (padsFree s = true ∨ 60 ≤ s.core.key.grantLeft)
    (s.core.key.probe = none ∨ ¬slot → exec (.wetProbeColumn iA iB) s = .next (settle s)) ∧
    (∀ c, s.core.key.probe = some c → slot → c < 16 →
      let old := nth s.core.key.cols c {}
      let busy := (upto 10).any (fun r => bit s.core.key.closed (16 * r + c) || (keyOf s (16 * r + c)).st != .up || (keyOf s (16 * r + c)).masked)
      ∃ t, exec (.wetProbeColumn iA iB) s = .next t ∧ Keeps [.key, .irqPend, .irqRound, .ports] s t ∧
        t.core.key.grantLeft = s.core.key.grantLeft - 60 ∧ t.core.key.probe = ((bitsOf (probeSet s) 16).filter (fun x => decide (c < x))).head? ∧
        (∀ k : Fin 16, k.val ≠ c → nth t.core.key.cols k.val {} = nth s.core.key.cols k.val {}) ∧
        (let x := nth t.core.key.cols c {}
         (busy = true → x = { old with stale := true }) ∧
         (busy = false → (4095 < iA.natAbs ∨ 4095 < iB.natAbs) → x = { old with stale := false, saturated := true }) ∧
         (busy = false → iA.natAbs ≤ 4095 → iB.natAbs ≤ 4095 → iB ≤ iA →
           (2 * (x.leak : Int) - (iA - iB)).natAbs ≤ 1 ∧ x.stale = false ∧ x.saturated = false ∧
           (uf s 0x1220 16 12 ≤ x.leak → x.state = 2) ∧
           (x.leak < uf s 0x1220 0 12 - uf s 0x1221 0 12 → x.leak < uf s 0x1220 16 12 → x.state = 0)))) := by
  have hexec : exec (.wetProbeColumn iA iB) s = .next (settle (probeColOp s iA iB)) := instant_core _ hup
  extract_lets slot
  have hslot : probeSlot s = true ↔ slot := by
    show (s.core.key.passStart.isNone && (padsFree s || decide (60 ≤ s.core.key.grantLeft))) = true ↔ _
    simp only [Bool.and_eq_true, Bool.or_eq_true, decide_eq_true_eq, Option.isNone_iff_eq_none]
    rfl
  refine ⟨fun h => ?_, fun c hprobe hin hc => ?_⟩
  · rw [hexec, probeColOp_none (h.imp_right fun hno => by simpa using hslot.not.mpr hno)]
  · have hkey : (probeColOp s iA iB).core.key = (probeStepped s iA iB c).core.key :=
      probeColOp_same (hslot.mpr hin) hprobe (g := fun x => x.core.key) fun _ _ _ => rfl
    have hq : Quiet (probeColOp s iA iB) := by
      have hsame : ∀ {β : Type} {g : State → β}, (∀ (x : State) (o n : Nat), g (raise x o n) = g x) →
          g (probeStepped s iA iB c) = g s → g (probeColOp s iA iB) = g s := fun hg he =>
        (probeColOp_same (hslot.mpr hin) hprobe hg).trans he
      refine hs.quiet.of_same (hsame (g := fun x => used x 0x2400) (fun _ _ _ => rfl) rfl) (hsame (g := fun x => used x 0x2401) (fun _ _ _ => rfl) rfl)
        (hsame (g := fun x => x.core.gng) (fun _ _ _ => rfl) rfl) (hsame (g := fun x => x.hold.straps) (fun _ _ _ => rfl) rfl)
        ((hsame (g := fun x => x.core.capo.trig) (fun _ _ _ => rfl) rfl).trans hs.quiet.trig)
        (hsame (g := fun x => x.core.seq.rpgOut) (fun _ _ _ => rfl) rfl)
        ((hsame (g := fun x => x.core.pwr.devrst) (fun _ _ _ => rfl) rfl).trans hs.quiet.devrst)
    have hdoze : (probeColOp s iA iB).core.pwr.doze = true → workPresent (probeColOp s iA iB) = false := by
      rw [probeColOp_same (hslot.mpr hin) hprobe (g := fun x => x.core.pwr) fun _ _ _ => rfl,
        probeColOp_same (hslot.mpr hin) hprobe (g := workPresent) fun _ _ _ => rfl]
      exact hs.2.2.1
    have hgoes : Goes [.key, .irqPend] s (probeColOp s iA iB) := by
      rw [probeColOp_some (hslot.mpr hin) hprobe]
      have hstep : Goes [.key, .irqPend] s (probeStepped s iA iB c) := by
        unfold probeStepped
        exact (Goes.refl _ s).modK (by simp)
      exact .cond hstep (hstep.foldl fun _ _ h => .cond (h.raiseOwner (by simp)) h)
    have hcol : nth (settle (probeColOp s iA iB)).core.key.cols c {} = probedColumn s iA iB c := by
      show nth (probeColOp s iA iB).core.key.cols c {} = _
      rw [hkey]
      exact nth_upd_same _ _ _ _ (by rw [hlen]; exact hc)
    intro old busy
    refine ⟨_, hexec, (hgoes.keeps.trans (hq.keeps_settle_alert hdoze)).mono (by decide), ?_, ?_, fun k hk => ?_, fun h => ?_, fun h hout => ?_,
      fun h hA hB hle => ?_⟩
    · show (probeColOp s iA iB).core.key.grantLeft = _
      rw [hkey]
      rfl
    · show (probeColOp s iA iB).core.key.probe = _
      rw [hkey]
      rfl
    · show nth (probeColOp s iA iB).core.key.cols k.val {} = _
      rw [hkey]
      exact nth_upd_ne _ _ _ _ _ hk
    · rw [hcol]
      exact if_pos h
    · rw [hcol]
      have hno : ¬(columnBusy s c = true) := fun e => absurd (e.symm.trans h) (by decide)
      exact (if_neg hno).trans (if_pos hout)
    · rw [hcol]
      exact probedColumn_measured h hA hB hle

/-- A pop of the own FIFO (08 R241). -/
theorem keyFifoPop_frees (hl : Listens s p) (hs : Settled s) (hlen : s.core.key.fifos.length = 4) :
    ∃ t, exec (.keyFifoPop p seq v) s = .next t ∧ (portOf t p).lastStatus = 0x00 ∧ KeepsPort p [.key] s t ∧
      (nth t.core.key.fifos p.val {}).entries = (nth s.core.key.fifos p.val {}).entries.drop (fld v 0 7) ∧
      (∀ q : Part, q ≠ p → nth t.core.key.fifos q.val {} = nth s.core.key.fifos q.val {}) ∧ t.core.key.keys = s.core.key.keys := by
  have hopen := PortOnly.frameOpen p s seq 1
  have hlo := hopen.listens hl
  have hexec : exec (.keyFifoPop p seq v) s = .next (framed s p seq 0x12B1 1 0x00 fun x => fifoPopOp x p.val (fld v 0 7)) :=
    (instant_wo (v := v) (seq := seq) (r := { fs := [fWo (maskW 0 7) .any] }) (a := 0x12B1) (f := fun x => fifoPopOp x p.val (fld v 0 7))
      hl rfl (by unfold ordinaryAddr; decide) (by simp [fWo]) (by simp [fWo, writerOf]) (fun _ => rfl) (fun _ => Nat.le_succ _)).trans
      (by simp only [nfcGoesOn_of_not (a := 0x12B1) (v := v) rfl])
  have hlt : Listens (fifoPopOp (frameOpen s p seq 1) p.val (fld v 0 7)) p := ⟨hlo.up, hlo.notInReset, hlo.noDeviceReset, hlo.fourPorts⟩
  have hqo := hopen.quiet hs.quiet
  have hq : Quiet (fifoPopOp (frameOpen s p seq 1) p.val (fld v 0 7)) := ⟨hqo.trig, hqo.vote, hqo.rpg, hqo.devrst⟩
  have hgoes : Goes [.key] (frameOpen s p seq 1) (fifoPopOp (frameOpen s p seq 1) p.val (fld v 0 7)) := (Goes.refl _ _).modK (by simp)
  have hkey : (framed s p seq 0x12B1 1 0x00 fun x => fifoPopOp x p.val (fld v 0 7)).core.key =
      { s.core.key with fifos := upd s.core.key.fifos p.val fun q => { q with entries := q.entries.drop (fld v 0 7) } } := by
    rw [(goes_framed (f := fun x => fifoPopOp x p.val (fld v 0 7)) hlt).same .key (by decide)]
    show KeyBlk.mk .. = KeyBlk.mk ..
    rw [show (frameOpen s p seq 1).core.key = s.core.key from hopen.same fun x => x.core.key]
  refine ⟨_, hexec, lastStatus_framed hlt, keepsPort_framed hs hlt hgoes hq rfl rfl (by decide) (.inl (by decide)), ?_, fun q hqp => ?_, ?_⟩
  · rw [hkey]
    exact congrArg FifoSt.entries (nth_upd_same _ _ _ _ (by rw [hlen]; exact p.isLt))
  · rw [hkey]
    exact nth_upd_ne _ _ _ _ _ fun h => hqp (Fin.ext h)
  · rw [hkey]

/-- A post raises KEY_EVENT where it is stored, and KEY_DROP where it is dropped (08 R242). -/
theorem fifoPost_posts (s : State) (p : Part) (typ subj flags data tick vel : Nat) (hlen : s.core.key.fifos.length = 4)
    (hirq : s.core.irq.length = 4) :
    let q := nth s.core.key.fifos p.val {}
    let t := fifoPost s p.val typ subj flags data tick vel
    let x := nth t.core.key.fifos p.val {}
    (64 ≤ q.entries.length → x = { q with drops := sat 255 (q.drops + 1), loss := true } ∧ bit (nth t.core.irq p.val {}).pend 24 = true) ∧
    (q.entries.length < 64 → x.entries.length = q.entries.length + 1 ∧ x.entries.take q.entries.length = q.entries ∧
      x.nextSeq = q.nextSeq + 1 ∧ x.loss = false ∧ bit (nth t.core.irq p.val {}).pend 23 = true) := by
  have hp : p.val < s.core.key.fifos.length := by rw [hlen]; exact p.isLt
  have hi : p.val < s.core.irq.length := by rw [hirq]; exact p.isLt
  refine ⟨fun hfull => ⟨fifoPost_full hp hfull, ?_⟩, fun hspace => ?_⟩
  · rw [fifoPost, if_pos hfull]
    exact raise_pend _ _ _ hi (by decide)
  · obtain ⟨e, he, -⟩ := fifoPost_space (typ := typ) (subj := subj) (flags := flags) (data := data) (tick := tick) (vel := vel) hp hspace
    rw [he]
    refine ⟨by simp, by simp, rfl, rfl, ?_⟩
    have hnot : ¬(64 ≤ (nth s.core.key.fifos p.val {}).entries.length) := by omega
    rw [fifoPost, if_neg hnot]
    exact raise_pend _ _ _ hi (by decide)

/-- Settles O44, part by part. -/
theorem encodersProbesAndEventFifos : Obligations.EncodersProbesAndEventFifos :=
  ⟨fun _ n a b hup hs hlen => encoderEdge_moves n a b hup hs hlen, fun _ hup hs hlen => encVelocityUpdate_moves hup hs hlen,
    fun _ iA iB hup hs hlen => wetProbeColumn_judges iA iB hup hs hlen, fun _ _ _ _ hl hs hlen => keyFifoPop_frees hl hs hlen,
    fun s p typ subj flags data tick vel hlen hirq => fifoPost_posts s p typ subj flags data tick vel hlen hirq⟩

end Sys2Proof.Machine
end

section
/-! PROOFS. Chapter 09: a panel update request queues, is absorbed or is refused, region by region (09 R266, 10 R285). -/

set_option Elab.async false

namespace Sys2Proof.Machine

variable {s x : State} {p : Part} {v : Word} {seq : Byte}

/-- A word meets a mask of two bits where it has one of them. -/
theorem pairMask_and {i j : Nat} (hi : i < 32) (hj : j < 32) (v : Word) :
    (v &&& bitsM [(i, 1), (j, 1)] != 0) = (bit v i || bit v j) := by
  have hbit : ∀ k < 32, bit (bitsM [(i, 1), (j, 1)]) k = true ↔ k = i ∨ k = j := fun k hk => by
    show bit (0 ||| maskW i 1 ||| maskW j 1) k = true ↔ _
    rw [bit_or, bit_or, bit_maskW hk, bit_maskW hk, show bit (0 : Word) k = false by simp [bit]]
    simp only [Bool.false_or, Bool.or_eq_true, Bool.and_eq_true, decide_eq_true_eq]
    omega
  rw [Bool.eq_iff_iff, bne_iff_ne, ne_eq, and_eq_zero_iff, Bool.or_eq_true]
  constructor
  · intro h
    by_contra hno
    obtain ⟨hno1, hno2⟩ := not_or.mp hno
    refine h fun k hk hm => ?_
    rcases (hbit k hk).mp hm with rfl | rfl
    · simpa using hno1
    · simpa using hno2
  · intro h hno
    have h1 := hno i hi ((hbit i hi).mpr (.inl rfl))
    have h2 := hno j hj ((hbit j hj).mpr (.inr rfl))
    simp [h1, h2] at h

/-- The fields of EPD_REQUEST: for each region a request and a FULL bit of its owner (09 Table 9-6). -/
def panelFields : List FieldS := perPanel (fun m r => fWo m (.owner r) (some r)) [0, 8]

theorem regAt_panelRequest : regAt 0x1428 = some { fs := panelFields } := rfl

/-- A request is refused where it names a region of another partition (04 R105). -/
theorem wordDenied_panelRequest (p : Part) (v : Word) : wordDenied x p.val 0x1428 v =
    (upto 4).any (fun r => ownerN x (.panel r) != p.val && (bit v r || bit v (8 + r))) := by
  have hspecial : specialDenied x p.val 0x1428 v = false := specialDenied_of_not (by decide) (by decide) (by decide) (by decide)
  have hseveral : severalRes { fs := panelFields } = true := by decide
  have hany : panelFields.any (fun f => writerOf x p.val f.own != p.val && fieldMoves x (isStaged 0x1428) f (wordValue x p.val 0x1428) v) =
      (upto 4).any (fun r => ownerN x (.panel r) != p.val && (bit v r || bit v (8 + r))) := by
    rw [panelFields, perPanel, List.any_map, Bool.eq_iff_iff, List.any_eq_true, List.any_eq_true]
    refine exists_congr fun r => and_congr_right fun hr => ?_
    have hr : r < 4 := List.mem_range.mp hr
    rw [← pairMask_and (by omega) (by omega)]
    simp only [Function.comp, List.map_cons, List.map_nil, Nat.zero_add]
    rfl
  simp only [wordDenied, regAt_panelRequest, hseveral, hspecial, hany, Bool.not_true, Bool.and_false, Bool.false_or, Bool.or_false]

/-- A region may be updated: it is not empty, the panel is enabled, and the table is valid (09 R266). -/
def updatable (s : State) (r : Nat) : Bool := !rectEmpty (panelRect s r) && bit (used s 0x1400) 0 && s.core.pix.tableOk

/-- One region of a request (09 R266). -/
def requestOne (full : BitVec 4) (s : State) (r : Nat) : State :=
  if updatable s r = false then modE s (fun e => { e with refused := sat 255 (e.refused + 1) })
  else if bit s.core.epd.queued r then
    modE s (fun e => { e with absorbed := sat 255 (e.absorbed + 1), qfull := if bit full r then setBit e.qfull r true else e.qfull })
  else modE (noteDue s) (fun e => { e with queued := setBit e.queued r true, qfull := setBit e.qfull r (bit full r) })

theorem epdRequestOp_eq (s : State) (req full : BitVec 4) : epdRequestOp s req full = (bitsOf req 4).foldl (requestOne full) s := by
  have hstep : (fun (s : State) r => requestOne full s r) = fun s r =>
      if rectEmpty (panelRect s r) || !bit (used s 0x1400) 0 || !s.core.pix.tableOk then
        modE s (fun e => { e with refused := sat 255 (e.refused + 1) })
      else if bit s.core.epd.queued r then
        modE s (fun e => { e with absorbed := sat 255 (e.absorbed + 1), qfull := if bit full r then setBit e.qfull r true else e.qfull })
      else modE (noteDue s) (fun e => { e with queued := setBit e.queued r true, qfull := setBit e.qfull r (bit full r) }) := by
    funext s r
    have hcond : (rectEmpty (panelRect s r) || !bit (used s 0x1400) 0 || !s.core.pix.tableOk) = !updatable s r := by
      simp only [updatable, Bool.not_and, Bool.not_not]
    rw [hcond, requestOne]
    cases updatable s r <;> rfl
  rw [show requestOne full = fun s r => requestOne full s r from rfl, hstep]
  rfl

/-- The bit of a region after one is set. -/
theorem bit_setBit_eq {w : Nat} (u : BitVec w) {i j : Nat} (b : Bool) (hi : i < w) :
    bit (setBit u i b) j = if j = i then b else bit u j := by
  split
  next h => rw [h]; exact bit_setBit_same u i b hi
  next h => exact bit_setBit_ne u i j b h

/-- What one region of a request leaves alone: whether a region may be updated, and everything but the queue, its counters and the
note of a tie. -/
theorem requestOne_rest (full : BitVec 4) (s : State) (r : Nat) :
    (∀ q, updatable (requestOne full s r) q = updatable s q) ∧
      (requestOne full s r).core.pix = { s.core.pix with tie := (requestOne full s r).core.pix.tie } ∧
      (requestOne full s r).core.epd = { s.core.epd with
        queued := (requestOne full s r).core.epd.queued, qfull := (requestOne full s r).core.epd.qfull
        refused := (requestOne full s r).core.epd.refused, absorbed := (requestOne full s r).core.epd.absorbed } := by
  rw [requestOne]
  split
  · exact ⟨fun _ => rfl, rfl, rfl⟩
  split
  · exact ⟨fun _ => rfl, rfl, rfl⟩
  · exact ⟨fun _ => rfl, rfl, rfl⟩

/-- What one region of a request does to the queue and its counters. -/
theorem requestOne_queue (full : BitVec 4) (s : State) {r : Nat} (hr : r < 4) (j : Nat) :
    bit (requestOne full s r).core.epd.queued j = (bit s.core.epd.queued j || (decide (j = r) && updatable s r)) ∧
      bit (requestOne full s r).core.epd.qfull j = (if j = r ∧ updatable s r = true then
        (bit s.core.epd.queued j && bit s.core.epd.qfull j) || bit full j else bit s.core.epd.qfull j) ∧
      (requestOne full s r).core.epd.refused = (if updatable s r = true then s.core.epd.refused else sat 255 (s.core.epd.refused + 1)) ∧
      (requestOne full s r).core.epd.absorbed = (if updatable s r = true ∧ bit s.core.epd.queued r = true then
        sat 255 (s.core.epd.absorbed + 1) else s.core.epd.absorbed) := by
  rw [requestOne]
  cases hok : updatable s r with
  | false => simp [modE, modC]
  | true =>
    cases hq : bit s.core.epd.queued r with
    | true =>
      refine ⟨?_, ?_, by simp [modE, modC], by simp [modE, modC]⟩
      · rcases eq_or_ne j r with rfl | hne
        · simp [modE, modC, hq]
        · simp [modE, modC, hne]
      · rcases eq_or_ne j r with rfl | hne
        · cases hf : bit full j <;> simp [modE, modC, hq, bit_setBit_eq _ _ hr]
        · cases hf : bit full r <;> simp [modE, modC, hne, bit_setBit_eq _ _ hr]
    | false =>
      refine ⟨?_, ?_, by simp [modE, modC, noteDue, modP], by simp [modE, modC, noteDue, modP]⟩
      · rcases eq_or_ne j r with rfl | hne
        · simp [modE, modC, bit_setBit_eq _ _ hr]
        · simp [modE, modC, noteDue, modP, hne, bit_setBit_eq _ _ hr]
      · rcases eq_or_ne j r with rfl | hne
        · simp [modE, modC, hq, bit_setBit_eq _ _ hr]
        · simp [modE, modC, noteDue, modP, hne, bit_setBit_eq _ _ hr]

/-- A run of regions leaves alone what each of them does. -/
theorem requests_rest (full : BitVec 4) (l : List Nat) (s : State) :
    (∀ q, updatable (l.foldl (requestOne full) s) q = updatable s q) ∧
      (l.foldl (requestOne full) s).core.pix = { s.core.pix with tie := (l.foldl (requestOne full) s).core.pix.tie } ∧
      (l.foldl (requestOne full) s).core.epd = { s.core.epd with
        queued := (l.foldl (requestOne full) s).core.epd.queued, qfull := (l.foldl (requestOne full) s).core.epd.qfull
        refused := (l.foldl (requestOne full) s).core.epd.refused, absorbed := (l.foldl (requestOne full) s).core.epd.absorbed } := by
  induction l generalizing s with
  | nil => exact ⟨fun _ => rfl, rfl, rfl⟩
  | cons r l ih =>
    obtain ⟨hok, hpix, hepd⟩ := requestOne_rest full s r
    obtain ⟨ihok, ihpix, ihepd⟩ := ih (requestOne full s r)
    refine ⟨fun q => (ihok q).trans (hok q), ?_, ?_⟩
    · rw [List.foldl_cons]
      refine ihpix.trans ?_
      rw [hpix]
    · rw [List.foldl_cons]
      refine ihepd.trans ?_
      rw [hepd]

/-- Counts that saturate add up. -/
theorem sat_add (n k : Nat) : sat 255 (sat 255 n + k) = sat 255 (n + k) := by
  simp only [sat]
  split_ifs <;> omega

/-- What a run of regions does to the queue and its counters. -/
theorem requests_queue (full : BitVec 4) {l : List Nat} (hl : l.Nodup) (h4 : ∀ r ∈ l, r < 4) (s : State) (j : Nat) :
    bit (l.foldl (requestOne full) s).core.epd.queued j = (bit s.core.epd.queued j || (decide (j ∈ l) && updatable s j)) ∧
      bit (l.foldl (requestOne full) s).core.epd.qfull j = (if j ∈ l ∧ updatable s j = true then
        (bit s.core.epd.queued j && bit s.core.epd.qfull j) || bit full j else bit s.core.epd.qfull j) ∧
      (s.core.epd.refused ≤ 255 → (l.foldl (requestOne full) s).core.epd.refused =
        sat 255 (s.core.epd.refused + (l.filter fun r => !updatable s r).length)) ∧
      (s.core.epd.absorbed ≤ 255 → (l.foldl (requestOne full) s).core.epd.absorbed =
        sat 255 (s.core.epd.absorbed + (l.filter fun r => updatable s r && bit s.core.epd.queued r).length)) := by
  have hsat : ∀ n, n ≤ 255 → sat 255 n = n := fun n h => if_pos h
  have hsatle : ∀ n, sat 255 n ≤ 255 := fun n => by
    rw [sat]
    split <;> omega
  induction l generalizing s with
  | nil => simp +contextual [hsat]
  | cons r l ih =>
    obtain ⟨hr, hnodup⟩ := List.nodup_cons.mp hl
    have hr4 := h4 r List.mem_cons_self
    obtain ⟨hok, -, -⟩ := requestOne_rest full s r
    obtain ⟨ihq, ihf, ihr, iha⟩ := ih hnodup (fun q hq => h4 q (List.mem_cons_of_mem _ hq)) (requestOne full s r)
    have hone := requestOne_queue full s hr4
    simp only [hok] at ihq ihf ihr iha
    rw [List.foldl_cons]
    refine ⟨?_, ?_, fun hle => ?_, fun hle => ?_⟩
    · rw [ihq, (hone j).1]
      rcases eq_or_ne j r with rfl | hne
      · simp [hr]
      · simp [hne]
    · rw [ihf, (hone j).2.1, (hone j).1]
      rcases eq_or_ne j r with rfl | hne
      · simp [hr]
      · simp [hne]
    · rw [ihr (by rw [(hone j).2.2.1]; split <;> [exact hle; exact hsatle _]), (hone j).2.2.1]
      cases hok : updatable s r with
      | true => simp [hok]
      | false => simp [hok, sat_add, Nat.add_assoc, Nat.add_comm]
    · have hother : (l.filter fun q => updatable s q && bit (requestOne full s r).core.epd.queued q) =
          l.filter fun q => updatable s q && bit s.core.epd.queued q := by
        refine List.filter_congr fun q hq => ?_
        have hne : q ≠ r := fun h => hr (h ▸ hq)
        rw [(requestOne_queue full s hr4 q).1]
        simp [hne]
      rw [iha (by rw [(hone j).2.2.2]; split <;> [exact hsatle _; exact hle]), (hone j).2.2.2, hother, List.filter_cons]
      cases hb : updatable s r && bit s.core.epd.queued r with
      | true =>
        rw [Bool.and_eq_true] at hb
        simp [hb, sat_add, Nat.add_assoc, Nat.add_comm]
      | false =>
        have hno : ¬(updatable s r = true ∧ bit s.core.epd.queued r = true) := by
          rw [← Bool.and_eq_true, hb]
          decide
        simp [hno]

/-- The regions that a request names. -/
theorem bitsOf_field (v : Word) {lo : Nat} : bitsOf (BitVec.ofNat 4 (fld v lo 4)) 4 = (upto 4).filter fun r => bit v (lo + r) := by
  refine List.filter_congr fun r hr => ?_
  have hr : r < 4 := List.mem_range.mp hr
  rw [bit, BitVec.toNat_ofNat, Nat.testBit_mod_two_pow, testBit_fld]
  simp [hr]

/-- The FULL bit of a region. -/
theorem bit_field (v : Word) {lo r : Nat} (hr : r < 4) : bit (BitVec.ofNat 4 (fld v lo 4)) r = bit v (lo + r) := by
  rw [bit, BitVec.toNat_ofNat, Nat.testBit_mod_two_pow, testBit_fld]
  simp [hr]

/-- A frame of EPD_REQUEST that is not refused queues its regions, with outcome OK. -/
theorem instant_panelRequest (hl : Listens s p) (hden : wordDenied (frameOpen s p seq 1) p.val 0x1428 v = false) :
    instant (whenCore fun s => writeFrame s p seq 0x1428 [v]) s = .next (framed s p seq 0x1428 1 0x00 fun x =>
      epdRequestOp x (BitVec.ofNat 4 (fld v 0 4)) (BitVec.ofNat 4 (fld v 8 4))) := by
  have hwo : ∀ f ∈ panelFields, f.acc = .wo ∧ f.lk = false := by decide
  have hgoes : ∀ x, Goes [.epd, .pix] x (epdRequestOp x (BitVec.ofNat 4 (fld v 0 4)) (BitVec.ofNat 4 (fld v 8 4))) := fun x =>
    (Goes.refl _ x).epdRequestOp (by simp) (by simp)
  refine instant_framed (f := fun x => epdRequestOp x (BitVec.ofNat 4 (fld v 0 4)) (BitVec.ofNat 4 (fld v 8 4))) hl seq ?_
  rw [writeRegs_wo regAt_panelRequest hden rfl (by decide) hwo (by decide) (by decide)
    (y := (epdRequestOp (frameOpen s p seq 1) (BitVec.ofNat 4 (fld v 0 4)) (BitVec.ofNat 4 (fld v 8 4)), false)) rfl ?_,
    nfcGoesOn_of_not rfl]
  · rfl
  · rw [(hgoes _).same .seq (by decide)]
    exact Nat.le_succ _

/-- A request leaves alone what reads neither EPD nor the pixels. -/
theorem epdRequestOp_same {β : Type} {g : State → β} (hE : ∀ (x : State) (f : EpdSt → EpdSt), g (modE x f) = g x)
    (hP : ∀ (x : State) (f : PixSt → PixSt), g (modP x f) = g x) (x : State) (req full : BitVec 4) : g (epdRequestOp x req full) = g x := by
  rw [epdRequestOp_eq]
  refine foldl_same (g := g) (fun y r => ?_) _
  rw [requestOne]
  split
  · exact hE _ _
  split
  · exact hE _ _
  · exact (hE _ _).trans (hP _ _)

/-- A request stays quiet. -/
theorem Quiet.epdRequestOp (h : Quiet x) (req full : BitVec 4) : Quiet (Machine.epdRequestOp x req full) := by
  have hsame : ∀ {β : Type} {g : State → β}, (∀ (x : State) (f : EpdSt → EpdSt), g (modE x f) = g x) →
      (∀ (x : State) (f : PixSt → PixSt), g (modP x f) = g x) → g (Machine.epdRequestOp x req full) = g x := fun hE hP =>
    epdRequestOp_same hE hP x req full
  exact h.of_same (hsame (g := fun x => used x 0x2400) (fun _ _ => rfl) fun _ _ => rfl)
    (hsame (g := fun x => used x 0x2401) (fun _ _ => rfl) fun _ _ => rfl) (hsame (g := fun x => x.core.gng) (fun _ _ => rfl) fun _ _ => rfl)
    (hsame (g := fun x => x.hold.straps) (fun _ _ => rfl) fun _ _ => rfl)
    ((hsame (g := fun x => x.core.capo.trig) (fun _ _ => rfl) fun _ _ => rfl).trans h.trig)
    (hsame (g := fun x => x.core.seq.rpgOut) (fun _ _ => rfl) fun _ _ => rfl)
    ((hsame (g := fun x => x.core.pwr.devrst) (fun _ _ => rfl) fun _ _ => rfl).trans h.devrst)

/-- What a request that is not refused leaves. -/
theorem panelUpdateRequest_queues (hl : Listens s p) (hs : Settled s)
    (hown : ∀ r : Part, bit v r.val = true ∨ bit v (8 + r.val) = true → ownerN s (.panel r.val) = p.val) :
    ∃ t, exec (.panelUpdateRequest p seq v) s = .next t ∧ (portOf t p).lastStatus = 0x00 ∧ KeepsPort p [.epd, .pix] s t ∧
      t.core.pix = { s.core.pix with tie := t.core.pix.tie } ∧
      (∀ r : Part, bit t.core.epd.queued r.val = (bit s.core.epd.queued r.val || (bit v r.val && updatable s r.val)) ∧
        bit t.core.epd.qfull r.val = (if bit v r.val && updatable s r.val then
          (bit s.core.epd.queued r.val && bit s.core.epd.qfull r.val) || bit v (8 + r.val) else bit s.core.epd.qfull r.val)) ∧
      (s.core.epd.refused ≤ 255 → t.core.epd.refused =
        sat 255 (s.core.epd.refused + ((upto 4).filter (fun r => bit v r && !updatable s r)).length)) ∧
      (s.core.epd.absorbed ≤ 255 → t.core.epd.absorbed =
        sat 255 (s.core.epd.absorbed + ((upto 4).filter (fun r => bit v r && updatable s r && bit s.core.epd.queued r)).length)) ∧
      t.core.epd = { s.core.epd with
        queued := t.core.epd.queued, qfull := t.core.epd.qfull, refused := t.core.epd.refused, absorbed := t.core.epd.absorbed } := by
  have hport := PortOnly.frameOpen p s seq 1
  have hlo := hport.listens hl
  have hden : wordDenied (frameOpen s p seq 1) p.val 0x1428 v = false := by
    rw [wordDenied_panelRequest, List.any_eq_false]
    intro r hr hno
    simp only [Bool.and_eq_true, Bool.or_eq_true, bne_iff_ne] at hno
    exact hno.1 ((hport.same fun x => ownerN x (.panel r)).trans (hown ⟨r, List.mem_range.mp hr⟩ hno.2))
  have hgoes : Goes [.epd, .pix] (frameOpen s p seq 1)
      (epdRequestOp (frameOpen s p seq 1) (BitVec.ofNat 4 (fld v 0 4)) (BitVec.ofNat 4 (fld v 8 4))) :=
    (Goes.refl _ _).epdRequestOp (by simp) (by simp)
  have hquiet := (hport.quiet hs.quiet).epdRequestOp (BitVec.ofNat 4 (fld v 0 4)) (BitVec.ofNat 4 (fld v 8 4))
  have hlt := hgoes.listens (p := p) (by decide) hquiet.devrst hlo
  have hframe := goes_framed (f := fun x => epdRequestOp x (BitVec.ofNat 4 (fld v 0 4)) (BitVec.ofNat 4 (fld v 8 4))) (a := 0x1428) (code := 0x00) hlt
  have hops := epdRequestOp_same (g := fun x => x.core.irq) (fun _ _ => rfl) (fun _ _ => rfl) (frameOpen s p seq 1)
    (BitVec.ofNat 4 (fld v 0 4)) (BitVec.ofNat 4 (fld v 8 4))
  have hports := epdRequestOp_same (g := fun x => x.core.ports) (fun _ _ => rfl) (fun _ _ => rfl) (frameOpen s p seq 1)
    (BitVec.ofNat 4 (fld v 0 4)) (BitVec.ofNat 4 (fld v 8 4))
  have hepdSame : (frameOpen s p seq 1).core.epd = s.core.epd := hport.same fun x => x.core.epd
  have hpixSame : (frameOpen s p seq 1).core.pix = s.core.pix := hport.same fun x => x.core.pix
  have hokSame : ∀ r, updatable (frameOpen s p seq 1) r = updatable s r := fun r => hport.same fun x => updatable x r
  have hnodup : ((upto 4).filter fun r => bit v (0 + r)).Nodup := List.nodup_range.filter _
  have h4 : ∀ r ∈ (upto 4).filter fun r => bit v (0 + r), r < 4 := fun r hr => List.mem_range.mp (List.mem_of_mem_filter hr)
  have hrest := requests_rest (BitVec.ofNat 4 (fld v 8 4)) ((upto 4).filter fun r => bit v (0 + r)) (frameOpen s p seq 1)
  have hqueue := requests_queue (BitVec.ofNat 4 (fld v 8 4)) hnodup h4 (frameOpen s p seq 1)
  rw [← bitsOf_field, ← epdRequestOp_eq] at hrest hqueue
  refine ⟨_, instant_panelRequest hl hden, lastStatus_framed hlt,
    keepsPort_framed hs hlt hgoes hquiet hops hports (by decide) (.inl (by decide)), ?_, fun r => ?_, fun hle => ?_, fun hle => ?_, ?_⟩
  · rw [hframe.same .pix (by decide)]
    exact hrest.2.1.trans (by rw [hpixSame])
  · obtain ⟨hq, hf, -, -⟩ := hqueue r.val
    have hmem : r.val ∈ bitsOf (BitVec.ofNat 4 (fld v 0 4)) 4 ↔ bit v r.val = true := by
      rw [bitsOf_field, List.mem_filter, Nat.zero_add]
      simp [upto, r.isLt]
    rw [hframe.same .epd (by decide)]
    refine ⟨hq.trans ?_, hf.trans ?_⟩
    · rw [hepdSame, hokSame, ← Bool.decide_coe (bit v r.val)]
      simp only [hmem]
    · rw [hepdSame, hokSame, bit_field v r.isLt]
      simp only [hmem, Bool.and_eq_true]
  · rw [hframe.same .epd (by decide)]
    refine ((hqueue 0).2.2.1 (by rw [hepdSame]; exact hle)).trans ?_
    rw [hepdSame, bitsOf_field, List.filter_filter]
    simp only [hokSame, Nat.zero_add, Bool.and_comm]
  · rw [hframe.same .epd (by decide)]
    refine ((hqueue 0).2.2.2 (by rw [hepdSame]; exact hle)).trans ?_
    rw [hepdSame, bitsOf_field, List.filter_filter]
    have hcongr : ∀ r, ((updatable (frameOpen s p seq 1) r && bit s.core.epd.queued r) && bit v (0 + r)) =
        (bit v r && updatable s r && bit s.core.epd.queued r) := fun r => by
      rw [hokSame, Nat.zero_add, Bool.and_comm, Bool.and_assoc]
    simp only [hcongr]
  · rw [hframe.same .epd (by decide)]
    exact hrest.2.2.trans (by rw [hepdSame])

/-- Settles O45, by induction over the regions that a request names. -/
theorem updateRequestsQueueAbsorbOrRefuse : Obligations.UpdateRequestsQueueAbsorbOrRefuse := by
  intro s p seq v hl hs named ok q
  refine ⟨fun ⟨r, hr, hne⟩ => instant_denied hl seq ?_, fun hown => panelUpdateRequest_queues hl hs hown⟩
  rw [wordDenied_panelRequest, List.any_eq_true]
  refine ⟨r.val, List.mem_range.mpr r.isLt, ?_⟩
  have howner : ownerN (frameOpen s p seq 1) (.panel r.val) = ownerN s (.panel r.val) :=
    (PortOnly.frameOpen p s seq 1).same fun x => ownerN x (.panel r.val)
  rw [howner, Bool.and_eq_true, bne_iff_ne, Bool.or_eq_true]
  exact ⟨hne, hr⟩

end Sys2Proof.Machine
end

section
/-! PROOFS. Chapter 05: what a stop of the core leaves (05 R145-R152, R155). -/

set_option Elab.async false

namespace Sys2Proof.Machine

variable {s x : State} {p : Part} {v : Word} {seq : Byte}

/-- The core domain is lost but for the responses under way; the levels are captured, and the always-on state and the setup flash
stay. -/
def CoreLost (s t : State) : Prop :=
  t.core = { ports := t.core.ports } ∧ (∀ q : Part, portOf t q = { resp := (portOf t q).resp }) ∧
    t.core.regs = [] ∧ t.core.parity = [] ∧ t.core.course = {} ∧ t.core.nfc = {} ∧ t.core.epd = {} ∧
    t.core.seq = {} ∧ t.core.key = {} ∧ t.core.flw = {} ∧ t.core.thm = {} ∧ t.core.part = {} ∧ t.core.buf = {} ∧ t.core.efl = {} ∧
    t.core.pix = {} ∧ t.core.mbxs = List.replicate 12 {} ∧ t.core.cvu = List.replicate 4 {} ∧
    t.hold.senCap = senLevels s ∧ t.hold.fsLevels = BitVec.ofNat 4 (fld (aused s 0xA16) 0 4) ∧
    t.aon.tbase = s.aon.tbase ∧ t.aon.osc = s.aon.osc ∧ t.aon.regs = s.aon.regs ∧ t.flash = s.flash ∧ coreUp t = false

/-- The end of an instant in which the core was stopped. -/
theorem coreLost_settle {l : List PortSt} (hcore : x.core = { ports := l.map fun q => { resp := q.resp } }) (hsen : x.hold.senCap = senLevels s)
    (hfs : x.hold.fsLevels = BitVec.ofNat 4 (fld (aused s 0xA16) 0 4)) (htb : x.aon.tbase = s.aon.tbase) (hosc : x.aon.osc = s.aon.osc)
    (hregs : x.aon.regs = s.aon.regs) (hflash : x.flash = s.flash) (hup : coreUp x = false) : CoreLost s (settle x) := by
  have hc := settle_core_lost hcore
  refine ⟨by rw [hc], fun q => ?_, by rw [hc], by rw [hc], by rw [hc], by rw [hc], by rw [hc], by rw [hc], by rw [hc], by rw [hc], by rw [hc],
    by rw [hc], by rw [hc], by rw [hc], by rw [hc], by rw [hc], by rw [hc], hsen, hfs, htb, hosc, hregs, hflash, hup⟩
  rw [portOf, hc]
  show nth (l.map fun q => ({ resp := q.resp } : PortSt)) q.val {} = _
  rcases Nat.lt_or_ge q.val l.length with hlt | hge
  · rw [nth_map _ _ hlt {}]
  · rw [nth_of_le (by simpa using hge)]

/-- A stop by anything but SLEEP interrupts the setup flash, which does nothing where none works. -/
theorem coreStop_idle {code : Nat} (hcode : code ≠ 1) (hbanks : x.core.efl.banks.all (fun b => b.chan.isNone) = true)
    (hlog : x.core.efl.log.phase = none) :
    coreStop x code = { x with
      hold := { x.hold with senCap := senLevels x, fsLevels := BitVec.ofNat 4 (fld (aused x 0xA16) 0 4), keyExcl := 0, armed := false }
      aon := { x.aon with stop := code, phase := .off }
      core := { ports := x.core.ports.map fun q => { resp := q.resp } } } := by
  simp only [coreStop, if_neg hcode, eflInterrupt_idle hbanks hlog]
  rfl

/-- A stop at the end of which the device is not in RUN leaves the core lost. -/
theorem coreLost_stop {code : Nat} {y : State} (hcode : code ≠ 1) (hbanks : x.core.efl.banks.all (fun b => b.chan.isNone) = true)
    (hlog : x.core.efl.log.phase = none) (hsen : senLevels x = senLevels s) (hfs : aused x 0xA16 = aused s 0xA16)
    (htb : x.aon.tbase = s.aon.tbase) (hosc : x.aon.osc = s.aon.osc) (hregs : x.aon.regs = s.aon.regs) (hflash : x.flash = s.flash)
    (hy : y.core = (coreStop x code).core) (hyh : y.hold.senCap = (coreStop x code).hold.senCap ∧ y.hold.fsLevels = (coreStop x code).hold.fsLevels)
    (hya : y.aon.tbase = (coreStop x code).aon.tbase ∧ y.aon.osc = (coreStop x code).aon.osc ∧ y.aon.regs = (coreStop x code).aon.regs)
    (hyf : y.flash = (coreStop x code).flash) (hup : coreUp y = false) : CoreLost s (settle y) := by
  rw [coreStop_idle hcode hbanks hlog] at hy hyh hya hyf
  obtain ⟨hyh1, hyh2⟩ := hyh
  obtain ⟨hya1, hya2, hya3⟩ := hya
  refine coreLost_settle hy (hyh1.trans hsen) (hyh2.trans ?_) (hya1.trans htb) (hya2.trans hosc) (hya3.trans hregs) (hyf.trans hflash) hup
  show BitVec.ofNat 4 (fld (aused x 0xA16) 0 4) = _
  rw [hfs]

/-- The cause stands in the record of the wake sequence. -/
theorem bit_startWake (y : State) {i : Nat} (hi : i < 8) : bit (settle (startWake y (wakeBit i))).aon.wake i = true := by
  show bit ((if y.hold.aborted then y.aon.wake else 0) ||| wakeBit i) i = true
  have hset : bit (wakeBit i) i = true := bit_setBit_same _ _ _ hi
  rw [bit_eq] at hset ⊢
  rw [BitVec.getLsbD_or, hset, Bool.or_true]

/-- A software reset by P0: the frame ends with the restart (05 R152). -/
theorem softwareReset_restarts (hl : Listens s 0) (hv : fld v 0 16 = 0x7A5E)
    (hbanks : s.core.efl.banks.all (fun b => b.chan.isNone) = true) (hlog : s.core.efl.log.phase = none) :
    ∃ t, exec (.softwareDeviceReset 0 seq v) s = .next t ∧ t.aon.phase = .arm ∧ t.aon.stop = 4 ∧ bit t.aon.wake 6 = true ∧ CoreLost s t := by
  have hport := PortOnly.frameOpen 0 s seq 1
  have hlo := hport.listens hl
  let f : State → State := fun x => modC x fun c => { c with pwr := { c.pwr with devrst := true } }
  have hreg : regAt 0xA19 = some { fs := [fWo (maskW 0 16)] } := rfl
  have hexec : exec (.softwareDeviceReset 0 seq v) s = .next (framed s 0 seq 0xA19 1 0x00 f) := by
    refine (instant_wo (v := v) (seq := seq) (f := f) hl hreg (by unfold ordinaryAddr; decide) (by simp [fWo]) (by simp [fWo, writerOf])
      (fun x => ?_) (fun _ => Nat.le_succ _)).trans (by simp only [nfcGoesOn_of_not (a := 0xA19) (v := v) rfl])
    show devrstOp x v = _
    rw [devrstOp, if_pos hv]
  obtain ⟨g, hclose⟩ : ∃ g, frameClose (f (frameOpen s 0 seq 1)) 0 seq 0xA19 1 0x00 = coreRestart (modPort (f (frameOpen s 0 seq 1)) 0 g) 4 :=
    ⟨_, rfl⟩
  have hefl : (frameOpen s 0 seq 1).core.efl = s.core.efl := hport.same fun x => x.core.efl
  have hidle := coreStop_idle (x := modPort (f (frameOpen s 0 seq 1)) 0 g) (code := 4) (by decide) (by rw [← hbanks, ← hefl]; rfl)
    (by rw [← hlog, ← hefl]; rfl)
  have hlost : CoreLost s (settle (coreRestart (modPort (f (frameOpen s 0 seq 1)) 0 g) 4)) :=
    coreLost_stop (x := modPort (f (frameOpen s 0 seq 1)) 0 g) (code := 4) (by decide) (by rw [← hbanks, ← hefl]; rfl)
      (by rw [← hlog, ← hefl]; rfl) (hport.same senLevels) (hport.same fun x => aused x 0xA16) (hport.same fun x => x.aon.tbase)
      (hport.same fun x => x.aon.osc) (hport.same fun x => x.aon.regs) (hport.same State.flash) rfl ⟨rfl, rfl⟩ ⟨rfl, rfl, rfl⟩ rfl rfl
  have hframed : framed s 0 seq 0xA19 1 0x00 f = settle (coreRestart (modPort (f (frameOpen s 0 seq 1)) 0 g) 4) := congrArg settle hclose
  refine ⟨_, hexec, ?_⟩
  rw [hframed]
  refine ⟨rfl, ?_, ?_, hlost⟩
  · show (coreStop (modPort (f (frameOpen s 0 seq 1)) 0 g) 4).aon.stop = 4
    rw [hidle]
  · exact bit_startWake _ (by decide)

/-- What a fall of VMAIN below SWITCH records (05 R150). -/
def mainFallen (s : State) : State :=
  modA s fun a => { a with
    mainOk := false, srcVbak := a.bakValid, warn := true, holdStart := none, switchovers := sat 255 (a.switchovers + 1),
    warnings := if a.warn then a.warnings else sat 255 (a.warnings + 1) }

section SwitchOver

variable (hmain : s.aon.mainOk = true)
include hmain

theorem switchOverOp_run (h : s.aon.phase = .run) : switchOverOp s = coreStop (mainFallen s) 2 := by
  simp only [switchOverOp, mainFallen, h, hmain, modA, reduceCtorEq, or_self, if_false]

theorem switchOverOp_sleep (h : s.aon.phase = .sleep) :
    switchOverOp s = modH (faultLevels (setPhase (mainFallen s) .off)) fun h => { h with armed := false } := by
  simp only [switchOverOp, mainFallen, h, hmain, modA, reduceCtorEq, or_self, if_false]

theorem switchOverOp_held (h : s.aon.phase = .held) : switchOverOp s = faultLevels (setPhase (mainFallen s) .off) := by
  simp only [switchOverOp, mainFallen, h, hmain, modA, reduceCtorEq, or_self, if_false]

end SwitchOver

theorem resetAssertOp_run (h : s.aon.phase = .run) :
    resetAssertOp s = setPhase (coreStop (modA s fun a => { a with resetLow := true }) 3) .held := by
  simp only [resetAssertOp, h, modA]

/-- The stops of a core that runs (05 R150, R151, R155). -/
theorem coreStops_lose (hup : coreUp s = true) (hmain : s.aon.mainOk = true)
    (hbanks : s.core.efl.banks.all (fun b => b.chan.isNone) = true) (hlog : s.core.efl.log.phase = none) :
    (∃ t, exec .switchOver s = .next t ∧ t.aon.phase = .off ∧ t.aon.stop = 2 ∧ t.aon.warn = true ∧ t.aon.mainOk = false ∧
      t.aon.switchovers = sat 255 (s.aon.switchovers + 1) ∧ CoreLost s t) ∧
    (∃ t, exec .vddcFault s = .next t ∧ t.aon.phase = .arm ∧ t.aon.stop = 6 ∧
      t.aon.vddcFaults = sat 255 (s.aon.vddcFaults + 1) ∧ bit t.aon.wake 6 = true ∧ CoreLost s t) ∧
    (∃ t, exec .resetNAssert s = .next t ∧ t.aon.phase = .held ∧ t.aon.stop = 3 ∧ t.aon.resetLow = true ∧ CoreLost s t) := by
  have hrun : s.aon.phase = .run := by simpa [coreUp] using hup
  refine ⟨⟨settle (coreStop (mainFallen s) 2), ?_, ?_⟩,
    ⟨settle (coreRestart (modA s fun a => { a with vddcFaults := sat 255 (a.vddcFaults + 1) }) 6), instant_core _ hup, ?_⟩,
    ⟨settle (setPhase (coreStop (modA s fun a => { a with resetLow := true }) 3) .held), ?_, ?_⟩⟩
  · exact congrArg (fun x => Host.Outcome.next (settle x)) (switchOverOp_run hmain hrun)
  · have hlost : CoreLost s (settle (coreStop (mainFallen s) 2)) :=
      coreLost_stop (x := mainFallen s) (code := 2) (by decide) hbanks hlog rfl rfl rfl rfl rfl rfl rfl ⟨rfl, rfl⟩ ⟨rfl, rfl, rfl⟩ rfl rfl
    have hidle := coreStop_idle (x := mainFallen s) (code := 2) (by decide) hbanks hlog
    refine ⟨rfl, rfl, ?_, ?_, ?_, hlost⟩
    · show (coreStop (mainFallen s) 2).aon.warn = true
      rw [hidle]
      rfl
    · show (coreStop (mainFallen s) 2).aon.mainOk = false
      rw [hidle]
      rfl
    · show (coreStop (mainFallen s) 2).aon.switchovers = _
      rw [hidle]
      rfl
  · have hidle := coreStop_idle (x := modA s fun a => { a with vddcFaults := sat 255 (a.vddcFaults + 1) }) (code := 6) (by decide) hbanks hlog
    refine ⟨rfl, rfl, ?_, bit_startWake _ (by decide), ?_⟩
    · show (coreStop (modA s fun a => { a with vddcFaults := sat 255 (a.vddcFaults + 1) }) 6).aon.vddcFaults = _
      rw [hidle]
      rfl
    · exact coreLost_stop (x := modA s fun a => { a with vddcFaults := sat 255 (a.vddcFaults + 1) }) (code := 6) (by decide) hbanks hlog
        rfl rfl rfl rfl rfl rfl rfl ⟨rfl, rfl⟩ ⟨rfl, rfl, rfl⟩ rfl rfl
  · exact congrArg (fun x => Host.Outcome.next (settle x)) (resetAssertOp_run hrun)
  · have hidle := coreStop_idle (x := modA s fun a => { a with resetLow := true }) (code := 3) (by decide) hbanks hlog
    refine ⟨rfl, rfl, ?_, ?_⟩
    · show (coreStop (modA s fun a => { a with resetLow := true }) 3).aon.resetLow = true
      rw [hidle]
      rfl
    · exact coreLost_stop (x := modA s fun a => { a with resetLow := true }) (code := 3) (by decide) hbanks hlog
        rfl rfl rfl rfl rfl rfl rfl ⟨rfl, rfl⟩ ⟨rfl, rfl, rfl⟩ rfl rfl

/-- A fall of VMAIN in SLEEP or while RESET_N holds the device (05 R150). -/
theorem switchOver_stopped (hmain : s.aon.mainOk = true) (hphase : s.aon.phase = .sleep ∨ s.aon.phase = .held) :
    ∃ t, exec .switchOver s = .next t ∧ t.aon.phase = .off ∧ t.aon.stop = s.aon.stop ∧
      t.aon.regs = s.aon.regs ∧ t.hold.fsLevels = BitVec.ofNat 4 (fld (aused s 0xA16) 0 4) := by
  refine ⟨settle (switchOverOp s), rfl, ?_⟩
  rcases hphase with h | h
  · rw [switchOverOp_sleep hmain h]
    exact ⟨rfl, rfl, rfl, rfl⟩
  · rw [switchOverOp_held hmain h]
    exact ⟨rfl, rfl, rfl, rfl⟩

/-- Settles O29: each stop takes the whole core domain but the responses, and what the always-on state captures is read off it. -/
theorem coreStopsLoseTheCore : Obligations.CoreStopsLoseTheCore := by
  intro s hs hmain hidle lost
  obtain ⟨hbanks, hlog⟩ := hidle
  refine ⟨fun hup => ?_, fun hphase => switchOver_stopped hmain hphase⟩
  obtain ⟨hswitch, hvddc, hreset⟩ := coreStops_lose hup hmain hbanks hlog
  refine ⟨hswitch, hvddc, hreset, fun p seq v hl hv => ?_⟩
  by_cases hp : p = 0
  · subst hp
    obtain ⟨t, ht, hrest⟩ := softwareReset_restarts (seq := seq) hl hv hbanks hlog
    exact ⟨t, ht, fun _ => hrest, fun h => absurd rfl h⟩
  · exact ⟨_, instant_steward_denied (a := 0xA19) hl hp rfl (by simp) (by simp [fWo]) rfl, fun h => absurd h hp, fun _ => deniedAt_onlyPort hl hs⟩

end Sys2Proof.Machine
end

section
/-! PROOFS. Chapter 11: a submission reads its address back from the register store. -/

set_option Elab.async false

namespace Sys2Proof.Machine

/-- A store that lists EFL_CH0_ADDR twice, which no command leaves behind (O6), but which the premises of O49 do not exclude. -/
def addressListedTwice : State := modC State.reset fun c => { c with regs := [(0x1620, 5), (0x1620, 7)] }

theorem addressListedTwice_listens : Listens addressListedTwice 0 := by
  unfold Listens
  decide +kernel

/-- The address that setup flash channel 0 holds after a command. -/
def channelAddress : Host.Outcome State Fault Refusal → Nat
  | .next t => (nth t.core.efl.chans 0 {}).addr
  | _ => 0

/-- A READ of address 0 puts the reset value in place of the first entry, and finds the second. -/
theorem channelAddress_read : channelAddress (exec (.eflRead 0 0 0 0 0 0) addressListedTwice) = 7 := by decide +kernel

/-- Refutes O49: the channel takes the address that EFL_CH0_ADDR reads after the write, and where the register store is not in its
canonical form that is not the one written. -/
theorem not_flashSubmissionsQueueOrAreMasked : ¬ Obligations.FlashSubmissionsQueueOrAreMasked := by
  unfold Obligations.FlashSubmissionsQueueOrAreMasked
  intro h
  obtain ⟨-, -, hqueued⟩ := h addressListedTwice 0 0 0 0 0 0 addressListedTwice_listens _ List.mem_cons_self
  have hread := hqueued rfl (by decide +kernel) (by decide +kernel) (.inl (by decide))
  have haddr := congrArg channelAddress hread
  rw [channelAddress_read] at haddr
  exact absurd haddr (by decide +kernel)

end Sys2Proof.Machine
end

section
/-! PROOFS. Chapter 07: steady windows age the bands of a flow channel (07 R210-R213). -/

set_option Elab.async false

namespace Sys2Proof.Machine

variable {s x : State}

/-- A field that has been put reads back. -/
theorem fld_putFld_same (w : Word) {lo n : Nat} (v : Nat) (h : lo + n ≤ 32) : fld (putFld w lo n v) lo n = v % 2 ^ n := by
  refine Nat.eq_of_testBit_eq fun i => ?_
  rw [testBit_fld, Nat.testBit_mod_two_pow]
  by_cases hi : i < n
  · have hin : lo ≤ lo + i ∧ lo + i < lo + n := by omega
    have hsub : lo + i - lo = i := by omega
    rw [bit_putFld _ _ _ _ (by omega), if_pos hin, hsub]
  · simp [hi]

/-- A half-word that has been put reads back. -/
theorem fld_putFld_half (w : Word) {lo : Nat} (v : Nat) (h : lo + 16 ≤ 32) : fld (putFld w lo 16 v) lo 16 = v % 65536 :=
  fld_putFld_same w v h

/-- A field apart from the one that has been put is as it was. -/
theorem fld_putFld_other (w : Word) {lo n lo' n' : Nat} (v : Nat) (h : lo' + n' ≤ 32) (hdis : lo' + n' ≤ lo ∨ lo + n ≤ lo') :
    fld (putFld w lo n v) lo' n' = fld w lo' n' := by
  refine fld_congr fun i h1 h2 => ?_
  rw [bit_putFld _ _ _ _ (by omega), if_neg (by omega)]

section Learn

variable {n b a : Nat}

theorem rd_setRF_same (lo k v : Nat) (hwf : swf regReset s.core.regs = true) : rd (setRF s a lo k v) a = putFld (rd s a) lo k v :=
  sget_sset _ _ _ _ hwf

theorem rd_setRF_ne {y : Nat} (lo k v : Nat) (h : y ≠ a) : rd (setRF s a lo k v) y = rd s y := sget_sset_ne _ _ _ _ _ h

theorem swf_setRF (lo k v : Nat) (hwf : swf regReset s.core.regs = true) : swf regReset (setRF s a lo k v).core.regs = true := swf_sset _ _ _ _ hwf

end Learn

/-- LEARN_COMPLETE (07 R212). -/
theorem learnComplete_marks (n : Fin 6) (b : Fin 8) (hup : coreUp s = true) :
    (learnDue s n.val b.val = false → exec (.learnComplete n b) s = .next (settle s)) ∧
    (learnDue s n.val b.val = true → swf regReset s.core.regs = true → s.core.flw.age.length = 6 →
      ∃ t, exec (.learnComplete n b) s = .next t ∧ rf t (0x1060 + 8 * n.val + b.val) 0 16 = uf s (0x1060 + 8 * n.val + b.val) 16 16 ∧
        rf t (0x1060 + 8 * n.val + b.val) 16 16 = rf s (0x1060 + 8 * n.val + b.val) 16 16 ∧
        bit (ageOf t n.val).learned b.val = true) := by
  have hexec : exec (.learnComplete n b) s = .next (settle (whenS (learnDue s n.val b.val) s fun s => learnOp s n.val b.val)) := instant_core _ hup
  refine ⟨fun h => by rw [hexec, h]; rfl, fun h hwf hlen => ⟨_, hexec, ?_⟩⟩
  rw [whenS, if_pos h]
  have hword : rd (settle (learnOp s n.val b.val)) (0x1060 + 8 * n.val + b.val) =
      putFld (rd s (0x1060 + 8 * n.val + b.val)) 0 16 (uf s (0x1060 + 8 * n.val + b.val) 16 16) := rd_setRF_same 0 16 _ hwf
  refine ⟨?_, ?_, ?_⟩
  · rw [rf, hword, fld_putFld_half _ _ (by decide)]
    exact Nat.mod_eq_of_lt (Nat.mod_lt _ (by decide))
  · rw [rf, hword, fld_putFld_other _ _ (by decide) (by decide)]
    rfl
  · have hage : ageOf (settle (learnOp s n.val b.val)) n.val = { ageOf s n.val with learned := setBit (ageOf s n.val).learned b.val true } :=
      nth_upd_same _ _ _ _ (by
        show n.val < s.core.flw.age.length
        rw [hlen]
        exact n.isLt)
    rw [hage]
    exact bit_setBit_same _ _ _ b.isLt

/-- The word of FLW_AGE of a band (07 Table 7-9). -/
def ageWord (n b : Nat) : Nat := 0x1060 + 8 * n + b

/-- The band of the window's mean speed (07 R210). -/
def windowBand (s : State) (n : Nat) : Nat :=
  let sm := (ageOf s n).sumS / 100
  let full := uf s (flwA n 10) 0 16
  nmin 7 (if full = 0 then Config.bandOfZeroFull sm else 8 * sm / full)

/-- The accumulator of the band with the window's sample (07 R211). -/
def windowAcc (s : State) (n : Nat) : Nat :=
  let g := ageOf s n
  let b := windowBand s n
  let q := nmin 65535 (64 * (g.sumU / 100) / (g.sumS / 100))
  if uf s (ageWord n b) 16 16 = 0 then 16 * q else nth g.acc b 0 + q - nth g.acc b 0 / 16

/-- The channel learns (07 R212). -/
def flowLearns (s : State) (n : Nat) : Bool := bit (used s (flwA n 10)) 22

/-- The sample goes in, and a new window starts. -/
def bandSampled (s : State) (n b acc : Nat) : State :=
  modAge (setRF s (ageWord n b) 16 16 (acc / 16)) n fun g => { g with
    n := 0, sumU := 0, sumS := 0, acc := upd g.acc b fun _ => acc
    learnCnt := if flowLearns s n then upd g.learnCnt b fun k => sat 255 (k + 1) else g.learnCnt }

/-- The band is learned where it has its samples (07 R212). -/
def bandLearnt (n b : Nat) (s : State) : State := whenS (learnDue s n b) s fun s => learnOp s n b

/-- CURRENT is above BASE by more than MARGIN per cent, outside learning (07 R213). -/
def bandOld (s : State) (n b acc : Nat) (learn : Bool) : Bool :=
  !learn && uf s (ageWord n b) 0 16 != 0 && decide (uf s (ageWord n b) 0 16 * (100 + uf s (flwA n 10) 16 6) < acc / 16 * 100)

/-- An aged band is marked, and reported where it was not (07 R213). -/
def bandAged (n b acc : Nat) (learn was : Bool) (s : State) : State :=
  let s' := whenS (bandOld s n b acc learn && !was) s fun s => raiseOwner0 s (.flow n) 21
  whenS (bandOld s n b acc learn) s' fun s => modAge s n fun g => { g with ageing := setBit g.ageing b true }

theorem steadyOp_eq (s : State) (n : Nat) : steadyOp s n =
    bandAged n (windowBand s n) (windowAcc s n) (flowLearns s n) (bit (ageOf s n).ageing (windowBand s n))
      (bandLearnt n (windowBand s n) (bandSampled s n (windowBand s n) (windowAcc s n))) := rfl

section Band

variable {n b acc : Nat} {learn was : Bool}

theorem nth_age_same {f : FlowAge → FlowAge} (hn : n < s.core.flw.age.length) : ageOf (modAge s n f) n = f (ageOf s n) :=
  nth_upd_same _ _ _ _ hn

theorem ageOf_bandSampled (hn : n < s.core.flw.age.length) : ageOf (bandSampled s n b acc) n = { ageOf s n with
    n := 0, sumU := 0, sumS := 0, acc := upd (ageOf s n).acc b fun _ => acc
    learnCnt := if flowLearns s n then upd (ageOf s n).learnCnt b fun k => sat 255 (k + 1) else (ageOf s n).learnCnt } :=
  nth_age_same (s := setRF s (ageWord n b) 16 16 (acc / 16)) hn

theorem ageOf_bandLearnt (hn : n < s.core.flw.age.length) : ageOf (bandLearnt n b s) n =
    if learnDue s n b then { ageOf s n with learned := setBit (ageOf s n).learned b true } else ageOf s n := by
  rw [bandLearnt, whenS]
  split
  · exact nth_age_same (s := setRF s (ageWord n b) 0 16 (uf s (ageWord n b) 16 16)) hn
  · rfl

theorem length_age_bandLearnt : (bandLearnt n b s).core.flw.age.length = s.core.flw.age.length := by
  rw [bandLearnt, whenS]
  split
  · exact length_upd _ _ _
  · rfl

theorem ageOf_bandAged (hn : n < s.core.flw.age.length) : ageOf (bandAged n b acc learn was s) n =
    if bandOld s n b acc learn then { ageOf s n with ageing := setBit (ageOf s n).ageing b true } else ageOf s n := by
  have hraise : ∀ c : Bool, (whenS c s fun s => raiseOwner0 s (.flow n) 21).core.flw = s.core.flw := fun c => by cases c <;> rfl
  let s' := whenS (bandOld s n b acc learn && !was) s fun s => raiseOwner0 s (.flow n) 21
  have hs' : s'.core.flw = s.core.flw := hraise _
  have hsame : ageOf s' n = ageOf s n := by rw [ageOf, hs']; rfl
  show ageOf (whenS (bandOld s n b acc learn) s' fun s => modAge s n fun g => { g with ageing := setBit g.ageing b true }) n = _
  rw [whenS]
  split
  · rw [nth_age_same (by rw [hs']; exact hn), hsame]
  · exact hsame

theorem regs_bandAged : (bandAged n b acc learn was s).core.regs = s.core.regs := by
  simp only [bandAged, whenS]
  split <;> split <;> rfl

theorem drive_bandAged : (bandAged n b acc learn was s).core.flw.drive = s.core.flw.drive := by
  simp only [bandAged, whenS]
  split <;> split <;> rfl

theorem drive_bandLearnt : (bandLearnt n b s).core.flw.drive = s.core.flw.drive := by
  rw [bandLearnt, whenS]
  split <;> rfl

theorem rd_bandLearnt {y : Nat} (hwf : swf regReset s.core.regs = true) : rd (bandLearnt n b s) y =
    if y = ageWord n b ∧ learnDue s n b = true then putFld (rd s y) 0 16 (uf s (ageWord n b) 16 16) else rd s y := by
  rw [bandLearnt, whenS]
  by_cases hd : learnDue s n b = true
  · rcases eq_or_ne y (ageWord n b) with rfl | hne
    · rw [if_pos hd, if_pos ⟨rfl, hd⟩]
      exact rd_setRF_same 0 16 _ hwf
    · rw [if_pos hd, if_neg fun h => hne h.1]
      exact rd_setRF_ne 0 16 _ hne
  · rw [if_neg hd, if_neg fun h => hd h.2]

theorem rd_bandSampled_same (hwf : swf regReset s.core.regs = true) :
    rd (bandSampled s n b acc) (ageWord n b) = putFld (rd s (ageWord n b)) 16 16 (acc / 16) := rd_setRF_same 16 16 _ hwf

theorem rd_bandSampled_ne {y : Nat} (h : y ≠ ageWord n b) : rd (bandSampled s n b acc) y = rd s y := rd_setRF_ne 16 16 _ h

theorem used_bandSampled_ne {y : Nat} (h : y ≠ ageWord n b) : used (bandSampled s n b acc) y = used s y := used_congr (rd_bandSampled_ne h) rfl

theorem parity_bandLearnt : (bandLearnt n b s).core.parity = s.core.parity := by
  rw [bandLearnt, whenS]
  split <;> rfl

theorem irq_bandLearnt : (bandLearnt n b s).core.irq = s.core.irq := by
  rw [bandLearnt, whenS]
  split <;> rfl

/-- A band that has aged for the first time is reported to the owner and to P0. -/
theorem pend_bandAged (hold : bandOld s n b acc learn = true) (hirq : s.core.irq.length = 4) :
    bit (nth (bandAged n b acc learn false s).core.irq 0 {}).pend 21 = true ∧
      (ownerN s (.flow n) < 4 → bit (nth (bandAged n b acc learn false s).core.irq (ownerN s (.flow n)) {}).pend 21 = true) := by
  have hirqs : (bandAged n b acc learn false s).core.irq = (raise (raise s (ownerN s (.flow n)) 21) 0 21).core.irq := by
    simp only [bandAged, whenS, hold, Bool.not_false, Bool.and_true, if_true]
    rfl
  rw [hirqs]
  refine ⟨raise_pend _ _ _ ?_ (by decide), fun ho => raise_keeps_pend _ _ _ _ _ (by decide) (raise_pend _ _ _ ?_ (by decide))⟩
  · show 0 < (upd s.core.irq (ownerN s (.flow n)) _).length
    rw [length_upd, hirq]
    decide
  · rw [hirq]
    exact ho

end Band

/-- STEADY_WINDOW_END (07 R210-R213). -/
theorem steadyWindowEnd_ages (n : Fin 6) (hup : coreUp s = true) :
    let g := ageOf s n.val
    let um := g.sumU / 100
    let sm := g.sumS / 100
    let full := uf s (0x100A + 16 * n.val) 0 16
    let q := if 65535 ≤ 64 * um / sm then 65535 else 64 * um / sm
    let b := if 7 ≤ 8 * sm / full then 7 else 8 * sm / full
    let a := 0x1060 + 8 * n.val + b
    let acc := if uf s a 16 16 = 0 then 16 * q else nth g.acc b 0 + q - nth g.acc b 0 / 16
    let learn := bit (used s (0x100A + 16 * n.val)) 22 = true
    let count := sat 255 (nth g.learnCnt b 0 + 1)
    let learns := learn ∧ bit g.learned b = false ∧ uf s (0x100A + 16 * n.val) 24 8 ≤ count
    let aged := ¬learn ∧ uf s a 0 16 ≠ 0 ∧ uf s a 0 16 * (100 + uf s (0x100A + 16 * n.val) 16 6) < acc / 16 * 100
    (g.n < 100 → exec (.steadyWindowEnd n) s = .next (settle s)) ∧
    (100 ≤ g.n → sm ≠ 0 → full ≠ 0 → swf regReset s.core.regs = true → s.core.flw.age.length = 6 → g.acc.length = 8 →
      ∃ t, exec (.steadyWindowEnd n) s = .next t ∧ (ageOf t n.val).n = 0 ∧ nth (ageOf t n.val).acc b 0 = acc ∧
        rf t a 16 16 = acc / 16 % 65536 ∧ (∀ x, x ≠ a → rd t x = rd s x) ∧ t.core.flw.drive = s.core.flw.drive ∧
        (badW s a = false → g.learnCnt.length = 8 → nth (ageOf t n.val).learnCnt b 0 = (if learn then count else nth g.learnCnt b 0) ∧
          (learns → rf t a 0 16 = acc / 16 % 65536 ∧ bit (ageOf t n.val).learned b = true) ∧
          (¬learns → rf t a 0 16 = rf s a 0 16 ∧ (ageOf t n.val).learned = g.learned)) ∧
        (badW s a = false → (aged → (ageOf t n.val).ageing = setBit g.ageing b true ∧ (bit g.ageing b = false → s.core.irq.length = 4 →
            bit (nth t.core.irq 0 {}).pend 21 = true ∧ (ownerN s (.flow n.val) < 4 → bit (nth t.core.irq (ownerN s (.flow n.val)) {}).pend 21 = true))) ∧
          (¬aged → (ageOf t n.val).ageing = g.ageing))) := by
  have hexec : exec (.steadyWindowEnd n) s = .next (settle (whenS (decide (100 ≤ (ageOf s n.val).n)) s fun s => steadyOp s n.val)) :=
    instant_core _ hup
  intro g um sm full q b a acc learn count learns aged
  refine ⟨fun h => ?_, fun h100 hsm hfull hwf hlen hacc => ⟨_, hexec, ?_⟩⟩
  · rw [hexec, whenS, if_neg (by simpa using h)]
  have hmin : ∀ k m, nmin k m = if k ≤ m then k else m := fun k m => by
    rw [nmin]
    split <;> split <;> omega
  have hflwA : flwA n.val 10 = 0x100A + 16 * n.val := by
    rw [flwA]
    omega
  have hband : windowBand s n.val = b := by
    rw [windowBand, hflwA]
    exact (congrArg (nmin 7) (if_neg hfull)).trans (hmin 7 _)
  have hword : ageWord n.val b = a := rfl
  have haccW : windowAcc s n.val = acc := by
    rw [windowAcc, hband, hmin]
    rfl
  have hb : b < 8 := by
    show (if 7 ≤ 8 * sm / full then 7 else 8 * sm / full) < 8
    split <;> omega
  have hop : whenS (decide (100 ≤ (ageOf s n.val).n)) s (fun s => steadyOp s n.val) =
      bandAged n.val b acc (flowLearns s n.val) (bit g.ageing b) (bandLearnt n.val b (bandSampled s n.val b acc)) := by
    rw [whenS, if_pos (decide_eq_true h100), steadyOp_eq, hband, haccW]
  rw [hop]
  have hn : n.val < s.core.flw.age.length := by rw [hlen]; exact n.isLt
  let x := bandSampled s n.val b acc
  let y := bandLearnt n.val b x
  have hnx : n.val < x.core.flw.age.length := (length_upd _ _ _).symm ▸ hn
  have hny : n.val < y.core.flw.age.length := by rw [length_age_bandLearnt]; exact hnx
  have hwfx : swf regReset x.core.regs = true := swf_setRF 16 16 _ hwf
  have hx : ageOf x n.val = _ := ageOf_bandSampled hn
  have hy : ageOf y n.val = _ := ageOf_bandLearnt hnx
  have hz : ageOf (settle (bandAged n.val b acc (flowLearns s n.val) (bit g.ageing b) y)) n.val = _ := ageOf_bandAged hny
  have hne : 0x100A + 16 * n.val ≠ a := by
    show 0x100A + 16 * n.val ≠ 0x1060 + 8 * n.val + b
    omega
  have hcfg : used x (0x100A + 16 * n.val) = used s (0x100A + 16 * n.val) := used_bandSampled_ne hne
  have hrdx : rd x a = putFld (rd s a) 16 16 (acc / 16) := rd_bandSampled_same hwf
  have hrdy : ∀ r, rd y r = if r = a ∧ learnDue x n.val b = true then putFld (rd x r) 0 16 (uf x a 16 16) else rd x r := fun r =>
    rd_bandLearnt hwfx
  have hrdz : ∀ r, rd (settle (bandAged n.val b acc (flowLearns s n.val) (bit g.ageing b) y)) r = rd y r := fun r =>
    congrArg (fun m => sget regReset m r) regs_bandAged
  have hlow : fld (rd y a) 16 16 = acc / 16 % 65536 := by
    rw [hrdy a]
    split
    · rw [fld_putFld_other _ _ (by decide) (by decide), hrdx, fld_putFld_half _ _ (by decide)]
    · rw [hrdx, fld_putFld_half _ _ (by decide)]
  have hlearns : flowLearns s n.val = true ↔ learn := by
    rw [flowLearns, hflwA]
  have hkeepY : (ageOf y n.val).n = 0 ∧ (ageOf y n.val).acc = (ageOf x n.val).acc ∧ (ageOf y n.val).learnCnt = (ageOf x n.val).learnCnt ∧
      (ageOf y n.val).ageing = g.ageing := by
    rw [hy]
    split <;> rw [hx] <;> exact ⟨rfl, rfl, rfl, rfl⟩
  have hkeepZ : (ageOf (settle (bandAged n.val b acc (flowLearns s n.val) (bit g.ageing b) y)) n.val).n = (ageOf y n.val).n ∧
      (ageOf (settle (bandAged n.val b acc (flowLearns s n.val) (bit g.ageing b) y)) n.val).acc = (ageOf y n.val).acc ∧
      (ageOf (settle (bandAged n.val b acc (flowLearns s n.val) (bit g.ageing b) y)) n.val).learnCnt = (ageOf y n.val).learnCnt ∧
      (ageOf (settle (bandAged n.val b acc (flowLearns s n.val) (bit g.ageing b) y)) n.val).learned = (ageOf y n.val).learned := by
    rw [hz]
    split <;> exact ⟨rfl, rfl, rfl, rfl⟩
  have hcntX : g.learnCnt.length = 8 → nth (ageOf x n.val).learnCnt b 0 = if learn then count else nth g.learnCnt b 0 := fun hcnt => by
    rw [hx]
    show nth (if flowLearns s n.val = true then upd g.learnCnt b fun k => sat 255 (k + 1) else g.learnCnt) b 0 = _
    simp only [hlearns]
    split
    · exact nth_upd_same _ _ _ _ (by rw [hcnt]; exact hb)
    · rfl
  have hdue : g.learnCnt.length = 8 → (learnDue x n.val b = true ↔ learns) := fun hcnt => by
    have hlearned : (ageOf x n.val).learned = g.learned := by rw [hx]
    have hpos : 0 < count := by
      show 0 < sat 255 (nth g.learnCnt b 0 + 1)
      rw [sat]
      split <;> omega
    rw [learnDue, hflwA, uf, hcfg, hlearned, hcntX hcnt]
    simp only [Bool.and_eq_true, Bool.not_eq_true', decide_eq_true_eq]
    constructor
    · rintro ⟨⟨⟨h1, h2⟩, h3⟩, -⟩
      rw [if_pos h1] at h3
      exact ⟨h1, h2, h3⟩
    · rintro ⟨h1, h2, h3⟩
      rw [if_pos h1]
      exact ⟨⟨⟨h1, h2⟩, h3⟩, hpos⟩
  have hnotdue : ¬learn → learnDue x n.val b = false := fun hno => by
    rw [learnDue, hflwA, hcfg, show bit (used s (0x100A + 16 * n.val)) 22 = false from (Bool.not_eq_true _).mp hno]
    rfl
  have hgoodx : badW s a = false → used x a = rd x a := fun hgood => by
    rw [used, show x.core.parity.elem a = false from hgood]
    rfl
  have hlowx : fld (rd x a) 0 16 = rf s a 0 16 := by
    rw [hrdx, fld_putFld_other _ _ (by decide) (by decide)]
    rfl
  have hold : badW s a = false → (bandOld y n.val b acc (flowLearns s n.val) = true ↔ aged) := fun hgood => by
    have hufs : uf s a 0 16 = rf s a 0 16 := by
      rw [uf, used, show s.core.parity.elem a = false from hgood]
      rfl
    by_cases hl : learn
    · have hf : bandOld y n.val b acc (flowLearns s n.val) = false := by
        rw [bandOld, hlearns.mpr hl]
        rfl
      rw [hf]
      exact ⟨fun h => absurd h (by decide), fun h => absurd hl h.1⟩
    · have hyx : y = x := by
        show whenS (learnDue x n.val b) x _ = x
        rw [whenS, if_neg (by rw [hnotdue hl]; decide)]
      have hf : flowLearns s n.val = false := by simpa using hlearns.not.mpr hl
      rw [bandOld, hyx, hf, hflwA, hword, uf, uf, hcfg, hgoodx hgood, hlowx, ← hufs]
      simp only [Bool.not_false, Bool.true_and, Bool.and_eq_true, bne_iff_ne, decide_eq_true_eq]
      exact ⟨fun h => ⟨hl, h.1, h.2⟩, fun h => ⟨h.2.1, h.2.2⟩⟩
  obtain ⟨hyn, hyacc, hycnt, hyage⟩ := hkeepY
  obtain ⟨hzn, hzacc, hzcnt, hzlearned⟩ := hkeepZ
  refine ⟨hzn.trans hyn, ?_, ?_, fun r hr => ?_, ?_, fun hgood hcnt => ⟨?_, fun hl => ⟨?_, ?_⟩, fun hl => ⟨?_, ?_⟩⟩, fun hgood => ⟨fun hag => ⟨?_, fun hwas hirq => ?_⟩, fun hag => ?_⟩⟩
  · rw [hzacc, hyacc, hx]
    exact nth_upd_same _ _ _ _ (by rw [hacc]; exact hb)
  · rw [rf, hrdz, hlow]
  · rw [hrdz, hrdy, if_neg fun h => hr h.1]
    exact rd_bandSampled_ne hr
  · exact drive_bandAged.trans drive_bandLearnt
  · rw [hzcnt, hycnt]
    exact hcntX hcnt
  · have hd := (hdue hcnt).mpr hl
    rw [rf, hrdz, hrdy, if_pos ⟨rfl, hd⟩, fld_putFld_half _ _ (by decide), uf, hgoodx hgood, hrdx, fld_putFld_half _ _ (by decide)]
    exact Nat.mod_mod _ _
  · rw [hzlearned, hy, if_pos ((hdue hcnt).mpr hl)]
    exact bit_setBit_same _ _ _ hb
  · have hd : ¬(learnDue x n.val b = true) := fun h => hl ((hdue hcnt).mp h)
    rw [rf, hrdz, hrdy, if_neg fun h => hd h.2, hlowx]
  · have hd : ¬(learnDue x n.val b = true) := fun h => hl ((hdue hcnt).mp h)
    rw [hzlearned, hy, if_neg hd, hx]
  · rw [hz, if_pos ((hold hgood).mpr hag)]
    exact congrArg (fun w => setBit w b true) hyage
  · have hfirst : ∀ r k, bit (nth (bandAged n.val b acc (flowLearns s n.val) (bit g.ageing b) y).core.irq r {}).pend k = true →
        bit (nth (settle (bandAged n.val b acc (flowLearns s n.val) (bit g.ageing b) y)).core.irq r {}).pend k = true := fun r k =>
      pendRises_settle _ r k
    have hirqY : y.core.irq.length = 4 := by
      rw [irq_bandLearnt]
      exact hirq
    have howner : ownerN y (.flow n.val) = ownerN s (.flow n.val) := by
      have hx211 : used x 0x211 = used s 0x211 := used_bandSampled_ne (by show 0x211 ≠ 0x1060 + 8 * n.val + b; omega)
      have hy211 : used y 0x211 = used x 0x211 :=
        used_congr (by rw [hrdy, if_neg fun h => absurd h.1 (by show 0x211 ≠ 0x1060 + 8 * n.val + b; omega)]) (by rw [parity_bandLearnt])
      rw [ownerN, ownerN, uf, uf, hy211, hx211]
    obtain ⟨h0, ho⟩ := pend_bandAged ((hold hgood).mpr hag) hirqY
    rw [howner] at ho
    rw [hwas] at hfirst ⊢
    exact ⟨hfirst _ _ h0, fun h => hfirst _ _ (ho h)⟩
  · have hno : ¬(bandOld y n.val b acc (flowLearns s n.val) = true) := fun h => hag ((hold hgood).mp h)
    rw [hz, if_neg hno]
    exact hyage

/-- Settles O40: the sample, the learning and the ageing of a band are three steps over one word and one record. -/
theorem steadyWindowsAgeTheBands : Obligations.SteadyWindowsAgeTheBands :=
  ⟨fun _ n hup => steadyWindowEnd_ages n hup, fun _ n b hup => learnComplete_marks n b hup⟩

end Sys2Proof.Machine
end

section
/-! PROOFS. Chapter 14: START of a unit whose CTL word alone has failed parity. -/

set_option Elab.async false

namespace Sys2Proof.Machine

/-- BLKSTAT.PARITY of unit 0 after a command. -/
def unitParity : Host.Outcome State Fault Refusal → Bool
  | .next t => (cvuOf t 0).parity
  | _ => false

/-- The write of START stores CTL, which has BLKSTAT.PARITY judged again (14 R405). -/
theorem unitParity_start : unitParity (exec (.cvuStart 0 0 0) ctlFailedAlone) = false := by decide +kernel

/-- Refutes O57: its clause that START to a unit with BLKSTAT.PARITY set changes nothing but the port leaves out, as O58 does, a CTL
word that has failed parity: the frame that writes it clears BLKSTAT.PARITY, no configuration word of the unit having failed. -/
theorem not_checkUnitCommandsActOrAreMasked : ¬ Obligations.CheckUnitCommandsActOrAreMasked := by
  unfold Obligations.CheckUnitCommandsActOrAreMasked
  intro h
  obtain ⟨-, howner, hlisten, -⟩ := ctlFailedAlone_meets
  obtain ⟨-, howns⟩ := h ctlFailedAlone 0 0 0 hlisten
  obtain ⟨hstart, -⟩ := howns howner.symm
  have hparity : (cvuOf ctlFailedAlone (0 : Fin 4).val).parity = true := by decide +kernel
  rw [if_pos (.inr hparity)] at hstart
  have hsame := congrArg unitParity hstart
  rw [unitParity_start] at hsame
  exact absurd (hsame.trans (parity_ctlFailedAlone 0).1) (by decide)

end Sys2Proof.Machine
end

section
/-! PROOFS. Chapter 04: a post is accepted or refused with its code, and an acknowledge frees the oldest messages
(04 R115, R116, Table 4-5). -/

set_option Elab.async false

namespace Sys2Proof.Machine

variable {s x : State} {p : Part} {a : Nat} {r : RegSpec} {v : Word} {seq : Byte}

/-- A frame of one word of WO fields, all of them the writer's, does what the write asks for in the state that the frame
opens, with outcome OK. -/
theorem instant_wo_at {f : State → State} (hl : Listens s p) (hreg : regAt a = some r) (ha : ordinaryAddr a)
    (hwo : ∀ g ∈ r.fs, g.acc = .wo ∧ g.lk = false) (hown : ∀ g ∈ r.fs, writerOf (frameOpen s p seq 1) p.val g.own = p.val)
    {y : State} (hact : writeAct (frameOpen s p seq 1) (frameOpen s p seq 1) p a v = (y, false))
    (hreqs : y.core.seq.reqs.length ≤ (frameOpen s p seq 1).core.seq.reqs.length + 1)
    (hf : f (frameOpen s p seq 1) = nfcGoesOn a v y) :
    instant (whenCore fun s => writeFrame s p seq a [v]) s = .next (framed s p seq a 1 0x00 f) := by
  have hden : wordDenied (frameOpen s p seq 1) p.val a v = false := wordDenied_ordinary hreg ha hown
  obtain ⟨hprim, hquota, hcvu, -⟩ := ha
  refine instant_framed (f := f) hl seq ?_
  rw [writeRegs_wo hreg hden (isStaged_of_primary hprim) hprim hwo hquota hcvu hact hreqs, hf]
  rfl

/-- A write of a partition's own command word from another partition is refused (04 R102, R105). -/
theorem instant_other_denied {m : Word} {q : Nat} (hl : Listens s p) (hp : p.val ≠ q) (hreg : regAt a = some { fs := [fWo m (.part q)] }) :
    instant (whenCore fun s => writeFrame s p seq a [v]) s = .next (deniedAt s p seq a 1) :=
  instant_denied hl seq (wordDenied_of_noField hreg (by simp) (by simpa [fWo, writerOf] using Ne.symm hp) (by simp [severalRes, fWo]))

theorem regAt_mbxPost (n : Fin 12) : regAt (0x600 + 4 * n.val) = some { fs := [fWo 1 (.part (mbxSender n.val))] } := by
  fin_cases n <;> rfl

theorem regAt_mbxAck (n : Fin 12) : regAt (0x601 + 4 * n.val) = some { fs := [fWo (maskW 0 4) (.part (mbxReceiver n.val))] } := by
  fin_cases n <;> rfl

theorem writeAct_mbxPost (n : Fin 12) (x : State) : writeAct x x p (0x600 + 4 * n.val) v = (if bit v 0 then mbxPostOp x n.val else x, false) := by
  fin_cases n <;> rfl

theorem writeAct_mbxAck (n : Fin 12) (x : State) : writeAct x x p (0x601 + 4 * n.val) v = (mbxAckOp x n.val (fld v 0 4), false) := by
  fin_cases n <;> rfl

theorem ordinaryAddr_mbx (n : Fin 12) {k : Nat} (hk : k < 2) : ordinaryAddr (0x600 + k + 4 * n.val) := by
  have hn := n.isLt
  exact ⟨by omega, by omega, by omega, by omega, by omega, by omega, by omega⟩

theorem nfcGoesOn_mbx (n : Fin 12) {k : Nat} (hk : k < 2) (y : State) : nfcGoesOn (0x600 + k + 4 * n.val) v y = y := by
  refine nfcGoesOn_of_not ?_
  have hn := n.isLt
  simp only [touchesNfc, List.any_cons, List.any_nil, Bool.or_false, Bool.or_eq_false_iff, decide_eq_false_iff_not, beq_eq_false_iff_ne]
  omega

/-- The payload slot that the next message of mailbox n takes. -/
def postSlot (s : State) (n : Nat) : Nat := 0x080000 + 0x200 * n + 0x40 * (nth s.core.mbxs n {}).wr

/-- The result code of a post (04 Table 4-5): 0 where it is accepted. -/
def postCode (s : State) (n : Nat) : Nat :=
  let m := nth s.core.mbxs n {}
  let bs := bufBytes s (postSlot s n) 64
  if inReset s (mbxReceiver n) then 5
  else if !bit (used s 0x217) n then 4
  else if 8 ≤ m.held then 3
  else if bufBad s (postSlot s n) 64 then 7
  else if 56 < (nth bs 2 0).toNat ∨ nth bs 3 0 ≠ 0 then 6
  else if leNat (bs.drop 60) ≠ crc32c (bs.take 60) then 1
  else if leNat (bs.take 2) ≠ m.next.toNat then 2
  else 0

/-- What a refused post does: it counts, stores its code and raises the sender's acknowledge source. -/
def postRefused (x : State) (n c : Nat) : State :=
  raise (modMbx x n (fun q => { q with result := c, refused := sat 65535 (q.refused + 1) })) (mbxSender n) 13

/-- What an accepted post does: it fills the next slot and raises the receiver's source. -/
def postAccepted (x : State) (n src : Nat) : State :=
  raise (modMbx x n (fun q => { q with wr := (q.wr + 1) % 8, held := q.held + 1, next := q.next + 1, result := 0 }))
    (mbxReceiver n) src

theorem mbxPostOp_unread {n c : Nat} (hc : postCode s n = c) (h : c = 3 ∨ c = 4 ∨ c = 5) : mbxPostOp s n = postRefused s n c := by
  subst hc
  exact (show mbxPostOp s n = (if postCode s n = 0 then
      postAccepted (if postCode s n = 3 ∨ postCode s n = 4 ∨ postCode s n = 5 then s else bufTouch s (postSlot s n) 64) n
        (if uf _ 0x218 (2 * n) 2 = 3 then 12 else 11)
    else postRefused (if postCode s n = 3 ∨ postCode s n = 4 ∨ postCode s n = 5 then s else bufTouch s (postSlot s n) 64) n (postCode s n))
    from rfl).trans (by rw [if_neg (by omega), if_pos h])

theorem mbxPostOp_read {n c : Nat} (hc : postCode s n = c) (h : ¬(c = 3 ∨ c = 4 ∨ c = 5)) (h0 : c ≠ 0) :
    mbxPostOp s n = postRefused (bufTouch s (postSlot s n) 64) n c := by
  subst hc
  exact (show mbxPostOp s n = (if postCode s n = 0 then
      postAccepted (if postCode s n = 3 ∨ postCode s n = 4 ∨ postCode s n = 5 then s else bufTouch s (postSlot s n) 64) n
        (if uf _ 0x218 (2 * n) 2 = 3 then 12 else 11)
    else postRefused (if postCode s n = 3 ∨ postCode s n = 4 ∨ postCode s n = 5 then s else bufTouch s (postSlot s n) 64) n (postCode s n))
    from rfl).trans (by rw [if_neg h0, if_neg h])

theorem mbxPostOp_accepted {n : Nat} (hc : postCode s n = 0) :
    mbxPostOp s n = postAccepted (bufTouch s (postSlot s n) 64) n (if uf s 0x218 (2 * n) 2 = 3 then 12 else 11) := by
  exact (show mbxPostOp s n = (if postCode s n = 0 then
      postAccepted (if postCode s n = 3 ∨ postCode s n = 4 ∨ postCode s n = 5 then s else bufTouch s (postSlot s n) 64) n
        (if uf (modMbx (if postCode s n = 3 ∨ postCode s n = 4 ∨ postCode s n = 5 then s else bufTouch s (postSlot s n) 64) n
          (fun q => { q with wr := (q.wr + 1) % 8, held := q.held + 1, next := q.next + 1, result := 0 })) 0x218 (2 * n) 2 = 3 then 12 else 11)
    else postRefused (if postCode s n = 3 ∨ postCode s n = 4 ∨ postCode s n = 5 then s else bufTouch s (postSlot s n) 64) n (postCode s n))
    from rfl).trans (by rw [if_pos hc, if_neg (by omega)]; rfl)

theorem mbxPostOp_reqs (n : Nat) : (mbxPostOp s n).core.seq.reqs = s.core.seq.reqs := by
  have h : Goes [.buf, .mbxs, .irqPend] s (mbxPostOp s n) := (Goes.refl _ _).mbxPostOp (by simp) (by simp) (by simp)
  exact congrArg SeqSt.reqs (h.same .seq (by decide))

theorem mbxAckOp_reqs (n k : Nat) : (mbxAckOp s n k).core.seq.reqs = s.core.seq.reqs := by
  have h : Goes [.mbxs, .irqPend] s (mbxAckOp s n k) := (Goes.refl _ _).mbxAckOp (by simp) (by simp)
  exact congrArg SeqSt.reqs (h.same .seq (by decide))

theorem mbxAckOp_frees {n k f : Nat} (hf : (if k ≤ (nth s.core.mbxs n {}).held then k else (nth s.core.mbxs n {}).held) = f) :
    mbxAckOp s n k = if f = 0 then s else
      raise (modMbx s n (fun q => { q with rd := (q.rd + f) % 8, held := q.held - f })) (mbxSender n) 13 := by
  have hmin : nmin k (nth s.core.mbxs n {}).held = f := by
    unfold nmin
    split at hf <;> split <;> omega
  subst hmin
  rfl

/-- A post frame of the sender does what the write asks for. -/
theorem instant_mbxPost {f : State → State} (n : Fin 12) (hl : Listens s p) (hp : p.val = mbxSender n.val)
    (hf : f (frameOpen s p seq 1) = if bit v 0 then mbxPostOp (frameOpen s p seq 1) n.val else frameOpen s p seq 1) :
    instant (whenCore fun s => writeFrame s p seq (0x600 + 4 * n.val) [v]) s = .next (framed s p seq (0x600 + 4 * n.val) 1 0x00 f) := by
  refine instant_wo_at hl (regAt_mbxPost n) (ordinaryAddr_mbx n (k := 0) (by decide)) (by simp [fWo]) (by simpa [fWo, writerOf] using hp.symm)
    (writeAct_mbxPost n _) ?_ (hf.trans (nfcGoesOn_mbx n (k := 0) (by decide) _).symm)
  split
  · rw [mbxPostOp_reqs]
    exact Nat.le_succ _
  · exact Nat.le_succ _

/-- An acknowledge frame of the receiver does what the write asks for. -/
theorem instant_mbxAck {f : State → State} (n : Fin 12) (hl : Listens s p) (hp : p.val = mbxReceiver n.val)
    (hf : f (frameOpen s p seq 1) = mbxAckOp (frameOpen s p seq 1) n.val (fld v 0 4)) :
    instant (whenCore fun s => writeFrame s p seq (0x601 + 4 * n.val) [v]) s = .next (framed s p seq (0x601 + 4 * n.val) 1 0x00 f) := by
  refine instant_wo_at hl (regAt_mbxAck n) (ordinaryAddr_mbx n (k := 1) (by decide)) (by simp [fWo]) (by simpa [fWo, writerOf] using hp.symm)
    (writeAct_mbxAck n _) ?_ (hf.trans (nfcGoesOn_mbx n (k := 1) (by decide) _).symm)
  rw [mbxAckOp_reqs]
  exact Nat.le_succ _

/-- Settles O25: the write's action is the post or the acknowledge, whose code is judged in the order of Table 4-5. -/
theorem mailboxPostsAndAcks : Obligations.MailboxPostsAndAcks := by
  intro s p seq n v hl m a bs up refuse read
  have hopen := PortOnly.frameOpen p s seq 1
  have hcode : postCode (frameOpen s p seq 1) n.val = postCode s n.val := hopen.same fun x => postCode x n.val
  have hslot : postSlot (frameOpen s p seq 1) n.val = a := hopen.same fun x => postSlot x n.val
  have hmbx : nth (frameOpen s p seq 1).core.mbxs n.val {} = m := hopen.same fun x => nth x.core.mbxs n.val {}
  have hprio : uf (frameOpen s p seq 1) 0x218 (2 * n.val) 2 = uf s 0x218 (2 * n.val) 2 := hopen.same fun x => uf x 0x218 (2 * n.val) 2
  have hunread : ∀ c, postCode s n.val = c → (c = 3 ∨ c = 4 ∨ c = 5) → p.val = mbxSender n.val → bit v 0 = true → refuse c id :=
    fun c hc h hp hv => instant_mbxPost n hl hp (by rw [if_pos hv, mbxPostOp_unread (hcode.trans hc) h]; rfl)
  have hread : ∀ c, postCode s n.val = c → (c = 1 ∨ c = 2 ∨ c = 6 ∨ c = 7) → p.val = mbxSender n.val → bit v 0 = true → refuse c read :=
    fun c hc h hp hv => instant_mbxPost n hl hp
      (by rw [if_pos hv, mbxPostOp_read (hcode.trans hc) (by omega) (by omega), hslot]; rfl)
  have hopened : inReset s (mbxReceiver n.val) = false → up → postCode s n.val = if 8 ≤ m.held then 3 else
      if bufBad s a 64 then 7 else if 56 < (nth bs 2 0).toNat ∨ nth bs 3 0 ≠ 0 then 6
      else if leNat (bs.drop 60) ≠ crc32c (bs.take 60) then 1 else if leNat (bs.take 2) ≠ m.next.toNat then 2 else 0 :=
    fun hr hup => (if_neg (by simp [hr])).trans (if_neg (by simpa using hup))
  have hfree := fun hr hup (hheld : m.held < 8) => (hopened hr hup).trans (if_neg (Nat.not_le.mpr hheld))
  have hreadable := fun hr hup hheld (hbad : bufBad s a 64 = false) => (hfree hr hup hheld).trans (if_neg (by simp [hbad]))
  have hformed := fun hr hup hheld hbad (hlen : (nth bs 2 0).toNat ≤ 56) (hres : nth bs 3 0 = 0) =>
    (hreadable hr hup hheld hbad).trans (if_neg (not_or.mpr ⟨Nat.not_lt.mpr hlen, not_not.mpr hres⟩))
  refine ⟨fun hp => instant_other_denied hl hp (regAt_mbxPost n), fun hp hv => ?_, fun hp hv => ⟨fun hr => ?_, fun hr hup => ?_,
    fun hr hup hheld => ?_, fun hr hup hheld => ⟨fun hbad => ?_, fun hbad hform => ?_, fun hbad hlen hres hcrc => ?_,
      fun hbad hlen hres hcrc hseq => ?_⟩, fun hr hup hheld hbad hlen hres hcrc hseq => ?_⟩,
    fun hp => instant_other_denied hl hp (regAt_mbxAck n), fun hp => ⟨fun hf => ?_, fun hf => ?_⟩⟩
  · exact instant_mbxPost n hl hp (by simp [hv])
  · exact hunread 5 (if_pos hr) (by decide) hp hv
  · exact hunread 4 ((if_neg (by simp [hr])).trans (if_pos (by simpa [up] using hup))) (by decide) hp hv
  · exact hunread 3 ((hopened hr hup).trans (if_pos hheld)) (by decide) hp hv
  · exact hread 7 ((hfree hr hup hheld).trans (if_pos hbad)) (by decide) hp hv
  · exact hread 6 ((hreadable hr hup hheld hbad).trans (if_pos hform)) (by decide) hp hv
  · exact hread 1 ((hformed hr hup hheld hbad hlen hres).trans (if_pos hcrc)) (by decide) hp hv
  · exact hread 2 ((hformed hr hup hheld hbad hlen hres).trans ((if_neg (not_not.mpr hcrc)).trans (if_pos hseq))) (by decide) hp hv
  · have h0 : postCode s n.val = 0 := (hformed hr hup hheld hbad hlen hres).trans
      ((if_neg (not_not.mpr hcrc)).trans (if_neg (not_not.mpr hseq)))
    exact instant_mbxPost n hl hp (by rw [if_pos hv, mbxPostOp_accepted (hcode.trans h0), hslot, hprio]; rfl)
  · exact instant_mbxAck n hl hp (by rw [mbxAckOp_frees (by rw [hmbx]), if_pos hf]; rfl)
  · exact instant_mbxAck n hl hp (by rw [mbxAckOp_frees (by rw [hmbx]), if_neg hf])

end Sys2Proof.Machine
end

section
/-! PROOFS. Chapter 04: what the start of a partition reset takes (04 R125, Table 4-7). -/

set_option Elab.async false

namespace Sys2Proof.Machine

variable {s x : State} {p : Part} {v : Word} {seq : Byte}

/-- The reset is noted: its cause and count, the partition in reset, and its watchdog stopped. -/
def resetMarked (s : State) (p cause : Nat) : State :=
  modWdog (modPart (modPart s (fun q => { q with rstCause := upd q.rstCause p (fun _ => cause) })) (fun q => { q with
    inReset := setBit q.inReset p true, rstCount := upd q.rstCount p (fun n => sat 255 (n + 1)) }))
    p (fun w => { w with running := false, warned := false, expectA5 := false })

/-- The port takes its framing state, and what the partition has staged goes back. -/
def resetPort (s : State) (p : Nat) : State :=
  let x := portReset (passes s (fun k => decide (0x802 + 64 * p ≤ k ∧ k ≤ 0x806 + 64 * p))) p
  restage x (carryMask x p)

/-- The mailboxes that the partition receives are emptied. -/
def resetMbxs (s : State) (p : Nat) : State := ((upto 12).filter (fun n => mbxReceiver n == p)).foldl mbxEmpty s

/-- The work of the partition in NFC, EFL, EPD, KEY and the check units is discarded. -/
def resetWork (s : State) (p : Nat) : State :=
  let x := eflPartReset (nfcPartReset s p) p
  let y := keyFifoReset (((upto 4).filter (fun r => ownerN x (.panel r) == p)).foldl epdRegionMoved x) p
  ((upto 4).filter (fun u => ownerN y (.cvu u) == p)).foldl cvuMoved y

/-- Its timebase latch and its interrupt controller go to their reset values. -/
def resetIrq (s : State) (p : Nat) : State :=
  modC s (fun c => { c with
    dev := { c.dev with latches := upd c.dev.latches p (fun _ => 0) }
    irq := upd c.irq p (fun q => { asserts := q.asserts }) })

theorem partResetStart_again {t cause : Nat} (h : inReset s t = true) :
    partResetStart s t cause = modPart s (fun q => { q with rstCause := upd q.rstCause t (fun _ => cause) }) := if_pos h

theorem partResetStart_first {t cause : Nat} (h : inReset s t = false) :
    let x := resetIrq (resetWork (resetMbxs (resetPort (resetMarked s t cause) t) t) t) t
    partResetStart s t cause = if t < 3 ∧ bit (used x (0x270 + t)) 0 then hrstPulse x t else x :=
  if_neg (show ¬inReset s t = true by rw [h]; exact Bool.false_ne_true)

theorem goes_resetMarked {t cause : Nat} : Goes [.part] s (resetMarked s t cause) :=
  (((Goes.refl _ s).modPart (by decide)).modPart (by decide)).modWdog (by decide)

theorem goes_resetPort {t : Nat} : Goes [.regs, .parity, .ports] s (resetPort s t) :=
  (((Goes.refl _ s).passes (by decide)).portReset (by decide) (by decide) (by decide)).restage (by decide)

theorem goes_resetMbxs {t : Nat} : Goes [.mbxs, .irqPend] s (resetMbxs s t) :=
  (Goes.refl _ s).foldl fun _ _ h => h.mbxEmpty (by decide) (by decide)

theorem goes_resetWork {t : Nat} : Goes [.irqPend, .nfc, .efl, .epd, .key, .cvu] s (resetWork s t) :=
  (((((Goes.refl _ s).nfcPartReset (by decide)).eflPartReset (by decide) (by decide)).foldl fun _ _ h =>
    h.epdRegionMoved (by decide)).keyFifoReset (by decide)).foldl fun _ _ h => h.cvuMoved (by decide)

theorem goes_resetIrq {t : Nat} : Goes [.dev, .irqPend, .irqSet, .irqRound] s (resetIrq s t) :=
  (Goes.refl _ s).core_dev_irq (f := fun d => { d with latches := upd d.latches t fun _ => 0 })
    (g := fun l => upd l t fun q => { asserts := q.asserts }) (by decide) (by decide) (by decide) (by decide)
    (fun _ => length_upd _ _ _) fun _ => length_upd _ _ _

/-- A reset that starts changes nothing after the interrupt controller but for a pulse on the port. -/
theorem goes_partResetStart_tail {t cause : Nat} (h : inReset s t = false) :
    Goes [.ports] (resetIrq (resetWork (resetMbxs (resetPort (resetMarked s t cause) t) t) t) t) (partResetStart s t cause) := by
  rw [partResetStart_first h]
  exact .cond ((Goes.refl _ _).hrstPulse (by decide)) (Goes.refl _ _)

theorem part_partResetStart {t cause : Nat} (h : inReset s t = false) :
    (partResetStart s t cause).core.part = (resetMarked s t cause).core.part :=
  ((goes_partResetStart_tail h).same .part (by decide)).trans <|
    (goes_resetIrq.same .part (by decide)).trans <| (goes_resetWork.same .part (by decide)).trans <|
    (goes_resetMbxs.same .part (by decide)).trans (goes_resetPort.same .part (by decide))

theorem nth_mbxEmpty_same {n : Nat} (hn : n < s.core.mbxs.length) : (nth (mbxEmpty s n).core.mbxs n {}).held = 0 := by
  by_cases h : (nth s.core.mbxs n {}).held = 0
  · rw [show mbxEmpty s n = s from if_pos h]
    exact h
  · rw [show mbxEmpty s n = _ from if_neg h]
    exact congrArg MbxSt.held (nth_upd_same _ _ _ _ hn)

theorem nth_mbxEmpty_ne {n m : Nat} (h : m ≠ n) : nth (mbxEmpty s n).core.mbxs m {} = nth s.core.mbxs m {} := by
  by_cases h0 : (nth s.core.mbxs n {}).held = 0
  · rw [show mbxEmpty s n = s from if_pos h0]
  · rw [show mbxEmpty s n = _ from if_neg h0]
    exact nth_upd_ne _ _ _ _ _ h

theorem nth_foldl_mbxEmpty {l : List Nat} {m : Nat} (hm : m ∉ l) (s : State) :
    nth (l.foldl mbxEmpty s).core.mbxs m {} = nth s.core.mbxs m {} := by
  induction l generalizing s with
  | nil => rfl
  | cons n l ih =>
    obtain ⟨hne, hl⟩ := not_or.mp (mt List.mem_cons.mpr hm)
    exact (ih hl _).trans (nth_mbxEmpty_ne hne)

theorem held_foldl_mbxEmpty {l : List Nat} {m : Nat} (hm : m ∈ l) (s : State) (hlen : m < s.core.mbxs.length) :
    (nth (l.foldl mbxEmpty s).core.mbxs m {}).held = 0 := by
  induction l generalizing s with
  | nil => exact absurd hm List.not_mem_nil
  | cons n l ih =>
    have hlen' : m < (mbxEmpty s n).core.mbxs.length := by
      unfold mbxEmpty
      dsimp only
      split
      · exact hlen
      · exact hlen.trans_eq (length_upd _ _ _).symm
    by_cases hl : m ∈ l
    · exact ih hl _ hlen'
    · obtain rfl := (List.mem_cons.mp hm).resolve_right hl
      rw [List.foldl_cons, nth_foldl_mbxEmpty hl]
      exact nth_mbxEmpty_same hlen

theorem mbxs_partResetStart {t cause : Nat} (h : inReset s t = false) :
    (partResetStart s t cause).core.mbxs = (resetMbxs (resetPort (resetMarked s t cause) t) t).core.mbxs :=
  ((goes_partResetStart_tail h).same .mbxs (by decide)).trans <|
    (goes_resetIrq.same .mbxs (by decide)).trans (goes_resetWork.same .mbxs (by decide))

theorem parity_partResetStart {t : Part} {cause : Nat} (h : inReset s t.val = false) :
    (partResetStart s t.val cause).core.parity =
      s.core.parity.filter (fun k => !(decide (0x802 + 64 * t.val ≤ k ∧ k ≤ 0x806 + 64 * t.val) || (t != 3 && k == 0x400 + 16 * t.val))) := by
  have hport : (resetPort (resetMarked s t.val cause) t.val).core.parity =
      (portReset (passes (resetMarked s t.val cause) (fun k => decide (0x802 + 64 * t.val ≤ k ∧ k ≤ 0x806 + 64 * t.val))) t.val).core.parity :=
    ((Goes.refl [.regs] _).restage (by decide)).same .parity (by decide)
  refine ((goes_partResetStart_tail h).same .parity (by decide)).trans <|
    (goes_resetIrq.same .parity (by decide)).trans <| (goes_resetWork.same .parity (by decide)).trans <|
    (goes_resetMbxs.same .parity (by decide)).trans <| hport.trans ?_
  unfold portReset
  dsimp only
  split
  next hlt =>
    have ht : (t != 3) = true := by
      rw [bne_iff_ne]
      rintro rfl
      exact absurd hlt (by decide)
    refine (List.filter_filter (l := s.core.parity)).trans (List.filter_congr fun k _ => ?_)
    simp [ht, Bool.and_comm]
  next hge =>
    obtain rfl : t = 3 := Fin.ext (by have ht := t.isLt; show t.val = 3; omega)
    exact List.filter_congr fun k _ => by simp

/-- A change that leaves the interrupt rounds leaves the number of assertions. -/
theorem Goes.asserts {ps : List Piece} {y : State} (h : Goes ps x y) (hround : .irqRound ∉ ps) (q : Nat) :
    (nth y.core.irq q {}).asserts = (nth x.core.irq q {}).asserts := by
  have hsame : y.core.irq.map (fun i => (i.summary, i.asserts)) = x.core.irq.map (fun i => (i.summary, i.asserts)) := h.same .irqRound hround
  have hget : ∀ z : State, (nth z.core.irq q {}).asserts = (nth (z.core.irq.map fun i => (i.summary, i.asserts)) q (false, 0)).2 := fun z =>
    congrArg Prod.snd (proj_nth_eq_nth_map (fun i : IrqSt => (i.summary, i.asserts)) z.core.irq q {})
  rw [hget, hget, hsame]

theorem nth_resetIrq {t : Nat} (ht : t < x.core.irq.length) : nth (resetIrq x t).core.irq t {} = { asserts := (nth x.core.irq t {}).asserts } :=
  nth_upd_same _ _ _ _ ht

/-- What a reset does before its interrupt controller is reset. -/
theorem goes_resetBefore {t cause : Nat} : Goes [.part, .regs, .parity, .ports, .mbxs, .irqPend, .nfc, .efl, .epd, .key, .cvu] s
    (resetWork (resetMbxs (resetPort (resetMarked s t cause) t) t) t) :=
  (goes_resetMarked.mono (by decide)).trans <| (goes_resetPort.mono (by decide)).trans <|
    (goes_resetMbxs.mono (by decide)).trans (goes_resetWork.mono (by decide))

theorem irq_partResetStart_tail {t cause : Nat} (h : inReset s t = false) :
    (partResetStart s t cause).core.irq = (resetIrq (resetWork (resetMbxs (resetPort (resetMarked s t cause) t) t) t) t).core.irq := by
  rw [partResetStart_first h]
  generalize resetIrq (resetWork (resetMbxs (resetPort (resetMarked s t cause) t) t) t) t = z
  split <;> rfl

theorem latches_partResetStart {t cause : Nat} (h : inReset s t = false) :
    (partResetStart s t cause).core.dev.latches = upd s.core.dev.latches t (fun _ => 0) := by
  have hkept := (goes_resetBefore (s := s) (t := t) (cause := cause)).same .dev (by decide)
  have htail := (goes_partResetStart_tail (cause := cause) h).same .dev (by decide)
  generalize resetWork (resetMbxs (resetPort (resetMarked s t cause) t) t) t = y at hkept htail
  generalize partResetStart s t cause = u at htail
  rw [show u.core.dev = (resetIrq y t).core.dev from htail, ← show y.core.dev = s.core.dev from hkept]
  rfl

theorem irq_partResetStart {t : Part} {cause : Nat} (h : inReset s t.val = false) (hirq : s.core.irq.length = 4) :
    nth (partResetStart s t.val cause).core.irq t.val {} = { asserts := (nth s.core.irq t.val {}).asserts } := by
  have hgoes := goes_resetBefore (s := s) (t := t.val) (cause := cause)
  have htail := irq_partResetStart_tail (cause := cause) h
  generalize resetWork (resetMbxs (resetPort (resetMarked s t.val cause) t.val) t.val) t.val = y at hgoes htail
  have hlen : t.val < y.core.irq.length := by
    rw [hgoes.irq_length (by decide), hirq]
    exact t.isLt
  rw [← hgoes.asserts (by decide), ← nth_resetIrq hlen]
  rw [htail]

/-- What the start of the reset of a partition takes. -/
theorem partResetStart_takes (s : State) (t : Part) (cause : Nat) (hirq : s.core.irq.length = 4) (hmbx : s.core.mbxs.length = 12)
    (hwdog : s.core.part.wdog.length = 4) (hlatch : s.core.dev.latches.length = 4) (hcause : s.core.part.rstCause.length = 4)
    (hcount : s.core.part.rstCount.length = 4) :
    let u := partResetStart s t.val cause
    nth u.core.part.rstCause t.val 0 = cause ∧
    (inReset s t.val = true → Keeps [.part] s u ∧ u.core.part.inReset = s.core.part.inReset ∧ u.core.part.rstCount = s.core.part.rstCount) ∧
    (inReset s t.val = false → inReset u t.val = true ∧ (∀ q : Part, q ≠ t → inReset u q.val = inReset s q.val) ∧
      nth u.core.part.rstCount t.val 0 = sat 255 (nth s.core.part.rstCount t.val 0 + 1) ∧
      (wdogOf u t.val).running = false ∧ nth u.core.dev.latches t.val 0 = 0 ∧
      (∀ n : Fin 12, mbxReceiver n.val = t.val → (nth u.core.mbxs n.val {}).held = 0) ∧
      (∀ n : Fin 12, mbxReceiver n.val ≠ t.val → nth u.core.mbxs n.val {} = nth s.core.mbxs n.val {}) ∧
      nth u.core.irq t.val {} = { asserts := (nth s.core.irq t.val {}).asserts } ∧
      u.core.parity = s.core.parity.filter (fun k => !(decide (0x802 + 64 * t.val ≤ k ∧ k ≤ 0x806 + 64 * t.val) || (t != 3 && k == 0x400 + 16 * t.val))) ∧
      Keeps [.regs, .parity, .ports, .part, .mbxs, .irqPend, .irqSet, .irqRound, .dev, .nfc, .efl, .epd, .pix, .key, .cvu] s u) := by
  intro u
  have ht : t.val < 4 := t.isLt
  cases hin : inReset s t.val
  case true =>
    have hu : u = modPart s (fun q => { q with rstCause := upd q.rstCause t.val (fun _ => cause) }) := partResetStart_again hin
    refine ⟨?_, fun _ => ⟨?_, ?_, ?_⟩, fun h => absurd h (by decide)⟩
    · rw [hu]
      exact nth_upd_same _ _ _ _ (hcause.symm ▸ ht)
    · rw [hu]
      exact ((Goes.refl [.part] s).modPart (by decide)).keeps
    · rw [hu]
      rfl
    · rw [hu]
      rfl
  case false =>
    have hpart : u.core.part = (resetMarked s t.val cause).core.part := part_partResetStart hin
    have hmbxs : u.core.mbxs = (resetMbxs (resetPort (resetMarked s t.val cause) t.val) t.val).core.mbxs := mbxs_partResetStart hin
    have hbefore : (resetPort (resetMarked s t.val cause) t.val).core.mbxs = s.core.mbxs :=
      (goes_resetPort.same .mbxs (by decide)).trans (goes_resetMarked.same .mbxs (by decide))
    have hdev : u.core.dev.latches = upd s.core.dev.latches t.val (fun _ => 0) := latches_partResetStart hin
    refine ⟨?_, fun h => absurd h (by decide), fun _ => ⟨?_, fun q hq => ?_, ?_, ?_, ?_, fun n hn => ?_, fun n hn => ?_,
      irq_partResetStart hin hirq, parity_partResetStart hin, ?_⟩⟩
    · rw [hpart]
      exact nth_upd_same _ _ _ _ (hcause.symm ▸ ht)
    · rw [inReset, hpart]
      exact bit_setBit_same _ _ _ ht
    · rw [inReset, hpart]
      exact bit_setBit_ne _ _ _ _ fun h => hq (Fin.ext h)
    · rw [hpart]
      exact nth_upd_same _ _ _ _ (hcount.symm ▸ ht)
    · rw [wdogOf, hpart]
      exact congrArg WdogSt.running (nth_upd_same _ _ _ _ (hwdog.symm ▸ ht))
    · rw [hdev]
      exact nth_upd_same _ _ _ _ (hlatch.symm ▸ ht)
    · rw [hmbxs]
      refine held_foldl_mbxEmpty (List.mem_filter.mpr ⟨List.mem_range.mpr n.isLt, by simpa using hn⟩) _ ?_
      rw [hbefore, hmbx]
      exact n.isLt
    · rw [hmbxs, ← hbefore]
      exact nth_foldl_mbxEmpty (fun hmem => hn (by simpa using (List.mem_filter.mp hmem).2)) _
    · exact ((Goes.refl _ s).partResetStart (by decide)).keeps

end Sys2Proof.Machine
end

section
/-! SUPPORT. What leaves the granules of the transfer buffer as they are (01 R42): their bytes, written bits and guard bits. The
device's own work in NFC and the take-up of a course write records, pixels and nothing of a granule. -/

set_option Elab.async false

namespace Sys2Proof.Machine

theorem sget_sclear_in {α : Type} (d : Nat → α) (m : List (Nat × α)) {lo hi k : Nat} (hlo : lo ≤ k) (hhi : k < hi) :
    sget d (sclear m lo hi) k = d k := by
  refine sget_of_forall_ne fun e he => ?_
  have hout := (List.mem_filter.mp he).2
  simp only [Bool.or_eq_true, decide_eq_true_eq] at hout
  omega

theorem sget_sclear_out {α : Type} (d : Nat → α) (m : List (Nat × α)) {lo hi k : Nat} (hk : k < lo ∨ hi ≤ k) :
    sget d (sclear m lo hi) k = sget d m k := by
  induction m with
  | nil => rfl
  | cons e m ih =>
    unfold sclear at ih ⊢
    rw [List.filter_cons]
    split
    · simp only [sget, ih]
    next hout =>
      have hne : e.1 ≠ k := by
        simp only [Bool.or_eq_true, decide_eq_true_eq] at hout
        omega
      simp only [sget, if_neg hne, ih]

/-- The granules hold in t what they hold in s. -/
structure Spares (s t : State) : Prop where
  bytes : ∀ a < 0x40000, bufByte t a = bufByte s a
  written : t.core.buf.written = s.core.buf.written
  guardOk : t.core.buf.guardOk = s.core.buf.guardOk

section Rules

variable {s₀ s x y : State} {ps : List Piece}

theorem Spares.refl (s : State) : Spares s s := ⟨fun _ _ => rfl, rfl, rfl⟩

theorem Spares.trans (h : Spares s₀ s) (g : Spares s x) : Spares s₀ x :=
  ⟨fun a ha => (g.bytes a ha).trans (h.bytes a ha), g.written.trans h.written, g.guardOk.trans h.guardOk⟩

/-- What leaves the buffer space leaves its granules. -/
theorem Spares.of_buf (hsame : y.core.buf = x.core.buf) : Spares x y :=
  ⟨fun a _ => by rw [bufByte, bufByte, hsame], by rw [hsame], by rw [hsame]⟩

theorem Goes.spares (h : Goes ps x y) (hbuf : .buf ∉ ps) : Spares x y := .of_buf (h.same .buf hbuf)

theorem Spares.cond {c : Prop} {_ : Decidable c} (hx : Spares s₀ x) (hy : Spares s₀ y) : Spares s₀ (if c then x else y) := by
  split
  · exact hx
  · exact hy

theorem Spares.foldl (h : Spares s₀ s) {α : Type} {l : List α} {f : State → α → State}
    (hf : ∀ x a, Spares s₀ x → Spares s₀ (f x a)) : Spares s₀ (l.foldl f s) :=
  List.foldlRecOn l f (motive := Spares s₀) h fun x hx a _ => hf x a hx

theorem Spares.bufTouch (h : Spares s₀ s) {a n : Nat} : Spares s₀ (Machine.bufTouch s a n) :=
  h.trans ⟨fun _ _ => rfl, rfl, rfl⟩

/-- A store above the granules. -/
theorem Spares.bufStore (h : Spares s₀ s) {a : Nat} (ha : 0x40000 ≤ a) {bs : List Byte} : Spares s₀ (Machine.bufStore s a bs) :=
  h.trans ⟨fun _ hb => sget_ssetRun_out _ _ _ _ _ (.inl (Nat.lt_of_lt_of_le hb ha)), rfl, rfl⟩

/-- The return of bytes above the granules to their reset values. -/
theorem Spares.cleared (h : Spares s₀ s) {lo hi : Nat} (hlo : 0x40000 ≤ lo) {bad soft : List Nat → List Nat} :
    Spares s₀ (modC s fun c => { c with buf := { c.buf with
      mem := sclear c.buf.mem lo hi, bad := bad c.buf.bad, soft := soft c.buf.soft } }) :=
  h.trans ⟨fun _ ha => sget_sclear_out _ _ (.inl (Nat.lt_of_lt_of_le ha hlo)), rfl, rfl⟩

theorem Spares.postOne (h : Spares s₀ s) {f : Flight} : Spares s₀ (Machine.postOne s f) := by
  unfold Machine.postOne
  extract_lets p w s1 s2 s3
  have h1 : Spares s₀ s1 := h.bufStore (by omega)
  exact h1.trans (.of_buf rfl)

theorem Spares.postAll (h : Spares s₀ s) : Spares s₀ (Machine.postAll s) := by
  unfold Machine.postAll
  extract_lets new s1
  have h1 : Spares s₀ s1 := h.trans (.of_buf rfl)
  refine h1.foldl fun x n hx => ?_
  split
  · exact .cond hx.postOne hx
  · exact hx

theorem Spares.dispatchRun (h : Spares s₀ s) {l : Nat} {f : Flight} {prog : Bool} : Spares s₀ (Machine.dispatchRun s l f prog).2 :=
  h.foldl fun _ _ h => (h.foldl fun _ _ h => h.bufTouch).trans (((Goes.refl [.nfc] _).modFl (by decide)).spares (by decide))

theorem Spares.chooseRun (h : Spares s₀ s) {l : Nat} : Spares s₀ (Machine.chooseRun s l).2 := by
  have h1 : Spares s₀ (Machine.chooseLun s l).2 := h.trans (((Goes.refl [.nfc] s).chooseLun (by decide)).spares (by decide))
  unfold Machine.chooseRun
  split
  next e => rwa [e] at h1
  next e =>
    rw [e] at h1
    split
    · exact h1
    · exact h1.dispatchRun.trans (((Goes.refl [.nfc] _).contendUpdate (by decide)).spares (by decide))

theorem Spares.dispatchAll (h : Spares s₀ s) : Spares s₀ (Machine.dispatchAll s) := by
  unfold Machine.dispatchAll
  dsimp only
  refine h.foldl fun x l hx => .cond ?_ (hx.trans (((Goes.refl [.nfc] x).contendUpdate (by decide)).spares (by decide)))
  split
  · exact hx.chooseRun.trans ((((Goes.refl [.nfc] _).modLun (by decide)).runStart (by decide)).spares (by decide))
  · exact hx.chooseRun

theorem Spares.nfcService (h : Spares s₀ s) : Spares s₀ (Machine.nfcService s) := by
  have h1 : Spares s₀ (Machine.dispatchAll (Machine.admitAll s)) :=
    (h.trans (((Goes.refl [.nfc] s).admitAll (by decide)).spares (by decide))).dispatchAll
  exact h1.trans (((((Goes.refl [.nfc] _).admitAll (by decide)).foldl fun _ _ h => h.contendUpdate (by decide)).foldl fun _ _ h =>
    h.grantBus (by decide)).spares (by decide))

theorem Spares.hookEpd (h : Spares s₀ s) {old : State} : Spares s₀ (Machine.hookEpd old s) := by
  unfold Machine.hookEpd
  extract_lets ch s1 s2 s3 s4 off s5 again
  have h1 : Spares s₀ s1 := h.trans (((Goes.refl [.hold] s).whenS fun _ h => h.panelCopy (by decide)).spares (by decide))
  have h2 : Spares s₀ s2 := .cond (h1.cleared (by decide)) h1
  refine h2.trans (Goes.spares (ps := [.epd, .pix, .efl]) ?_ (by decide))
  exact ((((Goes.refl _ s2).epdDiscard (by decide)).foldl fun _ _ h => h.modP (by decide)).whenS fun _ h =>
    (h.epdDiscard (by decide)).modP (by decide)).whenS fun _ h => h.wfValidateStart (by decide) (by decide)

theorem Spares.courseHook (h : Spares s₀ s) {b : Nat} {old : State} : Spares s₀ (Machine.courseHook b old s) := by
  unfold Machine.courseHook
  split
  · exact h.trans ((Goes.refl [] s).hookThm.spares (by decide))
  · exact h.trans (((Goes.refl [.regs, .flw] s).hookFlw (by decide) (by decide)).spares (by decide))
  · exact h.trans (((Goes.refl [.irqPend, .key] s).hookKey (by decide) (by decide)).spares (by decide))
  · exact h.hookEpd
  · exact h.trans (((Goes.refl [.seq] s).hookSeq (by decide)).spares (by decide))
  · exact h.trans (((Goes.refl [.irqPend, .gng] s).hookGng (by decide) (by decide)).spares (by decide))
  · exact h

theorem Spares.takeUpRaw (h : Spares s₀ s) {b : Nat} : Spares s₀ (Machine.takeUpRaw s b) := by
  refine .cond (Spares.courseHook (h.trans (Goes.spares (ps := [.irqPend, .key, .regs, .parity, .course]) ?_ (by decide)))) h
  exact ((Goes.cond ((Goes.refl _ s).encFlush (by decide) (by decide)) (Goes.refl _ s)).courseApply (by decide) (by
    decide)).coursePublish (by decide)

theorem Spares.courseAssign (h : Spares s₀ s) {p : Part} {blocks : BitVec 8} : Spares s₀ (Machine.courseAssign s p blocks) := by
  unfold Machine.courseAssign
  extract_lets ms s1 s2 s3 s4 s5 s6
  have h2 : Spares s₀ s2 := h.trans (Goes.spares (ps := [.course, .nfc])
    (.cond (((Goes.refl _ s).captured (by decide) rfl rfl).modN (by decide)) ((Goes.refl _ s).captured (by decide) rfl rfl)) (by decide))
  have h3 : Spares s₀ s3 := .cond h2.takeUpRaw h2
  have h4 : Spares s₀ s4 := .cond h3 h3.takeUpRaw
  refine h4.trans (Goes.spares (ps := [.regs, .parity, .course, .efl, .nfc, .irqPend]) ?_ (by decide))
  exact (((Goes.refl _ s4).eflTakeRaw (by decide) (by decide) (by decide) (by decide)).nfcTakeRaw (by decide) (by decide) (by
    decide) (by decide)).courseComplete (by decide) (by decide)

theorem Spares.courseCheck (h : Spares s₀ s) : Spares s₀ (Machine.courseCheck s) := by
  have h1 : Spares s₀ (Machine.courseComplete s) :=
    h.trans (((Goes.refl [.course, .irqPend] s).courseComplete (by decide) (by decide)).spares (by decide))
  unfold Machine.courseCheck Machine.courseNext
  split
  · refine .cond h1 (Spares.courseAssign (h1.trans ?_))
    exact ((Goes.refl [.course] _).modCourse (by decide)).spares (by decide)
  · exact h1

theorem Spares.nfcCourse (h : Spares s₀ s) : Spares s₀ (Machine.nfcCourse s) :=
  .cond (Spares.courseCheck (h.trans (((Goes.refl [.regs, .parity, .course, .nfc] s).nfcTakeRaw (by decide) (by decide) (by
    decide) (by decide)).spares (by decide)))) h

theorem Spares.nfcAfter (h : Spares s₀ s) : Spares s₀ (Machine.nfcAfter s) :=
  Spares.postAll (.cond h.nfcService.nfcCourse.nfcService h.nfcService)

theorem Spares.settle (h : Spares s₀ s) : Spares s₀ (Machine.settle s) := h.trans (.of_buf rfl)

end Rules

/-- A run of bytes, byte by byte. -/
theorem sgetRun_eq_map {α : Type} (d : Nat → α) (m : List (Nat × α)) (k n : Nat) : sgetRun d m k n = (upto n).map fun i => sget d m (k + i) := by
  induction n generalizing k with
  | zero => rfl
  | succ n ih =>
    rw [sgetRun, ih, show upto (n + 1) = 0 :: (upto n).map Nat.succ from List.range_succ_eq_map, List.map_cons, List.map_map]
    refine congrArg (List.cons _) (List.map_congr_left fun i _ => ?_)
    exact congrArg (sget d m) (by omega)

theorem granuleBytes_eq_map (s : State) (g : Nat) : granuleBytes s g = (upto 512).map fun i => bufByte s (512 * g + i) := sgetRun_eq_map ..

theorem Spares.granuleBytes {s t : State} (h : Spares s t) {g : Nat} (hg : g < 512) : granuleBytes t g = granuleBytes s g := by
  rw [granuleBytes_eq_map, granuleBytes_eq_map]
  refine List.map_congr_left fun i hi => h.bytes _ ?_
  have hi512 : i < 512 := List.mem_range.mp hi
  omega

/-- The granule reads as zeros, unwritten and without a guard. -/
def Blank (s : State) (g : Nat) : Prop :=
  granuleBytes s g = List.replicate 512 0 ∧ bit s.core.buf.written g = false ∧ bit s.core.buf.guardOk g = false

theorem Spares.blank {s t : State} (h : Spares s t) {g : Nat} (hg : g < 512) (hb : Blank s g) : Blank t g := by
  obtain ⟨hbytes, hwritten, hguard⟩ := hb
  exact ⟨(h.granuleBytes hg).trans hbytes, by rw [h.written]; exact hwritten, by rw [h.guardOk]; exact hguard⟩

theorem blank_granuleClear (s : State) {g : Nat} (hg : g < 512) : Blank (granuleClear s g) g := by
  refine ⟨?_, bit_setBit_same (w := 512) s.core.buf.written g false hg, bit_setBit_same (w := 512) s.core.buf.guardOk g false hg⟩
  rw [granuleBytes_eq_map]
  refine List.eq_replicate_iff.mpr ⟨by rw [List.length_map, upto, List.length_range], fun b hb => ?_⟩
  obtain ⟨i, hi, rfl⟩ := List.mem_map.mp hb
  have hi512 : i < 512 := List.mem_range.mp hi
  refine (sget_sclear_in _ _ (by omega) (by omega)).trans (if_neg ?_)
  omega

/-- The clear of another granule. -/
theorem granuleClear_other (s : State) {g h : Nat} (hne : h ≠ g) :
    granuleBytes (granuleClear s g) h = granuleBytes s h ∧ bit (granuleClear s g).core.buf.written h = bit s.core.buf.written h ∧
      bit (granuleClear s g).core.buf.guardOk h = bit s.core.buf.guardOk h := by
  refine ⟨?_, bit_setBit_ne (w := 512) s.core.buf.written g h false hne, bit_setBit_ne (w := 512) s.core.buf.guardOk g h false hne⟩
  rw [granuleBytes_eq_map, granuleBytes_eq_map]
  refine List.map_congr_left fun i hi => sget_sclear_out _ _ ?_
  have hi512 : i < 512 := List.mem_range.mp hi
  omega

end Sys2Proof.Machine
end

section
/-! PROOFS. Chapter 04: a partition reset is requested, starts and completes (04 R125, Table 4-7). -/

set_option Elab.async false

namespace Sys2Proof.Machine
variable {s x : State} {p : Part} {v : Word} {seq : Byte}

theorem bitsOf_low (v : Word) : bitsOf (v &&& 0xF) 4 = bitsOf v 4 := by
  refine List.filter_congr fun i hi => ?_
  have hi4 : i < 4 := List.mem_range.mp hi
  rw [bit_and, show bit (0xF : Word) i = true by interval_cases i <;> rfl, Bool.and_true]

theorem rstDenied_low (x : State) (p : Nat) (v : Word) : rstDenied x p (v &&& 0xF) = rstDenied x p v := by
  unfold rstDenied
  rw [bitsOf_low]

theorem regAt_partRst : regAt 0x274 = some { fs := [fWo (maskW 0 4) .any] } := rfl

theorem wordDenied_partRst (x : State) (p : Part) (v : Word) : wordDenied x p.val 0x274 v = rstDenied x p.val v := by
  unfold wordDenied
  rw [regAt_partRst]
  show (_ || _ || rstDenied x p.val v) = _
  simp [fWo, writerOf]

/-- A reset request is refused, or starts the resets it names (04 R125). -/
theorem instant_partRst (hl : Listens s p) :
    (rstDenied s p.val (v &&& 0xF) = true → instant (whenCore fun s => writeFrame s p seq 0x274 [v]) s = .next (deniedAt s p seq 0x274 1)) ∧
    (rstDenied s p.val (v &&& 0xF) = false → instant (whenCore fun s => writeFrame s p seq 0x274 [v]) s =
      .next (framed s p seq 0x274 1 0x00 (fun x => nfcAfter ((bitsOf (v &&& 0xF) 4).foldl (fun x t => partResetStart x t (if p = 0 then 1 else 2)) x)))) := by
  have hden : wordDenied (frameOpen s p seq 1) p.val 0x274 v = rstDenied s p.val (v &&& 0xF) := by
    rw [wordDenied_partRst, rstDenied_low]
    exact (PortOnly.frameOpen p s seq 1).same fun x => rstDenied x p.val v
  refine ⟨fun h => instant_denied hl seq (hden.trans h), fun h => ?_⟩
  have hp : (p.val = 0) = (p = 0) := propext ⟨fun h => Fin.ext h, fun h => congrArg Fin.val h⟩
  have hfold : ∀ x, rstWriteOp x p.val v = (bitsOf (v &&& 0xF) 4).foldl (fun x t => partResetStart x t (if p = 0 then 1 else 2)) x := fun x => by
    unfold rstWriteOp
    rw [bitsOf_low]
    simp only [hp]
  refine instant_framed (f := fun x => nfcAfter ((bitsOf (v &&& 0xF) 4).foldl (fun x t => partResetStart x t (if p = 0 then 1 else 2)) x)) hl seq ?_
  rw [writeRegs_wo regAt_partRst (hden.trans h) rfl (by decide) (by simp [fWo]) (by decide) (by decide)
    (y := (rstWriteOp (frameOpen s p seq 1) p.val v, false)) rfl ?_, nfcGoesOn_of rfl, hfold]
  · rfl
  · rw [show (rstWriteOp (frameOpen s p seq 1) p.val v).core.seq = (frameOpen s p seq 1).core.seq from
      ((Goes.refl [.regs, .parity, .dev, .ports, .part, .mbxs, .irqPend, .irqSet, .irqRound, .key, .epd, .efl, .nfc, .cvu] _).rstWriteOp
        (by decide)).same .seq (by decide)]
    exact Nat.le_succ _

/-- A source raised in each of several partitions is pending in each. -/
theorem pend_foldl_raise {l : List Nat} {n q : Nat} (hn : n < 64) (hq : q ∈ l) (x : State) (hlen : q < x.core.irq.length) :
    bit (nth (l.foldl (fun x k => raise x k n) x).core.irq q {}).pend n = true := by
  induction l generalizing x with
  | nil => exact absurd hq List.not_mem_nil
  | cons k l ih =>
    by_cases hl : q ∈ l
    · exact ih hl _ (by rwa [((Goes.refl [.irqPend] x).raise (by decide)).irq_length (by decide)])
    · obtain rfl := (List.mem_cons.mp hq).resolve_right hl
      exact ((Goes.refl [.irqPend] (raise x q n)).foldl fun _ _ h => h.raise (by decide)).pend_of (by decide) (raise_pend x q n hlen hn)

/-- A run of granules is blank once it has been cleared. -/
theorem blank_clearRun {l : List Nat} {q g : Nat} (hg : g < 512) (hmem : ∃ i ∈ l, q + i = g) (x : State) :
    Blank (l.foldl (fun x i => granuleClear x (q + i)) x) g := by
  have hkeep : ∀ (l : List Nat) (x : State), Blank x g → Blank (l.foldl (fun x i => granuleClear x (q + i)) x) g := fun l x hx =>
    List.foldlRecOn l _ (motive := fun y => Blank y g) hx fun y hy i _ => by
      by_cases hi : g = q + i
      · rw [← hi]
        exact blank_granuleClear y hg
      · obtain ⟨hb, hw, hk⟩ := granuleClear_other y hi
        exact ⟨hb.trans hy.1, hw.trans hy.2.1, hk.trans hy.2.2⟩
  induction l generalizing x with
  | nil => exact absurd hmem (by simp)
  | cons i l ih =>
    obtain ⟨j, hj, rfl⟩ := hmem
    rcases List.mem_cons.mp hj with rfl | hj
    · exact hkeep l _ (blank_granuleClear x hg)
    · exact ih ⟨j, hj, rfl⟩ _

/-- The partition leaves its reset, and its ring and windows start anew. -/
def resetLeft (s : State) (t : Nat) : State := nfcPartDone (modPart s (fun q => { q with inReset := setBit q.inReset t false })) t

/-- The granules of its quota are cleared, and its keys and encoders start anew. -/
def resetCleared (x : State) (t : Nat) : State :=
  keyPartReset ((upto (quota x t).2).foldl (fun y i => granuleClear y ((quota x t).1 + i)) x) t

theorem partResetDone_due {t : Nat} (h : partResetDue s t = true) :
    partResetDone s t = nfcAfter (((upto 4).filter (fun x => x != t)).foldl (fun x k => raise x k 10) (wdogStart (resetCleared (resetLeft s t) t) t)) :=
  if_pos h

theorem goes_resetLeft {t : Nat} : Goes [.part, .buf, .nfc] s (resetLeft s t) :=
  ((Goes.refl _ s).modPart (by decide)).nfcPartDone (by decide) (by decide)

theorem goes_resetCleared {t : Nat} : Goes [.buf, .key] x (resetCleared x t) :=
  ((Goes.refl _ x).foldl fun _ _ h => h.granuleClear (by decide)).keyPartReset (by decide)

theorem blank_resetCleared {t g : Nat} (hg : g < 512) (hq : inQuota x t g = true) : Blank (resetCleared x t) g := by
  obtain ⟨hlo, hhi⟩ : (quota x t).1 ≤ g ∧ g < (quota x t).1 + (quota x t).2 := of_decide_eq_true hq
  have hclear : Blank ((upto (quota x t).2).foldl (fun y i => granuleClear y ((quota x t).1 + i)) x) g :=
    blank_clearRun hg ⟨g - (quota x t).1, List.mem_range.mpr (by omega), by omega⟩ x
  exact (((Goes.refl [.key] _).keyPartReset (by decide)).spares (by decide)).blank hg hclear

/-- The completion of a reset that is due. -/
theorem partResetDone_moves (s : State) (t : Part) (hdue : partResetDue s t.val = true) (hirq : s.core.irq.length = 4)
    (hwdog : s.core.part.wdog.length = 4) :
    let z := settle (partResetDone s t.val)
    inReset z t.val = false ∧ (∀ q : Part, q ≠ t → inReset z q.val = inReset s q.val ∧ bit (nth z.core.irq q.val {}).pend 10 = true) ∧
      (wdogOf z t.val).running = bit (used s (0x260 + t.val)) 0 ∧ (wdogOf z t.val).start = now s ∧
      ∀ g : Fin 512, inQuota s t.val g.val = true → Blank z g.val := by
  have hx := goes_resetCleared (x := resetLeft s t.val) (t := t.val)
  have hl := goes_resetLeft (s := s) (t := t.val)
  have hinReset : (resetLeft s t.val).core.part = { s.core.part with inReset := setBit s.core.part.inReset t.val false } :=
    ((Goes.refl [.buf, .nfc] _).nfcPartDone (by decide) (by decide)).same .part (by decide)
  have husedX : ∀ a, used (resetCleared (resetLeft s t.val) t.val) a = used s a := fun a =>
    (used_congr (congrArg (fun m => sget regReset m a) (hx.same .regs (by decide))) (congrArg (fun m => m.elem a) (hx.same .parity (by decide)))).trans
      (used_congr (congrArg (fun m => sget regReset m a) (hl.same .regs (by decide))) (congrArg (fun m => m.elem a) (hl.same .parity (by decide))))
  have husedL : ∀ a, used (resetLeft s t.val) a = used s a := fun a =>
    used_congr (congrArg (fun m => sget regReset m a) (hl.same .regs (by decide))) (congrArg (fun m => m.elem a) (hl.same .parity (by decide)))
  have hblank : ∀ g : Fin 512, inQuota s t.val g.val = true → Blank (resetCleared (resetLeft s t.val) t.val) g.val := fun g hg =>
    blank_resetCleared g.isLt (by
      unfold inQuota quota uf at hg ⊢
      simp only [husedL]
      exact hg)
  have hnow : now (resetCleared (resetLeft s t.val) t.val) = now s :=
    (congrArg Aon.osc (hx.same .aon (by decide))).trans (congrArg Aon.osc (hl.same .aon (by decide)))
  have hpartX : (resetCleared (resetLeft s t.val) t.val).core.part = { s.core.part with inReset := setBit s.core.part.inReset t.val false } :=
    (hx.same .part (by decide)).trans hinReset
  have hirqX : (resetCleared (resetLeft s t.val) t.val).core.irq.length = 4 :=
    (hx.irq_length (by decide)).trans ((hl.irq_length (by decide)).trans hirq)
  intro z
  have hz : z = settle (nfcAfter (((upto 4).filter (fun x => x != t.val)).foldl (fun x k => raise x k 10)
      (wdogStart (resetCleared (resetLeft s t.val) t.val) t.val))) := congrArg settle (partResetDone_due hdue)
  generalize resetCleared (resetLeft s t.val) t.val = x at husedX hblank hnow hpartX hirqX hz
  have htail : Goes (.capo :: .irqRound :: .ports :: .doze :: nandPieces) (wdogStart x t.val) z := by
    rw [hz]
    exact (((Goes.refl _ _).foldl fun _ _ h => h.raise (by decide)).nfcAfter (by decide)).settle (by decide)
  have hpart : z.core.part = (wdogStart x t.val).core.part := htail.same .part (by decide)
  have hwdogX : t.val < x.core.part.wdog.length := by
    rw [hpartX]
    exact hwdog.symm ▸ t.isLt
  have hstart : wdogOf z t.val = { wdogOf x t.val with
      running := bit (used s (0x260 + t.val)) 0, start := now s, limit := (fld (used s (0x260 + t.val)) 8 8 + 1) * 8192,
      warned := false, expectA5 := false, expired := false } := by
    rw [wdogOf, hpart, ← husedX, ← hnow]
    exact nth_upd_same _ _ _ _ hwdogX
  have hinZ : z.core.part.inReset = setBit s.core.part.inReset t.val false := by
    rw [hpart]
    exact congrArg PartSt.inReset hpartX
  refine ⟨?_, fun q hq => ⟨?_, ?_⟩, by rw [hstart], by rw [hstart], fun g hg => ?_⟩
  · rw [inReset, hinZ]
    exact bit_setBit_same _ _ _ t.isLt
  · rw [inReset, hinZ]
    exact bit_setBit_ne _ _ _ _ fun h => hq (Fin.ext h)
  · have hraised := pend_foldl_raise (l := (upto 4).filter (fun x => x != t.val)) (n := 10) (q := q.val) (by decide)
      (List.mem_filter.mpr ⟨List.mem_range.mpr q.isLt, bne_iff_ne.mpr fun h => hq (Fin.ext h)⟩) (wdogStart x t.val) (hirqX.symm ▸ q.isLt)
    rw [hz]
    exact (((Goes.refl (.capo :: .irqRound :: .ports :: .doze :: nandPieces) _).nfcAfter (by decide)).settle (by decide)).pend_of (by decide) hraised
  · rw [hz]
    refine Spares.blank ?_ g.isLt (hblank g hg)
    have hwd : Spares x (wdogStart x t.val) := ((Goes.refl [.part] x).wdogStart (by decide)).spares (by decide)
    exact (hwd.trans (((Goes.refl [.irqPend] _).foldl fun _ _ h => h.raise (by decide)).spares (by decide))).nfcAfter.settle

/-- Settles O27: the request names the partitions, the start's parts are taken one by one, and the completion clears the quota. -/
theorem partitionResetsStartAndComplete : Obligations.PartitionResetsStartAndComplete := by
  refine ⟨fun s p seq v hl => instant_partRst hl, partResetStart_takes, fun s t hup => ⟨fun hdue => ?_, fun hdue hirq hwdog _ => ?_⟩⟩
  · rw [show exec (.partitionResetComplete t) s = instant (whenCore fun s => partResetDone s t.val) s from rfl, instant_core _ hup,
      show partResetDone s t.val = s from if_neg (by simp [hdue])]
  · refine ⟨_, instant_core _ hup, ?_⟩
    exact partResetDone_moves s t hdue hirq hwdog

end Sys2Proof.Machine
end

section
/-! PROOFS. Chapter 04: kicks, warnings and expiries of the watchdogs, the flow release, and the coalescing time-out (04 R119,
R121-R124). -/

set_option Elab.async false

namespace Sys2Proof.Machine

variable {s x y : State} {p : Part} {v : Word} {seq : Byte} {ps : List Piece}

/-- A change that leaves DOZE leaves a waiting device reset. -/
theorem Goes.devrst_same (h : Goes ps x y) (hdoze : .doze ∉ ps) : y.core.pwr.devrst = x.core.pwr.devrst := h.devrst.resolve_left hdoze

/-- A change that leaves the registers and the list of failed words leaves the words in force. -/
theorem Goes.used_same (h : Goes ps x y) (hregs : .regs ∉ ps) (hparity : .parity ∉ ps) (a : Nat) : used y a = used x a :=
  used_congr (congrArg (fun m => sget regReset m a) (h.same .regs hregs)) (congrArg (fun m => m.elem a) (h.same .parity hparity))

theorem ownerN_congr (hused : ∀ a, used y a = used x a) (r : Res) : ownerN y r = ownerN x r := by
  unfold ownerN uf
  cases r <;> simp only [hused]

/-- What the work of NAND and the courses that follow it touch: EPD and GNG are the only blocks that are idle at a commit. -/
def workPieces : List Piece := [.hold, .regs, .parity, .course, .irqPend, .buf, .epd, .pix, .efl, .nfc, .gng]

theorem goes_takeUpRaw_idle {b : Nat} (hb : b = 3 ∨ b = 7) : Goes workPieces s (takeUpRaw s b) := by
  have hcarry : Goes workPieces s (coursePublish (courseApply s fun a => courseBlock a == some b) b) :=
    ((Goes.refl _ s).courseApply (by decide) (by decide)).coursePublish (by decide)
  rcases hb with rfl | rfl
  · exact .cond (hcarry.hookEpd (by decide) (by decide) (by decide) (by decide) (by decide)) (Goes.refl _ _)
  · exact .cond (hcarry.hookGng (by decide) (by decide)) (Goes.refl _ _)

theorem goes_courseAssign_work {q : Part} {blocks : BitVec 8} : Goes workPieces s (courseAssign s q blocks) := by
  unfold courseAssign
  extract_lets ms s1 s2 s3 s4 s5 s6
  have h1 : Goes workPieces s s1 := (Goes.refl _ s).captured (by decide) rfl rfl
  have h2 : Goes workPieces s s2 := .cond (h1.modN (by decide)) h1
  have h3 : Goes workPieces s s3 := .cond (h2.trans (goes_takeUpRaw_idle (.inl rfl))) h2
  have h4 : Goes workPieces s s4 := .cond h3 (h3.trans (goes_takeUpRaw_idle (.inr rfl)))
  exact ((h4.eflTakeRaw (by decide) (by decide) (by decide) (by decide)).nfcTakeRaw (by decide) (by decide) (by decide) (by
    decide)).courseComplete (by decide) (by decide)

theorem goes_courseCheck_work : Goes workPieces s (courseCheck s) := by
  have h1 : Goes workPieces s (courseComplete s) := (Goes.refl _ s).courseComplete (by decide) (by decide)
  unfold courseCheck courseNext
  split
  · exact .cond h1 ((h1.modCourse (by decide)).trans goes_courseAssign_work)
  · exact h1

theorem goes_nfcAfter_work : Goes workPieces s (nfcAfter s) := by
  have h1 : Goes workPieces s (nfcService s) := (Goes.refl _ s).nfcService (by decide) (by decide)
  have h2 : Goes workPieces s (nfcCourse (nfcService s)) := .cond ((h1.nfcTakeRaw (by decide) (by decide) (by decide) (by decide)).trans
    goes_courseCheck_work) h1
  exact (Goes.cond (h2.nfcService (by decide) (by decide)) h1).postAll (by decide) (by decide) (by decide)

theorem regAt_wdogKick (p : Part) : regAt (0x264 + p.val) = some { fs := [fWo (maskW 0 9) (.part p.val)] } := by
  fin_cases p <;> rfl

theorem writeAct_wdogKick (p : Part) (x : State) : writeAct x x p (0x264 + p.val) v = (wdogKickOp x p.val v, false) := by
  fin_cases p <;> rfl

theorem ordinaryAddr_wdogKick (p : Part) : ordinaryAddr (0x264 + p.val) := by
  have hp := p.isLt
  exact ⟨by omega, by omega, by omega, by omega, by omega, by omega, by omega⟩

theorem nfcGoesOn_wdogKick (p : Part) (y : State) : nfcGoesOn (0x264 + p.val) v y = nfcAfter y := nfcGoesOn_of (by fin_cases p <;> rfl)

/-- An expiry is noted: it counts, and triggers the capo of its class. -/
def expireNoted (s : State) (p cause : Nat) : State :=
  capoFault (modWdog s p (fun w => { w with expiries := sat 255 (w.expiries + 1), wrongKick := decide (cause = 1), expired := true, expectA5 := false })) 20

/-- Its flow request is held. -/
def expireHeld (x : State) (p : Nat) (cfg : Word) : State :=
  if bit cfg 16 then modWdog x p (fun w => { w with held := w.held ||| bvOf 6 (fun n => ownerN x (.flow n) == p) }) else x

/-- Its rail action is queued. -/
def expireActed (x : State) (cfg : Word) : State :=
  if fld cfg 18 2 = 1 ∨ fld cfg 18 2 = 2 then
    modC x (fun c => { c with seq := { c.seq with acts := c.seq.acts ++ [(fld cfg 18 2, fld cfg 20 2)] } })
  else x

/-- What an expiry does before the partition's reset or the watchdog's restart. -/
def expireMarked (s : State) (p cause : Nat) : State :=
  expireActed (expireHeld (expireNoted s p cause) p (used s (0x260 + p))) (used s (0x260 + p))

theorem wdogExpire_running {t cause : Nat} (h : (wdogOf s t).running = true) : wdogExpire s t cause =
    if bit (used s (0x260 + t)) 17 then nfcAfter (partResetStart (expireMarked s t cause) t 3) else wdogStart (expireMarked s t cause) t := if_pos h

theorem wdogExpire_stopped {t cause : Nat} (h : (wdogOf s t).running = false) : wdogExpire s t cause = s := if_neg (by simp [h])

theorem goes_expireMarked {t cause : Nat} : Goes [.part, .seq, .capo] s (expireMarked s t cause) := by
  have h1 : Goes [.part, .seq, .capo] s (expireNoted s t cause) := ((Goes.refl _ s).modWdog (by decide)).capoFault (by decide)
  have h2 : Goes [.part, .seq, .capo] s (expireHeld (expireNoted s t cause) t (used s (0x260 + t))) := .cond (h1.modWdog (by decide)) h1
  exact .cond (h2.core_seq (by decide)) h2

theorem part_capoFault (x : State) (n : Nat) : (capoFault x n).core.part = x.core.part := by
  unfold capoFault
  split <;> rfl

theorem part_expireActed (x : State) (cfg : Word) : (expireActed x cfg).core.part = x.core.part := by
  unfold expireActed
  split <;> rfl

/-- The watchdog that has expired. -/
def expiredWdog (s : State) (t cause : Nat) : WdogSt :=
  let w := wdogOf s t
  { w with expiries := sat 255 (w.expiries + 1), wrongKick := decide (cause = 1), expired := true, expectA5 := false,
           held := if bit (used s (0x260 + t)) 16 then w.held ||| bvOf 6 (fun n => ownerN s (.flow n) == t) else w.held }

theorem wdogOf_expireMarked {t cause : Nat} (ht : t < s.core.part.wdog.length) : wdogOf (expireMarked s t cause) t = expiredWdog s t cause := by
  have hnoted : Goes [.part, .capo] s (expireNoted s t cause) := ((Goes.refl _ s).modWdog (by decide)).capoFault (by decide)
  have hpart : (expireNoted s t cause).core.part.wdog = upd s.core.part.wdog t
      (fun w => { w with expiries := sat 255 (w.expiries + 1), wrongKick := decide (cause = 1), expired := true, expectA5 := false }) :=
    congrArg PartSt.wdog (part_capoFault _ _)
  have howner : ∀ n, ownerN (expireNoted s t cause) (.flow n) = ownerN s (.flow n) := fun n =>
    ownerN_congr (hnoted.used_same (by decide) (by decide)) _
  rw [expireMarked, wdogOf, part_expireActed]
  unfold expireHeld
  split
  next hact =>
    show nth (upd (expireNoted s t cause).core.part.wdog t _) t {} = _
    rw [nth_upd_same _ _ _ _ (by rw [hpart, length_upd]; exact ht), hpart, nth_upd_same _ _ _ _ ht]
    simp only [howner, expiredWdog, hact, if_true]
    rfl
  next hact =>
    rw [hpart, nth_upd_same _ _ _ _ ht]
    simp only [expiredWdog, hact, Bool.false_eq_true, if_false]
    rfl

theorem acts_expireMarked (s : State) (t cause : Nat) :
    (expireMarked s t cause).core.seq.reqs = s.core.seq.reqs ∧
    (fld (used s (0x260 + t)) 18 2 = 1 ∨ fld (used s (0x260 + t)) 18 2 = 2 →
      (expireMarked s t cause).core.seq.acts = s.core.seq.acts ++ [(fld (used s (0x260 + t)) 18 2, fld (used s (0x260 + t)) 20 2)]) := by
  have hheld : Goes [.part, .capo] s (expireHeld (expireNoted s t cause) t (used s (0x260 + t))) :=
    .cond ((((Goes.refl _ s).modWdog (by decide)).capoFault (by decide)).modWdog (by decide)) (((Goes.refl _ s).modWdog (by decide)).capoFault (by decide))
  have hseq : (expireHeld (expireNoted s t cause) t (used s (0x260 + t))).core.seq = s.core.seq := hheld.same .seq (by decide)
  have hreqs := congrArg SeqSt.reqs hseq
  unfold expireMarked expireActed
  split
  next hact => exact ⟨hreqs, fun _ => congrArg (fun q : SeqSt => q.acts ++ [(fld (used s (0x260 + t)) 18 2, fld (used s (0x260 + t)) 20 2)]) hseq⟩
  next hact => exact ⟨hreqs, fun h => absurd h hact⟩

theorem capo_expireMarked {t cause : Nat} (h : bit (used s 0x53) 20 = true) :
    (expireMarked s t cause).core.capo = (capoTrigger s 3).core.capo := by
  have hnoted : (expireNoted s t cause).core.capo = (capoTrigger s 3).core.capo :=
    Eq.trans (congrArg (fun x : State => x.core.capo) (show expireNoted s t cause = capoTrigger (modWdog s t fun w =>
      { w with expiries := sat 255 (w.expiries + 1), wrongKick := decide (cause = 1), expired := true, expectA5 := false }) 3 from if_pos h)) rfl
  have hheld : Goes [.part] (expireNoted s t cause) (expireHeld (expireNoted s t cause) t (used s (0x260 + t))) :=
    .cond ((Goes.refl _ _).modWdog (by decide)) (Goes.refl _ _)
  have hacted : Goes [.seq] (expireHeld (expireNoted s t cause) t (used s (0x260 + t))) (expireMarked s t cause) :=
    .cond ((Goes.refl _ _).core_seq (by decide)) (Goes.refl _ _)
  exact (hacted.same .capo (by decide)).trans ((hheld.same .capo (by decide)).trans hnoted)

theorem wdogs_expireMarked (s : State) (t cause : Nat) : (expireMarked s t cause).core.part.wdog.length = s.core.part.wdog.length := by
  have hnoted : (expireNoted s t cause).core.part.wdog.length = s.core.part.wdog.length := by
    rw [show (expireNoted s t cause).core.part = _ from part_capoFault _ _]
    exact length_upd _ _ _
  rw [expireMarked, part_expireActed, ← hnoted]
  unfold expireHeld
  split
  · exact length_upd _ _ _
  · rfl

theorem part_expireMarked (s : State) (t cause : Nat) :
    (expireMarked s t cause).core.part = { s.core.part with wdog := (expireMarked s t cause).core.part.wdog } := by
  have hheld : (expireHeld (expireNoted s t cause) t (used s (0x260 + t))).core.part =
      { (expireNoted s t cause).core.part with wdog := (expireHeld (expireNoted s t cause) t (used s (0x260 + t))).core.part.wdog } := by
    unfold expireHeld
    split <;> rfl
  have hnoted : (expireNoted s t cause).core.part = { s.core.part with wdog := (expireNoted s t cause).core.part.wdog } := by
    rw [show (expireNoted s t cause).core.part = _ from part_capoFault _ _]
    rfl
  rw [expireMarked, part_expireActed, hheld, hnoted]

/-- The record that a reset's start makes. -/
theorem partResetStart_cause (y : State) (t : Part) (cause : Nat) :
    (y.core.part.rstCause.length = 4 → nth (partResetStart y t.val cause).core.part.rstCause t.val 0 = cause) ∧
    bit (partResetStart y t.val cause).core.part.inReset t.val = true ∧
    (inReset y t.val = false → y.core.part.rstCount.length = 4 →
      nth (partResetStart y t.val cause).core.part.rstCount t.val 0 = sat 255 (nth y.core.part.rstCount t.val 0 + 1)) := by
  have ht := t.isLt
  cases hin : inReset y t.val
  · rw [part_partResetStart hin]
    exact ⟨fun h => nth_upd_same _ _ _ _ (h.symm ▸ ht), bit_setBit_same _ _ _ ht, fun _ h => nth_upd_same _ _ _ _ (h.symm ▸ ht)⟩
  · rw [partResetStart_again hin]
    exact ⟨fun h => nth_upd_same _ _ _ _ (h.symm ▸ ht), hin, nofun⟩

/-- What an expiry of a running watchdog leaves. -/
theorem wdogExpire_leaves (s : State) (t : Part) (cause : Nat) (hrun : (wdogOf s t.val).running = true) (hlen : s.core.part.wdog.length = 4) :
    let cfg := used s (0x260 + t.val)
    let u := wdogExpire s t.val cause
    let w := expiredWdog s t.val cause
    (bit cfg 17 = false → wdogOf u t.val = { w with
      running := bit cfg 0, start := now s, limit := (fld cfg 8 8 + 1) * 8192, warned := false, expectA5 := false, expired := false }) ∧
    (bit cfg 17 = true → inReset s t.val = false → wdogOf u t.val = { w with running := false, warned := false, expectA5 := false }) ∧
    (bit cfg 17 = true → inReset s t.val = true → wdogOf u t.val = w) ∧
    (bit cfg 17 = true → inReset u t.val = true ∧ (s.core.part.rstCause.length = 4 → nth u.core.part.rstCause t.val 0 = 3) ∧
      (inReset s t.val = false → s.core.part.rstCount.length = 4 → nth u.core.part.rstCount t.val 0 = sat 255 (nth s.core.part.rstCount t.val 0 + 1))) ∧
    u.core.seq = (expireMarked s t.val cause).core.seq ∧ u.core.capo = (expireMarked s t.val cause).core.capo := by
  intro cfg u w
  have ht : t.val < 4 := t.isLt
  have hw : wdogOf (expireMarked s t.val cause) t.val = w := wdogOf_expireMarked (hlen.symm ▸ ht)
  have hpart := part_expireMarked s t.val cause
  have hgoes := goes_expireMarked (s := s) (t := t.val) (cause := cause)
  have hwlen : t.val < (expireMarked s t.val cause).core.part.wdog.length := by
    rw [wdogs_expireMarked, hlen]
    exact ht
  have hin : inReset (expireMarked s t.val cause) t.val = inReset s t.val := by rw [inReset, hpart]; rfl
  have hnow : now (expireMarked s t.val cause) = now s := congrArg Aon.osc (hgoes.same .aon (by decide))
  have hcfg : used (expireMarked s t.val cause) (0x260 + t.val) = cfg := hgoes.used_same (by decide) (by decide) _
  have hu : u = if bit cfg 17 then nfcAfter (partResetStart (expireMarked s t.val cause) t.val 3) else wdogStart (expireMarked s t.val cause) t.val :=
    wdogExpire_running hrun
  generalize expireMarked s t.val cause = y at *
  cases h17 : bit cfg 17
  case false =>
    rw [h17, if_neg Bool.false_ne_true] at hu
    refine ⟨fun _ => ?_, nofun, nofun, nofun, by rw [hu]; rfl, by rw [hu]; rfl⟩
    rw [hu, ← hw, ← hcfg, ← hnow]
    exact nth_upd_same _ _ _ _ hwlen
  case true =>
    rw [h17, if_pos rfl] at hu
    have hkeep : Goes workPieces (partResetStart y t.val 3) u := hu ▸ goes_nfcAfter_work
    have hreset : Goes [.regs, .parity, .dev, .ports, .part, .mbxs, .irqPend, .irqSet, .irqRound, .key, .epd, .efl, .nfc, .cvu] y
      (partResetStart y t.val 3) := (Goes.refl _ y).partResetStart (by decide)
    have hupart : u.core.part = (partResetStart y t.val 3).core.part := hkeep.same .part (by decide)
    have htake := partResetStart_cause y t 3
    refine ⟨nofun, fun _ hno => ?_, fun _ hyes => ?_, fun _ => ?_,
      (hkeep.same .seq (by decide)).trans (hreset.same .seq (by decide)), (hkeep.same .capo (by decide)).trans (hreset.same .capo (by decide))⟩
    · rw [wdogOf, hupart, part_partResetStart (hin.trans hno), ← hw]
      exact nth_upd_same _ _ _ _ hwlen
    · rw [wdogOf, hupart, partResetStart_again (hin.trans hyes), ← hw]
      rfl
    · obtain ⟨hcause, hstay, hcount⟩ := htake
      have hlens : y.core.part.rstCause.length = s.core.part.rstCause.length ∧ y.core.part.rstCount = s.core.part.rstCount := by rw [hpart]; exact ⟨rfl, rfl⟩
      rw [inReset, hupart]
      exact ⟨hstay, fun h => hcause (hlens.1.trans h), fun hno h => (hcount (hin.trans hno) (hlens.2 ▸ h)).trans (by rw [hlens.2])⟩

theorem upd_upd {α : Type} (l : List α) (i : Nat) (f g : α → α) : upd (upd l i f) i g = upd l i (g ∘ f) := by
  induction l generalizing i with
  | nil => rfl
  | cons a l ih =>
    cases i with
    | zero => rfl
    | succ i => exact congrArg (List.cons a) (ih i)

/-- The value that the next kick expects. -/
def expectedKick (w : WdogSt) : Nat := if w.expectA5 then 0xA5 else 0x5A

/-- The watchdog that a correct kick restarts. -/
def restarted (s : State) (t : Nat) (q : WdogSt) : WdogSt :=
  { q with running := bit (used s (0x260 + t)) 0, start := now s, limit := (fld (used s (0x260 + t)) 8 8 + 1) * 8192, warned := false,
           expired := false, expectA5 := !(wdogOf s t).expectA5 }

/-- The failsafe request of every watchdog goes off the flow channels that the partition owns. -/
def flowReleased (s : State) (t : Nat) (x : State) : State :=
  modPart x (fun q => { q with wdog := q.wdog.map (fun y => { y with held := y.held &&& ~~~(bvOf 6 (fun n => ownerN s (.flow n) == t)) }) })

theorem wdogKickOp_good {t : Nat} (hrun : (wdogOf s t).running = true) (hk : fld v 0 8 = expectedKick (wdogOf s t)) :
    wdogKickOp s t v = if bit v 8 then flowReleased s t (modWdog s t (restarted s t)) else modWdog s t (restarted s t) := by
  have hgood : ((wdogOf s t).running && fld v 0 8 == (if (wdogOf s t).expectA5 then 0xA5 else 0x5A)) = true := by
    rw [hrun, Bool.true_and, beq_iff_eq]
    exact hk
  have hstart : modWdog (wdogStart s t) t (fun q => { q with expectA5 := !(wdogOf s t).expectA5 }) = modWdog s t (restarted s t) :=
    congrArg (fun l => modPart s (fun q => { q with wdog := l })) (upd_upd _ _ _ _)
  unfold wdogKickOp
  dsimp only
  rw [hgood, Bool.true_or, Bool.and_true, if_pos rfl, hstart]
  rfl

theorem wdogKickOp_zero {t : Nat} (hk : fld v 0 8 = 0) :
    wdogKickOp s t v = if (bit v 8 && !(wdogOf s t).expired) = true then flowReleased s t s else s := by
  have hgood : ((wdogOf s t).running && fld v 0 8 == (if (wdogOf s t).expectA5 then 0xA5 else 0x5A)) = false := by
    rw [hk]
    cases (wdogOf s t).running <;> cases (wdogOf s t).expectA5 <;> rfl
  unfold wdogKickOp
  dsimp only
  rw [hgood, hk]
  rfl

theorem wdogKickOp_wrong {t : Nat} (hk : fld v 0 8 ≠ 0) (hbad : (wdogOf s t).running = false ∨ fld v 0 8 ≠ expectedKick (wdogOf s t)) :
    wdogKickOp s t v = wdogExpire s t 1 := by
  have hgood : ((wdogOf s t).running && fld v 0 8 == (if (wdogOf s t).expectA5 then 0xA5 else 0x5A)) = false := by
    rcases hbad with h | h
    · rw [h, Bool.false_and]
    · rw [Bool.and_eq_false_iff, beq_eq_false_iff_ne]
      exact .inr h
  unfold wdogKickOp
  dsimp only
  rw [hgood, show (fld v 0 8 == 0) = false from beq_eq_false_iff_ne.mpr hk, if_neg hk]
  simp

theorem wdogExpire_reqs (s : State) (t : Part) (cause : Nat) : (wdogExpire s t.val cause).core.seq.reqs = s.core.seq.reqs := by
  cases hrun : (wdogOf s t.val).running
  · rw [wdogExpire_stopped hrun]
  · have hmarked := (acts_expireMarked s t.val cause).1
    rw [wdogExpire_running hrun]
    split
    · have hreset : Goes (.dev :: .ports :: .part :: .mbxs :: .irqSet :: .irqRound :: .key :: .cvu :: workPieces) (expireMarked s t.val cause)
          (nfcAfter (partResetStart (expireMarked s t.val cause) t.val 3)) :=
        ((Goes.refl _ _).partResetStart (by decide)).trans (goes_nfcAfter_work.mono (by decide))
      exact (congrArg SeqSt.reqs (hreset.same .seq (by decide))).trans hmarked
    · exact hmarked

theorem wdogKickOp_reqs (s : State) (t : Part) (v : Word) : (wdogKickOp s t.val v).core.seq.reqs = s.core.seq.reqs := by
  by_cases hk : fld v 0 8 = 0
  · rw [wdogKickOp_zero hk]
    split <;> rfl
  · by_cases hbad : (wdogOf s t.val).running = false ∨ fld v 0 8 ≠ expectedKick (wdogOf s t.val)
    · rw [wdogKickOp_wrong hk hbad]
      exact wdogExpire_reqs s t 1
    · obtain ⟨hrun, hexp⟩ := not_or.mp hbad
      rw [wdogKickOp_good (by simpa using hrun) (by simpa using hexp)]
      split <;> rfl

/-- A kick frame of the watchdog's own partition does what the write asks for, and NAND work goes on. -/
theorem instant_wdogKick {f : State → State} (hl : Listens s p)
    (hf : f (frameOpen s p seq 1) = nfcAfter (wdogKickOp (frameOpen s p seq 1) p.val v)) :
    instant (whenCore fun s => writeFrame s p seq (0x264 + p.val) [v]) s = .next (framed s p seq (0x264 + p.val) 1 0x00 f) := by
  refine instant_wo_at hl (regAt_wdogKick p) (ordinaryAddr_wdogKick p) (by simp [fWo]) (by simp [fWo, writerOf])
    (writeAct_wdogKick p _) ?_ (hf.trans (nfcGoesOn_wdogKick p _).symm)
  rw [wdogKickOp_reqs]
  exact Nat.le_succ _

end Sys2Proof.Machine
end

section
/-! PROOFS. Chapter 04: the watchdogs as their commands show them (04 R119, R121-R124). -/

set_option Elab.async false

namespace Sys2Proof.Machine

variable {s x y : State} {p : Part} {v : Word} {seq : Byte} {ps : List Piece}

/-- The close of a frame while no device reset waits. -/
theorem goes_frameClose_quiet {a n code : Nat} (hdev : x.core.pwr.devrst = false) : Goes [.ports, .irqPend] x (frameClose x p seq a n code) := by
  unfold frameClose frameEnd
  extract_lets fail s1 s2
  have h1 : Goes [.ports, .irqPend] x s1 := (Goes.refl _ x).modPort (by decide)
  have h2 : Goes [.ports, .irqPend] x s2 := .cond (h1.raise (by decide)) h1
  have hdev2 : s2.core.pwr.devrst = false := (h2.devrst_same (by decide)).trans hdev
  rw [if_neg (by simp [hdev2])]
  exact h2

theorem devrst_frameOpen (hdev : s.core.pwr.devrst = false) (p : Part) (seq : Byte) (n : Nat) :
    (frameOpen s p seq n).core.pwr.devrst = false := ((PortOnly.frameOpen p s seq n).same fun x => x.core.pwr.devrst).trans hdev

/-- What an expiry may touch. -/
def expiryPieces : List Piece := .dev :: .ports :: .part :: .mbxs :: .irqSet :: .irqRound :: .seq :: .capo :: .key :: .cvu :: workPieces

theorem goes_wdogExpire {t cause : Nat} : Goes expiryPieces s (wdogExpire s t cause) := by
  cases hrun : (wdogOf s t).running
  · rw [wdogExpire_stopped hrun]
    exact Goes.refl _ _
  · have hmarked : Goes expiryPieces s (expireMarked s t cause) := goes_expireMarked.mono (by decide)
    rw [wdogExpire_running hrun]
    exact .cond ((hmarked.partResetStart (by decide)).trans (goes_nfcAfter_work.mono (by decide))) (hmarked.wdogStart (by decide))

theorem held_expiredWdog (s : State) (t cause : Nat) : (wdogOf s t).held &&& (expiredWdog s t cause).held = (wdogOf s t).held := by
  unfold expiredWdog
  dsimp only
  split
  · rw [BitVec.and_comm]
    refine BitVec.eq_of_getLsbD_eq fun i _ => ?_
    simp only [BitVec.getLsbD_and, BitVec.getLsbD_or]
    cases (wdogOf s t).held.getLsbD i <;> simp
  · exact BitVec.and_self

/-- A frame's wrong kick is an expiry by the kick (04 R122, R123). -/
theorem wrongKick_expires (hl : Listens s p) (hrun : (wdogOf s p.val).running = true) (hk : fld v 0 8 ≠ 0)
    (hbad : fld v 0 8 ≠ expectedKick (wdogOf s p.val)) (hlen : s.core.part.wdog.length = 4) (hcause : s.core.part.rstCause.length = 4) :
    let w := wdogOf s p.val
    let cfg := used s (0x260 + p.val)
    ∃ u, instant (whenCore fun s => writeFrame s p seq (0x264 + p.val) [v]) s = .next u ∧
      (wdogOf u p.val).expiries = sat 255 (w.expiries + 1) ∧ (wdogOf u p.val).wrongKick = true ∧
      (wdogOf u p.val).expired = bit cfg 17 ∧ (bit cfg 17 = true → inReset u p.val = true ∧ nth u.core.part.rstCause p.val 0 = 3) ∧
      w.held &&& (wdogOf u p.val).held = w.held := by
  intro w cfg
  have hopen := PortOnly.frameOpen p s seq 1
  have hw : wdogOf (frameOpen s p seq 1) p.val = w := hopen.same fun x => wdogOf x p.val
  have hpart : (frameOpen s p seq 1).core.part = s.core.part := hopen.same fun x => x.core.part
  have hcfg : used (frameOpen s p seq 1) (0x260 + p.val) = cfg := hopen.same fun x => used x (0x260 + p.val)
  have hdev := devrst_frameOpen hl.noDeviceReset p seq 1
  have hin : inReset (frameOpen s p seq 1) p.val = false := (hopen.same fun x => inReset x p.val).trans hl.notInReset
  refine ⟨_, instant_wdogKick (f := fun x => nfcAfter (wdogKickOp x p.val v)) hl rfl, ?_⟩
  unfold framed
  dsimp only
  rw [wdogKickOp_wrong hk (.inr (by rwa [hw]))]
  generalize frameOpen s p seq 1 = x at *
  obtain ⟨hgo, hfirst, -, hreset, -⟩ := wdogExpire_leaves x p 1 (by rw [hw]; exact hrun) (by rw [hpart]; exact hlen)
  rw [hcfg] at hgo hfirst hreset
  have hheld := held_expiredWdog x p.val 1
  have hexpired : expiredWdog x p.val 1 = { w with
      expiries := sat 255 (w.expiries + 1), wrongKick := true, expired := true, expectA5 := false, held := (expiredWdog x p.val 1).held } := by
    rw [← hw]
    rfl
  rw [hw] at hheld
  generalize expiredWdog x p.val 1 = d at *
  have he : Goes expiryPieces x (wdogExpire x p.val 1) := goes_wdogExpire
  generalize wdogExpire x p.val 1 = e at *
  have hn : Goes workPieces e (nfcAfter e) := goes_nfcAfter_work
  have hdevN : (nfcAfter e).core.pwr.devrst = false := (hn.devrst_same (by decide)).trans ((he.devrst_same (by decide)).trans hdev)
  have hclose := goes_frameClose_quiet (p := p) (seq := seq) (a := 0x264 + p.val) (n := 1) (code := 0x00) hdevN
  have hu := ((hn.mono (by decide)).trans (hclose.mono (by decide))).settle (ps := .capo :: .irqRound :: .doze :: .ports :: workPieces) (by decide)
  generalize settle (frameClose (nfcAfter e) p seq (0x264 + p.val) 1 0x00) = u at *
  have hupart : u.core.part = e.core.part := hu.same .part (by decide)
  have hwd : wdogOf u p.val = wdogOf e p.val := congrArg (fun q : PartSt => nth q.wdog p.val {}) hupart
  rw [hwd]
  cases h17 : bit cfg 17
  · rw [hgo h17]
    exact ⟨by rw [hexpired], by rw [hexpired], rfl, nofun, hheld⟩
  · obtain ⟨hinE, hcauseE, -⟩ := hreset h17
    rw [hfirst h17 hin]
    refine ⟨by rw [hexpired], by rw [hexpired], by rw [hexpired], fun _ => ⟨?_, ?_⟩, hheld⟩
    · rw [inReset, hupart]
      exact hinE
    · rw [hupart]
      exact hcauseE (by rw [hpart]; exact hcause)

/-- An expiry at the end of its instant (04 R123). -/
theorem wdogExpiry_leaves (t : Part) (hup : coreUp s = true) (hlen : s.core.part.wdog.length = 4) (hrun : (wdogOf s t.val).running = true) :
    let w := wdogOf s t.val
    let cfg := used s (0x260 + t.val)
    ∃ u, exec (.wdogExpiry t) s = .next u ∧
      (wdogOf u t.val).expiries = sat 255 (w.expiries + 1) ∧ (wdogOf u t.val).wrongKick = false ∧ (wdogOf u t.val).expired = bit cfg 17 ∧
      (bit cfg 16 = true → (wdogOf u t.val).held = w.held ||| bvOf 6 (fun n => ownerN s (.flow n) == t.val)) ∧
      (fld cfg 18 2 = 1 ∨ fld cfg 18 2 = 2 → u.core.seq.acts = s.core.seq.acts ++ [(fld cfg 18 2, fld cfg 20 2)]) ∧
      (bit (used s 0x53) 20 = true → s.core.capo.held = false → u.core.capo.seq = s.core.capo.seq + 1) ∧
      (bit cfg 17 = false → (wdogOf u t.val).running = bit cfg 0 ∧ (wdogOf u t.val).start = now s ∧
        Keeps [.part, .seq, .capo, .gng, .ports, .irqPend, .irqRound, .doze] s u) ∧
      (bit cfg 17 = true → inReset u t.val = true ∧ (s.core.part.rstCause.length = 4 → nth u.core.part.rstCause t.val 0 = 3) ∧
        (inReset s t.val = false → (wdogOf u t.val).running = false ∧
          (s.core.part.rstCount.length = 4 → nth u.core.part.rstCount t.val 0 = sat 255 (nth s.core.part.rstCount t.val 0 + 1)))) := by
  intro w cfg
  refine ⟨_, instant_core _ hup, ?_⟩
  obtain ⟨hgo, hfirst, hagain, hreset, hseq, hcapo⟩ := wdogExpire_leaves s t 0 hrun hlen
  have hacts := (acts_expireMarked s t.val 0).2
  have htrig := capo_expireMarked (s := s) (t := t.val) (cause := 0)
  have hexpired : expiredWdog s t.val 0 = { w with
      expiries := sat 255 (w.expiries + 1), wrongKick := false, expired := true, expectA5 := false, held := (expiredWdog s t.val 0).held } := rfl
  have hheld : bit cfg 16 = true → (expiredWdog s t.val 0).held = w.held ||| bvOf 6 (fun n => ownerN s (.flow n) == t.val) := fun h => if_pos h
  have hkeep : bit cfg 17 = false → Goes [.part, .seq, .capo] s (wdogExpire s t.val 0) := fun h => by
    rw [wdogExpire_running hrun, if_neg (by simp [show bit (used s (0x260 + t.val)) 17 = false from h])]
    exact goes_expireMarked.wdogStart (by decide)
  generalize expireMarked s t.val 0 = y at hseq hcapo hacts htrig
  generalize expiredWdog s t.val 0 = d at *
  generalize wdogExpire s t.val 0 = e at *
  have hwd : wdogOf (settle e) t.val = wdogOf e t.val := rfl
  have hcapoSeq : bit (used s 0x53) 20 = true → s.core.capo.held = false → (settle e).core.capo.seq = s.core.capo.seq + 1 := fun hb hfree =>
    seq_settle_capoTrigger (src := 3) e (by decide) (hcapo.trans (htrig hb)) hfree
  have hactsE : fld cfg 18 2 = 1 ∨ fld cfg 18 2 = 2 → (settle e).core.seq.acts = s.core.seq.acts ++ [(fld cfg 18 2, fld cfg 20 2)] := fun h =>
    (congrArg SeqSt.acts hseq).trans (hacts h)
  rw [hwd]
  cases h17 : bit cfg 17
  · rw [hgo h17]
    exact ⟨by rw [hexpired], by rw [hexpired], rfl, hheld, hactsE, hcapoSeq, fun _ => ⟨rfl, rfl,
      (((hkeep h17).mono (by decide)).settle (ps := [.part, .seq, .capo, .gng, .ports, .irqPend, .irqRound, .doze]) (by decide)).keeps⟩, nofun⟩
  · obtain ⟨hin, hcause, hcount⟩ := hreset h17
    cases hwas : inReset s t.val
    · rw [hfirst h17 hwas]
      exact ⟨by rw [hexpired], by rw [hexpired], by rw [hexpired], hheld, hactsE, hcapoSeq, nofun,
        fun _ => ⟨hin, hcause, fun _ => ⟨rfl, hcount hwas⟩⟩⟩
    · rw [hagain h17 hwas]
      exact ⟨by rw [hexpired], by rw [hexpired], by rw [hexpired], hheld, hactsE, hcapoSeq, nofun, fun _ => ⟨hin, hcause, nofun⟩⟩

/-- Lists of one length whose elements agree under a map. -/
theorem map_eq_of_nth {α β : Type} {g : α → β} {l m : List α} (d : α) (hlen : l.length = m.length)
    (h : ∀ i < m.length, g (nth l i d) = g (nth m i d)) : l.map g = m.map g := by
  refine List.ext_getElem (by simp [hlen]) fun i hi hi' => ?_
  have hm : i < m.length := by simpa using hi'
  have hl : i < l.length := hlen.symm ▸ hm
  have hg := h i hm
  rw [nth, nth, List.getD_eq_getElem _ _ hl, List.getD_eq_getElem _ _ hm] at hg
  simpa using hg

/-- A settled round keeps its events, whether its time is up or not. -/
theorem events_irqAfter_settled {q : IrqSt} (hset : IrqSettled q) (hle : q.events ≤ 255) (now : Nat) (b : Bool) :
    (irqAfter now { q with timeUp := b }).events = q.events := by
  obtain ⟨hraised, hprev, -, hidle⟩ := hset
  by_cases hact : q.pend &&& q.en = 0
  · exact (irqAfter_idle (q := { q with timeUp := b }) hact).2.1.trans (hidle hact).2.1.symm
  · have hnone : q.pend &&& q.en &&& (q.raised ||| ~~~q.prev) = 0 := by
      rw [hraised, hprev, show ((0 : BitVec 64) ||| ~~~(q.pend &&& q.en)) = ~~~(q.pend &&& q.en) from BitVec.zero_or, BitVec.and_not_self]
    rw [events_irqAfter (q := { q with timeUp := b }) hact]
    show sat 255 (q.events + popcnt (q.pend &&& q.en &&& (q.raised ||| ~~~q.prev))) = q.events
    rw [hnone, show popcnt (0 : BitVec 64) = 0 by decide]
    unfold sat
    split <;> omega

/-- A round with an event and an active source asserts its summary once its time is up. -/
theorem summary_irqAfter_timeUp {q : IrqSt} {now : Nat} (hact : q.pend &&& q.en ≠ 0) (hev : 1 ≤ q.events) (hup : q.timeUp = true) :
    (irqAfter now q).summary = true := by
  have hevents : 1 ≤ sat 255 (q.events + popcnt (q.pend &&& q.en &&& (q.raised ||| ~~~q.prev))) := by
    unfold sat
    split <;> omega
  simp only [irqAfter, if_neg hact, hup, decide_eq_true hevents, Bool.or_true, Bool.true_or, Bool.true_and]

theorem Settled.settledAt (hs : Settled s) {i : Nat} (hi : i < s.core.irq.length) : IrqSettled (irqUsed s i (nth s.core.irq i {})) := by
  refine hs.2.1 (nth s.core.irq i {}, i) ?_
  rw [List.mem_zipIdx_iff_getElem?]
  simp [nth, hi]

/-- The round of partition t whose time is up. -/
def timedUp (s : State) (t : Nat) : State := modIrq s t (fun q => { q with timeUp := q.first.isSome })

theorem nth_timedUp {t i : Nat} (hi : i < s.core.irq.length) :
    ∃ b, nth (timedUp s t).core.irq i {} = { nth s.core.irq i {} with timeUp := b } := by
  by_cases h : i = t
  · subst h
    exact ⟨_, nth_upd_same _ _ _ _ hi⟩
  · exact ⟨(nth s.core.irq i {}).timeUp, nth_upd_ne _ _ _ _ _ h⟩

theorem map_timedUp {β : Type} {g : IrqSt → β} (hg : ∀ (q : IrqSt) (b : Bool), g { q with timeUp := b } = g q) (t : Nat) :
    (timedUp s t).core.irq.map g = s.core.irq.map g :=
  map_upd_eq _ _ (fun q => { q with timeUp := q.first.isSome }) _ fun q => hg q _

theorem keeps_timedUp (t : Nat) : Keeps [] s (timedUp s t) := fun k => by
  cases k
  case irqPend => exact .inr (map_timedUp (fun _ _ => rfl) t)
  case irqSet => exact .inr (map_timedUp (fun _ _ => rfl) t)
  case irqRound => exact .inr (map_timedUp (fun _ _ => rfl) t)
  all_goals exact .inr rfl

/-- A coalescing time-out at the end of its instant (04 R119). -/
theorem coalesceTimeout_asserts (t : Part) (hup : coreUp s = true) (hs : Settled s) :
    let q := irqUsed s t.val (nth s.core.irq t.val {})
    ∃ u, exec (.coalesceTimeout t) s = .next u ∧
      (q.first.isSome = true → 1 ≤ q.events → q.pend &&& q.en ≠ 0 → s.core.irq.length = 4 → (nth u.core.irq t.val {}).summary = true) ∧
      Keeps [.irqRound] s u ∧ ((∀ i ∈ s.core.irq, i.events ≤ 255) → u.core.irq.map IrqSt.events = s.core.irq.map IrqSt.events) := by
  intro q
  have htakes : capoTakes (timedUp s t.val) = false := capoTakes_eq_false (.inl hs.quiet.trig)
  have hwith : irqWithCapo (timedUp s t.val) = (timedUp s t.val).core.irq := if_neg (by simp [htakes])
  have hlenT : (timedUp s t.val).core.irq.length = s.core.irq.length := length_upd _ _ _
  refine ⟨settle (timedUp s t.val), instant_core _ hup, fun hfirst hev hact hlen => ?_, ?_, fun hle => ?_⟩
  · have ht : t.val < s.core.irq.length := hlen.symm ▸ t.isLt
    rw [nth_irq_settle _ (by rwa [hlenT]), hwith,
      show nth (timedUp s t.val).core.irq t.val {} = { nth s.core.irq t.val {} with timeUp := (nth s.core.irq t.val {}).first.isSome } from
        nth_upd_same _ _ _ _ ht]
    exact summary_irqAfter_timeUp (q := { q with timeUp := q.first.isSome }) hact hev hfirst
  · have hq : Quiet (timedUp s t.val) := ⟨hs.quiet.trig, hs.quiet.vote, hs.quiet.rpg, hs.quiet.devrst⟩
    have hnew : (nth (timedUp s t.val).core.irq 3 {}).pend &&& ~~~(nth (timedUp s t.val).core.irq 3 {}).lastPend = 0 := by
      have hnth : ∀ x : State, (nth x.core.irq 3 {}).pend &&& ~~~(nth x.core.irq 3 {}).lastPend =
          nth (x.core.irq.map fun i => i.pend &&& ~~~i.lastPend) 3 (({} : IrqSt).pend &&& ~~~({} : IrqSt).lastPend) := fun x =>
        proj_nth_eq_nth_map (fun i : IrqSt => i.pend &&& ~~~i.lastPend) x.core.irq 3 {}
      rw [hnth, map_timedUp (fun _ _ => rfl), ← hnth]
      exact hs.noNewPend
    exact ((keeps_timedUp t.val).trans (hq.keeps_settle_doze hnew hs.2.2.1)).mono (by decide)
  · refine map_eq_of_nth {} ?_ fun i hi => ?_
    · rw [show (settle (timedUp s t.val)).core.irq.length = (irqWithCapo (timedUp s t.val)).length by simp [settle], hwith, hlenT]
    · rw [nth_irq_settle _ (by rwa [hlenT]), hwith]
      obtain ⟨b, hb⟩ := nth_timedUp (t := t.val) hi
      rw [hb]
      exact events_irqAfter_settled (q := irqUsed s i (nth s.core.irq i {})) (hs.settledAt hi)
        (hle (nth s.core.irq i {}) (nth_mem hi)) _ b

/-- Settles O26: the kick's cases, the expiry step by step, and the coalescing time-out. -/
theorem watchdogKicksWarningsAndExpiry : Obligations.WatchdogKicksWarningsAndExpiry := by
  intro s p t seq v hs
  refine ⟨fun hl => ?_, fun hup hlen => ⟨fun hrun hno => ?_, fun hno => ?_, fun hstop => ?_, fun hrun => wdogExpiry_leaves t hup hlen hrun,
    coalesceTimeout_asserts t hup hs⟩⟩
  · have hopen := PortOnly.frameOpen p s seq 1
    have hw : wdogOf (frameOpen s p seq 1) p.val = wdogOf s p.val := hopen.same fun x => wdogOf x p.val
    have hrestart : restarted (frameOpen s p seq 1) p.val = restarted s p.val := hopen.same fun x => restarted x p.val
    have hrelease : flowReleased (frameOpen s p seq 1) p.val = flowReleased s p.val := hopen.same fun x => flowReleased x p.val
    intro w a cfg expected restart mine release wrong
    refine ⟨fun hpt => ?_, fun hrun hk hb hlen => ?_, fun hrun hk hb hlen => ?_, fun hno hb => ?_, fun hk hb => ?_, fun hstop hk hb => ?_,
      fun hrun hk hbad hlen hcause => ?_⟩
    · have hne : p.val ≠ t.val := fun h => hpt (Fin.ext h)
      exact ⟨instant_other_denied hl hne (regAt_wdogKick t), instant_other_denied hl hne (regAt_wdogKick t)⟩
    · refine instant_wdogKick hl ?_
      rw [wdogKickOp_good (by rw [hw]; exact hrun) (by rw [hw]; exact hk), hb, hrestart]
      rfl
    · refine instant_wdogKick hl ?_
      rw [wdogKickOp_good (by rw [hw]; exact hrun) (by rw [hw]; exact hk), hb, hrestart, hrelease]
      rfl
    · refine instant_wdogKick hl ?_
      by_cases hk : fld v 0 8 = 0
      · rw [wdogKickOp_zero hk, hb]
        rfl
      · have hstop := hno.resolve_right hk
        rw [wdogKickOp_wrong hk (.inl (by rw [hw]; exact hstop)), wdogExpire_stopped (by rw [hw]; exact hstop)]
    · refine instant_wdogKick hl ?_
      rw [wdogKickOp_zero hk, hb, hw, hrelease, Bool.true_and]
      show nfcAfter (if w.expired = true then _ else _) = nfcAfter (if (!w.expired) = true then _ else _)
      cases w.expired <;> rfl
    · refine instant_wdogKick hl ?_
      rw [wdogKickOp_wrong hk (.inl (by rw [hw]; exact hstop)), wdogExpire_stopped (by rw [hw]; exact hstop)]
    · obtain ⟨u, hu, hwrong⟩ := wrongKick_expires (seq := seq) hl hrun hk hbad hlen hcause
      exact ⟨⟨u, hu, fun _ => hwrong⟩, ⟨u, hu, fun _ => hwrong⟩⟩
  · refine (instant_core _ hup).trans ?_
    rw [wdogWarnOp, if_pos ⟨hrun, hno⟩]
  · refine (instant_core _ hup).trans ?_
    rw [wdogWarnOp, if_neg]
    rintro ⟨h1, h2⟩
    rcases hno with h | h
    · rw [h1] at h
      cases h
    · rw [h2] at h
      cases h
  · refine (instant_core _ hup).trans ?_
    rw [wdogExpire_stopped hstop]

end Sys2Proof.Machine
end

section
/-! PROOFS. Chapter 04: a moved key group, at a position beyond the matrix (04 R107). -/

set_option Elab.async false

namespace Sys2Proof.Machine

/-- A key that is down at position 800, whose group the model reads in the staged word 0x1308 of key group 0: the staged word puts
it in group 0, the word in force, which the move of group 0 brings back, in group 7. -/
def keyBeyondMatrix : State :=
  modK (setR (setR State.reset 0x1208 7) 0x1308 0) (fun b => { b with keys := [(800, { st := .down })] })

/-- Refutes O23: the statement speaks of a position of any number, and the group of one beyond the 160 of the matrix is read in a
staged word, which the move itself changes, so that its key is not set to release before it reports. -/
theorem not_ownerChangesMoveResources : ¬ Obligations.OwnerChangesMoveResources := by
  intro h
  have hkeys := (h.2.2 keyBeyondMatrix 0 0 1 (by decide +kernel)).2.2.2.2.2.2.2.1 0 (by decide +kernel) 800 (by decide +kernel)
    (.inl (by decide +kernel))
  exact absurd hkeys (by decide +kernel)

end Sys2Proof.Machine
end

section
/-! PROOFS. Chapter 01: the crystal windows, the loss of lock, and what a mismatch leaves (01 R22, R29, R31, R40). -/

set_option Elab.async false

namespace Sys2Proof.Machine

variable {s t : State} {a : Nat} {ps : List Piece}

/-- A bad window moves the timebase to RC32. -/
theorem clockWindowOp_lost (hphase : s.aon.phase ≠ .dead) {edges : Nat} (hx32 : s.aon.onRc32 = false) (hbad : 2000 * edges < 524288) :
    clockWindowOp s edges =
      (let u := modA s fun a => { a with onRc32 := true, goodWins := 0 }
       if coreUp u then
         raiseAll (modC u fun c => { c with pwr := { c.pwr with x32Fail := true, x32Switches := sat 255 (c.pwr.x32Switches + 1) } }) 3
       else u) := by
  have hgood : decide (524288 ≤ 2 * 1000 * edges) = false := decide_eq_false (by omega)
  rw [clockWindowOp, if_neg hphase, if_neg (by simp [hx32]), if_neg (by simp [hgood])]

/-- A window on RC32 moves only the always-on domain. -/
theorem clockWindowOp_onRc32 (hphase : s.aon.phase ≠ .dead) (edges : Nat) (hrc32 : s.aon.onRc32 = true) :
    clockWindowOp s edges = modA s fun a =>
      if 524288 ≤ 2000 * edges then (if 3 ≤ a.goodWins then { a with onRc32 := false, goodWins := 0 } else { a with goodWins := a.goodWins + 1 })
      else { a with goodWins := 0 } := by
  rw [clockWindowOp, if_neg hphase, if_pos hrc32]
  by_cases hgood : 524288 ≤ 2000 * edges
  · rw [if_pos (decide_eq_true (by omega))]
    by_cases hwins : 3 ≤ s.aon.goodWins
    · simp only [modA, hgood, hwins, if_true]
    · simp only [modA, hgood, hwins, if_true, if_false]
  · rw [if_neg (by simpa using by omega)]
    simp only [modA, hgood, if_false]

/-- The crystal windows of O21. -/
theorem clockWindowCheck_moves (s : State) (edges : Nat) (hphase : s.aon.phase ≠ .dead) :
    ∃ t, exec (.clockWindowCheck edges) s = .next t ∧ t.aon.osc = s.aon.osc ∧ t.aon.tbase = s.aon.tbase ∧
      (s.aon.onRc32 = false → 524288 ≤ 2000 * edges → t = settle s) ∧
      (s.aon.onRc32 = false → 2000 * edges < 524288 → t.aon = { s.aon with onRc32 := true, goodWins := 0 } ∧
        (coreUp s = true → t.core.pwr.x32Fail = true ∧ t.core.pwr.x32Switches = sat 255 (s.core.pwr.x32Switches + 1) ∧
          ∀ q ∈ t.core.irq, bit q.pend 3 = true)) ∧
      (s.aon.onRc32 = true → 524288 ≤ 2000 * edges → 3 ≤ s.aon.goodWins → t.aon = { s.aon with onRc32 := false, goodWins := 0 }) ∧
      (s.aon.onRc32 = true → 524288 ≤ 2000 * edges → s.aon.goodWins < 3 → t.aon = { s.aon with goodWins := s.aon.goodWins + 1 }) ∧
      (s.aon.onRc32 = true → 2000 * edges < 524288 → t.aon = { s.aon with goodWins := 0 }) ∧
      (s.aon.onRc32 = true → t.core.pwr.x32Switches = s.core.pwr.x32Switches) := by
  refine ⟨settle (clockWindowOp s edges), rfl, ?_⟩
  cases hclock : s.aon.onRc32 with
  | true =>
    rw [clockWindowOp_onRc32 hphase edges hclock]
    simp only [settle_aon, modA]
    refine ⟨?_, ?_, nofun, nofun, fun _ hgood hwins => ?_, fun _ hgood hwins => ?_, fun _ hbad => ?_, fun _ => rfl⟩
    · split
      · split <;> rfl
      · rfl
    · split
      · split <;> rfl
      · rfl
    · rw [if_pos hgood, if_pos hwins]
    · rw [if_pos hgood, if_neg (by omega)]
    · rw [if_neg (by omega), hclock]
  | false =>
    by_cases hgood : 524288 ≤ 2000 * edges
    · have hop : clockWindowOp s edges = s := by
        rw [clockWindowOp, if_neg hphase, if_neg (by simp [hclock]), if_pos (decide_eq_true (by omega))]
      rw [hop]
      exact ⟨rfl, rfl, fun _ _ => rfl, fun _ hbad => absurd hbad (by omega), nofun, nofun, nofun, nofun⟩
    · rw [clockWindowOp_lost hphase hclock (by omega)]
      extract_lets u
      have haon : (if coreUp u then raiseAll (modC u fun c => { c with pwr := { c.pwr with
          x32Fail := true, x32Switches := sat 255 (c.pwr.x32Switches + 1) } }) 3 else u).aon = u.aon := by
        split <;> rfl
      refine ⟨(congrArg Aon.osc haon :), (congrArg Aon.tbase haon :), fun _ h => absurd h hgood, fun _ _ => ⟨haon, fun hrun => ?_⟩, nofun,
        nofun, nofun, nofun⟩
      rw [if_pos (show coreUp u = true from hrun)]
      exact ⟨rfl, rfl, ((Goes.refl endPieces _).settle (by decide)).pend_all (by decide) (pend_raiseAll_all (by decide))⟩

/-- The loss of lock of O21. -/
theorem pllLossOfLock_moves (hup : coreUp s = true) :
    (s.core.pwr.rc48 = true → exec .pllLossOfLock s = .next (settle s)) ∧
    (s.core.pwr.rc48 = false → ∃ t, exec .pllLossOfLock s = .next t ∧ t.core.pwr.rc48 = true ∧ t.core.pwr.pllLoss = true ∧
      t.core.pwr.pllLosses = sat 255 (s.core.pwr.pllLosses + 1) ∧ (∀ q ∈ t.core.irq, bit q.pend 3 = true) ∧
      t.aon = s.aon) := by
  have hexec : exec .pllLossOfLock s = .next (settle (pllLossOp s)) := instant_core _ hup
  refine ⟨fun hrc48 => ?_, fun hrc48 => ⟨_, hexec, ?_⟩⟩
  · rw [hexec, pllLossOp, if_pos hrc48]
  · rw [pllLossOp, if_neg (by simp [hrc48])]
    extract_lets u
    have hgoes : Goes (.capo :: .irqRound :: .ports :: .doze :: nandPieces) (raiseAll u 3)
        (settle (nfcAfter ((upto 4).foldl (fun s c => channelFaultOp s c none) (raiseAll u 3)))) :=
      (((Goes.refl _ (raiseAll u 3)).foldl fun _ _ h => h.channelFaultOp (by decide) (by decide) (by decide)).nfcAfter (by decide)).settle
        (by decide)
    revert hgoes
    generalize settle (nfcAfter ((upto 4).foldl (fun s c => channelFaultOp s c none) (raiseAll u 3))) = t
    intro hgoes
    have hpwr : { t.core.pwr with doze := u.core.pwr.doze, devrst := u.core.pwr.devrst } = u.core.pwr := hgoes.same .pwr (by decide)
    exact ⟨(congrArg PwrSt.rc48 hpwr :), (congrArg PwrSt.pllLoss hpwr :), (congrArg PwrSt.pllLosses hpwr :),
      hgoes.pend_all (by decide) (pend_raiseAll_all (by decide)), hgoes.same .aon (by decide)⟩

/-- What a parity fault records, before the failed word is treated. -/
def parityNoted (s : State) (a : Nat) : State :=
  capoFault (raiseAll (modC s fun c => { c with dev := { c.dev with
    parityAddr := a, parityCount := sat 65535 (c.dev.parityCount + 1) } }) 4) 21

/-- What a parity fault does to the word that has failed. -/
def parityTreated (old x : State) (k : Nat) : State :=
  match stagedPrim k with
  | some q => setR x k (rd x q)
  | none => if configWord k then parityReact old (modC x (fun c => { c with parity := insertNat k c.parity })) k else x

theorem parityOp_eq (hreg : (regAt a).isSome = true) :
    parityOp s a = match parityWord (parityNoted s a) a with
      | none => parityNoted s a
      | some k => parityTreated s (parityNoted s a) k := by
  rw [parityOp, if_neg (by simpa [Option.isNone_iff_eq_none, Option.isSome_iff_ne_none] using hreg)]
  rfl

/-- Where the note of a fault goes. -/
theorem goes_parityNoted : Goes [.capo, .irqPend] (modC s fun c => { c with dev := { c.dev with
    parityAddr := a, parityCount := sat 65535 (c.dev.parityCount + 1) } }) (parityNoted s a) :=
  ((Goes.refl _ _).raiseAll (by decide)).capoFault (by decide)

/-- Where the treatment of the failed word goes. -/
theorem goes_parityTreated (old x : State) (k : Nat) : Goes [.regs, .parity, .capo, .irqPend, .thm, .cvu, .gng] x (parityTreated old x k) := by
  unfold parityTreated
  split
  · exact (Goes.refl _ _).setR (by decide)
  · exact .cond (((Goes.refl _ _).core_parity (by decide)).parityReact (by decide) (by decide) (by decide) (by decide) (by decide))
      (Goes.refl _ _)

/-- Where a parity fault goes, once it has been recorded. -/
theorem goes_parityOp (hreg : (regAt a).isSome = true) : Goes [.regs, .parity, .capo, .irqPend, .thm, .cvu, .gng] (parityNoted s a) (parityOp s a) := by
  rw [parityOp_eq hreg]
  split
  · exact Goes.refl _ _
  · exact goes_parityTreated _ _ _

theorem pend_parityNoted : ∀ q ∈ (parityNoted s a).core.irq, bit q.pend 4 = true :=
  ((Goes.refl [.capo] _).capoFault (by decide)).pend_all (by decide) (pend_raiseAll_all (by decide))

/-- A word that is reached neither through a window of NFC nor at a staged address of the flash is the word of its own address. -/
theorem parityWord_self (h1 : a ≠ 0x1809) (h2 : a ≠ 0x1909) (h3 : a ≠ 0x180D) (h4 : a ≠ 0x190D) : parityWord s a = some a := by
  simp [parityWord, h1, h2, h3, h4]

/-- A staged image that fails takes the value in force. -/
theorem parityOp_staged (hreg : (regAt a).isSome = true) (hlo : 0xC00 ≤ a) (hhi : a < 0x1600) (hst : isStaged a = true) :
    (parityOp s a).core.regs = sset regReset s.core.regs a (rd s (a - 0x100)) ∧ (parityOp s a).core.parity = s.core.parity := by
  have hregs : (parityNoted s a).core.regs = s.core.regs := goes_parityNoted.same .regs (by decide)
  have hparity : (parityNoted s a).core.parity = s.core.parity := goes_parityNoted.same .parity (by decide)
  have hop : parityOp s a = setR (parityNoted s a) a (rd (parityNoted s a) (a - 0x100)) := by
    have hprim : stagedPrim a = some (a - 0x100) := by rw [stagedPrim, if_neg (by omega), if_pos hst]
    rw [parityOp_eq hreg, parityWord_self (by omega) (by omega) (by omega) (by omega)]
    simp only [parityTreated, hprim]
  rw [hop]
  generalize parityNoted s a = x at *
  exact ⟨by simp only [setR, modC, rd, hregs], hparity⟩

/-- A word in force that fails keeps its bits and is listed. -/
theorem parityOp_config (hreg : (regAt a).isSome = true) (hlt : a < 0x10000) (hst : isStaged a = false) (h1 : a ≠ 0x1809) (h3 : a ≠ 0x180D)
    (hcfg : configWord a = true) :
    (parityOp s a).core.parity = insertNat a s.core.parity ∧ (parityOp s a).core.regs = s.core.regs := by
  have hregs : (parityNoted s a).core.regs = s.core.regs := goes_parityNoted.same .regs (by decide)
  have hparity : (parityNoted s a).core.parity = s.core.parity := goes_parityNoted.same .parity (by decide)
  have h2 : a ≠ 0x1909 := fun h => absurd (h ▸ hst) (by decide +kernel)
  have h4 : a ≠ 0x190D := fun h => absurd (h ▸ hst) (by decide +kernel)
  have hop : parityOp s a = parityReact s (modC (parityNoted s a) fun c => { c with parity := insertNat a c.parity }) a := by
    have hprim : stagedPrim a = none := by rw [stagedPrim, if_neg (by omega), if_neg (by simp [hst])]
    rw [parityOp_eq hreg, parityWord_self h1 h2 h3 h4]
    simp only [parityTreated, hprim, hcfg, if_true]
  rw [hop]
  have hreact (x : State) : Goes [.capo, .irqPend, .thm, .cvu, .gng] x (parityReact s x a) :=
    (Goes.refl _ x).parityReact (by decide) (by decide) (by decide) (by decide) (by decide)
  generalize parityNoted s a = x at *
  exact ⟨((hreact _).same .parity (by decide)).trans (congrArg (insertNat a) hparity), ((hreact _).same .regs (by decide)).trans hregs⟩

/-- The parity faults of O21, at the address of a register. -/
theorem registerParityFault_moves (hup : coreUp s = true) (a : BitVec 16) (hreg : (regAt a.toNat).isSome = true) :
    ∃ t, exec (.registerParityFault (.register a)) s = .next t ∧ t.core.dev.parityAddr = a.toNat ∧
      t.core.dev.parityCount = sat 65535 (s.core.dev.parityCount + 1) ∧ (∀ q ∈ t.core.irq, bit q.pend 4 = true) ∧
      (0xC00 ≤ a.toNat → a.toNat < 0x1600 → isStaged a.toNat = true →
        t.core.regs = sset regReset s.core.regs a.toNat (rd s (a.toNat - 0x100)) ∧ t.core.parity = s.core.parity) ∧
      (isStaged a.toNat = false → a.toNat ≠ 0x1809 → a.toNat ≠ 0x180D → configWord a.toNat = true →
        t.core.parity = insertNat a.toNat s.core.parity ∧ rd t a.toNat = rd s a.toNat ∧
        (a.toNat ≠ 0xE00 → t.core.parity.elem a.toNat = true → used t a.toNat = Config.standIn a.toNat (rd s a.toNat))) := by
  refine ⟨settle (parityOp s a.toNat), instant_core _ hup, ?_⟩
  have hdev : (parityOp s a.toNat).core.dev = (parityNoted s a.toNat).core.dev := (goes_parityOp hreg).same .dev (by decide)
  have hnote : (parityNoted s a.toNat).core.dev = _ := goes_parityNoted.same .dev (by decide)
  refine ⟨(congrArg DevSt.parityAddr (hdev.trans hnote) :), (congrArg DevSt.parityCount (hdev.trans hnote) :), ?_,
    fun hlo hhi hst => parityOp_staged hreg hlo hhi hst, fun hst h1 h3 hcfg => ?_⟩
  · exact (((goes_parityOp hreg).mono (qs := .regs :: .parity :: .thm :: .cvu :: endPieces) (by decide)).settle (by decide)).pend_all (by decide)
      pend_parityNoted
  · obtain ⟨hparity, hregs⟩ := parityOp_config (s := s) hreg a.isLt hst h1 h3 hcfg
    have hrd : rd (settle (parityOp s a.toNat)) a.toNat = rd s a.toNat := congrArg (fun m => sget regReset m a.toNat) hregs
    exact ⟨hparity, hrd, fun hne helem => by rw [used, if_pos helem, if_neg hne, hrd]⟩

/-- The mismatches of O21 in the buffer space. -/
theorem bufferMismatch_moves (hup : coreUp s = true) (w : BitVec 18) (single : Bool) (hs : Settled s) :
    let held := match bufKind (8 * w.toNat) 8 with
      | some k => decide (k ≤ 3)
      | none => false
    ∃ t, exec (.registerParityFault (.buffer w single)) s = .next t ∧ Keeps [.buf, .irqRound, .doze] s t ∧
      (held = false → t = settle s) ∧
      (held = true → single = false → t.core.buf = { s.core.buf with
        bad := insertNat w.toNat s.core.buf.bad, soft := s.core.buf.soft.filter (fun x => x != w.toNat) }) ∧
      (held = true → single = true → s.core.buf.bad.elem w.toNat = false →
        t.core.buf = { s.core.buf with soft := insertNat w.toNat s.core.buf.soft }) ∧
      (held = true → single = true → s.core.buf.bad.elem w.toNat = true → t = settle s) := by
  intro held
  have hop : bufferFailOp s w.toNat single = if held then bufFail s w.toNat single else s := by
    unfold bufferFailOp
    cases hkind : bufKind (8 * w.toNat) 8 with
    | none => simp [held, hkind]
    | some k => simp [held, hkind]
  have hexec : exec (.registerParityFault (.buffer w single)) s = .next (settle (if held then bufFail s w.toNat single else s)) :=
    (instant_core _ hup).trans (congrArg (fun x => Host.Outcome.next (settle x)) hop)
  refine ⟨_, hexec, ?_, fun hno => by rw [if_neg (by simp [hno])], fun hyes hsingle => ?_, fun hyes hsingle hbad => ?_,
    fun hyes hsingle hbad => ?_⟩
  · have hgoes : Goes [.buf] s (if held then bufFail s w.toNat single else s) := .cond ((Goes.refl _ _).bufFail (by decide)) (Goes.refl _ _)
    have hquiet : Quiet (if held then bufFail s w.toNat single else s) :=
      hgoes.quiet hs.quiet (by decide) (hgoes.used_same (by decide) (by decide) _) (hgoes.used_same (by decide) (by decide) _)
        ((hgoes.devrst_same (by decide)).trans hs.noDeviceReset)
    have hirq : (if held then bufFail s w.toNat single else s).core.irq = s.core.irq := by
      split <;> rfl
    exact (hgoes.keeps.trans (hquiet.keeps_settle_ports (hirq ▸ hs.noNewPend))).mono (by decide)
  · rw [if_pos hyes]
    simp [bufFail, modC, hsingle]
  · rw [if_pos hyes]
    simp only [settle_core_buf, bufFail, modC, hsingle, hbad, if_true, Bool.false_eq_true, if_false]
  · have hsame : bufFail s w.toNat single = s := by
      simp only [bufFail, modC, hsingle, hbad, if_true]
    rw [if_pos hyes, hsame]

/-- Settles O21: a window moves the source of the timebase, a loss of lock the clock of the core, and a mismatch lists the word. -/
theorem clockAndParityFaultsAreHandled : Obligations.ClockAndParityFaultsAreHandled := by
  refine ⟨clockWindowCheck_moves, fun s hup _ => ?_⟩
  obtain ⟨hlocked, hlost⟩ := pllLossOfLock_moves hup
  refine ⟨hlocked, hlost, fun a hnone => ?_, fun a hreg => registerParityFault_moves hup a hreg,
    fun w single hs => bufferMismatch_moves hup w single hs⟩
  have hop : parityOp s a.toNat = s := by rw [parityOp, if_pos (by simp [hnone])]
  exact (instant_core _ hup).trans (congrArg (fun x => Host.Outcome.next (settle x)) hop)

end Sys2Proof.Machine
end

section
/-! PROOFS. Chapter 10: the reload and the validation of the waveform table (10 R271, R272). -/

set_option Elab.async false

namespace Sys2Proof.Machine

variable {s t : State} {p : Part} {seq : Byte} {v : Word}

/-- What a row shows is of the flash, and of the free values of the instant. -/
theorem rowView_congr (hflash : t.flash = s.flash) (hctr : t.freeCtr = s.freeCtr) (r : Nat) : rowView t r = rowView s r := by
  unfold rowView rowOpen free
  rw [hflash, hctr]

theorem flashRead_congr (hflash : t.flash = s.flash) (hctr : t.freeCtr = s.freeCtr) (torn : Bool) (a n : Nat) :
    flashRead t torn a n = flashRead s torn a n := by
  simp only [flashRead, rowView_congr hflash hctr]

theorem wfNat_congr (hflash : t.flash = s.flash) (hctr : t.freeCtr = s.freeCtr) (off n : Nat) : wfNat t off n = wfNat s off n := by
  simp only [wfNat, wfRead, flashRead_congr hflash hctr]

/-- A validation that begins changes the setup flash's banks and the table's state alone. -/
theorem goes_wfValidateStart (x : State) : Goes [.pix, .efl] x (wfValidateStart x true) := (Goes.refl _ x).wfValidateStart (by decide) (by decide)

theorem pix_wfValidateStart (x : State) :
    (wfValidateStart x true).core.pix = { x.core.pix with validating := true, reload := true, changed := false } := by
  have hsusp (y : State) : (flashSuspend y).core.pix = y.core.pix := ((Goes.refl [.efl] y).flashSuspend (by decide)).same .pix (by decide)
  unfold wfValidateStart whenS
  dsimp only
  generalize hu : (if (!x.core.pix.validating) = true then flashSuspend x else x) = u
  have hpix : u.core.pix = x.core.pix := by
    rw [← hu]
    split
    · exact hsusp x
    · rfl
  show { u.core.pix with validating := true, reload := true || (u.core.pix.validating && u.core.pix.reload), changed := false } = _
  rw [hpix, Bool.true_or]

theorem irq_wfValidateStart (x : State) : (wfValidateStart x true).core.irq = x.core.irq := by
  unfold wfValidateStart whenS flashSuspend
  dsimp only
  split
  · split <;> rfl
  · rfl

/-- The reload of O48. -/
theorem wfReload_starts (hl : Listens s p) (hs : Settled s) (hv : bit v 0 = true) :
    (p ≠ 0 → exec (.wfReload p seq v) s = .next (deniedAt s p seq 0x1454 1)) ∧
    (p = 0 → ∃ t, exec (.wfReload p seq v) s = .next t ∧ t.core.pix = { s.core.pix with validating := true, reload := true, changed := false } ∧
      (portOf t p).lastStatus = 0x00 ∧ t.flash = s.flash ∧ KeepsPort p [.pix, .efl] s t) := by
  have hreg : regAt 0x1454 = some { fs := [fWo 1] } := rfl
  refine ⟨fun hp => instant_steward_denied hl hp hreg (by simp) (by simp [fWo]) (by decide), fun hp => ?_⟩
  subst hp
  have hact (x : State) : writeAct x x 0 0x1454 v = (wfValidateStart x true, false) := by
    show ((if bit v 0 then wfValidateStart x true else x), false) = _
    rw [if_pos hv]
  have hexec : exec (.wfReload 0 seq v) s = .next (framed s 0 seq 0x1454 1 0x00 fun x => wfValidateStart x true) :=
    (instant_wo (v := v) (seq := seq) (f := fun x => wfValidateStart x true) hl hreg (by unfold ordinaryAddr; decide) (by simp [fWo])
      (by simp [fWo, writerOf]) hact fun x => by
        rw [show (wfValidateStart x true).core.seq = x.core.seq from (goes_wfValidateStart x).same .seq (by decide)]
        exact Nat.le_succ _).trans (by simp only [nfcGoesOn_of_not (a := 0x1454) (v := v) rfl])
  have hopen := PortOnly.frameOpen 0 s seq 1
  have hgoes := goes_wfValidateStart (frameOpen s 0 seq 1)
  have hlt : Listens (wfValidateStart (frameOpen s 0 seq 1) true) 0 :=
    hgoes.listens (by decide) ((hgoes.devrst_same (by decide)).trans (hopen.listens hl).noDeviceReset) (hopen.listens hl)
  have hquiet : Quiet (wfValidateStart (frameOpen s 0 seq 1) true) :=
    hgoes.quiet (hopen.quiet hs.quiet) (by decide) (hgoes.used_same (by decide) (by decide) _) (hgoes.used_same (by decide) (by decide) _)
      hlt.noDeviceReset
  have hframed := goes_framed (a := 0x1454) (code := 0x00) (seq := seq) (n := 1) (f := fun x => wfValidateStart x true) hlt
  refine ⟨_, hexec, ?_, lastStatus_framed hlt, ?_,
    keepsPort_framed hs hlt hgoes hquiet (irq_wfValidateStart _) (hgoes.same .ports (by decide)) (by decide) (.inl (by decide))⟩
  · rw [hframed.same .pix (by decide), pix_wfValidateStart, show (frameOpen s 0 seq 1).core.pix = s.core.pix from hopen.same fun x => x.core.pix]
  · exact ((hframed.same .flash (by decide)).trans (hgoes.same .flash (by decide))).trans (hopen.same fun x => x.flash)

/-- The state in which a validation has ended, before its result is used. -/
def validationOver (s : State) : State := flashResume (modP s fun p => { p with validating := false, reload := false, reason := wfReason s })

theorem goes_validationOver : Goes [.efl] (modP s fun p => { p with validating := false, reload := false, reason := wfReason s }) (validationOver s) :=
  (Goes.refl _ _).flashResume (by decide)

theorem pix_validationOver : (validationOver s).core.pix = { s.core.pix with validating := false, reload := false, reason := wfReason s } :=
  goes_validationOver.same .pix (by decide)

theorem epd_validationOver : (validationOver s).core.epd = s.core.epd := goes_validationOver.same .epd (by decide)

theorem rest_validationOver : (validationOver s).flash = s.flash ∧ (validationOver s).freeCtr = s.freeCtr ∧ (validationOver s).core.irq = s.core.irq ∧
    (validationOver s).core.efl.chans = s.core.efl.chans ∧ (validationOver s).core.efl.log = s.core.efl.log := by
  unfold validationOver flashResume
  split <;> exact ⟨rfl, rfl, rfl, rfl, rfl⟩

/-- A table that has passed, as its header describes it. -/
def tableTaken (x : State) : State := modP x fun p => { p with
  inks := wfNat x 5 1, bands := wfNat x 6 1, tableId := wfNat x 16 2, tableLen := wfNat x 12 4
  gamma := some (wfRead x (wfNat x 24 4) (wfNat x 5 1 * 256)).1 }

/-- The table was written while it was trusted, and no reload has met it whole since. -/
def tableStays (s : State) : Bool := s.core.pix.stale && !(s.core.pix.reload && !s.core.pix.changed)

theorem tableStays_iff : tableStays s = true ↔ s.core.pix.stale = true ∧ (s.core.pix.reload = false ∨ s.core.pix.changed = true) := by
  unfold tableStays
  cases s.core.pix.stale <;> cases s.core.pix.reload <;> cases s.core.pix.changed <;> simp

theorem wfValidateEnd_eq (hval : s.core.pix.validating = true) :
    wfValidateEnd s = if wfReason s = 0 then
        (if tableStays s then tableLost (tableTaken (validationOver s))
         else modP (tableTaken (validationOver s)) fun p => { p with tableOk := true, stale := false })
      else tableLost (validationOver s) := by
  rw [wfValidateEnd, if_pos hval]
  rfl

/-- The loss of the table discards every queued update. -/
theorem tableLost_discards (x : State) : (tableLost x).core.pix = { x.core.pix with tableOk := false } ∧ (tableLost x).core.epd.queued = 0 ∧
    (tableLost x).core.epd.discarded = sat 255 (x.core.epd.discarded + popcnt x.core.epd.queued) := by
  have hall (q : BitVec 4) : q &&& 0xF = q := BitVec.and_allOnes
  have hnone (q : BitVec 4) : q &&& ~~~0xF = 0 := BitVec.and_zero
  refine ⟨rfl, hnone _, ?_⟩
  show sat 255 (x.core.epd.discarded + popcnt (x.core.epd.queued &&& 0xF)) = _
  rw [hall]

/-- Where a validation that ends goes; it starts and ends no work. -/
theorem goes_wfValidateEnd : Goes [.epd, .pix, .efl] s (wfValidateEnd s) := (Goes.refl _ s).wfValidateEnd (by decide) (by decide) (by decide)

theorem wfValidateEnd_quiet (hval : s.core.pix.validating = true) : (wfValidateEnd s).core.irq = s.core.irq ∧
    workPresent (wfValidateEnd s) = workPresent s := by
  obtain ⟨-, -, hirq, hchans, hlog⟩ := rest_validationOver (s := s)
  have hepd := epd_validationOver (s := s)
  have hnfc : (validationOver s).core.nfc = s.core.nfc := goes_validationOver.same .nfc (by decide)
  have hcvu : (validationOver s).core.cvu = s.core.cvu := goes_validationOver.same .cvu (by decide)
  have hwork : workPresent (validationOver s) = workPresent s := by
    unfold workPresent
    rw [hepd, hnfc, hcvu, hchans, hlog]
  rw [wfValidateEnd_eq hval]
  generalize validationOver s = x at *
  split
  · split <;> exact ⟨hirq, hwork⟩
  · exact ⟨hirq, hwork⟩

/-- The end of a validation of O48. -/
theorem wfValidationDone_ends (hup : coreUp s = true) (hs : Settled s) :
    (s.core.pix.validating = false → exec .wfValidationDone s = .next (settle s)) ∧
    (s.core.pix.validating = true → ∃ t, exec .wfValidationDone s = .next t ∧ t.core.pix.validating = false ∧
      t.core.pix.reason = wfReason s ∧ t.flash = s.flash ∧ Keeps [.pix, .epd, .efl, .irqRound] s t ∧
      (wfReason s = 0 → t.core.pix.inks = wfNat s 5 1 ∧ t.core.pix.bands = wfNat s 6 1 ∧ t.core.pix.tableId = wfNat s 16 2 ∧
        t.core.pix.tableLen = wfNat s 12 4) ∧
      let stays := s.core.pix.stale = true ∧ (s.core.pix.reload = false ∨ s.core.pix.changed = true)
      (wfReason s = 0 → ¬stays → t.core.pix.tableOk = true ∧ t.core.pix.stale = false ∧ t.core.epd = s.core.epd) ∧
      (wfReason s ≠ 0 ∨ stays → t.core.pix.tableOk = false ∧ t.core.epd.queued = 0 ∧
        t.core.epd.discarded = sat 255 (s.core.epd.discarded + popcnt s.core.epd.queued))) := by
  have hexec : exec .wfValidationDone s = .next (settle (wfValidateEnd s)) := instant_core _ hup
  refine ⟨fun hval => ?_, fun hval => ⟨_, hexec, ?_⟩⟩
  · rw [hexec, wfValidateEnd, if_neg (by simp [hval])]
  · have hgoes := goes_wfValidateEnd (s := s)
    obtain ⟨hirq, hwork⟩ := wfValidateEnd_quiet hval
    have hquiet : Quiet (wfValidateEnd s) := hgoes.quiet hs.quiet (by decide) (hgoes.used_same (by decide) (by decide) _)
      (hgoes.used_same (by decide) (by decide) _) ((hgoes.devrst_same (by decide)).trans hs.noDeviceReset)
    have hdoze : (wfValidateEnd s).core.pwr.doze = true → workPresent (wfValidateEnd s) = false := fun h => hwork.trans (hs.2.2.1
      ((hgoes.same .doze (by decide)).symm.trans h))
    have hkeeps : Keeps [.pix, .epd, .efl, .irqRound] s (settle (wfValidateEnd s)) :=
      (hgoes.keeps.trans (hquiet.keeps_settle_doze (hirq ▸ hs.noNewPend) hdoze)).mono (by decide)
    obtain ⟨hflash, hctr, -, -, -⟩ := rest_validationOver (s := s)
    have hhead : ∀ off n, wfNat (validationOver s) off n = wfNat s off n := wfNat_congr hflash hctr
    have hover := pix_validationOver (s := s)
    have hepd := epd_validationOver (s := s)
    have hlost (y : State) (hy : y.core.epd = s.core.epd) : (tableLost y).core.pix.tableOk = false ∧ (tableLost y).core.epd.queued = 0 ∧
        (tableLost y).core.epd.discarded = sat 255 (s.core.epd.discarded + popcnt s.core.epd.queued) := by
      obtain ⟨hpix, hqueued, hdiscarded⟩ := tableLost_discards y
      exact ⟨congrArg PixSt.tableOk hpix, hqueued, hy ▸ hdiscarded⟩
    have hflashT : (settle (wfValidateEnd s)).flash = s.flash := hgoes.same .flash (by decide)
    simp only [← tableStays_iff, settle_core_pix, settle_core_epd]
    clear hexec hgoes hquiet hdoze hwork hirq
    rw [wfValidateEnd_eq hval] at hkeeps hflashT ⊢
    generalize validationOver s = x at *
    by_cases hwhy : wfReason s = 0
    · rw [if_pos hwhy] at hkeeps hflashT ⊢
      by_cases hstays : tableStays s = true
      · rw [if_pos hstays] at hkeeps hflashT ⊢
        exact ⟨(congrArg PixSt.validating hover :), (congrArg PixSt.reason hover :), hflashT, hkeeps,
          fun _ => ⟨hhead 5 1, hhead 6 1, hhead 16 2, hhead 12 4⟩, fun _ h => absurd hstays h, fun _ => hlost (tableTaken x) hepd⟩
      · rw [if_neg hstays] at hkeeps hflashT ⊢
        exact ⟨(congrArg PixSt.validating hover :), (congrArg PixSt.reason hover :), hflashT, hkeeps,
          fun _ => ⟨hhead 5 1, hhead 6 1, hhead 16 2, hhead 12 4⟩, fun _ _ => ⟨rfl, rfl, hepd⟩, fun h => absurd h (by simp [hwhy, hstays])⟩
    · rw [if_neg hwhy] at hkeeps hflashT ⊢
      exact ⟨(congrArg PixSt.validating hover :), (congrArg PixSt.reason hover :), hflashT, hkeeps,
        fun h => absurd h hwhy, fun h => absurd h hwhy, fun _ => hlost x hepd⟩

/-- Settles O48: a reload starts a validation, whose end trusts the table or discards what is queued. -/
theorem waveformTableIsValidated : Obligations.WaveformTableIsValidated :=
  ⟨fun _ _ _ _ hl hs hv => wfReload_starts hl hs hv, fun _ hup hs => wfValidationDone_ends hup hs⟩

end Sys2Proof.Machine
end

section
/-! SUPPORT. The gang link: what a frame heard, a judgement, an election and a frame boundary leave of it (15 R411-R427). -/

set_option Elab.async false

namespace Sys2Proof.Machine

variable {s t x y : State} {ps : List Piece}

/-- The parts that the gang link's own operations touch. -/
def gangPieces : List Piece := [.irqPend, .gng]

theorem Goes.selfId_same (h : Goes ps x y) (hhold : .hold ∉ ps) : selfId y = selfId x := congrArg (fun e => e.straps.toNat) (h.same .hold hhold)

theorem Goes.gngEn_same (h : Goes ps x y) (hregs : .regs ∉ ps) (hparity : .parity ∉ ps) : gngEn y = gngEn x :=
  congrArg (fun w => bit w 0) (h.used_same hregs hparity 0x2400)

theorem Goes.gngMembers_same (h : Goes ps x y) (hregs : .regs ∉ ps) (hparity : .parity ∉ ps) : gngMembers y = gngMembers x :=
  congrArg (fun w => fld w 4 4) (h.used_same hregs hparity 0x2400)

theorem Goes.courseDue_same (h : Goes ps x y) (hcourse : .course ∉ ps) (b : Nat) : courseDue y b = courseDue x b :=
  congrArg (fun c : CourseSt => c.state == 1 && bit c.blocks b && !bit c.taken b) (h.same .course hcourse)

/-- The status of another member is the one in its record. -/
theorem memStatus_other {m : Nat} (hm : m ≠ selfId s) : memStatus s m = (nth s.core.gng.mems m {}).status := if_neg hm

/-- The own status. -/
theorem memStatus_self : memStatus s (selfId s) = if !gngEn s then 0 else if s.core.gng.dup.isSome then 3 else if s.core.gng.selfOn then 1 else 0 :=
  if_pos rfl

/-- A judgement changes the gang state and the note that the gang has formed, and nothing else of the link. -/
theorem gangJudge_gng (s : State) : ∃ f n, (gangJudge s).core.gng = { s.core.gng with formed := f, state := n } := by
  unfold gangJudge
  dsimp only
  generalize hu : (if (gngEn s && (gangIds s).all fun m => memStatus s m == 1) = true then modG s fun g => { g with formed := true } else s) = u
  have hform : ∃ f, u.core.gng = { s.core.gng with formed := f } := by
    rw [← hu]
    split
    · exact ⟨true, rfl⟩
    · exact ⟨s.core.gng.formed, rfl⟩
  obtain ⟨f, hf⟩ := hform
  split
  · exact ⟨f, s.core.gng.state, hf⟩
  · refine ⟨f, gangJudged u, ?_⟩
    show { u.core.gng with state := gangJudged u } = _
    rw [hf]

theorem goes_gangJudge : Goes gangPieces s (gangJudge s) := (Goes.refl _ s).gangJudge (by decide) (by decide)

/-- A mismatch is recorded with its member. -/
theorem setMismatch_gng (s : State) (m f : Nat) : (setMismatch s m f).core.gng = { s.core.gng with mmMember := m, mmField := f } := by
  unfold setMismatch
  dsimp only
  split <;> rfl

theorem goes_setMismatch {m f : Nat} : Goes gangPieces s (setMismatch s m f) := (Goes.refl _ s).setMismatch (by decide) (by decide)

/-- An election changes the keystone and what it owes. -/
theorem electKeystone_gng (s : State) : ∃ k b, (electKeystone s).core.gng = { s.core.gng with keystone := k, pendTime := b } := ⟨_, _, rfl⟩

/-- A member takes its status, and an election changes the keystone and what it owes. -/
theorem setMemStatus_gng {m st : Nat} (hne : (nth s.core.gng.mems m {}).status ≠ st) : ∃ k b, (setMemStatus s m st).core.gng = { s.core.gng with
    mems := upd s.core.gng.mems m fun q => { q with status := st, rpg := q.rpg && st != 2 }
    keystone := k, pendTime := b } := by
  rw [setMemStatus, if_neg hne]
  extract_lets u v w
  have hw : ∃ b, w.core.gng = { v.core.gng with pendTime := b } := by
    show ∃ b, (if st = 1 ∧ v.core.gng.keystone = some (selfId v) then modG v (fun g => { g with pendTime := true }) else v).core.gng = _
    split
    · exact ⟨true, rfl⟩
    · exact ⟨v.core.gng.pendTime, rfl⟩
  obtain ⟨b, hb⟩ := hw
  exact ⟨v.core.gng.keystone, b, hb.trans rfl⟩

theorem setMemStatus_same {m st : Nat} (heq : (nth s.core.gng.mems m {}).status = st) : setMemStatus s m st = s := if_pos heq

/-- A member whose status changes raises GNG_MEMBER in every partition. -/
theorem pend_setMemStatus {m st : Nat} (hne : (nth s.core.gng.mems m {}).status ≠ st) :
    ∀ q ∈ (setMemStatus s m st).core.irq, bit q.pend 37 = true := by
  rw [setMemStatus, if_neg hne]
  exact pend_raiseAll_all (by decide)

theorem goes_setMemStatus {m st : Nat} : Goes gangPieces s (setMemStatus s m st) := (Goes.refl _ s).setMemStatus (by decide) (by decide)

/-- A frame of another member counts, and its sender is seen (15 R411, R421). -/
theorem gangHeard_other {m : Nat} (hm : m ≠ selfId s) : gangHeard s (some m) =
    modMem (modG s fun g => { g with rx := (g.rx + 1) % 65536 }) m fun q => { q with seen := BitVec.ofNat 32 (stamp s), last := now s } := if_neg hm

/-- A frame that carries the own ID, up to the judgement: the duplicate is noted, and the keystone elected again (15 R416). -/
def duplicated (s : State) : State :=
  electKeystone (setMismatch (modG s fun g => { g with rx := (g.rx + 1) % 65536, dup := some (now s), dupSeen := sat 255 (g.dupSeen + 1) }) (selfId s) 5)

theorem gangHeard_own : gangHeard s (some (selfId s)) =
    gangJudge (if s.core.gng.dup.isNone then raiseAll (duplicated s) 37 else duplicated s) := if_pos rfl

theorem duplicated_gng : ∃ k b, (duplicated s).core.gng = { s.core.gng with
    rx := (s.core.gng.rx + 1) % 65536, dup := some (now s), dupSeen := sat 255 (s.core.gng.dupSeen + 1)
    mmMember := selfId s, mmField := 5, keystone := k, pendTime := b } := by
  unfold duplicated
  obtain ⟨k, b, helect⟩ := electKeystone_gng (setMismatch (modG s fun g => { g with
    rx := (g.rx + 1) % 65536, dup := some (now s), dupSeen := sat 255 (g.dupSeen + 1) }) (selfId s) 5)
  exact ⟨k, b, helect.trans (by rw [setMismatch_gng]; rfl)⟩

/-- What a duplicate leaves of the link. -/
theorem gangHeard_self : ∃ f n k b, (gangHeard s (some (selfId s))).core.gng = { s.core.gng with
    rx := (s.core.gng.rx + 1) % 65536, dup := some (now s), dupSeen := sat 255 (s.core.gng.dupSeen + 1)
    mmMember := selfId s, mmField := 5, keystone := k, pendTime := b, formed := f, state := n } := by
  obtain ⟨k, b, hdup⟩ := duplicated_gng (s := s)
  have hraise : (if s.core.gng.dup.isNone = true then raiseAll (duplicated s) 37 else duplicated s).core.gng = (duplicated s).core.gng := by
    split <;> rfl
  obtain ⟨f, n, hjudge⟩ := gangJudge_gng (if s.core.gng.dup.isNone = true then raiseAll (duplicated s) 37 else duplicated s)
  exact ⟨f, n, k, b, by rw [gangHeard_own, hjudge, hraise, hdup]⟩

/-- A new duplicate raises GNG_MEMBER in every partition. -/
theorem pend_gangHeard_self (hnew : s.core.gng.dup = none) : ∀ q ∈ (gangHeard s (some (selfId s))).core.irq, bit q.pend 37 = true := by
  rw [gangHeard_own, if_pos (by simp [hnew])]
  exact goes_gangJudge.pend_all (by decide) (pend_raiseAll_all (by decide))

theorem goes_gangHeard {src : Option Nat} : Goes gangPieces s (gangHeard s src) := (Goes.refl _ s).gangHeard (by decide) (by decide)

theorem gangRx_off (hen : gngEn s = false) {dest : BitVec 4} {src : Option Nat} {act : State → State} : gangRx s dest src act = s :=
  if_neg (by simp [hen])

/-- A frame is heard, and acted on where it names this member. -/
theorem gangRx_on (hen : gngEn s = true) {dest : BitVec 4} {src : Option Nat} {act : State → State} :
    gangRx s dest src act = if bit dest (selfId s) then act (gangHeard s src) else gangHeard s src := by
  have hheard : gangFor (gangHeard s src) dest = bit dest (selfId s) := by
    rw [gangFor, goes_gangHeard.gngEn_same (by decide) (by decide), goes_gangHeard.selfId_same (by decide), hen, Bool.true_and]
  rw [gangRx, if_pos hen]
  show (if gangFor (gangHeard s src) dest = true then _ else _) = _
  rw [hheard]

/-- Forwarded events reach the queue of GNG, which holds 16. -/
theorem foldl_fwdTake (l : List (Nat × Nat × Nat × Nat × Nat)) : ∀ g : GngSt, ∃ fw dr, l.foldl fwdTake g = { g with fwd := fw, fwdDrops := dr } ∧
    (g.fwd.length ≤ 16 → fw = (g.fwd ++ l).take 16) := by
  induction l with
  | nil => exact fun g => ⟨g.fwd, g.fwdDrops, rfl, fun h => by rw [List.append_nil, List.take_of_length_le h]⟩
  | cons e l ih =>
    intro g
    obtain ⟨fw, dr, heq, hfw⟩ := ih (fwdTake g e)
    by_cases hfull : 16 ≤ g.fwd.length
    · have htake : fwdTake g e = { g with fwdDrops := sat 255 (g.fwdDrops + 1) } := if_pos hfull
      rw [htake] at heq hfw
      refine ⟨fw, dr, ?_, fun hle => ?_⟩
      · rw [List.foldl_cons, htake, heq]
      · rw [hfw hle]
        simp only [List.take_append_of_le_length hfull]
    · have htake : fwdTake g e = { g with fwd := g.fwd ++ [e] } := if_neg hfull
      rw [htake] at heq hfw
      refine ⟨fw, dr, ?_, fun _ => ?_⟩
      · rw [List.foldl_cons, htake, heq]
      · rw [hfw (by simp; omega), List.append_assoc]
        rfl

/-- A frame boundary of a link that is on. -/
theorem gangPass_on (hen : gngEn s = true) : (gangPass s).core.gng = s.core.key.fwdDue.foldl fwdTake { s.core.gng with busy := false } ∧
    (gangPass s).core.key = { s.core.key with fwdDue := [] } := by
  have hpass : gangPass s = _ := if_pos (show gngEn (modG s fun g => { g with busy := false }) = true from hen)
  rw [hpass]
  exact ⟨rfl, rfl⟩

theorem goes_gangPass : Goes (.key :: gangPieces) s (gangPass s) := (Goes.refl _ s).gangPass (by decide) (by decide)

/-- A frame boundary without a course to take up. -/
theorem gangBoundary_idle (hdue : courseDue s 7 = false) : gangBoundary s = gangPass s := by
  have hpass : courseDue (gangPass s) 7 = false := (goes_gangPass.courseDue_same (by decide) 7).trans hdue
  unfold gangBoundary gngCourse takeUp
  rw [if_neg (show ¬(courseDue (gangPass s) 7 = true) by simp [hpass]), ite_self]

/-- A frame boundary of a link that is off and has no frame on the bus. -/
theorem gangBoundary_off (hdue : courseDue s 7 = false) (hen : gngEn s = false) (hbusy : s.core.gng.busy = false) : gangBoundary s = s := by
  have hidle : modG s (fun g => { g with busy := false }) = s := by
    show { s with core := { s.core with gng := { s.core.gng with busy := false } } } = s
    rw [← hbusy]
  rw [gangBoundary_idle hdue]
  show (if gngEn (modG s fun g => { g with busy := false }) = true then _ else modG s fun g => { g with busy := false }) = s
  rw [hidle, if_neg (by simp [hen])]

/-- The end of an instant leaves the gang link all but what it owes and last announced. -/
theorem settle_gng (x : State) : ∃ a b c d e, (settle x).core.gng =
    { x.core.gng with pendState := a, pendRpg := b, pendCapo := c, lastVote := d, lastRpg := e } := ⟨_, _, _, _, _, rfl⟩

end Sys2Proof.Machine
end

section
/-! PROOFS. Chapter 15: frames received on the gang link (15 R411, R415, R416, R419, R422-R426). -/

set_option Elab.async false

namespace Sys2Proof.Machine

variable {s t x y : State} {ps : List Piece}

/-- What of the link's record a frame acts on only as it is heard. -/
def linkRecord (g : GngSt) : (Nat × Nat × List (Nat × Nat × Nat × Nat × Nat)) × (Option Nat × Nat × List Word) :=
  ((g.rx, g.crcErr, g.fwd), (g.dup, g.dupSeen, g.mems.map MemSt.seen))

/-- y comes from x by what a frame does further, once it has been heard. -/
structure Heeds (x y : State) : Prop where
  goes : Goes [.aon, .capo, .irqPend, .key, .gng] x y
  due : y.core.key.fwdDue = x.core.key.fwdDue
  record : linkRecord y.core.gng = linkRecord x.core.gng

theorem Heeds.refl (x : State) : Heeds x x := ⟨Goes.refl _ x, rfl, rfl⟩

theorem Heeds.trans {z : State} (h : Heeds x y) (g : Heeds y z) : Heeds x z :=
  ⟨h.goes.trans g.goes, g.due.trans h.due, g.record.trans h.record⟩

/-- A change of the link alone that keeps the record. -/
theorem Heeds.of_gng (hgoes : Goes gangPieces x y) (hrec : linkRecord y.core.gng = linkRecord x.core.gng) : Heeds x y :=
  ⟨hgoes.mono (by decide), congrArg KeyBlk.fwdDue (hgoes.same .key (by decide)), hrec⟩

theorem heeds_gangJudge : Heeds x (gangJudge x) := by
  obtain ⟨f, n, hg⟩ := gangJudge_gng x
  exact .of_gng goes_gangJudge (by rw [hg]; rfl)

theorem heeds_setMismatch {m f : Nat} : Heeds x (setMismatch x m f) := .of_gng goes_setMismatch (by rw [setMismatch_gng]; rfl)

/-- A member's record changes, but for the time it was seen. -/
theorem heeds_modMem {m : Nat} {f : MemSt → MemSt} (hf : ∀ q, (f q).seen = q.seen) : Heeds x (modMem x m f) := by
  refine .of_gng ((Goes.refl _ x).modMem (by decide)) ?_
  show linkRecord { x.core.gng with mems := upd x.core.gng.mems m f } = _
  simp only [linkRecord, map_upd_eq _ _ _ MemSt.seen hf]

theorem heeds_setMemStatus {m st : Nat} : Heeds x (setMemStatus x m st) := by
  by_cases hsame : (nth x.core.gng.mems m {}).status = st
  · rw [setMemStatus_same hsame]
    exact .refl x
  · obtain ⟨k, b, hg⟩ := setMemStatus_gng hsame
    refine .of_gng goes_setMemStatus ?_
    rw [hg]
    simp only [linkRecord]
    rw [map_upd_eq x.core.gng.mems m (fun q => { q with status := st, rpg := q.rpg && st != 2 }) MemSt.seen fun _ => rfl]

theorem heeds_ite {c : Prop} {_ : Decidable c} {z : State} (hy : c → Heeds x y) (hz : ¬c → Heeds x z) : Heeds x (if c then y else z) := by
  split
  next h => exact hy h
  next h => exact hz h

/-- The vote and the power-good of a PRESENT member are taken from its STATE. -/
def stateNoted (src : Nat) (vote flags : Byte) (x : State) : State :=
  if src != selfId x && memStatus x src == 1 then
    modMem x src (fun q => { q with vote := if vote.toNat < 8 then vote.toNat else 0, rpg := bit flags 0, stateAt := some (now x) })
  else x

/-- What a STATE does further. -/
def stateAct (src : Nat) (vote flags : Byte) (x : State) : State := gangJudge (stateNoted src vote flags x)

/-- What an RPG does further. -/
def rpgAct (src : Nat) (rpg : Byte) (x : State) : State :=
  if src != selfId x && memStatus x src == 1 then modMem x src (fun q => { q with rpg := rpg == 1 }) else x

/-- What a TIME does further. -/
def timeAct (src ticks since : Nat) (x : State) : State :=
  if src != selfId x && memStatus x src == 1 && x.core.gng.keystone == some src then
    (if ((ticks : Int) - ((stamp x : Int) - (since : Int))).natAbs > 4 then stepTime x ((ticks : Int) - ((stamp x : Int) - (since : Int))) else x)
  else x

/-- What a KEYFWD does further. -/
def keyfwdAct (src : Nat) (group typ subject flags : Byte) (ticks : BitVec 48) (x : State) : State :=
  if src != selfId x && memStatus x src == 1 && decide (group.toNat < 8) then
    fifoPost x (ownerN x (.key group.toNat)) typ.toNat subject.toNat (flags.toNat ||| 0x40) src ticks.toNat 0
  else x

/-- What a CAPO does further. -/
def capoAct (x : State) : State := if bit (used x 0x53) 6 then capoTrigger x 2 else x

/-- The field in which a HELLO differs, 0 for none. -/
def helloField (devHi devLo format members : Byte) (digest : Word) (x : State) : Nat :=
  if devHi ≠ 0x09 ∨ devLo ≠ 0xB1 then 1
  else if format ≠ x.core.gng.format then 2
  else if members.toNat ≠ gngMembers x then 3
  else if digest ≠ x.core.gng.digest then 4 else 0

/-- A HELLO's mismatch is recorded, or one of its sender's ends. -/
def helloCompared (src f : Nat) (x : State) : State :=
  if f ≠ 0 then setMismatch x src f
  else if x.core.gng.mmField ≠ 5 ∧ x.core.gng.mmMember = src then setMismatch x src 0 else x

/-- What a HELLO says of its sender. -/
def helloRead (src : Nat) (devLo format members : Byte) (digest : Word) (x : State) : State :=
  modMem x src (fun q => { q with stepping := devLo, format := format, members := BitVec.ofNat 4 members.toNat, digest := digest })

/-- A member of MEMBERS is PRESENT, or INCOMPATIBLE where its HELLO differs. -/
def helloJudged (src f : Nat) (x : State) : State :=
  if (gngMembers x).testBit src then setMemStatus x src (if 1 ≤ f ∧ f ≤ 3 then 3 else 1) else x

/-- A HELLO of another member is compared with the own one. -/
def helloTaken (src : Nat) (devHi devLo format members : Byte) (digest : Word) (x : State) : State :=
  helloJudged src (helloField devHi devLo format members digest x)
    (helloCompared src (helloField devHi devLo format members digest x) (helloRead src devLo format members digest x))

/-- A HELLO is owed in answer to one of a member that is not PRESENT. -/
def helloOwed (owes : Bool) (x : State) : State := if owes then modG x (fun g => { g with owed := true, pendHello := true }) else x

/-- A HELLO of another member is answered where one is owed, and taken. -/
def helloNoted (owes : Bool) (src : Nat) (devHi devLo format members : Byte) (digest : Word) (x : State) : State :=
  if src = selfId (helloOwed owes x) then helloOwed owes x else helloTaken src devHi devLo format members digest (helloOwed owes x)

/-- What a HELLO does further. -/
def helloAct (owes : Bool) (src : Nat) (devHi devLo format members : Byte) (digest : Word) (x : State) : State :=
  gangJudge (helloNoted owes src devHi devLo format members digest x)

theorem heeds_stateNoted {src : Nat} {vote flags : Byte} : Heeds x (stateNoted src vote flags x) :=
  heeds_ite (fun _ => heeds_modMem fun _ => rfl) fun _ => .refl x

theorem heeds_stateAct {src : Nat} {vote flags : Byte} : Heeds x (stateAct src vote flags x) := heeds_stateNoted.trans heeds_gangJudge

theorem heeds_rpgAct {src : Nat} {rpg : Byte} : Heeds x (rpgAct src rpg x) := heeds_ite (fun _ => heeds_modMem fun _ => rfl) fun _ => .refl x

/-- A step of the timebase counts, and leaves the rest of the link. -/
theorem stepTime_gng (x : State) (d : Int) : (stepTime x d).core.gng = { x.core.gng with
    steps := sat 65535 (x.core.gng.steps + 1), lastStep := BitVec.ofInt 32 (clampI (-2147483648) 2147483647 d)
    jumps := if d.natAbs > 32768 then sat 255 (x.core.gng.jumps + 1) else x.core.gng.jumps } := by
  unfold stepTime
  dsimp only
  by_cases hjump : d.natAbs > 32768
  · simp only [if_pos hjump]
    split <;> rfl
  · simp only [if_neg hjump]
    split <;> rfl

/-- A step moves the timebase alone of the clocks. -/
theorem stepTime_aon (x : State) (d : Int) : (stepTime x d).aon.tbase = BitVec.ofInt 48 ((x.aon.tbase.toNat : Int) + d) ∧
    (stepTime x d).aon.osc = x.aon.osc := by
  unfold stepTime
  dsimp only
  by_cases hjump : d.natAbs > 32768
  · simp only [if_pos hjump]
    split <;> exact ⟨rfl, rfl⟩
  · simp only [if_neg hjump]
    split <;> exact ⟨rfl, rfl⟩

theorem goes_stepTime {d : Int} : Goes [.aon, .irqPend, .gng] x (stepTime x d) := (Goes.refl _ x).stepTime (by decide) (by decide) (by decide)

theorem heeds_timeAct {src ticks since : Nat} : Heeds x (timeAct src ticks since x) :=
  heeds_ite (fun _ => heeds_ite (fun _ => ⟨goes_stepTime.mono (by decide), congrArg KeyBlk.fwdDue (goes_stepTime.same .key (by decide)),
    by rw [stepTime_gng]; rfl⟩) fun _ => .refl x) fun _ => .refl x

theorem heeds_keyfwdAct {src : Nat} {group typ subject flags : Byte} {ticks : BitVec 48} : Heeds x (keyfwdAct src group typ subject flags ticks x) := by
  refine heeds_ite (fun _ => ?_) fun _ => .refl x
  have hgoes (p typ subj flags data tick vel : Nat) : Goes [.irqPend, .key] x (fifoPost x p typ subj flags data tick vel) :=
    (Goes.refl _ x).fifoPost (by decide) (by decide)
  refine ⟨(hgoes _ _ _ _ _ _ _).mono (by decide), ?_, congrArg linkRecord ((hgoes _ _ _ _ _ _ _).same .gng (by decide))⟩
  unfold fifoPost
  dsimp only
  split <;> rfl

theorem heeds_capoAct : Heeds x (capoAct x) :=
  heeds_ite (fun _ => ⟨((Goes.refl [.capo] x).capoTrigger (by decide)).mono (by decide), rfl, rfl⟩) fun _ => .refl x

theorem heeds_helloOwed {owes : Bool} : Heeds x (helloOwed owes x) :=
  heeds_ite (fun _ => .of_gng ((Goes.refl _ x).modG (by decide)) rfl) fun _ => .refl x

theorem heeds_helloCompared {src f : Nat} : Heeds x (helloCompared src f x) :=
  heeds_ite (fun _ => heeds_setMismatch) fun _ => heeds_ite (fun _ => heeds_setMismatch) fun _ => .refl x

theorem heeds_helloTaken {src : Nat} {devHi devLo format members : Byte} {digest : Word} :
    Heeds x (helloTaken src devHi devLo format members digest x) := by
  have hread : Heeds x (helloRead src devLo format members digest x) := heeds_modMem fun _ => rfl
  exact hread.trans (heeds_helloCompared.trans (heeds_ite (fun _ => heeds_setMemStatus) fun _ => .refl _))

theorem heeds_helloNoted {owes : Bool} {src : Nat} {devHi devLo format members : Byte} {digest : Word} :
    Heeds x (helloNoted owes src devHi devLo format members digest x) := by
  have howed : Heeds x (helloOwed owes x) := heeds_helloOwed
  unfold helloNoted
  generalize helloOwed owes x = y at howed ⊢
  exact heeds_ite (fun _ => howed) fun _ => howed.trans heeds_helloTaken

theorem heeds_helloAct {owes : Bool} {src : Nat} {devHi devLo format members : Byte} {digest : Word} :
    Heeds x (helloAct owes src devHi devLo format members digest x) :=
  heeds_helloNoted.trans heeds_gangJudge

/-- The end of the instant of a frame. -/
theorem passed_gng {z : State} (hen : gngEn z = true) : ∃ fw dr a b c d e, (settle (gangPass z)).core.gng = { z.core.gng with
      busy := false, fwd := fw, fwdDrops := dr, pendState := a, pendRpg := b, pendCapo := c, lastVote := d, lastRpg := e } ∧
    (z.core.gng.fwd.length ≤ 16 → fw = (z.core.gng.fwd ++ z.core.key.fwdDue).take 16) := by
  obtain ⟨a, b, c, d, e, hsettle⟩ := settle_gng (gangPass z)
  obtain ⟨fw, dr, hfold, hfw⟩ := foldl_fwdTake z.core.key.fwdDue { z.core.gng with busy := false }
  exact ⟨fw, dr, a, b, c, d, e, by rw [hsettle, (gangPass_on hen).1, hfold], hfw⟩

/-- Where a boundary and the end of an instant go. -/
theorem goes_passed {z : State} : Goes (.key :: endPieces) z (settle (gangPass z)) := (goes_gangPass.mono (by decide)).settle (by decide)

end Sys2Proof.Machine
end

section
/-! PROOFS. Chapter 15: what each frame received on the gang link does (15 R411, R415, R416, R419, R422-R426). -/

set_option Elab.async false

namespace Sys2Proof.Machine

variable {s t x y : State} {dest : BitVec 4} {src : Fin 4}

/-- Every frame that is heard counts once. -/
theorem gangHeard_counts (s : State) (src : Option Nat) : (gangHeard s src).core.gng.rx = (s.core.gng.rx + 1) % 65536 ∧
    (gangHeard s src).core.gng.crcErr = s.core.gng.crcErr ∧ (gangHeard s src).core.gng.fwd = s.core.gng.fwd ∧
    (gangHeard s src).core.key.fwdDue = s.core.key.fwdDue := by
  have hdue : (gangHeard s src).core.key.fwdDue = s.core.key.fwdDue := congrArg KeyBlk.fwdDue (goes_gangHeard.same .key (by decide))
  cases src with
  | none => exact ⟨rfl, rfl, rfl, rfl⟩
  | some m =>
    by_cases hm : m = selfId s
    · subst hm
      obtain ⟨f, n, k, b, hg⟩ := gangHeard_self (s := s)
      exact ⟨by rw [hg], by rw [hg], by rw [hg], hdue⟩
    · rw [gangHeard_other hm]
      exact ⟨rfl, rfl, rfl, rfl⟩

/-- The state that a frame leaves before its boundary. -/
def frameTaken (s : State) (dest : BitVec 4) (src : Option Nat) (act : State → State) : State :=
  if bit dest (selfId s) then act (gangHeard s src) else gangHeard s src

theorem frameTaken_heeds {src : Option Nat} {act : State → State} (hact : ∀ x, Heeds x (act x)) :
    Heeds (gangHeard s src) (frameTaken s dest src act) := heeds_ite (fun _ => hact _) fun _ => .refl _

theorem goes_frameTaken {src : Option Nat} {act : State → State} (hact : ∀ x, Heeds x (act x)) :
    Goes [.aon, .capo, .irqPend, .key, .gng] s (frameTaken s dest src act) :=
  (goes_gangHeard.mono (by decide)).trans (frameTaken_heeds hact).goes

/-- A frame of a link that is on ends at a boundary, without a course to take up. -/
theorem gangBoundary_frame (hen : gngEn s = true) (hdue : courseDue s 7 = false) {src : Option Nat} {act : State → State}
    (hact : ∀ x, Heeds x (act x)) : gangBoundary (gangRx s dest src act) = gangPass (frameTaken s dest src act) := by
  rw [gangRx_on hen]
  exact gangBoundary_idle (((goes_frameTaken hact).courseDue_same (by decide) 7).trans hdue)

theorem gngEn_frameTaken (hen : gngEn s = true) {src : Option Nat} {act : State → State} (hact : ∀ x, Heeds x (act x)) :
    gngEn (frameTaken s dest src act) = true := ((goes_frameTaken hact).gngEn_same (by decide) (by decide)).trans hen

/-- What the end of every frame leaves. -/
theorem frame_counted (hen : gngEn s = true) {src : Option Nat} {act : State → State} (hact : ∀ x, Heeds x (act x)) :
    let t := settle (gangPass (frameTaken s dest src act))
    t.core.gng.rx = (s.core.gng.rx + 1) % 65536 ∧ t.core.gng.crcErr = s.core.gng.crcErr ∧ t.core.gng.busy = false ∧
      t.core.key.fwdDue = [] ∧ (s.core.gng.fwd.length ≤ 16 → t.core.gng.fwd = (s.core.gng.fwd ++ s.core.key.fwdDue).take 16) := by
  intro t
  have henz := gngEn_frameTaken (dest := dest) (src := src) hen hact
  have hheed := frameTaken_heeds (s := s) (dest := dest) (src := src) hact
  obtain ⟨hrx, hcrc, hfwd, hdue⟩ := gangHeard_counts s src
  obtain ⟨fw, dr, a, b, c, d, e, hg, hfw⟩ := passed_gng henz
  have hkey : t.core.key.fwdDue = [] := congrArg KeyBlk.fwdDue (gangPass_on henz).2
  have hrecord := congrArg Prod.fst hheed.record
  simp only [linkRecord, Prod.mk.injEq] at hrecord
  obtain ⟨hzrx, hzcrc, hzfwd⟩ := hrecord
  refine ⟨?_, ?_, ?_, hkey, fun hle => ?_⟩
  · rw [hg]
    exact hzrx.trans hrx
  · rw [hg]
    exact hzcrc.trans hcrc
  · rw [hg]
  · rw [hg]
    refine (hfw (by rw [hzfwd, hfwd]; exact hle)).trans ?_
    rw [hzfwd, hfwd, hheed.due, hdue]

/-- The sender of a frame is seen. -/
theorem frame_seen (hen : gngEn s = true) (hmems : s.core.gng.mems.length = 4) {act : State → State} (hact : ∀ x, Heeds x (act x))
    (hsrc : src.val ≠ selfId s) :
    (nth (settle (gangPass (frameTaken s dest (some src.val) act))).core.gng.mems src.val {}).seen = BitVec.ofNat 32 (stamp s) := by
  obtain ⟨fw, dr, a, b, c, d, e, hg, -⟩ := passed_gng (gngEn_frameTaken (dest := dest) (src := some src.val) hen hact)
  have hmap : (frameTaken s dest (some src.val) act).core.gng.mems.map MemSt.seen = (gangHeard s (some src.val)).core.gng.mems.map MemSt.seen :=
    congrArg (fun r => r.2.2.2) (frameTaken_heeds (s := s) (dest := dest) (src := some src.val) hact).record
  rw [hg, proj_nth_eq_nth_map MemSt.seen, hmap, ← proj_nth_eq_nth_map MemSt.seen, gangHeard_other hsrc]
  exact congrArg MemSt.seen (nth_upd_same _ _ _ _ (by rw [show (modG s _).core.gng.mems = s.core.gng.mems from rfl, hmems]; exact src.isLt))

/-- A frame that carries the own ID is a duplicate. -/
theorem frame_duplicate (hen : gngEn s = true) {act : State → State} (hact : ∀ x, Heeds x (act x))
    (hown : ∀ x, src.val = selfId x → (act x).core.gng.mmField = x.core.gng.mmField) (hsrc : src.val = selfId s) :
    let t := settle (gangPass (frameTaken s dest (some src.val) act))
    t.core.gng.dup = some (now s) ∧ t.core.gng.dupSeen = sat 255 (s.core.gng.dupSeen + 1) ∧ t.core.gng.mmField = 5 ∧
      (s.core.gng.dup = none → ∀ q ∈ t.core.irq, bit q.pend 37 = true) := by
  intro t
  obtain ⟨fw, dr, a, b, c, d, e, hg, -⟩ := passed_gng (gngEn_frameTaken (dest := dest) (src := some src.val) hen hact)
  have hrecord := congrArg Prod.snd (frameTaken_heeds (s := s) (dest := dest) (src := some src.val) hact).record
  simp only [linkRecord, Prod.mk.injEq] at hrecord
  obtain ⟨hdup, hseen, -⟩ := hrecord
  have hself : selfId (gangHeard s (some src.val)) = selfId s := goes_gangHeard.selfId_same (by decide)
  have hfield : (frameTaken s dest (some src.val) act).core.gng.mmField = (gangHeard s (some src.val)).core.gng.mmField := by
    unfold frameTaken
    split
    · exact hown _ (hsrc.trans hself.symm)
    · rfl
  obtain ⟨f, n, k, o, hheard⟩ := gangHeard_self (s := s)
  rw [← hsrc] at hheard
  refine ⟨?_, ?_, ?_, fun hnew => ?_⟩
  · rw [hg]
    exact hdup.trans (by rw [hheard])
  · rw [hg]
    exact hseen.trans (by rw [hheard])
  · rw [hg]
    exact hfield.trans (by rw [hheard])
  · have hpend := pend_gangHeard_self hnew
    rw [← hsrc] at hpend
    exact (((frameTaken_heeds hact).goes.mono (qs := .aon :: .key :: endPieces) (by decide)).trans (goes_passed.mono (by decide))).pend_all
      (by decide) hpend

/-- A STATE of the own ID gives no vote. -/
theorem stateNoted_own {vote flags : Byte} (hown : src.val = selfId x) : stateNoted src.val vote flags x = x := if_neg (by simp [hown])

theorem mmField_gangJudge : (gangJudge x).core.gng.mmField = x.core.gng.mmField := by
  obtain ⟨f, n, hg⟩ := gangJudge_gng x
  rw [hg]

theorem mmField_helloAct {owes : Bool} {devHi devLo format members : Byte} {digest : Word} (hown : src.val = selfId x) :
    (helloAct owes src.val devHi devLo format members digest x).core.gng.mmField = x.core.gng.mmField := by
  have howed : selfId (helloOwed owes x) = selfId x := heeds_helloOwed.goes.selfId_same (by decide)
  have hnoted : helloNoted owes src.val devHi devLo format members digest x = helloOwed owes x := if_pos (hown.trans howed.symm)
  rw [helloAct, mmField_gangJudge, hnoted]
  unfold helloOwed
  split <;> rfl

/-- The clause of O59 about every frame. -/
theorem gangFrame_ends (hup : coreUp s = true) (hen : gngEn s = true) (hmems : s.core.gng.mems.length = 4) (hdue : courseDue s 7 = false)
    (dest : BitVec 4) (src : Fin 4) (a b c d : Byte) (w : Word) (tk : BitVec 48) (k : Nat) :
    ∀ i ∈ [Instr.gangState dest src a b c, .gangRpg dest src a, .gangTime dest src tk k, .gangHello dest src a b c d w,
        .keyfwd dest src a b c d tk, .gangCapo dest],
      ∃ t, exec i s = .next t ∧ t.core.gng.rx = (s.core.gng.rx + 1) % 65536 ∧ t.core.gng.crcErr = s.core.gng.crcErr ∧ t.core.gng.busy = false ∧
        t.core.key.fwdDue = [] ∧ (s.core.gng.fwd.length ≤ 16 → t.core.gng.fwd = (s.core.gng.fwd ++ s.core.key.fwdDue).take 16) ∧
        (i ≠ .gangCapo dest → src.val ≠ selfId s → (nth t.core.gng.mems src.val {}).seen = BitVec.ofNat 32 (stamp s)) ∧
        (i ≠ .gangCapo dest → src.val = selfId s → t.core.gng.dup = some (now s) ∧ t.core.gng.dupSeen = sat 255 (s.core.gng.dupSeen + 1) ∧
          t.core.gng.mmField = 5 ∧ (s.core.gng.dup = none → ∀ q ∈ t.core.irq, bit q.pend 37 = true)) := by
  have hframe {i : Instr} {act : State → State} (hexec : exec i s = .next (settle (gangBoundary (gangRx s dest (some src.val) act))))
      (hact : ∀ x, Heeds x (act x)) (hown : ∀ x, src.val = selfId x → (act x).core.gng.mmField = x.core.gng.mmField) :
      ∃ t, exec i s = .next t ∧ t.core.gng.rx = (s.core.gng.rx + 1) % 65536 ∧ t.core.gng.crcErr = s.core.gng.crcErr ∧ t.core.gng.busy = false ∧
        t.core.key.fwdDue = [] ∧ (s.core.gng.fwd.length ≤ 16 → t.core.gng.fwd = (s.core.gng.fwd ++ s.core.key.fwdDue).take 16) ∧
        (i ≠ .gangCapo dest → src.val ≠ selfId s → (nth t.core.gng.mems src.val {}).seen = BitVec.ofNat 32 (stamp s)) ∧
        (i ≠ .gangCapo dest → src.val = selfId s → t.core.gng.dup = some (now s) ∧ t.core.gng.dupSeen = sat 255 (s.core.gng.dupSeen + 1) ∧
          t.core.gng.mmField = 5 ∧ (s.core.gng.dup = none → ∀ q ∈ t.core.irq, bit q.pend 37 = true)) := by
    rw [gangBoundary_frame hen hdue hact] at hexec
    obtain ⟨hrx, hcrc, hbusy, hpassed, hfwd⟩ := frame_counted (dest := dest) (src := some src.val) hen hact
    exact ⟨_, hexec, hrx, hcrc, hbusy, hpassed, hfwd, fun _ hsrc => frame_seen hen hmems hact hsrc,
      fun _ hsrc => frame_duplicate hen hact hown hsrc⟩
  intro i hi
  simp only [List.mem_cons, List.not_mem_nil, or_false] at hi
  obtain rfl | rfl | rfl | rfl | rfl | rfl := hi
  · exact hframe (act := stateAct src.val b c) (instant_core _ hup) (fun _ => heeds_stateAct) fun x hx => by
      rw [stateAct, mmField_gangJudge, stateNoted_own hx]
  · exact hframe (act := rpgAct src.val a) (instant_core _ hup) (fun _ => heeds_rpgAct) fun x hx => by
      rw [rpgAct, if_neg (by simp [hx])]
  · exact hframe (act := timeAct src.val tk.toNat k) (instant_core _ hup) (fun _ => heeds_timeAct) fun x hx => by
      rw [timeAct, if_neg (by simp [hx])]
  · exact hframe (act := helloAct (memStatus s src.val != 1) src.val a b c d w) (instant_core _ hup) (fun _ => heeds_helloAct) fun x hx =>
      mmField_helloAct hx
  · exact hframe (act := keyfwdAct src.val a b c d tk) (instant_core _ hup) (fun _ => heeds_keyfwdAct) fun x hx => by
      rw [keyfwdAct, if_neg (by simp [hx])]
  · have hexec : exec (.gangCapo dest) s = .next (settle (gangBoundary (gangRx s dest none capoAct))) := instant_core _ hup
    rw [gangBoundary_frame hen hdue fun _ => heeds_capoAct] at hexec
    obtain ⟨hrx, hcrc, hbusy, hpassed, hfwd⟩ := frame_counted (dest := dest) (src := none) hen fun _ => heeds_capoAct
    exact ⟨_, hexec, hrx, hcrc, hbusy, hpassed, hfwd, fun h => absurd rfl h, fun h => absurd rfl h⟩

end Sys2Proof.Machine
end

section
/-! PROOFS. Chapter 15: the votes, the time, the membership and the capos of the frames received (15 R411, R416, R419, R422-R426). -/

set_option Elab.async false

namespace Sys2Proof.Machine

variable {s t x y : State} {dest : BitVec 4} {src : Fin 4}

/-- A frame of another member, heard, where a course does not come in. -/
theorem exec_frame {i : Instr} {act : State → State} (hen : gngEn s = true) (hdue : courseDue s 7 = false)
    (hexec : exec i s = .next (settle (gangBoundary (gangRx s dest (some src.val) act)))) (hact : ∀ x, Heeds x (act x)) :
    exec i s = .next (settle (gangPass (frameTaken s dest (some src.val) act))) := by
  rw [hexec, gangBoundary_frame hen hdue hact]

/-- A frame that has been heard knows its sender as before. -/
theorem heard_mem (hmems : s.core.gng.mems.length = 4) (hsrc : src.val ≠ selfId s) :
    nth (gangHeard s (some src.val)).core.gng.mems src.val {} =
      { nth s.core.gng.mems src.val {} with seen := BitVec.ofNat 32 (stamp s), last := now s } := by
  rw [gangHeard_other hsrc]
  exact nth_upd_same _ _ _ _ (by rw [show (modG s _).core.gng.mems = s.core.gng.mems from rfl, hmems]; exact src.isLt)

theorem heard_length (hsrc : src.val ≠ selfId s) : (gangHeard s (some src.val)).core.gng.mems.length = s.core.gng.mems.length := by
  rw [gangHeard_other hsrc]
  exact length_upd _ _ _

theorem memStatus_heard (hmems : s.core.gng.mems.length = 4) (hsrc : src.val ≠ selfId s) :
    memStatus (gangHeard s (some src.val)) src.val = memStatus s src.val := by
  have hself : selfId (gangHeard s (some src.val)) = selfId s := goes_gangHeard.selfId_same (by decide)
  rw [memStatus_other (by rw [hself]; exact hsrc), memStatus_other hsrc, heard_mem hmems hsrc]

/-- A frame of a PRESENT member that names this one passes the guard of its effect. -/
theorem heard_present (hmems : s.core.gng.mems.length = 4) (hsrc : src.val ≠ selfId s) (hpresent : memStatus s src.val = 1) :
    (src.val != selfId (gangHeard s (some src.val)) && memStatus (gangHeard s (some src.val)) src.val == 1) = true := by
  have hself : selfId (gangHeard s (some src.val)) = selfId s := goes_gangHeard.selfId_same (by decide)
  rw [memStatus_heard hmems hsrc, hself]
  simp [hsrc, hpresent]

/-- The members after the instant of a frame are those that it has left. -/
theorem frame_mems (hen : gngEn s = true) {act : State → State} (hact : ∀ x, Heeds x (act x)) :
    (settle (gangPass (frameTaken s dest (some src.val) act))).core.gng.mems = (frameTaken s dest (some src.val) act).core.gng.mems := by
  obtain ⟨fw, dr, a, b, c, d, e, hg, -⟩ := passed_gng (gngEn_frameTaken (dest := dest) (src := some src.val) hen hact)
  rw [hg]

theorem frameTaken_named {act : State → State} (hdest : bit dest (selfId s) = true) (src : Option Nat) :
    frameTaken s dest src act = act (gangHeard s src) := if_pos hdest

theorem frameTaken_unnamed {act : State → State} (hdest : bit dest (selfId s) = false) (src : Option Nat) :
    frameTaken s dest src act = gangHeard s src := if_neg (by simp [hdest])

/-- A STATE of a PRESENT member. -/
theorem gangState_recorded (hup : coreUp s = true) (hen : gngEn s = true) (hmems : s.core.gng.mems.length = 4) (hdue : courseDue s 7 = false)
    (num vote flags : Byte) (hsrc : src.val ≠ selfId s) (hpresent : memStatus s src.val = 1) :
    ∃ t, exec (.gangState dest src num vote flags) s = .next t ∧
      let m := nth t.core.gng.mems src.val {}
      let old := nth s.core.gng.mems src.val {}
      m.status = 1 ∧
      (bit dest (selfId s) = true → m.rpg = bit flags 0 ∧ m.stateAt = some (now s) ∧
        (vote.toNat = 2 ∨ vote.toNat = 3 ∨ vote.toNat = 4 → m.vote = vote.toNat)) ∧
      (bit dest (selfId s) = false → m.rpg = old.rpg ∧ m.vote = old.vote ∧ m.stateAt = old.stateAt) := by
  refine ⟨_, exec_frame (act := stateAct src.val vote flags) hen hdue (instant_core _ hup) fun _ => heeds_stateAct, ?_⟩
  rw [frame_mems hen fun _ => heeds_stateAct]
  have hstatus : (nth s.core.gng.mems src.val {}).status = 1 := (memStatus_other hsrc).symm.trans hpresent
  cases hdest : bit dest (selfId s) with
  | false =>
    rw [frameTaken_unnamed hdest, heard_mem hmems hsrc]
    exact ⟨hstatus, nofun, fun _ => ⟨rfl, rfl, rfl⟩⟩
  | true =>
    obtain ⟨f, n, hjudge⟩ := gangJudge_gng (stateNoted src.val vote flags (gangHeard s (some src.val)))
    have hmems' : (stateAct src.val vote flags (gangHeard s (some src.val))).core.gng.mems =
        (stateNoted src.val vote flags (gangHeard s (some src.val))).core.gng.mems := by
      rw [stateAct, hjudge]
    have hnoted : nth (stateNoted src.val vote flags (gangHeard s (some src.val))).core.gng.mems src.val {} =
        { nth (gangHeard s (some src.val)).core.gng.mems src.val {} with
          vote := if vote.toNat < 8 then vote.toNat else 0, rpg := bit flags 0, stateAt := some (now s) } := by
      have hnow : now (gangHeard s (some src.val)) = now s := congrArg Aon.osc (goes_gangHeard.same .aon (by decide))
      rw [stateNoted, if_pos (heard_present hmems hsrc hpresent), ← hnow]
      exact nth_upd_same _ _ _ _ (by rw [heard_length hsrc, hmems]; exact src.isLt)
    rw [frameTaken_named hdest, hmems', hnoted, heard_mem hmems hsrc]
    exact ⟨hstatus, fun _ => ⟨rfl, rfl, fun hvote => if_pos (by omega)⟩, nofun⟩

/-- An RPG of a PRESENT member. -/
theorem gangRpg_recorded (hup : coreUp s = true) (hen : gngEn s = true) (hmems : s.core.gng.mems.length = 4) (hdue : courseDue s 7 = false)
    (rpg : Byte) (hsrc : src.val ≠ selfId s) (hpresent : memStatus s src.val = 1) :
    ∃ t, exec (.gangRpg dest src rpg) s = .next t ∧
      (nth t.core.gng.mems src.val {}).rpg = (if bit dest (selfId s) then decide (rpg = 1) else (nth s.core.gng.mems src.val {}).rpg) ∧
      t.core.gng.state = s.core.gng.state := by
  refine ⟨_, exec_frame (act := rpgAct src.val rpg) hen hdue (instant_core _ hup) fun _ => heeds_rpgAct, ?_⟩
  obtain ⟨fw, dr, a, b, c, d, e, hg, -⟩ := passed_gng (gngEn_frameTaken (dest := dest) (src := some src.val) hen fun x => heeds_rpgAct (x := x) (rpg := rpg))
  rw [hg]
  cases hdest : bit dest (selfId s) with
  | false =>
    rw [frameTaken_unnamed hdest]
    refine ⟨?_, by rw [gangHeard_other hsrc]; rfl⟩
    show (nth (gangHeard s (some src.val)).core.gng.mems src.val {}).rpg = _
    rw [heard_mem hmems hsrc]
    rfl
  | true =>
    have hact : rpgAct src.val rpg (gangHeard s (some src.val)) = _ := if_pos (heard_present hmems hsrc hpresent)
    rw [frameTaken_named hdest, hact]
    refine ⟨?_, by rw [gangHeard_other hsrc]; rfl⟩
    exact congrArg MemSt.rpg (nth_upd_same _ _ (fun q : MemSt => { q with rpg := rpg == 1 }) _ (by rw [heard_length hsrc, hmems]; exact src.isLt))

/-- A TIME of another member. -/
theorem gangTime_steps (hup : coreUp s = true) (hen : gngEn s = true) (hmems : s.core.gng.mems.length = 4) (hdue : courseDue s 7 = false)
    (ticks : BitVec 48) (since : Nat) (hsrc : src.val ≠ selfId s) :
    let d : Int := (ticks.toNat : Int) - ((stamp s : Int) - (since : Int))
    ∃ t, exec (.gangTime dest src ticks since) s = .next t ∧
      (bit dest (selfId s) = false ∨ memStatus s src.val ≠ 1 ∨ s.core.gng.keystone ≠ some src.val ∨ d.natAbs ≤ 4 →
        t.aon = s.aon ∧ t.core.gng.steps = s.core.gng.steps) ∧
      (bit dest (selfId s) = true → memStatus s src.val = 1 → s.core.gng.keystone = some src.val → 4 < d.natAbs →
        t.aon.tbase = BitVec.ofInt 48 ((s.aon.tbase.toNat : Int) + d) ∧ t.aon.osc = s.aon.osc ∧ t.core.gng.steps = sat 65535 (s.core.gng.steps + 1) ∧
        t.core.gng.jumps = (if 32768 < d.natAbs then sat 255 (s.core.gng.jumps + 1) else s.core.gng.jumps) ∧
        (32768 < d.natAbs → ∀ q ∈ t.core.irq, bit q.pend 38 = true)) := by
  intro d
  have hact (x : State) : Heeds x (timeAct src.val ticks.toNat since x) := heeds_timeAct
  refine ⟨_, exec_frame (act := timeAct src.val ticks.toNat since) hen hdue (instant_core _ hup) hact, ?_⟩
  obtain ⟨fw, dr, a, b, c, e, f, hg, -⟩ := passed_gng (gngEn_frameTaken (dest := dest) (src := some src.val) hen hact)
  have hself : selfId (gangHeard s (some src.val)) = selfId s := goes_gangHeard.selfId_same (by decide)
  have haon : (gangHeard s (some src.val)).aon = s.aon := goes_gangHeard.same .aon (by decide)
  have hstamp : stamp (gangHeard s (some src.val)) = stamp s := congrArg (fun a => a.tbase.toNat) haon
  have hkey : (gangHeard s (some src.val)).core.gng.keystone = s.core.gng.keystone := by rw [gangHeard_other hsrc]; rfl
  have hsteps : (gangHeard s (some src.val)).core.gng.steps = s.core.gng.steps ∧
      (gangHeard s (some src.val)).core.gng.jumps = s.core.gng.jumps := by rw [gangHeard_other hsrc]; exact ⟨rfl, rfl⟩
  have hpassed : (settle (gangPass (frameTaken s dest (some src.val) (timeAct src.val ticks.toNat since)))).aon =
      (frameTaken s dest (some src.val) (timeAct src.val ticks.toNat since)).aon := goes_passed.same .aon (by decide)
  refine ⟨fun hno => ?_, fun hdest hpresent hk hd => ?_⟩
  · have hsame : frameTaken s dest (some src.val) (timeAct src.val ticks.toNat since) = gangHeard s (some src.val) := by
      cases hdest : bit dest (selfId s) with
      | false => exact frameTaken_unnamed hdest _
      | true =>
        rw [frameTaken_named hdest, timeAct, hself, memStatus_heard hmems hsrc, hkey, hstamp]
        by_cases hgo : (src.val != selfId s && memStatus s src.val == 1 && s.core.gng.keystone == some src.val) = true
        · rw [if_pos hgo, if_neg]
          simp only [Bool.and_eq_true, bne_iff_ne, ne_eq, beq_iff_eq] at hgo
          rcases hno with h | h | h | h
          · exact absurd (hdest.symm.trans h) (by decide)
          · exact absurd hgo.1.2 h
          · exact absurd hgo.2 h
          · exact Nat.not_lt.mpr h
        · rw [if_neg hgo]
    rw [hsame] at hg hpassed ⊢
    exact ⟨hpassed.trans haon, by rw [hg]; exact hsteps.1⟩
  · have hstep : frameTaken s dest (some src.val) (timeAct src.val ticks.toNat since) = stepTime (gangHeard s (some src.val)) d := by
      rw [frameTaken_named hdest, timeAct, hself, memStatus_heard hmems hsrc, hkey, hstamp, if_pos (by simp [hsrc, hpresent, hk]), if_pos hd]
    rw [hstep] at hg hpassed ⊢
    obtain ⟨htbase, hosc⟩ := stepTime_aon (gangHeard s (some src.val)) d
    have hgng := stepTime_gng (gangHeard s (some src.val)) d
    refine ⟨?_, ?_, ?_, ?_, fun hjump => ?_⟩
    · rw [hpassed, htbase, haon]
    · rw [hpassed, hosc, haon]
    · rw [hg]
      show (stepTime _ d).core.gng.steps = _
      rw [hgng, ← hsteps.1]
    · rw [hg]
      show (stepTime _ d).core.gng.jumps = _
      rw [hgng, ← hsteps.2]
    · have hpend : ∀ q ∈ (stepTime (gangHeard s (some src.val)) d).core.irq, bit q.pend 38 = true := by
        unfold stepTime
        dsimp only
        rw [if_pos hjump]
        split
        · exact pend_raiseAll_all (by decide)
        · exact pend_raiseAll_all (by decide)
      exact goes_passed.pend_all (by decide) hpend

end Sys2Proof.Machine
end

section
/-! PROOFS. Chapter 15: HELLO, forwarded events, capos, dropped frames, and a link that is off (15 R409, R411, R415, R416, R425, R426). -/

set_option Elab.async false

namespace Sys2Proof.Machine

variable {s t x y : State} {dest : BitVec 4} {src : Fin 4} {devHi devLo format members : Byte} {digest : Word} {m f : Nat}

theorem helloOwed_gng (owes : Bool) (x : State) : ∃ a b, (helloOwed owes x).core.gng = { x.core.gng with owed := a, pendHello := b } ∧
    (owes = true → a = true ∧ b = true) := by
  cases owes with
  | true => exact ⟨true, true, rfl, fun _ => ⟨rfl, rfl⟩⟩
  | false => exact ⟨x.core.gng.owed, x.core.gng.pendHello, rfl, nofun⟩

/-- A comparison records the field that differs, and nothing else. -/
theorem helloCompared_gng (x : State) (m f : Nat) : ∃ a b, (helloCompared m f x).core.gng = { x.core.gng with mmMember := a, mmField := b } ∧
    (f ≠ 0 → a = m ∧ b = f) := by
  unfold helloCompared
  by_cases hf : f ≠ 0
  · rw [if_pos hf]
    exact ⟨m, f, setMismatch_gng x m f, fun _ => ⟨rfl, rfl⟩⟩
  · rw [if_neg hf]
    split
    · exact ⟨m, 0, setMismatch_gng x m 0, fun h => absurd h hf⟩
    · exact ⟨x.core.gng.mmMember, x.core.gng.mmField, rfl, fun h => absurd h hf⟩

/-- The status of a member that a HELLO's judgement leaves, and what it keeps. -/
theorem helloJudged_leaves (x : State) (m f : Nat) (hm : m < x.core.gng.mems.length) :
    (nth (helloJudged m f x).core.gng.mems m {}).status =
      (if (gngMembers x).testBit m then (if 1 ≤ f ∧ f ≤ 3 then 3 else 1) else (nth x.core.gng.mems m {}).status) ∧
    (nth (helloJudged m f x).core.gng.mems m {}).digest = (nth x.core.gng.mems m {}).digest ∧
    (helloJudged m f x).core.gng.mmMember = x.core.gng.mmMember ∧ (helloJudged m f x).core.gng.mmField = x.core.gng.mmField ∧
    (helloJudged m f x).core.gng.pendHello = x.core.gng.pendHello ∧ (helloJudged m f x).core.gng.owed = x.core.gng.owed := by
  unfold helloJudged
  generalize (if 1 ≤ f ∧ f ≤ 3 then 3 else 1) = st
  by_cases hmember : (gngMembers x).testBit m = true
  · rw [if_pos hmember, if_pos hmember]
    by_cases hsame : (nth x.core.gng.mems m {}).status = st
    · rw [setMemStatus_same hsame]
      exact ⟨hsame, rfl, rfl, rfl, rfl, rfl⟩
    · obtain ⟨k, b, hg⟩ := setMemStatus_gng hsame
      rw [hg]
      have hnth := nth_upd_same x.core.gng.mems m (fun q => { q with status := st, rpg := q.rpg && st != 2 }) {} hm
      exact ⟨congrArg MemSt.status hnth, (congrArg MemSt.digest hnth :), rfl, rfl, rfl, rfl⟩
  · rw [if_neg hmember, if_neg hmember]
    exact ⟨rfl, rfl, rfl, rfl, rfl, rfl⟩

/-- What a HELLO of another member leaves. -/
theorem helloTaken_leaves (hm : m < x.core.gng.mems.length) :
    let w := helloTaken m devHi devLo format members digest x
    let f := helloField devHi devLo format members digest x
    (nth w.core.gng.mems m {}).digest = digest ∧
    (nth w.core.gng.mems m {}).status = (if (gngMembers x).testBit m then (if 1 ≤ f ∧ f ≤ 3 then 3 else 1) else (nth x.core.gng.mems m {}).status) ∧
    (f ≠ 0 → w.core.gng.mmMember = m ∧ w.core.gng.mmField = f) ∧ w.core.gng.pendHello = x.core.gng.pendHello ∧
    w.core.gng.owed = x.core.gng.owed := by
  intro w f
  obtain ⟨a, b, hcomp, hfield⟩ := helloCompared_gng (helloRead m devLo format members digest x) m f
  have hread := nth_upd_same x.core.gng.mems m
    (fun q => { q with stepping := devLo, format := format, members := BitVec.ofNat 4 members.toNat, digest := digest }) {} hm
  have hnth : nth (helloCompared m f (helloRead m devLo format members digest x)).core.gng.mems m {} = { nth x.core.gng.mems m {} with
      stepping := devLo, format := format, members := BitVec.ofNat 4 members.toNat, digest := digest } := by
    rw [hcomp]
    exact hread
  have hlen : m < (helloCompared m f (helloRead m devLo format members digest x)).core.gng.mems.length := by
    rw [hcomp]
    exact (length_upd _ _ _).symm ▸ hm
  have hmembers : gngMembers (helloCompared m f (helloRead m devLo format members digest x)) = gngMembers x :=
    (((Goes.refl gangPieces x).modMem (by decide)).mono (by decide) |>.trans heeds_helloCompared.goes).gngMembers_same (by decide) (by decide)
  obtain ⟨hstatus, hdigest, hmember, hmm, hhello, howed⟩ := helloJudged_leaves (helloCompared m f (helloRead m devLo format members digest x)) m f hlen
  refine ⟨hdigest.trans (congrArg MemSt.digest hnth), ?_, fun hf => ?_, ?_, ?_⟩
  · refine hstatus.trans ?_
    rw [hmembers, hnth]
  · obtain ⟨ha, hb⟩ := hfield hf
    exact ⟨hmember.trans (by rw [hcomp]; exact ha), hmm.trans (by rw [hcomp]; exact hb)⟩
  · exact hhello.trans (by rw [hcomp]; rfl)
  · exact howed.trans (by rw [hcomp]; rfl)

/-- The first three fields in which a HELLO may differ make its sender INCOMPATIBLE. -/
theorem helloField_bad : (1 ≤ helloField devHi devLo format members digest x ∧ helloField devHi devLo format members digest x ≤ 3) ↔
    (devHi ≠ 0x09 ∨ devLo ≠ 0xB1 ∨ format ≠ x.core.gng.format ∨ members.toNat ≠ gngMembers x) := by
  unfold helloField
  by_cases hdev : devHi ≠ 0x09 ∨ devLo ≠ 0xB1
  · rw [if_pos hdev]
    exact iff_of_true (by decide) (by tauto)
  · rw [if_neg hdev]
    by_cases hformat : format ≠ x.core.gng.format
    · rw [if_pos hformat]
      exact iff_of_true (by decide) (by tauto)
    · rw [if_neg hformat]
      by_cases hmembers : members.toNat ≠ gngMembers x
      · rw [if_pos hmembers]
        exact iff_of_true (by decide) (by tauto)
      · rw [if_neg hmembers]
        refine iff_of_false ?_ (by tauto)
        split <;> decide

theorem helloField_differs (h : (devHi ≠ 0x09 ∨ devLo ≠ 0xB1 ∨ format ≠ x.core.gng.format ∨ members.toNat ≠ gngMembers x) ∨
    digest ≠ x.core.gng.digest) : helloField devHi devLo format members digest x ≠ 0 ∧ helloField devHi devLo format members digest x =
      (if devHi ≠ 0x09 ∨ devLo ≠ 0xB1 then 1 else if format ≠ x.core.gng.format then 2 else if members.toNat ≠ gngMembers x then 3 else 4) := by
  unfold helloField
  by_cases hdev : devHi ≠ 0x09 ∨ devLo ≠ 0xB1
  · rw [if_pos hdev, if_pos hdev]
    exact ⟨by decide, rfl⟩
  · rw [if_neg hdev, if_neg hdev]
    by_cases hformat : format ≠ x.core.gng.format
    · rw [if_pos hformat, if_pos hformat]
      exact ⟨by decide, rfl⟩
    · rw [if_neg hformat, if_neg hformat]
      by_cases hmembers : members.toNat ≠ gngMembers x
      · rw [if_pos hmembers, if_pos hmembers]
        exact ⟨by decide, rfl⟩
      · rw [if_neg hmembers, if_neg hmembers, if_pos (show digest ≠ x.core.gng.digest by tauto)]
        exact ⟨by decide, rfl⟩

/-- A HELLO of another member that names this one. -/
theorem gangHello_compared (hup : coreUp s = true) (hen : gngEn s = true) (hmems : s.core.gng.mems.length = 4) (hdue : courseDue s 7 = false)
    (devHi devLo format members : Byte) (digest : Word) (hsrc : src.val ≠ selfId s) (hdest : bit dest (selfId s) = true) :
    ∃ t, exec (.gangHello dest src devHi devLo format members digest) s = .next t ∧
      let bad := devHi ≠ 0x09 ∨ devLo ≠ 0xB1 ∨ format ≠ s.core.gng.format ∨ members.toNat ≠ gngMembers s
      (nth t.core.gng.mems src.val {}).digest = digest ∧
      memStatus t src.val = (if (gngMembers s).testBit src.val then (if bad then 3 else 1) else (nth s.core.gng.mems src.val {}).status) ∧
      (bad ∨ digest ≠ s.core.gng.digest → t.core.gng.mmMember = src.val ∧ t.core.gng.mmField =
        (if devHi ≠ 0x09 ∨ devLo ≠ 0xB1 then 1 else if format ≠ s.core.gng.format then 2 else if members.toNat ≠ gngMembers s then 3 else 4)) ∧
      (memStatus s src.val ≠ 1 → t.core.gng.pendHello = true ∧ t.core.gng.owed = true) := by
  have hact (x : State) : Heeds x (helloAct (memStatus s src.val != 1) src.val devHi devLo format members digest x) := heeds_helloAct
  refine ⟨_, exec_frame (act := helloAct (memStatus s src.val != 1) src.val devHi devLo format members digest) hen hdue (instant_core _ hup) hact, ?_⟩
  obtain ⟨fw, dr, a, b, c, e, k, hg, -⟩ := passed_gng (gngEn_frameTaken (dest := dest) (src := some src.val) hen hact)
  have hselfT : selfId (settle (gangPass (frameTaken s dest (some src.val)
      (helloAct (memStatus s src.val != 1) src.val devHi devLo format members digest)))) = selfId s :=
    ((goes_passed.mono (by decide)).selfId_same (ps := .key :: endPieces) (by decide)).trans ((goes_frameTaken hact).selfId_same (by decide))
  have hstatus := memStatus_other (m := src.val) (hselfT.symm ▸ hsrc)
  rw [hstatus, hg]
  clear hstatus hselfT hg
  generalize hz : frameTaken s dest (some src.val) (helloAct (memStatus s src.val != 1) src.val devHi devLo format members digest) = z
  rw [frameTaken_named hdest] at hz
  subst hz
  obtain ⟨aw, hw, howedG, howes⟩ := helloOwed_gng (memStatus s src.val != 1) (gangHeard s (some src.val))
  have hgoesO : Goes [.aon, .capo, .irqPend, .key, .gng] s (helloOwed (memStatus s src.val != 1) (gangHeard s (some src.val))) :=
    (goes_gangHeard.mono (by decide)).trans heeds_helloOwed.goes
  have hformat : (helloOwed (memStatus s src.val != 1) (gangHeard s (some src.val))).core.gng.format = s.core.gng.format := by
    rw [howedG, gangHeard_other hsrc]
    rfl
  have hdigest : (helloOwed (memStatus s src.val != 1) (gangHeard s (some src.val))).core.gng.digest = s.core.gng.digest := by
    rw [howedG, gangHeard_other hsrc]
    rfl
  have hmem : nth (helloOwed (memStatus s src.val != 1) (gangHeard s (some src.val))).core.gng.mems src.val {} =
      { nth s.core.gng.mems src.val {} with seen := BitVec.ofNat 32 (stamp s), last := now s } := by
    rw [howedG]
    exact heard_mem hmems hsrc
  have hlen : src.val < (helloOwed (memStatus s src.val != 1) (gangHeard s (some src.val))).core.gng.mems.length := by
    rw [howedG, show ∀ g : GngSt, ({ g with owed := aw, pendHello := hw } : GngSt).mems = g.mems from fun _ => rfl, heard_length hsrc, hmems]
    exact src.isLt
  have hmembers := hgoesO.gngMembers_same (by decide) (by decide)
  have hself := hgoesO.selfId_same (by decide)
  have hpend : (memStatus s src.val != 1) = true →
      (helloOwed (memStatus s src.val != 1) (gangHeard s (some src.val))).core.gng.pendHello = true ∧
      (helloOwed (memStatus s src.val != 1) (gangHeard s (some src.val))).core.gng.owed = true := fun h => by
    rw [howedG]
    exact (howes h).symm
  unfold helloAct helloNoted
  generalize helloOwed (memStatus s src.val != 1) (gangHeard s (some src.val)) = o at *
  rw [if_neg (by rw [hself]; exact hsrc)]
  obtain ⟨f, n, hjudge⟩ := gangJudge_gng (helloTaken src.val devHi devLo format members digest o)
  obtain ⟨hd, hst, hfield, hh, ho⟩ := helloTaken_leaves (devHi := devHi) (devLo := devLo) (format := format) (members := members) (digest := digest) hlen
  rw [hjudge]
  refine ⟨hd, ?_, fun hdiff => ?_, fun hnot => ?_⟩
  · refine hst.trans ?_
    simp only [helloField_bad, hmembers, hformat, hmem]
  · rw [← hformat, ← hmembers, ← hdigest] at hdiff
    obtain ⟨hne, heq⟩ := helloField_differs hdiff
    obtain ⟨hmm, hmf⟩ := hfield hne
    rw [← hformat, ← hmembers]
    exact ⟨hmm, hmf.trans heq⟩
  · obtain ⟨hp, hq⟩ := hpend (by simpa using hnot)
    exact ⟨hh.trans hp, ho.trans hq⟩

/-- A forwarded event of a PRESENT member that names this one. -/
theorem keyfwd_posted (hup : coreUp s = true) (hen : gngEn s = true) (hmems : s.core.gng.mems.length = 4) (hdue : courseDue s 7 = false)
    (group typ subject flags : Byte) (tk : BitVec 48) (hsrc : src.val ≠ selfId s) (hdest : bit dest (selfId s) = true)
    (hpresent : memStatus s src.val = 1) (hgroup : group.toNat < 8) :
    exec (.keyfwd dest src group typ subject flags tk) s = .next (settle (gangPass (fifoPost (gangHeard s (some src.val)) (ownerN s (.key group.toNat))
      typ.toNat subject.toNat (flags.toNat ||| 0x40) src.val tk.toNat 0))) := by
  rw [exec_frame (i := .keyfwd dest src group typ subject flags tk) (act := keyfwdAct src.val group typ subject flags tk) hen hdue
    (instant_core _ hup) fun _ => heeds_keyfwdAct, frameTaken_named hdest, keyfwdAct, if_pos (by rw [heard_present hmems hsrc hpresent, decide_eq_true hgroup]; rfl),
    ownerN_congr fun a => goes_gangHeard.used_same (by decide) (by decide) a]

/-- A CAPO frame. -/
theorem gangCapo_triggers (hup : coreUp s = true) (hen : gngEn s = true) (hdue : courseDue s 7 = false) (dest : BitVec 4) :
    ∃ t, exec (.gangCapo dest) s = .next t ∧
      (s.core.capo.trig = 0 → bit dest (selfId s) = true → bit (used s 0x53) 6 = true → s.core.capo.held = false →
        t.core.capo.seq = s.core.capo.seq + 1) ∧
      (s.core.capo.trig = 0 → bit dest (selfId s) = false ∨ bit (used s 0x53) 6 = false → t.core.capo = s.core.capo) := by
  have hexec : exec (.gangCapo dest) s = .next (settle (gangBoundary (gangRx s dest none capoAct))) := instant_core _ hup
  rw [gangBoundary_frame hen hdue fun _ => heeds_capoAct] at hexec
  have hpass (z : State) : (gangPass z).core.capo = z.core.capo := goes_gangPass.same .capo (by decide)
  have hcapo : (gangHeard s none).core.capo = s.core.capo := rfl
  have hcfg : used (gangHeard s none) 0x53 = used s 0x53 := rfl
  refine ⟨_, hexec, fun _ hdest hon hheld => ?_, fun htrig hno => ?_⟩
  · rw [frameTaken_named hdest, capoAct, if_pos (by rw [hcfg]; exact hon)]
    exact seq_settle_capoTrigger (x := gangHeard s none) _ (by decide) (hpass _) hheld
  · have hsame : frameTaken s dest none capoAct = gangHeard s none := by
      rcases hno with h | h
      · exact frameTaken_unnamed h none
      · have hnone : capoAct (gangHeard s none) = gangHeard s none := if_neg (by rw [hcfg, h]; decide)
        rw [frameTaken, hnone, ite_self]
    rw [hsame]
    show capoAfter (gangPass (gangHeard s none)) = _
    rw [capoAfter_of_noTrigger (by rw [hpass, hcapo]; exact htrig), hpass, hcapo]

/-- A frame that is dropped. -/
theorem gangFrameDropped_counts (hup : coreUp s = true) (hen : gngEn s = true) (hdue : courseDue s 7 = false) :
    ∃ t, exec .gangFrameDropped s = .next t ∧ t.core.gng.crcErr = sat 255 (s.core.gng.crcErr + 1) ∧ t.core.gng.rx = s.core.gng.rx ∧
      t.core.gng.mems = s.core.gng.mems ∧ t.core.gng.busy = false ∧ t.core.key.fwdDue = [] ∧
      (s.core.gng.fwd.length ≤ 16 → t.core.gng.fwd = (s.core.gng.fwd ++ s.core.key.fwdDue).take 16) := by
  have hdrop : gangDropOp s = modG s fun g => { g with crcErr := sat 255 (g.crcErr + 1) } := if_pos hen
  have hexec : exec .gangFrameDropped s = .next (settle (gangBoundary (gangDropOp s))) := instant_core _ hup
  rw [hdrop, gangBoundary_idle (show courseDue (modG s _) 7 = false from hdue)] at hexec
  obtain ⟨fw, dr, a, b, c, d, e, hg, hfw⟩ := passed_gng (z := modG s fun g => { g with crcErr := sat 255 (g.crcErr + 1) }) hen
  refine ⟨_, hexec, by rw [hg]; rfl, by rw [hg]; rfl, by rw [hg]; rfl, by rw [hg],
    congrArg KeyBlk.fwdDue (gangPass_on (s := modG s fun g => { g with crcErr := sat 255 (g.crcErr + 1) }) hen).2, fun hle => ?_⟩
  rw [hg]
  exact hfw hle

/-- On a link that is off no frame, no period and no stuck line changes anything. -/
theorem gangOff_ignores (hup : coreUp s = true) (hen : gngEn s = false) (hdue : courseDue s 7 = false) (hbusy : s.core.gng.busy = false)
    (dest : BitVec 4) (src : Fin 4) (a b c d : Byte) (w : Word) (tk : BitVec 48) (k : Nat) :
    ∀ i ∈ [Instr.gangCapo dest, .gangState dest src a b c, .gangRpg dest src a, .gangTime dest src tk k,
        .gangHello dest src a b c d w, .keyfwd dest src a b c d tk, .gangFrameDropped, .busStuck, .statePeriod, .helloPeriod, .timePeriod],
      exec i s = .next (settle s) := by
  have hop {i : Instr} {f : State → State} (hexec : exec i s = .next (settle (f s))) (hf : f s = s) : exec i s = .next (settle s) := by
    rw [hexec, hf]
  have hframe {i : Instr} {f : State → State} (hexec : exec i s = .next (settle (gangBoundary (f s)))) (hf : f s = s) :
      exec i s = .next (settle s) := hop (f := fun s => gangBoundary (f s)) hexec (by rw [hf, gangBoundary_off hdue hen hbusy])
  have hoff : ¬gngEn s = true := by simp [hen]
  intro i hi
  simp only [List.mem_cons, List.not_mem_nil, or_false] at hi
  obtain rfl | rfl | rfl | rfl | rfl | rfl | rfl | rfl | rfl | rfl | rfl := hi
  · exact hframe (f := fun s => gangCapoOp s dest) (instant_core _ hup) (gangRx_off hen)
  · exact hframe (f := fun s => gangStateOp s dest src.val b c) (instant_core _ hup) (gangRx_off hen)
  · exact hframe (f := fun s => gangRpgOp s dest src.val a) (instant_core _ hup) (gangRx_off hen)
  · exact hframe (f := fun s => gangTimeOp s dest src.val tk.toNat k) (instant_core _ hup) (gangRx_off hen)
  · exact hframe (f := fun s => gangHelloOp s dest src.val a b c d w) (instant_core _ hup) (by
      unfold gangHelloOp
      exact gangRx_off hen)
  · exact hframe (f := fun s => keyfwdOp s dest src.val a b c d tk) (instant_core _ hup) (gangRx_off hen)
  · exact hframe (f := gangDropOp) (instant_core _ hup) (if_neg hoff)
  · exact hop (f := busStuckOp) (instant_core _ hup) (if_neg hoff)
  · exact hop (f := statePeriodOp) (instant_core _ hup) (if_neg hoff)
  · exact hop (f := helloPeriodOp) (instant_core _ hup) (if_neg hoff)
  · exact hop (f := timePeriodOp) (instant_core _ hup) (if_neg fun h => hoff h.1)

/-- Settles O59: a frame is heard, acts where it names this member, and ends at a boundary. -/
theorem gangFramesReceivedAreActedOn : Obligations.GangFramesReceivedAreActedOn := by
  intro s hup hmems hdue hidle self g
  refine ⟨fun hen dest src a b c d _ w tk k => gangOff_ignores hup hen hdue (hidle hen) dest src a b c d w tk k, fun hen => ?_⟩
  exact ⟨gangFrameDropped_counts hup hen hdue, fun dest src a b c d _ w tk k => gangFrame_ends hup hen hmems hdue dest src a b c d w tk k,
    fun _ _ num vote flags hsrc hpresent => gangState_recorded hup hen hmems hdue num vote flags hsrc hpresent,
    fun _ _ rpg hsrc hpresent => gangRpg_recorded hup hen hmems hdue rpg hsrc hpresent,
    fun _ _ ticks since hsrc => gangTime_steps hup hen hmems hdue ticks since hsrc,
    fun _ _ devHi devLo format members digest hsrc hdest => gangHello_compared hup hen hmems hdue devHi devLo format members digest hsrc hdest,
    fun _ _ group typ subject flags tk hsrc hdest hpresent hgroup =>
      keyfwd_posted hup hen hmems hdue group typ subject flags tk hsrc hdest hpresent hgroup,
    fun dest => gangCapo_triggers hup hen hdue dest⟩

end Sys2Proof.Machine
end

section
/-! PROOFS. Chapter 15: frames sent on the gang link (15 R409, R411-R415, R422, R425, R426). -/

set_option Elab.async false

namespace Sys2Proof.Machine

variable {s t x y : State} {typ : Nat}

/-- A quiet instant leaves the gang link. -/
theorem Quiet.gng_settle {u : State} (hq : Quiet u) : (settle u).core.gng = u.core.gng := (hq.keeps_settle .gng).resolve_left (by decide)

/-- A change of the link alone that leaves the vote as announced keeps the instant quiet. -/
theorem Settled.quiet_modG (hs : Settled s) {f : GngSt → GngSt} (hvote : (f s.core.gng).lastVote = effVote (modG s f))
    (hrpg : (f s.core.gng).lastRpg = s.core.gng.lastRpg) : Quiet (modG s f) :=
  ⟨hs.quiet.trig, hvote, hrpg.trans hs.quiet.rpg, hs.quiet.devrst⟩

/-- What goes on the bus, once it has won: the frame's own effect, before its boundary. -/
def frameSent (s : State) (typ : Nat) : State :=
  let u := modG s (fun g => { g with tx := (g.tx + 1) % 65536, sent := gangFrame s typ })
  match typ with
  | 1 => modG u (fun g => { g with pendCapo := false })
  | 2 => gangJudge (modMem (modG u (fun g => { g with pendState := false, seq := g.seq + 1 })) (selfId u)
      (fun q => { q with vote := effVote s, rpg := s.core.seq.rpgOut, stateAt := some (now u) }))
  | 3 => modG u (fun g => { g with pendRpg := false })
  | 4 => modG u (fun g => { g with pendTime := false })
  | 5 => gangJudge (selfHello (modG u (fun g => { g with pendHello := false, owed := false })))
  | _ => modG u (fun g => { g with fwd := g.fwd.drop 1 })

theorem goes_frameSent : Goes gangPieces s (frameSent s typ) := by
  unfold frameSent
  extract_lets u
  have hu : Goes gangPieces s u := (Goes.refl _ s).modG (by decide)
  split
  · exact hu.modG (by decide)
  · exact ((hu.modG (by decide)).modMem (by decide)).gangJudge (by decide) (by decide)
  · exact hu.modG (by decide)
  · exact hu.modG (by decide)
  · exact ((hu.modG (by decide)).selfHello (by decide) (by decide)).gangJudge (by decide) (by decide)
  · exact hu.modG (by decide)

/-- The own HELLO changes what the own status rests on, the keystone and what it owes. -/
theorem selfHello_gng (s : State) : ∃ k b, (selfHello s).core.gng = { s.core.gng with selfOn := true, keystone := k, pendTime := b } := by
  unfold selfHello
  dsimp only
  split
  · exact ⟨s.core.gng.keystone, s.core.gng.pendTime, rfl⟩
  · exact ⟨_, _, rfl⟩

/-- Every frame sent counts, with its bytes, and leaves the events of KEY. -/
theorem frameSent_counts (s : State) (typ : Nat) : (frameSent s typ).core.gng.tx = (s.core.gng.tx + 1) % 65536 ∧
    (frameSent s typ).core.gng.sent = gangFrame s typ := by
  unfold frameSent
  extract_lets u
  have hu : u.core.gng.tx = (s.core.gng.tx + 1) % 65536 ∧ u.core.gng.sent = gangFrame s typ := ⟨rfl, rfl⟩
  split
  · exact hu
  · obtain ⟨f, n, hg⟩ := gangJudge_gng (modMem (modG u (fun g => { g with pendState := false, seq := g.seq + 1 })) (selfId u)
      (fun q => { q with vote := effVote s, rpg := s.core.seq.rpgOut, stateAt := some (now u) }))
    rw [hg]
    exact hu
  · exact hu
  · exact hu
  · obtain ⟨f, n, hg⟩ := gangJudge_gng (selfHello (modG u (fun g => { g with pendHello := false, owed := false })))
    obtain ⟨k, b, hh⟩ := selfHello_gng (modG u (fun g => { g with pendHello := false, owed := false }))
    rw [hg, hh]
    exact hu
  · exact hu

/-- A frame that wins goes out, and ends at a boundary, where no course is taken up. -/
theorem gangSent_wins (hnext : gangNext s = some typ) (hbusy : s.core.gng.busy = false) (hdue : courseDue s 7 = false) :
    gangSent s true = gangPass (frameSent s typ) := by
  have hsent : gangTransmitOp s true = gangPass (frameSent s typ) := by
    simp only [gangTransmitOp, hnext, hbusy, Bool.false_eq_true, if_false, Bool.not_true]
    rfl
  have hstill : courseDue (gangPass (frameSent s typ)) 7 = false :=
    ((goes_frameSent.mono (by decide)).trans goes_gangPass |>.courseDue_same (by decide) 7).trans hdue
  unfold gangSent gngCourse takeUp
  rw [hsent, if_neg (show ¬(courseDue (gangPass (frameSent s typ)) 7 = true) by simp [hstill]), ite_self]

theorem gngEn_frameSent (hen : gngEn s = true) : gngEn (frameSent s typ) = true := (goes_frameSent.gngEn_same (by decide) (by decide)).trans hen

/-- Nothing is sent with nothing pending, or while another member's frame is on the bus. -/
theorem gangSent_none (h : gngEn s = false ∨ gangNext s = none ∨ s.core.gng.busy = true) (hdue : courseDue s 7 = false) (wins : Bool) :
    gangSent s wins = s := by
  have hcourse : gngCourse s = s := by
    unfold gngCourse takeUp
    rw [if_neg (show ¬(courseDue s 7 = true) by simp [hdue]), ite_self]
  have hnone : gangTransmitOp s wins = s := by
    unfold gangTransmitOp
    split
    · rfl
    next typ hnext =>
      rcases h with h | h | h
      · rw [gangNext, h] at hnext
        cases hnext
      · rw [h] at hnext
        cases hnext
      · rw [if_pos h]
  rw [gangSent, hnone, hcourse]

/-- A frame that loses stays pending, with the winner's frame on the bus. -/
theorem gangSent_loses (hnext : gangNext s ≠ none) (hbusy : s.core.gng.busy = false) :
    gangSent s false = modG s fun g => { g with arbLoss := sat 255 (g.arbLoss + 1), busy := true } := by
  obtain ⟨typ, htyp⟩ := Option.ne_none_iff_exists'.mp hnext
  have hlost : gangTransmitOp s false = modG s fun g => { g with arbLoss := sat 255 (g.arbLoss + 1), busy := true } := by
    simp only [gangTransmitOp, htyp, hbusy, Bool.false_eq_true, if_false, Bool.not_false, if_true]
  rw [gangSent, hlost]
  rfl

theorem gangNext_capo (hen : gngEn s = true) (h : s.core.gng.pendCapo = true) : gangNext s = some 1 := by
  simp [gangNext, hen, h]

theorem gangNext_hello (hen : gngEn s = true) (hcapo : s.core.gng.pendCapo = false)
    (h : s.core.gng.owed = true ∨ (s.core.gng.pendState = false ∧ s.core.gng.pendRpg = false ∧
      (s.core.gng.pendTime = false ∨ s.core.gng.keystone ≠ some (selfId s)) ∧ s.core.gng.pendHello = true)) : gangNext s = some 5 := by
  rcases h with h | ⟨hstate, hrpg, htime | htime, hhello⟩
  · simp [gangNext, hen, hcapo, h]
  · simp [gangNext, hen, hcapo, hstate, hrpg, htime, hhello]
  · simp [gangNext, hen, hcapo, hstate, hrpg, htime, hhello]

theorem gangNext_state (hen : gngEn s = true) (hcapo : s.core.gng.pendCapo = false) (howed : s.core.gng.owed = false)
    (h : s.core.gng.pendState = true) : gangNext s = some 2 := by
  simp [gangNext, hen, hcapo, howed, h]

theorem gangNext_rpg (hen : gngEn s = true) (hcapo : s.core.gng.pendCapo = false) (howed : s.core.gng.owed = false)
    (hstate : s.core.gng.pendState = false) (h : s.core.gng.pendRpg = true) : gangNext s = some 3 := by
  simp [gangNext, hen, hcapo, howed, hstate, h]

theorem gangNext_time (hen : gngEn s = true) (hcapo : s.core.gng.pendCapo = false) (howed : s.core.gng.owed = false)
    (hstate : s.core.gng.pendState = false) (hrpg : s.core.gng.pendRpg = false) (h : s.core.gng.pendTime = true)
    (hkey : s.core.gng.keystone = some (selfId s)) : gangNext s = some 4 := by
  simp [gangNext, hen, hcapo, howed, hstate, hrpg, h, hkey]

/-- Events are queued whatever else of the link has changed. -/
theorem foldl_fwdTake_comm {h : GngSt → GngSt} (hcomm : ∀ g e, fwdTake (h g) e = h (fwdTake g e)) (l : List (Nat × Nat × Nat × Nat × Nat)) :
    ∀ g, l.foldl fwdTake (h g) = h (l.foldl fwdTake g) := by
  induction l with
  | nil => exact fun _ => rfl
  | cons e l ih => exact fun g => by rw [List.foldl_cons, hcomm, ih, List.foldl_cons]

/-- The effective vote is of the registers, the straps and the link. -/
theorem effVote_linked {ps : List Piece} (h : Goes ps x y) (hregs : .regs ∉ ps) (hparity : .parity ∉ ps) (hhold : .hold ∉ ps) {g : GngSt}
    (hg : y.core.gng = g) : effVote y = effVote (modG x fun _ => g) :=
  effVote_congr (h.used_same hregs hparity _) (h.used_same hregs hparity _) hg (congrArg (fun e => e.straps) (h.same .hold hhold))

/-- A CAPO sent. -/
theorem gangSent_capo (hen : gngEn s = true) (hs : Settled s) (hdue : courseDue s 7 = false) (hbusy : s.core.gng.busy = false)
    (hcapo : s.core.gng.pendCapo = true) :
    (settle (gangSent s true)).core.gng = { s.core.key.fwdDue.foldl fwdTake s.core.gng with
      pendCapo := false, tx := (s.core.gng.tx + 1) % 65536, sent := [0x1F, 0x00, 0x0E, 0x42] } := by
  have hbytes : gangFrame s 1 = [0x1F, 0x00, 0x0E, 0x42] := by
    show gangFrame {} 1 = _
    decide +kernel
  rw [gangSent_wins (gangNext_capo hen hcapo) hbusy hdue]
  have hgoes : Goes (.key :: gangPieces) s (gangPass (frameSent s 1)) := (goes_frameSent.mono (by decide)).trans goes_gangPass
  have hpass : (gangPass (frameSent s 1)).core.gng = s.core.key.fwdDue.foldl fwdTake { s.core.gng with
      busy := false, pendCapo := false, tx := (s.core.gng.tx + 1) % 65536, sent := gangFrame s 1 } := (gangPass_on (gngEn_frameSent (typ := 1) hen)).1
  have hfold := foldl_fwdTake_comm (h := fun g => { g with busy := false, pendCapo := false, tx := (s.core.gng.tx + 1) % 65536, sent := gangFrame s 1 })
    (fun g e => by unfold fwdTake; split <;> rfl) s.core.key.fwdDue s.core.gng
  obtain ⟨fw, dr, hplain, -⟩ := foldl_fwdTake s.core.key.fwdDue s.core.gng
  rw [hfold, hplain, hbytes] at hpass
  rw [hplain]
  have hquiet : Quiet (gangPass (frameSent s 1)) := by
    refine ⟨(congrArg CapoSt.trig (hgoes.same .capo (by decide))).trans hs.quiet.trig, ?_, ?_, (hgoes.devrst_same (by decide)).trans hs.noDeviceReset⟩
    · rw [effVote_linked hgoes (by decide) (by decide) (by decide) hpass, hpass]
      exact hs.quiet.vote
    · rw [hpass, show (gangPass (frameSent s 1)).core.seq = s.core.seq from hgoes.same .seq (by decide)]
      exact hs.quiet.rpg
  rw [hquiet.gng_settle, hpass, hbusy]


/-- The bytes of a frame to every member. -/
theorem gangFrame_all (h : typ ≠ 6) : gangFrame s typ =
    (let body := BitVec.ofNat 8 (16 * typ + 15) :: BitVec.ofNat 8 (gangPayload s typ).length :: gangPayload s typ
     body ++ (leBytes 2 (crc16 body)).reverse) := by
  simp only [gangFrame, if_neg h, beBytesN]

/-- What is sent, and counted, whatever the frame. -/
theorem sent_counted (hen : gngEn s = true) (typ : Nat) :
    let t := settle (gangPass (frameSent s typ))
    t.core.gng.busy = false ∧ t.core.key.fwdDue = [] ∧ t.core.gng.tx = (s.core.gng.tx + 1) % 65536 ∧ t.core.gng.sent = gangFrame s typ := by
  intro t
  obtain ⟨fw, dr, a, b, c, d, e, hg, -⟩ := passed_gng (gngEn_frameSent (typ := typ) hen)
  obtain ⟨htx, hsent⟩ := frameSent_counts s typ
  refine ⟨by rw [hg], congrArg KeyBlk.fwdDue (gangPass_on (gngEn_frameSent (typ := typ) hen)).2, ?_, ?_⟩
  · rw [hg]
    exact htx
  · rw [hg]
    exact hsent

/-- Where a frame sent, its boundary and the end of the instant go. -/
theorem goes_sent : Goes (.key :: endPieces) s (settle (gangPass (frameSent s typ))) := (goes_frameSent.mono (by decide)).trans goes_passed

/-- A HELLO sent makes this member PRESENT to itself. -/
theorem sent_hello (hen : gngEn s = true) :
    let t := settle (gangPass (frameSent s 5))
    t.core.gng.owed = false ∧ t.core.gng.pendHello = false ∧ memStatus t (selfId s) = (if s.core.gng.dup.isSome then 3 else 1) ∧
      (s.core.gng.selfOn = false → s.core.gng.dup = none → ∀ q ∈ t.core.irq, bit q.pend 37 = true) := by
  intro t
  obtain ⟨fw, dr, a, b, c, d, e, hg, -⟩ := passed_gng (gngEn_frameSent (typ := 5) hen)
  let u := modG (modG s fun g => { g with tx := (g.tx + 1) % 65536, sent := gangFrame s 5 }) fun g => { g with pendHello := false, owed := false }
  obtain ⟨f, n, hjudge⟩ := gangJudge_gng (selfHello u)
  obtain ⟨k, o, hhello⟩ := selfHello_gng u
  have hz : (frameSent s 5).core.gng = { u.core.gng with selfOn := true, keystone := k, pendTime := o, formed := f, state := n } :=
    hjudge.trans (by rw [hhello])
  have hselfT : selfId t = selfId s := goes_sent.selfId_same (by decide)
  have henT : gngEn t = true := (goes_sent.gngEn_same (by decide) (by decide)).trans hen
  refine ⟨by rw [hg, hz]; rfl, by rw [hg, hz]; rfl, ?_, fun hoff hnodup => ?_⟩
  · rw [← hselfT, memStatus_self, henT, hg, hz]
    rfl
  · have hbefore : memStatus u (selfId u) = 0 := by
      rw [memStatus_self, show gngEn u = true from hen, show u.core.gng.dup = none from hnodup, show u.core.gng.selfOn = false from hoff]
      rfl
    have hafter : memStatus (modG u fun g => { g with selfOn := true }) (selfId u) = 1 := by
      refine (memStatus_self (s := modG u fun g => { g with selfOn := true })).trans ?_
      rw [show gngEn (modG u fun g => { g with selfOn := true }) = true from hen,
        show (modG u fun g => { g with selfOn := true }).core.gng.dup = none from hnodup]
      rfl
    have hraise : selfHello u = raiseAll (electKeystone (modG u fun g => { g with selfOn := true })) 37 := by
      refine if_neg fun h => ?_
      rw [hbefore] at h
      exact absurd (h.symm.trans hafter) (by decide)
    have hpend : ∀ q ∈ (selfHello u).core.irq, bit q.pend 37 = true := by
      rw [hraise]
      exact pend_raiseAll_all (by decide)
    have hgoes : Goes (.key :: endPieces) (selfHello u) t := (goes_gangJudge.mono (by decide)).trans goes_passed
    exact hgoes.pend_all (by decide) hpend

/-- A STATE sent has its sequence number. -/
theorem sent_state (hen : gngEn s = true) : (settle (gangPass (frameSent s 2))).core.gng.seq = s.core.gng.seq + 1 := by
  obtain ⟨fw, dr, a, b, c, d, e, hg, -⟩ := passed_gng (gngEn_frameSent (typ := 2) hen)
  let u := modG s fun g => { g with tx := (g.tx + 1) % 65536, sent := gangFrame s 2 }
  obtain ⟨f, n, hjudge⟩ := gangJudge_gng (modMem (modG u (fun g => { g with pendState := false, seq := g.seq + 1 })) (selfId u)
      (fun q => { q with vote := effVote s, rpg := s.core.seq.rpgOut, stateAt := some (now u) }))
  have hz : (frameSent s 2).core.gng.seq = s.core.gng.seq + 1 := congrArg GngSt.seq hjudge
  rw [hg]
  exact hz

/-- An RPG sent is pending no more. -/
theorem sent_rpg (hen : gngEn s = true) (hs : Settled s) : (settle (gangPass (frameSent s 3))).core.gng.pendRpg = false := by
  have hgoes : Goes (.key :: gangPieces) s (gangPass (frameSent s 3)) := (goes_frameSent.mono (by decide)).trans goes_gangPass
  have hseq : (gangPass (frameSent s 3)).core.seq = s.core.seq := hgoes.same .seq (by decide)
  obtain ⟨fw, dr, hfold, -⟩ := foldl_fwdTake (frameSent s 3).core.key.fwdDue { (frameSent s 3).core.gng with busy := false }
  have hpass := (gangPass_on (gngEn_frameSent (typ := 3) hen)).1.trans hfold
  have hlast : (gangPass (frameSent s 3)).core.gng.lastRpg = s.core.seq.rpgOut := by
    rw [hpass]
    exact hs.quiet.rpg
  have hpend : (gangPass (frameSent s 3)).core.gng.pendRpg = false := by
    rw [hpass]
    rfl
  show ((gangPass (frameSent s 3)).core.gng.pendRpg || (gngEn (gangPass (frameSent s 3)) &&
    ((gangPass (frameSent s 3)).core.gng.lastRpg != (gangPass (frameSent s 3)).core.seq.rpgOut))) = false
  rw [hpend, hlast, hseq]
  simp

/-- A TIME sent is pending no more. -/
theorem sent_time (hen : gngEn s = true) : (settle (gangPass (frameSent s 4))).core.gng.pendTime = false := by
  obtain ⟨fw, dr, a, b, c, d, e, hg, -⟩ := passed_gng (gngEn_frameSent (typ := 4) hen)
  rw [hg]
  rfl

/-- An event sent leaves the queue. -/
theorem sent_keyfwd (hen : gngEn s = true) (hnone : s.core.key.fwdDue = []) :
    (settle (gangPass (frameSent s 6))).core.gng.fwd = s.core.gng.fwd.drop 1 := by
  have hpass := (gangPass_on (gngEn_frameSent (typ := 6) hen)).1
  have hdue : (frameSent s 6).core.key.fwdDue = [] := hnone
  rw [hdue, List.foldl_nil] at hpass
  show (gangPass (frameSent s 6)).core.gng.fwd = _
  rw [hpass]
  rfl

/-- The payload of a forwarded event. -/
theorem gangFrame_keyfwd {e : Nat × Nat × Nat × Nat × Nat} (h : s.core.gng.fwd.head? = some e) : gangFrame s 6 =
    (let payload : List Byte := [BitVec.ofNat 8 (selfId s), BitVec.ofNat 8 e.1, BitVec.ofNat 8 e.2.1, BitVec.ofNat 8 e.2.2.1,
        BitVec.ofNat 8 e.2.2.2.1] ++ (leBytes 6 e.2.2.2.2).reverse
     let body := BitVec.ofNat 8 (16 * 6 + uf s 0x2400 16 4) :: BitVec.ofNat 8 payload.length :: payload
     body ++ (leBytes 2 (crc16 body)).reverse) := by
  obtain ⟨l, hl⟩ := List.head?_eq_some_iff.mp h
  have hpay : gangPayload s 6 = [BitVec.ofNat 8 (selfId s), BitVec.ofNat 8 e.1, BitVec.ofNat 8 e.2.1, BitVec.ofNat 8 e.2.2.1,
      BitVec.ofNat 8 e.2.2.2.1] ++ (leBytes 6 e.2.2.2.2).reverse := by
    simp only [gangPayload, hl, beBytesN]
  simp only [gangFrame, hpay, if_true, beBytesN]

end Sys2Proof.Machine
end

section
/-! PROOFS. Chapter 15: members lost, duplicates, and the vote that P0 writes (15 R416, R419-R421). -/

set_option Elab.async false

namespace Sys2Proof.Machine

variable {s t x y : State} {p : Part} {seq : Byte} {v : Word}

/-- A gang in which a member of MEMBERS is LOST does not run (15 R419). -/
theorem gangJudged_lost (hlost : anyLost s = true) : gangJudged s ≠ 3 := by
  unfold gangJudged
  split
  · decide
  · split
    · decide
    · extract_lets others votes
      split
      · decide
      · rw [if_pos (by rw [hlost, Bool.or_true, Bool.true_or])]
        decide

theorem anyLost_formed (s : State) : anyLost (modG s fun g => { g with formed := true }) = anyLost s := by
  have hmem : memStatus (modG s fun g => { g with formed := true }) = memStatus s := rfl
  have hids : gngMembers (modG s fun g => { g with formed := true }) = gngMembers s := rfl
  unfold anyLost gangIds
  rw [hmem, hids]

theorem gangJudge_lost (hlost : anyLost s = true) : (gangJudge s).core.gng.state ≠ 3 := by
  unfold gangJudge
  dsimp only
  generalize hu : (if (gngEn s && (gangIds s).all fun m => memStatus s m == 1) = true then modG s fun g => { g with formed := true } else s) = u
  have hlostU : anyLost u = true := by
    rw [← hu]
    split
    · exact (anyLost_formed s).trans hlost
    · exact hlost
  have hn : gangJudged u ≠ 3 := gangJudged_lost hlostU
  split
  next h => exact h ▸ hn
  next => exact hn

/-- A PRESENT member that is lost. -/
theorem memberLoss_lost (hup : coreUp s = true) (hen : gngEn s = true) (hmems : s.core.gng.mems.length = 4) (m : Fin 4)
    (hm : m.val ≠ selfId s) (hpresent : memStatus s m.val = 1) :
    ∃ t, exec (.memberLoss m) s = .next t ∧ memStatus t m.val = 2 ∧
      t.core.gng.losses = sat 255 (s.core.gng.losses + 1) ∧ (∀ q ∈ t.core.irq, bit q.pend 37 = true) ∧
      ((gngMembers s).testBit m.val = true → t.core.gng.state ≠ 3) := by
  have hop : memberLossOp s m.val = gangJudge (modG (setMemStatus s m.val 2) fun g => { g with losses := sat 255 (g.losses + 1) }) :=
    if_pos ⟨hen, hm, hpresent⟩
  have hexec : exec (.memberLoss m) s = .next (settle (memberLossOp s m.val)) := instant_core _ hup
  refine ⟨_, hexec, ?_⟩
  rw [hop]
  have hne : (nth s.core.gng.mems m.val {}).status ≠ 2 := by
    rw [← memStatus_other hm, hpresent]
    decide
  obtain ⟨k, b, hg⟩ := setMemStatus_gng hne
  have hpend := pend_setMemStatus hne
  have hgoes := goes_setMemStatus (s := s) (m := m.val) (st := 2)
  generalize setMemStatus s m.val 2 = u at *
  have hgoesL : Goes gangPieces s (modG u fun g => { g with losses := sat 255 (g.losses + 1) }) := hgoes.modG (by decide)
  obtain ⟨f, n, hjudge⟩ := gangJudge_gng (modG u fun g => { g with losses := sat 255 (g.losses + 1) })
  obtain ⟨a, c, d, e, h, hsettle⟩ := settle_gng (gangJudge (modG u fun g => { g with losses := sat 255 (g.losses + 1) }))
  have hgoesT : Goes endPieces u (settle (gangJudge (modG u fun g => { g with losses := sat 255 (g.losses + 1) }))) :=
    ((((Goes.refl gangPieces u).modG (by decide)).gangJudge (by decide) (by decide)).mono (by decide)).settle (by decide)
  have hselfT := (hgoesT.selfId_same (by decide)).trans (hgoes.selfId_same (by decide))
  have hstatus : (nth u.core.gng.mems m.val {}).status = 2 := by
    rw [hg]
    exact congrArg MemSt.status (nth_upd_same _ _ _ _ (by rw [hmems]; exact m.isLt))
  refine ⟨?_, ?_, hgoesT.pend_all (by decide) hpend, fun hmember => ?_⟩
  · rw [memStatus_other (hselfT.symm ▸ hm), hsettle, hjudge]
    exact hstatus
  · rw [hsettle, hjudge]
    show sat 255 (u.core.gng.losses + 1) = _
    rw [hg]
  · rw [hsettle]
    refine gangJudge_lost ?_
    rw [anyLost, List.any_eq_true]
    refine ⟨m.val, ?_, ?_⟩
    · rw [gangIds, List.mem_filter]
      exact ⟨List.mem_range.mpr m.isLt, by rw [hgoesL.gngMembers_same (by decide) (by decide)]; exact hmember⟩
    · rw [memStatus_other (by rw [hgoesL.selfId_same (by decide)]; exact hm)]
      exact beq_iff_eq.mpr hstatus

/-- A member that is not PRESENT, or not another one, is not lost. -/
theorem memberLoss_none (hup : coreUp s = true) (m : Fin 4) (h : gngEn s = false ∨ m.val = selfId s ∨ memStatus s m.val ≠ 1) :
    exec (.memberLoss m) s = .next (settle s) := by
  have hop : memberLossOp s m.val = s := if_neg fun ⟨hen, hm, hpresent⟩ => by
    rcases h with h | h | h
    · exact absurd (hen.symm.trans h) (by decide)
    · exact hm h
    · exact h hpresent
  exact (instant_core _ hup).trans (congrArg (fun x => Host.Outcome.next (settle x)) hop)

/-- A duplicate clears. -/
theorem duplicateClear_clears (hup : coreUp s = true) :
    (s.core.gng.dup = none → exec .duplicateClear s = .next (settle s)) ∧
    (s.core.gng.dup ≠ none → ∃ t, exec .duplicateClear s = .next t ∧ t.core.gng.dup = none ∧
      (s.core.gng.mmField = 5 → t.core.gng.mmField = 0)) := by
  have hexec : exec .duplicateClear s = .next (settle (dupClearOp s)) := instant_core _ hup
  refine ⟨fun hnone => ?_, fun hsome => ⟨_, hexec, ?_⟩⟩
  · rw [hexec, dupClearOp, if_neg (by simp [hnone])]
  · rw [dupClearOp, if_pos (Option.isSome_iff_ne_none.mpr hsome)]
    extract_lets u w z
    have hw : w.core.gng.dup = none ∧ (s.core.gng.mmField = 5 → w.core.gng.mmField = 0) := by
      show (if u.core.gng.mmField = 5 then setMismatch u u.core.gng.mmMember 0 else u).core.gng.dup = none ∧
        (s.core.gng.mmField = 5 → (if u.core.gng.mmField = 5 then setMismatch u u.core.gng.mmMember 0 else u).core.gng.mmField = 0)
      split
      next h =>
        rw [setMismatch_gng]
        exact ⟨rfl, fun _ => rfl⟩
      next h => exact ⟨rfl, fun h5 => absurd h5 h⟩
    have hz : (if memStatus z (selfId z) = 1 then raiseAll z 37 else z).core.gng = z.core.gng := by split <;> rfl
    obtain ⟨f, n, hjudge⟩ := gangJudge_gng (if memStatus z (selfId z) = 1 then raiseAll z 37 else z)
    obtain ⟨a, c, d, e, h, hsettle⟩ := settle_gng (gangJudge (if memStatus z (selfId z) = 1 then raiseAll z 37 else z))
    rw [hsettle, hjudge, hz]
    exact hw

/-- The vote that a frame's word names is one of HOLD, RUN and SAFE (15 Table 15-4). -/
abbrev voteNamed (v : Word) : Prop := fld v 0 3 = 2 ∨ fld v 0 3 = 3 ∨ fld v 0 3 = 4

/-- GNG_VOTE as a frame leaves it. -/
def voteWord (x : State) (v : Word) : Word := if voteNamed v then blend (rd x 0x2401) v 7 else rd x 0x2401

theorem bit_seven {i : Nat} (hi : i < 32) : bit (7 : Word) i = decide (i < 3) := by
  interval_cases i <;> rfl

/-- A field put back where it was written. -/
theorem blend_putBack (old v : Word) : blend old (putFld (blend old v 7) 0 3 (fld old 0 3)) 7 = old := by
  refine word_ext fun i hi => ?_
  rw [bit_blend _ _ _ hi, bit_seven hi]
  by_cases h : i < 3
  · rw [if_pos (by simpa using h), bit_putFld _ _ _ _ hi, if_pos (by omega), testBit_fld]
    simp [h]
  · rw [if_neg (by simpa using h)]

/-- What the write of GNG_VOTE does to the words of GNG (15 R420). -/
theorem writeRegs_vote (x : State) : writeRegs x 0 [(0x2401, v)] =
    (voteWritten x (putReg x 0x2401 (voteWord x v)), if voteNamed v then 0x00 else 0x01) := by
  have hreg : regAt 0x2401 = some { reset := 2, fs := [fRw 7] } := rfl
  have hord : ordinaryAddr 0x2401 := by unfold ordinaryAddr; decide
  have hlow : fld (blend (rd x 0x2401) v 7) 0 3 = fld v 0 3 := fld_blend (by decide) fun i h1 h2 => by interval_cases i <;> rfl
  have hrw : accMask { reset := 2, fs := [fRw 7] } (fun f => f.acc == .rw && (!f.lk || ((0 : Part).val == 0 && !locked x))) = 7 :=
    accMask_one rfl (by simp [fRw])
  have hkeep : accMask { reset := 2, fs := [fRw 7] } (fun f => f.acc == .ro || f.acc == .st || (f.lk && !((0 : Part).val == 0 && !locked x))) = 0 :=
    accMask_none (by simp [fRw])
  have hfix : fixWord x 0x2401 (rd x 0x2401) (blend (rd x 0x2401) v 7) =
      if voteNamed v then (blend (rd x 0x2401) v 7, false) else (putFld (blend (rd x 0x2401) v 7) 0 3 (fld (rd x 0x2401) 0 3), true) := by
    show keepIf (fld (blend (rd x 0x2401) v 7) 0 3 != 2 && fld (blend (rd x 0x2401) v 7) 0 3 != 3 && fld (blend (rd x 0x2401) v 7) 0 3 != 4) _ 0 3 _ = _
    rw [hlow, keepIf]
    by_cases h : voteNamed v
    · rw [if_pos h, if_neg]
      simp only [Bool.and_eq_true, bne_iff_ne, ne_eq]
      omega
    · rw [if_neg h, if_pos]
      simp only [voteNamed, not_or] at h
      simp [h]
  have hword : blend (rd x 0x2401) (if voteNamed v then (blend (rd x 0x2401) v 7, false) else
      (putFld (blend (rd x 0x2401) v 7) 0 3 (fld (rd x 0x2401) 0 3), true)).1 7 = voteWord x v := by
    unfold voteWord
    split
    · exact blend_blend _ _ _
    · exact blend_putBack _ _
  have hgoes : Goes gangPieces (putReg x 0x2401 (voteWord x v)) (voteWritten x (putReg x 0x2401 (voteWord x v))) :=
    (Goes.refl _ _).voteWritten (by decide) (by decide)
  have hseq : (voteWritten x (putReg x 0x2401 (voteWord x v))).core.seq = x.core.seq := hgoes.same .seq (by decide)
  rw [writeRegs_rwAct hreg hord (wordDenied_ordinary hreg hord (by simp [fRw, writerOf])) hrw (by decide) hkeep (accMask_none rfl) rfl rfl
    (by decide) (by decide) (by decide) (by decide) hfix (z := voteWritten x (putReg x 0x2401 (voteWord x v))) (by rw [hword]; rfl)
    (by rw [hseq]; exact Nat.le_succ _), nfcGoesOn_of_not rfl]
  by_cases h : voteNamed v <;> simp [h]

/-- What the write leaves of the registers. -/
theorem vote_stored {w : Word} (hwf : swf regReset x.core.regs = true) :
    rd (voteWritten x (putReg x 0x2401 w)) 0x2401 = w ∧ used (voteWritten x (putReg x 0x2401 w)) 0x2401 = w := by
  have hgoes : Goes gangPieces (putReg x 0x2401 w) (voteWritten x (putReg x 0x2401 w)) := (Goes.refl _ _).voteWritten (by decide) (by decide)
  have hrd : rd (putReg x 0x2401 w) 0x2401 = w := rd_setR_same _ _ _ hwf
  have hregs : (voteWritten x (putReg x 0x2401 w)).core.regs = (putReg x 0x2401 w).core.regs := hgoes.same .regs (by decide)
  refine ⟨(congrArg (fun m => sget regReset m 0x2401) hregs).trans hrd, ?_⟩
  rw [hgoes.used_same (by decide) (by decide), used, if_neg, hrd]
  simp [putReg, setR, modC]

/-- A vote that is kept leaves the words of GNG as they are used. -/
theorem used_keptVote (hunnamed : ¬voteNamed v) (hgood : badW x 0x2401 = false) (hwf : swf regReset x.core.regs = true) :
    used (putReg x 0x2401 (voteWord x v)) 0x2401 = used x 0x2401 ∧ used (putReg x 0x2401 (voteWord x v)) 0x2400 = used x 0x2400 := by
  have hword : voteWord x v = rd x 0x2401 := if_neg hunnamed
  have hfail : x.core.parity.elem 0x2401 = false := hgood
  refine ⟨used_congr ?_ ?_, used_congr (rd_setR_ne (modC x _) _ _ _ (by decide)) ?_⟩
  · exact (sget_sset regReset x.core.regs _ _ hwf).trans hword
  · show (x.core.parity.filter fun k => k != 0x2401).elem 0x2401 = _
    rw [hfail]
    simp
  · show (x.core.parity.filter fun k => k != 0x2401).elem 0x2400 = _
    rw [Bool.eq_iff_iff, List.elem_iff, List.elem_iff, List.mem_filter]
    exact ⟨fun h => h.1, fun h => ⟨h, by decide⟩⟩

theorem effVote_keptVote (hunnamed : ¬voteNamed v) (hgood : badW x 0x2401 = false) (hwf : swf regReset x.core.regs = true) :
    effVote (putReg x 0x2401 (voteWord x v)) = effVote x := by
  obtain ⟨hvote, hcfg⟩ := used_keptVote hunnamed hgood hwf
  exact effVote_congr hcfg hvote rfl rfl

/-- The vote that P0 writes (15 R420). -/
theorem gngVoteWrite_votes (hl : Listens s p) (hs : Settled s) :
    (p ≠ 0 → exec (.gngVoteWrite p seq v) s = .next (deniedAt s p seq 0x2401 1)) ∧
    (p = 0 → swf regReset s.core.regs = true →
      ∃ t, exec (.gngVoteWrite p seq v) s = .next t ∧
        (voteNamed v → ownVote t = fld v 0 3 ∧ (portOf t p).lastStatus = 0x00) ∧
        (fld v 0 3 ≠ 2 → fld v 0 3 ≠ 3 → fld v 0 3 ≠ 4 → rd t 0x2401 = rd s 0x2401 ∧ (portOf t p).lastStatus = 0x01 ∧
          (badW s 0x2401 = false → ownVote t = ownVote s ∧ t.core.gng = s.core.gng))) := by
  have hreg : regAt 0x2401 = some { reset := 2, fs := [fRw 7] } := rfl
  refine ⟨fun hp => instant_steward_denied hl hp hreg (by simp) (by simp [fRw]) (by decide), fun hp hwf => ?_⟩
  subst hp
  have hexec : exec (.gngVoteWrite 0 seq v) s = .next (framed s 0 seq 0x2401 1 (if voteNamed v then 0x00 else 0x01)
      fun x => voteWritten x (putReg x 0x2401 (voteWord x v))) :=
    instant_framed (f := fun x => voteWritten x (putReg x 0x2401 (voteWord x v))) hl seq (writeRegs_vote _)
  have hopen := PortOnly.frameOpen 0 s seq 1
  have hwfo : swf regReset (frameOpen s 0 seq 1).core.regs = true := (hopen.same fun x => swf regReset x.core.regs) ▸ hwf
  have hgoes : Goes (.regs :: .parity :: gangPieces) (frameOpen s 0 seq 1)
      (voteWritten (frameOpen s 0 seq 1) (putReg (frameOpen s 0 seq 1) 0x2401 (voteWord (frameOpen s 0 seq 1) v))) :=
    ((((Goes.refl _ _).core_parity (by decide)).setR (by decide))).voteWritten (by decide) (by decide)
  have hlt : Listens (voteWritten (frameOpen s 0 seq 1) (putReg (frameOpen s 0 seq 1) 0x2401 (voteWord (frameOpen s 0 seq 1) v))) 0 :=
    hgoes.listens (by decide) ((hgoes.devrst_same (by decide)).trans (hopen.listens hl).noDeviceReset) (hopen.listens hl)
  have hframed := goes_framed (a := 0x2401) (code := if voteNamed v then 0x00 else 0x01) (seq := seq) (n := 1)
    (f := fun x => voteWritten x (putReg x 0x2401 (voteWord x v))) hlt
  have hstatus := lastStatus_framed (a := 0x2401) (code := if voteNamed v then 0x00 else 0x01) (seq := seq) (n := 1)
    (f := fun x => voteWritten x (putReg x 0x2401 (voteWord x v))) hlt
  have hword : voteWord (frameOpen s 0 seq 1) v = voteWord s v := by
    unfold voteWord
    rw [show rd (frameOpen s 0 seq 1) 0x2401 = rd s 0x2401 from hopen.same fun x => rd x 0x2401]
  obtain ⟨hrd, hused⟩ := vote_stored (x := frameOpen s 0 seq 1) (w := voteWord (frameOpen s 0 seq 1) v) hwfo
  have hrdT := (congrArg (fun m => sget regReset m 0x2401) (hframed.same .regs (by decide))).trans hrd
  have husedT := (hframed.used_same (by decide) (by decide) 0x2401).trans hused
  refine ⟨_, hexec, fun hnamed => ⟨?_, ?_⟩, fun h2 h3 h4 => ⟨?_, ?_, fun hgood => ⟨?_, ?_⟩⟩⟩
  · show fld (used _ 0x2401) 0 3 = _
    rw [husedT, hword, voteWord, if_pos hnamed]
    exact fld_blend (by decide) fun i h1 h2 => by interval_cases i <;> rfl
  · rw [if_pos hnamed] at hstatus ⊢
    exact hstatus
  · have hunnamed : ¬voteNamed v := by simp [voteNamed, h2, h3, h4]
    exact hrdT.trans (by rw [hword, voteWord, if_neg hunnamed])
  · have hunnamed : ¬voteNamed v := by simp [voteNamed, h2, h3, h4]
    rw [if_neg hunnamed] at hstatus ⊢
    exact hstatus
  · have hunnamed : ¬voteNamed v := by simp [voteNamed, h2, h3, h4]
    have hused : used s 0x2401 = rd s 0x2401 := if_neg (by rw [show s.core.parity.elem 0x2401 = false from hgood]; decide)
    exact congrArg (fld · 0 3) (husedT.trans (by rw [hword, voteWord, if_neg hunnamed, hused]))
  · have hunnamed : ¬voteNamed v := by simp [voteNamed, h2, h3, h4]
    have hgoodo : badW (frameOpen s 0 seq 1) 0x2401 = false := (hopen.same fun x => badW x 0x2401).trans hgood
    have heff := effVote_keptVote hunnamed hgoodo hwfo
    have hkept : voteWritten (frameOpen s 0 seq 1) (putReg (frameOpen s 0 seq 1) 0x2401 (voteWord (frameOpen s 0 seq 1) v)) =
        putReg (frameOpen s 0 seq 1) 0x2401 (voteWord (frameOpen s 0 seq 1) v) := if_pos heff.symm
    have hquieto := hopen.quiet hs.quiet
    have hquiet : Quiet (putReg (frameOpen s 0 seq 1) 0x2401 (voteWord (frameOpen s 0 seq 1) v)) :=
      ⟨hquieto.trig, hquieto.vote.trans heff.symm, hquieto.rpg, hquieto.devrst⟩
    have hput : Goes [.regs, .parity] (frameOpen s 0 seq 1) (putReg (frameOpen s 0 seq 1) 0x2401 (voteWord (frameOpen s 0 seq 1) v)) :=
      ((Goes.refl _ _).core_parity (by decide)).setR (by decide)
    have hkeeps := keepsPort_framed (a := 0x2401) (code := if voteNamed v then 0x00 else 0x01) (seq := seq) (n := 1) (ps := [.regs, .parity])
      (but := [.regs, .parity, .irqPend]) (f := fun x => voteWritten x (putReg x 0x2401 (voteWord x v))) hs hlt (hkept.symm ▸ hput) (hkept.symm ▸ hquiet)
      (by rw [hkept]; rfl) (by rw [hkept]; rfl) (by decide) (.inr (by decide))
    exact (hkeeps.1 .gng).resolve_left (by decide)

/-- Settles O60: a pending frame that wins goes out whole, a lost member and a duplicate are noted, and P0 votes. -/
theorem gangFramesSentAndMembersLost : Obligations.GangFramesSentAndMembersLost := by
  intro s hup hmems hdue hs g fwd self frame hello
  obtain ⟨hclear, hcleared⟩ := duplicateClear_clears hup
  have hwins {typ : Nat} (hnext : gangNext s = some typ) (hbusy : g.busy = false) :
      exec (.gangFrameTransmit true) s = .next (settle (gangPass (frameSent s typ))) :=
    (instant_core _ hup).trans (congrArg (fun x => Host.Outcome.next (settle x)) (gangSent_wins hnext hbusy hdue))
  have hperiod {f : State → State} {i : Instr} {u : State} (hexec : exec i s = .next (settle (f s))) (hf : f s = u) (hq : Quiet u) :
      ∃ t, exec i s = .next t ∧ t.core.gng = u.core.gng := ⟨_, hexec, by rw [hf]; exact hq.gng_settle⟩
  refine ⟨fun hen => ⟨?_, ?_, ?_, ?_, fun hnext hbusy => ?_, fun hbusy hnext => ?_, fun m hm hpresent => memberLoss_lost hup hen hmems m hm hpresent⟩,
    fun hno wins => (instant_core _ hup).trans (congrArg (fun x => Host.Outcome.next (settle x)) (gangSent_none hno hdue wins)),
    fun m hno => memberLoss_none hup m hno, hclear, hcleared, fun p seq v hl => gngVoteWrite_votes hl hs⟩
  · exact hperiod (i := .statePeriod) (f := statePeriodOp) (instant_core _ hup) (if_pos hen) (hs.quiet_modG hs.quiet.vote rfl)
  · exact hperiod (i := .helloPeriod) (f := helloPeriodOp) (instant_core _ hup) (if_pos hen) (hs.quiet_modG hs.quiet.vote rfl)
  · by_cases hkey : g.keystone = some (selfId s)
    · have hop : timePeriodOp s = modG s fun g => { g with pendTime := true } := if_pos ⟨hen, hkey⟩
      obtain ⟨t, hexec, hg⟩ := hperiod (i := .timePeriod) (f := timePeriodOp) (instant_core _ hup) hop (hs.quiet_modG hs.quiet.vote rfl)
      have htrue : (g.pendTime || g.keystone == some (selfId s)) = true := by simp [hkey]
      exact ⟨t, hexec, by rw [htrue]; exact hg⟩
    · have hop : timePeriodOp s = s := if_neg fun h => hkey h.2
      obtain ⟨t, hexec, hg⟩ := hperiod (i := .timePeriod) (f := timePeriodOp) (instant_core _ hup) hop hs.quiet
      have hfalse : (g.pendTime || g.keystone == some (selfId s)) = g.pendTime := by simp [hkey]
      exact ⟨t, hexec, by rw [hfalse]; exact hg⟩
  · exact hperiod (i := .busStuck) (f := busStuckOp) (instant_core _ hup) (if_pos hen) (hs.quiet_modG hs.quiet.vote rfl)
  · exact hperiod (i := .gangFrameTransmit false) (f := fun s => gangSent s false) (instant_core _ hup) (gangSent_loses hnext hbusy) (hs.quiet_modG hs.quiet.vote rfl)
  · obtain ⟨typ, htyp⟩ := Option.ne_none_iff_exists'.mp hnext
    obtain ⟨hidle, hdone, htx, hsent⟩ := sent_counted hen typ
    have hpick {k : Nat} (hk : gangNext s = some k) : typ = k := Option.some.inj (htyp.symm.trans hk)
    refine ⟨_, hwins htyp hbusy, fun hcapo => ?_, hidle, hdone, htx, fun hcapo hhello => ?_, fun hcapo howed hstate => ?_,
      fun hcapo howed hstate hrpg => ?_, fun hcapo howed hstate hrpg htime hkey => ?_, fun hnext6 e he => ?_⟩
    · have hfwd : fwd = s.core.key.fwdDue.foldl fwdTake g := if_pos hen
      rw [hfwd, ← gangSent_capo hen hs hdue hbusy hcapo, gangSent_wins htyp hbusy hdue]
    · obtain rfl := hpick (gangNext_hello hen hcapo hhello)
      obtain ⟨howed, hpend, hstatus, hraised⟩ := sent_hello hen
      exact ⟨howed, hpend, hsent.trans (gangFrame_all (by decide)), hstatus, hraised⟩
    · obtain rfl := hpick (gangNext_state hen hcapo howed hstate)
      exact ⟨sent_state hen, hsent.trans (gangFrame_all (by decide))⟩
    · obtain rfl := hpick (gangNext_rpg hen hcapo howed hstate hrpg)
      exact ⟨sent_rpg hen hs, hsent.trans (gangFrame_all (by decide))⟩
    · obtain rfl := hpick (gangNext_time hen hcapo howed hstate hrpg htime hkey)
      exact ⟨sent_time hen, hsent.trans (gangFrame_all (by decide))⟩
    · obtain rfl := hpick hnext6
      exact ⟨hsent.trans (gangFrame_keyfwd he), sent_keyfwd hen⟩

end Sys2Proof.Machine
end

section
/-! PROOFS. Chapter 13: a submission through a window that holds fewer than the eight words of a descriptor. -/

set_option Elab.async false

namespace Sys2Proof.Machine

/-- The submission window of partition 0 holds no descriptor words, which the premises of O54 do not exclude. -/
def windowWithoutWords : State := modWin State.reset 0 fun w => { w with subW := [] }

theorem windowWithoutWords_listens : Listens windowWithoutWords 0 := by
  unfold Listens
  decide +kernel

/-- A descriptor of eight words. -/
def emptyDescriptor : Desc := { ws := List.replicate 8 0 }

/-- How many words the window of partition 0 holds after a command. -/
def windowWords : Host.Outcome State Fault Refusal → Nat
  | .next t => (nth t.core.nfc.wins 0 {}).subW.length
  | _ => 0

/-- The words of the frame find no place in the window. -/
theorem windowWords_submitted : windowWords (exec (.nandRead 0 0 emptyDescriptor) windowWithoutWords) = 0 := by decide +kernel

/-- Refutes O54: it says that the window holds the eight words of the descriptor after every submission, which fails where the
window had no place for them: the number of its words is not among the premises. -/
theorem not_nandSubmissionsAreJudged : ¬ Obligations.NandSubmissionsAreJudged := by
  unfold Obligations.NandSubmissionsAreJudged
  intro h
  obtain ⟨t, hexec, -, -, -, -, hwords, -⟩ := h windowWithoutWords 0 0 emptyDescriptor windowWithoutWords_listens (by decide +kernel)
    (by decide) _ List.mem_cons_self
  have hcount : windowWords (exec (.nandRead 0 0 emptyDescriptor) windowWithoutWords) = 8 := by
    rw [hexec]
    exact congrArg List.length hwords
  exact absurd (windowWords_submitted.symm.trans hcount) (by decide)

end Sys2Proof.Machine
end

section
/-! PROOFS. Chapter 13: the release of a VERIFY whose descriptor names another LUN than the one that runs it. -/

set_option Elab.async false

namespace Sys2Proof.Machine

/-- A VERIFY of namespace 0 whose descriptor names LUN 1. -/
def verifyOfLunOne : Flight := { num := 0, issuer := 0, desc := [5, 0, 0, 0, 0, 1] }

/-- LUN 0 at the release point of that VERIFY, with another margin entry in force for namespace 0 than the block has. -/
def verifyElsewhere : State := modN State.reset fun n => { n with
  flight := [verifyOfLunOne]
  luns := upd n.luns 0 fun x => { x with
    cur := some { members := [0], op := 5, stage := .last }
    diffs := [(0x1812, 5 <<< 19)] } }

/-- STEP of the record in the first place of the ring of partition 0. -/
def firstRecordStep : Host.Outcome State Fault Refusal → Byte
  | .next t => nth (bufBytes t 0x084000 16) 6 0
  | _ => 0

/-- The record tells of the entry of the LUN that ran the read. -/
theorem firstRecordStep_released : firstRecordStep (exec (.nandRelease 0 {}) verifyElsewhere) = 5 := by decide +kernel

/-- Refutes O56: it reads the margin entry of a VERIFY in the words of the LUN that the descriptor names, the model in those of the
LUN that runs it, and nothing in the premises of that clause makes the two the same. -/
theorem not_nandOperationsEndOnTheirLun : ¬ Obligations.NandOperationsEndOnTheirLun := by
  unfold Obligations.NandOperationsEndOnTheirLun
  intro h
  obtain ⟨hrelease, -⟩ := h verifyElsewhere 0 (by decide +kernel) (by decide +kernel) (by decide +kernel) (by decide +kernel)
    (by decide +kernel) (by decide +kernel) (by decide +kernel)
  obtain ⟨-, hsingle, -⟩ := hrelease {} rfl
  have hlast := (hsingle { members := [0], op := 5, stage := .last } (by decide +kernel) 0 rfl rfl verifyOfLunOne (by decide +kernel) rfl rfl rfl
    (by decide +kernel) (by decide +kernel) (by decide +kernel) (by decide +kernel) (by decide +kernel)).1 rfl
  obtain ⟨-, -, -, hverify, -⟩ := hlast
  obtain ⟨t, hexec, -, -, ⟨-, -, -, hrecord⟩, -⟩ := hverify rfl
  have hstep : firstRecordStep (exec (.nandRelease 0 {}) verifyElsewhere) = 0 := by
    rw [hexec]
    exact (congrArg (nth · 6 0) hrecord).trans (by decide +kernel)
  exact absurd (firstRecordStep_released.symm.trans hstep) (by decide)

end Sys2Proof.Machine
end

section
/-! PROOFS. Chapter 07: a temperature sample and the aggregation groups (07 R190-R195). -/

set_option Elab.async false

namespace Sys2Proof.Machine

variable {s u : State}

/-- What the end of an instant changes where no DOZE ends. -/
theorem keeps_settle_awake (hdoze : u.core.pwr.doze = true → workPresent u = false) :
    Keeps [.capo, .gng, .ports, .irqPend, .irqRound] u (settle u) := fun k => by
  rcases eq_or_ne k .doze with rfl | hne
  · refine .inr ?_
    show (u.core.pwr.doze && !workPresent u) = u.core.pwr.doze
    cases h : u.core.pwr.doze with
    | false => rfl
    | true => rw [hdoze h]; rfl
  · refine (((Goes.refl endPieces u).settle (List.Subset.refl _)).keeps k).imp_left fun hk => ?_
    simp only [endPieces, List.mem_cons, List.not_mem_nil, or_false] at hk ⊢
    tauto

/-- An operation that touches none of the work ends no DOZE. -/
theorem Goes.noWork_in_doze {ps : List Piece} {t : State} (h : Goes ps s t) (hs : Settled s)
    (hps : ∀ k ∈ [Piece.nfc, .efl, .cvu, .epd, .doze], k ∉ ps) : t.core.pwr.doze = true → workPresent t = false := fun hdoze => by
  have hwork : workPresent t = workPresent s := by
    unfold workPresent
    rw [h.same .nfc (hps _ (by decide)), h.same .efl (hps _ (by decide)), h.same .cvu (hps _ (by decide)), h.same .epd (hps _ (by decide))]
  rw [hwork]
  exact hs.2.2.1 ((h.same .doze (hps _ (by decide))).symm.trans hdoze)

theorem used_of_noParity (h : s.core.parity = []) (a : Nat) : used s a = rd s a := by
  rw [used, h]
  rfl

theorem uf_of_noParity (h : s.core.parity = []) (a lo n : Nat) : uf s a lo n = rf s a lo n := by
  rw [uf, used_of_noParity h]
  rfl

theorem badW_of_noParity (h : s.core.parity = []) (a : Nat) : badW s a = false := by
  rw [badW, h]
  rfl

theorem takeUp_of_notDue {b : Nat} (h : courseDue s b = false) : takeUp s b = s := by
  rw [takeUp, h]
  rfl

theorem thm_thmDeliver (s : State) (sens : List SenSt) : (thmDeliver s sens).core.thm =
    { s.core.thm with sens := sens, grps := s.core.thm.grps.zipIdx.map fun e => grpSample s sens e.2 e.1 } := by
  unfold thmDeliver
  extract_lets q grps lostMember entersInv entersHot y y1 y2
  have hgoes : Goes [.irqPend, .capo] y (whenS entersHot y2 fun s => raiseAll s 19) :=
    ((((Goes.refl _ y).whenS fun _ h => h.raiseAll (by decide)).whenS fun _ h => h.capoFault (by decide)).whenS fun _ h => h.raiseAll (by decide))
  exact hgoes.same .thm (by decide)

/-- The temperature that a sample shows. -/
def sampledTemp (s : State) (k code : Nat) (die : Int) : Int :=
  if k = 6 then clampI (-32768) 32767 die else curveTemp s (uf s (0xE20 + k) 1 1) code

theorem senSample_off (k : Nat) (q : SenSt) (code : Nat) (die : Int) (hoff : senOff s k = true) :
    (senSample s k q code die).valid = false ∧ (senSample s k q code die).reason = 6 := by
  unfold senSample
  simp [hoff]

theorem temp_senSample (k : Nat) (q : SenSt) (code : Nat) (die : Int) :
    (senSample s k q code die).temp = unsgn 16 (sampledTemp s k code die) := by
  unfold senSample sampledTemp
  extract_lets t shown lose why prev
  change _ = unsgn 16 t
  clear_value t
  split_ifs <;> rfl

theorem senSample_failing (k : Nat) (q : SenSt) (code : Nat) (die : Int) (hon : senOff s k = false)
    (hwhy : senTest s k q code (sampledTemp s k code die) ≠ 0) :
    (senSample s k q code die).valid = false ∧ (senSample s k q code die).reason = senTest s k q code (sampledTemp s k code die) := by
  unfold senSample
  unfold sampledTemp at hwhy ⊢
  simp [hon, hwhy]

theorem senSample_passing (k : Nat) (q : SenSt) (code : Nat) (die : Int) (hon : senOff s k = false)
    (hwhy : senTest s k q code (sampledTemp s k code die) = 0) :
    ((senSample s k q code die).reason = 0 → (senSample s k q code die).valid = true) ∧
    (q.valid = true ∨ q.everBad = false ∨ rf s (0xE20 + k) 4 4 ≤ q.goodRun + 1 → (senSample s k q code die).valid = true) := by
  unfold senSample
  unfold sampledTemp at hwhy
  extract_lets t shown lose why prev
  rw [if_neg (by simp [hon]), if_neg (by simp only [why, t]; simpa using hwhy)]
  split_ifs with h
  · exact ⟨fun _ => rfl, fun _ => rfl⟩
  · refine ⟨fun h5 => h5.elim, fun hgood => absurd ?_ h⟩
    simpa [or_assoc] using hgood

/-- The members of a group, and those whose temperature is valid. -/
def groupMembers (s : State) (g : Nat) : List Nat := (upto 8).filter fun k => (fld (rd s (0xE30 + g)) 0 8).testBit k

def validMembers (s : State) (sens : List SenSt) (g : Nat) : List Nat := (groupMembers s g).filter fun k => (nth sens k {}).valid

theorem mem_validMembers {sens : List SenSt} {g k : Nat} : k ∈ validMembers s sens g ↔
    k < 8 ∧ ((rf s (0xE30 + g) 0 8).testBit k && (nth sens k {}).valid) = true := by
  simp only [validMembers, groupMembers, upto, rf, List.mem_filter, List.mem_range, Bool.and_eq_true, and_assoc]

theorem groupMembers_eq_nil_iff {g : Nat} : groupMembers s g = [] ↔ rf s (0xE30 + g) 0 8 = 0 := by
  have hlt : rf s (0xE30 + g) 0 8 < 2 ^ 8 := Nat.mod_lt _ (by decide)
  rw [groupMembers, List.filter_eq_nil_iff]
  refine ⟨fun h => Nat.eq_of_testBit_eq fun i => ?_, fun h => ?_⟩
  · rw [Nat.zero_testBit]
    by_cases hi : i < 8
    · exact Bool.eq_false_iff.mpr (h i (List.mem_range.mpr hi))
    · exact Nat.testBit_lt_two_pow (lt_of_lt_of_le hlt (Nat.pow_le_pow_right (by decide) (Nat.le_of_not_lt hi)))
  · rw [show fld (rd s (0xE30 + g)) 0 8 = 0 from h]
    simp

/-- The group whose members are as listed, none of which is valid or of which the listed ones are (07 R194). -/
theorem grpSample_empty (sens : List SenSt) {g : Nat} (q : GrpSt) (hbad : badW s (0xE30 + g) = false) (hm : groupMembers s g = []) :
    grpSample s sens g q = {} := by
  unfold grpSample
  extract_lets cfg mem val
  have hmem : mem = [] := hm
  rw [hbad, if_neg (by decide), hmem]
  rfl

theorem grpSample_invalid (sens : List SenSt) {g : Nat} (q : GrpSt) (hbad : badW s (0xE30 + g) = false) (hm : groupMembers s g ≠ [])
    (hv : validMembers s sens g = []) : grpSample s sens g q = { state := 1 } := by
  unfold grpSample
  extract_lets cfg mem val
  have hmem : mem ≠ [] := hm
  rw [hbad, if_neg (by decide), if_neg (by simpa using hmem), show val = [] from hv]

/-- The member with the highest temperature, the lowest of those with it. -/
def warmest (tOf : Nat → Int) (k0 : Nat) (rest : List Nat) : Nat := rest.foldl (fun b k => if tOf b < tOf k then k else b) k0

theorem warmest_highest (tOf : Nat → Int) (rest : List Nat) : ∀ k0, warmest tOf k0 rest ∈ k0 :: rest ∧
    ∀ k ∈ k0 :: rest, tOf k ≤ tOf (warmest tOf k0 rest) := by
  induction rest with
  | nil => exact fun k0 => ⟨List.mem_cons_self, by simp [warmest]⟩
  | cons a rest ih =>
    intro k0
    obtain ⟨hmem, hmax⟩ := ih (if tOf k0 < tOf a then a else k0)
    rw [show warmest tOf k0 (a :: rest) = warmest tOf (if tOf k0 < tOf a then a else k0) rest from rfl]
    simp only [List.mem_cons, forall_eq_or_imp] at hmem hmax ⊢
    split_ifs at hmem hmax ⊢ with h
    · exact ⟨.inr hmem, h.le.trans hmax.1, hmax.1, hmax.2⟩
    · exact ⟨hmem.imp_right .inr, hmax.1, (not_lt.mp h).trans hmax.1, hmax.2⟩

theorem grpSample_valid (sens : List SenSt) {g k0 : Nat} {rest : List Nat} (q : GrpSt) (hbad : badW s (0xE30 + g) = false)
    (hv : validMembers s sens g = k0 :: rest) :
    let best := warmest (fun k => sgn 16 (nth sens k {}).temp) k0 rest
    let temp := sgn 16 (nth sens best {}).temp
    let lim := sgn 16 (rf s (0xE30 + g) 8 16)
    let hot := if q.state = 3 then decide (lim - (rf s (0xE30 + g) 24 8 : Nat) ≤ temp) else decide (lim ≤ temp)
    grpSample s sens g q = { state := if hot then 3 else 2, temp := temp, source := best, nValid := rest.length + 1 } := by
  have hm : groupMembers s g ≠ [] := fun h => by simp [validMembers, h] at hv
  intro best temp lim hot
  unfold grpSample
  extract_lets cfg mem val
  have hmem : mem ≠ [] := hm
  rw [hbad, if_neg (by decide), if_neg (by simpa using hmem), show val = k0 :: rest from hv]
  rfl

/-- The state and temperature of a group without failed words (07 R194). -/
theorem grpSample_judges (sens : List SenSt) (g : Nat) (q : GrpSt) (hbad : badW s (0xE30 + g) = false) :
    let member := fun (k : Nat) => (rf s (0xE30 + g) 0 8).testBit k
    let good := fun (k : Nat) => member k && (nth sens k {}).valid
    let tOf := fun (k : Nat) => sgn 16 (nth sens k {}).temp
    let lim := sgn 16 (rf s (0xE30 + g) 8 16)
    let y := grpSample s sens g q
    (rf s (0xE30 + g) 0 8 = 0 → y.state = 0) ∧
    (rf s (0xE30 + g) 0 8 ≠ 0 → (∀ k : Fin 8, good k.val = false) → y.state = 1) ∧
    ((∃ k : Fin 8, good k.val = true) →
      (∀ k : Fin 8, good k.val = true → tOf k.val ≤ y.temp) ∧ (∃ k : Fin 8, good k.val = true ∧ tOf k.val = y.temp) ∧
      (y.state = 3 ↔ (if q.state = 3 then lim - (rf s (0xE30 + g) 24 8 : Nat) ≤ y.temp else lim ≤ y.temp)) ∧
      (y.state = 2 ∨ y.state = 3)) := by
  intro member good tOf lim y
  refine ⟨fun h => ?_, fun hne hnone => ?_, fun ⟨k, hk⟩ => ?_⟩
  · rw [show y = {} from grpSample_empty sens q hbad (groupMembers_eq_nil_iff.mpr h)]
  · have hv : validMembers s sens g = [] := List.eq_nil_iff_forall_not_mem.mpr fun k hk => by
      obtain ⟨hlt, hgood⟩ := mem_validMembers.mp hk
      exact absurd hgood (Bool.eq_false_iff.mp (hnone ⟨k, hlt⟩))
    rw [show y = _ from grpSample_invalid sens q hbad (fun h => hne (groupMembers_eq_nil_iff.mp h)) hv]
  · have hvalid (k : Fin 8) (hk : good k.val = true) : k.val ∈ validMembers s sens g := mem_validMembers.mpr ⟨k.isLt, hk⟩
    have hgood (k : Nat) (hk : k ∈ validMembers s sens g) : ∃ j : Fin 8, j.val = k ∧ good j.val = true :=
      ⟨⟨k, (mem_validMembers.mp hk).1⟩, rfl, (mem_validMembers.mp hk).2⟩
    obtain ⟨k0, rest, hv⟩ := List.exists_cons_of_ne_nil (List.ne_nil_of_mem (hvalid k hk))
    rw [hv] at hvalid hgood
    obtain ⟨hmem, hmax⟩ := warmest_highest tOf rest k0
    obtain ⟨j, hj, hjgood⟩ := hgood _ hmem
    rw [show y = _ from grpSample_valid sens q hbad hv]
    refine ⟨fun k hk => hmax _ (hvalid k hk), ⟨j, hjgood, congrArg tOf hj⟩, ?_, ?_⟩
    · dsimp only [lim, tOf]
      by_cases hq : q.state = 3 <;> simp [hq]
    · dsimp only
      split_ifs <;> simp

/-- Settles O37: each sensor's sample, and each group from its sensors, are those of a whole period, and only THM changes beside what
they raise. -/
theorem thermalSampleIsJudgedAndGrouped : Obligations.ThermalSampleIsJudgedAndGrouped := by
  intro s uv die hup hs hdue hpar hsens hgrps
  have hexec : exec (.thmSample uv die) s = .next (settle (thmSampleOp s uv die)) := by
    refine (instant_core _ hup).trans ?_
    rw [takeUp_of_notDue hdue]
  have hgoes : Goes [.capo, .irqPend, .thm] s (thmSampleOp s uv die) := (Goes.refl _ s).thmSampleOp (by decide) (by decide) (by decide)
  have hthm : (thmSampleOp s uv die).core.thm = { s.core.thm with
      sens := s.core.thm.sens.zipIdx.map fun e => senSample s e.2 e.1 (adcCode (nth uv e.2 0)) die
      grps := s.core.thm.grps.zipIdx.map fun e => grpSample s
        (s.core.thm.sens.zipIdx.map fun e => senSample s e.2 e.1 (adcCode (nth uv e.2 0)) die) e.2 e.1
      samples := if s.core.thm.begun then s.core.thm.samples + 1 else s.core.thm.samples
      begun := true } := by
    unfold thmSampleOp
    extract_lets sens y
    show { y.core.thm with samples := if y.core.thm.begun then y.core.thm.samples + 1 else y.core.thm.samples, begun := true } = _
    rw [show y.core.thm = _ from thm_thmDeliver s sens]
  refine ⟨_, hexec, congrArg ThmSt.samples hthm, congrArg ThmSt.begun hthm, fun k => ?_, fun g => ?_,
    (hgoes.keeps.trans (keeps_settle_awake (hgoes.noWork_in_doze hs (by decide)))).mono (by decide)⟩
  · rw [settle_core_thm, hthm]
    intro q x code curve lo hi
    have hx : x = senSample s k.val q code die := nth_zipIdx_map (by omega)
    have hoff : senOff s k.val = !bit (rd s (0xE20 + k.val)) 0 := by
      simp [senOff, senFailed, curveBad, badW_of_noParity hpar]
    rw [hx]
    refine ⟨fun h => senSample_off _ _ _ _ (by rw [hoff, h]; rfl), fun hon hk => ?_, fun hon => ?_, fun hon hpass => ?_⟩
    · have hon' : senOff s k.val = false := by rw [hoff, hon]; rfl
      refine ⟨?_, fun hopen => ?_, fun hshort => ?_⟩
      · rw [temp_senSample, sampledTemp, if_neg hk, uf_of_noParity hpar]
        rfl
      · have hwhy : ∀ t, senTest s k.val q code t = 1 := fun t => by simp [senTest, hk, hopen]
        exact (senSample_failing _ _ _ _ hon' (by rw [hwhy]; decide)).imp_right fun h => h.trans (hwhy _)
      · have hwhy : ∀ t, senTest s k.val q code t = 2 := fun t => by
          have hnot : ¬0xFE0 ≤ code := by omega
          simp [senTest, hk, hshort, hnot]
        exact (senSample_failing _ _ _ _ hon' (by rw [hwhy]; decide)).imp_right fun h => h.trans (hwhy _)
    · have hon' : senOff s k.val = false := by rw [hoff, hon]; rfl
      intro hreason
      by_cases hwhy : senTest s k.val q code (sampledTemp s k.val code die) = 0
      · exact (senSample_passing _ _ _ _ hon' hwhy).1 hreason
      · exact absurd ((senSample_failing _ _ _ _ hon' hwhy).2.symm.trans hreason) hwhy
    · have hon' : senOff s k.val = false := by rw [hoff, hon]; rfl
      refine (senSample_passing _ _ _ _ hon' ?_).2
      rw [sampledTemp, uf_of_noParity hpar]
      exact hpass
  · rw [settle_core_thm, hthm]
    intro y
    have hy : y = grpSample s (s.core.thm.sens.zipIdx.map fun e => senSample s e.2 e.1 (adcCode (nth uv e.2 0)) die) g.val
        (nth s.core.thm.grps g.val {}) := nth_zipIdx_map (by omega)
    rw [hy]
    exact grpSample_judges _ _ _ (badW_of_noParity hpar _)

end Sys2Proof.Machine
end

section
/-! PROOFS. Chapter 07: a control tick of the flow channels (07 R198-R209). -/

set_option Elab.async false

namespace Sys2Proof.Machine

variable {s t y : State} {n m us : Nat}

theorem windowBand_lt (s : State) (n : Nat) : windowBand s n < 8 := by
  have hmin : ∀ k, nmin 7 k < 8 := fun k => by
    rw [nmin]
    split <;> omega
  exact hmin _

theorem rd_bandLearnt_ne {b a : Nat} (h : a ≠ ageWord n b) : rd (bandLearnt n b s) a = rd s a := by
  rw [bandLearnt, whenS]
  split
  · exact rd_setRF_ne 0 16 _ h
  · rfl

/-- A steady window writes the ageing words of its channel alone. -/
theorem rd_steadyOp {a : Nat} (h : a < 0x1060 + 8 * n ∨ 0x1068 + 8 * n ≤ a) : rd (steadyOp s n) a = rd s a := by
  have hb := windowBand_lt s n
  have hne : a ≠ ageWord n (windowBand s n) := by
    rw [ageWord]
    omega
  rw [steadyOp_eq]
  exact (congrArg (fun m => sget regReset m a) regs_bandAged).trans ((rd_bandLearnt_ne hne).trans (rd_bandSampled_ne hne))

/-- It changes nothing of FLW but the records of its ageing. -/
theorem flw_steadyOp (s : State) (n : Nat) : ∃ ages, (steadyOp s n).core.flw = { s.core.flw with age := ages } := by
  rw [steadyOp_eq]
  generalize hx : bandSampled s n (windowBand s n) (windowAcc s n) = x
  have hxs : ∃ ages, x.core.flw = { s.core.flw with age := ages } := ⟨_, by rw [← hx]; rfl⟩
  have hlearnt : ∃ ages, (bandLearnt n (windowBand s n) x).core.flw = { x.core.flw with age := ages } := by
    rw [bandLearnt, whenS]
    split
    · exact ⟨_, rfl⟩
    · exact ⟨_, rfl⟩
  generalize bandLearnt n (windowBand s n) x = z at hlearnt ⊢
  obtain ⟨ages, hages⟩ := hxs
  obtain ⟨ages', hages'⟩ := hlearnt
  have haged : ∃ ages, (bandAged n (windowBand s n) (windowAcc s n) (flowLearns s n) (bit (ageOf s n).ageing (windowBand s n)) z).core.flw =
      { z.core.flw with age := ages } := by
    unfold bandAged whenS
    dsimp only
    split <;> split <;> exact ⟨_, rfl⟩
  obtain ⟨ages'', hages''⟩ := haged
  exact ⟨ages'', by rw [hages'', hages', hages]⟩

/-- What the tick of channel n finds is the same in both states: its words, causes, temperatures and drive. -/
structure SameChannel (n : Nat) (s y : State) : Prop where
  words : ∀ a, a < 0x1060 ∨ 0x1090 ≤ a → rd y a = rd s a
  pieces : Goes [.regs, .capo, .irqPend, .flw] s y
  drives : y.core.flw.drive.length = s.core.flw.drive.length
  codes : y.core.flw.fvs.length = s.core.flw.fvs.length
  drive : driveOf y n = driveOf s n
  code : 4 ≤ n → nth y.core.flw.fvs (n - 4) none = nth s.core.flw.fvs (n - 4) none

theorem SameChannel.refl (n : Nat) (s : State) : SameChannel n s s := ⟨fun _ _ => rfl, .refl _ s, rfl, rfl, rfl, fun _ => rfl⟩

theorem SameChannel.trans {z : State} (h : SameChannel n s y) (g : SameChannel n y z) : SameChannel n s z :=
  ⟨fun a ha => (g.words a ha).trans (h.words a ha), h.pieces.trans g.pieces, g.drives.trans h.drives, g.codes.trans h.codes,
    g.drive.trans h.drive, fun hn => (g.code hn).trans (h.code hn)⟩

theorem goes_flowChannel (s : State) (us n : Nat) : Goes [.regs, .capo, .irqPend, .flw] s (flowChannel s us n) :=
  (Goes.refl _ s).flowChannel (by decide) (by decide) (by decide) (by decide)

/-- The drive of a channel after a tick, as what the tick found decides it (07 R201, R202, R206, R207). -/
def Driven (s : State) (n : Nat) (x : FlowDrive) : Prop :=
  let d := driveOf s n
  let w := fun (k lo len : Nat) => rf s (0x1000 + 16 * n + k) lo len
  let per := fun (v : Nat) => if v ≤ 1000 then 100 * v else 100000
  let toward := fun (u req step : Nat) => if u ≤ req then (if u + step < req then u + step else req) else (if req < u - step then u - step else req)
  let dem := flowDemand s n
  x.source = flowSource s n ∧ x.cause = flowCause s n ∧ x.taken = true ∧
  (x.ramping = false ↔ x.u = x.uReq) ∧
  (d.taken = true → x.source < 4 → dem = 0 → x.u = toward d.u 0 (10 * w 0 8 7)) ∧
  (d.taken = true → x.source < 4 → dem ≠ 0 → w 0 2 1 = 0 → w 7 0 10 ≤ w 7 10 10 →
    let lo := per (w 7 0 10)
    let hi := per (w 7 10 10)
    x.u = toward d.u (if 100 * dem < lo then lo else if hi < 100 * dem then hi else 100 * dem) (10 * w 0 8 7)) ∧
  (d.taken = true → x.source = 4 → x.u = toward d.u (per (w 7 20 10)) (10 * w 8 25 7)) ∧
  (x.source = 5 → x.u = 0)

/-- The code of a voltage channel at a drive (07 R196). -/
def fvsCode (s : State) (n u : Nat) : Nat :=
  ((2 * ((rf s (0x1000 + 16 * n + 9) 0 10 * 100000 : Nat) + ((rf s (0x1000 + 16 * n + 9) 16 10 : Int) - rf s (0x1000 + 16 * n + 9) 0 10) * u) + 100000) /
    200000).toNat

/-- The channel's drive has crossed into or out of the failsafe. -/
def Crossed (d x : FlowDrive) : Prop := d.taken = true ∧ ((4 ≤ d.source) ≠ (4 ≤ x.source))

theorem rampTo_eq (u req r : Nat) : rampTo u req r =
    if u ≤ req then (if u + r < req then u + r else req) else (if req < u - r then u - r else req) := by
  unfold rampTo nmin nmax
  split_ifs <;> omega

theorem permille_hundred (v : Nat) : permille v * 100 = if v ≤ 1000 then 100 * v else 100000 := by
  unfold permille nmin
  split_ifs <;> omega

theorem toNat_clampI (lo hi x : Nat) : (clampI lo hi x).toNat = if x < lo then lo else if hi < x then hi else x := by
  unfold clampI
  split_ifs <;> omega

theorem flwFailed_of_noParity (hpar : s.core.parity = []) (n : Nat) : flwFailed s n = [] := by
  simp [flwFailed, badW_of_noParity hpar]

/-- A drive limited to the range of the channel, in hundredths of a per mille (07 R201). -/
def limited (s : State) (n x : Nat) : Nat :=
  let lo := permille (rf s (flwA n 7) 0 10) * 100
  let hi := permille (rf s (flwA n 7) 10 10) * 100
  if x < lo then lo else if hi < x then hi else x

/-- Without the loop the demand itself is asked for, within the range. -/
theorem flowLoop_open {d : FlowDrive} {dem : Nat} (hpar : s.core.parity = []) (hdem : dem ≠ 0) (hloop : rf s (flwA n 0) 2 1 = 0) :
    (flowLoop s n d dem).1 = limited s n (dem * 100) := by
  rw [← uf_of_noParity hpar] at hloop
  rw [flowLoop, if_neg hdem, if_pos hloop, limited, ← uf_of_noParity hpar, ← uf_of_noParity hpar]
  exact toNat_clampI _ _ _

theorem flowLoop_none {d : FlowDrive} : (flowLoop s n d 0).1 = 0 := rfl

/-- The stall of a channel keeps its drive. -/
theorem flw_flowStallOp (s : State) (n : Nat) : (flowStallOp s n).core.flw =
    { s.core.flw with drive := upd s.core.flw.drive n fun d => { d with stalled := true, stallRun := 0, nStalls := sat 255 (d.nStalls + 1) } } := by
  have hgoes : Goes [.irqPend, .capo] (modDrive s n fun d => { d with stalled := true, stallRun := 0, nStalls := sat 255 (d.nStalls + 1) })
      (flowStallOp s n) := ((Goes.refl _ _).raiseOwner0 (by decide)).capoFault (by decide)
  exact hgoes.same .flw (by decide)

/-- The drive that the tick asks for, from the record that its loop works on (07 R201, R207). -/
def flowAsked (s : State) (n : Nat) (d : FlowDrive) : Nat :=
  if flowSource s n = 5 then 0
  else if 4 ≤ flowSource s n then
    (if (flwFailed s n).any (fun k => k == 7 || k == 8) then 100000 else permille (uf s (flwA n 7) 20 10) * 100)
  else (flowLoop s n d (flowDemand s n)).1

/-- Where the tick moves a drive (07 R202, R207). -/
def flowMoved (s : State) (n : Nat) (d : FlowDrive) (u0 : Nat) : Nat :=
  if flowSource s n = 5 then 0
  else if 4 ≤ flowSource s n then
    rampTo u0 (flowAsked s n d) (if (flwFailed s n).any (fun k => k == 7 || k == 8) then 1000 else uf s (flwA n 8) 25 7 * 10)
  else rampTo u0 (flowAsked s n d) (uf s (flwA n 0) 8 7 * 10)

/-- A record that has been moved so is the one that O38 describes. -/
theorem driven_of_moved {x d : FlowDrive} (hpar : s.core.parity = []) (hsource : x.source = flowSource s n) (hcause : x.cause = flowCause s n)
    (htaken : x.taken = true) (hramp : x.ramping = decide (x.u ≠ x.uReq)) (hstall : flowSource s n = 5 → x.u = 0)
    (hmoved : (driveOf s n).taken = true → x.u = flowMoved s n d (driveOf s n).u) : Driven s n x := by
  have hten (k : Nat) : k * 10 = 10 * k := Nat.mul_comm k 10
  have hmode : flowSource s n < 4 → ∀ u0, flowMoved s n d u0 = rampTo u0 (flowLoop s n d (flowDemand s n)).1 (10 * rf s (flwA n 0) 8 7) :=
    fun hsrc u0 => by
      rw [flowMoved, if_neg (by omega), if_neg (by omega), flowAsked, if_neg (by omega), if_neg (by omega), uf_of_noParity hpar, hten]
  refine ⟨hsource, hcause, htaken, ?_, fun ht hsrc hdem => ?_, fun ht hsrc hdem hloop _ => ?_, fun ht hsrc => ?_, fun hsrc => hstall (hsource ▸ hsrc)⟩
  · rw [hramp]
    simp
  · rw [hmoved ht, hmode (hsource ▸ hsrc), hdem, flowLoop_none, rampTo_eq]
    rfl
  · rw [hmoved ht, hmode (hsource ▸ hsrc), flowLoop_open hpar hdem hloop, rampTo_eq, limited, permille_hundred, permille_hundred,
      Nat.mul_comm (flowDemand s n) 100]
    rfl
  · rw [hsource] at hsrc
    rw [hmoved ht, flowMoved, if_neg (by omega), if_pos (by omega), flowAsked, if_neg (by omega), if_pos (by omega), flwFailed_of_noParity hpar,
      uf_of_noParity hpar, uf_of_noParity hpar, rampTo_eq, permille_hundred, hten]
    rfl

theorem pend_raiseOwner0 {r : Res} {k : Nat} (ho : ownerN s r < 4) (hk : k < 64) (hirq : s.core.irq.length = 4) :
    bit (nth (raiseOwner0 s r k).core.irq (ownerN s r) {}).pend k = true ∧ bit (nth (raiseOwner0 s r k).core.irq 0 {}).pend k = true := by
  refine ⟨raise_keeps_pend _ _ _ _ _ hk (raise_pend _ _ _ (by omega) hk), raise_pend _ _ _ ?_ hk⟩
  show 0 < (upd s.core.irq (ownerN s r) _).length
  rw [length_upd, hirq]
  decide

/-- A tick of channel n leaves y of s: its own drive, code and report; the other channels keep theirs. -/
structure Ticked (s : State) (n : Nat) (y : State) : Prop where
  words : ∀ a, a < 0x1060 ∨ 0x1090 ≤ a → rd y a = rd s a
  drives : y.core.flw.drive.length = 6
  codes : y.core.flw.fvs.length = 2
  others : ∀ m, m ≠ n → driveOf y m = driveOf s m
  otherCodes : ∀ m, m ≠ n → 4 ≤ m → nth y.core.flw.fvs (m - 4) none = nth s.core.flw.fvs (m - 4) none
  driven : Driven s n (driveOf y n)
  code : 4 ≤ n → nth y.core.flw.fvs (n - 4) none = some (fvsCode s n (driveOf y n).u)
  crossed : Crossed (driveOf s n) (driveOf y n) →
    bit (nth y.core.irq (ownerN s (.flow n)) {}).pend 22 = true ∧ bit (nth y.core.irq 0 {}).pend 22 = true

/-- A voltage channel's tick is complete with its code. -/
theorem Ticked.coded {z : State} {code : Nat} (hwords : ∀ a, a < 0x1060 ∨ 0x1090 ≤ a → rd z a = rd s a) (hdrives : z.core.flw.drive.length = 6)
    (hfvs : z.core.flw.fvs = s.core.flw.fvs) (hlen : s.core.flw.fvs.length = 2) (hothers : ∀ m, m ≠ n → driveOf z m = driveOf s m)
    (hdriven : Driven s n (driveOf z n)) (hcrossed : Crossed (driveOf s n) (driveOf z n) →
      bit (nth z.core.irq (ownerN s (.flow n)) {}).pend 22 = true ∧ bit (nth z.core.irq 0 {}).pend 22 = true)
    (hn : 4 ≤ n) (hn6 : n < 6) (hcode : code = fvsCode s n (driveOf z n).u) :
    Ticked s n (modC z fun c => { c with flw := { c.flw with fvs := upd c.flw.fvs (n - 4) fun _ => some code } }) where
  words := hwords
  drives := hdrives
  codes := (length_upd _ _ _).trans (hfvs ▸ hlen)
  others := hothers
  otherCodes m hm hm4 := (nth_upd_ne _ _ _ _ _ (by omega)).trans (congrArg (nth · (m - 4) none) hfvs)
  driven := hdriven
  code _ := (nth_upd_same z.core.flw.fvs (n - 4) (fun _ => some code) none (by rw [hfvs, hlen]; omega)).trans (congrArg some hcode)
  crossed := hcrossed

theorem ticked_flowChannel (hpar : s.core.parity = []) (hlen : s.core.flw.drive.length = 6) (hfvs : s.core.flw.fvs.length = 2)
    (hirq : s.core.irq.length = 4) (hn : n < 6) : Ticked s n (flowChannel s us n) := by
  unfold flowChannel
  extract_lets d0 first u0 ppr cont d1 cause src back crossed d2 dem loop hard fsReq fsR lp req u integ stallTick d3 s1 s2 s3 s4
    g err steady s5 s6 v0 v1 num code
  have hs1 : s1.core.flw = { s.core.flw with drive := upd s.core.flw.drive n fun _ => d3 } := rfl
  have hs2 : s2.core.flw.drive = s1.core.flw.drive ∧ s2.core.flw.fvs = s1.core.flw.fvs ∧ s2.core.irq = s.core.irq := by
    show (whenS _ s1 _).core.flw.drive = _ ∧ (whenS _ s1 _).core.flw.fvs = _ ∧ (whenS _ s1 _).core.irq = _
    unfold whenS
    split <;> exact ⟨rfl, rfl, rfl⟩
  have hs3 : s3.core.flw = s2.core.flw := by
    show (whenS crossed s2 _).core.flw = _
    unfold whenS
    split <;> rfl
  have hd3 : driveOf s3 n = d3 := by
    rw [driveOf, hs3, hs2.1, hs1]
    exact nth_upd_same _ _ _ _ (by omega)
  have hs4 : ∃ st run k, driveOf s4 n = { d3 with stalled := st, stallRun := run, nStalls := k } := by
    show ∃ st run k, driveOf (whenS (flowStallDue s3 n) s3 fun s => flowStallOp s n) n = _
    unfold whenS
    split
    · refine ⟨true, 0, sat 255 (d3.nStalls + 1), ?_⟩
      rw [driveOf, flw_flowStallOp]
      refine (nth_upd_same _ _ _ _ ?_).trans (by rw [show nth s3.core.flw.drive n {} = d3 from hd3])
      rw [hs3, hs2.1, hs1]
      show n < (upd _ _ _).length
      rw [length_upd]
      omega
    · exact ⟨d3.stalled, d3.stallRun, d3.nStalls, hd3⟩
  have hs4' : s4.core.flw.drive.length = 6 ∧ s4.core.flw.fvs = s.core.flw.fvs ∧ ∀ m, m ≠ n → driveOf s4 m = driveOf s m := by
    have h3 : s3.core.flw.drive.length = 6 ∧ s3.core.flw.fvs = s.core.flw.fvs ∧ ∀ m, m ≠ n → driveOf s3 m = driveOf s m := by
      refine ⟨?_, ?_, fun m hm => ?_⟩
      · rw [hs3, hs2.1, hs1]
        exact (length_upd _ _ _).trans hlen
      · rw [hs3, hs2.2.1, hs1]
      · rw [driveOf, hs3, hs2.1, hs1]
        exact nth_upd_ne _ _ _ _ _ hm
    show (whenS (flowStallDue s3 n) s3 fun s => flowStallOp s n).core.flw.drive.length = 6 ∧
      (whenS (flowStallDue s3 n) s3 fun s => flowStallOp s n).core.flw.fvs = s.core.flw.fvs ∧
      ∀ m, m ≠ n → driveOf (whenS (flowStallDue s3 n) s3 fun s => flowStallOp s n) m = driveOf s m
    unfold whenS
    split
    · refine ⟨?_, ?_, fun m hm => ?_⟩
      · rw [flw_flowStallOp]
        exact (length_upd _ _ _).trans h3.1
      · rw [flw_flowStallOp]
        exact h3.2.1
      · rw [driveOf, flw_flowStallOp]
        exact (nth_upd_ne _ _ _ _ _ hm).trans (h3.2.2 m hm)
    · exact h3
  have hs6 : s6.core.flw.drive = s4.core.flw.drive ∧ s6.core.flw.fvs = s.core.flw.fvs := by
    have h5 : s5.core.flw.drive = s4.core.flw.drive ∧ s5.core.flw.fvs = s.core.flw.fvs := ⟨rfl, hs4'.2.1⟩
    show (whenS _ s5 fun s => steadyOp s n).core.flw.drive = _ ∧ (whenS _ s5 fun s => steadyOp s n).core.flw.fvs = _
    unfold whenS
    split
    · obtain ⟨ages, hages⟩ := flw_steadyOp s5 n
      rw [hages]
      exact h5
    · exact h5
  have hown : driveOf s6 n = driveOf s4 n := by rw [driveOf, hs6.1]; rfl
  have hdriven : Driven s n (driveOf s6 n) := by
    obtain ⟨st, run, k, hx⟩ := hs4
    rw [hown, hx]
    have htaken : d2.taken = true := by
      show (if back = true then { d1 with integ := (u0 : Nat) } else d1).taken = true
      split <;> rfl
    refine driven_of_moved (d := d2) hpar rfl rfl htaken rfl (fun h5 => if_pos h5) fun ht => ?_
    have hfirst : first = false := by rw [show first = !(driveOf s n).taken from rfl, ht]; rfl
    have hu0 : u0 = (driveOf s n).u := by rw [show u0 = if first then _ else (driveOf s n).u from rfl, hfirst]; rfl
    rw [← hu0]
    rfl
  have h35 : Goes [.capo, .irqPend, .flw] s3 s5 := ((Goes.refl _ s3).whenS fun _ h => h.flowStallOp (by decide) (by decide) (by decide)).modAge
    (by decide) fun g hg => by split <;> exact hg
  have h03 : Goes [.capo, .irqPend, .flw] s s3 := (((Goes.refl _ s).modDrive (by decide)).whenS fun _ h => h.modFsw (by decide)).whenS fun _ h =>
    h.raiseOwner0 (by decide)
  have h36 : Goes [.regs, .capo, .irqPend, .flw] s3 s6 := (h35.mono (by decide)).whenS fun _ h => h.steadyOp (by decide) (by decide) (by decide)
  have hwords : ∀ a, a < 0x1060 ∨ 0x1090 ≤ a → rd s6 a = rd s a := fun a ha => by
    have h5 : rd s5 a = rd s a := congrArg (fun m => sget regReset m a) ((h03.trans h35).same .regs (by decide))
    refine Eq.trans ?_ h5
    show rd (whenS _ s5 fun s => steadyOp s n) a = _
    unfold whenS
    split
    · exact rd_steadyOp (by omega)
    · rfl
  have hlen6 : s6.core.flw.drive.length = 6 := by rw [hs6.1]; exact hs4'.1
  have hpend : Crossed (driveOf s n) (driveOf s6 n) →
      bit (nth s6.core.irq (ownerN s (.flow n)) {}).pend 22 = true ∧ bit (nth s6.core.irq 0 {}).pend 22 = true := fun ⟨ht, hne⟩ => by
    obtain ⟨st, run, k, hx⟩ := hs4
    rw [hown, hx] at hne
    have hcross : crossed = true := by
      have hfirst : first = false := by rw [show first = !(driveOf s n).taken from rfl, ht]; rfl
      show (!first && (decide (4 ≤ d0.source) != decide (4 ≤ src))) = true
      rw [hfirst]
      simpa [bne_iff_ne, decide_eq_decide] using hne
    have h3 : bit (nth s3.core.irq (ownerN s (.flow n)) {}).pend 22 = true ∧ bit (nth s3.core.irq 0 {}).pend 22 = true := by
      have hgoes2 : Goes [.flw] s s2 := ((Goes.refl _ s).modDrive (by decide)).whenS fun _ h => h.modFsw (by decide)
      rw [show s3 = raiseOwner0 s2 (.flow n) 22 from if_pos hcross,
        show ownerN s (.flow n) = ownerN s2 (.flow n) from (ownerN_congr (hgoes2.used_same (by decide) (by decide)) _).symm]
      exact pend_raiseOwner0 (Nat.mod_lt _ (by decide)) (by decide) (by rw [hs2.2.2, hirq])
    exact h3.imp (h36.pend_of (by decide)) (h36.pend_of (by decide))
  have hother : ∀ m, m ≠ n → driveOf s6 m = driveOf s m := fun m hm => by
    rw [driveOf, hs6.1]
    exact hs4'.2.2 m hm
  show Ticked s n (if n < 4 then s6 else _)
  by_cases h4 : n < 4
  · rw [if_pos h4]
    exact ⟨hwords, hlen6, by rw [hs6.2, hfvs], hother, fun m _ _ => by rw [hs6.2], hdriven, fun h => absurd h (by omega), hpend⟩
  · rw [if_neg h4]
    refine Ticked.coded hwords hlen6 hs6.2 hfvs hother hdriven hpend (by omega) hn ?_
    have hword (lo len : Nat) : uf s6 (flwA n 9) lo len = rf s (flwA n 9) lo len := by
      rw [uf_of_noParity (((h03.mono (by decide)).trans h36).same .parity (by decide) ▸ hpar), rf, hwords _ (by simp only [flwA]; omega)]
      rfl
    have hu : (driveOf s6 n).u = u := by
      obtain ⟨st, run, k, hx⟩ := hs4
      rw [hown, hx]
    have hv0 : v0 = rf s (flwA n 9) 0 10 := hword 0 10
    have hv1 : v1 = rf s (flwA n 9) 16 10 := hword 16 10
    show ((2 * num + 100000) / 200000).toNat = fvsCode s n (driveOf s6 n).u
    rw [hu, show num = (v0 * 100000 : Nat) + ((v1 : Int) - v0) * u from rfl, hv0, hv1]
    clear_value u
    simp only [fvsCode, flwA]

theorem sameChannel_flowChannel (hpar : s.core.parity = []) (hlen : s.core.flw.drive.length = 6) (hfvs : s.core.flw.fvs.length = 2)
    (hirq : s.core.irq.length = 4) (hm : m < 6) (hne : n ≠ m) : SameChannel n s (flowChannel s us m) := by
  have htick := ticked_flowChannel (us := us) hpar hlen hfvs hirq hm
  exact ⟨htick.words, goes_flowChannel s us m, htick.drives.trans hlen.symm, htick.codes.trans hfvs.symm, htick.others n hne,
    htick.otherCodes n hne⟩

/-- The ticks of other channels leave what channel n's finds. -/
theorem sameChannel_foldl (l : List Nat) : ∀ (s : State), s.core.parity = [] → s.core.flw.drive.length = 6 → s.core.flw.fvs.length = 2 →
    s.core.irq.length = 4 → (∀ m ∈ l, m < 6 ∧ n ≠ m) → SameChannel n s (l.foldl (fun s m => flowChannel s us m) s) := by
  induction l with
  | nil => exact fun s _ _ _ _ _ => .refl n s
  | cons m l ih =>
    intro s hpar hlen hfvs hirq hl
    obtain ⟨hm, hne⟩ := hl m List.mem_cons_self
    have h1 := sameChannel_flowChannel (us := us) hpar hlen hfvs hirq hm hne
    exact h1.trans (ih _ ((h1.pieces.same .parity (by decide)).trans hpar) (h1.drives.trans hlen) (h1.codes.trans hfvs)
      ((h1.pieces.irq_length (by decide)).trans hirq) fun k hk => hl k (List.mem_cons_of_mem _ hk))

section Same

variable (h : SameChannel n s y)
include h

theorem SameChannel.rf_same {a lo len : Nat} (ha : a < 0x1060 ∨ 0x1090 ≤ a) : rf y a lo len = rf s a lo len := by
  rw [rf, h.words a ha]
  rfl

theorem SameChannel.used_same {a : Nat} (ha : a < 0x1060 ∨ 0x1090 ≤ a) : used y a = used s a :=
  used_congr (h.words a ha) (congrArg (List.elem a) (h.pieces.same .parity (by decide)))

theorem SameChannel.uf_same {a lo len : Nat} (ha : a < 0x1060 ∨ 0x1090 ≤ a) : uf y a lo len = uf s a lo len := by
  rw [uf, h.used_same ha]
  rfl

theorem SameChannel.word_same {k lo len : Nat} (hn : n < 6) (hk : k < 16) : uf y (flwA n k) lo len = uf s (flwA n k) lo len :=
  h.uf_same (.inl (by simp only [flwA]; omega))

theorem SameChannel.cause_same (hn : n < 6) : flowCause y n = flowCause s n := by
  have hfailed : flwFailed y n = flwFailed s n := by
    have hpar : y.core.parity = s.core.parity := h.pieces.same .parity (by decide)
    simp only [flwFailed, badW, hpar]
  unfold flowCause
  rw [h.drive, hfailed, h.word_same hn (by decide), h.word_same hn (by decide), h.word_same hn (by decide),
    show y.core.thm = s.core.thm from h.pieces.same .thm (by decide), show y.core.part = s.core.part from h.pieces.same .part (by decide)]

theorem SameChannel.source_same (hn : n < 6) : flowSource y n = flowSource s n := by
  unfold flowSource
  rw [h.cause_same hn, h.drive, h.word_same hn (by decide), h.word_same hn (by decide)]

theorem SameChannel.demand_same (hn : n < 6) : flowDemand y n = flowDemand s n := by
  have hthm : y.core.thm = s.core.thm := h.pieces.same .thm (by decide)
  have hw {k lo len : Nat} (hk : k < 16) : uf y (flwA n k) lo len = uf s (flwA n k) lo len := h.word_same hn hk
  have hcurve (temp : Int) : flowCurve y n temp = flowCurve s n temp := by
    unfold flowCurve
    dsimp only
    simp only [hw (k := 2) (by decide), hw (k := 3 + 0 / 2) (by decide), hw (k := 3 + 2 / 2) (by decide)]
  unfold flowDemand
  rw [hw (by decide), hw (by decide), hw (by decide), hthm, hcurve]

/-- What the tick of a channel does follows from what it finds. -/
theorem SameChannel.driven (hn : n < 6) {x : FlowDrive} (hx : Driven y n x) : Driven s n x := by
  have hw (k lo len : Nat) (hk : k < 16) : rf y (0x1000 + 16 * n + k) lo len = rf s (0x1000 + 16 * n + k) lo len :=
    h.rf_same (.inl (by omega))
  unfold Driven at hx ⊢
  simp only [h.drive, h.source_same hn, h.cause_same hn, h.demand_same hn, hw 0 _ _ (by decide), hw 7 _ _ (by decide), hw 8 _ _ (by decide)] at hx
  exact hx

theorem SameChannel.fvsCode_same (hn : n < 6) (u : Nat) : fvsCode y n u = fvsCode s n u := by
  rw [fvsCode, h.rf_same (.inl (by omega)), h.rf_same (.inl (by omega))]
  rfl

theorem SameChannel.owner_same : ownerN y (.flow n) = ownerN s (.flow n) := h.uf_same (.inl (by decide))

end Same

/-- The tick of all channels, as channel n sees it: its own tick, with the same channel before and after it. -/
theorem flowTickOp_channel (hpar : s.core.parity = []) (hlen : s.core.flw.drive.length = 6) (hfvs : s.core.flw.fvs.length = 2)
    (hirq : s.core.irq.length = 4) (hn : n < 6) :
    ∃ y, SameChannel n s y ∧ Ticked y n (flowChannel y us n) ∧ SameChannel n (flowChannel y us n) (flowTickOp s us) := by
  obtain ⟨l1, l2, hsplit⟩ := List.append_of_mem (show n ∈ upto 6 from List.mem_range.mpr hn)
  have hall : ∀ m ∈ l1 ++ n :: l2, m < 6 := fun m hm => List.mem_range.mp (show m ∈ upto 6 from hsplit ▸ hm)
  have hnodup : (l1 ++ n :: l2).Nodup := hsplit ▸ List.nodup_range
  have hfresh := List.nodup_middle.mp hnodup
  have hne : ∀ m ∈ l1 ++ l2, n ≠ m := fun m hm h => (List.nodup_cons.mp hfresh).1 (h ▸ hm)
  have h1 : SameChannel n s (l1.foldl (fun s m => flowChannel s us m) s) := sameChannel_foldl l1 s hpar hlen hfvs hirq fun m hm =>
    ⟨hall m (List.mem_append_left _ hm), hne m (List.mem_append_left _ hm)⟩
  have hop : flowTickOp s us = l2.foldl (fun s m => flowChannel s us m)
      (flowChannel (l1.foldl (fun s m => flowChannel s us m) s) us n) := by
    rw [flowTickOp, hsplit, List.foldl_append, List.foldl_cons]
  rw [hop]
  generalize l1.foldl (fun s m => flowChannel s us m) s = y at h1 ⊢
  have hpar1 := (h1.pieces.same .parity (by decide)).trans hpar
  have hirq1 := (h1.pieces.irq_length (by decide)).trans hirq
  have htick := ticked_flowChannel (us := us) hpar1 (h1.drives.trans hlen) (h1.codes.trans hfvs) hirq1 hn
  have hgoes := goes_flowChannel y us n
  exact ⟨y, h1, htick, sameChannel_foldl l2 _ ((hgoes.same .parity (by decide)).trans hpar1) htick.drives htick.codes
    ((hgoes.irq_length (by decide)).trans hirq1) fun m hm =>
      ⟨hall m (List.mem_append_right _ (List.mem_cons_of_mem _ hm)), hne m (List.mem_append_right _ hm)⟩⟩

/-- Settles O38: each channel's tick finds what the tick as a whole found, and the later ones leave it. -/
theorem flowTickDrivesEachChannel : Obligations.FlowTickDrivesEachChannel := by
  intro s us hup hs hdue hpar hlen hage hfvs hirq
  have hexec : exec (.flowTick us) s = .next (settle (flowTickOp s us)) := by
    refine (instant_core _ hup).trans ?_
    rw [takeUp_of_notDue hdue]
  have hgoes : Goes [.regs, .capo, .irqPend, .flw] s (flowTickOp s us) :=
    (Goes.refl _ s).flowTickOp (by decide) (by decide) (by decide) (by decide)
  have hchannel (n : Fin 6) := flowTickOp_channel (us := us) hpar hlen hfvs hirq n.isLt
  generalize flowTickOp s us = z at hexec hgoes hchannel
  refine ⟨_, hexec, fun a ha => ?_, (hgoes.keeps.trans (keeps_settle_awake (hgoes.noWork_in_doze hs (by decide)))).mono (by decide), fun n => ?_⟩
  · obtain ⟨y, h1, htick, h2⟩ := hchannel 0
    exact (h2.words a ha).trans ((htick.words a ha).trans (h1.words a ha))
  · obtain ⟨y, h1, htick, h2⟩ := hchannel n
    have hx : driveOf (settle z) n.val = driveOf (flowChannel y us n.val) n.val := h2.drive
    have hdriven := h1.driven n.isLt htick.driven
    have hrises (p : Nat) (hb : bit (nth (flowChannel y us n.val).core.irq p {}).pend 22 = true) :
        bit (nth (settle z).core.irq p {}).pend 22 = true := pendRises_settle _ p 22 (h2.pieces.pend_of (by decide) hb)
    intro d x w per toward dem
    rw [show x = driveOf (flowChannel y us n.val) n.val from hx]
    obtain ⟨hsource, hcause, htaken, hramp, hzero, hopen, hsafe, hoff⟩ := hdriven
    refine ⟨hsource, hcause, htaken, hramp, hzero, hopen, hsafe, hoff, fun ht hne => ?_, fun h4 => ?_⟩
    · have hcrossed := htick.crossed ⟨by rw [h1.drive]; exact ht, by rw [h1.drive]; exact hne⟩
      rw [h1.owner_same] at hcrossed
      exact hcrossed.imp (hrises _) (hrises _)
    · refine (h2.code h4).trans ((htick.code h4).trans (congrArg some ?_))
      rw [h1.fvsCode_same n.isLt]
      rfl

end Sys2Proof.Machine
end

section
/-! PROOFS. Chapter 08: what a scan frame start does (08 R221-R228, R235-R240). -/

set_option Elab.async false

namespace Sys2Proof.Machine

variable {s₀ s x y : State}

/-- The key block without its positions, its events and what the lock, the matcher and the encoders hold. -/
def scanOf (s : State) : KeyBlk := { s.core.key with
  fifos := [], keys := [], mtch := {}, fails := 0, unlocks := 0, idleFrom := 0, encs := [], encDue := [], fwdDue := [] }

/-- The scan is the same in both states. -/
def SameScan (s₀ s : State) : Prop := scanOf s = scanOf s₀

theorem SameScan.refl (s : State) : SameScan s s := rfl

theorem SameScan.trans (h : SameScan x y) (g : SameScan y s) : SameScan x s := Eq.trans g h

theorem SameScan.cond {c : Prop} [Decidable c] (hx : SameScan s₀ x) (hy : SameScan s₀ y) : SameScan s₀ (if c then x else y) := by
  split <;> assumption

theorem SameScan.foldl {α : Type} {f : State → α → State} {l : List α} (h : SameScan s₀ s) (hf : ∀ x a, SameScan s₀ x → SameScan s₀ (f x a)) :
    SameScan s₀ (l.foldl f s) := by
  induction l generalizing s with
  | nil => exact h
  | cons a l ih => exact ih (hf s a h)

theorem SameScan.modK (h : SameScan s₀ s) {f : KeyBlk → KeyBlk} (hf : scanOf (Machine.modK s f) = scanOf s) : SameScan s₀ (Machine.modK s f) :=
  hf.trans h

theorem SameScan.fifoPost (h : SameScan s₀ s) {p typ subj flags data tick vel : Nat} :
    SameScan s₀ (Machine.fifoPost s p typ subj flags data tick vel) := .cond h h

theorem SameScan.raise (h : SameScan s₀ s) {p n : Nat} : SameScan s₀ (Machine.raise s p n) := h

theorem SameScan.keyRbr (h : SameScan s₀ s) {pos : Nat} : SameScan s₀ (Machine.keyRbr s pos) := .cond h h

theorem SameScan.raiseAll (h : SameScan s₀ s) {n : Nat} : SameScan s₀ (Machine.raiseAll s n) := h

theorem SameScan.lockPosts (h : SameScan s₀ s) {typ : Nat} {l : List Nat} : SameScan s₀ (Machine.lockPosts typ s l) :=
  SameScan.foldl h fun _ _ h => h.fifoPost

theorem SameScan.lockPost (h : SameScan s₀ s) {typ : Nat} : SameScan s₀ (Machine.lockPost s typ) :=
  (lockPost_eq s typ).symm ▸ h.lockPosts.raiseAll

theorem SameScan.matchIdle (h : SameScan s₀ s) : SameScan s₀ (Machine.matchIdle s) := h

theorem SameScan.setLocked (h : SameScan s₀ s) {b : Bool} : SameScan s₀ (Machine.setLocked s b) := h

theorem SameScan.lockOp (h : SameScan s₀ s) : SameScan s₀ (Machine.lockOp s) :=
  .cond h (SameScan.foldl h.setLocked fun _ _ h => .cond h h.keyRbr).matchIdle.lockPost

theorem SameScan.unlockOp (h : SameScan s₀ s) : SameScan s₀ (Machine.unlockOp s) :=
  .cond ((SameScan.foldl h.setLocked fun _ _ h => h.keyRbr).matchIdle.modK rfl).lockPost h

theorem SameScan.matchFail (h : SameScan s₀ s) : SameScan s₀ (Machine.matchFail s) := h.matchIdle.modK rfl

theorem SameScan.matcherOp (h : SameScan s₀ s) : SameScan s₀ (Machine.matcherOp s) := by
  unfold Machine.matcherOp
  dsimp only
  refine .cond h (.cond (.cond (h.modK rfl) h) (.cond (h.modK rfl).matchFail ?_))
  split
  · exact .cond (h.modK rfl).matchFail (.cond (.cond ((h.modK rfl).unlockOp.modK rfl) ((h.modK rfl).modK rfl)) (h.modK rfl))
  · exact .cond ((h.modK rfl).modK rfl) (.cond (h.modK rfl).matchFail (h.modK rfl))

theorem SameScan.encFrameOp (h : SameScan s₀ s) {n : Nat} : SameScan s₀ (Machine.encFrameOp s n) :=
  .cond h (.cond (h.modK rfl) ((h.modK rfl).modK rfl))

theorem SameScan.encPost (h : SameScan s₀ s) {e : EncDue} : SameScan s₀ (Machine.encPost s e) := by
  unfold Machine.encPost
  dsimp only
  refine .cond h ?_
  split
  next u hm =>
    unfold encMerge at hm
    dsimp only at hm
    split at hm
    · split at hm
      · cases hm
        exact (h.modK rfl).raise
      · cases hm
    · cases hm
  next => exact h.fifoPost

theorem SameScan.encFlush (h : SameScan s₀ s) : SameScan s₀ (Machine.encFlush s) :=
  (SameScan.foldl h fun _ _ h => h.encPost).modK rfl

/-- The film suspends group g (08 R228). -/
def filmSuspends (s : State) (g : Nat) : Bool :=
  uf s 0x1210 (4 * g) 4 != 0 &&
    decide (uf s 0x1210 (4 * g) 4 ≤ ((bitsOf (columnSet s g) 16).filter fun c => (nth s.core.key.cols c {}).state == 2).length)

/-- What the suspension of groups finds and leaves: the scan, but for the suspended groups. -/
def SameColumns (s₀ s : State) : Prop := { scanOf s with suspended := 0 } = { scanOf s₀ with suspended := 0 }

theorem SameScan.columns (h : SameScan x y) : SameColumns x y :=
  (congrArg (fun b : KeyBlk => { b with suspended := (0 : BitVec 8) }) (show scanOf y = scanOf x from h) :)

theorem SameScan.get {β : Type} (h : SameScan x y) (f : KeyBlk → β) (hf : ∀ s, f s.core.key = f (scanOf s) := by intros; rfl) :
    f y.core.key = f x.core.key := (hf y).trans ((congrArg f h).trans (hf x).symm)

theorem SameColumns.get {β : Type} (h : SameColumns x y) (f : KeyBlk → β)
    (hf : ∀ s, f s.core.key = f { scanOf s with suspended := 0 } := by intros; rfl) : f y.core.key = f x.core.key :=
  (hf y).trans ((congrArg f h).trans (hf x).symm)

theorem suspendOp_scan (s : State) {g : Nat} (hg : g < 8) : SameColumns s (suspendOp s g) ∧
    ∀ h, bit (suspendOp s g).core.key.suspended h = if h = g then filmSuspends s g else bit s.core.key.suspended h := by
  unfold suspendOp
  extract_lets need film susp was p s1 s2 s3
  have hsusp : susp = filmSuspends s g := rfl
  by_cases h : susp = was
  · rw [if_pos h]
    refine ⟨rfl, fun k => ?_⟩
    split
    next hk => rw [hk, ← hsusp, h]
    next => rfl
  · rw [if_neg h]
    have h3 : SameScan s1 s3 := .cond (SameScan.refl s1).fifoPost
      (SameScan.foldl (SameScan.refl s1).fifoPost fun _ _ h => .cond h.keyRbr h)
    refine ⟨h3.columns, fun k => ?_⟩
    rw [show (raise s3 p 25).core.key.suspended = setBit s.core.key.suspended g susp from h3.get KeyBlk.suspended]
    split
    next hk => rw [hk, ← hsusp, bit_setBit_same _ _ _ hg]
    next hk => exact bit_setBit_ne _ _ _ _ hk

/-- Whether the film suspends a group is of the columns and the words. -/
theorem filmSuspends_congr (h : SameColumns s x) (hused : ∀ a, used x a = used s a) (g : Nat) : filmSuspends x g = filmSuspends s g := by
  have hcols : x.core.key.cols = s.core.key.cols := h.get KeyBlk.cols
  unfold filmSuspends columnSet keyRowEn keyEn keyGroup keyMap uf
  simp only [hused, hcols]

/-- The groups of a list are suspended as the film says, the others as they were. -/
theorem suspended_foldl (l : List Nat) : ∀ s : State, (∀ g ∈ l, g < 8) → SameColumns s (l.foldl suspendOp s) ∧
    ∀ h, bit (l.foldl suspendOp s).core.key.suspended h = if h ∈ l then filmSuspends s h else bit s.core.key.suspended h := by
  induction l with
  | nil => exact fun s _ => ⟨rfl, fun h => rfl⟩
  | cons g l ih =>
    intro s hl
    obtain ⟨hscan, hbit⟩ := suspendOp_scan s (hl g List.mem_cons_self)
    have hused : ∀ a, used (suspendOp s g) a = used s a :=
      ((Goes.refl [.irqPend, .key] s).suspendOp (by decide) (by decide)).used_same (by decide) (by decide)
    obtain ⟨hscan', hbit'⟩ := ih (suspendOp s g) fun k hk => hl k (List.mem_cons_of_mem _ hk)
    refine ⟨hscan'.trans hscan, fun h => ?_⟩
    rw [List.foldl_cons, hbit', filmSuspends_congr hscan hused, hbit]
    by_cases hin : h ∈ l
    · rw [if_pos hin, if_pos (List.mem_cons_of_mem _ hin)]
    · rw [if_neg hin]
      by_cases hg : h = g
      · rw [if_pos hg, hg, if_pos List.mem_cons_self]
      · rw [if_neg hg, if_neg (by simp [hin, hg])]

/-- The lock of the keys is left where the device is open and its matcher rests. -/
theorem matcherOp_unlocked (h : keyLocked s = false) : matcherOp s = s := by
  unfold matcherOp
  dsimp only
  rw [h]
  rfl

/-- A matcher that rests does not open the device. -/
theorem keyLocked_matcherOp_idle (h : s.core.key.mtch.idle = true) : keyLocked (matcherOp s) = keyLocked s := by
  unfold matcherOp
  dsimp only
  rw [if_pos h]
  split
  · rfl
  · split <;> rfl

/-- The keys' lock is held in the AON domain. -/
theorem keyLocked_congr (h : x.hold = s.hold) : keyLocked x = keyLocked s := congrArg AonHold.locked h

theorem keyLocked_lockOp (s : State) : keyLocked (lockOp s) = true := by
  unfold lockOp
  split
  next h => exact h
  next => exact congrArg AonHold.locked (((((Goes.refl [.irqPend, .key] (setLocked s true)).foldl fun _ _ h => .cond h (h.keyRbr (by decide))).matchIdle
    (by decide)).lockPost (by decide) (by decide)).same .hold (by decide))

theorem mtch_lockOp_idle (h : keyLocked s = false) : (lockOp s).core.key.mtch.idle = true := by
  have hpost (x : State) (a : Nat) : (fifoPost x a 0x20 0 0 0 (stamp x) 0).core.key.mtch = x.core.key.mtch := by
    rw [fifoPost]
    split <;> rfl
  rw [lockOp_eq h, lockPost_eq, key_raiseAll, lockPosts, foldl_same (g := fun x => x.core.key.mtch) hpost]
  rfl

/-- The scan of a frame that starts: counted, with the wet states of its columns. -/
def frameCounted (s : State) : State := modK (encFlush s) fun b => { b with
  emptyFrames := if b.inFrame && !b.sampled then sat 255 (b.emptyFrames + 1) else b.emptyFrames
  frames := b.frames + 1, inFrame := true, sampled := false
  frameWet := b.cols.map fun c => c.state }

/-- The frame's lock, matcher, groups and encoders. -/
def frameServed (s : State) : State :=
  (upto 3).foldl encFrameOp ((upto 8).foldl suspendOp (matcherOp (whenS (autolockDue (frameCounted s)) (frameCounted s) lockOp)))

/-- A wet probe starts with the frame. -/
def frameProbed (s : State) : State :=
  whenS (uf s 0x1200 8 5 != 0 && s.core.key.frames.toNat % uf s 0x1200 8 5 == 0 && s.core.key.probe.isNone && probeSet s != 0) s
    fun x => modK x fun b => { b with probe := some (lowest (probeSet s) 0) }

/-- The pass of the frame starts where the pads are KEY's. -/
def passStarted (s : State) : State := modK s fun b => { b with passStart := if padsFree s then some (now s, stamp s) else none }

theorem keyFrameOp_eq (s : State) : keyFrameOp s = passStarted (frameProbed (frameServed s)) := by
  unfold keyFrameOp
  extract_lets z0 z1 z2 z3 z4 every set due z5
  have hserved : frameServed s = z4 := rfl
  rw [hserved]
  clear_value z4
  rfl

theorem idleFrom_encPost (s : State) (e : EncDue) : (encPost s e).core.key.idleFrom = s.core.key.idleFrom := by
  unfold encPost
  dsimp only
  split
  · rfl
  · split
    next u hm =>
      unfold encMerge at hm
      dsimp only at hm
      split at hm
      · split at hm
        · cases hm
          rfl
        · cases hm
      · cases hm
    next => exact idleFrom_fifoPost

theorem idleFrom_encFlush (s : State) : (encFlush s).core.key.idleFrom = s.core.key.idleFrom :=
  foldl_same (g := fun x => x.core.key.idleFrom) idleFrom_encPost _

theorem goes_frameCounted (s : State) : Goes [.irqPend, .key] s (frameCounted s) :=
  ((Goes.refl _ s).encFlush (by decide) (by decide)).modK (by decide)

theorem goes_frameLocked (s : State) : Goes [.hold, .irqPend, .key] s (matcherOp (whenS (autolockDue s) s lockOp)) :=
  ((Goes.refl _ s).whenS fun _ h => h.lockOp (by decide) (by decide) (by decide)).matcherOp (by decide) (by decide) (by decide)

theorem goes_suspended (s : State) : Goes [.irqPend, .key] s ((upto 3).foldl encFrameOp ((upto 8).foldl suspendOp s)) :=
  ((Goes.refl _ s).foldl fun _ _ h => h.suspendOp (by decide) (by decide)).foldl fun _ _ h => h.encFrameOp (by decide)

theorem goes_frameServed (s : State) : Goes [.hold, .irqPend, .key] s (frameServed s) :=
  (((goes_frameCounted s).mono (by decide)).trans (goes_frameLocked _)).trans ((goes_suspended _).mono (by decide))

/-- The frame's service leaves the scan as the frame has counted it, and suspends the groups that the film asks for. -/
theorem frameServed_scan (s : State) : SameColumns (frameCounted s) (frameServed s) ∧
    ∀ g, g < 8 → bit (frameServed s).core.key.suspended g = filmSuspends s g := by
  have hlocked : SameScan (frameCounted s) (matcherOp (whenS (autolockDue (frameCounted s)) (frameCounted s) lockOp)) :=
    SameScan.matcherOp (.cond (SameScan.refl _).lockOp (.refl _))
  have hused : ∀ a, used (matcherOp (whenS (autolockDue (frameCounted s)) (frameCounted s) lockOp)) a = used s a :=
    (((goes_frameCounted s).mono (by decide)).trans (goes_frameLocked _)).used_same (by decide) (by decide)
  unfold frameServed
  generalize matcherOp (whenS (autolockDue (frameCounted s)) (frameCounted s) lockOp) = x at hlocked hused ⊢
  obtain ⟨hscan, hbit⟩ := suspended_foldl (upto 8) x fun g hg => List.mem_range.mp hg
  generalize (upto 8).foldl suspendOp x = y at hscan hbit ⊢
  have henc : SameScan y ((upto 3).foldl encFrameOp y) := SameScan.foldl (.refl y) fun _ _ h => h.encFrameOp
  generalize (upto 3).foldl encFrameOp y = z at henc ⊢
  refine ⟨(henc.columns.trans hscan).trans hlocked.columns, fun g hg => ?_⟩
  have hflush : x.core.key.cols = s.core.key.cols := (hlocked.get KeyBlk.cols).trans ((SameScan.refl s).encFlush.get KeyBlk.cols)
  rw [show z.core.key.suspended = y.core.key.suspended from henc.get KeyBlk.suspended, hbit,
    if_pos (show g ∈ upto 8 from List.mem_range.mpr hg)]
  unfold filmSuspends columnSet keyRowEn keyEn keyGroup keyMap uf
  simp only [hused, hflush]

theorem Goes.autolockDue_same {ps : List Piece} (h : Goes ps s x) (hps : ∀ k ∈ [Piece.aon, .regs, .parity], k ∉ ps)
    (hidle : x.core.key.idleFrom = s.core.key.idleFrom) : autolockDue x = autolockDue s := by
  have hused := h.used_same (hps .regs (by decide)) (hps .parity (by decide))
  have hnow : now x = now s := congrArg Aon.osc (h.same .aon (hps .aon (by decide)))
  unfold autolockDue uf
  simp only [hused, hnow, hidle]

/-- What the frame counts, of the scan as it was. -/
theorem frameCounted_scan (s : State) :
    let b := s.core.key
    let c := (frameCounted s).core.key
    c.frames = b.frames + 1 ∧ c.inFrame = true ∧ c.sampled = false ∧
      c.emptyFrames = (if b.inFrame && !b.sampled then sat 255 (b.emptyFrames + 1) else b.emptyFrames) ∧
      c.frameWet = b.cols.map (fun c => c.state) ∧ c.probe = b.probe := by
  have h := (SameScan.refl s).encFlush
  refine ⟨congrArg (· + 1) (h.get KeyBlk.frames), rfl, rfl, ?_, congrArg (List.map ColSt.state) (h.get KeyBlk.cols), h.get KeyBlk.probe⟩
  show (if (encFlush s).core.key.inFrame && !(encFlush s).core.key.sampled then sat 255 ((encFlush s).core.key.emptyFrames + 1)
    else (encFlush s).core.key.emptyFrames) = _
  rw [h.get KeyBlk.inFrame, h.get KeyBlk.sampled, h.get KeyBlk.emptyFrames]

/-- The lock after the frame's service (08 R235). -/
theorem keyLocked_frameServed (hopen : keyLocked s = false) : keyLocked (frameServed s) = autolockDue s := by
  have hdue : autolockDue (frameCounted s) = autolockDue s := (goes_frameCounted s).autolockDue_same (by decide) (idleFrom_encFlush s)
  have hcounted : keyLocked (frameCounted s) = false := (keyLocked_congr ((goes_frameCounted s).same .hold (by decide))).trans hopen
  unfold frameServed
  rw [keyLocked_congr ((goes_suspended _).same .hold (by decide)), hdue]
  unfold whenS
  by_cases h : autolockDue s = true
  · rw [if_pos h, keyLocked_matcherOp_idle (mtch_lockOp_idle hcounted), keyLocked_lockOp, h]
  · rw [if_neg h, matcherOp_unlocked hcounted, hcounted]
    exact (Bool.not_eq_true _ ▸ h).symm

/-- The probe and the pass of the frame change nothing else. -/
theorem passStarted_frameProbed (y : State) : (passStarted (frameProbed y)).core.key = { y.core.key with
      probe := if uf y 0x1200 8 5 != 0 && y.core.key.frames.toNat % uf y 0x1200 8 5 == 0 && y.core.key.probe.isNone && probeSet y != 0
        then some (lowest (probeSet y) 0) else y.core.key.probe
      passStart := if padsFree y then some (now y, stamp y) else none } ∧
    Goes [.key] y (passStarted (frameProbed y)) := by
  have hgoes : Goes [.key] y (passStarted (frameProbed y)) := ((Goes.refl _ y).whenS fun _ h => h.modK (by decide)).modK (by decide)
  refine ⟨?_, hgoes⟩
  unfold frameProbed whenS
  split <;> rfl

/-- Settles O42: the frame is counted and served, its probe and its pass start. -/
theorem frameStartsScanAndSuspend : Obligations.FrameStartsScanAndSuspend := by
  intro s hup hdue
  have hflush : Goes [.irqPend, .key] s (encFlush s) := (Goes.refl _ s).encFlush (by decide) (by decide)
  have hexec : exec .keyFrameStart s = .next (settle (passStarted (frameProbed (frameServed (encFlush s))))) := by
    refine (instant_core _ hup).trans ?_
    rw [takeUp_of_notDue ((hflush.courseDue_same (by decide) 2).trans hdue), keyFrameOp_eq]
  have hgoes : Goes [.hold, .irqPend, .key] s (frameServed (encFlush s)) := (hflush.mono (by decide)).trans (goes_frameServed _)
  obtain ⟨hscan, hbit⟩ := frameServed_scan (encFlush s)
  have hlocked := fun h => keyLocked_frameServed (s := encFlush s) ((keyLocked_congr (hflush.same .hold (by decide))).trans h)
  generalize frameServed (encFlush s) = y at hexec hgoes hscan hbit hlocked
  obtain ⟨hkey, hlast⟩ := passStarted_frameProbed y
  have hhold := hlast.same .hold (by decide)
  have haon := hlast.same .aon (by decide)
  have hregs := hlast.same .regs (by decide)
  generalize passStarted (frameProbed y) = z at hexec hkey hlast hhold haon hregs
  have hused : ∀ a, used y a = used s a := hgoes.used_same (by decide) (by decide)
  have hflushed := (SameScan.refl s).encFlush
  have hset : probeSet y = probeSet s := by
    unfold probeSet keyRowEn keyEn keyMap uf
    simp only [hused]
  have hpads : padsFree y = padsFree s := by
    unfold padsFree
    rw [show y.core.epd = s.core.epd from hgoes.same .epd (by decide)]
  have hdueS : autolockDue (encFlush s) = autolockDue s := hflush.autolockDue_same (by decide) (idleFrom_encFlush s)
  have hlockT : keyLocked s = false → keyLocked (settle z) = autolockDue s := fun h =>
    (keyLocked_congr (x := settle z) hhold).trans ((hlocked h).trans hdueS)
  have hclock : now y = now s ∧ stamp y = stamp s := by
    have haonY : y.aon = s.aon := hgoes.same .aon (by decide)
    rw [now, stamp, haonY]
    exact ⟨rfl, rfl⟩
  obtain ⟨hframes, hin, hsampled, hempty, hwet, hprobe⟩ := frameCounted_scan (encFlush s)
  rw [hflushed.get KeyBlk.frames] at hframes
  rw [hflushed.get KeyBlk.inFrame, hflushed.get KeyBlk.sampled, hflushed.get KeyBlk.emptyFrames] at hempty
  rw [hflushed.get KeyBlk.cols] at hwet
  rw [hflushed.get KeyBlk.probe] at hprobe
  have hfilm (g : Nat) : filmSuspends (encFlush s) g = filmSuspends s g :=
    filmSuspends_congr hflushed.columns (hflush.used_same (by decide) (by decide)) g
  refine ⟨_, hexec, (congrArg KeyBlk.frames hkey).trans ((hscan.get KeyBlk.frames).trans hframes),
    (congrArg KeyBlk.inFrame hkey).trans ((hscan.get KeyBlk.inFrame).trans hin),
    (congrArg KeyBlk.sampled hkey).trans ((hscan.get KeyBlk.sampled).trans hsampled),
    ((congrArg KeyBlk.emptyFrames hkey).trans ((hscan.get KeyBlk.emptyFrames).trans hempty)).trans ?empty,
    (congrArg KeyBlk.frameWet hkey).trans ((hscan.get KeyBlk.frameWet).trans hwet), ?pass, fun hopen hauto hpast => ?locks, fun hopen hauto => ?opens,
    fun g => ?film, fun hnone hsome hevery hnow => ?probe, hregs.trans (hgoes.same .regs (by decide)), haon.trans (hgoes.same .aon (by decide))⟩
  case empty =>
    exact if_congr (by simp) rfl rfl
  case pass =>
    refine (congrArg KeyBlk.passStart hkey).trans ?_
    show (if padsFree y then some (now y, stamp y) else none) = _
    rw [hpads, hclock.1, hclock.2]
  case locks =>
    rw [hlockT hopen]
    unfold autolockDue
    generalize uf s 0x127A 8 8 = auto at hauto hpast ⊢
    have hticks : auto * 10 * 32768 = auto * 327680 := by rw [Nat.mul_assoc]
    simp [hauto, hticks, hpast]
  case opens =>
    rw [hlockT hopen, autolockDue, hauto]
    rfl
  case film =>
    rw [show (settle z).core.key.suspended = y.core.key.suspended from (congrArg KeyBlk.suspended hkey :), hbit g.val g.isLt, hfilm, filmSuspends]
    simp
  case probe =>
    refine (congrArg KeyBlk.probe hkey).trans ?_
    show (if _ then some (lowest (probeSet y) 0) else y.core.key.probe) = _
    rw [hset, show y.core.key.frames = s.core.key.frames + 1 from (hscan.get KeyBlk.frames).trans hframes,
      show y.core.key.probe = none from (hscan.get KeyBlk.probe).trans (hprobe.trans hnone), show uf y 0x1200 8 5 = uf s 0x1200 8 5 by rw [uf, hused]; rfl]
    have hcond : (uf s 0x1200 8 5 != 0 && (s.core.key.frames + 1).toNat % uf s 0x1200 8 5 == 0 && (none : Option Nat).isNone && probeSet s != 0) = true := by
      rw [hnow]
      simp only [Bool.and_eq_true, bne_iff_ne]
      exact ⟨⟨⟨hevery, rfl⟩, rfl⟩, hsome⟩
    exact if_pos hcond

end Sys2Proof.Machine
end

section
/-! PROOFS. Chapter 08: the debounce of a scan pass (08 R229-R234, Table 8-4). -/

set_option Elab.async false

namespace Sys2Proof.Machine

variable {s x y : State} {seen : BitVec 160} {n t0 st0 pos : Nat} {first : Bool}

@[simp] theorem keys_keyFwd {typ flags tick : Nat} : (keyFwd s pos typ flags tick).core.key.keys = s.core.key.keys := by
  unfold keyFwd
  split <;> rfl

@[simp] theorem keys_keyPost {p typ extra tick : Nat} : (keyPost s p pos typ extra tick).core.key.keys = s.core.key.keys :=
  keys_keyFwd.trans keys_fifoPost

/-- The state of a position after a sample, in which only what is posted has followed. -/
theorem keyOf_setKey_same {k : KeySt} (hwf : swf (fun _ => {}) s.core.key.keys = true) : keyOf (setKey s pos k) pos = k :=
  sget_sset _ _ _ _ hwf

theorem keyOf_setKey_ne {k : KeySt} {q : Nat} (h : q ≠ pos) : keyOf (setKey s pos k) q = keyOf s q := sget_sset_ne _ _ _ _ _ h

theorem keyOf_congr (h : x.core.key.keys = s.core.key.keys) (q : Nat) : keyOf x q = keyOf s q := by
  rw [keyOf, h]
  rfl

/-- A position of a scanned row, by Table 8-4: k before the sample, z after it. -/
def Debounced (s : State) (on ambig : Bool) (n t0 pos : Nat) (k z : KeySt) : Prop :=
  let cfg := used s (0x1208 + keyGroup s pos)
  let press := (if nth s.core.key.frameWet (pos % 16) 0 ≠ 0 then fld cfg 16 8 else fld cfg 0 7) * 32768 / 1000
  let lockout := bit cfg 7
  (k.st = .up → on = false → z.st = .up) ∧
  (k.st = .up → on = true → (lockout = true ∨ ambig = false) → z.st = .pressPending ∧ z.cand = t0) ∧
  (k.st = .pressPending → on = false → z = {}) ∧
  (k.st = .pressPending → on = true → k.ghost = false → t0 - k.cand < press → z = k) ∧
  (k.st = .pressPending → on = true → k.ghost = false → press ≤ t0 - k.cand → ambig = false → (lockout = false ∨ n ≤ 2) → z.st = .down) ∧
  (k.st = .down → z.st = if on then .down else .releasePending) ∧
  (k.st = .releasePending → on = true → z.st = .down) ∧
  (k.st = .releasePending → on = false → (fld cfg 8 8 * 32768 / 1000 ≤ t0 - k.cand → z = {}) ∧ (t0 - k.cand < fld cfg 8 8 * 32768 / 1000 → z = k))

section Table

variable {on ambig : Bool} {k z : KeySt}

/-- The press time of a position, of its wet column or of a dry one (08 R229). -/
def pressTicks (s : State) (pos : Nat) : Nat :=
  (if nth s.core.key.frameWet (pos % 16) 0 ≠ 0 then fld (used s (0x1208 + keyGroup s pos)) 16 8 else fld (used s (0x1208 + keyGroup s pos)) 0 7) *
    32768 / 1000

/-- The group of a position locks out more than two closed keys (08 R233). -/
def locksOut (s : State) (pos : Nat) : Bool := bit (used s (0x1208 + keyGroup s pos)) 7

theorem debounced_up (hst : k.st = .up) (hoff : on = false → z.st = .up)
    (hon : on = true → locksOut s pos = true ∨ ambig = false → z.st = .pressPending ∧ z.cand = t0) : Debounced s on ambig n t0 pos k z := by
  refine ⟨fun _ => hoff, fun _ => hon, ?_, ?_, ?_, ?_, ?_, ?_⟩ <;> exact fun h => absurd (hst.symm.trans h) (by decide)

theorem debounced_pressPending (hst : k.st = .pressPending) (hoff : on = false → z = {})
    (hwait : on = true → k.ghost = false → t0 - k.cand < pressTicks s pos → z = k)
    (hdown : on = true → k.ghost = false → pressTicks s pos ≤ t0 - k.cand → ambig = false → locksOut s pos = false ∨ n ≤ 2 → z.st = .down) :
    Debounced s on ambig n t0 pos k z := by
  refine ⟨?_, ?_, fun _ => hoff, fun _ => hwait, fun _ => hdown, ?_, ?_, ?_⟩ <;> exact fun h => absurd (hst.symm.trans h) (by decide)

theorem debounced_down (hst : k.st = .down) (h : z.st = if on then .down else .releasePending) : Debounced s on ambig n t0 pos k z := by
  refine ⟨?_, ?_, ?_, ?_, ?_, fun _ => h, ?_, ?_⟩ <;> exact fun h => absurd (hst.symm.trans h) (by decide)

theorem debounced_releasePending (hst : k.st = .releasePending) (hon : on = true → z.st = .down)
    (hoff : on = false → (msTicks (fld (used s (0x1208 + keyGroup s pos)) 8 8) ≤ t0 - k.cand → z = {}) ∧
      (t0 - k.cand < msTicks (fld (used s (0x1208 + keyGroup s pos)) 8 8) → z = k)) : Debounced s on ambig n t0 pos k z := by
  refine ⟨?_, ?_, ?_, ?_, ?_, ?_, fun _ => hon, fun _ => hoff⟩ <;> exact fun h => absurd (hst.symm.trans h) (by decide)

end Table

/-- A sample of position pos leaves y of s: the other positions stay, its own moves as its table says. -/
structure Sampled (s : State) (on ambig : Bool) (n t0 pos : Nat) (y : State) : Prop where
  canonical : swf (fun _ => {}) y.core.key.keys = true
  others : ∀ q, q ≠ pos → keyOf y q = keyOf s q
  moved : Debounced s on ambig n t0 pos (keyOf s pos) (keyOf y pos)

section Branches

variable {on ambig : Bool} (hwf : swf (fun _ => {}) s.core.key.keys = true)
include hwf

theorem Sampled.same (h : Debounced s on ambig n t0 pos (keyOf s pos) (keyOf s pos)) : Sampled s on ambig n t0 pos s := ⟨hwf, fun _ _ => rfl, h⟩

theorem Sampled.set {k : KeySt} (h : Debounced s on ambig n t0 pos (keyOf s pos) k) : Sampled s on ambig n t0 pos (setKey s pos k) :=
  ⟨swf_sset _ _ _ _ hwf, fun _ hq => keyOf_setKey_ne hq, (keyOf_setKey_same hwf).symm ▸ h⟩

end Branches

theorem Sampled.congr {on ambig : Bool} (h : Sampled s on ambig n t0 pos x) (hkeys : y.core.key.keys = x.core.key.keys) :
    Sampled s on ambig n t0 pos y :=
  ⟨hkeys.symm ▸ h.canonical, fun q hq => (keyOf_congr hkeys q).trans (h.others q hq), (keyOf_congr hkeys pos).symm ▸ h.moved⟩

theorem Sampled.whenS {on ambig : Bool} {c : Bool} {f : State → State} (h : Sampled s on ambig n t0 pos x)
    (hf : (f x).core.key.keys = x.core.key.keys) : Sampled s on ambig n t0 pos (Machine.whenS c x f) := by
  unfold Machine.whenS
  split
  · exact h.congr hf
  · exact h

/-- One sample of one position (08 Table 8-4). -/
theorem sampled_keySample (hwf : swf (fun _ => {}) s.core.key.keys = true) :
    Sampled s (bit seen pos) (keyAmbig seen pos) n t0 pos (keySample s seen n t0 st0 first pos) := by
  unfold keySample
  extract_lets k on g cfg owner lockout wet deb ghosted post ghost
  have hpost (z : State) (typ extra : Nat) : (post z typ extra).core.key.keys = z.core.key.keys := keys_keyPost
  have hdeb : deb = pressTicks s pos := by
    show (if nth s.core.key.frameWet (pos % 16) 0 != 0 then fld (used s (0x1208 + keyGroup s pos)) 16 8
      else fld (used s (0x1208 + keyGroup s pos)) 0 7) * 32768 / 1000 = pressTicks s pos
    rw [pressTicks]
    simp only [bne_iff_ne]
  have hlock : lockout = locksOut s pos := rfl
  have hghosted : locksOut s pos = true ∨ keyAmbig seen pos = false → ghosted = false := fun h => by
    show (!locksOut s pos && on && keyAmbig seen pos) = false
    rcases h with h | h <;> simp [h]
  have hbit : bit seen pos = on := rfl
  have hkey : keyOf s pos = k := rfl
  clear_value deb ghosted post lockout
  rw [hbit]
  have hno {p : Prop} (h : (true : Bool) = false) : p := absurd h (by decide)
  have hno' {p : Prop} (h : (false : Bool) = true) : p := absurd h (by decide)
  cases hst : k.st with
  | up =>
    dsimp only
    cases hon : on with
    | false =>
      rw [if_pos (show (!false) = true from rfl)]
      by_cases hg : k.ghost = true
      · rw [if_pos hg]
        exact Sampled.set hwf (debounced_up hst (fun _ => rfl) hno')
      · rw [if_neg hg]
        exact Sampled.same hwf (debounced_up hst (fun _ => hst) hno')
    | true =>
      rw [if_neg (show ¬(!true) = true by decide)]
      by_cases hg : ghosted = true
      · rw [if_pos hg]
        refine (Sampled.set hwf (debounced_up hst hno fun _ h => ?_)).whenS (hpost _ _ _)
        exact hno (hg.symm.trans (hghosted h))
      · rw [if_neg hg]
        exact Sampled.set hwf (debounced_up hst hno fun _ _ => ⟨rfl, rfl⟩)
  | pressPending =>
    dsimp only
    cases hon : on with
    | false =>
      rw [if_pos (show (!false) = true from rfl)]
      exact Sampled.set hwf (debounced_pressPending hst (fun _ => rfl) hno' hno')
    | true =>
      rw [if_neg (show ¬(!true) = true by decide)]
      by_cases hk : k.ghost = true
      · have hvoid {z : KeySt} : Debounced s true (keyAmbig seen pos) n t0 pos k z := debounced_pressPending hst hno
          (fun _ h => hno (hk.symm.trans h)) fun _ h => hno (hk.symm.trans h)
        by_cases hg : ghosted = true
        · rw [if_neg (by simp [hg]), if_pos hk]
          exact Sampled.same hwf hvoid
        · rw [if_pos (by simp [hg, hk])]
          exact Sampled.set hwf hvoid
      · rw [if_neg (by simp [hk]), if_neg hk]
        by_cases hwait : t0 - k.cand < deb
        · rw [if_pos hwait]
          exact Sampled.same hwf (debounced_pressPending hst hno (fun _ _ _ => rfl) fun _ _ h => absurd hwait (not_lt.mpr (hdeb ▸ h)))
        · rw [if_neg hwait]
          have hpast {z : KeySt} (h : keyAmbig seen pos = false → locksOut s pos = false ∨ n ≤ 2 → z.st = .down) :
              Debounced s true (keyAmbig seen pos) n t0 pos k z :=
            debounced_pressPending hst hno (fun _ _ h => absurd (hdeb ▸ h) hwait) fun _ _ _ => h
          by_cases hg : ghosted = true
          · rw [if_pos hg]
            exact (Sampled.set hwf (hpast fun h => hno (hg.symm.trans (hghosted (.inr h))))).whenS (hpost _ _ _)
          · rw [if_neg hg]
            by_cases hl : (lockout && decide (2 < n)) = true
            · rw [if_pos hl]
              simp only [hlock, Bool.and_eq_true, decide_eq_true_eq] at hl
              exact (Sampled.set hwf (hpast fun _ h => h.elim (fun h => hno (hl.1.symm.trans h)) fun h => absurd h (by omega))).whenS (hpost _ _ _)
            · rw [if_neg hl]
              exact (Sampled.set hwf (hpast fun _ _ => rfl)).whenS (hpost _ _ _)
  | down =>
    dsimp only
    cases hon : on with
    | false => exact Sampled.set hwf (debounced_down hst rfl)
    | true => exact Sampled.same hwf (debounced_down hst hst)
  | releasePending =>
    dsimp only
    cases hon : on with
    | true => exact Sampled.set hwf (debounced_releasePending hst (fun _ => rfl) hno)
    | false =>
      rw [if_neg (show ¬false = true by decide)]
      by_cases hwait : t0 - k.cand < msTicks (fld cfg 8 8)
      · rw [if_pos hwait]
        exact Sampled.same hwf (debounced_releasePending hst hno' fun _ => ⟨fun h => absurd h (not_le.mpr hwait), fun _ => rfl⟩)
      · rw [if_neg hwait]
        have hset : Sampled s false (keyAmbig seen pos) n t0 pos (setKey s pos {}) := Sampled.set hwf (debounced_releasePending hst hno'
          fun _ => ⟨fun _ => rfl, fun h => absurd h hwait⟩)
        split
        · exact hset.whenS (hpost _ _ _)
        · exact hset.whenS (hpost _ _ _)

/-- The table reads nothing that other positions' samples change. -/
theorem Debounced.congr {on ambig : Bool} {k z : KeySt} (hused : ∀ a, used x a = used s a)
    (hwet : x.core.key.frameWet = s.core.key.frameWet) (h : Debounced x on ambig n t0 pos k z) : Debounced s on ambig n t0 pos k z := by
  have hgroup : keyGroup x pos = keyGroup s pos := by
    unfold keyGroup keyMap uf
    rw [hused]
  unfold Debounced at h ⊢
  simp only [hused, hwet, hgroup] at h
  exact h

theorem SameScan.keyFwd {s₀ : State} (h : SameScan s₀ s) {typ flags tick : Nat} : SameScan s₀ (Machine.keyFwd s pos typ flags tick) :=
  .cond (h.modK rfl) h

theorem SameScan.keyPost {s₀ : State} (h : SameScan s₀ s) {p typ extra tick : Nat} : SameScan s₀ (Machine.keyPost s p pos typ extra tick) :=
  h.fifoPost.keyFwd

theorem SameScan.whenS {s₀ : State} {c : Bool} {f : State → State} (h : SameScan s₀ s) (hf : SameScan s₀ (f s)) :
    SameScan s₀ (Machine.whenS c s f) := .cond hf h

theorem SameScan.setKey {s₀ : State} {k : KeySt} (h : SameScan s₀ s) : SameScan s₀ (Machine.setKey s pos k) := h

/-- A sample leaves the scan. -/
theorem SameScan.keySample {s₀ : State} (h : SameScan s₀ s) : SameScan s₀ (Machine.keySample s seen n t0 st0 first pos) := by
  unfold Machine.keySample
  dsimp only
  split
  · exact .cond (.cond h.setKey h) (.cond (h.setKey.whenS h.setKey.keyPost) h.setKey)
  · exact .cond h.setKey (.cond h.setKey (.cond h (.cond h (.cond (h.setKey.whenS h.setKey.keyPost) (.cond (h.setKey.whenS h.setKey.keyPost)
      (h.setKey.whenS (h.setKey.modK rfl).keyPost))))))
  · exact .cond h h.setKey
  · exact .cond h.setKey (.cond h (.cond (h.setKey.whenS h.setKey.keyPost) (h.setKey.whenS h.setKey.keyPost)))

/-- The samples of the positions of a list, those of the scanned rows. -/
def samplesOf (s : State) (seen : BitVec 160) (n t0 st0 : Nat) (first : Bool) (l : List Nat) : State :=
  l.foldl (fun s pos => if keyRowEn s (pos / 16) then keySample s seen n t0 st0 first pos else s) s

theorem keyPassOp_eq {closed : BitVec 160} (h : s.core.key.passStart = some (t0, st0)) :
    keyPassOp s closed = encFlush (modK (samplesOf s (bvOf 160 fun i => bit closed i && keyRowEn s (i / 16))
      (popcnt (bvOf 160 fun i => bit closed i && keyRowEn s (i / 16))) t0 st0 s.core.key.lastSample.isNone (upto 160))
      fun b => { b with passStart := none, sampled := true, lastSample := some (t0, st0), closed := bvOf 160 fun i => bit closed i && keyRowEn s (i / 16) }) := by
  unfold keyPassOp
  rw [h]
  rfl

theorem keyRowEn_congr (hused : ∀ a, used x a = used s a) (r : Nat) : keyRowEn x r = keyRowEn s r := by
  unfold keyRowEn
  rw [hused]

/-- Each position of the list is sampled as the pass found it; the scan, and every other position, stay. -/
theorem samplesOf_each (l : List Nat) : ∀ s : State, l.Nodup → swf (fun _ => {}) s.core.key.keys = true →
    swf (fun _ => {}) (samplesOf s seen n t0 st0 first l).core.key.keys = true ∧ SameScan s (samplesOf s seen n t0 st0 first l) ∧
    Goes [.irqPend, .key] s (samplesOf s seen n t0 st0 first l) ∧
    (∀ q, q ∉ l → keyOf (samplesOf s seen n t0 st0 first l) q = keyOf s q) ∧
    ∀ q ∈ l, (keyRowEn s (q / 16) = false → keyOf (samplesOf s seen n t0 st0 first l) q = keyOf s q) ∧
      (keyRowEn s (q / 16) = true →
        Debounced s (bit seen q) (keyAmbig seen q) n t0 q (keyOf s q) (keyOf (samplesOf s seen n t0 st0 first l) q)) := by
  induction l with
  | nil => exact fun s _ hwf => ⟨hwf, rfl, .refl _ s, fun _ _ => rfl, fun _ hq => nomatch hq⟩
  | cons pos l ih =>
    intro s hnodup hwf
    obtain ⟨hpos, hnodup⟩ := List.nodup_cons.mp hnodup
    have hsampled := sampled_keySample (seen := seen) (n := n) (t0 := t0) (st0 := st0) (pos := pos) (first := first) hwf
    have hscan := (SameScan.refl s).keySample (seen := seen) (n := n) (t0 := t0) (st0 := st0) (pos := pos) (first := first)
    have hgoes := (Goes.refl [.irqPend, .key] s).keySample (by decide) (by decide) (closed := seen) (n := n) (t := t0) (st0 := st0) (pos := pos)
      (first := first)
    have hstep : samplesOf s seen n t0 st0 first (pos :: l) =
        samplesOf (if keyRowEn s (pos / 16) then keySample s seen n t0 st0 first pos else s) seen n t0 st0 first l := rfl
    rw [hstep]
    by_cases hrow : keyRowEn s (pos / 16) = true
    · rw [if_pos hrow]
      generalize keySample s seen n t0 st0 first pos = y at hsampled hscan hgoes
      have hused : ∀ a, used y a = used s a := hgoes.used_same (by decide) (by decide)
      obtain ⟨hwf', hscan', hgoes', hother, hlist⟩ := ih y hnodup hsampled.canonical
      refine ⟨hwf', hscan.trans hscan', hgoes.trans hgoes', fun q hq => ?_, fun q hq => ?_⟩
      · exact (hother q fun h => hq (List.mem_cons_of_mem _ h)).trans (hsampled.others q fun h => hq (h ▸ List.mem_cons_self))
      · rcases List.mem_cons.mp hq with rfl | hq
        · refine ⟨fun h => absurd (hrow.symm.trans h) (by decide), fun _ => ?_⟩
          rw [hother q hpos]
          exact hsampled.moved
        · have hne : q ≠ pos := fun h => hpos (h ▸ hq)
          obtain ⟨hoff, hon⟩ := hlist q hq
          rw [keyRowEn_congr hused, hsampled.others q hne] at hoff hon
          exact ⟨hoff, fun h => (hon h).congr hused (hscan.get KeyBlk.frameWet)⟩
    · rw [if_neg hrow]
      obtain ⟨hwf', hscan', hgoes', hother, hlist⟩ := ih s hnodup hwf
      refine ⟨hwf', hscan', hgoes', fun q hq => hother q fun h => hq (List.mem_cons_of_mem _ h), fun q hq => ?_⟩
      rcases List.mem_cons.mp hq with rfl | hq
      · exact ⟨fun _ => hother q hpos, fun h => absurd h hrow⟩
      · exact hlist q hq

theorem keys_encFlush : (encFlush s).core.key.keys = s.core.key.keys := by
  have hpost (x : State) (e : EncDue) : (encPost x e).core.key.keys = x.core.key.keys := by
    unfold encPost
    dsimp only
    split
    · rfl
    · split
      next u hm =>
        unfold encMerge at hm
        dsimp only at hm
        split at hm
        · split at hm
          · cases hm
            rfl
          · cases hm
        · cases hm
      next => exact keys_fifoPost
  exact foldl_same (g := fun s => s.core.key.keys) hpost s.core.key.encDue

/-- Settles O41: each position is sampled once, as the pass found it, and the end of the pass leaves the positions. -/
theorem passSamplesAreDebounced : Obligations.PassSamplesAreDebounced := by
  intro s closed hup hs
  have hexec : exec (.keyPass closed) s = .next (settle (keyPassOp s closed)) := instant_core _ hup
  refine ⟨fun hnone => hexec.trans ?_, fun t0 st0 hsome hwf => ?_⟩
  · unfold keyPassOp
    rw [hnone]
  · intro seen
    have hgoes : Goes [.irqPend, .key] s (keyPassOp s closed) := (Goes.refl _ s).keyPassOp (by decide) (by decide)
    have hused : ∀ a, used (keyPassOp s closed) a = used s a := hgoes.used_same (by decide) (by decide)
    have hkeeps := hgoes.keeps.trans ((hgoes.quiet hs.quiet (by decide) (hused _) (hused _)
      ((hgoes.devrst_same (by decide)).trans hs.quiet.devrst)).keeps_settle_alert (hgoes.noWork_in_doze hs (by decide)))
    have hop : keyPassOp s closed = encFlush (modK (samplesOf s seen (popcnt seen) t0 st0 s.core.key.lastSample.isNone (upto 160))
      fun b => { b with passStart := none, sampled := true, lastSample := some (t0, st0), closed := seen }) := keyPassOp_eq hsome
    obtain ⟨-, -, -, -, hlist⟩ := samplesOf_each (seen := seen) (n := popcnt seen) (t0 := t0) (st0 := st0) (first := s.core.key.lastSample.isNone)
      (upto 160) s List.nodup_range hwf
    have hbit (pos : Fin 160) (h : keyRowEn s (pos.val / 16) = true) : bit seen pos.val = bit closed pos.val := by
      rw [bit_bvOf _ pos.isLt, h, Bool.and_true]
    rw [hop] at hexec hkeeps
    generalize samplesOf s seen (popcnt seen) t0 st0 s.core.key.lastSample.isNone (upto 160) = y at hexec hkeeps hlist
    have hkeyOf (z : State) (hz : z = modK y fun b => { b with passStart := none, sampled := true, lastSample := some (t0, st0), closed := seen }) (q : Nat) :
        keyOf (settle (encFlush z)) q = keyOf y q := by
      refine keyOf_congr (x := settle (encFlush z)) (s := y) ?_ q
      refine Eq.trans (show _ = (encFlush z).core.key.keys from rfl) (keys_encFlush.trans ?_)
      rw [hz]
      rfl
    have hflush (z : State) := (SameScan.refl z).encFlush
    refine ⟨_, hexec, (hflush _).get KeyBlk.passStart, (hflush _).get KeyBlk.sampled, (hflush _).get KeyBlk.lastSample, (hflush _).get KeyBlk.closed,
      hkeeps.mono (by decide), fun pos => ?_⟩
    intro k x cfg on press lockout
    obtain ⟨hoff, hon⟩ := hlist pos.val (List.mem_range.mpr pos.isLt)
    rw [← hkeyOf _ rfl] at hoff hon
    refine ⟨hoff, fun h => ?_⟩
    have hmoved := hon h
    rw [hbit pos h] at hmoved
    exact hmoved

end Sys2Proof.Machine
end

section
/-! PROOFS. Chapter 11: the channels and banks of the setup flash, and what an idle bank starts (11 R307-R310). -/

set_option Elab.async false

namespace Sys2Proof.Machine

variable {s₀ s x y : State} {b c : Nat}

/-- Bank b. -/
def bankOf (s : State) (b : Nat) : EflBank := nth s.core.efl.banks b {}

theorem bankOf_modBank {f : EflBank → EflBank} (hb : b < s.core.efl.banks.length) : bankOf (modBank s b f) b = f (bankOf s b) :=
  nth_upd_same _ _ _ _ hb

theorem chOf_modCh {f : EflChan → EflChan} (hc : c < s.core.efl.chans.length) : chOf (modCh s c f) c = f (chOf s c) :=
  nth_upd_same _ _ _ _ hc

/-- The EFL block without its suspensions. -/
def eflWork (s : State) : EflSt := { s.core.efl with
  suspends := 0, banks := s.core.efl.banks.map fun k => { k with suspended := false } }

/-- The channels, the banks' operations, the log and the cells are the same in both states. -/
def SameWork (s₀ s : State) : Prop := eflWork s = eflWork s₀ ∧ s.flash = s₀.flash

theorem SameWork.refl (s : State) : SameWork s s := ⟨rfl, rfl⟩

theorem SameWork.trans (h : SameWork x y) (g : SameWork y s) : SameWork x s := ⟨g.1.trans h.1, g.2.trans h.2⟩

theorem SameWork.cond {p : Prop} [Decidable p] (hx : SameWork s₀ x) (hy : SameWork s₀ y) : SameWork s₀ (if p then x else y) := by
  split <;> assumption

theorem SameWork.whenS {p : Bool} {f : State → State} (h : SameWork s₀ s) (hf : SameWork s₀ (f s)) : SameWork s₀ (Machine.whenS p s f) := .cond hf h

theorem SameWork.of_same (h : SameWork s₀ s) (hefl : x.core.efl = s.core.efl) (hflash : x.flash = s.flash) : SameWork s₀ x :=
  ⟨(congrArg (fun e : EflSt => { e with suspends := 0, banks := e.banks.map fun k : EflBank => { k with suspended := false } }) hefl).trans h.1,
    hflash.trans h.2⟩

theorem SameWork.of_goes {ps : List Piece} (h : Goes ps s x) (hefl : .efl ∉ ps) (hflash : .flash ∉ ps) : SameWork s x :=
  (SameWork.refl s).of_same (h.same .efl hefl) (h.same .flash hflash)

theorem SameWork.get {β : Type} (h : SameWork x y) (f : EflSt → β) (hf : ∀ s, f s.core.efl = f (eflWork s) := by intros; rfl) :
    f y.core.efl = f x.core.efl := (hf y).trans ((congrArg f h.1).trans (hf x).symm)

theorem SameWork.chOf (h : SameWork x y) (c : Nat) : Machine.chOf y c = Machine.chOf x c := h.get fun e => nth e.chans c {}

theorem SameWork.logOf (h : SameWork x y) : Machine.logOf y = Machine.logOf x := h.get EflSt.log

/-- The banks run the same operations. -/
theorem SameWork.bankOf (h : SameWork x y) (b : Nat) :
    { Machine.bankOf y b with suspended := false } = { Machine.bankOf x b with suspended := false } := by
  have hmap (s : State) : { Machine.bankOf s b with suspended := false } = nth (eflWork s).banks b {} := by
    simp only [Machine.bankOf, nth, eflWork, List.getD_eq_getElem?_getD, List.getElem?_map]
    cases s.core.efl.banks[b]? <;> rfl
  exact (hmap y).trans ((congrArg (fun e : EflSt => nth e.banks b {}) h.1).trans (hmap x).symm)

theorem SameWork.bankChan (h : SameWork x y) (b : Nat) : (Machine.bankOf y b).chan = (Machine.bankOf x b).chan := (congrArg EflBank.chan (h.bankOf b) :)

theorem SameWork.bankLast (h : SameWork x y) (b : Nat) : (Machine.bankOf y b).last = (Machine.bankOf x b).last := (congrArg EflBank.last (h.bankOf b) :)

theorem sameWork_flashSuspend (s : State) : SameWork s (flashSuspend s) := by
  unfold flashSuspend
  refine .cond ⟨?_, rfl⟩ (.refl s)
  have hmap (l : List EflBank) : (upd l 0 fun k => { k with suspended := true }).map (fun k => { k with suspended := false }) =
      l.map fun k => { k with suspended := false } := by
    cases l <;> rfl
  exact congrArg (fun l => { s.core.efl with suspends := 0, banks := l }) (hmap s.core.efl.banks)

theorem SameWork.flashSuspend (h : SameWork s₀ s) : SameWork s₀ (Machine.flashSuspend s) := h.trans (sameWork_flashSuspend s)

theorem SameWork.opStarted (h : SameWork s₀ s) : SameWork s₀ (Machine.opStarted s b) := h.whenS h.flashSuspend

theorem SameWork.raise (h : SameWork s₀ s) {p n : Nat} : SameWork s₀ (Machine.raise s p n) := h.of_same rfl rfl

/-- What the end of an operation leaves of its channel and bank (11 R310). -/
theorem eflFinish_work {result : Nat} {warn : Bool} :
    SameWork (modCh (modBank s b fun k => { k with chan := none }) c fun k => { k with state := 3, result := if (chOf s c).dropped then 9 else result })
      (eflFinish s b c result warn) := by
  unfold eflFinish
  exact ((SameWork.refl _).whenS (SameWork.refl _).raise).whenS ((SameWork.refl _).whenS (SameWork.refl _).raise).raise.raise

/-- An operation that no reset has dropped raises EFL_DONE in its issuer (11 R310). -/
theorem eflFinish_pend {result : Nat} {warn : Bool} (hirq : s.core.irq.length = 4) (hq : (chOf s c).dropped = false) :
    bit (nth (eflFinish s b c result warn).core.irq (chOf s c).issuer.val {}).pend 29 = true := by
  unfold eflFinish
  extract_lets q s1 result' s2 s3
  have hp : q.issuer.val < s2.core.irq.length := (congrArg (q.issuer.val < ·) (show s2.core.irq.length = 4 from hirq)).mpr q.issuer.isLt
  have h3 : s3 = raise s2 q.issuer.val 29 := by
    show whenS (!q.dropped) s2 _ = _
    rw [hq]
    rfl
  rw [h3]
  have hraised : bit (nth (raise s2 q.issuer.val 29).core.irq q.issuer.val {}).pend 29 = true := raise_pend _ _ _ hp (by decide)
  unfold whenS
  split
  · exact ((Goes.refl [.irqPend] _).raise (by decide)).raise (by decide) |>.pend_of (by decide) hraised
  · exact hraised

/-- The channel that bank b takes next, in rotation (11 R308). -/
def eflNext (s : State) (b : Nat) : Option Nat := ((upto 10).map fun i => ((nth s.core.efl.banks b {}).last + 1 + i) % 10).find? (eflReady s b)

/-- Channel c has been taken by bank b. -/
def eflTaken (s : State) (b c : Nat) : State :=
  modCh (modBank s b fun k => { k with chan := some c, last := c }) c fun q =>
    { q with state := 2, course := (bankOf (modBank s b fun k => { k with chan := some c, last := c }) b).course
             reduced := reduced (modBank s b fun k => { k with chan := some c, last := c }) }

/-- The operation of channel c, whose checks have passed, runs in bank b. -/
def eflRun (s : State) (b c : Nat) : State :=
  let s := modCh s c (fun q => { q with phys := eflPhys s c q.addr })
  let q := chOf s c
  let early := if q.op = 2 then programEarly s q else 0
  let torn := if early = 4 then ((eflRows q).filter (fun r => (rowView s r).status == 2)).length else 0
  let s := if q.op = 2 then (eflGranules q).foldl (fun s g => bufTouch s (512 * g) 512) s else s
  let s := modCh s c (fun x => { x with
    early := early, tornRows := torn
    data := if q.op = 2 ∧ early = 0 then (eflGranules q).foldr (fun g acc => granuleBytes s g ++ acc) [] else [] })
  let s := if q.op = 8 then advStart s
    else if q.op = 9 then modLog s (fun l => { l with state := 4 }) else s
  let s := opStarted s b
  whenS ((q.op == 2 || q.op == 3) && early == 0 && c == 0 && sysRegion s (q.addr / 4096) == some 1) s wfRegionWritten

theorem eflStartOp_none (h : bankIdle s b = false ∨ eflNext s b = none) : eflStartOp s b = s := by
  unfold eflStartOp
  rcases h with h | h
  · rw [if_pos (show (!bankIdle s b) = true by rw [h]; rfl)]
  · split
    · rfl
    · rw [show List.find? _ _ = none from h]

theorem eflStartOp_some (hidle : bankIdle s b = true) (h : eflNext s b = some c) :
    eflStartOp s b =
      if !(eflFormOk (chOf (eflTaken s b c) c).op (chOf (eflTaken s b c) c).addr (chOf (eflTaken s b c) c).count (chOf (eflTaken s b c) c).granule &&
          eflRangeOk (eflTaken s b c) c (chOf (eflTaken s b c) c).op (chOf (eflTaken s b c) c).addr (chOf (eflTaken s b c) c).count) then
        eflFinish (eflTaken s b c) b c 1 false
      else if !(eflGranules (chOf (eflTaken s b c) c)).all (inQuota (eflTaken s b c) (chOf (eflTaken s b c) c).issuer.val) then
        eflFinish (eflTaken s b c) b c 2 false
      else if c = 9 ∧ (logOf (eflTaken s b c)).state = 5 ∧ (chOf (eflTaken s b c) c).op ≠ 9 then eflFinish (eflTaken s b c) b c 10 false
      else eflRun (eflTaken s b c) b c := by
  unfold eflStartOp
  rw [if_neg (show ¬(!bankIdle s b) = true by rw [hidle]; decide), show List.find? _ _ = some c from h]
  rfl

/-- The next channel is one of the ten. -/
theorem eflNext_lt (h : eflNext s b = some c) : c < 10 := by
  obtain ⟨i, -, rfl⟩ := List.mem_map.mp (List.mem_of_find?_eq_some (show List.find? _ _ = some c from h))
  exact Nat.mod_lt _ (by decide)

/-- The channel that a bank has taken keeps what it was given. -/
theorem eflTaken_chan (hc : c < s.core.efl.chans.length) :
    chOf (eflTaken s b c) c = { chOf s c with state := 2, course := (chOf (eflTaken s b c) c).course, reduced := reduced s } := by
  have h : chOf (eflTaken s b c) c = _ := chOf_modCh (s := modBank s b fun k => { k with chan := some c, last := c }) hc
  rw [h]
  rfl

/-- The start of an advance changes the log, and suspends a program or erase at most (11 Table 11-7). -/
theorem advStart_work (s : State) : ∃ f, SameWork (modLog s f) (advStart s) ∧ (f (logOf s)).state = 3 ∧ (f (logOf s)).phase = some .checkGap :=
  ⟨fun x => { x with
    state := 3, phase := some .checkGap, started := true, erases := 0
    source := if (logOf s).gap = 0 then logW s else (logOf s).gap - 1, swap := (nextRecord s).2.2 },
    (SameWork.refl _).opStarted, rfl, rfl⟩

/-- Channel c of s runs in bank b: it keeps what it was given, at its physical address; an ADVANCE starts. -/
structure Runs (s x : State) (b c : Nat) : Prop where
  phys : (chOf x c).phys = eflPhys s c (chOf s c).addr
  state : (chOf x c).state = (chOf s c).state
  op : (chOf x c).op = (chOf s c).op
  issuer : (chOf x c).issuer = (chOf s c).issuer
  reduced : (chOf x c).reduced = (chOf s c).reduced
  chan : (bankOf x b).chan = (bankOf s b).chan
  last : (bankOf x b).last = (bankOf s b).last
  flash : x.flash = s.flash
  advance : (chOf s c).op = 8 → (logOf x).state = 3 ∧ (logOf x).phase = some .checkGap

theorem runs_eflRun (hc : c < s.core.efl.chans.length) : Runs s (eflRun s b c) b c := by
  unfold eflRun
  extract_lets s1 q early torn s2 s3 s4 s5
  have hq : q = { chOf s c with phys := eflPhys s c (chOf s c).addr } := chOf_modCh hc
  have h2 : SameWork s1 s2 ∧ s2.core.efl = s1.core.efl := by
    have hgoes : Goes [.buf] s1 s2 := .cond (Goes.foldl (Goes.refl _ _) fun _ _ h => h.bufTouch (by decide)) (.refl _ _)
    exact ⟨.of_goes hgoes (by decide) (by decide), hgoes.same .efl (by decide)⟩
  have hc1 : c < s1.core.efl.chans.length := (congrArg (c < ·) (length_upd _ _ _)).mpr hc
  have h3 : chOf s3 c = { q with early := early, tornRows := torn, data := (chOf s3 c).data } := by
    have hlen : c < s2.core.efl.chans.length := h2.2.symm ▸ hc1
    rw [show chOf s3 c = _ from chOf_modCh hlen, show chOf s2 c = q from h2.1.chOf c]
  have hbank3 (b : Nat) : bankOf s3 b = bankOf s b :=
    show nth s2.core.efl.banks b {} = nth s1.core.efl.banks b {} from (congrArg (fun e : EflSt => nth e.banks b {}) h2.2 :)
  have hflash3 : s3.flash = s.flash := h2.1.2
  obtain ⟨f, h4, hadv⟩ : ∃ f, SameWork (modLog s3 f) s4 ∧ (q.op = 8 → (f (logOf s3)).state = 3 ∧ (f (logOf s3)).phase = some .checkGap) := by
    show ∃ f, SameWork (modLog s3 f) (if q.op = 8 then advStart s3 else if q.op = 9 then modLog s3 _ else s3) ∧ _
    by_cases h8 : q.op = 8
    · rw [if_pos h8]
      obtain ⟨f, hf, hlog⟩ := advStart_work s3
      exact ⟨f, hf, fun _ => hlog⟩
    · rw [if_neg h8]
      by_cases h9 : q.op = 9
      · rw [if_pos h9]
        exact ⟨_, .refl _, fun h => absurd h h8⟩
      · rw [if_neg h9]
        exact ⟨id, .refl _, fun h => absurd h h8⟩
  have h6 : SameWork (modLog s3 f) (whenS ((q.op == 2 || q.op == 3) && early == 0 && c == 0 && sysRegion s5 (q.addr / 4096) == some 1) s5 wfRegionWritten) := by
    refine (h4.trans (SameWork.refl s4).opStarted).trans ((SameWork.refl s5).whenS ?_)
    exact .of_goes ((Goes.refl [.pix, .epd] s5).wfRegionWritten (by decide) (by decide)) (by decide) (by decide)
  generalize whenS ((q.op == 2 || q.op == 3) && early == 0 && c == 0 && sysRegion s5 (q.addr / 4096) == some 1) s5 wfRegionWritten = z at h6 ⊢
  have hch : chOf z c = { q with early := early, tornRows := torn, data := (chOf s3 c).data } := (h6.chOf c).trans h3
  clear_value early torn s3
  refine ⟨?_, ?_, ?_, ?_, ?_, (h6.bankChan b).trans (congrArg EflBank.chan (hbank3 b)), (h6.bankLast b).trans (congrArg EflBank.last (hbank3 b)),
    h6.2.trans hflash3, fun h => ?_⟩
  case refine_6 =>
    rw [h6.logOf]
    exact hadv (by rw [hq]; exact h)
  all_goals rw [hch, hq]

/-- The three checks of a start see what the bank found (11 R308, R310). -/
theorem eflStartOp_checked (hidle : bankIdle s b = true) (h : eflNext s b = some c) (hc : c < s.core.efl.chans.length) :
    eflStartOp s b =
      if ¬(eflFormOk (chOf s c).op (chOf s c).addr (chOf s c).count (chOf s c).granule = true ∧
          eflRangeOk s c (chOf s c).op (chOf s c).addr (chOf s c).count = true) then eflFinish (eflTaken s b c) b c 1 false
      else if ¬(eflGranules (chOf s c)).all (inQuota s (chOf s c).issuer.val) = true then eflFinish (eflTaken s b c) b c 2 false
      else if c = 9 ∧ (logOf s).state = 5 ∧ (chOf s c).op ≠ 9 then eflFinish (eflTaken s b c) b c 10 false
      else eflRun (eflTaken s b c) b c := by
  have hrange (op addr count : Nat) : eflRangeOk (eflTaken s b c) c op addr count = eflRangeOk s c op addr count := rfl
  have hquota (p : Nat) : inQuota (eflTaken s b c) p = inQuota s p := rfl
  have hlog : logOf (eflTaken s b c) = logOf s := rfl
  rw [eflStartOp_some hidle h, eflTaken_chan hc]
  simp only [hrange, hquota, hlog, eflGranules, Bool.not_eq_true', Bool.and_eq_false_iff, not_and_or, Bool.not_eq_true]

/-- An operation that ends at its start leaves its bank idle and its channel DONE. -/
theorem eflRefused {result : Nat} (hb : b < s.core.efl.banks.length) (hc : c < s.core.efl.chans.length) (hirq : s.core.irq.length = 4) :
    (eflFinish (eflTaken s b c) b c result false).flash = s.flash ∧
    (bankOf (eflFinish (eflTaken s b c) b c result false) b).last = c ∧
    (bankOf (eflFinish (eflTaken s b c) b c result false) b).chan = none ∧
    (chOf (eflFinish (eflTaken s b c) b c result false) c).state = 3 ∧
    ((chOf s c).dropped = false → (chOf (eflFinish (eflTaken s b c) b c result false) c).result = result ∧
      bit (nth (eflFinish (eflTaken s b c) b c result false).core.irq (chOf s c).issuer.val {}).pend 29 = true) := by
  have hq := eflTaken_chan (s := s) (b := b) hc
  have hbank : bankOf (eflTaken s b c) b = { bankOf s b with chan := some c, last := c } := bankOf_modBank hb
  have hb' : b < (eflTaken s b c).core.efl.banks.length := (congrArg (b < ·) (length_upd _ _ _)).mpr hb
  have hc' : c < (eflTaken s b c).core.efl.chans.length := (congrArg (c < ·) (length_upd _ _ _)).mpr hc
  have hirq' : (eflTaken s b c).core.irq.length = 4 := hirq
  have hflash : (eflTaken s b c).flash = s.flash := rfl
  generalize eflTaken s b c = x at *
  have hwork := eflFinish_work (s := x) (b := b) (c := c) (result := result) (warn := false)
  have hpend := eflFinish_pend (s := x) (b := b) (c := c) (result := result) (warn := false) hirq'
  have hbankEnd := bankOf_modBank (s := x) (f := fun k => { k with chan := none }) hb'
  have hchanEnd := chOf_modCh (s := modBank x b fun k => { k with chan := none })
    (f := fun k => { k with state := 3, result := if (chOf x c).dropped then 9 else result }) hc'
  refine ⟨hwork.2.trans hflash, ?_, ?_, ?_, fun hd => ⟨?_, ?_⟩⟩
  · exact (hwork.bankLast b).trans ((congrArg EflBank.last hbankEnd).trans (congrArg EflBank.last hbank))
  · exact (hwork.bankChan b).trans (congrArg EflBank.chan hbankEnd)
  · exact (congrArg EflChan.state (hwork.chOf c)).trans (congrArg EflChan.state hchanEnd)
  · refine (congrArg EflChan.result (hwork.chOf c)).trans ((congrArg EflChan.result hchanEnd).trans ?_)
    rw [hq, hd]
    rfl
  · rw [hq] at hpend
    exact hpend hd

/-- Settles O50: the operation's checks see the state that the bank found, and its run keeps what the channel was given. -/
theorem flashOperationsStartInRotation : Obligations.FlashOperationsStartInRotation := by
  intro s b hup hdue hbanks hchans hirq order
  have hgoes : Goes [.irqPend, .buf, .epd, .pix, .efl] s (eflStartOp s b.val) :=
    (Goes.refl _ s).eflStartOp (by decide) (by decide) (by decide) (by decide) (by decide)
  have hexec : exec (.eflOpStart b) s = .next (settle (eflStartOp s b.val)) := by
    refine (instant_core (fun s => eflCourse (eflStartOp s b.val)) hup).trans ?_
    rw [eflCourse, hgoes.courseDue_same (by decide), hdue]
    rfl
  refine ⟨fun h => ?_, fun hidle c hfind => ?_⟩
  · rw [hexec, eflStartOp_none h]
  · intro q form quota broken
    have hnext : eflNext s b.val = some c := hfind
    have hc : c < s.core.efl.chans.length := by rw [hchans]; exact eflNext_lt hnext
    have hb : b.val < s.core.efl.banks.length := by rw [hbanks]; exact b.isLt
    have hop : eflStartOp s b.val = if ¬form then eflFinish (eflTaken s b.val c) b.val c 1 false
      else if ¬quota then eflFinish (eflTaken s b.val c) b.val c 2 false
      else if broken then eflFinish (eflTaken s b.val c) b.val c 10 false else eflRun (eflTaken s b.val c) b.val c := eflStartOp_checked hidle hnext hc
    have hcases : (∃ result, eflStartOp s b.val = eflFinish (eflTaken s b.val c) b.val c result false ∧ (¬form ∨ ¬quota ∨ broken) ∧
        (if ¬form then 1 else if ¬quota then 2 else 10) = result) ∨
        (form ∧ quota ∧ ¬broken ∧ eflStartOp s b.val = eflRun (eflTaken s b.val c) b.val c) := by
      by_cases hf : form
      · by_cases hqu : quota
        · by_cases hbr : broken
          · exact .inl ⟨10, by rw [hop, if_neg (not_not.mpr hf), if_neg (not_not.mpr hqu), if_pos hbr], .inr (.inr hbr),
              by rw [if_neg (not_not.mpr hf), if_neg (not_not.mpr hqu)]⟩
          · exact .inr ⟨hf, hqu, hbr, by rw [hop, if_neg (not_not.mpr hf), if_neg (not_not.mpr hqu), if_neg hbr]⟩
        · exact .inl ⟨2, by rw [hop, if_neg (not_not.mpr hf), if_pos hqu], .inr (.inl hqu), by rw [if_neg (not_not.mpr hf), if_pos hqu]⟩
      · exact .inl ⟨1, by rw [hop, if_pos hf], .inl hf, if_pos hf⟩
    rcases hcases with ⟨result, h, hwhy, hcode⟩ | ⟨hf, hqu, hbr, h⟩
    · obtain ⟨hflash, hlast, hchan, hstate, hresult⟩ := eflRefused (result := result) hb hc hirq
      rw [← h] at hflash hlast hchan hstate hresult
      exact ⟨_, hexec, hflash, hlast, fun _ => ⟨hchan, hstate, fun hd => ⟨(hresult hd).1.trans hcode.symm,
        pendRises_settle _ _ _ (hresult hd).2⟩⟩, fun hf hqu hbr => absurd hwhy (by simp only [not_or, not_not]; exact ⟨hf, hqu, hbr⟩)⟩
    · have hruns := runs_eflRun (s := eflTaken s b.val c) (b := b.val) (c := c) ((congrArg (c < ·) (length_upd _ _ _)).mpr hc)
      rw [← h] at hruns
      have hq := eflTaken_chan (s := s) (b := b.val) hc
      have hbank : bankOf (eflTaken s b.val c) b.val = { bankOf s b.val with chan := some c, last := c } := bankOf_modBank hb
      exact ⟨_, hexec, hruns.flash, hruns.last.trans (congrArg EflBank.last hbank),
        fun hbad => absurd hbad (by simp only [not_or, not_not]; exact ⟨hf, hqu, hbr⟩),
        fun _ _ _ => ⟨hruns.chan.trans (congrArg EflBank.chan hbank),
          hruns.state.trans (by rw [hq]), hruns.phys.trans (by rw [hq]; rfl), hruns.op.trans (by rw [hq]), hruns.issuer.trans (by rw [hq]),
          hruns.reduced.trans (by rw [hq]), fun h8 => hruns.advance (by rw [hq]; exact h8)⟩⟩

end Sys2Proof.Machine
end

section
/-! SUPPORT. Chapter 11: what an erase, a program and a margin read leave of each row (11 R300-R301, R316-R319). -/

set_option Elab.async false

namespace Sys2Proof.Machine

variable {s t x : State} {f g k : FlashSt} {r lo hi row : Nat} {obs : EflObs}

/-- The flash holds the same in row r: cells, marker, uncorrectable words, and what an interruption or a failed program left. -/
structure SameRow (f g : FlashSt) (r : Nat) : Prop where
  undef : g.undef.elem r = f.undef.elem r
  unmarked : g.unmarked.elem r = f.unmarked.elem r
  marker : sget (fun _ => 0xFFFF) g.markers r = sget (fun _ => 0xFFFF) f.markers r
  bad : ∀ w < 16, g.bad.elem (16 * r + w) = f.bad.elem (16 * r + w)
  cells : ∀ j < 256, sget flashErased g.mem (256 * r + j) = sget flashErased f.mem (256 * r + j)

theorem SameRow.refl (f : FlashSt) (r : Nat) : SameRow f f r := ⟨rfl, rfl, rfl, fun _ _ => rfl, fun _ _ => rfl⟩

theorem SameRow.trans (h : SameRow f g r) (h' : SameRow g k r) : SameRow f k r :=
  ⟨h'.undef.trans h.undef, h'.unmarked.trans h.unmarked, h'.marker.trans h.marker, fun w hw => (h'.bad w hw).trans (h.bad w hw),
    fun j hj => (h'.cells j hj).trans (h.cells j hj)⟩

/-- The row's bytes, as the cells hold them. -/
def rowCells (f : FlashSt) (r : Nat) : List Byte := sgetRun flashErased f.mem (256 * r) 256

theorem SameRow.rowCells (h : SameRow f g r) : rowCells g r = Machine.rowCells f r := by
  unfold Machine.rowCells
  rw [sgetRun_eq_map, sgetRun_eq_map]
  exact List.map_congr_left fun j hj => h.cells j (List.mem_range.mp hj)

/-- What a row that something fixes shows. -/
def fixedRow (f : FlashSt) (r : Nat) : RowView :=
  let bad := (upto 16).filter fun w => f.bad.elem (16 * r + w)
  { status := markStatus (sget (fun _ => 0xFFFF) f.markers r) ((rowCells f r).all (fun b => b == 0xFF) && bad.isEmpty)
    bytes := zeroWords (rowCells f r) bad, bad := bad }

theorem rowView_of_fixed (h : rowOpen s r = false) : rowView s r = fixedRow s.flash r := by
  unfold rowView
  rw [if_neg (by rw [h]; decide)]
  rfl

theorem SameRow.fixedRow (h : SameRow f g r) : fixedRow g r = Machine.fixedRow f r := by
  have hbad : ((upto 16).filter fun w => g.bad.elem (16 * r + w)) = (upto 16).filter fun w => f.bad.elem (16 * r + w) :=
    List.filter_congr fun w hw => h.bad w (List.mem_range.mp hw)
  unfold Machine.fixedRow
  rw [hbad, h.marker, h.rowCells]

theorem SameRow.rowOpen (h : SameRow s.flash t.flash r) : rowOpen t r = Machine.rowOpen s r := by
  unfold Machine.rowOpen
  rw [h.undef, h.unmarked]

/-- In one instant a row that holds the same shows the same. -/
theorem SameRow.rowView (h : SameRow s.flash t.flash r) (hctr : t.freeCtr = s.freeCtr) : rowView t r = Machine.rowView s r := by
  cases ho : Machine.rowOpen s r with
  | false => rw [rowView_of_fixed ho, rowView_of_fixed (h.rowOpen.trans ho), h.fixedRow]
  | true =>
    unfold Machine.rowView free
    rw [if_pos ho, if_pos (h.rowOpen.trans ho), hctr, h.undef]

/-- A row that something fixes shows the same in a later instant too. -/
theorem SameRow.rowView_fixed (h : SameRow s.flash t.flash r) (ho : Machine.rowOpen s r = false) : Machine.rowView t r = Machine.rowView s r := by
  rw [rowView_of_fixed ho, rowView_of_fixed (h.rowOpen.trans ho), h.fixedRow]

/-- Row r is erased, and something fixes it. -/
structure RowBlank (f : FlashSt) (r : Nat) : Prop where
  undef : f.undef.elem r = false
  unmarked : f.unmarked.elem r = false
  marker : sget (fun _ => 0xFFFF) f.markers r = 0xFFFF
  bad : ∀ w < 16, f.bad.elem (16 * r + w) = false
  cells : ∀ j < 256, sget flashErased f.mem (256 * r + j) = 0xFF

theorem SameRow.blank (h : SameRow f g r) (hb : RowBlank f r) : RowBlank g r :=
  ⟨h.undef.trans hb.undef, h.unmarked.trans hb.unmarked, h.marker.trans hb.marker, fun w hw => (h.bad w hw).trans (hb.bad w hw),
    fun j hj => (h.cells j hj).trans (hb.cells j hj)⟩

theorem RowBlank.status (h : RowBlank s.flash r) : (rowView s r).status = 1 := by
  have ho : rowOpen s r = false := by rw [rowOpen, h.undef, h.unmarked]; rfl
  have hbad : ((upto 16).filter fun w => s.flash.bad.elem (16 * r + w)) = [] :=
    List.filter_eq_nil_iff.mpr fun w hw => by rw [h.bad w (List.mem_range.mp hw)]; decide
  have hcells : (rowCells s.flash r).all (fun b => b == 0xFF) = true := by
    rw [rowCells, sgetRun_eq_map, List.all_eq_true]
    intro b hb
    obtain ⟨j, hj, rfl⟩ := List.mem_map.mp hb
    rw [h.cells j (List.mem_range.mp hj)]
    rfl
  rw [rowView_of_fixed ho, fixedRow, hbad, hcells, h.marker]
  rfl

theorem elem_filter {l : List Nat} {p : Nat → Bool} (a : Nat) : (l.filter p).elem a = (l.elem a && p a) := by
  rw [Bool.eq_iff_iff, Bool.and_eq_true, List.elem_iff, List.elem_iff, List.mem_filter]

theorem elem_insertNat {l : List Nat} {k : Nat} (a : Nat) : (insertNat k l).elem a = (a == k || l.elem a) := by
  have h : ∀ l : List Nat, a ∈ insertNat k l ↔ a = k ∨ a ∈ l := by
    intro l
    induction l with
    | nil => exact List.mem_cons
    | cons b l ih =>
      unfold insertNat
      split
      · exact List.mem_cons
      · split
        next hkb => rw [hkb, List.mem_cons, ← or_assoc, or_self]
        next => rw [List.mem_cons, ih, List.mem_cons, or_left_comm]
  rw [Bool.eq_iff_iff, Bool.or_eq_true, List.elem_iff, List.elem_iff, h, beq_iff_eq]

/-- An erase leaves its rows blank. -/
theorem flashErase_blank (hlo : lo ≤ r) (hhi : r < hi) : RowBlank (flashErase s lo hi).flash r := by
  refine ⟨?_, ?_, sget_sclear_in _ _ hlo hhi, fun w hw => ?_, fun j hj => sget_sclear_in _ _ (by omega) (by omega)⟩
  · refine (elem_filter _).trans ?_
    rw [decide_eq_false (by omega), decide_eq_false (by omega), Bool.or_false, Bool.and_false]
  · refine (elem_filter _).trans ?_
    rw [decide_eq_false (by omega), decide_eq_false (by omega), Bool.or_false, Bool.and_false]
  · refine (elem_filter _).trans ?_
    rw [decide_eq_false (by omega), decide_eq_false (by omega), Bool.or_false, Bool.and_false]

/-- An erase leaves the other rows. -/
theorem flashErase_out (h : r < lo ∨ hi ≤ r) : SameRow s.flash (flashErase s lo hi).flash r := by
  have hkeep : (decide (r < lo) || decide (hi ≤ r)) = true := by rw [Bool.or_eq_true, decide_eq_true_eq, decide_eq_true_eq]; exact h
  refine ⟨?_, ?_, sget_sclear_out _ _ h, fun w hw => ?_, fun j hj => sget_sclear_out _ _ (by omega)⟩
  · refine (elem_filter _).trans ?_
    rw [hkeep, Bool.and_true]
  · refine (elem_filter _).trans ?_
    rw [hkeep, Bool.and_true]
  · refine (elem_filter _).trans ?_
    rw [show (16 * r + w) / 16 = r by omega, hkeep, Bool.and_true]

theorem flashUndef_out {rows : List Nat} (h : r ∉ rows) : SameRow s.flash (flashUndef s rows).flash r := by
  refine ⟨?_, rfl, rfl, fun _ _ => rfl, fun _ _ => rfl⟩
  show (rows.foldl (fun l r => insertNat r l) s.flash.undef).elem r = s.flash.undef.elem r
  generalize s.flash.undef = l
  induction rows generalizing l with
  | nil => rfl
  | cons a rows ih =>
    obtain ⟨hne, hrows⟩ := not_or.mp (mt List.mem_cons.mpr h)
    rw [List.foldl_cons, ih hrows, elem_insertNat, beq_eq_false_iff_ne.mpr hne, Bool.false_or]

/-- An erase of whole sectors leaves the rows of the others, failed or not. -/
theorem eraseSectors_out {k n : Nat} {fail : Bool} (h : r < 16 * k ∨ 16 * (k + n) ≤ r) : SameRow s.flash (eraseSectors s k n fail).flash r := by
  unfold eraseSectors
  dsimp only
  split
  · refine (flashErase_out h).trans (flashUndef_out fun hmem => ?_)
    obtain ⟨i, hi, rfl⟩ := List.mem_map.mp hmem
    have hi := List.mem_range.mp hi
    omega
  · exact flashErase_out h

theorem eraseSectors_blank {k n : Nat} (hlo : 16 * k ≤ r) (hhi : r < 16 * (k + n)) : RowBlank (eraseSectors s k n false).flash r :=
  flashErase_blank hlo hhi

/-- A sector that an erase left is blank row by row. -/
theorem eraseSectors_sector {k : Nat} (i : Fin 16) : RowBlank (eraseSectors s k 1 false).flash (16 * k + i.val) :=
  eraseSectors_blank (by omega) (by omega)

theorem flashClean_out {rows : List Nat} (h : r ∉ rows) : SameRow s.flash (flashClean s rows).flash r := by
  unfold flashClean
  induction rows generalizing s with
  | nil => exact .refl _ _
  | cons a rows ih =>
    obtain ⟨hne, hrows⟩ := not_or.mp (mt List.mem_cons.mpr h)
    rw [List.foldl_cons]
    split
    · exact (flashErase_out (by omega)).trans (ih hrows)
    · exact ih hrows

/-- A margin read leaves the flash where every row is fixed. -/
theorem flashClean_of_fixed {rows : List Nat} (h : ∀ r ∈ rows, rowOpen s r = false) : flashClean s rows = s := by
  unfold flashClean
  induction rows with
  | nil => rfl
  | cons a rows ih =>
    rw [List.foldl_cons, if_neg (by rw [h a List.mem_cons_self]; decide), ih fun r hr => h r (List.mem_cons_of_mem _ hr)]

/-- A row that is fixed stays so. -/
theorem rowOpen_flashErase (h : rowOpen s r = false) : rowOpen (flashErase s lo hi) r = false := by
  have hopen (l : List Nat) (p : Nat → Bool) (hl : l.elem r = false) : (l.filter p).elem r = false := by rw [elem_filter, hl, Bool.false_and]
  obtain ⟨h1, h2⟩ := Bool.or_eq_false_iff.mp h
  exact Bool.or_eq_false_iff.mpr ⟨hopen _ _ h1, hopen _ _ h2⟩

theorem rowOpen_flashClean_of_fixed {rows : List Nat} (h : rowOpen s r = false) : rowOpen (flashClean s rows) r = false := by
  unfold flashClean
  induction rows generalizing s with
  | nil => exact h
  | cons a rows ih =>
    rw [List.foldl_cons]
    split
    · exact ih (rowOpen_flashErase h)
    · exact ih h

/-- A margin read fixes each row without a failing bit. -/
theorem rowOpen_flashClean {rows : List Nat} (h : r ∈ rows) : rowOpen (flashClean s rows) r = false := by
  unfold flashClean
  induction rows generalizing s with
  | nil => nomatch h
  | cons a rows ih =>
    rw [List.foldl_cons]
    rcases List.mem_cons.mp h with rfl | hr
    · refine rowOpen_flashClean_of_fixed (rows := rows) ?_
      cases ho : rowOpen s r with
      | true =>
        have hblank := flashErase_blank (s := s) (lo := r) (hi := r + 1) le_rfl (Nat.lt_succ_self r)
        rw [if_pos rfl, rowOpen, hblank.undef, hblank.unmarked]
        rfl
      | false => rwa [if_neg (by decide)]
    · exact ih hr

/-- A store of a value that an unlisted key does not hold reads as that value. -/
theorem sget_sset_of_ne {α : Type} [DecidableEq α] {d : Nat → α} {k : Nat} {v : α} (hv : v ≠ d k) (m : List (Nat × α)) :
    sget d (sset d m k v) k = v := by
  induction m with
  | nil => simp [sset, hv, sget]
  | cons e m ih =>
    unfold sset
    rw [if_neg hv, if_neg hv]
    split
    · simp [sget]
    next hlt =>
      split
      · simp [sget]
      next hne =>
        rw [sget, if_neg fun h => hne h.symm, ih]

/-- The rows of a list are programmed in order from index n, up to a row that fails. -/
def programFrom (s : State) (row n : Nat) (chunks : List (Option (List Byte))) (fail : Option Nat) : State :=
  (chunks.zipIdx n).foldl (fun s e =>
    match e.1 with
    | none => s
    | some bs =>
      match fail with
      | some k => if e.2 < k then flashProgramRow s (row + e.2) bs else if e.2 = k then flashUnmark s (row + e.2) else s
      | none => flashProgramRow s (row + e.2) bs) s

theorem programRows_eq (s : State) (row : Nat) (chunks : List (Option (List Byte))) (fail : Option Nat) :
    programRows s row chunks fail = programFrom s row 0 chunks fail := rfl

/-- One row of a program. -/
def programOne (s : State) (row n : Nat) (chunk : Option (List Byte)) (fail : Option Nat) : State :=
  match chunk with
  | none => s
  | some bs =>
    match fail with
    | some k => if n < k then flashProgramRow s (row + n) bs else if n = k then flashUnmark s (row + n) else s
    | none => flashProgramRow s (row + n) bs

theorem programFrom_cons (s : State) (row n : Nat) (c : Option (List Byte)) (chunks : List (Option (List Byte))) (fail : Option Nat) :
    programFrom s row n (c :: chunks) fail = programFrom (programOne s row n c fail) row (n + 1) chunks fail := rfl

/-- Row n of a program lies before the one that fails. -/
def beforeFail (fail : Option Nat) (n : Nat) : Prop := ∀ k, fail = some k → n < k

/-- Row r holds the bytes, and its marker is committed. -/
def RowHolds (f : FlashSt) (r : Nat) (bs : List Byte) : Prop := rowCells f r = bs ∧ sget (fun _ => 0xFFFF) f.markers r = 0x3C5A

/-- Row r's cells and marker are the same. -/
def SameStored (f g : FlashSt) (r : Nat) : Prop :=
  sget (fun _ => 0xFFFF) g.markers r = sget (fun _ => 0xFFFF) f.markers r ∧
  ∀ j < 256, sget flashErased g.mem (256 * r + j) = sget flashErased f.mem (256 * r + j)

theorem SameStored.trans (h : SameStored f g r) (h' : SameStored g k r) : SameStored f k r :=
  ⟨h'.1.trans h.1, fun j hj => (h'.2 j hj).trans (h.2 j hj)⟩

theorem SameStored.holds {bs : List Byte} (h : SameStored f g r) (hr : RowHolds f r bs) : RowHolds g r bs := by
  refine ⟨?_, h.1.trans hr.2⟩
  rw [← hr.1]
  unfold rowCells
  rw [sgetRun_eq_map, sgetRun_eq_map]
  exact List.map_congr_left fun j hj => h.2 j (List.mem_range.mp hj)

/-- What a run of stores has written is read back. -/
theorem sgetRun_ssetRun {α : Type} [DecidableEq α] {d : Nat → α} {m : List (Nat × α)} (a : Nat) (vs : List α) (hwf : swf d m = true) :
    sgetRun d (ssetRun d m a vs) a vs.length = vs := by
  rw [sgetRun_eq_map, upto]
  refine List.ext_getElem (by rw [List.length_map]; exact List.length_range) fun i hi hi' => ?_
  rw [List.getElem_map, List.getElem_range, sget_ssetRun_in d vs m a i hwf hi',
    List.getD_eq_getElem?_getD, List.getElem?_eq_getElem hi']
  rfl

/-- One row is programmed: it holds its bytes, and the others stay. -/
theorem flashProgramRow_holds {bs : List Byte} (hwf : swf flashErased s.flash.mem = true) (hlen : bs.length = 256) :
    RowHolds (flashProgramRow s row bs).flash row bs :=
  ⟨(congrArg (sgetRun flashErased _ _) hlen.symm).trans (sgetRun_ssetRun _ bs hwf), sget_sset_of_ne (by decide) _⟩

theorem flashProgramRow_other {bs : List Byte} (hlen : bs.length = 256) (h : r ≠ row) : SameStored s.flash (flashProgramRow s row bs).flash r :=
  ⟨sget_sset_ne _ _ _ _ _ h, fun j hj => sget_ssetRun_out _ _ _ _ _ (by omega)⟩

section Programs

variable {n m : Nat} {c : Option (List Byte)} {chunks : List (Option (List Byte))} {fail : Option Nat} {bs : List Byte}

theorem beforeFail_or (fail : Option Nat) (n : Nat) : beforeFail fail n ∨ ∃ k, fail = some k ∧ k ≤ n := by
  cases fail with
  | none => exact .inl fun _ h => nomatch h
  | some k => exact (lt_or_ge n k).imp (fun h j hj => Option.some.inj hj ▸ h) fun h => ⟨k, rfl, h⟩

theorem programOne_before (h : beforeFail fail n) : programOne s row n (some bs) fail = flashProgramRow s (row + n) bs := by
  cases fail with
  | none => rfl
  | some k => exact if_pos (h k rfl)

theorem programOne_fails : programOne s row n (some bs) (some n) = flashUnmark s (row + n) := by
  show (if n < n then _ else if n = n then _ else _) = _
  rw [if_neg (lt_irrefl n), if_pos rfl]

/-- A row's program stores nothing of another row, and nothing at all from the failing row on. -/
theorem programOne_stored (hlen : ∀ bs, c = some bs → bs.length = 256) (h : r ≠ row + n ∨ ¬beforeFail fail n) :
    SameStored s.flash (programOne s row n c fail).flash r := by
  cases c with
  | none => exact ⟨rfl, fun _ _ => rfl⟩
  | some bs =>
    by_cases hb : beforeFail fail n
    · rw [programOne_before hb]
      exact flashProgramRow_other (hlen bs rfl) (h.resolve_right (not_not.mpr hb))
    · obtain ⟨k, rfl, hk⟩ := (beforeFail_or fail n).resolve_left hb
      show SameStored s.flash (if n < k then _ else if n = k then _ else s : State).flash r
      rw [if_neg (by omega)]
      split
      · exact ⟨rfl, fun _ _ => rfl⟩
      · exact ⟨rfl, fun _ _ => rfl⟩

theorem swf_programOne (hwf : swf flashErased s.flash.mem = true) : swf flashErased (programOne s row n c fail).flash.mem = true := by
  unfold programOne
  split
  · exact hwf
  · split
    · split
      · exact swf_ssetRun _ _ _ _ hwf
      · split
        · exact hwf
        · exact hwf
    · exact swf_ssetRun _ _ _ _ hwf

theorem undef_programOne : (programOne s row n c fail).flash.undef = s.flash.undef := by
  unfold programOne
  split
  · rfl
  · split
    · split
      · rfl
      · split <;> rfl
    · rfl

/-- A row whose program has failed stays without its marker. -/
theorem unmarked_programOne {k : Nat} (h : s.flash.unmarked.elem (row + k) = true) :
    (programOne s row n c (some k)).flash.unmarked.elem (row + k) = true := by
  unfold programOne
  cases c with
  | none => exact h
  | some bs =>
    dsimp only
    split
    next hlt =>
      refine (elem_filter _).trans ?_
      rw [h, Bool.true_and, bne_iff_ne]
      omega
    next =>
      split
      · refine (elem_insertNat _).trans ?_
        rw [h, Bool.or_true]
      · exact h

theorem undef_programFrom : (programFrom s row n chunks fail).flash.undef = s.flash.undef := by
  induction chunks generalizing s n with
  | nil => rfl
  | cons c chunks ih => exact ih.trans undef_programOne

/-- Rows outside the chunks, and those from the failing one on, keep their cells and markers. -/
theorem programFrom_stored (hlen : ∀ bs, some bs ∈ chunks → bs.length = 256)
    (h : ∀ i, n ≤ i → i < n + chunks.length → r = row + i → ¬beforeFail fail i) : SameStored s.flash (programFrom s row n chunks fail).flash r := by
  induction chunks generalizing s n with
  | nil => exact ⟨rfl, fun _ _ => rfl⟩
  | cons c chunks ih =>
    have hone : r ≠ row + n ∨ ¬beforeFail fail n := by
      by_cases hr : r = row + n
      · exact .inr (h n le_rfl (by rw [List.length_cons]; omega) hr)
      · exact .inl hr
    refine (programOne_stored (fun bs hc => hlen bs (hc ▸ List.mem_cons_self)) hone).trans (ih (fun bs hbs => hlen bs (List.mem_cons_of_mem _ hbs)) ?_)
    exact fun i hi hlt => h i (by omega) (by rw [List.length_cons]; omega)

theorem unmarked_programFrom {k : Nat} (h : s.flash.unmarked.elem (row + k) = true) :
    (programFrom s row n chunks (some k)).flash.unmarked.elem (row + k) = true := by
  induction chunks generalizing s n with
  | nil => exact h
  | cons c chunks ih => exact ih (unmarked_programOne h)

/-- Each chunk before the failing row is in its row. -/
theorem programFrom_holds (hwf : swf flashErased s.flash.mem = true) (hlen : ∀ bs, some bs ∈ chunks → bs.length = 256) {i : Nat}
    (hi : chunks[i]? = some (some bs)) (hb : beforeFail fail (n + i)) : RowHolds (programFrom s row n chunks fail).flash (row + (n + i)) bs := by
  induction chunks generalizing s n i with
  | nil => nomatch hi
  | cons c chunks ih =>
    cases i with
    | zero =>
      obtain rfl : c = some bs := Option.some.inj hi
      rw [programFrom_cons, Nat.add_zero] at *
      refine SameStored.holds (programFrom_stored (fun bs hbs => hlen bs (List.mem_cons_of_mem _ hbs)) fun j hj hlt hr => ?_) ?_
      · omega
      · rw [programOne_before hb]
        exact flashProgramRow_holds hwf (hlen bs List.mem_cons_self)
    | succ i =>
      rw [show n + (i + 1) = n + 1 + i by omega] at hb ⊢
      exact ih (swf_programOne hwf) (fun bs hbs => hlen bs (List.mem_cons_of_mem _ hbs)) hi hb

/-- The row that fails its verify is left without its marker. -/
theorem programFrom_unmarked {k i : Nat} (hi : chunks[i]? = some (some bs)) (hk : k = n + i) :
    (programFrom s row n chunks (some k)).flash.unmarked.elem (row + k) = true := by
  induction chunks generalizing s n i with
  | nil => nomatch hi
  | cons c chunks ih =>
    cases i with
    | zero =>
      obtain rfl : c = some bs := Option.some.inj hi
      obtain rfl : k = n := hk
      rw [programFrom_cons, programOne_fails]
      exact unmarked_programFrom ((elem_insertNat _).trans (by rw [beq_self_eq_true, Bool.true_or]))
    | succ i => exact ih (i := i) hi (by omega)

end Programs

/-- A row without its marker that no interruption has left shows as not PROGRAMMED (11 R300). -/
theorem rowView_unmarked (hun : s.flash.unmarked.elem r = true) (hundef : s.flash.undef.elem r = false) : (rowView s r).status ≠ 0 := by
  unfold rowView
  rw [if_pos (show rowOpen s r = true by rw [rowOpen, hun, Bool.or_true])]
  dsimp only
  split
  next h => exact absurd (hundef.symm.trans h) (by decide)
  next =>
    split
    · exact Nat.one_ne_zero
    · exact (Nat.add_pos_left Nat.one_pos _).ne'

end Sys2Proof.Machine
end

section
/-! PROOFS. Chapter 11: the advance of the rotating log, phase by phase, and its recovery (11 R320-R324, Table 11-7). -/

set_option Elab.async false

namespace Sys2Proof.Machine

variable {s x y : State} {obs : EflObs} {ph : AdvPhase} {result : Nat}

theorem nmax_pos {a b : Nat} : 0 < nmax a b ↔ a ≠ 0 ∨ 0 < b := by
  unfold nmax
  split <;> omega

theorem listMax_foldl_le (l : List Nat) : ∀ a, a ≤ l.foldl nmax a ∧ ∀ m ∈ l, m ≤ l.foldl nmax a := by
  have hle (a b : Nat) : a ≤ nmax a b ∧ b ≤ nmax a b := by
    unfold nmax
    split <;> omega
  induction l with
  | nil => exact fun a => ⟨le_rfl, fun m hm => nomatch hm⟩
  | cons b l ih =>
    intro a
    obtain ⟨hacc, hall⟩ := ih (nmax a b)
    refine ⟨(hle a b).1.trans hacc, fun m hm => ?_⟩
    rcases List.mem_cons.mp hm with rfl | hm
    · exact (hle a m).2.trans hacc
    · exact hall m hm

/-- No element exceeds the largest. -/
theorem le_listMax {l : List Nat} {m : Nat} (h : m ∈ l) : m ≤ listMax l := (listMax_foldl_le l 0).2 m h

/-- The largest of a list is 0 or one of its elements. -/
theorem listMax_mem (l : List Nat) : listMax l = 0 ∨ listMax l ∈ l := by
  have h : ∀ (l : List Nat) a, l.foldl nmax a = a ∨ l.foldl nmax a ∈ l := by
    intro l
    induction l with
    | nil => exact fun a => .inl rfl
    | cons b l ih =>
      intro a
      rw [List.foldl_cons]
      rcases ih (nmax a b) with h | h
      · rw [h]
        unfold nmax
        split
        · exact .inr List.mem_cons_self
        · exact .inl rfl
      · exact .inr (List.mem_cons_of_mem _ h)
  exact h l 0

theorem listMax_pos {l : List Nat} : 0 < listMax l ↔ ∃ m ∈ l, m ≠ 0 := by
  refine ⟨fun h => ?_, fun ⟨m, hm, hne⟩ => lt_of_lt_of_le (Nat.pos_of_ne_zero hne) (le_listMax hm)⟩
  rcases listMax_mem l with h0 | hmem
  · omega
  · exact ⟨_, hmem, by omega⟩

/-- MARGIN_EV counts at least the data bits that are 0 (11 R318). -/
theorem marginCounts_ev {row n : Nat} : marginCounts s false obs row n = (upto n).map fun i => nmax (nth obs.margin i 0) (rowZeros s (row + i)) := rfl

/-- The gap check finds a failing bit. -/
theorem gapDirty_iff : gapDirty s obs = true ↔
    ∃ i : Fin 16, nth obs.margin i.val 0 ≠ 0 ∨ 0 < rowZeros s (16 * ((logOf s).base + 2 + (logOf s).gap) + i.val) := by
  rw [gapDirty, decide_eq_true_eq, listMax_pos, marginCounts_ev]
  constructor
  · rintro ⟨m, hm, hne⟩
    obtain ⟨i, hi, rfl⟩ := List.mem_map.mp hm
    exact ⟨⟨i, List.mem_range.mp hi⟩, nmax_pos.mp (Nat.pos_of_ne_zero hne)⟩
  · rintro ⟨i, hi⟩
    exact ⟨_, List.mem_map.mpr ⟨i.val, List.mem_range.mpr i.isLt, rfl⟩, (nmax_pos.mpr hi).ne'⟩

/-- A list of rows that a margin read fixes lies in the rows it read. -/
theorem marginClean_rows {row : Nat} {ms : List Nat} {r : Nat}
    (h : r ∈ ((upto ms.length).filter fun i => nth ms i 1 == 0).map fun i => row + i) : row ≤ r ∧ r < row + ms.length := by
  obtain ⟨i, hi, rfl⟩ := List.mem_map.mp h
  have hi := List.mem_range.mp (List.mem_filter.mp hi).1
  omega

theorem length_marginCounts {pv : Bool} {row n : Nat} : (marginCounts s pv obs row n).length = n := by
  rw [marginCounts, List.length_map]
  exact List.length_range

section FlashOnly

theorem core_flashClean (rows : List Nat) : (flashClean s rows).core = s.core ∧ (flashClean s rows).aon = s.aon ∧ (flashClean s rows).freeCtr = s.freeCtr := by
  unfold flashClean
  induction rows generalizing s with
  | nil => exact ⟨rfl, rfl, rfl⟩
  | cons a rows ih =>
    rw [List.foldl_cons]
    split
    · exact ih (s := flashErase s a (a + 1))
    · exact ih

theorem core_eraseSectors (k n : Nat) (fail : Bool) : (eraseSectors s k n fail).core = s.core ∧ (eraseSectors s k n fail).aon = s.aon ∧
    (eraseSectors s k n fail).freeCtr = s.freeCtr := by
  unfold eraseSectors
  dsimp only
  split <;> exact ⟨rfl, rfl, rfl⟩

theorem core_programFrom {row n : Nat} {chunks : List (Option (List Byte))} {fail : Option Nat} :
    (programFrom s row n chunks fail).core = s.core ∧ (programFrom s row n chunks fail).aon = s.aon := by
  have hone (s : State) (n : Nat) (c : Option (List Byte)) : (programOne s row n c fail).core = s.core ∧ (programOne s row n c fail).aon = s.aon := by
    unfold programOne
    split
    · exact ⟨rfl, rfl⟩
    · split
      · split
        · exact ⟨rfl, rfl⟩
        · split <;> exact ⟨rfl, rfl⟩
      · exact ⟨rfl, rfl⟩
  induction chunks generalizing s n with
  | nil => exact ⟨rfl, rfl⟩
  | cons c chunks ih =>
    obtain ⟨hcore, haon⟩ := ih (s := programOne s row n c fail) (n := n + 1)
    exact ⟨hcore.trans (hone s n c).1, haon.trans (hone s n c).2⟩

end FlashOnly

/-- The gap check changes the flash in the gap alone, and the pending bit of EFL_WARN. -/
theorem gapCheck_rest : (gapCheck s obs).core.efl = s.core.efl ∧ (gapCheck s obs).aon = s.aon ∧ (gapCheck s obs).freeCtr = s.freeCtr ∧
    ∀ r, r < 16 * ((logOf s).base + 2 + (logOf s).gap) ∨ 16 * ((logOf s).base + 2 + (logOf s).gap) + 16 ≤ r →
      SameRow s.flash (gapCheck s obs).flash r := by
  unfold gapCheck
  dsimp only
  split
  · obtain ⟨hcore, haon, hctr⟩ := core_eraseSectors (s := s) ((logOf s).base + 2 + (logOf s).gap) 1 obs.eraseFail
    exact ⟨(congrArg CoreSt.efl hcore :), haon, hctr, fun r hr => eraseSectors_out (by omega)⟩
  · unfold marginClean
    obtain ⟨hcore, haon, hctr⟩ := core_flashClean (s := s) (((upto (marginCounts s false obs (16 * ((logOf s).base + 2 + (logOf s).gap)) 16).length).filter
      fun i => nth (marginCounts s false obs (16 * ((logOf s).base + 2 + (logOf s).gap)) 16) i 1 == 0).map
        fun i => 16 * ((logOf s).base + 2 + (logOf s).gap) + i)
    refine ⟨congrArg CoreSt.efl hcore, haon, hctr, fun r hr => flashClean_out fun hmem => ?_⟩
    have hrows := marginClean_rows hmem
    rw [length_marginCounts] at hrows
    omega

/-- A clean gap whose rows are fixed stays as it is. -/
theorem gapCheck_fixed (hclean : gapDirty s obs = false)
    (hfix : ∀ i : Fin 16, rowOpen s (16 * ((logOf s).base + 2 + (logOf s).gap) + i.val) = false) : gapCheck s obs = s := by
  unfold gapCheck
  dsimp only
  rw [if_neg (by rw [hclean]; decide)]
  refine flashClean_of_fixed fun r hr => ?_
  have hrows := marginClean_rows hr
  rw [length_marginCounts] at hrows
  have hr := hfix ⟨r - 16 * ((logOf s).base + 2 + (logOf s).gap), by omega⟩
  rwa [show 16 * ((logOf s).base + 2 + (logOf s).gap) + (r - 16 * ((logOf s).base + 2 + (logOf s).gap)) = r by omega] at hr

/-- A gap in which a bit fails is erased, and EFL_WARN raised in P0. -/
theorem gapCheck_dirty (h : gapDirty s obs = true) :
    gapCheck s obs = raise (eraseSectors s ((logOf s).base + 2 + (logOf s).gap) 1 obs.eraseFail) 0 30 := if_pos h

/-- It raises EFL_WARN in P0. -/
theorem gapCheck_warns (h : gapDirty s obs = true) (hirq : s.core.irq.length = 4) : bit (nth (gapCheck s obs).core.irq 0 {}).pend 30 = true := by
  rw [gapCheck_dirty h]
  refine raise_pend _ _ _ ?_ (by decide)
  rw [(core_eraseSectors _ 1 obs.eraseFail).1, hirq]
  decide

/-- The other sectors are erased after the gap check exactly where they were. -/
theorem sectorErased_gapCheck {k : Nat} (hk : k ≠ (logOf s).base + 2 + (logOf s).gap) : sectorErased (gapCheck s obs) k = sectorErased s k := by
  obtain ⟨-, -, hctr, hrows⟩ := gapCheck_rest (s := s) (obs := obs)
  have hrow (r : Nat) (hr : r ∈ upto 16) : rowView (gapCheck s obs) (16 * k + r) = rowView s (16 * k + r) := by
    have hr := List.mem_range.mp hr
    exact (hrows _ (by omega)).rowView hctr
  rw [Bool.eq_iff_iff]
  unfold sectorErased
  simp only [List.all_eq_true]
  exact forall₂_congr fun r hr => by rw [hrow r hr]

/-- The pointer sector that the log does not use. -/
def otherPointer (s : State) : Nat := (logOf s).base + 1 - ((logOf s).recAt.map fun e => e.1).getD 0

/-- What the end of the phase that runs leaves (11 Table 11-7). -/
def phaseEnd (s : State) (obs : EflObs) : State :=
  match (logOf s).phase with
  | none => s
  | some .checkGap =>
    if gapDirty s obs && obs.eraseFail then advFail (gapCheck s obs) 6
    else advNext (gapCheck s obs) (if (logOf s).swap && !sectorErased (gapCheck s obs) (otherPointer s) then .prepare else .copy)
  | some .prepare =>
    if obs.eraseFail then advFail (eraseSectors s (otherPointer s) 1 obs.eraseFail) 6 else advNext (eraseSectors s (otherPointer s) 1 obs.eraseFail) .copy
  | some .copy =>
    if obs.failRow.isSome then advFail (programRows s (16 * ((logOf s).base + 2 + (logOf s).gap)) (gapRows s obs) obs.failRow) 5
    else advNext (modLog (programRows s (16 * ((logOf s).base + 2 + (logOf s).gap)) (gapRows s obs) obs.failRow)
      fun l => { l with dropped := sat 255 (l.dropped + ((gapRows s obs).filter fun r => r.isNone).length) }) .commit
  | some .commit =>
    if obs.failRow.isSome then advFail (flashUnmark s (16 * ((logOf s).base + (nextRecord s).1) + (nextRecord s).2.1)) 5
    else advNext (modLog (flashProgramRow s (16 * ((logOf s).base + (nextRecord s).1) + (nextRecord s).2.1)
        (recordBytes ((logOf s).seq + 1) (advMapping s).1 (advMapping s).2))
      fun l => { l with gap := (advMapping s).1, start := (advMapping s).2, seq := (logOf s).seq + 1
                        recAt := some ((nextRecord s).1, (nextRecord s).2.1) }) .clean
  | some .clean =>
    if obs.eraseFail then advFail (eraseSectors s ((logOf s).base + 2 + (logOf s).source) 1 obs.eraseFail) 6
    else if (logOf s).swap then advNext (eraseSectors s ((logOf s).base + 2 + (logOf s).source) 1 obs.eraseFail) .cleanPtr
    else advEnd (eraseSectors s ((logOf s).base + 2 + (logOf s).source) 1 obs.eraseFail)
  | some .cleanPtr =>
    if obs.eraseFail then advFail (eraseSectors s (otherPointer s) 1 obs.eraseFail) 6 else advEnd (eraseSectors s (otherPointer s) 1 obs.eraseFail)

section Phases

/-- A phase that waits, that an EPD read has suspended, or that is none does not end. -/
theorem advPhaseOp_idle (h : (logOf s).phase = none ∨ (logOf s).started = false ∨ (nth s.core.efl.banks (logBank s) {}).suspended = true) :
    advPhaseOp s obs = s := by
  unfold advPhaseOp
  dsimp only
  split
  · rfl
  next hrun =>
    rcases h with h | h | h
    · rw [h]
    · exact absurd (by rw [h]; rfl) hrun
    · exact absurd (by rw [h, Bool.or_true]) hrun

variable (hstarted : (logOf s).started = true) (hruns : (nth s.core.efl.banks (logBank s) {}).suspended = false)
include hstarted hruns

theorem advPhaseOp_runs : advPhaseOp s obs = phaseEnd s obs := by
  unfold advPhaseOp phaseEnd otherPointer
  dsimp only
  rw [if_neg (by rw [hstarted, hruns]; decide)]
  cases hph : (logOf s).phase with
  | none => rfl
  | some ph => cases ph <;> cases (logOf s).recAt <;> rfl

end Phases

/-- The banks, the channels, the log's place and the warning are those that the phase found. -/
structure LogReady (s x : State) : Prop where
  banks : x.core.efl.banks = s.core.efl.banks
  chans : x.core.efl.chans = s.core.efl.chans
  base : (logOf x).base = (logOf s).base
  aon : x.aon = s.aon
  parity : x.core.parity = s.core.parity

theorem LogReady.of_flash (hcore : x.core = s.core) (haon : x.aon = s.aon) : LogReady s x :=
  ⟨congrArg (fun c : CoreSt => c.efl.banks) hcore, congrArg (fun c : CoreSt => c.efl.chans) hcore, congrArg (fun c : CoreSt => c.efl.log.base) hcore, haon,
    congrArg CoreSt.parity hcore⟩

theorem LogReady.of_efl (hefl : x.core.efl = s.core.efl) (haon : x.aon = s.aon) (hparity : x.core.parity = s.core.parity) : LogReady s x :=
  ⟨congrArg EflSt.banks hefl, congrArg EflSt.chans hefl, congrArg (fun e : EflSt => e.log.base) hefl, haon, hparity⟩

theorem LogReady.held (h : LogReady s x) : heldNvm x = heldNvm s := by
  unfold heldNvm aused ard
  rw [h.aon, h.parity]

theorem LogReady.bank (h : LogReady s x) : logBank x = logBank s := congrArg (· / 256) h.base

/-- The bank of the log runs no other operation than an ADVANCE. -/
def LogFree (s : State) : Prop := (nth s.core.efl.banks (logBank s) {}).chan = none ∨
  ((nth s.core.efl.banks (logBank s) {}).chan = some 9 ∧ (chOf s 9).op = 8)

theorem LogReady.free (h : LogReady s x) : LogFree x ↔ LogFree s := by
  unfold LogFree chOf
  rw [h.bank, h.banks, h.chans]

/-- A phase that waits starts where the warning does not hold it and its bank is free. -/
theorem advTry_starts (hph : (logOf s).phase = some ph) (hwaits : (logOf s).started = false) :
    logOf (advTry s) = { logOf s with started := (logOf (advTry s)).started } ∧ (advTry s).flash = s.flash ∧
    ((logOf (advTry s)).started = true ↔ heldNvm s = false ∧ LogFree s) := by
  have hbetween : bankBetween s (logBank s) = true ↔ LogFree s := by
    unfold bankBetween advRuns LogFree
    rw [hwaits, Bool.and_false, Bool.false_and]
    cases (nth s.core.efl.banks (logBank s) {}).chan with
    | none => simp
    | some c => simp +contextual
  have hmay : ((logOf s).phase.isSome && !(logOf s).started && !heldNvm s && bankBetween s (logBank s)) = true ↔ heldNvm s = false ∧ LogFree s := by
    rw [hph, hwaits, ← hbetween]
    simp
  unfold advTry
  split
  next h =>
    have hwork := (SameWork.refl (modLog s fun l => { l with started := true })).opStarted (b := logBank s)
    exact ⟨by rw [hwork.logOf]; rfl, hwork.2, by rw [hwork.logOf]; exact ⟨fun _ => hmay.mp h, fun _ => rfl⟩⟩
  next h =>
    exact ⟨rfl, rfl, by rw [hwaits]; exact ⟨fun h => absurd h (by decide), fun h' => absurd (hmay.mpr h') h⟩⟩

theorem advTry_none (h : (logOf s).phase = none) : advTry s = s := if_neg (by rw [h]; exact Bool.false_ne_true)

/-- The next phase of an advance is due, and is tried at once. -/
theorem LogReady.next (h : LogReady s x) (ph : AdvPhase) :
    logOf (advTry (advNext x ph)) = { logOf x with phase := some ph, started := (logOf (advTry (advNext x ph))).started } ∧
    (advTry (advNext x ph)).flash = x.flash ∧
    ((logOf (advTry (advNext x ph))).started = true ↔ heldNvm s = false ∧ LogFree s) := by
  have hready : LogReady s (advNext x ph) := ⟨h.banks, h.chans, h.base, h.aon, h.parity⟩
  obtain ⟨hlog, hflash, hstart⟩ := advTry_starts (s := advNext x ph) (ph := ph) rfl rfl
  exact ⟨hlog, hflash, hstart.trans (and_congr (by rw [hready.held]) hready.free)⟩

/-- The ADVANCE operation, if one runs the advance, ends. -/
def advanceEnds (s : State) (b result : Nat) : State :=
  match (nth s.core.efl.banks b {}).chan with
  | some 9 => eflFinish s b 9 result false
  | _ => s

/-- The log in FAULT, the failure counted. -/
def advFailed (s : State) (result : Nat) : State :=
  eflCountFail (modLog s fun l => { l with state := 5, phase := none, fails := sat 255 (l.fails + 1) }) result

theorem advFail_eq : advFail s result = advanceEnds (advFailed s result) (logBank s) result := rfl

/-- The log READY, its advance complete. -/
def advReady (s : State) : State := modLog s fun l => { l with state := 2, phase := none, started := true }

theorem advEnd_eq : advEnd s = advanceEnds (advReady s) (logBank s) 0 := rfl

/-- What the end of an ADVANCE leaves of its channel and its bank. -/
theorem advanceEnds_chan {b : Nat} (hb : b < s.core.efl.banks.length) (hc : 9 < s.core.efl.chans.length)
    (h : (nth s.core.efl.banks b {}).chan = some 9) :
    (nth (advanceEnds s b result).core.efl.banks b {}).chan = none ∧ (chOf (advanceEnds s b result) 9).state = 3 ∧
    (chOf (advanceEnds s b result) 9).result = if (chOf s 9).dropped then 9 else result := by
  have hends : advanceEnds s b result = eflFinish s b 9 result false := by
    unfold advanceEnds
    rw [h]
    rfl
  have hwork := eflFinish_work (s := s) (b := b) (c := 9) (result := result) (warn := false)
  have hchan := chOf_modCh (s := modBank s b fun k => { k with chan := none })
    (f := fun k => { k with state := 3, result := if (chOf s 9).dropped then 9 else result }) hc
  rw [hends, hwork.chOf, hchan]
  exact ⟨(hwork.bankChan b).trans (congrArg EflBank.chan (bankOf_modBank (s := s) (f := fun k => { k with chan := none }) hb)), rfl, rfl⟩

/-- The end of an ADVANCE leaves the log, the counters and the cells. -/
theorem advanceEnds_rest {b : Nat} : logOf (advanceEnds s b result) = logOf s ∧ (advanceEnds s b result).flash = s.flash ∧
    (advanceEnds s b result).core.efl.eraseFails = s.core.efl.eraseFails ∧ (advanceEnds s b result).core.efl.programFails = s.core.efl.programFails := by
  unfold advanceEnds
  split
  · have hwork := eflFinish_work (s := s) (b := b) (c := 9) (result := result) (warn := false)
    exact ⟨hwork.logOf, hwork.2, hwork.get EflSt.eraseFails, hwork.get EflSt.programFails⟩
  · exact ⟨rfl, rfl, rfl, rfl⟩

/-- The log has left its phases, and the ADVANCE operation that ran them has its result. -/
def LogEnded (s t : State) (state result : Nat) : Prop :=
  (logOf t).state = state ∧ (logOf t).phase = none ∧
  ((nth s.core.efl.banks (logBank s) {}).chan = some 9 → (nth t.core.efl.banks (logBank s) {}).chan = none ∧ (chOf t 9).state = 3 ∧
    (chOf t 9).result = if (chOf s 9).dropped then 9 else result)

section Ends

variable (h : LogReady s x) (hbank : logBank s < s.core.efl.banks.length) (hchans : 9 < s.core.efl.chans.length)
include h hbank hchans

theorem LogReady.ends (hbanks : y.core.efl.banks = x.core.efl.banks) (hchan : y.core.efl.chans = x.core.efl.chans) {state : Nat}
    (hstate : (logOf y).state = state) (hphase : (logOf y).phase = none) : LogEnded s (advanceEnds y (logBank x) result) state result := by
  obtain ⟨hlog, -, -, -⟩ := advanceEnds_rest (s := y) (b := logBank x) (result := result)
  have hb := hbanks.trans h.banks
  have hc := hchan.trans h.chans
  refine ⟨(congrArg LogSt.state hlog).trans hstate, (congrArg LogSt.phase hlog).trans hphase, fun hrun => ?_⟩
  rw [h.bank]
  have hends := advanceEnds_chan (s := y) (b := logBank s) (result := result) (hb ▸ hbank) (hc ▸ hchans) (hb ▸ hrun)
  rwa [show chOf y 9 = chOf s 9 by rw [chOf, hc, chOf]] at hends

/-- A phase that fails leaves the log in FAULT. -/
theorem LogReady.fails (result : Nat) : advTry (advFail x result) = advFail x result ∧ LogEnded s (advFail x result) 5 result ∧
    (logOf (advFail x result)).gap = (logOf x).gap ∧ (logOf (advFail x result)).fails = sat 255 ((logOf x).fails + 1) ∧
    (advFail x result).core.efl.eraseFails = (if result = 6 then sat 255 (x.core.efl.eraseFails + 1) else x.core.efl.eraseFails) ∧
    (advFail x result).core.efl.programFails = (if result = 5 then sat 255 (x.core.efl.programFails + 1) else x.core.efl.programFails) := by
  have hlogF : logOf (advFailed x result) = { logOf x with state := 5, phase := none, fails := sat 255 ((logOf x).fails + 1) } := rfl
  have herase : (advFailed x result).core.efl.eraseFails = if result = 6 then sat 255 (x.core.efl.eraseFails + 1) else x.core.efl.eraseFails := rfl
  have hprogram : (advFailed x result).core.efl.programFails = if result = 5 then sat 255 (x.core.efl.programFails + 1) else x.core.efl.programFails := rfl
  have hbanks : (advFailed x result).core.efl.banks = x.core.efl.banks := rfl
  have hchan : (advFailed x result).core.efl.chans = x.core.efl.chans := rfl
  rw [advFail_eq]
  generalize advFailed x result = y at *
  obtain ⟨hlog, -, herase', hprogram'⟩ := advanceEnds_rest (s := y) (b := logBank x) (result := result)
  have hlog := hlog.trans hlogF
  exact ⟨advTry_none (congrArg LogSt.phase hlog), h.ends hbank hchans hbanks hchan (congrArg LogSt.state hlogF) (congrArg LogSt.phase hlogF),
    (congrArg LogSt.gap hlog :), (congrArg LogSt.fails hlog :), herase'.trans herase, hprogram'.trans hprogram⟩

/-- The advance is complete: the log is READY. -/
theorem LogReady.complete : advTry (advEnd x) = advEnd x ∧ LogEnded s (advEnd x) 2 0 ∧ (advEnd x).flash = x.flash := by
  have hlogR : logOf (advReady x) = { logOf x with state := 2, phase := none, started := true } := rfl
  have hbanks : (advReady x).core.efl.banks = x.core.efl.banks := rfl
  have hchan : (advReady x).core.efl.chans = x.core.efl.chans := rfl
  have hflashR : (advReady x).flash = x.flash := rfl
  rw [advEnd_eq]
  generalize advReady x = y at *
  obtain ⟨hlog, hflash, -, -⟩ := advanceEnds_rest (s := y) (b := logBank x) (result := 0)
  exact ⟨advTry_none (congrArg LogSt.phase (hlog.trans hlogR)), h.ends hbank hchans hbanks hchan (congrArg LogSt.state hlogR) (congrArg LogSt.phase hlogR),
    hflash.trans hflashR⟩

end Ends

/-- An automatic advance starts when it is due (11 R323). -/
theorem logAdvance_starts (s : State) (hup : coreUp s = true) :
    let l := logOf s
    let every := fld (eflCfg s (logBank s)) 8 8
    let due := l.state = 2 ∧ l.span ≠ 0 ∧ every ≠ 0 ∧ every ≤ l.erases ∧ bankIdle s (logBank s) = true ∧ heldNvm s = false
    (¬due → exec .logAdvance s = .next (settle s)) ∧
    (due → ∃ t, exec .logAdvance s = .next t ∧ (logOf t).state = 3 ∧ (logOf t).phase = some .checkGap ∧ (logOf t).erases = 0 ∧
      (logOf t).started = true ∧ (logOf t).source = (if l.gap = 0 then l.span - 1 else l.gap - 1) ∧ (logOf t).gap = l.gap ∧ t.flash = s.flash) := by
  intro l every due
  have hexec : exec .logAdvance s = .next (settle (logAdvanceOp s)) := instant_core logAdvanceOp hup
  have hop : logAdvanceOp s = if due then advStart s else s := rfl
  refine ⟨fun h => by rw [hexec, hop, if_neg h], fun h => ?_⟩
  rw [if_pos h] at hop
  rw [hop] at hexec
  have hwork := (SameWork.refl (modLog s fun x => { x with
    state := 3, phase := some .checkGap, started := true, erases := 0
    source := if (logOf s).gap = 0 then logW s else (logOf s).gap - 1, swap := (nextRecord s).2.2 })).opStarted (b := logBank s)
  have hlog : logOf (settle (advStart s)) = { logOf s with
    state := 3, phase := some .checkGap, started := true, erases := 0
    source := if (logOf s).gap = 0 then logW s else (logOf s).gap - 1, swap := (nextRecord s).2.2 } := hwork.logOf
  refine ⟨_, hexec, ?_⟩
  rw [hlog]
  exact ⟨rfl, rfl, rfl, rfl, rfl, rfl, hwork.2⟩

section PhaseEnds

theorem exec_logAdvancePhaseEnd (hup : coreUp s = true) (hdue : courseDue s 6 = false) (obs : EflObs) :
    exec (.logAdvancePhaseEnd obs) s = .next (settle (advTry (advPhaseOp s obs))) := by
  refine (instant_core (fun s => advTry (eflCourse (advPhaseOp s obs))) hup).trans ?_
  have hgoes : Goes [.irqPend, .efl, .flash] s (advPhaseOp s obs) := (Goes.refl _ s).advPhaseOp (by decide) (by decide) (by decide)
  rw [eflCourse, hgoes.courseDue_same (by decide), hdue]
  rfl

/-- The erase of a sector leaves the log, the banks and the channels. -/
theorem LogReady.erase (k : Nat) (fail : Bool) : LogReady s (eraseSectors s k 1 fail) :=
  .of_flash (core_eraseSectors k 1 fail).1 (core_eraseSectors k 1 fail).2.1

theorem LogReady.gapCheck : LogReady s (Machine.gapCheck s obs) := by
  obtain ⟨hefl, haon, -, -⟩ := gapCheck_rest (s := s) (obs := obs)
  exact .of_efl hefl haon (((Goes.refl [.irqPend, .flash] s).gapCheck (by decide) (by decide)).same .parity (by decide))

/-- A sector of an erase that has not failed shows blank from then on. -/
theorem blank_of_erased {k : Nat} (h : x.flash = (eraseSectors s k 1 false).flash) (i : Fin 16) : (rowView x (16 * k + i.val)).status = 1 :=
  RowBlank.status (h ▸ eraseSectors_sector i)

end PhaseEnds

/-- The bytes of a pointer record fill a row. -/
theorem length_recordBytes (seq gap start : Nat) : (recordBytes seq gap start).length = 256 := by
  have hle (n v : Nat) : (leBytes n v).length = n := by
    induction n generalizing v with
    | zero => rfl
    | succ n ih => exact congrArg (· + 1) (ih _)
  unfold recordBytes
  simp only [List.length_append, List.length_replicate, hle]

@[simp] theorem length_zeroWords (bs : List Byte) (bad : List Nat) : (zeroWords bs bad).length = bs.length := by
  rw [zeroWords, List.length_map, List.length_zipIdx]

theorem zeroWords_nil (bs : List Byte) : zeroWords bs [] = bs := List.zipIdx_map_fst 0 bs

/-- A row shows 256 bytes. -/
theorem length_rowView (s : State) (r : Nat) : (rowView s r).bytes.length = 256 := by
  unfold rowView
  split
  · dsimp only
    split
    · split
      · exact List.length_replicate
      · exact (length_zeroWords _ _).trans (by rw [List.length_map]; exact List.length_range)
    · split
      · exact List.length_replicate
      · exact (length_zeroWords _ _).trans (by rw [List.length_map]; exact List.length_range)
  · exact (length_zeroWords _ _).trans (by rw [sgetRun_eq_map, List.length_map]; exact List.length_range)

theorem length_foundRow (s : State) (obs : EflObs) (i r : Nat) : (foundRow s obs i r).bytes.length = 256 :=
  (length_zeroWords _ _).trans (length_rowView s r)

/-- A row of which the operation has found nothing more shows as it does. -/
theorem foundRow_of_none (h : obs.uncorr = []) (i r : Nat) : foundRow s obs i r = rowView s r := by
  have hbad : foundBad s obs i = [] := by rw [foundBad, h]; rfl
  unfold foundRow
  dsimp only
  rw [hbad, zeroWords_nil, List.append_nil, if_neg fun h => h.2 rfl]

/-- The rows that the copy phase writes are whole rows. -/
theorem length_gapRows {bs : List Byte} (h : some bs ∈ gapRows s obs) : bs.length = 256 := by
  obtain ⟨i, -, hi⟩ := List.mem_map.mp h
  dsimp only at hi
  split at hi
  · cases hi
    exact length_foundRow ..
  · cases hi

/-- The copy and the commit change the flash alone until the log follows. -/
theorem LogReady.programmed {row n : Nat} {chunks : List (Option (List Byte))} {fail : Option Nat} : LogReady s (programFrom s row n chunks fail) :=
  .of_flash core_programFrom.1 core_programFrom.2

theorem LogReady.record {row : Nat} {bs : List Byte} : LogReady s (flashProgramRow s row bs) := .of_flash rfl rfl

theorem LogReady.logged (h : LogReady s x) {f : LogSt → LogSt} (hf : ∀ l, (f l).base = l.base) : LogReady s (modLog x f) :=
  ⟨h.banks, h.chans, (hf _).trans h.base, h.aon, h.parity⟩

/-- An operation of the log shows after the instant what it left. -/
theorem LogEnded.settled {t : State} {state result : Nat} (h : LogEnded s t state result) : LogEnded s (settle t) state result := h

/-- The phase in turn starts as the warning and its bank allow. -/
def LogStarts (s t : State) : Prop := (logOf t).started = true ↔ heldNvm s = false ∧ LogFree s

section PhasesEnd

variable (hup : coreUp s = true) (hdue : courseDue s 6 = false) 
include hup hdue

/-- A phase that leads to the next one. -/
theorem phase_leads (hop : advPhaseOp s obs = advNext x ph) (hready : LogReady s x) :
    ∃ t, exec (.logAdvancePhaseEnd obs) s = .next t ∧
      (∃ started, logOf t = { logOf x with phase := some ph, started := started }) ∧ t.flash = x.flash ∧ LogStarts s t := by
  obtain ⟨hlog, hflash, hstart⟩ := hready.next ph
  refine ⟨settle (advTry (advNext x ph)), ?_, ⟨_, hlog⟩, hflash, hstart⟩
  rw [exec_logAdvancePhaseEnd hup hdue obs, hop]

variable (hb : logBank s < s.core.efl.banks.length) (hc : 9 < s.core.efl.chans.length)
include hb hc

/-- A phase that fails (11 R324). -/
theorem phase_fails (hop : advPhaseOp s obs = advFail x result) (hready : LogReady s x) :
    ∃ t, exec (.logAdvancePhaseEnd obs) s = .next t ∧ LogEnded s t 5 result ∧
      (logOf t).gap = (logOf x).gap ∧ (logOf t).fails = sat 255 ((logOf x).fails + 1) ∧
      t.core.efl.eraseFails = (if result = 6 then sat 255 (x.core.efl.eraseFails + 1) else x.core.efl.eraseFails) ∧
      t.core.efl.programFails = (if result = 5 then sat 255 (x.core.efl.programFails + 1) else x.core.efl.programFails) := by
  obtain ⟨htry, hended, hgap, hfails, herase, hprogram⟩ := hready.fails hb hc result
  exact ⟨_, (exec_logAdvancePhaseEnd hup hdue obs).trans (by rw [hop, htry]), hended.settled, hgap, hfails, herase, hprogram⟩

/-- The phase that completes the advance. -/
theorem phase_completes (hop : advPhaseOp s obs = advEnd x) (hready : LogReady s x) :
    ∃ t, exec (.logAdvancePhaseEnd obs) s = .next t ∧ LogEnded s t 2 0 ∧ t.flash = x.flash := by
  obtain ⟨htry, hended, hflash⟩ := hready.complete hb hc
  exact ⟨_, (exec_logAdvancePhaseEnd hup hdue obs).trans (by rw [hop, htry]), hended.settled, hflash⟩

end PhasesEnd

section EachPhase

theorem otherPointer_ne_gap : otherPointer s ≠ (logOf s).base + 2 + (logOf s).gap := by
  unfold otherPointer
  omega

variable (hup : coreUp s = true) (hdue : courseDue s 6 = false) (hstarted : (logOf s).started = true)
  (hruns : (nth s.core.efl.banks (logBank s) {}).suspended = false)
include hup hdue hstarted hruns

/-- The gap passes its check (11 Table 11-7). -/
theorem checkGap_passes (hph : (logOf s).phase = some .checkGap) (hclean : gapDirty s obs = false) :
    ∃ t, exec (.logAdvancePhaseEnd obs) s = .next t ∧ LogStarts s t ∧
      ((∀ i : Fin 16, rowOpen s (16 * ((logOf s).base + 2 + (logOf s).gap) + i.val) = false) → t.flash = s.flash) ∧
      (logOf t).phase = some (if (logOf s).swap = true ∧ sectorErased s (otherPointer s) = false then .prepare else .copy) := by
  have hop := advPhaseOp_runs (obs := obs) hstarted hruns
  unfold phaseEnd at hop
  rw [hph] at hop
  dsimp only at hop
  rw [hclean, Bool.false_and, if_neg Bool.false_ne_true, sectorErased_gapCheck otherPointer_ne_gap] at hop
  obtain ⟨t, hexec, ⟨started, hlog⟩, hflash, hstart⟩ := phase_leads hup hdue hop .gapCheck
  refine ⟨t, hexec, hstart, fun hfix => hflash.trans (congrArg State.flash (gapCheck_fixed hclean hfix)), ?_⟩
  rw [hlog]
  exact congrArg some (if_congr (by simp) rfl rfl)

/-- A gap with a failing bit is erased, with EFL_WARN in P0, before the copy or into FAULT. -/
theorem checkGap_erases (hb : logBank s < s.core.efl.banks.length) (hc : 9 < s.core.efl.chans.length) (hirq : s.core.irq.length = 4)
    (hph : (logOf s).phase = some .checkGap) (hdirty : gapDirty s obs = true) :
    ∃ t, exec (.logAdvancePhaseEnd obs) s = .next t ∧ bit (nth t.core.irq 0 {}).pend 30 = true ∧ (obs.eraseFail = true → LogEnded s t 5 6) ∧
      (obs.eraseFail = false → (∀ i : Fin 16, (rowView t (16 * ((logOf s).base + 2 + (logOf s).gap) + i.val)).status = 1) ∧
        (logOf t).state = (logOf s).state) := by
  have hop := advPhaseOp_runs (obs := obs) hstarted hruns
  unfold phaseEnd at hop
  rw [hph] at hop
  dsimp only at hop
  rw [hdirty, Bool.true_and] at hop
  have hchecked := gapCheck_dirty hdirty
  have hwarn := gapCheck_warns hdirty hirq
  have hpend {t : State} (h : Goes [.irqPend, .efl] (gapCheck s obs) (advPhaseOp s obs)) (hexec : exec (.logAdvancePhaseEnd obs) s = .next t) :
      bit (nth t.core.irq 0 {}).pend 30 = true := by
    obtain rfl : settle (advTry (advPhaseOp s obs)) = t := Host.Outcome.next.inj ((exec_logAdvancePhaseEnd hup hdue obs).symm.trans hexec)
    exact pendRises_settle _ _ _ ((h.advTry (by decide)).pend_of (by decide) hwarn)
  cases hfail : obs.eraseFail with
  | true =>
    rw [if_pos hfail] at hop
    obtain ⟨t, hexec, hended, -⟩ := phase_fails hup hdue hb hc hop .gapCheck
    exact ⟨t, hexec, hpend (hop ▸ (Goes.refl _ _).advFail (by decide) (by decide)) hexec, fun _ => hended, fun h => absurd h (by decide)⟩
  | false =>
    rw [if_neg (by rw [hfail]; decide)] at hop
    obtain ⟨t, hexec, ⟨started, hlog⟩, hflash, -⟩ := phase_leads hup hdue hop .gapCheck
    refine ⟨t, hexec, hpend (hop ▸ (Goes.refl _ _).advNext (by decide)) hexec, fun h => absurd h (by decide), fun _ => ⟨?_, ?_⟩⟩
    · refine blank_of_erased (s := s) (hflash.trans ?_)
      rw [hchecked, hfail]
      rfl
    · rw [hlog]
      exact congrArg (fun e : EflSt => e.log.state) gapCheck_rest.1

/-- PREPARE erases the other pointer sector. -/
theorem prepare_ends (hb : logBank s < s.core.efl.banks.length) (hc : 9 < s.core.efl.chans.length) (hph : (logOf s).phase = some .prepare) :
    ∃ t, exec (.logAdvancePhaseEnd obs) s = .next t ∧
      (obs.eraseFail = true → LogEnded s t 5 6 ∧ t.core.efl.eraseFails = sat 255 (s.core.efl.eraseFails + 1)) ∧
      (obs.eraseFail = false → (∀ i : Fin 16, (rowView t (16 * otherPointer s + i.val)).status = 1) ∧ (logOf t).phase = some .copy ∧ LogStarts s t) := by
  have hop := advPhaseOp_runs (obs := obs) hstarted hruns
  unfold phaseEnd at hop
  rw [hph] at hop
  dsimp only at hop
  cases hfail : obs.eraseFail with
  | true =>
    rw [hfail, if_pos rfl] at hop
    obtain ⟨t, hexec, hended, -, -, hcount, -⟩ := phase_fails hup hdue hb hc hop (.erase _ _)
    refine ⟨t, hexec, fun _ => ⟨hended, hcount.trans ?_⟩, fun h => absurd h (by decide)⟩
    rw [if_pos rfl, (core_eraseSectors (otherPointer s) 1 true).1]
  | false =>
    rw [hfail, if_neg (by decide)] at hop
    obtain ⟨t, hexec, ⟨started, hlog⟩, hflash, hstart⟩ := phase_leads hup hdue hop (.erase _ _)
    exact ⟨t, hexec, fun h => absurd h (by decide), fun _ => ⟨blank_of_erased hflash, by rw [hlog], hstart⟩⟩

/-- COPY writes the readable programmed rows of the source sector into the gap. -/
theorem copy_ends (hph : (logOf s).phase = some .copy) (hgood : obs.failRow = none) (hwf : swf flashErased s.flash.mem = true) :
    ∃ t, exec (.logAdvancePhaseEnd obs) s = .next t ∧ (logOf t).phase = some .commit ∧ (logOf t).gap = (logOf s).gap ∧ LogStarts s t ∧
      (obs.uncorr = [] → ∀ i : Fin 16, (rowView s (16 * ((logOf s).base + 2 + (logOf s).source) + i.val)).status = 0 →
        (rowView s (16 * ((logOf s).base + 2 + (logOf s).source) + i.val)).bad = [] →
        RowHolds t.flash (16 * ((logOf s).base + 2 + (logOf s).gap) + i.val) (rowView s (16 * ((logOf s).base + 2 + (logOf s).source) + i.val)).bytes) := by
  have hop := advPhaseOp_runs (obs := obs) hstarted hruns
  unfold phaseEnd at hop
  rw [hph] at hop
  dsimp only at hop
  rw [hgood, if_neg (by decide), programRows_eq] at hop
  have hready : LogReady s (programFrom s (16 * ((logOf s).base + 2 + (logOf s).gap)) 0 (gapRows s obs) none) := .programmed
  have hcore := core_programFrom (s := s) (row := 16 * ((logOf s).base + 2 + (logOf s).gap)) (n := 0) (chunks := gapRows s obs) (fail := none)
  have hholds {i : Nat} {bs : List Byte} (hi : (gapRows s obs)[i]? = some (some bs)) :=
    programFrom_holds (row := 16 * ((logOf s).base + 2 + (logOf s).gap)) (n := 0) (fail := none) hwf
      (fun bs hbs => length_gapRows hbs) hi fun _ h => nomatch h
  generalize programFrom s (16 * ((logOf s).base + 2 + (logOf s).gap)) 0 (gapRows s obs) none = x at hop hready hcore hholds
  obtain ⟨t, hexec, ⟨started, hlog⟩, hflash, hstart⟩ := phase_leads hup hdue hop (hready.logged fun _ => rfl)
  refine ⟨t, hexec, by rw [hlog], ?_, hstart, fun hunc i hst hbad => ?_⟩
  · rw [hlog]
    exact congrArg (fun c : CoreSt => c.efl.log.gap) hcore.1
  · have hrow : (gapRows s obs)[i.val]? = some (some (rowView s (16 * ((logOf s).base + 2 + (logOf s).source) + i.val)).bytes) := by
      rw [gapRows, List.getElem?_map, upto, List.getElem?_range i.isLt, Option.map_some]
      dsimp only
      rw [foundRow_of_none hunc, if_pos ⟨hst, hbad⟩]
    have hrowHolds := hholds hrow
    rw [Nat.zero_add] at hrowHolds
    rw [hflash]
    exact hrowHolds

theorem copy_fails (hb : logBank s < s.core.efl.banks.length) (hc : 9 < s.core.efl.chans.length) (hph : (logOf s).phase = some .copy)
    (hfail : obs.failRow ≠ none) : ∃ t, exec (.logAdvancePhaseEnd obs) s = .next t ∧ LogEnded s t 5 5 ∧ (logOf t).gap = (logOf s).gap ∧
      t.core.efl.programFails = sat 255 (s.core.efl.programFails + 1) := by
  have hop := advPhaseOp_runs (obs := obs) hstarted hruns
  unfold phaseEnd at hop
  rw [hph] at hop
  dsimp only at hop
  rw [if_pos (Option.isSome_iff_ne_none.mpr hfail), programRows_eq] at hop
  obtain ⟨t, hexec, hended, hgap, -, -, hcount⟩ := phase_fails hup hdue hb hc hop .programmed
  refine ⟨t, hexec, hended, hgap.trans ?_, hcount.trans ?_⟩
  · rw [logOf, core_programFrom.1]
    rfl
  · rw [if_pos rfl, core_programFrom.1]

/-- COMMIT moves the gap and writes the pointer record. -/
theorem commit_ends (hph : (logOf s).phase = some .commit) (hgood : obs.failRow = none) (hwf : swf flashErased s.flash.mem = true) :
    ∃ t, exec (.logAdvancePhaseEnd obs) s = .next t ∧ LogStarts s t ∧
      (∃ started, logOf t = { logOf s with
        gap := (advMapping s).1, start := (advMapping s).2, seq := (logOf s).seq + 1, recAt := some ((nextRecord s).1, (nextRecord s).2.1)
        phase := some .clean, started := started }) ∧
      RowHolds t.flash (16 * ((logOf s).base + (nextRecord s).1) + (nextRecord s).2.1)
        (recordBytes ((logOf s).seq + 1) (advMapping s).1 (advMapping s).2) := by
  have hop := advPhaseOp_runs (obs := obs) hstarted hruns
  unfold phaseEnd at hop
  rw [hph] at hop
  dsimp only at hop
  rw [hgood, if_neg (by decide)] at hop
  have hlen := length_recordBytes ((logOf s).seq + 1) (advMapping s).1 (advMapping s).2
  generalize recordBytes ((logOf s).seq + 1) (advMapping s).1 (advMapping s).2 = bs at hop hlen ⊢
  obtain ⟨t, hexec, ⟨started, hlog⟩, hflash, hstart⟩ := phase_leads hup hdue hop (LogReady.record.logged fun _ => rfl)
  refine ⟨t, hexec, hstart, ⟨started, hlog⟩, ?_⟩
  rw [hflash]
  exact flashProgramRow_holds hwf hlen

theorem commit_fails (hb : logBank s < s.core.efl.banks.length) (hc : 9 < s.core.efl.chans.length) (hph : (logOf s).phase = some .commit)
    (hfail : obs.failRow ≠ none) : ∃ t, exec (.logAdvancePhaseEnd obs) s = .next t ∧ LogEnded s t 5 5 ∧ (logOf t).gap = (logOf s).gap ∧
      (logOf t).fails = sat 255 ((logOf s).fails + 1) := by
  have hop := advPhaseOp_runs (obs := obs) hstarted hruns
  unfold phaseEnd at hop
  rw [hph] at hop
  dsimp only at hop
  rw [if_pos (Option.isSome_iff_ne_none.mpr hfail)] at hop
  obtain ⟨t, hexec, hended, hgap, hfails, -⟩ := phase_fails hup hdue hb hc hop (.of_flash rfl rfl)
  exact ⟨t, hexec, hended, hgap, hfails⟩

/-- CLEAN erases the source sector. -/
theorem clean_ends (hb : logBank s < s.core.efl.banks.length) (hc : 9 < s.core.efl.chans.length) (hph : (logOf s).phase = some .clean)
    (hgood : obs.eraseFail = false) :
    ∃ t, exec (.logAdvancePhaseEnd obs) s = .next t ∧
      (∀ i : Fin 16, (rowView t (16 * ((logOf s).base + 2 + (logOf s).source) + i.val)).status = 1) ∧
      ((logOf s).swap = false → LogEnded s t 2 0) ∧ ((logOf s).swap = true → (logOf t).phase = some .cleanPtr ∧ LogStarts s t) := by
  have hop := advPhaseOp_runs (obs := obs) hstarted hruns
  unfold phaseEnd at hop
  rw [hph] at hop
  dsimp only at hop
  rw [hgood, if_neg (by decide)] at hop
  cases hswap : (logOf s).swap with
  | true =>
    rw [if_pos hswap] at hop
    obtain ⟨t, hexec, ⟨started, hlog⟩, hflash, hstart⟩ := phase_leads hup hdue hop (.erase _ _)
    exact ⟨t, hexec, blank_of_erased hflash, fun h => absurd h (by decide), fun _ => ⟨by rw [hlog], hstart⟩⟩
  | false =>
    rw [if_neg (by rw [hswap]; decide)] at hop
    obtain ⟨t, hexec, hended, hflash⟩ := phase_completes hup hdue hb hc hop (.erase _ _)
    exact ⟨t, hexec, blank_of_erased hflash, fun _ => hended, fun h => absurd h (by decide)⟩

/-- CLEANPTR erases the old pointer sector. -/
theorem cleanPtr_ends (hb : logBank s < s.core.efl.banks.length) (hc : 9 < s.core.efl.chans.length) (hph : (logOf s).phase = some .cleanPtr)
    (hgood : obs.eraseFail = false) :
    ∃ t, exec (.logAdvancePhaseEnd obs) s = .next t ∧ (∀ i : Fin 16, (rowView t (16 * otherPointer s + i.val)).status = 1) ∧ LogEnded s t 2 0 := by
  have hop := advPhaseOp_runs (obs := obs) hstarted hruns
  unfold phaseEnd at hop
  rw [hph] at hop
  dsimp only at hop
  rw [hgood, if_neg (by decide)] at hop
  obtain ⟨t, hexec, hended, hflash⟩ := phase_completes hup hdue hb hc hop (.erase _ _)
  exact ⟨t, hexec, blank_of_erased hflash, hended⟩

theorem clean_fails (hb : logBank s < s.core.efl.banks.length) (hc : 9 < s.core.efl.chans.length)
    (hph : (logOf s).phase = some .clean ∨ (logOf s).phase = some .cleanPtr) (hfail : obs.eraseFail = true) :
    ∃ t, exec (.logAdvancePhaseEnd obs) s = .next t ∧ LogEnded s t 5 6 := by
  have hop := advPhaseOp_runs (obs := obs) hstarted hruns
  unfold phaseEnd at hop
  rcases hph with hph | hph
  · rw [hph] at hop
    dsimp only at hop
    rw [hfail, if_pos rfl] at hop
    obtain ⟨t, hexec, hended, -⟩ := phase_fails hup hdue hb hc hop (.erase _ _)
    exact ⟨t, hexec, hended⟩
  · rw [hph] at hop
    dsimp only at hop
    rw [hfail, if_pos rfl] at hop
    obtain ⟨t, hexec, hended, -⟩ := phase_fails hup hdue hb hc hop (.erase _ _)
    exact ⟨t, hexec, hended⟩

end EachPhase

/-- The pointer sector that recovery may have to erase. -/
def spareSector (s : State) : Option Nat := (logOf s).recAt.map fun e => (logOf s).base + 1 - e.1

/-- Recovery finds the other pointer sector not erased. -/
def spareDirty (s : State) : Bool := (spareSector s).any fun k => !sectorErased s k

/-- The flash after the erases of a recovery. -/
def recoveryErased (s : State) (obs : EflObs) : State :=
  if spareDirty s then eraseSectors (gapCheck s obs) ((spareSector s).getD 0) 1 obs.eraseFail else gapCheck s obs

/-- An erase that the recovery needs fails. -/
def recoveryFails (s : State) (obs : EflObs) : Bool := (gapDirty s obs || spareDirty s) && obs.eraseFail

theorem logRecoveryOp_eq
    (h : (logOf s).state = 1 ∧ (logOf s).span ≠ 0 ∧ bankIdle s (logBank s) = true ∧ heldNvm s = false) :
    logRecoveryOp s obs = modLog (whenS (recoveryFails s obs) (recoveryErased s obs) fun s => eflCountFail s 6) fun l =>
      { l with state := if recoveryFails s obs then 5 else 2, recoveries := sat 255 (l.recoveries + 1) } := by
  have hspare : spareDirty s = (spareSector s).any fun k => !sectorErased (gapCheck s obs) k := by
    unfold spareDirty spareSector
    cases (logOf s).recAt with
    | none => rw [Option.map_none, Option.any_none, Option.any_none]
    | some e => rw [Option.map_some, Option.any_some, Option.any_some, sectorErased_gapCheck (by omega)]
  unfold recoveryFails recoveryErased
  rw [hspare]
  unfold logRecoveryOp spareSector
  dsimp only
  rw [if_pos h]
  cases (logOf s).recAt <;> rfl

/-- The erases of a recovery leave the EFL block and the interrupt controllers, but for EFL_WARN. -/
theorem recoveryErased_rest : (recoveryErased s obs).core = (gapCheck s obs).core := by
  unfold recoveryErased
  split
  · exact (core_eraseSectors _ 1 obs.eraseFail).1
  · rfl

/-- A gap that recovery erased is blank: the erase of the pointer sector leaves it. -/
theorem recoveryErased_gap (hdirty : gapDirty s obs = true) (hgood : obs.eraseFail = false) (i : Fin 16) :
    RowBlank (recoveryErased s obs).flash (16 * ((logOf s).base + 2 + (logOf s).gap) + i.val) := by
  have hgap : RowBlank (gapCheck s obs).flash (16 * ((logOf s).base + 2 + (logOf s).gap) + i.val) := by
    rw [gapCheck_dirty hdirty, hgood]
    exact eraseSectors_sector i
  unfold recoveryErased
  split
  · refine (eraseSectors_out ?_).blank hgap
    unfold spareSector
    cases (logOf s).recAt with
    | none => exact .inr (by show 16 * (0 + 1) ≤ _; omega)
    | some e => exact .inr (by show 16 * ((logOf s).base + 1 - e.1 + 1) ≤ _; omega)
  · exact hgap

/-- Recovery readies the log (11 R322). -/
theorem logRecovery_readies (s : State) (obs : EflObs) (hup : coreUp s = true) :
    let l := logOf s
    let due := l.state = 1 ∧ l.span ≠ 0 ∧ bankIdle s (logBank s) = true ∧ heldNvm s = false
    (¬due → exec (.logRecovery obs) s = .next (settle s)) ∧
    let dirty := ∃ i : Fin 16, nth obs.margin i.val 0 ≠ 0 ∨ 0 < rowZeros s (16 * (l.base + 2 + l.gap) + i.val)
    let other := l.recAt.map (fun e => l.base + 1 - e.1)
    let wipe := other.any (fun k => !sectorErased s k) = true
    let blank := fun (t : State) (sector : Nat) => ∀ i : Fin 16, (rowView t (16 * sector + i.val)).status = 1
    (due → ∃ t, exec (.logRecovery obs) s = .next t ∧ (logOf t).recoveries = sat 255 (l.recoveries + 1) ∧ (logOf t).gap = l.gap ∧
      (obs.eraseFail = false ∨ (¬dirty ∧ ¬wipe) → (logOf t).state = 2) ∧
      (obs.eraseFail = true → dirty ∨ wipe → (logOf t).state = 5 ∧ t.core.efl.eraseFails = sat 255 (s.core.efl.eraseFails + 1)) ∧
      (obs.eraseFail = false → dirty → blank t (l.base + 2 + l.gap)) ∧
      (obs.eraseFail = false → wipe → blank t (other.getD 0)) ∧
      (dirty → s.core.irq.length = 4 → bit (nth t.core.irq 0 {}).pend 30 = true)) := by
  intro l due
  have hexec : exec (.logRecovery obs) s = .next (settle (logRecoveryOp s obs)) := instant_core (fun s => logRecoveryOp s obs) hup
  refine ⟨fun h => ?_, ?_⟩
  · rw [hexec]
    exact congrArg (fun x => Host.Outcome.next (settle x)) (if_neg h)
  intro dirty other wipe blank hdue
  have hdirty : gapDirty s obs = true ↔ dirty := gapDirty_iff
  have hwipe : spareDirty s = true ↔ wipe := Iff.rfl
  have hefl : (recoveryErased s obs).core.efl = s.core.efl := by rw [recoveryErased_rest]; exact gapCheck_rest.1
  have hirq : (recoveryErased s obs).core.irq = (gapCheck s obs).core.irq := congrArg CoreSt.irq recoveryErased_rest
  have hblank := recoveryErased_gap (s := s) (obs := obs)
  have hspare (hw : spareDirty s = true) (hgood : obs.eraseFail = false) : (recoveryErased s obs).flash =
      (eraseSectors (gapCheck s obs) ((spareSector s).getD 0) 1 false).flash := by rw [recoveryErased, if_pos hw, hgood]
  have hfails : recoveryFails s obs = true ↔ (dirty ∨ wipe) ∧ obs.eraseFail = true := by
    rw [recoveryFails, Bool.and_eq_true, Bool.or_eq_true, hdirty, hwipe]
  rw [logRecoveryOp_eq hdue] at hexec
  generalize recoveryErased s obs = y at *
  have hcounted : whenS (recoveryFails s obs) y (fun s => eflCountFail s 6) = if recoveryFails s obs then eflCountFail y 6 else y := rfl
  have hlog : logOf y = logOf s := congrArg EflSt.log hefl
  obtain ⟨hlogZ, hflashZ, hirqZ, hcountZ⟩ : logOf (if recoveryFails s obs then eflCountFail y 6 else y) = logOf s ∧
      (if recoveryFails s obs then eflCountFail y 6 else y).flash = y.flash ∧
      (if recoveryFails s obs then eflCountFail y 6 else y).core.irq = y.core.irq ∧
      (recoveryFails s obs = true → (if recoveryFails s obs then eflCountFail y 6 else y).core.efl.eraseFails = sat 255 (s.core.efl.eraseFails + 1)) := by
    split
    next h => exact ⟨hlog, rfl, rfl, fun _ => congrArg (fun e : EflSt => sat 255 (e.eraseFails + 1)) hefl⟩
    next h => exact ⟨hlog, rfl, rfl, fun h' => absurd h' h⟩
  rw [hcounted] at hexec
  generalize (if recoveryFails s obs then eflCountFail y 6 else y) = z at hexec hlogZ hflashZ hirqZ hcountZ
  refine ⟨_, hexec, congrArg (fun l : LogSt => sat 255 (l.recoveries + 1)) hlogZ, (congrArg LogSt.gap hlogZ :), fun h => if_neg fun hf => ?_,
    fun h hwhy => ⟨if_pos (hfails.mpr ⟨hwhy, h⟩), hcountZ (hfails.mpr ⟨hwhy, h⟩)⟩, fun hgood hd i => ?_, fun hgood hw i => ?_, fun hd hlen => ?_⟩
  · obtain ⟨hwhy, hbad⟩ := hfails.mp hf
    rcases h with h | h
    · exact absurd (h.symm.trans hbad) (by decide)
    · exact hwhy.elim h.1 h.2
  · exact RowBlank.status (hflashZ ▸ hblank (hdirty.mpr hd) hgood i)
  · have hrow : RowBlank z.flash (16 * (spareSector s).getD 0 + i.val) := by
      rw [hflashZ, hspare (hwipe.mpr hw) hgood]
      exact eraseSectors_sector i
    exact RowBlank.status (s := settle (modLog z _)) hrow
  · have hwarn : bit (nth z.core.irq 0 {}).pend 30 = true := by
      rw [hirqZ.trans hirq]
      exact gapCheck_warns (hdirty.mpr hd) hlen
    exact pendRises_settle (modLog z _) 0 30 hwarn

/-- Settles O52: each phase's end, with what its erase, copy or record leaves of the rows. -/
theorem rotatingLogAdvancesAndRecovers : Obligations.RotatingLogAdvancesAndRecovers := by
  refine ⟨logAdvance_starts, fun s obs hup hdue hbanks hchans hbank => ?_, logRecovery_readies⟩
  intro l k free dirty starts sec blank ended
  have hexec := exec_logAdvancePhaseEnd hup hdue obs
  have hb : logBank s < s.core.efl.banks.length := by rw [hbanks]; exact hbank
  have hc : 9 < s.core.efl.chans.length := by rw [hchans]; decide
  have hdirty : gapDirty s obs = true ↔ dirty := gapDirty_iff
  refine ⟨fun h => ?_, fun ph hph hwaits => ?_, fun hstarted hruns => ?_⟩
  · have hop : advPhaseOp s obs = s := advPhaseOp_idle (h.imp_right fun h => .inr h.2)
    have htry : advTry s = s := by
      rcases h with h | h
      · exact advTry_none h
      · exact if_neg (by rw [show (logOf s).started = true from h.1]; simp)
    rw [hexec, hop, htry]
  · have hop : advPhaseOp s obs = s := advPhaseOp_idle (.inr (.inl hwaits))
    rw [hop] at hexec
    obtain ⟨hlog, hflash, hstart⟩ := advTry_starts hph hwaits
    exact ⟨_, hexec, hstart, (congrArg LogSt.phase hlog).trans hph, (congrArg LogSt.gap hlog :), (congrArg LogSt.state hlog :), hflash⟩
  · refine ⟨fun hph hclean => ?_, fun hph hdirt hirq => ?_, fun hph => prepare_ends hup hdue hstarted hruns hb hc hph, fun hph hgood hwf => ?_,
      fun hph hfail => copy_fails hup hdue hstarted hruns hb hc hph hfail, fun hph hgood hwf => ?_,
      fun hph hfail => commit_fails hup hdue hstarted hruns hb hc hph hfail, fun hph hgood => clean_ends hup hdue hstarted hruns hb hc hph hgood,
      fun hph hgood => cleanPtr_ends hup hdue hstarted hruns hb hc hph hgood, fun hph hfail => clean_fails hup hdue hstarted hruns hb hc hph hfail⟩
    · exact checkGap_passes hup hdue hstarted hruns hph (Bool.eq_false_iff.mpr fun h => hclean (hdirty.mp h))
    · exact checkGap_erases hup hdue hstarted hruns hb hc hirq hph (hdirty.mpr hdirt)
    · exact copy_ends hup hdue hstarted hruns hph hgood hwf
    · obtain ⟨t, hexec, hstart, ⟨started, hlog⟩, hrow⟩ := commit_ends hup hdue hstarted hruns hph hgood hwf
      have hmap : advMapping s = if (logOf s).gap = 0 then (logW s, ((logOf s).start + 1) % nmax 1 (logW s)) else ((logOf s).gap - 1, (logOf s).start) := rfl
      refine ⟨t, hexec, by rw [hlog], hstart, by rw [hlog], ?_, fun hgap => ?_, fun hgap hspan => ?_, fun x row hrec => ?_⟩
      · rw [hlog, hmap]
        split <;> rfl
      · rw [hlog, hmap, if_neg hgap]
      · rw [hlog, hmap, if_pos hgap]
        have hmax : nmax 1 (logW s) = l.span - 1 := by
          show nmax 1 (l.span - 1) = l.span - 1
          unfold nmax
          split <;> omega
        rw [hmax]
      · rw [hlog] at hrec ⊢
        cases hrec
        exact hrow.1

end Sys2Proof.Machine
end

section
/-! PROOFS. Chapter 11: what the end of each setup flash operation leaves (11 R310, R313-R319, R323, R324). -/

set_option Elab.async false

namespace Sys2Proof.Machine

variable {s x z t : State} {obs : EflObs} {b c result : Nat} {warn : Bool}

/-- The counts of failures, uncorrectable rows and TORN rows. -/
def eflCounts (s : State) : Nat × Nat × Nat × Nat :=
  (s.core.efl.eraseFails, s.core.efl.programFails, s.core.efl.uncorrRows, s.core.efl.tornRows)

theorem SameWork.counts (h : SameWork s x) : eflCounts x = eflCounts s :=
  h.get fun e => (e.eraseFails, e.programFails, e.uncorrRows, e.tornRows)

/-- The end of an operation: the bank is free, its channel DONE with its result, and what z held stays (11 R310). -/
structure Finished (z t : State) (b c result : Nat) (warn : Bool) : Prop where
  chan : (nth t.core.efl.banks b {}).chan = none
  state : (chOf t c).state = 3
  result : (chOf t c).result = if (chOf z c).dropped then 9 else result
  pend : (chOf z c).dropped = false → bit (nth t.core.irq (chOf z c).issuer.val {}).pend 29 = true
  warned : warn = true → bit (nth t.core.irq 0 {}).pend 30 = true
  reports : (chOf t c).rep0 = (chOf z c).rep0 ∧ (chOf t c).rep1 = (chOf z c).rep1 ∧ (chOf t c).torn = (chOf z c).torn
  flash : t.flash = z.flash
  buf : t.core.buf = z.core.buf
  counts : eflCounts t = eflCounts z
  log : ∃ started, logOf t = { logOf z with started := started }

/-- A waiting log phase that starts changes the log's mark, and suspends at most. -/
theorem advTry_work (s : State) : ∃ started, SameWork (modLog s fun l => { l with started := started }) (advTry s) := by
  unfold advTry
  split
  · exact ⟨true, (SameWork.refl _).opStarted⟩
  · exact ⟨(logOf s).started, .refl s⟩

/-- An operation that warns raises EFL_WARN in P0. -/
theorem eflFinish_warns (hirq : s.core.irq.length = 4) : bit (nth (eflFinish s b c result true).core.irq 0 {}).pend 30 = true := by
  unfold eflFinish
  extract_lets q s1 result' s2 s3
  have hlen : s3.core.irq.length = 4 := (((Goes.refl [.irqPend] s2).whenS fun _ h => h.raise (by decide)).irq_length (by decide)).trans hirq
  clear_value s3
  show bit (nth (raise (raise s3 (chOwner s3 c) 30) 0 30).core.irq 0 {}).pend 30 = true
  refine raise_pend _ _ _ ?_ (by decide)
  rw [((Goes.refl [.irqPend] s3).raise (by decide)).irq_length (by decide), hlen]
  decide

theorem finished_eflFinish (hb : b < z.core.efl.banks.length) (hc : c < z.core.efl.chans.length) (hirq : z.core.irq.length = 4) :
    Finished z (settle (advTry (eflFinish z b c result warn))) b c result warn := by
  have hwork := eflFinish_work (s := z) (b := b) (c := c) (result := result) (warn := warn)
  have hpend := eflFinish_pend (s := z) (b := b) (c := c) (result := result) (warn := warn) hirq
  have hwarned (h : warn = true) : bit (nth (eflFinish z b c result warn).core.irq 0 {}).pend 30 = true := by
    rw [h]
    exact eflFinish_warns hirq
  have hgoes : Goes [.irqPend, .efl] z (eflFinish z b c result warn) := (Goes.refl _ _).eflFinish (by decide) (by decide)
  have hbank := bankOf_modBank (f := fun k => { k with chan := none }) hb
  have hchan := chOf_modCh (s := modBank z b fun k => { k with chan := none })
    (f := fun k => { k with state := 3, result := if (chOf z c).dropped then 9 else result }) hc
  generalize eflFinish z b c result warn = y at *
  obtain ⟨started, htry⟩ := advTry_work y
  have htryGoes : Goes [.efl] y (advTry y) := (Goes.refl _ _).advTry (by decide)
  have hch : chOf (advTry y) c = { chOf z c with state := 3, result := if (chOf z c).dropped then 9 else result } :=
    (htry.chOf c).trans ((hwork.chOf c).trans hchan)
  have hlog : logOf (advTry y) = { logOf z with started := started } :=
    htry.logOf.trans (congrArg (fun l : LogSt => { l with started := started }) hwork.logOf)
  have hbankT : (bankOf (advTry y) b).chan = none := (htry.bankChan b).trans ((hwork.bankChan b).trans (congrArg EflBank.chan hbank))
  have hflash : (advTry y).flash = z.flash := htry.2.trans hwork.2
  have hbuf : (advTry y).core.buf = z.core.buf := (htryGoes.same .buf (by decide)).trans (hgoes.same .buf (by decide))
  have hcounts : eflCounts (advTry y) = eflCounts z := htry.counts.trans hwork.counts
  have hrises {p n : Nat} (h : bit (nth y.core.irq p {}).pend n = true) : bit (nth (settle (advTry y)).core.irq p {}).pend n = true :=
    pendRises_settle _ _ _ (htryGoes.pend_of (by decide) h)
  generalize advTry y = w at *
  exact ⟨hbankT, (congrArg EflChan.state hch :), (congrArg EflChan.result hch :), fun h => hrises (hpend h), fun h => hrises (hwarned h),
    ⟨(congrArg EflChan.rep0 hch :), (congrArg EflChan.rep1 hch :), (congrArg EflChan.torn hch :)⟩, hflash, hbuf, hcounts, _, hlog⟩

/-- The operation of channel c of s has ended in bank b. -/
def OpEnds (s t : State) (b c result : Nat) : Prop :=
  (nth t.core.efl.banks b {}).chan = none ∧ (chOf t c).state = 3 ∧ (chOf t c).result = (if (chOf s c).dropped then 9 else result) ∧
  ((chOf s c).dropped = false → bit (nth t.core.irq (chOf s c).issuer.val {}).pend 29 = true)

theorem Finished.ends (h : Finished z t b c result warn) (hd : (chOf z c).dropped = (chOf s c).dropped)
    (hi : (chOf z c).issuer = (chOf s c).issuer) : OpEnds s t b c result :=
  ⟨h.chan, h.state, hd ▸ h.result, fun hdrop => hi ▸ h.pend (hd.trans hdrop)⟩

/-- A bank that runs nothing, or whose operation is suspended, ends nothing. -/
theorem eflDoneOp_idle (h : (nth s.core.efl.banks b {}).chan = none ∨ (nth s.core.efl.banks b {}).suspended = true) : eflDoneOp s b obs = s := by
  unfold eflDoneOp
  split
  · rfl
  next c hchan =>
    rw [if_pos (h.resolve_left fun h => absurd (h.symm.trans hchan) (by simp))]

theorem exec_eflOpDone {b : Fin 2} (hup : coreUp s = true) (hdue : courseDue s 6 = false) (obs : EflObs) :
    exec (.eflOpDone b obs) s = .next (settle (advTry (eflDoneOp s b.val obs))) := by
  refine (instant_core (fun s => advTry (eflCourse (eflDoneOp s b.val obs))) hup).trans ?_
  have hgoes : Goes [.irqPend, .buf, .efl, .flash] s (eflDoneOp s b.val obs) :=
    (Goes.refl _ s).eflDoneOp (by decide) (by decide) (by decide) (by decide)
  rw [eflCourse, hgoes.courseDue_same (by decide), hdue]
  rfl

/-- The end of the operation of channel c. -/
def eflDoneBy (s : State) (b c : Nat) (obs : EflObs) : State :=
  match (chOf s c).op with
  | 1 => eflReadDone s b c obs
  | 2 => eflProgramDone s b c obs
  | 3 => eflEraseDone s b c obs
  | 4 => eflReadDone s b c obs
  | 5 => eflMarginDone s b c obs
  | 6 => eflMarginDone s b c obs
  | 9 => eflFormatDone s b obs
  | _ => s

/-- The operation that ends is its bank's (11 R310). -/
theorem eflDoneOp_runs (hchan : (nth s.core.efl.banks b {}).chan = some c) (hruns : (nth s.core.efl.banks b {}).suspended = false) :
    eflDoneOp s b obs = eflDoneBy s b c obs := by
  unfold eflDoneOp
  rw [hchan]
  exact if_neg (by rw [hruns]; decide)

section Erase

/-- What an ERASE leaves before its channel is DONE. -/
def eraseLeft (s : State) (c : Nat) (obs : EflObs) : State :=
  eflCountFail (whenS (c == 9 && !obs.eraseFail && !(chOf s c).dropped) (eraseSectors s ((chOf s c).phys / 4096) 1 obs.eraseFail)
    fun s => modLog s (fun l => { l with erases := sat 255 (l.erases + 1) })) (if obs.eraseFail then 6 else 0)

theorem eflEraseDone_eq : eflEraseDone s b c obs = eflFinish (eraseLeft s c obs) b c (if obs.eraseFail then 6 else 0) false := rfl

theorem eraseLeft_rest : (eraseLeft s c obs).core.efl.banks = s.core.efl.banks ∧ (eraseLeft s c obs).core.efl.chans = s.core.efl.chans ∧
    (eraseLeft s c obs).core.irq = s.core.irq ∧ (eraseLeft s c obs).flash = (eraseSectors s ((chOf s c).phys / 4096) 1 obs.eraseFail).flash ∧
    (eraseLeft s c obs).core.efl.eraseFails = if obs.eraseFail then sat 255 (s.core.efl.eraseFails + 1) else s.core.efl.eraseFails := by
  have hcore := (core_eraseSectors (s := s) ((chOf s c).phys / 4096) 1 obs.eraseFail).1
  unfold eraseLeft
  generalize eraseSectors s ((chOf s c).phys / 4096) 1 obs.eraseFail = y at hcore ⊢
  have hlogged {p : Bool} : (whenS p y fun s => modLog s (fun l => { l with erases := sat 255 (l.erases + 1) })).core.efl.banks = s.core.efl.banks ∧
      (whenS p y fun s => modLog s (fun l => { l with erases := sat 255 (l.erases + 1) })).core.efl.chans = s.core.efl.chans ∧
      (whenS p y fun s => modLog s (fun l => { l with erases := sat 255 (l.erases + 1) })).core.irq = s.core.irq ∧
      (whenS p y fun s => modLog s (fun l => { l with erases := sat 255 (l.erases + 1) })).flash = y.flash ∧
      (whenS p y fun s => modLog s (fun l => { l with erases := sat 255 (l.erases + 1) })).core.efl.eraseFails = s.core.efl.eraseFails := by
    unfold whenS
    rw [← hcore]
    split <;> exact ⟨rfl, rfl, rfl, rfl, rfl⟩
  obtain ⟨hbanks, hchans, hirq, hflash, hcount⟩ := hlogged (p := c == 9 && !obs.eraseFail && !(chOf s c).dropped)
  clear hlogged
  generalize whenS _ y _ = w at *
  refine ⟨hbanks, hchans, hirq, hflash, ?_⟩
  rw [← hcount]
  cases obs.eraseFail <;> rfl

end Erase

section Program

/-- What a PROGRAM that its checks have stopped leaves before its channel is DONE. -/
def stoppedLeft (s : State) (c : Nat) : State :=
  modF (modCh (whenS ((chOf s c).early == 3) s fun s => modF s fun e => { e with guardFails := sat 255 (e.guardFails + 1) }) c
    fun k => { k with torn := decide (0 < (chOf s c).tornRows) }) fun e => { e with tornRows := sat 255 (e.tornRows + (chOf s c).tornRows) }

/-- The row at which a PROGRAM's verify fails, if one does. -/
def programFails (s : State) (c : Nat) (obs : EflObs) : Option Nat := obs.failRow.filter fun k => decide (k < (chunks256 (chOf s c).data).length)

/-- What a PROGRAM leaves before its channel is DONE. -/
def programLeft (s : State) (c : Nat) (obs : EflObs) : State :=
  eflCountFail (programFrom s ((chOf s c).phys / 256) 0 ((chunks256 (chOf s c).data).map some) (programFails s c obs))
    (if (programFails s c obs).isSome then 5 else 0)

theorem eflProgramDone_eq : eflProgramDone s b c obs = if (chOf s c).early ≠ 0 then eflFinish (stoppedLeft s c) b c (chOf s c).early false
    else eflFinish (programLeft s c obs) b c (if (programFails s c obs).isSome then 5 else 0) false := rfl

theorem stoppedLeft_rest (hc : c < s.core.efl.chans.length) : (stoppedLeft s c).core.efl.banks = s.core.efl.banks ∧
    (stoppedLeft s c).core.efl.chans.length = s.core.efl.chans.length ∧ (stoppedLeft s c).core.irq = s.core.irq ∧
    (chOf (stoppedLeft s c) c).dropped = (chOf s c).dropped ∧ (chOf (stoppedLeft s c) c).issuer = (chOf s c).issuer ∧ (stoppedLeft s c).flash = s.flash := by
  unfold stoppedLeft
  have hpre {p : Bool} : (whenS p s fun s => modF s fun e => { e with guardFails := sat 255 (e.guardFails + 1) }).core.efl.banks = s.core.efl.banks ∧
      (whenS p s fun s => modF s fun e => { e with guardFails := sat 255 (e.guardFails + 1) }).core.efl.chans = s.core.efl.chans ∧
      (whenS p s fun s => modF s fun e => { e with guardFails := sat 255 (e.guardFails + 1) }).core.irq = s.core.irq ∧
      (whenS p s fun s => modF s fun e => { e with guardFails := sat 255 (e.guardFails + 1) }).flash = s.flash := by
    unfold whenS
    split <;> exact ⟨rfl, rfl, rfl, rfl⟩
  obtain ⟨hbanks, hchans, hirq, hflash⟩ := hpre (p := (chOf s c).early == 3)
  clear hpre
  generalize whenS _ s _ = y at *
  have hch : chOf (modCh y c fun k => { k with torn := decide (0 < (chOf s c).tornRows) }) c = { chOf s c with torn := decide (0 < (chOf s c).tornRows) } := by
    rw [chOf_modCh (hchans ▸ hc), chOf, hchans]
    rfl
  exact ⟨hbanks, (length_upd _ _ _).trans (congrArg List.length hchans), hirq, (congrArg EflChan.dropped hch :), (congrArg EflChan.issuer hch :), hflash⟩

theorem programLeft_rest : (programLeft s c obs).core.efl.banks = s.core.efl.banks ∧ (programLeft s c obs).core.efl.chans = s.core.efl.chans ∧
    (programLeft s c obs).core.irq = s.core.irq ∧
    (programLeft s c obs).flash = (programFrom s ((chOf s c).phys / 256) 0 ((chunks256 (chOf s c).data).map some) (programFails s c obs)).flash ∧
    (programLeft s c obs).core.efl.programFails = if (programFails s c obs).isSome then sat 255 (s.core.efl.programFails + 1) else s.core.efl.programFails := by
  have hcore := (core_programFrom (s := s) (row := (chOf s c).phys / 256) (n := 0) (chunks := (chunks256 (chOf s c).data).map some)
    (fail := programFails s c obs)).1
  unfold programLeft
  generalize programFrom s ((chOf s c).phys / 256) 0 ((chunks256 (chOf s c).data).map some) (programFails s c obs) = y at hcore ⊢
  rw [← hcore]
  refine ⟨rfl, rfl, rfl, rfl, ?_⟩
  cases (programFails s c obs).isSome <;> rfl

theorem length_chunks256 (bs : List Byte) : (chunks256 bs).length = bs.length / 256 := by
  rw [chunks256, List.length_map]
  exact List.length_range

theorem getElem?_chunks256 {bs : List Byte} {i : Nat} (hi : i < bs.length / 256) :
    ((chunks256 bs).map some)[i]? = some (some ((bs.drop (256 * i)).take 256)) := by
  rw [List.getElem?_map, chunks256, List.getElem?_map, upto, List.getElem?_range hi]
  rfl

theorem length_of_mem_chunks256 {bs bs' : List Byte} (h : some bs' ∈ (chunks256 bs).map some) : bs'.length = 256 := by
  obtain ⟨a, ha, hsome⟩ := List.mem_map.mp h
  obtain rfl : a = bs' := Option.some.inj hsome
  obtain ⟨i, hi, rfl⟩ := List.mem_map.mp ha
  have hi := List.mem_range.mp hi
  rw [List.length_take, List.length_drop]
  omega

end Program

section Format

/-- What a FORMAT leaves before its channel is DONE. -/
def formatLeft (s : State) (obs : EflObs) : State :=
  eflCountFail (modLog (eraseSectors s (logOf s).base ((logOf s).span + 2) obs.eraseFail) fun l =>
    if obs.eraseFail then { l with state := 5, recAt := none }
    else { l with state := 2, gap := l.span - 1, start := 0, seq := 0, erases := 0, recAt := none }) (if obs.eraseFail then 6 else 0)

theorem eflFormatDone_eq : eflFormatDone s b obs = eflFinish (formatLeft s obs) b 9 (if obs.eraseFail then 6 else 0) false := rfl

theorem formatLeft_rest : (formatLeft s obs).core.efl.banks = s.core.efl.banks ∧ (formatLeft s obs).core.efl.chans = s.core.efl.chans ∧
    (formatLeft s obs).core.irq = s.core.irq ∧ (formatLeft s obs).flash = (eraseSectors s (logOf s).base ((logOf s).span + 2) obs.eraseFail).flash ∧
    (formatLeft s obs).core.efl.eraseFails = (if obs.eraseFail then sat 255 (s.core.efl.eraseFails + 1) else s.core.efl.eraseFails) ∧
    logOf (formatLeft s obs) = if obs.eraseFail then { logOf s with state := 5, recAt := none }
      else { logOf s with state := 2, gap := (logOf s).span - 1, start := 0, seq := 0, erases := 0, recAt := none } := by
  have hcore := (core_eraseSectors (s := s) (logOf s).base ((logOf s).span + 2) obs.eraseFail).1
  unfold formatLeft
  generalize eraseSectors s (logOf s).base ((logOf s).span + 2) obs.eraseFail = y at hcore ⊢
  have hlog : logOf y = logOf s := congrArg (fun c : CoreSt => c.efl.log) hcore
  rw [← hlog, ← hcore]
  refine ⟨rfl, rfl, rfl, rfl, ?_, rfl⟩
  cases obs.eraseFail <;> rfl

end Format

section Read

/-- The rows that a READ or a SCAN finds. -/
def readRows (s : State) (c : Nat) (obs : EflObs) : List RowView := (eflRows (chOf s c)).zipIdx.map fun e => foundRow s obs e.2 e.1

/-- The granules of a READ, each with the two rows that it takes. -/
def readGranules (s : State) (c : Nat) (obs : EflObs) : List (Nat × List Byte) := (eflGranules (chOf s c)).zipIdx.map fun e =>
  (e.1, (nth (readRows s c obs) (2 * e.2) { status := 0, bytes := [], bad := [] }).bytes ++
        (nth (readRows s c obs) (2 * e.2 + 1) { status := 0, bytes := [], bad := [] }).bytes)

/-- What a READ or a SCAN delivers. -/
def delivered (s : State) (c : Nat) (obs : EflObs) : State × Nat × Bool :=
  if (chOf s c).op = 1 then eflDeliver s (chOf s c).issuer.val (readGranules s c obs) 0 else (s, (eflRows (chOf s c)).length, false)

/-- Rows of a status. -/
def rowsOf (vs : List RowView) (k : Nat) : Nat := (vs.filter fun v => v.status == k).length

/-- PROGRAMMED rows with an uncorrectable word. -/
def lostRows (vs : List RowView) : Nat := (vs.filter fun v => v.status == 0 && !v.bad.isEmpty).length

/-- Rows of the first n that a READ or SCAN warns of. -/
def warnedRows (s : State) (b n : Nat) (obs : EflObs) : Nat :=
  ((upto n).filter fun i => decide (fld (eflCfg s b) 0 6 ≤ nth ((upto n).map fun i => nth obs.corr i 0) i 0) || obs.twos.elem i).length

/-- What a READ or a SCAN leaves before its channel is DONE, with the rows it has read. -/
def readLeft (s d : State) (b c : Nat) (obs : EflObs) (vs : List RowView) : State :=
  modF (modCh d c fun k => { k with
      warn := decide (0 < warnedRows d b vs.length obs), torn := decide (0 < rowsOf vs 2)
      rep0 := mkW [(0, 9, rowsOf vs 1), (9, 9, rowsOf vs 2), (18, 9, lostRows vs)]
      rep1 := mkW ([(0, 6, sat 63 (listMax ((upto vs.length).map fun i => nth obs.corr i 0))),
          (8, 8, firstMax ((upto vs.length).map fun i => nth obs.corr i 0))] ++
        (if (chOf s c).op = 4 then [(16, 8, (vs.findIdx? fun v => v.status == 1).getD 0), (24, 1, b2n (vs.findIdx? fun v => v.status == 1).isSome)] else [])) })
    fun e => { e with
      warnRows := sat 255 (e.warnRows + warnedRows d b vs.length obs), tornRows := sat 255 (e.tornRows + rowsOf vs 2)
      uncorrRows := sat 255 (e.uncorrRows + lostRows vs) }

theorem eflReadDone_eq : eflReadDone s b c obs =
    eflFinish (readLeft s (delivered s c obs).1 b c obs ((readRows s c obs).take (delivered s c obs).2.1)) b c
      (if (delivered s c obs).2.2 then 2 else if 0 < lostRows ((readRows s c obs).take (delivered s c obs).2.1) then 7 else 0)
      (decide (0 < warnedRows (delivered s c obs).1 b ((readRows s c obs).take (delivered s c obs).2.1).length obs)) := rfl

theorem length_readRows : (readRows s c obs).length = (eflRows (chOf s c)).length := by
  rw [readRows, List.length_map, List.length_zipIdx]

/-- The granules that a READ fills, in order. -/
def granulesFilled (s : State) (l : List (Nat × List Byte)) : State := l.foldl (fun s e => granuleFill s e.1 e.2 true) s

/-- While every granule is in the quota the whole READ is delivered. -/
theorem eflDeliver_whole {p : Nat} (l : List (Nat × List Byte)) : ∀ (s : State) (n : Nat), l.all (fun e => inQuota s p e.1) = true →
    eflDeliver s p l n = (granulesFilled s l, n + 2 * l.length, false) := by
  induction l with
  | nil => exact fun s n _ => rfl
  | cons e l ih =>
    intro s n h
    obtain ⟨he, hl⟩ := Bool.and_eq_true_iff.mp h
    obtain ⟨g, bs⟩ := e
    unfold eflDeliver
    rw [if_pos he, ih (granuleFill s g bs true) (n + 2) hl, List.length_cons]
    rw [show n + 2 + 2 * l.length = n + 2 * (l.length + 1) by omega]
    rfl

/-- A READ within its quota, or a SCAN, reads all its rows. -/
theorem delivered_whole (h : (chOf s c).op = 4 ∨ ((chOf s c).op = 1 ∧ (eflGranules (chOf s c)).all (inQuota s (chOf s c).issuer.val) = true)) :
    delivered s c obs = (if (chOf s c).op = 1 then granulesFilled s (readGranules s c obs) else s, (readRows s c obs).length, false) := by
  rcases h with h | ⟨h, hquota⟩
  · rw [delivered, if_neg (by omega), if_neg (by omega), length_readRows]
  · rw [delivered, if_pos h, if_pos h, eflDeliver_whole, length_readRows]
    · have hlen : 0 + 2 * (readGranules s c obs).length = (eflRows (chOf s c)).length := by
        rw [readGranules, List.length_map, List.length_zipIdx, eflGranules, if_pos (.inl h), eflRows, List.length_map, List.length_map, h]
        show 0 + 2 * (List.range _).length = (List.range (512 * ((chOf s c).count + 1) / 256)).length
        rw [List.length_range, List.length_range]
        omega
      rw [hlen]
    · rw [List.all_eq_true]
      intro e he
      obtain ⟨a, ha, rfl⟩ := List.mem_map.mp he
      exact List.all_eq_true.mp hquota a.1 (List.fst_mem_of_mem_zipIdx ha)

theorem core_granulesFilled (l : List (Nat × List Byte)) : (granulesFilled s l).core.efl = s.core.efl ∧ (granulesFilled s l).core.irq = s.core.irq ∧
    (granulesFilled s l).flash = s.flash := by
  unfold granulesFilled
  induction l generalizing s with
  | nil => exact ⟨rfl, rfl, rfl⟩
  | cons e l ih => exact ih (s := granuleFill s e.1 e.2 true)

theorem granuleBytes_granuleFill {g : Nat} {bs : List Byte} {ok : Bool} (hwf : swf bufReset s.core.buf.mem = true) (hlen : bs.length = 512) :
    granuleBytes (granuleFill s g bs ok) g = bs := by
  have hread : sgetRun bufReset (ssetRun bufReset s.core.buf.mem (512 * g) bs) (512 * g) bs.length = bs := sgetRun_ssetRun _ bs hwf
  rw [hlen] at hread
  exact hread

/-- A fill leaves the other granules. -/
theorem granuleFill_other {g h : Nat} {bs : List Byte} {ok : Bool} (hne : h ≠ g) (hlen : bs.length = 512) :
    granuleBytes (granuleFill s g bs ok) h = granuleBytes s h ∧ bit (granuleFill s g bs ok).core.buf.written h = bit s.core.buf.written h ∧
      bit (granuleFill s g bs ok).core.buf.guardOk h = bit s.core.buf.guardOk h := by
  refine ⟨?_, bit_setBit_ne s.core.buf.written _ _ _ hne, bit_setBit_ne s.core.buf.guardOk _ _ _ hne⟩
  rw [granuleBytes_eq_map, granuleBytes_eq_map]
  refine List.map_congr_left fun i hi => ?_
  have hi := List.mem_range.mp hi
  exact sget_ssetRun_out _ _ _ _ _ (by omega)

/-- A granule holds the bytes, and where it lies in the buffer it is marked written, its guard valid. -/
def GranuleHolds (s : State) (g : Nat) (bs : List Byte) : Prop :=
  granuleBytes s g = bs ∧ (g < 512 → bit s.core.buf.written g = true ∧ bit s.core.buf.guardOk g = true)

theorem granuleHolds_fill {g : Nat} {bs : List Byte} (hwf : swf bufReset s.core.buf.mem = true) (hlen : bs.length = 512) :
    GranuleHolds (granuleFill s g bs true) g bs :=
  ⟨granuleBytes_granuleFill hwf hlen, fun hg => ⟨bit_setBit_same s.core.buf.written _ _ hg, bit_setBit_same s.core.buf.guardOk _ _ hg⟩⟩

/-- Each granule of a READ holds the two rows that it takes. -/
theorem granulesFilled_holds (l : List (Nat × List Byte)) : ∀ s : State, swf bufReset s.core.buf.mem = true → (∀ e ∈ l, e.2.length = 512) →
    (l.map Prod.fst).Nodup →
    (∀ g bs, g ∉ l.map Prod.fst → GranuleHolds s g bs → GranuleHolds (granulesFilled s l) g bs) ∧
    ∀ e ∈ l, GranuleHolds (granulesFilled s l) e.1 e.2 := by
  induction l with
  | nil => exact fun s _ _ _ => ⟨fun g bs _ h => h, fun e he => nomatch he⟩
  | cons e l ih =>
    intro s hwf hlen hnodup
    obtain ⟨hfresh, hnodup⟩ := List.nodup_cons.mp hnodup
    have hlenE := hlen e List.mem_cons_self
    obtain ⟨hkeeps, hall⟩ := ih (granuleFill s e.1 e.2 true) (swf_ssetRun _ _ _ _ hwf) (fun a ha => hlen a (List.mem_cons_of_mem _ ha)) hnodup
    refine ⟨fun g bs hg h => ?_, fun a ha => ?_⟩
    · obtain ⟨hne, hg⟩ := not_or.mp (mt List.mem_cons.mpr hg)
      obtain ⟨hbytes, hwritten, hguard⟩ := granuleFill_other (s := s) (ok := true) hne hlenE
      exact hkeeps g bs hg ⟨hbytes.trans h.1, fun hlt => ⟨hwritten.trans (h.2 hlt).1, hguard.trans (h.2 hlt).2⟩⟩
    · rcases List.mem_cons.mp ha with rfl | ha
      · exact hkeeps _ _ hfresh (granuleHolds_fill hwf hlenE)
      · exact hall a ha

/-- What a READ or SCAN reports, with the rows vs it has read (11 R313-R315). -/
theorem readLeft_rest {d : State} {vs : List RowView} (hefl : d.core.efl = s.core.efl) (hc : c < s.core.efl.chans.length) :
    (readLeft s d b c obs vs).core.efl.banks = s.core.efl.banks ∧ (readLeft s d b c obs vs).core.efl.chans.length = s.core.efl.chans.length ∧
    (readLeft s d b c obs vs).core.irq = d.core.irq ∧ (readLeft s d b c obs vs).core.buf = d.core.buf ∧ (readLeft s d b c obs vs).flash = d.flash ∧
    eflCounts (readLeft s d b c obs vs) = (s.core.efl.eraseFails, s.core.efl.programFails, sat 255 (s.core.efl.uncorrRows + lostRows vs),
      sat 255 (s.core.efl.tornRows + rowsOf vs 2)) ∧
    (chOf (readLeft s d b c obs vs) c).dropped = (chOf s c).dropped ∧ (chOf (readLeft s d b c obs vs) c).issuer = (chOf s c).issuer ∧
    (chOf (readLeft s d b c obs vs) c).torn = decide (0 < rowsOf vs 2) ∧
    (chOf (readLeft s d b c obs vs) c).rep0 = mkW [(0, 9, rowsOf vs 1), (9, 9, rowsOf vs 2), (18, 9, lostRows vs)] ∧
    (chOf (readLeft s d b c obs vs) c).rep1 = mkW ([(0, 6, sat 63 (listMax ((upto vs.length).map fun i => nth obs.corr i 0))),
      (8, 8, firstMax ((upto vs.length).map fun i => nth obs.corr i 0))] ++
      (if (chOf s c).op = 4 then [(16, 8, (vs.findIdx? fun v => v.status == 1).getD 0), (24, 1, b2n (vs.findIdx? fun v => v.status == 1).isSome)] else [])) := by
  have hd : chOf d c = chOf s c := congrArg (fun e : EflSt => nth e.chans c {}) hefl
  unfold readLeft
  generalize warnedRows d b vs.length obs = w
  generalize mkW [(0, 9, rowsOf vs 1), (9, 9, rowsOf vs 2), (18, 9, lostRows vs)] = rep0
  generalize mkW _ = rep1
  have hch : chOf (modCh d c fun k => { k with warn := decide (0 < w), torn := decide (0 < rowsOf vs 2), rep0 := rep0, rep1 := rep1 }) c =
      { chOf s c with warn := decide (0 < w), torn := decide (0 < rowsOf vs 2), rep0 := rep0, rep1 := rep1 } := by
    rw [chOf_modCh (hefl ▸ hc), hd]
  refine ⟨(congrArg EflSt.banks hefl :), (length_upd _ _ _).trans (congrArg (fun e : EflSt => e.chans.length) hefl :), rfl, rfl, rfl, ?_,
    (congrArg EflChan.dropped hch :), (congrArg EflChan.issuer hch :), (congrArg EflChan.torn hch :), (congrArg EflChan.rep0 hch :), (congrArg EflChan.rep1 hch :)⟩
  rw [← hefl]
  rfl

end Read

section Margin

/-- The warning and error rows of a margin operation. -/
def marginRows (s : State) (c : Nat) (obs : EflObs) : List RowView :=
  if (chOf s c).op == 5 then (eflRows (chOf s c)).zipIdx.map fun e => foundRow s obs e.2 e.1 else []

/-- Its rows that warn. -/
def marginWarned (s : State) (b c : Nat) (obs : EflObs) : Nat :=
  if (chOf s c).op == 5 then
    ((upto (eflRows (chOf s c)).length).filter fun i => decide (fld (eflCfg s b) 0 6 ≤ nth obs.corr i 0) || obs.twos.elem i).length else 0

/-- The failing bits that it reports. -/
def marginFound (s : State) (c : Nat) (obs : EflObs) : List Nat :=
  marginCounts s ((chOf s c).op == 5) obs ((chOf s c).phys / 256) (eflRows (chOf s c)).length

/-- The flash after a margin operation. -/
def marginCleaned (s : State) (c : Nat) (obs : EflObs) : State :=
  whenS (!((chOf s c).op == 5)) s fun x => marginClean x ((chOf s c).phys / 256) (marginFound s c obs)

/-- What a margin operation leaves before its channel is DONE. -/
def marginLeft (s : State) (b c : Nat) (obs : EflObs) : State :=
  modF (modCh (marginCleaned s c obs) c fun k => { k with
      warn := decide (0 < marginWarned s b c obs), torn := decide (0 < rowsOf (marginRows s c obs) 2)
      rep1 := mkW [(0, 6, sat 63 (listMax (marginFound s c obs))), (8, 8, firstMax (marginFound s c obs))] })
    fun e => { e with
      warnRows := sat 255 (e.warnRows + marginWarned s b c obs), tornRows := sat 255 (e.tornRows + rowsOf (marginRows s c obs) 2)
      uncorrRows := sat 255 (e.uncorrRows + lostRows (marginRows s c obs)) }

theorem eflMarginDone_eq : eflMarginDone s b c obs = eflFinish (marginLeft s b c obs) b c
    (if 0 < listMax (marginFound s c obs) then 11 else if 0 < lostRows (marginRows s c obs) then 7 else 0)
    (decide (0 < marginWarned s b c obs) || decide (0 < listMax (marginFound s c obs))) := rfl

theorem core_marginCleaned : (marginCleaned s c obs).core = s.core := by
  unfold marginCleaned whenS
  split
  · exact (core_flashClean _).1
  · rfl

theorem marginLeft_rest (hc : c < s.core.efl.chans.length) :
    (marginLeft s b c obs).core.efl.banks = s.core.efl.banks ∧ (marginLeft s b c obs).core.efl.chans.length = s.core.efl.chans.length ∧
    (marginLeft s b c obs).core.irq = s.core.irq ∧ (marginLeft s b c obs).core.buf = s.core.buf ∧
    (marginLeft s b c obs).flash = (marginCleaned s c obs).flash ∧
    (chOf (marginLeft s b c obs) c).dropped = (chOf s c).dropped ∧ (chOf (marginLeft s b c obs) c).issuer = (chOf s c).issuer ∧
    (chOf (marginLeft s b c obs) c).rep1 = mkW [(0, 6, sat 63 (listMax (marginFound s c obs))), (8, 8, firstMax (marginFound s c obs))] := by
  have hcore := core_marginCleaned (s := s) (c := c) (obs := obs)
  unfold marginLeft
  generalize marginCleaned s c obs = y at hcore ⊢
  generalize marginWarned s b c obs = w
  generalize mkW [(0, 6, sat 63 (listMax (marginFound s c obs))), (8, 8, firstMax (marginFound s c obs))] = rep1
  have hd : chOf y c = chOf s c := congrArg (fun k : CoreSt => nth k.efl.chans c {}) hcore
  have hch : chOf (modCh y c fun k => { k with warn := decide (0 < w), torn := decide (0 < rowsOf (marginRows s c obs) 2), rep1 := rep1 }) c =
      { chOf s c with warn := decide (0 < w), torn := decide (0 < rowsOf (marginRows s c obs) 2), rep1 := rep1 } := by
    rw [chOf_modCh (hcore ▸ hc), hd]
  exact ⟨(congrArg (fun k : CoreSt => k.efl.banks) hcore :), (length_upd _ _ _).trans (congrArg (fun k : CoreSt => k.efl.chans.length) hcore :),
    (congrArg CoreSt.irq hcore :), (congrArg CoreSt.buf hcore :), rfl, (congrArg EflChan.dropped hch :), (congrArg EflChan.issuer hch :), (congrArg EflChan.rep1 hch :)⟩

end Margin

section Ends

variable {b : Fin 2} (hup : coreUp s = true) (hdue : courseDue s 6 = false) (hbanks : s.core.efl.banks.length = 2)
  (hchans : s.core.efl.chans.length = 10) (hirq : s.core.irq.length = 4) (hc : c < 10)
include hup hdue hbanks hchans hirq hc

/-- An operation that ends from z: the channel, the bank and EFL_DONE, and what z leaves. -/
theorem operation_ends (hop : eflDoneOp s b.val obs = eflFinish z b.val c result warn) (hzb : z.core.efl.banks.length = s.core.efl.banks.length)
    (hzc : z.core.efl.chans.length = s.core.efl.chans.length) (hzirq : z.core.irq.length = s.core.irq.length)
    (hzd : (chOf z c).dropped = (chOf s c).dropped) (hzi : (chOf z c).issuer = (chOf s c).issuer) :
    ∃ t, exec (.eflOpDone b obs) s = .next t ∧ OpEnds s t b.val c result ∧ Finished z t b.val c result warn := by
  have hb : b.val < z.core.efl.banks.length := by rw [hzb, hbanks]; exact b.isLt
  have hcz : c < z.core.efl.chans.length := by rw [hzc, hchans]; exact hc
  have hfinished := finished_eflFinish (b := b.val) (c := c) (result := result) (warn := warn) hb hcz (hzirq.trans hirq)
  refine ⟨_, exec_eflOpDone hup hdue obs, ?_, ?_⟩
  · rw [hop]
    exact hfinished.ends hzd hzi
  · rw [hop]
    exact hfinished

variable (hchan : (nth s.core.efl.banks b.val {}).chan = some c) (hruns : (nth s.core.efl.banks b.val {}).suspended = false)
include hchan hruns

/-- ERASE (11 R317). -/
theorem erase_ends (hop : (chOf s c).op = 3) :
    (obs.eraseFail = false → ∃ t, exec (.eflOpDone b obs) s = .next t ∧ OpEnds s t b.val c 0 ∧
      (∀ i : Fin 16, (rowView t (16 * ((chOf s c).phys / 4096) + i.val)).status = 1) ∧
      ∀ r, r < 16 * ((chOf s c).phys / 4096) ∨ 16 * ((chOf s c).phys / 4096) + 16 ≤ r → s.flash.undef.elem r = false →
        s.flash.unmarked.elem r = false → rowView t r = rowView s r) ∧
    (obs.eraseFail = true → ∃ t, exec (.eflOpDone b obs) s = .next t ∧ OpEnds s t b.val c 6 ∧ t.core.efl.eraseFails = sat 255 (s.core.efl.eraseFails + 1)) := by
  have hdone := eflDoneOp_runs (obs := obs) hchan hruns
  unfold eflDoneBy at hdone
  rw [hop] at hdone
  obtain ⟨hzb, hzc, hzirq, hflash, hcount⟩ := eraseLeft_rest (s := s) (c := c) (obs := obs)
  have hzch : chOf (eraseLeft s c obs) c = chOf s c := congrArg (fun l => nth l c ({} : EflChan)) hzc
  obtain ⟨t, hexec, hends, hfin⟩ := operation_ends hup hdue hbanks hchans hirq hc (hdone.trans eflEraseDone_eq) (congrArg List.length hzb)
    (congrArg List.length hzc) (congrArg List.length hzirq) (congrArg EflChan.dropped hzch) (congrArg EflChan.issuer hzch)
  refine ⟨fun hgood => ?_, fun hfail => ?_⟩
  · rw [hgood] at hends hflash
    have htflash := hfin.flash.trans hflash
    refine ⟨t, hexec, hends, blank_of_erased htflash, fun r hr hundef hunmarked => ?_⟩
    refine SameRow.rowView_fixed ?_ (by rw [rowOpen, hundef, hunmarked]; rfl)
    rw [htflash]
    exact eraseSectors_out (by omega)
  · rw [hfail] at hends hcount
    exact ⟨t, hexec, hends, (congrArg Prod.fst hfin.counts).trans hcount⟩

/-- A PROGRAM that its checks stopped (11 R316). -/
theorem program_stops (hop : (chOf s c).op = 2) (hearly : (chOf s c).early ≠ 0) :
    ∃ t, exec (.eflOpDone b obs) s = .next t ∧ OpEnds s t b.val c (chOf s c).early ∧ t.flash = s.flash := by
  have hdone := eflDoneOp_runs (obs := obs) hchan hruns
  unfold eflDoneBy at hdone
  rw [hop] at hdone
  obtain ⟨hzb, hzc, hzirq, hzd, hzi, hflash⟩ := stoppedLeft_rest (s := s) (c := c) (hchans ▸ hc)
  obtain ⟨t, hexec, hends, hfin⟩ := operation_ends hup hdue hbanks hchans hirq hc
    (hdone.trans (eflProgramDone_eq.trans (if_pos hearly))) (congrArg List.length hzb) hzc (congrArg List.length hzirq) hzd hzi
  exact ⟨t, hexec, hends, hfin.flash.trans hflash⟩

/-- A PROGRAM that runs, with its result (11 R316). -/
theorem program_ends (hop : (chOf s c).op = 2) (hearly : (chOf s c).early = 0) :
    ∃ t, exec (.eflOpDone b obs) s = .next t ∧ OpEnds s t b.val c (if (programFails s c obs).isSome then 5 else 0) ∧
      t.flash = (programFrom s ((chOf s c).phys / 256) 0 ((chunks256 (chOf s c).data).map some) (programFails s c obs)).flash ∧
      t.core.efl.programFails = if (programFails s c obs).isSome then sat 255 (s.core.efl.programFails + 1) else s.core.efl.programFails := by
  have hdone := eflDoneOp_runs (obs := obs) hchan hruns
  unfold eflDoneBy at hdone
  rw [hop] at hdone
  obtain ⟨hzb, hzc, hzirq, hflash, hcount⟩ := programLeft_rest (s := s) (c := c) (obs := obs)
  have hzch : chOf (programLeft s c obs) c = chOf s c := congrArg (fun l => nth l c ({} : EflChan)) hzc
  obtain ⟨t, hexec, hends, hfin⟩ := operation_ends hup hdue hbanks hchans hirq hc
    (hdone.trans (eflProgramDone_eq.trans (if_neg (not_not.mpr hearly)))) (congrArg List.length hzb)
    (congrArg List.length hzc) (congrArg List.length hzirq) (congrArg EflChan.dropped hzch) (congrArg EflChan.issuer hzch)
  exact ⟨t, hexec, hends, hfin.flash.trans hflash, (congrArg (fun k : Nat × Nat × Nat × Nat => k.2.1) hfin.counts).trans hcount⟩

/-- FORMAT (11 R323, R324). -/
theorem format_ends (hop : (chOf s c).op = 9) (hlog : c = 9) :
    ∃ t, exec (.eflOpDone b obs) s = .next t ∧ OpEnds s t b.val c (if obs.eraseFail then 6 else 0) ∧
      (obs.eraseFail = true → (logOf t).state = 5 ∧ t.core.efl.eraseFails = sat 255 (s.core.efl.eraseFails + 1)) ∧
      (obs.eraseFail = false → (logOf t).state = 2 ∧ (logOf t).gap = (logOf s).span - 1 ∧ (logOf t).start = 0 ∧ (logOf t).seq = 0 ∧
        (logOf t).erases = 0 ∧ (logOf t).recAt = none ∧
        ∀ r, 16 * (logOf s).base ≤ r → r < 16 * ((logOf s).base + (logOf s).span + 2) → (rowView t r).status = 1) := by
  subst hlog
  have hdone := eflDoneOp_runs (obs := obs) hchan hruns
  unfold eflDoneBy at hdone
  rw [hop] at hdone
  obtain ⟨hzb, hzc, hzirq, hflash, hcount, hlog⟩ := formatLeft_rest (s := s) (obs := obs)
  have hzch : chOf (formatLeft s obs) 9 = chOf s 9 := congrArg (fun l => nth l 9 ({} : EflChan)) hzc
  obtain ⟨t, hexec, hends, hfin⟩ := operation_ends hup hdue hbanks hchans hirq hc (hdone.trans eflFormatDone_eq)
    (congrArg List.length hzb) (congrArg List.length hzc) (congrArg List.length hzirq) (congrArg EflChan.dropped hzch) (congrArg EflChan.issuer hzch)
  obtain ⟨started, hlogT⟩ := hfin.log
  refine ⟨t, hexec, hends, fun hfail => ?_, fun hgood => ?_⟩
  · rw [hfail, if_pos rfl] at hcount hlog
    refine ⟨?_, (congrArg Prod.fst hfin.counts).trans hcount⟩
    rw [hlogT, hlog]
  · rw [hgood, if_neg (by decide)] at hlog
    rw [hlog] at hlogT
    rw [hlogT]
    refine ⟨rfl, rfl, rfl, rfl, rfl, rfl, fun r hlo hhi => RowBlank.status ?_⟩
    rw [hfin.flash, hflash, hgood]
    exact eraseSectors_blank hlo (by omega)

/-- A READ within its quota, or a SCAN: what it reports (11 R313-R315). -/
theorem read_ends (h : (chOf s c).op = 4 ∨ ((chOf s c).op = 1 ∧ (eflGranules (chOf s c)).all (inQuota s (chOf s c).issuer.val) = true)) :
    ∃ t, exec (.eflOpDone b obs) s = .next t ∧ OpEnds s t b.val c (if 0 < lostRows (readRows s c obs) then 7 else 0) ∧ t.flash = s.flash ∧
      t.core.buf = (if (chOf s c).op = 1 then granulesFilled s (readGranules s c obs) else s).core.buf ∧
      (chOf t c).rep0 = mkW [(0, 9, rowsOf (readRows s c obs) 1), (9, 9, rowsOf (readRows s c obs) 2), (18, 9, lostRows (readRows s c obs))] ∧
      (chOf t c).torn = decide (0 < rowsOf (readRows s c obs) 2) ∧
      t.core.efl.uncorrRows = sat 255 (s.core.efl.uncorrRows + lostRows (readRows s c obs)) ∧
      t.core.efl.tornRows = sat 255 (s.core.efl.tornRows + rowsOf (readRows s c obs) 2) ∧
      ((chOf s c).op = 4 → (chOf t c).rep1 = mkW [(0, 6, sat 63 (listMax ((upto (readRows s c obs).length).map fun i => nth obs.corr i 0))),
        (8, 8, firstMax ((upto (readRows s c obs).length).map fun i => nth obs.corr i 0)),
        (16, 8, ((readRows s c obs).findIdx? fun v => v.status == 1).getD 0), (24, 1, b2n ((readRows s c obs).findIdx? fun v => v.status == 1).isSome)]) := by
  have hdone : eflDoneOp s b.val obs = eflReadDone s b.val c obs := by
    have hdone := eflDoneOp_runs (obs := obs) hchan hruns
    unfold eflDoneBy at hdone
    rcases h with h | ⟨h, -⟩
    · rwa [h] at hdone
    · rwa [h] at hdone
  rw [eflReadDone_eq, delivered_whole h, List.take_length] at hdone
  dsimp only at hdone
  rw [if_neg Bool.false_ne_true] at hdone
  have hefl : (if (chOf s c).op = 1 then granulesFilled s (readGranules s c obs) else s).core.efl = s.core.efl ∧
      (if (chOf s c).op = 1 then granulesFilled s (readGranules s c obs) else s).core.irq = s.core.irq ∧
      (if (chOf s c).op = 1 then granulesFilled s (readGranules s c obs) else s).flash = s.flash := by
    split
    · exact core_granulesFilled _
    · exact ⟨rfl, rfl, rfl⟩
  generalize (if (chOf s c).op = 1 then granulesFilled s (readGranules s c obs) else s) = d at hdone hefl ⊢
  obtain ⟨hzb, hzc, hzirq, hzbuf, hzflash, hzcounts, hzd, hzi, hztorn, hzrep0, hzrep1⟩ :=
    readLeft_rest (b := b.val) (obs := obs) (vs := readRows s c obs) hefl.1 (hchans ▸ hc)
  obtain ⟨t, hexec, hends, hfin⟩ := operation_ends hup hdue hbanks hchans hirq hc hdone (congrArg List.length hzb) hzc
    (congrArg List.length (hzirq.trans hefl.2.1)) hzd hzi
  obtain ⟨hrep0, hrep1, htorn⟩ := hfin.reports
  have hcounts := hfin.counts.trans hzcounts
  refine ⟨t, hexec, hends, (hfin.flash.trans hzflash).trans hefl.2.2, hfin.buf.trans hzbuf, hrep0.trans hzrep0, htorn.trans hztorn,
    congrArg (fun k : Nat × Nat × Nat × Nat => k.2.2.1) hcounts, congrArg (fun k : Nat × Nat × Nat × Nat => k.2.2.2) hcounts, fun h4 => ?_⟩
  rw [hrep1, hzrep1, if_pos h4]
  rfl

/-- MARGIN_PV and MARGIN_EV (11 R317, R318). -/
theorem margin_ends (h : (chOf s c).op = 5 ∨ (chOf s c).op = 6) :
    ∃ t, exec (.eflOpDone b obs) s = .next t ∧
      OpEnds s t b.val c (if 0 < listMax (marginFound s c obs) then 11 else if 0 < lostRows (marginRows s c obs) then 7 else 0) ∧
      t.core.buf = s.core.buf ∧ t.flash = (marginCleaned s c obs).flash ∧
      (chOf t c).rep1 = mkW [(0, 6, sat 63 (listMax (marginFound s c obs))), (8, 8, firstMax (marginFound s c obs))] ∧
      (0 < listMax (marginFound s c obs) → bit (nth t.core.irq 0 {}).pend 30 = true) := by
  have hdone : eflDoneOp s b.val obs = eflMarginDone s b.val c obs := by
    have hdone := eflDoneOp_runs (obs := obs) hchan hruns
    unfold eflDoneBy at hdone
    rcases h with h | h
    · rwa [h] at hdone
    · rwa [h] at hdone
  obtain ⟨hzb, hzc, hzirq, hzbuf, hzflash, hzd, hzi, hzrep1⟩ := marginLeft_rest (b := b.val) (obs := obs) (hchans ▸ hc)
  obtain ⟨t, hexec, hends, hfin⟩ := operation_ends hup hdue hbanks hchans hirq hc (hdone.trans eflMarginDone_eq) (congrArg List.length hzb) hzc
    (congrArg List.length hzirq) hzd hzi
  exact ⟨t, hexec, hends, hfin.buf.trans hzbuf, hfin.flash.trans hzflash, hfin.reports.2.1.trans hzrep1,
    fun hpos => hfin.warned (by rw [decide_eq_true hpos, Bool.or_true])⟩

end Ends

/-- Row i of an operation is the i-th from its first, as it was found. -/
theorem readRows_eq (s : State) (c : Nat) (obs : EflObs) : readRows s c obs =
    (upto (eflLen (chOf s c).op (chOf s c).count / 256)).map fun i => foundRow s obs i ((chOf s c).phys / 256 + i) := by
  rw [readRows, eflRows, upto]
  refine List.ext_getElem (by simp) fun i hi hi' => ?_
  simp

theorem length_rows_read (h : (chOf s c).op = 1) : eflLen (chOf s c).op (chOf s c).count / 256 = 2 * ((chOf s c).count + 1) := by
  rw [h]
  show 512 * ((chOf s c).count + 1) / 256 = _
  omega

theorem nth_readRows {i : Nat} (hi : i < eflLen (chOf s c).op (chOf s c).count / 256) (d : RowView) :
    nth (readRows s c obs) i d = foundRow s obs i ((chOf s c).phys / 256 + i) := by
  rw [readRows_eq, nth, List.getD_eq_getElem?_getD, List.getElem?_map, upto, List.getElem?_range hi]
  rfl

/-- Granule i of a READ takes the rows 2 i and 2 i + 1. -/
theorem readGranules_eq (h : (chOf s c).op = 1) : readGranules s c obs = (upto ((chOf s c).count + 1)).map fun i =>
    ((chOf s c).granule + i, (foundRow s obs (2 * i) ((chOf s c).phys / 256 + 2 * i)).bytes ++
      (foundRow s obs (2 * i + 1) ((chOf s c).phys / 256 + 2 * i + 1)).bytes) := by
  have hlen := length_rows_read h
  rw [readGranules, eflGranules, if_pos (.inl h), upto]
  refine List.ext_getElem (by simp) fun i hi hi' => ?_
  have hi : i < (chOf s c).count + 1 := by simpa using hi'
  rw [List.getElem_map, List.getElem_map, List.getElem_zipIdx, List.getElem_map, List.getElem_range]
  dsimp only
  rw [Nat.zero_add, nth_readRows (by omega), nth_readRows (by omega), Nat.add_assoc]

/-- What a READ within its quota delivers to its granules (11 R313, R314). -/
theorem read_delivers (hop : (chOf s c).op = 1) (hwf : swf bufReset s.core.buf.mem = true)
    (hbuf : t.core.buf = (if (chOf s c).op = 1 then granulesFilled s (readGranules s c obs) else s).core.buf) {i : Nat} (hi : i ≤ (chOf s c).count) :
    GranuleHolds t ((chOf s c).granule + i) ((foundRow s obs (2 * i) ((chOf s c).phys / 256 + 2 * i)).bytes ++
      (foundRow s obs (2 * i + 1) ((chOf s c).phys / 256 + 2 * i + 1)).bytes) := by
  have hlen : ∀ e ∈ readGranules s c obs, e.2.length = 512 := fun e he => by
    rw [readGranules_eq hop] at he
    obtain ⟨j, -, rfl⟩ := List.mem_map.mp he
    rw [List.length_append, length_foundRow, length_foundRow]
  have hnodup : ((readGranules s c obs).map Prod.fst).Nodup := by
    rw [readGranules_eq hop, List.map_map]
    exact List.nodup_range.map fun a b hab => Nat.add_left_cancel hab
  have hmem : ((chOf s c).granule + i, (foundRow s obs (2 * i) ((chOf s c).phys / 256 + 2 * i)).bytes ++
      (foundRow s obs (2 * i + 1) ((chOf s c).phys / 256 + 2 * i + 1)).bytes) ∈ readGranules s c obs := by
    rw [readGranules_eq hop]
    exact List.mem_map.mpr ⟨i, List.mem_range.mpr (by omega), rfl⟩
  obtain ⟨hbytes, hmarks⟩ := (granulesFilled_holds _ s hwf hlen hnodup).2 _ hmem
  rw [if_pos hop] at hbuf
  unfold GranuleHolds granuleBytes bufBytes
  rw [hbuf]
  exact ⟨hbytes, hmarks⟩

/-- No row is lost where every word is readable and the operation finds no more. -/
theorem lostRows_eq_zero (hunc : obs.uncorr = []) (hclean : ∀ r ∈ eflRows (chOf s c), (rowView s r).bad = []) : lostRows (readRows s c obs) = 0 := by
  rw [lostRows, List.length_eq_zero_iff, List.filter_eq_nil_iff]
  intro v hv
  obtain ⟨e, he, rfl⟩ := List.mem_map.mp hv
  rw [foundRow_of_none hunc, hclean _ (List.fst_mem_of_mem_zipIdx he)]
  simp

/-- The counts of a report are those of the rows read, in 9 bits each (11 R313). -/
theorem report_counts (n1 n2 n3 : Nat) : fld (mkW [(0, 9, n1), (9, 9, n2), (18, 9, n3)]) 0 9 = n1 % 512 ∧
    fld (mkW [(0, 9, n1), (9, 9, n2), (18, 9, n3)]) 9 9 = n2 % 512 ∧ fld (mkW [(0, 9, n1), (9, 9, n2), (18, 9, n3)]) 18 9 = n3 % 512 :=
  ⟨fld_mkW (by decide) (by simp) (by simp), fld_mkW (by decide) (by simp) (by simp), fld_mkW (by decide) (by simp) (by simp)⟩

/-- A SCAN reports its first ERASED row, if it has met one (11 R315). -/
theorem report_first (m n i : Nat) : fld (mkW [(0, 6, m), (8, 8, n), (16, 8, (some i).getD 0), (24, 1, b2n (some i).isSome)]) 16 8 = i % 256 ∧
    bit (mkW [(0, 6, m), (8, 8, n), (16, 8, (some i).getD 0), (24, 1, b2n (some i).isSome)]) 24 = true := by
  refine ⟨fld_mkW (v := i) (by decide) (by simp) (by simp), ?_⟩
  rw [bit_mkW _ (by decide)]
  simp [b2n]

theorem report_noFirst (m n : Nat) : bit (mkW [(0, 6, m), (8, 8, n), (16, 8, (none : Option Nat).getD 0), (24, 1, b2n (none : Option Nat).isSome)]) 24 = false := by
  rw [bit_mkW _ (by decide)]
  simp [b2n]

/-- A margin operation reports its largest count, and its first row with it (11 R318). -/
theorem report_max (m n : Nat) : fld (mkW [(0, 6, sat 63 m), (8, 8, n)]) 0 6 = sat 63 m := by
  rw [fld_mkW (v := sat 63 m) (by decide) (by simp) (by simp)]
  refine Nat.mod_eq_of_lt ?_
  unfold sat
  split <;> omega

theorem report_row (m n : Nat) : fld (mkW [(0, 6, m), (8, 8, n)]) 8 8 = n % 256 := fld_mkW (by decide) (by simp) (by simp)

/-- The first of the largest numbers of a list. -/
theorem firstMax_spec {l : List Nat} (h : l ≠ []) : ∃ i, l[i]? = some (listMax l) ∧ firstMax l = i ∧ ∀ j, j < i → nth l j 0 < listMax l := by
  have hmem : listMax l ∈ l := by
    rcases listMax_mem l with h0 | hmem
    · obtain ⟨a, ha⟩ := List.exists_mem_of_ne_nil l h
      have hle := le_listMax ha
      rwa [show listMax l = a by omega]
    · exact hmem
  have hmax : l.max? = some (listMax l) := List.max?_eq_some_iff.mpr ⟨hmem, fun b hb => le_listMax hb⟩
  obtain ⟨i, hi⟩ := Option.isSome_iff_exists.mp (List.findIdx?_isSome.trans (List.any_eq_true.mpr ⟨_, hmem, beq_self_eq_true (listMax l)⟩) :
    (l.findIdx? fun x => x == listMax l).isSome = true)
  obtain ⟨hlt, hat, hbefore⟩ := List.findIdx?_eq_some_iff_getElem.mp hi
  refine ⟨i, by rw [List.getElem?_eq_getElem hlt, eq_of_beq hat], by rw [firstMax, hmax]; exact congrArg (fun o : Option Nat => o.getD 0) hi, fun j hj => ?_⟩
  have hjlt : j < l.length := hj.trans hlt
  have hne := hbefore j hj
  rw [nth, List.getD_eq_getElem?_getD, List.getElem?_eq_getElem hjlt, Option.getD_some]
  exact lt_of_le_of_ne (le_listMax (List.getElem_mem hjlt)) fun h => hne (by rw [h]; exact beq_self_eq_true _)

theorem length_eflRows : (eflRows (chOf s c)).length = eflLen (chOf s c).op (chOf s c).count / 256 := by
  rw [eflRows, List.length_map]
  exact List.length_range

theorem nth_marginFound {i : Nat} (hi : i < (eflRows (chOf s c)).length) (d : Nat) : nth (marginFound s c obs) i d =
    if !((chOf s c).op == 5) then nmax (nth obs.margin i 0) (rowZeros s ((chOf s c).phys / 256 + i))
    else if (foundRow s obs i ((chOf s c).phys / 256 + i)).status = 1 then 0 else nth obs.margin i 0 := by
  rw [marginFound, marginCounts, nth, List.getD_eq_getElem?_getD, List.getElem?_map, upto, List.getElem?_range hi]
  rfl

/-- MARGIN_PV counts no bit of an ERASED row (11 R318). -/
theorem marginFound_pv {i : Nat} (h : (chOf s c).op = 5) (hi : i < (eflRows (chOf s c)).length) :
    nth (marginFound s c obs) i 0 = if (foundRow s obs i ((chOf s c).phys / 256 + i)).status = 1 then 0 else nth obs.margin i 0 := by
  rw [nth_marginFound hi, h]
  exact if_neg (by decide)

/-- A row of which something is fixed has no data bit 0 exactly where all its cells are erased. -/
theorem rowZeros_eq_zero {r : Nat} (h : rowOpen s r = false) : rowZeros s r = 0 ↔ (rowCells s.flash r).all (fun x => x == 0xFF) = true := by
  have hbyte : ∀ x : Byte, 8 - popcnt x = 0 ↔ (x == 0xFF) = true := by decide
  have hfold : ∀ (l : List Byte) n, l.foldl (fun n b => n + (8 - popcnt b)) n = 0 ↔ n = 0 ∧ l.all (fun x => x == 0xFF) = true := by
    intro l
    induction l with
    | nil => exact fun n => ⟨fun h => ⟨h, rfl⟩, fun h => h.1⟩
    | cons x l ih =>
      intro n
      rw [List.foldl_cons, ih, List.all_cons, Bool.and_eq_true, ← hbyte, Nat.add_eq_zero_iff, and_assoc]
  rw [rowZeros, if_neg (by rw [h]; decide)]
  exact (hfold _ 0).trans ⟨fun h => h.2, fun h => ⟨rfl, h⟩⟩

/-- MARGIN_EV counts at least the data bits that are 0, and fixes each row without a failing bit (11 R318, R319). -/
theorem marginFound_ev {i : Nat} (h : (chOf s c).op = 6) (hi : i < (eflRows (chOf s c)).length) :
    nth obs.margin i 0 ≤ nth (marginFound s c obs) i 0 ∧
    (rowOpen s ((chOf s c).phys / 256 + i) = false → (nth (marginFound s c obs) i 0 = 0 ↔ nth obs.margin i 0 = 0 ∧
      (rowCells s.flash ((chOf s c).phys / 256 + i)).all (fun x => x == 0xFF) = true)) ∧
    (nth (marginFound s c obs) i 0 = 0 → rowOpen (marginCleaned s c obs) ((chOf s c).phys / 256 + i) = false) := by
  have hnth (d : Nat) : nth (marginFound s c obs) i d = nmax (nth obs.margin i 0) (rowZeros s ((chOf s c).phys / 256 + i)) := by
    rw [nth_marginFound hi, h]
    exact if_pos (by decide)
  have hmax (a b : Nat) : a ≤ nmax a b ∧ (nmax a b = 0 ↔ a = 0 ∧ b = 0) := by
    unfold nmax
    split <;> omega
  refine ⟨by rw [hnth]; exact (hmax _ _).1, fun hfix => ?_, fun h0 => ?_⟩
  · rw [hnth, (hmax _ _).2, rowZeros_eq_zero hfix]
  · have hcleaned : marginCleaned s c obs = marginClean s ((chOf s c).phys / 256) (marginFound s c obs) := by
      rw [marginCleaned, h]
      rfl
    rw [hcleaned]
    refine rowOpen_flashClean (List.mem_map.mpr ⟨i, List.mem_filter.mpr ⟨List.mem_range.mpr ?_, ?_⟩, rfl⟩)
    · rw [marginFound, length_marginCounts]
      exact hi
    · rw [hnth 0] at h0
      rw [hnth 1, h0]
      rfl

/-- A margin operation leaves the flash where it does not fix a row (11 R318, R319). -/
theorem marginCleaned_fixed (h : (chOf s c).op = 5 ∨ ∀ r ∈ eflRows (chOf s c), rowOpen s r = false) : marginCleaned s c obs = s := by
  unfold marginCleaned whenS
  split
  next hev =>
    refine flashClean_of_fixed fun r hr => (h.resolve_left fun h5 => by rw [h5] at hev; exact absurd hev (by decide)) r ?_
    have hrows := marginClean_rows hr
    rw [marginFound, length_marginCounts, length_eflRows] at hrows
    exact List.mem_map.mpr ⟨r - (chOf s c).phys / 256, List.mem_range.mpr (by omega), by omega⟩
  next => rfl

/-- Settles O51: each operation's end is the end of its channel, from what the operation leaves. -/
theorem flashOperationsEnd : Obligations.FlashOperationsEnd := by
  intro s b obs hup hdue hbanks hchans hirq k
  refine ⟨fun h => ?_, fun c hchan hruns hc => ?_⟩
  · rw [exec_eflOpDone hup hdue, eflDoneOp_idle h]
  intro q row ends
  refine ⟨fun hop hgood => ?_, fun hop hfail => ?_, fun hop hearly => ?_, fun hop hearly hgood hwf => ?_, fun hop hearly hwf k hk hlt => ?_,
    fun hop hobs hquota hclean hwf hbad => ?_, fun hop hquota hwf hbad => ?_, fun hop => ?_, fun hop => ?_, fun hop hlog => ?_⟩
  · exact (erase_ends hup hdue hbanks hchans hirq hc hchan hruns hop).1 hgood
  · exact (erase_ends hup hdue hbanks hchans hirq hc hchan hruns hop).2 hfail
  · exact program_stops hup hdue hbanks hchans hirq hc hchan hruns hop hearly
  · have hnone : programFails s c obs = none := by rw [programFails, hgood]; rfl
    obtain ⟨t, hexec, hends, hflash, -⟩ := program_ends hup hdue hbanks hchans hirq hc hchan hruns hop hearly
    rw [hnone] at hends hflash
    refine ⟨t, hexec, hends, fun i hi => ?_, fun a ha => ?_⟩
    · have hholds := programFrom_holds (row := row) (n := 0) (fail := none) hwf (fun bs hbs => length_of_mem_chunks256 hbs) (getElem?_chunks256 hi)
        fun _ h => nomatch h
      rw [Nat.zero_add] at hholds
      rw [hflash]
      exact hholds
    · have hstored := programFrom_stored (s := s) (row := row) (n := 0) (fail := none) (chunks := (chunks256 q.data).map some) (r := a / 256)
        (fun bs hbs => length_of_mem_chunks256 hbs) fun i _ hi hr => by
          rw [List.length_map, length_chunks256] at hi
          omega
      have hcell := hstored.2 (a % 256) (Nat.mod_lt _ (by decide))
      rw [Nat.div_add_mod] at hcell
      rw [hflash]
      exact hcell
  · have hfails : programFails s c obs = some k := by
      rw [programFails, hk]
      exact if_pos (decide_eq_true (by rw [length_chunks256]; exact hlt))
    have hbefore {i : Nat} (hi : i < k) : beforeFail (some k) (0 + i) := fun j hj => by
      cases hj
      omega
    obtain ⟨t, hexec, hends, hflash, hcount⟩ := program_ends hup hdue hbanks hchans hirq hc hchan hruns hop hearly
    rw [hfails] at hends hflash hcount
    refine ⟨t, hexec, hends, hcount, fun i hi => ?_, fun hundef => ?_, fun a ha => ?_⟩
    · have hholds := programFrom_holds (row := row) (n := 0) (fail := some k) hwf (fun bs hbs => length_of_mem_chunks256 hbs)
        (getElem?_chunks256 (hi.trans hlt)) (hbefore hi)
      rw [Nat.zero_add] at hholds
      rw [hflash]
      exact hholds
    · refine rowView_unmarked ?_ ?_
      · rw [hflash]
        exact programFrom_unmarked (n := 0) (getElem?_chunks256 hlt) (Nat.zero_add k).symm
      · rw [hflash, undef_programFrom]
        exact hundef
    · have hstored := programFrom_stored (s := s) (row := row) (n := 0) (fail := some k) (chunks := (chunks256 q.data).map some) (r := a / 256)
        (fun bs hbs => length_of_mem_chunks256 hbs) fun i _ _ hr h => by
          have hik := h k rfl
          omega
      have hcell := hstored.2 (a % 256) (Nat.mod_lt _ (by decide))
      rw [Nat.div_add_mod] at hcell
      rw [hflash]
      exact hcell
  · have hunc : obs.uncorr = [] := by rw [hobs]
    obtain ⟨t, hexec, hends, hflash, hbuf, -⟩ := read_ends hup hdue hbanks hchans hirq hc hchan hruns (.inr ⟨hop, hquota⟩)
    rw [lostRows_eq_zero hunc hclean, if_neg (by decide)] at hends
    refine ⟨t, hexec, hends, hflash, fun i hi => ?_⟩
    have hholds := read_delivers hop hwf hbuf hi
    rw [foundRow_of_none hunc, foundRow_of_none hunc] at hholds
    exact hholds
  · obtain ⟨t, hexec, hends, hflash, hbuf, hrep0, htorn, huncorr, htornRows, -⟩ :=
      read_ends hup hdue hbanks hchans hirq hc hchan hruns (.inr ⟨hop, hquota⟩)
    obtain ⟨h1, h2, h3⟩ := report_counts (rowsOf (readRows s c obs) 1) (rowsOf (readRows s c obs) 2) (lostRows (readRows s c obs))
    refine ⟨t, hexec, hflash, ?_⟩
    intro vs view n unc
    refine ⟨hends, ?_, ?_, ?_, ?_, huncorr, htornRows, fun i hi => (read_delivers hop hwf hbuf hi).1⟩
    · rw [hrep0, h1]
      rfl
    · rw [hrep0, h2]
      rfl
    · rw [hrep0, h3]
      rfl
    · rw [htorn, decide_eq_true_eq]
      rfl
  · obtain ⟨t, hexec, hends, hflash, hbuf, hrep0, htorn, huncorr, htornRows, hrep1⟩ :=
      read_ends hup hdue hbanks hchans hirq hc hchan hruns (.inl hop)
    obtain ⟨h1, h2, h3⟩ := report_counts (rowsOf (readRows s c obs) 1) (rowsOf (readRows s c obs) 2) (lostRows (readRows s c obs))
    have hscan : (chOf s c).op = 4 := hop
    rw [if_neg (by omega)] at hbuf
    refine ⟨t, hexec, hflash, hbuf, ?_⟩
    intro vs n unc
    refine ⟨hends, ?_, ?_, ?_, ?_, huncorr, htornRows, fun i hi => ?_, fun hnone => ?_⟩
    · rw [hrep0, h1]
      rfl
    · rw [hrep0, h2]
      rfl
    · rw [hrep0, h3]
      rfl
    · rw [htorn, decide_eq_true_eq]
      rfl
    · have hfirst : (readRows s c obs).findIdx? (fun v => v.status == 1) = some i := hi
      rw [hrep1 hop, hfirst]
      exact report_first ..
    · have hfirst : (readRows s c obs).findIdx? (fun v => v.status == 1) = none :=
        List.findIdx?_eq_none_iff.mpr fun v hv => by
          have h := List.filter_eq_nil_iff.mp (List.length_eq_zero_iff.mp (show ((readRows s c obs).filter fun v => v.status == 1).length = 0 from hnone)) v hv
          exact Bool.eq_false_iff.mpr h
      rw [hrep1 hop, hfirst]
      exact report_noFirst ..
  · obtain ⟨t, hexec, hends, hbuf, hflash, hrep1, hwarned⟩ := margin_ends hup hdue hbanks hchans hirq hc hchan hruns hop
    refine ⟨t, hexec, hbuf, ?_⟩
    intro ms
    have hms : ms = marginFound s c obs := rfl
    refine ⟨fun h => ?_, fun h6 i hi => ?_, fun h5 i hi => ?_, fun hzero hunc hclean => ?_, fun m hm hne => ?_, fun m hm => ?_, fun hne hlen => ?_⟩
    · rw [hflash, marginCleaned_fixed h]
    · obtain ⟨hle, hiff, hfixed⟩ := marginFound_ev (obs := obs) h6 hi
      refine ⟨hle, hiff, fun h0 => ?_⟩
      rw [rowOpen, hflash]
      exact hfixed h0
    · exact marginFound_pv h5 hi
    · have h0 : listMax (marginFound s c obs) = 0 := by
        rcases listMax_mem (marginFound s c obs) with h | h
        · exact h
        · exact hzero _ h
      have hlost : lostRows (marginRows s c obs) = 0 := by
        unfold marginRows
        split
        · exact lostRows_eq_zero hunc hclean
        · rfl
      rw [h0, hlost] at hends
      exact hends
    · have hpos : 0 < listMax (marginFound s c obs) := listMax_pos.mpr ⟨m, hm, hne⟩
      rw [if_pos hpos] at hends
      exact ⟨hends, hwarned hpos⟩
    · rw [hrep1, report_max]
      have hle : m ≤ listMax (marginFound s c obs) := le_listMax hm
      unfold sat
      split <;> split <;> omega
    · obtain ⟨i, hget, hfirst, hbelow⟩ := firstMax_spec (show marginFound s c obs ≠ [] from hne)
      have hlt : i < 256 := lt_of_lt_of_le (List.getElem?_eq_some_iff.mp hget).1 hlen
      refine ⟨i, hget, ?_, ?_, hbelow⟩
      · rw [hrep1, report_row, hfirst, Nat.mod_eq_of_lt hlt]
      · rw [hrep1, report_max, hms]
  · exact format_ends hup hdue hbanks hchans hirq hc hchan hruns hop hlog

end Sys2Proof.Machine
end

section
/-! PROOFS. Chapters 09 and 10: the start of an update and of a blink toggle (09 R261-R272, 10 R283-R295). -/

set_option Elab.async false

namespace Sys2Proof.Machine

variable {s x t : State} {u : UpdSt} {r k : Nat} {pix : List (Nat × Nat)} {toAlt : Bool}

/-- The count of corrected errors alone is another. -/
def withCorrected (s : State) (n : Nat) : State := modC s fun c => { c with buf := { c.buf with corrected := n } }

/-- While no word is uncorrectable the panel's reads change the count of corrected errors alone. -/
theorem pixSecded_corrected (hbad : s.core.buf.bad = []) (idx : List Nat) : ∃ n, pixSecded s idx = withCorrected s n := by
  have htouch : ∀ (l : List Nat) n, ∃ m, l.foldl (fun s w => bufTouch s (8 * w) 8) (withCorrected s n) = withCorrected s m := by
    intro l
    induction l with
    | nil => exact fun n => ⟨n, rfl⟩
    | cons w l ih => exact fun n => ih (n + (bufSoft (withCorrected s n).core.buf (8 * w) 8).length)
  obtain ⟨n, hn⟩ := htouch (pixWords idx) s.core.buf.corrected
  refine ⟨n, ?_⟩
  have hstart : withCorrected s s.core.buf.corrected = s := rfl
  rw [hstart] at hn
  rw [pixSecded, hn, pixReplace]
  have hnone : ((pixWords idx).filter fun w => (withCorrected s n).core.buf.bad.elem w) = [] := by
    rw [show (withCorrected s n).core.buf.bad = [] from hbad]
    exact List.filter_eq_nil_iff.mpr fun _ _ => Bool.false_ne_true
  rw [hnone]
  rfl

section Record

/-- The record of an update or toggle as the panel keeps it, with its counts (09 R271, R272). -/
theorem epd_epdRecord : (epdRecord s u).core.epd = { s.core.epd with
    run := none
    recs := if u.toggle then s.core.epd.recs else upd s.core.epd.recs u.subject (fun _ => updRecord s u)
    lastRec := updRecord s u
    railFaults := if u.outcome = 2 ∨ u.outcome = 3 then sat 255 (s.core.epd.railFaults + 1) else s.core.epd.railFaults
    tempRefused := if u.outcome = 4 then sat 255 (s.core.epd.tempRefused + 1) else s.core.epd.tempRefused
    clamped := if u.clamped then sat 255 (s.core.epd.clamped + 1) else s.core.epd.clamped
    fallback := if u.fallback then sat 255 (s.core.epd.fallback + 1) else s.core.epd.fallback } := by
  unfold epdRecord whenS
  dsimp only
  split
  · split <;> rfl
  · split <;> rfl

theorem goes_epdRecord : Goes [.irqPend, .epd] s (epdRecord s u) := (Goes.refl _ s).epdRecord (by decide) (by decide)

theorem ownerN_lt (s : State) (r : Res) : ownerN s r < 4 := by
  have hfld (x : Word) (lo : Nat) : fld x lo 2 < 4 := Nat.mod_lt _ (by decide)
  cases r <;> exact hfld _ _

/-- An update's end raises EPD_DONE in the owner of its region. -/
theorem epdRecord_done (hirq : s.core.irq.length = 4) (h : u.toggle = false) :
    bit (nth (epdRecord s u).core.irq (ownerN s (.panel u.subject)) {}).pend 27 = true := by
  unfold epdRecord
  extract_lets rec4 s1 s2
  have hgoes : Goes [.irqPend, .epd] s s2 := ((Goes.refl _ s).modE (by decide)).whenS fun _ h => h.raiseAll (by decide)
  have howner : ownerN s2 (.panel u.subject) = ownerN s (.panel u.subject) := ownerN_congr (hgoes.used_same (by decide) (by decide)) _
  have hlen := (hgoes.irq_length (by decide)).trans hirq
  rw [h]
  show bit (nth (raise s2 (ownerN s2 (.panel u.subject)) 27).core.irq (ownerN s (.panel u.subject)) {}).pend 27 = true
  rw [howner]
  clear_value s2
  refine raise_pend _ _ _ ?_ (by decide)
  rw [hlen]
  exact ownerN_lt _ _

/-- A toggle that no rail has failed raises nothing. -/
theorem irq_epdRecord_toggle (h : u.toggle = true) (hout : u.outcome ≠ 2 ∧ u.outcome ≠ 3) : (epdRecord s u).core.irq = s.core.irq := by
  unfold epdRecord
  dsimp only
  rw [h, show (u.outcome == 2 || u.outcome == 3) = false by simp [hout]]
  rfl

end Record

section Begin

/-- The panel temperature is known, or a fallback stands for it (09 R261, R263). -/
def Warm (s : State) : Prop := (nth s.core.thm.sens 7 {}).valid = true ∨ bit (used s 0x1418) 27 = true

theorem warm_iff : Warm s ↔ ((nth s.core.thm.sens 7 {}).valid || bit (used s 0x1418) 27) = true := by
  rw [Warm, Bool.or_eq_true]

variable {toggle full : Bool} {subject owner : Nat}

theorem epdFix_outcome : (epdFix s toggle subject owner full).outcome = 4 ↔ ¬Warm s := by
  rw [warm_iff]
  unfold epdFix
  dsimp only
  split
  next h => exact ⟨fun h' => absurd (show (1 : Nat) = 4 from h') (by decide), fun h' => absurd h h'⟩
  next h => exact ⟨fun _ => h, fun _ => rfl⟩

/-- What a start fixes of its kind, its owner and its number, warm or not. -/
theorem epdFix_kind : (epdFix s toggle subject owner full).toggle = toggle ∧ (epdFix s toggle subject owner full).subject = subject ∧
    (epdFix s toggle subject owner full).owner = Fin.ofNat 4 owner ∧ (epdFix s toggle subject owner full).seq = (s.core.epd.lastSeq + 1) % 65536 ∧
    (epdFix s toggle subject owner full).phase = .up1 ∧ (epdFix s toggle subject owner full).full = full := by
  unfold epdFix
  dsimp only
  split <;> exact ⟨rfl, rfl, rfl, rfl, rfl, rfl⟩

/-- A start without a temperature fixes nothing more than its number and its course. -/
theorem epdFix_cold (h : ¬Warm s) : epdFix s toggle subject owner full =
    { toggle := toggle, subject := subject, owner := Fin.ofNat 4 owner, seq := (s.core.epd.lastSeq + 1) % 65536
      course := nth s.core.course.running 3 0, full := full, start := now s, grant := uf s 0x1403 16 8, temp := 0x8000, outcome := 4 } := by
  unfold epdFix
  exact if_neg (mt warm_iff.mpr h)

/-- What a start fixes is of the panel's temperature, the words in force, the last number and the course. -/
theorem epdFix_congr (hthm : x.core.thm = s.core.thm) (hused : ∀ a, used x a = used s a) (hseq : x.core.epd.lastSeq = s.core.epd.lastSeq)
    (hcourse : x.core.course = s.core.course) (haon : x.aon = s.aon) (hband : x.core.pix.prevBand = s.core.pix.prevBand) :
    epdFix x toggle subject owner full = epdFix s toggle subject owner full := by
  unfold epdFix bandUsed rawBand bandUpper uf now
  simp only [hthm, hused, hseq, hcourse, haon, hband]

/-- The waveform read of a start: the band it used, the gamma table, the uncorrectable bodies. -/
def epdRead (s : State) (u : UpdSt) (pix : List (Nat × Nat)) : State :=
  let s := modE s (fun e => { e with lastSeq := u.seq })
  let s := modP s (fun p => { p with prevBand := some u.band })
  let g := wfRead s (wfNat s 24 4) (wfNat s 5 1 * 256)
  let s := if g.2 then s else modP s (fun p => { p with gamma := some g.1 })
  let eccs := if pix.isEmpty then 0 else ((wfBodies s u.band).filter (fun b => b.2)).length
  modP s (fun p => { p with wfEcc := sat 255 (p.wfEcc + eccs) })

/-- The runs of the pixels that take part. -/
def epdRuns (s : State) (u : UpdSt) (pix : List (Nat × Nat)) : List (PixRun × Nat) :=
  let s := modE s (fun e => { e with lastSeq := u.seq })
  let s := modP s (fun p => { p with prevBand := some u.band })
  let g := wfRead s (wfNat s 24 4) (wfNat s 5 1 * 256)
  let s := if g.2 then s else modP s (fun p => { p with gamma := some g.1 })
  pix.map (fun p => pixStart s u.band p.1 (pixWord s p.1) p.2)

/-- The run as it starts. -/
def epdPlan (s : State) (u : UpdSt) (pix : List (Nat × Nat)) (toAlt : Bool) : UpdSt :=
  { u with
    pix := (epdRuns s u pix).map (fun r => r.1)
    sats := (epdRuns s u pix).foldl (fun n r => n + r.2) 0
    total := (epdRuns s u pix).foldl (fun n r => nmax n (seqFrames r.1.seq)) 0
    towardAlt := toAlt }

theorem epdBegin_cold (h : u.outcome = 4) : epdBegin s u pix toAlt = epdRecord (modE s fun e => { e with lastSeq := u.seq }) u := if_pos h

theorem epdBegin_warm (h : u.outcome ≠ 4) : epdBegin s u pix toAlt =
    if pix.isEmpty then epdEnd (epdRead s u pix) (epdPlan s u pix toAlt)
    else keyPadsChange (modE (flashSuspend (epdRead s u pix)) fun e => { e with run := some (epdPlan s u pix toAlt) }) := if_neg h

theorem pixStart_idx (s : State) (band i w dest : Nat) : (pixStart s band i w dest).1.idx = i := by
  unfold pixStart
  extract_lets ink f body
  split <;> rfl

theorem epdPlan_idx : (epdPlan s u pix toAlt).pix.map PixRun.idx = pix.map Prod.fst := by
  show ((epdRuns s u pix).map (fun r => r.1)).map PixRun.idx = pix.map Prod.fst
  unfold epdRuns
  extract_lets s1 s2 g s3
  rw [List.map_map, List.map_map]
  refine List.map_congr_left fun p _ => ?_
  exact pixStart_idx s3 u.band p.1 (pixWord s3 p.1) p.2

/-- The read leaves the requests, the records and the rotation. -/
theorem epdRead_rest : (epdRead s u pix).core.epd = { s.core.epd with lastSeq := u.seq } ∧
    (epdRead s u pix).core.pix = { s.core.pix with
      prevBand := (epdRead s u pix).core.pix.prevBand, gamma := (epdRead s u pix).core.pix.gamma, wfEcc := (epdRead s u pix).core.pix.wfEcc } ∧
    (epdRead s u pix).core.buf = s.core.buf ∧ (epdRead s u pix).core.irq = s.core.irq := by
  unfold epdRead
  extract_lets s1 s2 g s3 eccs
  have h3 : s3.core.epd = { s.core.epd with lastSeq := u.seq } ∧ s3.core.pix = { s.core.pix with prevBand := s3.core.pix.prevBand, gamma := s3.core.pix.gamma } ∧
      s3.core.buf = s.core.buf ∧ s3.core.irq = s.core.irq := by
    rcases Bool.eq_false_or_eq_true g.2 with hg | hg
    · rw [show s3 = s2 from if_pos hg]
      exact ⟨rfl, rfl, rfl, rfl⟩
    · rw [show s3 = modP s2 fun p => { p with gamma := some g.1 } from if_neg (by rw [hg]; decide)]
      exact ⟨rfl, rfl, rfl, rfl⟩
  clear_value eccs s3
  obtain ⟨hepd, hpix, hbuf, hirq⟩ := h3
  exact ⟨hepd, congrArg (fun p : PixSt => { p with wfEcc := sat 255 (s3.core.pix.wfEcc + eccs) }) hpix, hbuf, hirq⟩

end Begin

section Update

/-- The request of region r has been taken off the queue, and its pixels have been read. -/
def updateTaken (s : State) (r n : Nat) : State :=
  withCorrected (modE (modP s fun p => { p with tie := false }) fun e => { e with queued := setBit e.queued r false, qfull := setBit e.qfull r false }) n

/-- What the start of region r's update fixes. -/
def updateFix (s : State) (r : Nat) : UpdSt := epdFix s false r (ownerN s (.panel r)) (bit s.core.epd.qfull r)

/-- Pixel i takes part in region r's update: all of a full one, else the dirty and the unknown ones (10 R283). -/
def updatePart (s : State) (r i : Nat) : Bool := bit s.core.epd.qfull r || pixDirty (pixWord s i) || pixUnknown (pixWord s i)

/-- The pixels that take part, each with its destination. -/
def updatePix (s : State) (r : Nat) : List (Nat × Nat) :=
  ((rectIdx s (panelRect s r)).filter (updatePart s r)).map fun i => (i, pixTgt (pixWord s i))

theorem updateFix_taken (n : Nat) : epdFix (updateTaken s r n) false r (ownerN (updateTaken s r n) (.panel r)) (bit s.core.epd.qfull r) = updateFix s r := by
  rw [show ownerN (updateTaken s r n) (.panel r) = ownerN s (.panel r) from rfl]
  exact epdFix_congr rfl (fun _ => rfl) rfl rfl rfl rfl

theorem updatePix_taken (n : Nat) : ((rectIdx s (panelRect s r)).filter fun i =>
      bit s.core.epd.qfull r || pixDirty (pixWord (updateTaken s r n) i) || pixUnknown (pixWord (updateTaken s r n) i)).map
    (fun i => (i, pixTgt (pixWord (updateTaken s r n) i))) = updatePix s r := rfl

theorem updateStartOp_eq (hbad : s.core.buf.bad = []) (h : nextRegion s = some r) : ∃ n, updateStartOp s =
    epdBegin (if (updateFix s r).outcome = 4 then updateTaken s r n else modP (updateTaken s r n) fun p => { p with lastRegion := r, lastKindBlink := false })
      (updateFix s r) (updatePix s r) false := by
  obtain ⟨n, hn⟩ := pixSecded_corrected (s := modE (modP s fun p => { p with tie := false }) fun e =>
    { e with queued := setBit e.queued r false, qfull := setBit e.qfull r false }) hbad (rectIdx s (panelRect s r))
  refine ⟨n, ?_⟩
  unfold updateStartOp
  rw [h]
  dsimp -zeta only
  extract_lets full s1 s2 idx s3 u pix s4
  have h3 : s3 = updateTaken s r n := hn
  have hidx : idx = rectIdx s (panelRect s r) := rfl
  clear_value s3 idx
  subst h3 hidx
  have hu : u = updateFix s r := updateFix_taken n
  have hpix : pix = updatePix s r := updatePix_taken n
  have h4 : s4 = if u.outcome = 4 then updateTaken s r n else modP (updateTaken s r n) fun p => { p with lastRegion := r, lastKindBlink := false } := rfl
  rw [h4, hpix, hu]

end Update

end Sys2Proof.Machine
end

section
/-! PROOFS. Chapters 09 and 10: a start with and without a temperature; O46. -/

set_option Elab.async false

namespace Sys2Proof.Machine

variable {s x t : State} {u : UpdSt} {r k n : Nat} {pix : List (Nat × Nat)} {toAlt : Bool}

section Warm

/-- Where no pixel takes part the end leaves the pixels, and the record follows. -/
theorem epdEnd_empty (h : u.pix = []) : epdEnd s u = epdRecord (whenS (u.outcome == 1) s fun s => modP s fun p => { p with
    sats := sat 65535 (p.sats + u.sats)
    blinks := if u.toggle then upd p.blinks u.subject fun b => { b with toggles := b.toggles + 1, showingAlt := u.towardAlt } else p.blinks }) u := by
  unfold epdEnd epdPixEnd
  rw [h]
  rfl

theorem epd_keyPadsChange : (keyPadsChange s).core.epd = s.core.epd ∧ (keyPadsChange s).core.pix = s.core.pix := by
  unfold keyPadsChange
  dsimp only
  split <;> exact ⟨rfl, rfl⟩

theorem epd_flashSuspend : (flashSuspend s).core.epd = s.core.epd ∧ (flashSuspend s).core.pix = s.core.pix := by
  unfold flashSuspend
  split <;> exact ⟨rfl, rfl⟩

/-- What a start with a temperature leaves of the panel. -/
structure Begun (x t : State) (u : UpdSt) (pix : List (Nat × Nat)) (toAlt : Bool) : Prop where
  run : t.core.epd.run = if pix.isEmpty then none else some (epdPlan x u pix toAlt)
  queued : t.core.epd.queued = x.core.epd.queued
  lastSeq : t.core.epd.lastSeq = u.seq
  recs : u.toggle = true → t.core.epd.recs = x.core.epd.recs
  lastRegion : t.core.pix.lastRegion = x.core.pix.lastRegion
  lastBlink : t.core.pix.lastBlink = x.core.pix.lastBlink
  lastKind : t.core.pix.lastKindBlink = x.core.pix.lastKindBlink
  pending : ∀ k, (nth t.core.pix.blinks k {}).pending = (nth x.core.pix.blinks k {}).pending
  done : pix.isEmpty = true → u.toggle = false → x.core.irq.length = 4 → bit (nth t.core.irq (ownerN x (.panel u.subject)) {}).pend 27 = true

theorem pending_upd {l : List BlinkSt} {f : BlinkSt → BlinkSt} (hf : ∀ b, (f b).pending = b.pending) (i j : Nat) :
    (nth (upd l i f) j {}).pending = (nth l j {}).pending := by
  rw [proj_nth_eq_nth_map BlinkSt.pending, map_upd_eq l i f BlinkSt.pending hf, ← proj_nth_eq_nth_map BlinkSt.pending]

/-- The counts that a completed run leaves with the pixels. -/
def pixelsDone (u : UpdSt) (x : State) : State := modP x fun p => { p with
  sats := sat 65535 (p.sats + u.sats)
  blinks := if u.toggle then upd p.blinks u.subject fun b => { b with toggles := b.toggles + 1, showingAlt := u.towardAlt } else p.blinks }

theorem pixelsDone_pending (k : Nat) : (nth (pixelsDone u x).core.pix.blinks k {}).pending = (nth x.core.pix.blinks k {}).pending := by
  show (nth (if u.toggle then upd x.core.pix.blinks u.subject _ else x.core.pix.blinks) k {}).pending = _
  split
  · exact pending_upd (f := fun b => { b with toggles := b.toggles + 1, showingAlt := u.towardAlt }) (fun _ => rfl) _ _
  · rfl

theorem goes_epdRead (x : State) (u : UpdSt) (pix : List (Nat × Nat)) : Goes [.epd, .pix] x (epdRead x u pix) := by
  unfold epdRead
  extract_lets s1 s2 g s3 eccs
  have h2 : Goes [.epd, .pix] x s2 := ((Goes.refl _ x).modE (by decide)).modP (by decide)
  exact (Goes.cond h2 (h2.modP (by decide))).modP (by decide)

theorem begun_empty (h : u.outcome ≠ 4) (hpix : pix.isEmpty = true) : Begun x (epdBegin x u pix toAlt) u pix toAlt := by
  obtain ⟨hepd, hpixel, -, hirq⟩ := epdRead_rest (s := x) (u := u) (pix := pix)
  have hread : ∀ a, used (epdRead x u pix) a = used x a := (goes_epdRead x u pix).used_same (by decide) (by decide)
  have hnil : (epdPlan x u pix toAlt).pix = [] := by
    rw [List.isEmpty_iff.mp hpix]
    rfl
  rw [epdBegin_warm h, if_pos hpix, epdEnd_empty hnil]
  have hplan : (epdPlan x u pix toAlt).toggle = u.toggle ∧ (epdPlan x u pix toAlt).subject = u.subject := ⟨rfl, rfl⟩
  generalize epdPlan x u pix toAlt = v at hplan ⊢
  obtain ⟨htoggle, hsubject⟩ := hplan
  have hleft : Begun x (epdRecord (whenS (v.outcome == 1) (epdRead x u pix) (pixelsDone v)) v) u pix toAlt := by
    have hlast : (epdRead x u pix).core.pix.blinks = x.core.pix.blinks := (congrArg PixSt.blinks hpixel :)
    have hregion : (epdRead x u pix).core.pix.lastRegion = x.core.pix.lastRegion := (congrArg PixSt.lastRegion hpixel :)
    have hblink : (epdRead x u pix).core.pix.lastBlink = x.core.pix.lastBlink := (congrArg PixSt.lastBlink hpixel :)
    have hkind : (epdRead x u pix).core.pix.lastKindBlink = x.core.pix.lastKindBlink := (congrArg PixSt.lastKindBlink hpixel :)
    generalize epdRead x u pix = y at hepd hlast hregion hblink hkind hirq hread
    have hz : ∀ z, z = whenS (v.outcome == 1) y (pixelsDone v) → z.core.epd = y.core.epd ∧
        z.core.irq = x.core.irq ∧ (∀ a, used z a = used x a) ∧ z.core.pix.lastRegion = x.core.pix.lastRegion ∧
        z.core.pix.lastBlink = x.core.pix.lastBlink ∧ z.core.pix.lastKindBlink = x.core.pix.lastKindBlink ∧
        ∀ k, (nth z.core.pix.blinks k {}).pending = (nth x.core.pix.blinks k {}).pending := by
      rintro z rfl
      unfold whenS
      split
      · exact ⟨rfl, hirq, hread, hregion, hblink, hkind,
          fun k => by rw [pixelsDone_pending, hlast]⟩
      · exact ⟨rfl, hirq, hread, hregion, hblink, hkind,
          fun k => by rw [hlast]⟩
    generalize whenS (v.outcome == 1) y (pixelsDone v) = z at hz
    obtain ⟨hzepd, hzirq, hzused, hregion, hblink, hkind, hpend⟩ := hz z rfl
    have hrec : (epdRecord z v).core.pix = z.core.pix := (goes_epdRecord (s := z) (u := v)).same .pix (by decide)
    rw [hepd] at hzepd
    have hfields := epd_epdRecord (s := z) (u := v)
    constructor
    case run => rw [if_pos hpix, hfields]
    case queued => rw [hfields, hzepd]
    case lastSeq => rw [hfields, hzepd]
    case recs =>
      intro htog
      rw [hfields, hzepd]
      exact if_pos (htoggle.trans htog)
    case lastRegion => rw [hrec, hregion]
    case lastBlink => rw [hrec, hblink]
    case lastKind => rw [hrec, hkind]
    case pending => exact fun k => by rw [hrec, hpend]
    case done =>
      intro _ hupd hlen
      rw [← ownerN_congr hzused, ← hsubject]
      exact epdRecord_done (by rw [hzirq, hlen]) (htoggle.trans hupd)
  exact hleft

theorem begun_running (h : u.outcome ≠ 4) (hpix : pix.isEmpty = false) : Begun x (epdBegin x u pix toAlt) u pix toAlt := by
  obtain ⟨hepd, hpixel, -, -⟩ := epdRead_rest (s := x) (u := u) (pix := pix)
  rw [epdBegin_warm h, if_neg (by rw [hpix]; decide)]
  generalize epdRead x u pix = y at hepd hpixel
  obtain ⟨hepd₂, hpix₂⟩ := epd_flashSuspend (s := y)
  generalize flashSuspend y = z at hepd₂ hpix₂
  obtain ⟨hepd₃, hpix₃⟩ := epd_keyPadsChange (s := modE z fun e => { e with run := some (epdPlan x u pix toAlt) })
  generalize keyPadsChange (modE z fun e => { e with run := some (epdPlan x u pix toAlt) }) = t at hepd₃ hpix₃ ⊢
  replace hepd₃ : t.core.epd = { z.core.epd with run := some (epdPlan x u pix toAlt) } := hepd₃
  rw [hepd₂, hepd] at hepd₃
  replace hpix₃ : t.core.pix = y.core.pix := hpix₃.trans hpix₂
  rw [hpixel] at hpix₃
  constructor
  case run => rw [hepd₃, if_neg (by rw [hpix]; decide)]
  case queued => rw [hepd₃]
  case lastSeq => rw [hepd₃]
  case recs => exact fun _ => by rw [hepd₃]
  case lastRegion => rw [hpix₃]
  case lastBlink => rw [hpix₃]
  case lastKind => rw [hpix₃]
  case pending => exact fun k => by rw [hpix₃]
  case done => exact fun h => absurd (hpix.symm.trans h) Bool.false_ne_true

theorem begun (h : u.outcome ≠ 4) : Begun x (epdBegin x u pix toAlt) u pix toAlt :=
  match hpix : pix.isEmpty with
  | true => begun_empty h hpix
  | false => begun_running h hpix

end Warm

section Exec

theorem epdCourse_of_notDue (h : courseDue s 3 = false) : epdCourse s = s := by
  unfold epdCourse
  rw [takeUp_of_notDue h]
  exact ite_self s

theorem exec_updateStart (hup : coreUp s = true) (hcourse : courseDue s 3 = false) :
    exec .updateStart s = .next (settle (if updateDue s then updateStartOp s else s)) := by
  have hgoes : Goes [.irqPend, .buf, .key, .epd, .pix, .efl] s (updateStartOp s) :=
    (Goes.refl _ s).updateStartOp (by decide) (by decide) (by decide) (by decide) (by decide) (by decide)
  refine (instant_core _ hup).trans ?_
  rw [epdCourse_of_notDue hcourse, epdCourse_of_notDue ((hgoes.courseDue_same (by decide) 3).trans hcourse)]

theorem exec_blinkToggleStart (hup : coreUp s = true) (hcourse : courseDue s 3 = false) :
    exec .blinkToggleStart s = .next (settle (if toggleDue s then toggleStartOp s else s)) := by
  have hgoes : Goes [.irqPend, .buf, .key, .epd, .pix, .efl] s (toggleStartOp s) :=
    (Goes.refl _ s).toggleStartOp (by decide) (by decide) (by decide) (by decide) (by decide) (by decide)
  refine (instant_core _ hup).trans ?_
  rw [epdCourse_of_notDue hcourse, epdCourse_of_notDue ((hgoes.courseDue_same (by decide) 3).trans hcourse)]

end Exec

section Cold

/-- The record of a start that finds no temperature. -/
def coldRecord (s : State) (toggle : Bool) (subject owner : Nat) (full : Bool) : List Word :=
  [mkW [(0, 16, (s.core.epd.lastSeq + 1) % 65536), (16, 16, nth s.core.course.running 3 0)],
    mkW [(0, 16, 0x8000), (19, 1, b2n toggle), (20, 4, subject), (24, 2, owner), (26, 3, 4), (31, 1, b2n full)],
    mkW [(28, 1, if reduced s then 1 else 0)], 0]

theorem updRecord_cold {toggle full : Bool} {subject owner : Nat} (howner : owner < 4) (hcold : ¬Warm s)
    (hnow : now x = now s) (hreduced : reduced x = reduced s) :
    updRecord x (epdFix s toggle subject owner full) = coldRecord s toggle subject owner full := by
  rw [epdFix_cold hcold]
  have hval : (Fin.ofNat 4 owner).val = owner := Nat.mod_eq_of_lt howner
  unfold updRecord coldRecord
  dsimp only
  rw [hnow, hreduced, hval, Nat.sub_self]
  have h2 : mkW [(0, 16, 0x8000), (16, 3, 0), (19, 1, b2n toggle), (20, 4, subject), (24, 2, owner), (26, 3, 4), (29, 1, b2n false),
      (30, 1, b2n false), (31, 1, b2n full)] =
      mkW [(0, 16, 0x8000), (19, 1, b2n toggle), (20, 4, subject), (24, 2, owner), (26, 3, 4), (31, 1, b2n full)] := by
    simp [mkW, mkN, b2n]
  have h3 : mkW [(0, 8, 0), (8, 8, 0), (16, 12, sat 4095 0), (28, 1, b2n (reduced s)), (29, 1, b2n false)] =
      mkW [(28, 1, if reduced s then 1 else 0)] := by
    simp [mkW, mkN, b2n, sat]
  rw [h2, h3]
  rfl

theorem coldRecord_update {full : Bool} {owner : Nat} : coldRecord s false r owner full =
    [mkW [(0, 16, (s.core.epd.lastSeq + 1) % 65536), (16, 16, nth s.core.course.running 3 0)],
      mkW [(0, 16, 0x8000), (20, 4, r), (24, 2, owner), (26, 3, 4), (31, 1, if full then 1 else 0)],
      mkW [(28, 1, if reduced s then 1 else 0)], 0] := by
  have h : mkW [(0, 16, 0x8000), (19, 1, b2n false), (20, 4, r), (24, 2, owner), (26, 3, 4), (31, 1, b2n full)] =
      mkW [(0, 16, 0x8000), (20, 4, r), (24, 2, owner), (26, 3, 4), (31, 1, if full then 1 else 0)] := by
    simp [mkW, mkN, b2n]
  rw [coldRecord, h]

theorem coldRecord_toggle {owner : Nat} : coldRecord s true k owner false =
    [mkW [(0, 16, (s.core.epd.lastSeq + 1) % 65536), (16, 16, nth s.core.course.running 3 0)],
      mkW [(0, 16, 0x8000), (19, 1, 1), (20, 4, k), (24, 2, owner), (26, 3, 4)],
      mkW [(28, 1, if reduced s then 1 else 0)], 0] := by
  have h : mkW [(0, 16, 0x8000), (19, 1, b2n true), (20, 4, k), (24, 2, owner), (26, 3, 4), (31, 1, b2n false)] =
      mkW [(0, 16, 0x8000), (19, 1, 1), (20, 4, k), (24, 2, owner), (26, 3, 4)] := by
    simp [mkW, mkN, b2n]
  rw [coldRecord, h]

end Cold

section UpdateClause

theorem updateFix_kind (s : State) (r : Nat) : (updateFix s r).toggle = false ∧ (updateFix s r).subject = r ∧ (updateFix s r).owner.val = ownerN s (.panel r) ∧
    (updateFix s r).seq = (s.core.epd.lastSeq + 1) % 65536 ∧ (updateFix s r).phase = .up1 ∧ (updateFix s r).full = bit s.core.epd.qfull r := by
  obtain ⟨h1, h2, h3, h4, h5, h6⟩ := epdFix_kind (s := s) (toggle := false) (subject := r) (owner := ownerN s (.panel r)) (full := bit s.core.epd.qfull r)
  exact ⟨h1, h2, (congrArg Fin.val h3).trans (Nat.mod_eq_of_lt (ownerN_lt s _)), h4, h5, h6⟩

/-- The panel's record once region r's request is taken under a number. -/
def requestTaken (e : EpdSt) (r seq : Nat) : EpdSt :=
  { e with queued := setBit e.queued r false, qfull := setBit e.qfull r false, lastSeq := seq }

theorem goes_updateTaken : Goes [.buf, .epd, .pix] s (updateTaken s r n) := by
  have hasked : Goes [.buf, .epd, .pix] s (modE (modP s fun p => { p with tie := false }) fun e =>
      { e with queued := setBit e.queued r false, qfull := setBit e.qfull r false }) := ((Goes.refl _ s).modP (by decide)).modE (by decide)
  exact hasked.core_buf (f := fun c => { c.buf with corrected := n }) (by decide)

/-- Taking the request changes the queue, the number, the tie and the count of corrected errors. -/
theorem updateTaken_rest {seq : Nat} : let y := modE (updateTaken s r n) fun e => { e with lastSeq := seq }
    y.core.irq = s.core.irq ∧ y.core.pix = { s.core.pix with tie := false } ∧ now y = now s ∧ reduced y = reduced s ∧
      ownerN y (.panel r) = ownerN s (.panel r) ∧ y.core.epd = requestTaken s.core.epd r seq := by
  intro y
  have hgoes : Goes [.buf, .epd, .pix] s y := goes_updateTaken.modE (by decide)
  refine ⟨?_, ?_, ?_, ?_, ownerN_congr (hgoes.used_same (by decide) (by decide)) _, ?_⟩
  all_goals simp only [y, now, reduced, requestTaken, updateTaken, withCorrected, modE, modP, modC]

/-- The update of region r finds no temperature: it ends at once. -/
theorem updateStart_cold (hbad : s.core.buf.bad = []) (hirq : s.core.irq.length = 4) (h : nextRegion s = some r) (hcold : ¬Warm s) :
    let t := updateStartOp s
    t.core.epd = { requestTaken s.core.epd r ((s.core.epd.lastSeq + 1) % 65536) with
      run := none
      tempRefused := sat 255 (s.core.epd.tempRefused + 1), lastRec := coldRecord s false r (ownerN s (.panel r)) (bit s.core.epd.qfull r)
      recs := upd s.core.epd.recs r fun _ => coldRecord s false r (ownerN s (.panel r)) (bit s.core.epd.qfull r) } ∧
    bit (nth t.core.irq (ownerN s (.panel r)) {}).pend 27 = true ∧ t.core.pix = { s.core.pix with tie := false } := by
  intro t
  obtain ⟨n, hn⟩ := updateStartOp_eq hbad h
  have hout : (updateFix s r).outcome = 4 := epdFix_outcome.mpr hcold
  rw [if_pos hout, epdBegin_cold hout] at hn
  have ht : t = epdRecord (modE (updateTaken s r n) fun e => { e with lastSeq := (updateFix s r).seq }) (updateFix s r) := hn
  clear_value t
  obtain ⟨hirq₁, hpix₁, hnow, hreduced, howner, hepd₁⟩ := updateTaken_rest (s := s) (r := r) (n := n) (seq := (updateFix s r).seq)
  generalize modE (updateTaken s r n) (fun e => { e with lastSeq := (updateFix s r).seq }) = y at ht hirq₁ hpix₁ hnow hreduced howner hepd₁
  obtain ⟨htoggle, hsubject, -, hseq, -⟩ := updateFix_kind s r
  have hrec : updRecord y (updateFix s r) = coldRecord s false r (ownerN s (.panel r)) (bit s.core.epd.qfull r) :=
    updRecord_cold (ownerN_lt s (.panel r)) hcold hnow hreduced
  have hplain : (updateFix s r).clamped = false ∧ (updateFix s r).fallback = false := by
    rw [updateFix, epdFix_cold hcold]
    exact ⟨rfl, rfl⟩
  have hdone := epdRecord_done (u := updateFix s r) (s := y) (by rw [hirq₁, hirq]) htoggle
  have hpix : t.core.pix = y.core.pix := by
    rw [ht]
    exact goes_epdRecord.same .pix (by decide)
  have hepd := epd_epdRecord (u := updateFix s r) (s := y)
  rw [← ht] at hepd hdone
  rw [hsubject, howner] at hdone
  refine ⟨?_, hdone, hpix.trans hpix₁⟩
  rw [hepd, htoggle, hout, hsubject, hrec, hplain.1, hplain.2, hepd₁, hseq]
  rfl

theorem updatePix_idx : (updatePix s r).map Prod.fst = (rectIdx s (panelRect s r)).filter (updatePart s r) := by
  rw [updatePix, List.map_map]
  exact List.map_id _

theorem updatePix_isEmpty : (updatePix s r).isEmpty = !(rectIdx s (panelRect s r)).any (updatePart s r) := by
  rw [Bool.eq_iff_iff, List.isEmpty_iff, updatePix, List.map_eq_nil_iff, List.filter_eq_nil_iff, Bool.not_eq_true', List.any_eq_false]

/-- The update of region r finds a temperature, or its fallback: it runs exactly when a pixel takes part. -/
theorem updateStart_warm (hbad : s.core.buf.bad = []) (hirq : s.core.irq.length = 4) (h : nextRegion s = some r) (hwarm : Warm s) :
    let t := updateStartOp s
    t.core.epd.queued = setBit s.core.epd.queued r false ∧ t.core.epd.lastSeq = (s.core.epd.lastSeq + 1) % 65536 ∧
    t.core.pix.lastRegion = r ∧ t.core.pix.lastKindBlink = false ∧
    t.core.epd.run.isSome = (rectIdx s (panelRect s r)).any (updatePart s r) ∧
    (∀ u, t.core.epd.run = some u → u.toggle = false ∧ u.subject = r ∧ u.owner.val = ownerN s (.panel r) ∧
      u.seq = (s.core.epd.lastSeq + 1) % 65536 ∧ u.phase = .up1 ∧ u.full = bit s.core.epd.qfull r ∧
      u.pix.map PixRun.idx = (rectIdx s (panelRect s r)).filter (updatePart s r)) ∧
    (t.core.epd.run = none → bit (nth t.core.irq (ownerN s (.panel r)) {}).pend 27 = true) := by
  intro t
  obtain ⟨n, hn⟩ := updateStartOp_eq hbad h
  have hout : (updateFix s r).outcome ≠ 4 := fun h => epdFix_outcome.mp h hwarm
  rw [if_neg hout] at hn
  obtain ⟨htoggle, hsubject, howner, hseq, hphase, hfull⟩ := updateFix_kind s r
  have ht : t = _ := hn
  clear_value t
  have hleft : ∀ x, x = modP (updateTaken s r n) (fun p => { p with lastRegion := r, lastKindBlink := false }) →
      x.core.epd.queued = setBit s.core.epd.queued r false ∧ x.core.pix.lastRegion = r ∧ x.core.pix.lastKindBlink = false ∧
      x.core.irq = s.core.irq := by
    rintro x rfl
    simp only [updateTaken, withCorrected, modE, modP, modC, and_self]
  have hgoes : Goes [.buf, .epd, .pix] s (modP (updateTaken s r n) fun p => { p with lastRegion := r, lastKindBlink := false }) :=
    goes_updateTaken.modP (by decide)
  generalize modP (updateTaken s r n) (fun p => { p with lastRegion := r, lastKindBlink := false }) = x at ht hleft hgoes
  obtain ⟨hqueued, hregion, hkind, hxirq⟩ := hleft x rfl
  have hb : Begun x t (updateFix s r) (updatePix s r) false := by
    rw [ht]
    exact begun hout
  have hrun := hb.run
  refine ⟨hb.queued.trans hqueued, hb.lastSeq.trans hseq, hb.lastRegion.trans hregion, hb.lastKind.trans hkind, ?_, ?_, ?_⟩
  · rw [hrun, updatePix_isEmpty]
    cases (rectIdx s (panelRect s r)).any (updatePart s r) <;> rfl
  · intro u hu
    rw [hrun] at hu
    split at hu
    · exact nomatch hu
    · obtain rfl := Option.some.inj hu
      exact ⟨htoggle, hsubject, howner, hseq, hphase, hfull, epdPlan_idx.trans updatePix_idx⟩
  · intro hnone
    rw [hrun] at hnone
    split at hnone
    next hempty =>
      have hdone := hb.done hempty htoggle (by rw [hxirq, hirq])
      rw [hsubject, ownerN_congr (hgoes.used_same (by decide) (by decide))] at hdone
      exact hdone
    · exact nomatch hnone

end UpdateClause

section ToggleClause

/-- The pending toggle of region k has been taken, and its pixels have been read. -/
def toggleTaken (s : State) (k n : Nat) : State :=
  withCorrected (modP s fun p => { p with blinks := upd p.blinks k (fun b => { b with pending := false, ret := false }), tie := false }) n

/-- What the start of region k's toggle fixes. -/
def toggleFix (s : State) (k : Nat) : UpdSt := epdFix s true k (ownerN s (.blink k)) false

theorem goes_toggleTaken : Goes [.buf, .epd, .pix] s (toggleTaken s k n) := by
  have hasked : Goes [.buf, .epd, .pix] s (modP s fun p =>
      { p with blinks := upd p.blinks k (fun b => { b with pending := false, ret := false }), tie := false }) := (Goes.refl _ s).modP (by decide)
  exact hasked.core_buf (f := fun c => { c.buf with corrected := n }) (by decide)

theorem toggleFix_taken : epdFix (toggleTaken s k n) true k (ownerN (toggleTaken s k n) (.blink k)) false = toggleFix s k := by
  have hused : ∀ a, used (toggleTaken s k n) a = used s a := goes_toggleTaken.used_same (by decide) (by decide)
  rw [ownerN_congr hused]
  exact epdFix_congr rfl hused rfl rfl rfl rfl

theorem toggleFix_kind (s : State) (k : Nat) : (toggleFix s k).toggle = true ∧ (toggleFix s k).subject = k ∧
    (toggleFix s k).seq = (s.core.epd.lastSeq + 1) % 65536 ∧ (toggleFix s k).phase = .up1 := by
  obtain ⟨h1, h2, -, h4, h5, -⟩ := epdFix_kind (s := s) (toggle := true) (subject := k) (owner := ownerN s (.blink k)) (full := false)
  exact ⟨h1, h2, h4, h5⟩

theorem toggleStartOp_eq (hbad : s.core.buf.bad = []) (h : nextBlink s = some k) : ∃ n pix toAlt, toggleStartOp s =
    epdBegin (if (toggleFix s k).outcome = 4 then toggleTaken s k n else modP (toggleTaken s k n) fun p => { p with lastBlink := k, lastKindBlink := true })
      (toggleFix s k) pix toAlt := by
  obtain ⟨n, hn⟩ := pixSecded_corrected (s := modP s fun p =>
    { p with blinks := upd p.blinks k (fun b => { b with pending := false, ret := false }), tie := false }) hbad (rectIdx s (blinkRect s k))
  unfold toggleStartOp
  rw [h]
  dsimp -zeta only
  extract_lets ret s1 idx s2 u alt cand dest pix toAlt s3
  refine ⟨n, pix, toAlt, ?_⟩
  have h2 : s2 = toggleTaken s k n := hn
  clear_value pix toAlt
  clear cand dest alt
  clear_value s2
  subst h2
  have hu : u = toggleFix s k := toggleFix_taken
  have h3 : s3 = if u.outcome = 4 then toggleTaken s k n else modP (toggleTaken s k n) fun p => { p with lastBlink := k, lastKindBlink := true } := rfl
  rw [h3, hu]

theorem nextBlink_lt (h : nextBlink s = some k) : k < 8 := by
  obtain ⟨i, -, rfl⟩ := List.mem_map.mp (List.mem_of_find?_eq_some h)
  exact Nat.mod_lt _ (by decide)

/-- Taking the toggle changes the blink regions, the tie, the number and the count of corrected errors. -/
theorem toggleTaken_rest {seq : Nat} : let y := modE (toggleTaken s k n) fun e => { e with lastSeq := seq }
    y.core.irq = s.core.irq ∧ now y = now s ∧ reduced y = reduced s ∧ y.core.epd = { s.core.epd with lastSeq := seq } ∧
    y.core.pix = { s.core.pix with blinks := upd s.core.pix.blinks k (fun b => { b with pending := false, ret := false }), tie := false } ∧
    y.core.capo.trig = s.core.capo.trig := by
  intro y
  refine ⟨?_, ?_, ?_, ?_, ?_, ?_⟩
  all_goals simp only [y, now, reduced, toggleTaken, withCorrected, modE, modP, modC]

/-- The toggle of region k finds no temperature: it ends at once. -/
theorem toggleStart_cold (hbad : s.core.buf.bad = []) (h : nextBlink s = some k) (hcold : ¬Warm s) :
    let t := toggleStartOp s
    t.core.epd = { s.core.epd with
      lastSeq := (s.core.epd.lastSeq + 1) % 65536, run := none, tempRefused := sat 255 (s.core.epd.tempRefused + 1)
      lastRec := coldRecord s true k (ownerN s (.blink k)) false } ∧
    t.core.pix = { s.core.pix with blinks := upd s.core.pix.blinks k (fun b => { b with pending := false, ret := false }), tie := false } ∧
    t.core.irq = s.core.irq ∧ t.core.capo.trig = s.core.capo.trig := by
  intro t
  obtain ⟨n, pix, toAlt, hn⟩ := toggleStartOp_eq hbad h
  have hout : (toggleFix s k).outcome = 4 := epdFix_outcome.mpr hcold
  rw [if_pos hout, epdBegin_cold hout] at hn
  have ht : t = epdRecord (modE (toggleTaken s k n) fun e => { e with lastSeq := (toggleFix s k).seq }) (toggleFix s k) := hn
  clear_value t
  obtain ⟨hirq₁, hnow, hreduced, hepd₁, hpix₁, htrig⟩ := toggleTaken_rest (s := s) (k := k) (n := n) (seq := (toggleFix s k).seq)
  generalize modE (toggleTaken s k n) (fun e => { e with lastSeq := (toggleFix s k).seq }) = y at ht hirq₁ hpix₁ hnow hreduced hepd₁ htrig
  obtain ⟨htoggle, hsubject, hseq, -⟩ := toggleFix_kind s k
  have hrec : updRecord y (toggleFix s k) = coldRecord s true k (ownerN s (.blink k)) false :=
    updRecord_cold (ownerN_lt s (.blink k)) hcold hnow hreduced
  have hplain : (toggleFix s k).clamped = false ∧ (toggleFix s k).fallback = false := by
    rw [toggleFix, epdFix_cold hcold]
    exact ⟨rfl, rfl⟩
  have hquiet : (epdRecord y (toggleFix s k)).core.irq = y.core.irq := irq_epdRecord_toggle htoggle (by rw [hout]; decide)
  have hepd := epd_epdRecord (u := toggleFix s k) (s := y)
  have hgoes : Goes [.irqPend, .epd] y (epdRecord y (toggleFix s k)) := goes_epdRecord
  rw [← ht] at hepd hquiet hgoes
  refine ⟨?_, (hgoes.same .pix (by decide)).trans hpix₁, hquiet.trans hirq₁,
    (congrArg CapoSt.trig (hgoes.same .capo (by decide))).trans htrig⟩
  rw [hepd, htoggle, hout, hrec, hplain.1, hplain.2, hepd₁, hseq]
  rfl

/-- The toggle of region k finds a temperature, or its fallback. -/
theorem toggleStart_warm (hbad : s.core.buf.bad = []) (hlen : s.core.pix.blinks.length = 8) (h : nextBlink s = some k) (hwarm : Warm s) :
    let t := toggleStartOp s
    (nth t.core.pix.blinks k {}).pending = false ∧ t.core.epd.queued = s.core.epd.queued ∧
    t.core.epd.lastSeq = (s.core.epd.lastSeq + 1) % 65536 ∧ t.core.epd.recs = s.core.epd.recs ∧
    t.core.pix.lastBlink = k ∧ t.core.pix.lastKindBlink = true ∧
    (∀ u, t.core.epd.run = some u → u.toggle = true ∧ u.subject = k ∧ u.phase = .up1) := by
  intro t
  obtain ⟨n, pix, toAlt, hn⟩ := toggleStartOp_eq hbad h
  have hout : (toggleFix s k).outcome ≠ 4 := fun h => epdFix_outcome.mp h hwarm
  rw [if_neg hout] at hn
  obtain ⟨htoggle, hsubject, hseq, hphase⟩ := toggleFix_kind s k
  have ht : t = _ := hn
  clear_value t
  have hleft : ∀ x, x = modP (toggleTaken s k n) (fun p => { p with lastBlink := k, lastKindBlink := true }) →
      x.core.epd.queued = s.core.epd.queued ∧ x.core.epd.recs = s.core.epd.recs ∧ x.core.pix.lastBlink = k ∧
      x.core.pix.lastKindBlink = true ∧ x.core.pix.blinks = upd s.core.pix.blinks k fun b => { b with pending := false, ret := false } := by
    rintro x rfl
    simp only [toggleTaken, withCorrected, modP, modC, and_self]
  generalize modP (toggleTaken s k n) (fun p => { p with lastBlink := k, lastKindBlink := true }) = x at ht hleft
  obtain ⟨hqueued, hrecs, hblink, hkind, hblinks⟩ := hleft x rfl
  have hb : Begun x t (toggleFix s k) pix toAlt := by
    rw [ht]
    exact begun hout
  refine ⟨?_, hb.queued.trans hqueued, hb.lastSeq.trans hseq, (hb.recs htoggle).trans hrecs, hb.lastBlink.trans hblink,
    hb.lastKind.trans hkind, ?_⟩
  · rw [hb.pending, hblinks, nth_upd_same _ _ _ _ (by rw [hlen]; exact nextBlink_lt h)]
  · intro u hu
    rw [hb.run] at hu
    split at hu
    · exact nomatch hu
    · obtain rfl := Option.some.inj hu
      exact ⟨htoggle, hsubject, hphase⟩

end ToggleClause

section Due

variable {k : Fin 8}

theorem blinkDueOp_due (hdue : bit (used s (0x1462 + 4 * k.val)) 7 = true ∧ (nth s.core.pix.blinks k.val {}).grid ≤ now s) :
    (blinkDueOp s k.val).core.epd = s.core.epd ∧ (blinkDueOp s k.val).core.pix.blinks = upd s.core.pix.blinks k.val fun b =>
      if ((nth s.core.pix.blinks k.val {}).pending || !s.core.pix.tableOk || !bit (used s 0x1400) 0) = true then { b with late := sat 255 (b.late + 1) }
      else { b with pending := true, ret := false } := by
  have hcond : (bit (used s (0x1462 + 4 * k.val)) 7 && decide ((nth s.core.pix.blinks k.val {}).grid ≤ now s)) = true := by
    rw [hdue.1, decide_eq_true hdue.2]
    rfl
  unfold blinkDueOp whenS
  dsimp only
  rw [if_pos hcond]
  split <;> exact ⟨rfl, rfl⟩

theorem blinkDue_moves (s : State) (k : Fin 8) (hup : coreUp s = true) (hlen : s.core.pix.blinks.length = 8) :
    let b := nth s.core.pix.blinks k.val {}
    let due := bit (used s (0x1462 + 4 * k.val)) 7 = true ∧ b.grid ≤ now s
    (¬due → exec (.blinkDue k) s = .next (settle s)) ∧
    (due → ∃ t, exec (.blinkDue k) s = .next t ∧ (∀ j : Fin 8, j ≠ k → nth t.core.pix.blinks j.val {} = nth s.core.pix.blinks j.val {}) ∧
      t.core.epd = s.core.epd ∧
      nth t.core.pix.blinks k.val {} = (if b.pending = true ∨ s.core.pix.tableOk = false ∨ bit (used s 0x1400) 0 = false then
        { b with late := sat 255 (b.late + 1) } else { b with pending := true, ret := false })) := by
  intro b due
  have hexec : exec (.blinkDue k) s = .next (settle (blinkDueOp s k.val)) := instant_core _ hup
  constructor
  · intro hnot
    rw [hexec]
    have hstays : blinkDueOp s k.val = s := if_neg fun h => hnot (by simpa [due, b] using h)
    rw [hstays]
  · intro hdue
    obtain ⟨hepd, hblinks⟩ := blinkDueOp_due hdue
    refine ⟨_, hexec, fun j hj => ?_, hepd, ?_⟩
    · rw [settle_core_pix, hblinks, nth_upd_ne _ _ _ _ _ fun h => hj (Fin.ext h)]
    · rw [settle_core_pix, hblinks, nth_upd_same _ _ _ _ (by rw [hlen]; exact k.isLt)]
      refine if_congr ?_ rfl rfl
      rw [Bool.or_eq_true, Bool.or_eq_true, Bool.not_eq_true', Bool.not_eq_true', or_assoc]

end Due

/-- Settles O46: a start with and without a temperature, and the due time of a blink region. -/
theorem updatesAndTogglesStart : Obligations.UpdatesAndTogglesStart := by
  unfold Obligations.UpdatesAndTogglesStart
  refine ⟨?_, ?_, blinkDue_moves⟩
  · intro s hup hcourse hbad hirq _
    extract_lets warm number
    have hexec := exec_updateStart hup hcourse
    constructor
    · intro hnot
      rw [hexec, if_neg (by rw [hnot]; decide)]
    intro hdue r hr full part
    rw [hdue, if_pos rfl] at hexec
    refine ⟨settle (updateStartOp s), hexec, ?_⟩
    rw [settle_core_epd, settle_core_pix]
    rcases Classical.em (Warm s) with hwarm | hcold
    · obtain ⟨hqueued, hseq, hregion, hkind, hrun, hplan, hdone⟩ := updateStart_warm hbad hirq hr hwarm
      exact ⟨hqueued, hseq, fun h => absurd hwarm h, fun _ => ⟨hregion, hkind, hrun, hplan, fun h => pendRises_settle _ _ _ (hdone h)⟩⟩
    · obtain ⟨hepd, hdone, hpix⟩ := updateStart_cold hbad hirq hr hcold
      have hpend : bit (nth (settle (updateStartOp s)).core.irq (ownerN s (.panel r)) {}).pend 27 = true := pendRises_settle _ _ _ hdone
      generalize (settle (updateStartOp s)).core.irq = l at hpend
      rw [hepd, hpix]
      refine ⟨rfl, rfl, fun _ => ⟨rfl, rfl, hpend, rfl, ?_, rfl⟩, fun h => absurd h hcold⟩
      exact coldRecord_update
  · intro s hup hcourse hbad hlen
    extract_lets warm number
    have hexec := exec_blinkToggleStart hup hcourse
    constructor
    · intro hnot
      rw [hexec, if_neg (by rw [hnot]; decide)]
    intro hdue k hk
    rw [hdue, if_pos rfl] at hexec
    refine ⟨settle (toggleStartOp s), hexec, ?_⟩
    rw [settle_core_epd, settle_core_pix]
    rcases Classical.em (Warm s) with hwarm | hcold
    · obtain ⟨hpending, hqueued, hseq, hrecs, hblink, hkind, hplan⟩ := toggleStart_warm hbad hlen hk hwarm
      exact ⟨hpending, hqueued, hseq, hrecs, fun h => absurd hwarm h, fun _ => ⟨hblink, hkind⟩, fun u hu =>
        ⟨(hplan u hu).1, (hplan u hu).2.1, (hplan u hu).2.2, hblink, hkind⟩⟩
    · obtain ⟨hepd, hpix, hirq, htrig⟩ := toggleStart_cold hbad hk hcold
      have hquiet : ∀ q : Part, s.core.capo.trig = 0 → (nth (settle (toggleStartOp s)).core.irq q.val {}).pend = (nth s.core.irq q.val {}).pend := by
        intro q hq
        rw [← hirq]
        exact (pend_settle _ _).resolve_right fun h => h.1 (htrig.trans hq)
      generalize (settle (toggleStartOp s)).core.irq = l at hquiet
      rw [hepd, hpix]
      refine ⟨?_, rfl, rfl, rfl, fun _ => ⟨rfl, rfl, rfl, ?_, hquiet⟩, fun h => absurd h hcold,
        fun u hu => absurd hu.symm (Option.some_ne_none u)⟩
      · exact congrArg BlinkSt.pending (nth_upd_same s.core.pix.blinks k _ _ (by rw [hlen]; exact nextBlink_lt hk))
      · exact coldRecord_toggle

end Sys2Proof.Machine
end

section
/-! PROOFS. Chapter 09: the phases of a panel run (09 R252-R259, Tables 9-4 and 9-8, 10 R287). -/

set_option Elab.async false

namespace Sys2Proof.Machine

variable {s x t : State} {u : UpdSt} {mv : List Int}

section Rails

/-- The rails that a phase regulates, by their numbers (09 Table 9-4). -/
def railsNamed : EpdPhase → List Nat
  | .up1 => [0, 1] | .up2 => [0, 1, 2] | .up3 => [0, 1, 2, 3] | .up4 => [0, 1, 2, 3, 4] | .frames => [0, 1, 2, 3, 4]
  | .down1 => [0, 1, 2, 3] | .down2 => [0, 1, 2] | .down3 => [0, 1] | .down4 => []

theorem mem_railsNamed (ph : EpdPhase) (i : Fin 5) : bit (railsOn ph) i.val = true ↔ i.val ∈ railsNamed ph := by
  cases ph <;> fin_cases i <;> decide

theorem bit_railGood (s : State) (i : Fin 5) (u : UpdSt) (hrun : s.core.epd.run = some u) :
    let vgh : Int := 20000 + 500 * (uf s 0x1408 0 4 : Nat)
    let vpos : Int := 10000 + 20 * (u.drive : Nat)
    let set := [vgh, if vgh < 21000 then 800 - vgh else -20000, -vpos, vpos]
    let v := nth s.core.epd.railMv i.val 0
    (bit (railGood s) i.val = true ↔ i.val ∈ railsNamed u.phase ∧
      if i.val = 4 then (255 * v + 3000 * (u.vcom : Int)).natAbs ≤ 50 * 255
      else 20 * (v - nth set i.val 0).natAbs ≤ (nth set i.val 0).natAbs) := by
  intro vgh vpos set v
  have hgood : railGood s = bvOf 5 fun i => bit (railsOn u.phase) i && railWithin s u i (nth s.core.epd.railMv i 0) := by
    unfold railGood
    rw [hrun]
  rw [hgood, bit_bvOf _ i.isLt, Bool.and_eq_true]
  refine and_congr (mem_railsNamed u.phase i) ?_
  unfold railWithin
  split
  · exact decide_eq_true_iff
  · exact decide_eq_true_iff

end Rails

section Phases

theorem epd_modRun {f : UpdSt → UpdSt} (hrun : s.core.epd.run = some u) : (modRun s f).core.epd = { s.core.epd with run := some (f u) } := by
  show ({ s.core.epd with run := s.core.epd.run.map f } : EpdSt) = _
  rw [hrun]
  rfl

theorem run_modRun {f : UpdSt → UpdSt} (hrun : s.core.epd.run = some u) : (modRun s f).core.epd.run = some (f u) := by
  rw [epd_modRun hrun]

/-- After the way up and the read: the frames, or the way down where there is none (10 R287, R288). -/
def afterUp (u : UpdSt) : EpdPhase := if u.total = 0 then .down1 else .frames

theorem epd_framesBegin (hrun : s.core.epd.run = some u) : (framesBegin s).core.epd = { s.core.epd with run := some { u with phase := afterUp u } } :=
  epd_keyPadsChange.1.trans (epd_modRun hrun)

theorem epd_flashResume : (flashResume s).core.epd = s.core.epd := by
  unfold flashResume
  split <;> rfl

theorem epd_railSee : (railSee s mv).core.epd = { s.core.epd with railMv := mv } := rfl

theorem railUpOp_idle (h : s.core.epd.run = none) : railUpOp s mv = railSee s mv := by
  have hseen : (railSee s mv).core.epd.run = none := h
  unfold railUpOp
  dsimp only
  rw [hseen]

/-- What the end of a phase in which rails go up leaves of the run (09 Table 9-4). -/
def upEnded (u : UpdSt) : Option UpdSt :=
  if u.phase = .up1 then some { u with phase := .up2 }
  else if u.phase = .up2 then some { u with phase := .up3 }
  else if u.phase = .up3 then some { u with phase := .up4 }
  else if u.phase = .up4 then some { u with upDone := true, phase := if u.readDone then afterUp u else .up4 }
  else none

theorem railUpOp_notGood (hrun : s.core.epd.run = some u) (h : railGood (railSee s mv) ≠ railsOn u.phase) : railUpOp s mv = railSee s mv := by
  have hseen : (railSee s mv).core.epd.run = some u := hrun
  unfold railUpOp
  dsimp only
  rw [hseen]
  exact if_neg fun hg => h (beq_iff_eq.mp hg)

theorem railUpOp_notUp (hrun : s.core.epd.run = some u) (h : upEnded u = none) : railUpOp s mv = railSee s mv := by
  have hseen : (railSee s mv).core.epd.run = some u := hrun
  unfold railUpOp
  dsimp only
  rw [hseen]
  dsimp only
  unfold upEnded at h
  split
  · cases hph : u.phase <;> simp [hph] at h ⊢
  · rfl

theorem epd_railUpOp {v : UpdSt} (hrun : s.core.epd.run = some u) (hgood : railGood (railSee s mv) = railsOn u.phase) (h : upEnded u = some v) :
    (railUpOp s mv).core.epd = { s.core.epd with railMv := mv, run := some v } := by
  have hseen : (railSee s mv).core.epd.run = some u := hrun
  have hepd := epd_railSee (s := s) (mv := mv)
  unfold railUpOp
  dsimp only
  rw [hseen]
  dsimp only
  rw [if_pos (show railsGood (railSee s mv) u = true from beq_iff_eq.mpr hgood)]
  generalize railSee s mv = y at hseen hepd
  unfold upEnded at h
  cases hph : u.phase <;> simp only [hph, reduceCtorEq, if_true, if_false, Option.some.injEq] at h ⊢
  case up1 => rw [epd_modRun hseen, ← h, hepd]
  case up2 => rw [epd_modRun hseen, ← h, hepd]
  case up3 => rw [epd_modRun hseen, ← h, hepd]
  case up4 =>
    split
    next hread =>
      rw [epd_framesBegin (run_modRun hseen), epd_modRun hseen, ← h, hepd, hread]
      rfl
    next hread => rw [epd_modRun hseen, ← h, hepd, if_neg hread, hph]

theorem waveReadOp_idle (h : s.core.epd.run = none) : waveReadOp s = s := by
  unfold waveReadOp
  rw [h]

theorem waveReadOp_read (hrun : s.core.epd.run = some u) (h : u.readDone = true) : waveReadOp s = s := by
  unfold waveReadOp
  rw [hrun]
  exact if_pos h

theorem epd_waveReadOp (hrun : s.core.epd.run = some u) (h : u.readDone = false) : (waveReadOp s).core.epd = { s.core.epd with
    run := some { u with readDone := true, phase := if u.upDone = true ∧ u.phase = .up4 then afterUp u else u.phase } } := by
  have hread : (flashResume (modRun s fun u => { u with readDone := true })).core.epd = { s.core.epd with run := some { u with readDone := true } } :=
    epd_flashResume.trans (epd_modRun hrun)
  unfold waveReadOp
  rw [hrun]
  dsimp only
  rw [if_neg (by rw [h]; decide)]
  generalize flashResume (modRun s fun u => { u with readDone := true }) = y at hread
  split
  next hup =>
    rw [epd_framesBegin (congrArg EpdSt.run hread :), hread]
    rfl
  next hup => rw [hread]

/-- The phase in which the rails go down after one that timed out (09 R257). -/
def upFailed (u : UpdSt) : Option EpdPhase :=
  if u.phase = .up1 then some .down4
  else if u.phase = .up2 then some .down3
  else if u.phase = .up3 then some .down2
  else if u.phase = .up4 ∧ u.upDone = false then some .down1
  else none

theorem railUpTimeoutOp_idle {c : RailCause} (h : s.core.epd.run = none) : railUpTimeoutOp s c mv = railSee s mv := by
  have hseen : (railSee s mv).core.epd.run = none := h
  unfold railUpTimeoutOp
  dsimp only
  rw [hseen]

theorem railUpTimeoutOp_notUp {c : RailCause} (hrun : s.core.epd.run = some u) (h : upFailed u = none) : railUpTimeoutOp s c mv = railSee s mv := by
  have hseen : (railSee s mv).core.epd.run = some u := hrun
  unfold railUpTimeoutOp
  dsimp only
  rw [hseen]
  unfold upFailed at h
  cases hph : u.phase
  case up4 =>
    have hup : u.upDone = true := by simpa [hph] using h
    simp [hph, hup]
  all_goals simp [hph] at h ⊢

theorem railUpTimeoutOp_up {c : RailCause} {ph : EpdPhase} (hrun : s.core.epd.run = some u) (h : upFailed u = some ph) :
    railUpTimeoutOp s c mv = if railsGood (railSee s mv) u then railSee s mv else flashResume (modE (railSee s mv) fun e =>
      { e with lastFault := railCauseCode c, run := some { u with phase := ph, outcome := 2, readDone := true } }) := by
  have hseen : (railSee s mv).core.epd.run = some u := hrun
  unfold railUpTimeoutOp
  dsimp only
  rw [hseen]
  unfold upFailed at h
  cases hph : u.phase
  case up4 =>
    obtain ⟨hup, rfl⟩ : u.upDone = false ∧ .down1 = ph := by simpa [hph] using h
    simp [hph, hup]
  all_goals
    simp only [hph, reduceCtorEq, if_true, if_false, Option.some.injEq, false_and] at h
  all_goals
    subst h
    simp only [hph]

theorem railUpTimeoutOp_good {c : RailCause} (hrun : s.core.epd.run = some u) (h : railGood (railSee s mv) = railsOn u.phase) :
    railUpTimeoutOp s c mv = railSee s mv := by
  cases hup : upFailed u with
  | none => exact railUpTimeoutOp_notUp hrun hup
  | some ph =>
    rw [railUpTimeoutOp_up hrun hup]
    exact if_pos (beq_iff_eq.mpr h)

theorem epd_railUpTimeoutOp {c : RailCause} {ph : EpdPhase} (hrun : s.core.epd.run = some u) (hup : upFailed u = some ph)
    (h : railGood (railSee s mv) ≠ railsOn u.phase) : (railUpTimeoutOp s c mv).core.epd = { s.core.epd with
      railMv := mv, run := some { u with phase := ph, outcome := 2, readDone := true }, lastFault := railCauseCode c } := by
  have hbad : ¬railsGood (railSee s mv) u = true := fun hg => h (beq_iff_eq.mp hg)
  rw [railUpTimeoutOp_up hrun hup, if_neg hbad]
  exact epd_flashResume

theorem railLostOp_idle {c : RailCause} (h : s.core.epd.run = none) : railLostOp s c mv = railSee s mv := by
  have hseen : (railSee s mv).core.epd.run = none := h
  unfold railLostOp
  dsimp only
  rw [hseen]

/-- A rail is lost during the frames: its ball is not good, or the boost has lost its limit (09 R259). -/
def RailHit (s : State) (u : UpdSt) (c : RailCause) : Prop :=
  u.phase = .frames ∧ (c = .boost ∨ bit (railGood s) (railCauseCode c - 1) = false)

theorem railLostOp_missed {c : RailCause} (hrun : s.core.epd.run = some u) (h : ¬RailHit (railSee s mv) u c) : railLostOp s c mv = railSee s mv := by
  have hseen : (railSee s mv).core.epd.run = some u := hrun
  unfold railLostOp
  dsimp only
  rw [hseen]
  exact if_neg h

theorem epd_railLostOp {c : RailCause} (hrun : s.core.epd.run = some u) (h : RailHit (railSee s mv) u c) : (railLostOp s c mv).core.epd =
    { s.core.epd with railMv := mv, run := some { u with phase := .down1, outcome := 3 }, lastFault := railCauseCode c } := by
  have hseen : (railSee s mv).core.epd.run = some u := hrun
  unfold railLostOp
  dsimp only
  rw [hseen]
  dsimp only
  rw [if_pos (show u.phase = .frames ∧ _ from h)]
  exact epd_keyPadsChange.1

theorem railDownOp_idle (h : s.core.epd.run = none) : railDownOp s mv = railSee s mv := by
  have hseen : (railSee s mv).core.epd.run = none := h
  unfold railDownOp
  dsimp only
  rw [hseen]

/-- The next phase of the way down (09 Table 9-4). -/
def downNext (u : UpdSt) : Option EpdPhase :=
  if u.phase = .down1 then some .down2 else if u.phase = .down2 then some .down3 else if u.phase = .down3 then some .down4 else none

/-- The run with what the level of the rails tells of its way down. -/
def downSeen (u : UpdSt) (mv : List Int) : UpdSt := { u with downSlow := u.downSlow || !railDownReached u.phase mv }

theorem epd_railDownOp {ph : EpdPhase} (hrun : s.core.epd.run = some u) (h : downNext u = some ph) :
    (railDownOp s mv).core.epd = { s.core.epd with railMv := mv, run := some { downSeen u mv with phase := ph } } := by
  have hseen : (railSee s mv).core.epd.run = some u := hrun
  have hepd := epd_railSee (s := s) (mv := mv)
  unfold railDownOp
  dsimp only
  rw [hseen]
  dsimp only
  generalize railSee s mv = y at hseen hepd
  unfold downNext at h
  cases hph : u.phase
  case down1 | down2 | down3 =>
    simp only [hph, reduceCtorEq, if_true, if_false, Option.some.injEq] at h
    subst h
    show ({ y.core.epd with run := _ } : EpdSt) = _
    rw [hepd, downSeen, hph]
  all_goals simp [hph] at h

theorem railDownOp_last (hrun : s.core.epd.run = some u) (h : u.phase = .down4) : railDownOp s mv = epdEnd (railSee s mv) (downSeen u mv) := by
  have hseen : (railSee s mv).core.epd.run = some u := hrun
  unfold railDownOp
  dsimp only
  rw [hseen]
  dsimp only
  rw [downSeen, h]

theorem panelFrameOp_idle (h : s.core.epd.run = none) : panelFrameOp s = s := by
  unfold panelFrameOp
  rw [h]

theorem panelFrameOp_other (hrun : s.core.epd.run = some u) (h : u.phase ≠ .frames) : panelFrameOp s = s := by
  unfold panelFrameOp
  rw [hrun]
  exact if_neg h

/-- A pixel of a run as a frame finds it: no more codes where its word is uncorrectable (09 Edges). -/
def framePixel (s : State) (p : PixRun) : PixRun := if s.core.buf.bad.elem (pixAddr p.idx / 8) then { p with seq := [], ecc := true } else p

theorem epd_pixSecded (idx : List Nat) : (pixSecded s idx).core.epd = s.core.epd :=
  ((Goes.refl [.buf, .pix] s).pixSecded (by decide) (by decide)).same .epd (by decide)

theorem epd_keyGrant {n : Nat} : (keyGrant s n).core.epd = s.core.epd := by
  unfold keyGrant
  dsimp only
  split <;> rfl

theorem epd_runSecded (hrun : s.core.epd.run = some u) : (runSecded s).core.epd = { s.core.epd with run := some { u with pix := u.pix.map (framePixel s) } } := by
  unfold runSecded
  rw [hrun]
  exact (epd_pixSecded _).trans (epd_modRun hrun)

theorem epd_panelFrameOp (hrun : s.core.epd.run = some u) (h : u.phase = .frames) : (panelFrameOp s).core.epd = { s.core.epd with
    run := some { u with pix := u.pix.map (framePixel s), done := u.done + 1, phase := if u.total ≤ u.done + 1 then .down1 else .frames } } := by
  unfold panelFrameOp
  rw [hrun]
  dsimp only
  rw [if_pos h]
  have hread : (keyGrant (runSecded s) (10 * u.grant)).core.epd = { s.core.epd with run := some { u with pix := u.pix.map (framePixel s) } } :=
    epd_keyGrant.trans (epd_runSecded hrun)
  generalize keyGrant (runSecded s) (10 * u.grant) = y at hread
  have hdriven := epd_modRun (f := fun u' => { u' with done := u'.done + 1, phase := if decide (u.total ≤ u.done + 1) then .down1 else .frames })
    (congrArg EpdSt.run hread :)
  rw [hread] at hdriven
  have hwhen (b : Bool) (x : State) : (whenS b x keyPadsChange).core.epd = x.core.epd := by
    cases b with
    | false => rfl
    | true => exact epd_keyPadsChange.1
  refine (hwhen _ _).trans (hdriven.trans ?_)
  simp only [decide_eq_true_eq]

end Phases

section Exec

variable {c : RailCause}

theorem exec_railUpPhaseEnd (hup : coreUp s = true) : exec (.railUpPhaseEnd mv) s = .next (settle (railUpOp s mv)) := instant_core _ hup

theorem exec_waveformReadDone (hup : coreUp s = true) : exec .waveformReadDone s = .next (settle (waveReadOp s)) := instant_core _ hup

theorem exec_railUpTimeout (hup : coreUp s = true) : exec (.railUpTimeout c mv) s = .next (settle (railUpTimeoutOp s c mv)) := instant_core _ hup

theorem exec_panelFrame (hup : coreUp s = true) : exec .panelFrame s = .next (settle (panelFrameOp s)) := instant_core _ hup

theorem exec_railLost (hup : coreUp s = true) : exec (.railLost c mv) s = .next (settle (railLostOp s c mv)) := instant_core _ hup

theorem exec_railDownPhaseEnd (hup : coreUp s = true) (hcourse : courseDue s 3 = false) :
    exec (.railDownPhaseEnd mv) s = .next (settle (railDownOp s mv)) := by
  have hgoes : Goes [.irqPend, .buf, .epd, .pix] s (railDownOp s mv) := (Goes.refl _ s).railDownOp (by decide) (by decide) (by decide) (by decide)
  refine (instant_core _ hup).trans ?_
  rw [epdCourse_of_notDue ((hgoes.courseDue_same (by decide) 3).trans hcourse)]

/-- Without a run an event of the rails changes the voltages seen alone. -/
theorem railEvents_idle (hup : coreUp s = true) (hcourse : courseDue s 3 = false) (h : s.core.epd.run = none) :
    exec .waveformReadDone s = .next (settle s) ∧ exec (.railUpPhaseEnd mv) s = .next (settle (railSee s mv)) ∧
      exec .panelFrame s = .next (settle s) ∧ exec (.railDownPhaseEnd mv) s = .next (settle (railSee s mv)) ∧
      ∀ c, exec (.railUpTimeout c mv) s = .next (settle (railSee s mv)) ∧ exec (.railLost c mv) s = .next (settle (railSee s mv)) := by
  rw [exec_waveformReadDone hup, exec_railUpPhaseEnd hup, exec_panelFrame hup, exec_railDownPhaseEnd hup hcourse, waveReadOp_idle h, railUpOp_idle h,
    panelFrameOp_idle h, railDownOp_idle h]
  refine ⟨rfl, rfl, rfl, rfl, fun c => ?_⟩
  rw [exec_railUpTimeout hup, exec_railLost hup, railUpTimeoutOp_idle h, railLostOp_idle h]
  exact ⟨rfl, rfl⟩

/-- No DOZE while a run is under way. -/
theorem Settled.awake_of_run (hs : Settled s) (hrun : s.core.epd.run = some u) : s.core.pwr.doze = false := by
  have hwork : workPresent s = true := by
    unfold workPresent
    rw [hrun]
    exact Bool.or_true _
  cases hdoze : s.core.pwr.doze with
  | false => rfl
  | true => exact absurd (hwork.symm.trans (hs.2.2.1 hdoze)) Bool.noConfusion

theorem irq_railUpOp : (railUpOp s mv).core.irq = s.core.irq := by
  have hbegin (x : State) : (framesBegin x).core.irq = x.core.irq := by
    unfold framesBegin keyPadsChange
    dsimp only
    split <;> rfl
  unfold railUpOp
  dsimp only
  split
  · split
    · split
      · rfl
      · rfl
      · rfl
      · split
        · exact hbegin _
        · rfl
      · rfl
    · rfl
  · rfl

theorem keeps_railUp (hs : Settled s) (hrun : s.core.epd.run = some u) : Keeps [.epd, .key, .irqRound] s (settle (railUpOp s mv)) := by
  have hgoes : Goes [.epd, .key] s (railUpOp s mv) := (Goes.refl _ s).railUpOp (by decide) (by decide)
  have hdoze : (railUpOp s mv).core.pwr.doze = false := (hgoes.same .doze (by decide)).trans (hs.awake_of_run hrun)
  have hirq := irq_railUpOp (s := s) (mv := mv)
  generalize railUpOp s mv = y at hgoes hdoze hirq
  have hquiet : Quiet y := hgoes.quiet hs.quiet (by decide) (hgoes.used_same (by decide) (by decide) _)
    (hgoes.used_same (by decide) (by decide) _) ((hgoes.devrst_same (by decide)).trans hs.quiet.devrst)
  have hnew : (nth y.core.irq 3 {}).pend &&& ~~~(nth y.core.irq 3 {}).lastPend = 0 := by
    rw [hirq]
    exact hs.noNewPend
  exact (hgoes.keeps.trans (hquiet.keeps_settle_doze hnew fun h => absurd (hdoze.symm.trans h) Bool.noConfusion)).mono (by decide)

end Exec

end Sys2Proof.Machine
end

section
/-! PROOFS. Chapters 09 and 10: the end of a panel run and what it does to the pixels (09 R271-R273, 10 R278, R290, R293); O47. -/

set_option Elab.async false

namespace Sys2Proof.Machine

variable {s x t : State} {u : UpdSt} {mv : List Int} {i j w : Nat}

section Words

/-- A field of a number made of fields that do not meet. -/
theorem mkN_field {fs : Fields} {lo n v : Nat} (hmem : (lo, n, v) ∈ fs)
    (hdisjoint : ∀ f ∈ fs, f = (lo, n, v) ∨ f.1 + f.2.1 ≤ lo ∨ lo + n ≤ f.1) : mkN fs / 2 ^ lo % 2 ^ n = v % 2 ^ n := by
  refine Nat.eq_of_testBit_eq fun i => ?_
  rw [Nat.testBit_mod_two_pow, Nat.testBit_mod_two_pow, Nat.testBit_div_two_pow, testBit_mkN]
  rcases Nat.lt_or_ge i n with hi | hi
  · simp only [hi, decide_true, Bool.true_and]
    rw [Bool.eq_iff_iff, List.any_eq_true]
    constructor
    · rintro ⟨f, hf, hbit⟩
      simp only [Bool.and_eq_true, decide_eq_true_eq] at hbit
      rcases hdisjoint f hf with rfl | h | h
      · rw [← hbit.2.2]
        congr 1
        omega
      · omega
      · omega
    · intro hbit
      exact ⟨_, hmem, by simp [hi, hbit]⟩
  · simp [Nat.not_lt.mpr hi]

variable {cur tgt tally : Nat} {blink dirty : Bool}

theorem mkPix_lt : mkPix cur tgt tally blink dirty < 65536 :=
  mkN_lt (n := 16) (by simp)

theorem pixCur_mkPix : pixCur (mkPix cur tgt tally blink dirty) = cur % 16 := by
  have h : mkPix cur tgt tally blink dirty / 2 ^ 0 % 2 ^ 4 = cur % 2 ^ 4 := mkN_field (by simp) (by simp)
  rwa [Nat.pow_zero, Nat.div_one] at h

theorem pixTgt_mkPix : pixTgt (mkPix cur tgt tally blink dirty) = tgt % 16 :=
  mkN_field (lo := 4) (n := 4) (by simp) (by simp)

theorem pixTally_mkPix : pixTally (mkPix cur tgt tally blink dirty) = tally % 64 :=
  mkN_field (lo := 8) (n := 6) (by simp) (by simp)

theorem pixBlink_mkPix : pixBlink (mkPix cur tgt tally blink dirty) = blink := by
  rw [pixBlink, mkPix, testBit_mkN]
  cases blink <;> simp [b2n]

theorem pixDirty_mkPix : pixDirty (mkPix cur tgt tally blink dirty) = dirty := by
  rw [pixDirty, mkPix, testBit_mkN]
  cases dirty <;> simp [b2n]

/-- A lost pixel is UNKNOWN; its other fields are kept (10 Edges). -/
theorem pixLost_fields (w : Nat) : pixUnknown (pixLost w) = true ∧ pixCur (pixLost w) = pixCur w ∧ pixTgt (pixLost w) = pixTgt w ∧
    pixBlink (pixLost w) = pixBlink w ∧ pixDirty (pixLost w) = pixDirty w := by
  refine ⟨?_, ?_, ?_, pixBlink_mkPix, pixDirty_mkPix⟩
  · rw [pixUnknown, pixLost, pixTally_mkPix]
    rfl
  · exact pixCur_mkPix.trans (Nat.mod_mod _ _)
  · exact pixTgt_mkPix.trans (Nat.mod_mod _ _)

theorem leNat_leBytes_two (hw : w < 65536) : leNat (leBytes 2 w) = w := by
  show (BitVec.ofNat 8 w).toNat + 256 * ((BitVec.ofNat 8 (w / 256)).toNat + 256 * 0) = w
  simp only [BitVec.toNat_ofNat]
  omega

end Words

section Pixels

theorem bufByte_setPix_other {a : Nat} (h : a ≠ pixAddr i ∧ a ≠ pixAddr i + 1) : bufByte (setPix s i w) a = bufByte s a := by
  refine sget_ssetRun_out _ _ _ _ _ ?_
  have hlen : (leBytes 2 w).length = 2 := rfl
  rw [hlen]
  omega

theorem pixWord_congr (h : bufByte t (pixAddr i) = bufByte s (pixAddr i)) (h' : bufByte t (pixAddr i + 1) = bufByte s (pixAddr i + 1)) :
    pixWord t i = pixWord s i := by
  show leNat [bufByte t (pixAddr i), bufByte t (pixAddr i + 1)] = leNat [bufByte s (pixAddr i), bufByte s (pixAddr i + 1)]
  rw [h, h']

theorem pixWord_setPix_same (hwf : swf bufReset s.core.buf.mem = true) (hw : w < 65536) : pixWord (setPix s i w) i = w :=
  (congrArg leNat (sgetRun_ssetRun (pixAddr i) (leBytes 2 w) hwf)).trans (leNat_leBytes_two hw)

theorem pixWord_setPix_other (h : j ≠ i) : pixWord (setPix s i w) j = pixWord s j :=
  pixWord_congr (bufByte_setPix_other (by unfold pixAddr; omega)) (bufByte_setPix_other (by unfold pixAddr; omega))

theorem swf_setPix (hwf : swf bufReset s.core.buf.mem = true) : swf bufReset (setPix s i w).core.buf.mem = true :=
  swf_ssetRun _ _ _ _ hwf

/-- The word that the end of a run gives a pixel (09 R273, 10 R290, R293). -/
def pixelAfter (u : UpdSt) (p : PixRun) (w : Nat) : Nat :=
  if u.outcome = 3 then pixLost w
  else if u.outcome = 1 then mkPix p.dest (pixTgt w) (if p.ecc then 32 else unsgn 6 p.tally) (pixBlink w) (pixDirty w && u.toggle)
  else w

/-- One pixel at the end of a run. -/
def pixelEnds (u : UpdSt) (s : State) (p : PixRun) : State :=
  if u.outcome = 3 ∨ u.outcome = 1 then setPix s p.idx (pixelAfter u p (pixWord s p.idx)) else s

theorem epdPixEnd_eq : epdPixEnd s u = u.pix.foldl (pixelEnds u) s := by
  unfold epdPixEnd
  congr 1
  funext s p
  unfold pixelEnds pixelAfter
  by_cases h3 : u.outcome = 3
  · simp [h3]
  · by_cases h1 : u.outcome = 1 <;> simp [h1, h3]

theorem pixelAfter_lt (p : PixRun) (w : Nat) (h : u.outcome = 3 ∨ u.outcome = 1) : pixelAfter u p w < 65536 := by
  unfold pixelAfter
  rcases h with h | h
  · rw [if_pos h]
    exact mkPix_lt
  · rw [if_neg (by omega), if_pos h]
    exact mkPix_lt

theorem pixelEnds_same (hwf : swf bufReset s.core.buf.mem = true) (p : PixRun) :
    pixWord (pixelEnds u s p) p.idx = pixelAfter u p (pixWord s p.idx) := by
  unfold pixelEnds
  split
  next h => exact pixWord_setPix_same hwf (pixelAfter_lt _ _ h)
  next h =>
    rw [pixelAfter, if_neg fun h3 => h (.inl h3), if_neg fun h1 => h (.inr h1)]

theorem pixelEnds_other (p : PixRun) (h : j ≠ p.idx) : pixWord (pixelEnds u s p) j = pixWord s j := by
  unfold pixelEnds
  split
  · exact pixWord_setPix_other h
  · rfl

theorem swf_pixelEnds (hwf : swf bufReset s.core.buf.mem = true) (p : PixRun) : swf bufReset (pixelEnds u s p).core.buf.mem = true := by
  unfold pixelEnds
  split
  · exact swf_setPix hwf
  · exact hwf

theorem bufByte_pixelEnds {a : Nat} (p : PixRun) (h : a ≠ pixAddr p.idx ∧ a ≠ pixAddr p.idx + 1) : bufByte (pixelEnds u s p) a = bufByte s a := by
  unfold pixelEnds
  split
  · exact bufByte_setPix_other h
  · rfl

/-- Pixels that do not end in the list keep their words. -/
theorem pixelsEnd_other {l : List PixRun} (h : j ∉ l.map PixRun.idx) : pixWord (l.foldl (pixelEnds u) s) j = pixWord s j := by
  induction l generalizing s with
  | nil => rfl
  | cons p l ih =>
    rw [List.map_cons, List.mem_cons, not_or] at h
    exact (ih h.2).trans (pixelEnds_other p h.1)

/-- Each pixel of the list ends once, with the word that it had. -/
theorem pixelsEnd_each {l : List PixRun} (hnodup : (l.map PixRun.idx).Nodup) (hwf : swf bufReset s.core.buf.mem = true) :
    ∀ p ∈ l, pixWord (l.foldl (pixelEnds u) s) p.idx = pixelAfter u p (pixWord s p.idx) := by
  induction l generalizing s with
  | nil => exact nofun
  | cons p l ih =>
    rw [List.map_cons, List.nodup_cons] at hnodup
    intro q hq
    rcases List.mem_cons.mp hq with rfl | hq
    · exact (pixelsEnd_other hnodup.1).trans (pixelEnds_same hwf q)
    · rw [List.foldl_cons, ih hnodup.2 (swf_pixelEnds hwf p) q hq, pixelEnds_other]
      exact fun h => hnodup.1 (h ▸ List.mem_map_of_mem hq)

theorem pixelsEnd_bytes {l : List PixRun} {a : Nat} (h : ∀ p ∈ l, a ≠ pixAddr p.idx ∧ a ≠ pixAddr p.idx + 1) :
    bufByte (l.foldl (pixelEnds u) s) a = bufByte s a := by
  induction l generalizing s with
  | nil => rfl
  | cons p l ih => exact (ih fun q hq => h q (List.mem_cons_of_mem _ hq)).trans (bufByte_pixelEnds p (h p List.mem_cons_self))

end Pixels

section Ends

/-- What the end of a run leaves of the panel, the pixels and the interrupts, but for its own record. -/
theorem epdEnd_eq (hbad : s.core.buf.bad = []) : ∃ n, epdEnd s u =
    epdRecord (whenS (u.outcome == 1) (u.pix.foldl (pixelEnds u) (withCorrected s n)) (pixelsDone u)) u := by
  obtain ⟨n, hn⟩ := pixSecded_corrected hbad (u.pix.map fun p => p.idx)
  refine ⟨n, ?_⟩
  unfold epdEnd
  rw [hn, epdPixEnd_eq]
  rfl

theorem goes_pixelsEnd (s : State) (u : UpdSt) (l : List PixRun) : Goes [.buf] s (l.foldl (pixelEnds u) s) :=
  (Goes.refl _ s).foldl fun _ _ h => .cond (h.setPix (by decide)) h

/-- A run has ended: its record, its pixels and its counts. -/
structure RunEnded (s t : State) (u : UpdSt) : Prop where
  epd : t.core.epd = { s.core.epd with
    run := none
    recs := if u.toggle then s.core.epd.recs else upd s.core.epd.recs u.subject (fun _ => updRecord s u)
    lastRec := updRecord s u
    railFaults := if u.outcome = 2 ∨ u.outcome = 3 then sat 255 (s.core.epd.railFaults + 1) else s.core.epd.railFaults
    tempRefused := if u.outcome = 4 then sat 255 (s.core.epd.tempRefused + 1) else s.core.epd.tempRefused
    clamped := if u.clamped then sat 255 (s.core.epd.clamped + 1) else s.core.epd.clamped
    fallback := if u.fallback then sat 255 (s.core.epd.fallback + 1) else s.core.epd.fallback }
  done : u.toggle = false → s.core.irq.length = 4 → bit (nth t.core.irq (ownerN s (.panel u.subject)) {}).pend 27 = true
  fault : u.outcome = 2 ∨ u.outcome = 3 → ∀ q ∈ t.core.irq, bit q.pend 28 = true
  quiet : u.toggle = true → ∀ q, bit (nth t.core.irq q {}).pend 27 = bit (nth s.core.irq q {}).pend 27
  length : t.core.irq.length = s.core.irq.length
  trig : t.core.capo.trig = s.core.capo.trig
  blinks : t.core.pix.blinks = if u.outcome = 1 ∧ u.toggle = true then upd s.core.pix.blinks u.subject fun b =>
    { b with toggles := b.toggles + 1, showingAlt := u.towardAlt } else s.core.pix.blinks
  pixels : (u.pix.map PixRun.idx).Nodup → swf bufReset s.core.buf.mem = true → ∀ p ∈ u.pix, pixWord t p.idx = pixelAfter u p (pixWord s p.idx)
  bytes : ∀ a, (∀ p ∈ u.pix, a ≠ pixAddr p.idx ∧ a ≠ pixAddr p.idx + 1) → bufByte t a = bufByte s a

/-- A rail fault raises EPD_FAULT in every partition. -/
theorem epdRecord_fault (h : u.outcome = 2 ∨ u.outcome = 3) : ∀ q ∈ (epdRecord s u).core.irq, bit q.pend 28 = true := by
  unfold epdRecord
  extract_lets rec4 s1 s2
  have hs2 : s2 = raiseAll s1 28 := if_pos (by simpa using h)
  have hall : ∀ q ∈ s2.core.irq, bit q.pend 28 = true := by
    rw [hs2]
    exact pend_raiseAll_all (by decide)
  have hgoes : Goes [.irqPend] s2 (whenS (!u.toggle) s2 fun s => epdDone s u.subject) := (Goes.refl _ s2).whenS fun _ h => h.epdDone (by decide)
  exact hgoes.pend_all (by decide) hall

/-- The end of a toggle raises no EPD_DONE. -/
theorem epdRecord_quiet (h : u.toggle = true) (q : Nat) : bit (nth (epdRecord s u).core.irq q {}).pend 27 = bit (nth s.core.irq q {}).pend 27 := by
  unfold epdRecord
  extract_lets rec4 s1 s2
  have hlast : whenS (!u.toggle) s2 (fun s => epdDone s u.subject) = s2 := by
    rw [h]
    rfl
  rw [hlast]
  show bit (nth (whenS (u.outcome == 2 || u.outcome == 3) s1 fun s => raiseAll s 28).core.irq q {}).pend 27 = _
  unfold whenS
  split
  · have hirq : (raiseAll s1 28).core.irq = s.core.irq.map fun q => q.set 28 := rfl
    rw [hirq]
    rcases Nat.lt_or_ge q s.core.irq.length with hq | hq
    · rw [nth_map _ _ hq {}]
      exact bit_setBit_ne (w := 64) _ 28 27 true (by decide)
    · rw [nth_of_le hq, nth_of_le (by rw [List.length_map]; exact hq)]
  · rfl

theorem runEnded (hbad : s.core.buf.bad = []) : RunEnded s (epdEnd s u) u := by
  obtain ⟨n, hn⟩ := epdEnd_eq (u := u) hbad
  rw [hn]
  have hread : Goes [.buf] s (withCorrected s n) := (Goes.refl _ s).core_buf (f := fun c => { c.buf with corrected := n }) (by decide)
  have hends : Goes [.buf] s (u.pix.foldl (pixelEnds u) (withCorrected s n)) := hread.trans (goes_pixelsEnd _ u u.pix)
  have hpixels : (u.pix.map PixRun.idx).Nodup → swf bufReset s.core.buf.mem = true →
      ∀ p ∈ u.pix, pixWord (u.pix.foldl (pixelEnds u) (withCorrected s n)) p.idx = pixelAfter u p (pixWord s p.idx) := fun hnodup hwf =>
    pixelsEnd_each (s := withCorrected s n) hnodup hwf
  have hbytes : ∀ a, (∀ p ∈ u.pix, a ≠ pixAddr p.idx ∧ a ≠ pixAddr p.idx + 1) →
      bufByte (u.pix.foldl (pixelEnds u) (withCorrected s n)) a = bufByte s a := fun a ha => pixelsEnd_bytes (s := withCorrected s n) ha
  generalize u.pix.foldl (pixelEnds u) (withCorrected s n) = x at hends hpixels hbytes
  have hy : Goes [.buf, .pix] s (whenS (u.outcome == 1) x (pixelsDone u)) := (hends.mono (by decide)).whenS fun _ h => h.modP (by decide) (by
    dsimp only
    split
    · exact length_upd ..
    · rfl)
  have hbuf : (whenS (u.outcome == 1) x (pixelsDone u)).core.buf = x.core.buf := by
    unfold whenS
    split <;> rfl
  have hblinks : (whenS (u.outcome == 1) x (pixelsDone u)).core.pix.blinks = if u.outcome = 1 ∧ u.toggle = true then upd s.core.pix.blinks u.subject fun b =>
      { b with toggles := b.toggles + 1, showingAlt := u.towardAlt } else s.core.pix.blinks := by
    have hx : x.core.pix = s.core.pix := hends.same .pix (by decide)
    by_cases h1 : u.outcome = 1
    · have hdone : whenS (u.outcome == 1) x (pixelsDone u) = pixelsDone u x := if_pos (beq_iff_eq.mpr h1)
      rw [hdone, ← hx]
      simp only [h1, true_and]
      rfl
    · have hdone : whenS (u.outcome == 1) x (pixelsDone u) = x := if_neg (mt beq_iff_eq.mp h1)
      rw [hdone, hx, if_neg fun h => h1 h.1]
  generalize whenS (u.outcome == 1) x (pixelsDone u) = y at hy hbuf hblinks
  have hrec : Goes [.irqPend, .epd] y (epdRecord y u) := goes_epdRecord
  have hepd : y.core.epd = s.core.epd := hy.same .epd (by decide)
  have hlen : y.core.irq.length = s.core.irq.length := hy.irq_length (by decide)
  have hpend (q : Nat) : (nth y.core.irq q {}).pend = (nth s.core.irq q {}).pend := by
    rw [proj_nth_eq_nth_map IrqSt.pend, proj_nth_eq_nth_map IrqSt.pend, show y.core.irq.map IrqSt.pend = s.core.irq.map IrqSt.pend from
      hy.same .irqPend (by decide)]
  have hword : updRecord y u = updRecord s u := by
    have hpwr : { y.core.pwr with doze := s.core.pwr.doze, devrst := s.core.pwr.devrst } = s.core.pwr := hy.same .pwr (by decide)
    have hreduced : reduced y = reduced s := (congrArg PwrSt.rc48 hpwr :)
    have hnow : now y = now s := congrArg (fun a => now { s with aon := a }) (hy.same .aon (by decide))
    unfold updRecord
    rw [hnow, hreduced]
  have hkeep : (epdRecord y u).core.buf = x.core.buf := (hrec.same .buf (by decide)).trans hbuf
  constructor
  case epd => rw [epd_epdRecord, hepd, hword]
  case done =>
    intro htoggle hfour
    rw [← ownerN_congr (hy.used_same (by decide) (by decide))]
    exact epdRecord_done (hlen.trans hfour) htoggle
  case fault => exact epdRecord_fault
  case quiet => exact fun htoggle q => (epdRecord_quiet htoggle q).trans (by rw [hpend])
  case length => exact (hrec.irq_length (by decide)).trans hlen
  case trig => exact (congrArg CapoSt.trig (hrec.same .capo (by decide))).trans (congrArg CapoSt.trig (hy.same .capo (by decide)))
  case blinks => exact (congrArg PixSt.blinks (hrec.same .pix (by decide))).trans hblinks
  case pixels =>
    intro hnodup hwf p hp
    rw [← hpixels hnodup hwf p hp]
    exact congrArg (fun b : BufSt => leNat (sgetRun bufReset b.mem (pixAddr p.idx) 2)) hkeep
  case bytes =>
    intro a ha
    rw [← hbytes a ha]
    exact congrArg (fun b : BufSt => sget bufReset b.mem a) hkeep

end Ends

section Clauses

theorem run_epdEnd : (epdEnd s u).core.epd.run = none := by
  unfold epdEnd
  dsimp only
  rw [epd_epdRecord]

/-- A phase of the way down ends: the next one, remembering a level not reached. -/
theorem railDown_next {ph : EpdPhase} {reached : Prop} (hrun : s.core.epd.run = some u) (h : downNext u = some ph)
    (hreached : railDownReached u.phase mv = true ↔ reached) : ∃ x, (railDownOp s mv).core.epd = { s.core.epd with
      railMv := mv, run := some { u with phase := ph, downSlow := x } } ∧ (x = true ↔ u.downSlow = true ∨ ¬reached) := by
  refine ⟨_, epd_railDownOp hrun h, ?_⟩
  show (u.downSlow || !railDownReached u.phase mv) = true ↔ _
  rw [Bool.or_eq_true, ← hreached, Bool.not_eq_true', Bool.not_eq_true]

theorem downSeen_last (h : u.phase = .down4) :
    downSeen u mv = { u with downSlow := u.downSlow || !decide (nth mv 0 0 < 1000 ∧ -1000 < nth mv 1 0) } := by
  rw [downSeen, h]
  rfl

/-- The last phase of the way down ends the run, under the record of what the rails have told. -/
theorem runEnded_railDown (hrun : s.core.epd.run = some u) (h : u.phase = .down4) (hbad : s.core.buf.bad = []) :
    RunEnded (railSee s mv) (railDownOp s mv) (downSeen u mv) := by
  rw [railDownOp_last hrun h]
  exact runEnded hbad

theorem updRecord_railSee (v : UpdSt) : updRecord (railSee s mv) v = updRecord s v := rfl

theorem pixelAfter_completed (p : PixRun) (w : Nat) (h : u.outcome = 1) :
    pixelAfter u p w = mkPix p.dest (pixTgt w) (if p.ecc then 32 else unsgn 6 p.tally) (pixBlink w) (pixDirty w && u.toggle) := by
  rw [pixelAfter, if_neg (by omega), if_pos h]

theorem pixelAfter_failed (p : PixRun) (w : Nat) (h : u.outcome = 2) : pixelAfter u p w = w := by
  rw [pixelAfter, if_neg (by omega), if_neg (by omega)]

theorem pixelAfter_lost (p : PixRun) (w : Nat) (h : u.outcome = 3) : pixelAfter u p w = pixLost w := if_pos h

end Clauses

/-- Settles O47: each phase of a run in turn, and what the end of an update and of a toggle leaves. -/
theorem panelRunAndItsEnd : Obligations.PanelRunAndItsEnd := by
  unfold Obligations.PanelRunAndItsEnd
  refine ⟨bit_railGood, ?_, ?_, ?_⟩
  · intro s mv hup hcourse hs seen s1
    refine ⟨fun h => railEvents_idle hup hcourse h, fun u hrun => ?_⟩
    intro good after
    refine ⟨⟨_, exec_railUpPhaseEnd hup, ?_, ?_, ?_, ?_, ?_, keeps_railUp hs hrun⟩, ⟨_, exec_waveformReadDone hup, ?_, ?_⟩, fun c => ?_, ?_, fun c => ?_, ?_⟩
    · rintro (hbad | hph)
      · exact congrArg settle (railUpOp_notGood hrun hbad)
      · refine congrArg settle (railUpOp_notUp hrun ?_)
        unfold upEnded
        cases h : u.phase <;> simp [h] at hph ⊢
    · exact fun hgood h => epd_railUpOp hrun hgood (by simp [upEnded, h])
    · exact fun hgood h => epd_railUpOp hrun hgood (by simp [upEnded, h])
    · exact fun hgood h => epd_railUpOp hrun hgood (by simp [upEnded, h])
    · exact fun hgood h => epd_railUpOp hrun hgood (by simp [upEnded, h, after, afterUp])
    · exact fun hread => congrArg settle (waveReadOp_read hrun hread)
    · exact fun hread => epd_waveReadOp hrun hread
    · refine ⟨_, exec_railUpTimeout hup, ?_⟩
      intro lost
      refine ⟨?_, ?_, ?_, ?_, ?_⟩
      · rintro (hgood | ⟨hph, hdone⟩ | hph)
        · exact congrArg settle (railUpTimeoutOp_good hrun hgood)
        · exact congrArg settle (railUpTimeoutOp_notUp hrun (by simp [upFailed, hph, hdone]))
        · refine congrArg settle (railUpTimeoutOp_notUp hrun ?_)
          unfold upFailed
          cases h : u.phase <;> simp [h] at hph ⊢
      · exact fun hbad h => epd_railUpTimeoutOp hrun (by simp [upFailed, h]) hbad
      · exact fun hbad h => epd_railUpTimeoutOp hrun (by simp [upFailed, h]) hbad
      · exact fun hbad h => epd_railUpTimeoutOp hrun (by simp [upFailed, h]) hbad
      · exact fun hbad h hdone => epd_railUpTimeoutOp hrun (by simp [upFailed, h, hdone]) hbad
    · refine ⟨_, exec_panelFrame hup, fun h => congrArg settle (panelFrameOp_other hrun h), fun h => ?_⟩
      rw [settle_core_epd, epd_panelFrameOp hrun h]
      refine ⟨rfl, rfl, fun x hx => ?_⟩
      obtain rfl := Option.some.inj hx
      exact ⟨rfl, rfl, rfl, rfl⟩
    · exact ⟨_, exec_railLost hup, fun h => congrArg settle (railLostOp_missed hrun h), fun h => epd_railLostOp hrun h⟩
    · refine ⟨_, exec_railDownPhaseEnd hup hcourse, ?_, ?_, ?_, fun h => ?_⟩
      · exact fun h => railDown_next hrun (by simp [downNext, h]) (by rw [h]; exact decide_eq_true_iff)
      · exact fun h => railDown_next hrun (by simp [downNext, h]) (by rw [h]; exact decide_eq_true_iff)
      · exact fun h => railDown_next hrun (by simp [downNext, h]) (by rw [h]; exact decide_eq_true_iff)
      · have hnone : (settle (railDownOp s mv)).core.epd.run = none := by
          rw [settle_core_epd, railDownOp_last hrun h, run_epdEnd]
        refine ⟨hnone, ?_⟩
        unfold railGood
        rw [hnone]
  · intro s mv hup hcourse u hrun hph htoggle hsubject hirq hrecs hwf hbad hnodup _ slow
    have hend := runEnded_railDown (mv := mv) hrun hph hbad
    refine ⟨_, exec_railDownPhaseEnd hup hcourse, ?_⟩
    rw [settle_core_epd, hend.epd, updRecord_railSee, downSeen_last hph]
    generalize railDownOp s mv = y at hend
    have hword : ∀ p ∈ u.pix, pixWord (settle y) p.idx = pixelAfter (downSeen u mv) p (pixWord s p.idx) := hend.pixels hnodup hwf
    refine ⟨rfl, rfl, ?_, pendRises_settle _ _ _ (hend.done htoggle hirq), fun hfault => ⟨fun q => ?_, if_pos hfault⟩, fun p hp => ⟨?_, ?_, ?_⟩,
      hend.bytes⟩
    · rw [htoggle]
      exact nth_upd_same s.core.epd.recs u.subject _ _ (by rw [hrecs]; exact hsubject)
    · exact pendRises_settle _ _ _ (hend.fault hfault _ (nth_mem (by rw [hend.length]; exact hirq.symm ▸ q.isLt)))
    · intro hout
      rw [hword p hp, pixelAfter_completed (u := downSeen u mv) p _ hout, show (downSeen u mv).toggle = false from htoggle, Bool.and_false]
    · intro hout
      rw [hword p hp, pixelAfter_lost (u := downSeen u mv) p _ hout]
      exact pixLost_fields _
    · intro hout
      rw [hword p hp, pixelAfter_failed (u := downSeen u mv) p _ hout]
  · intro s mv hup hcourse hs u hrun hph htoggle hsubject hirq hlen hwf hbad hnodup _ slow b
    have hend := runEnded_railDown (mv := mv) hrun hph hbad
    refine ⟨_, exec_railDownPhaseEnd hup hcourse, ?_⟩
    rw [settle_core_epd, hend.epd, updRecord_railSee, downSeen_last hph]
    generalize railDownOp s mv = y at hend
    have hword : ∀ p ∈ u.pix, pixWord (settle y) p.idx = pixelAfter (downSeen u mv) p (pixWord s p.idx) := hend.pixels hnodup hwf
    refine ⟨rfl, if_pos htoggle, rfl, fun q => ?_, ?_, fun p hp => ⟨?_, ?_, ?_⟩⟩
    · rw [(pend_settle y q.val).resolve_right fun h => h.1 (hend.trig.trans hs.quiet.trig)]
      exact hend.quiet htoggle q.val
    · rw [settle_core_pix, hend.blinks]
      by_cases hout : u.outcome = 1
      · rw [if_pos ⟨hout, htoggle⟩, if_pos hout]
        exact nth_upd_same s.core.pix.blinks u.subject _ _ (by rw [hlen]; exact hsubject)
      · rw [if_neg fun h => hout h.1, if_neg hout]
        rfl
    · intro hout
      rw [hword p hp, pixelAfter_completed (u := downSeen u mv) p _ hout, show (downSeen u mv).toggle = true from htoggle, Bool.and_true]
    · intro hout
      rw [hword p hp, pixelAfter_lost (u := downSeen u mv) p _ hout]
      exact ⟨(pixLost_fields _).1, (pixLost_fields _).2.1⟩
    · intro hout
      rw [hword p hp, pixelAfter_failed (u := downSeen u mv) p _ hout]

end Sys2Proof.Machine
end

section
/-! PROOFS. Chapters 12 and 13: NAND channels without work in flight (12 R335-R344, 13 R382-R391). -/

set_option Elab.async false

namespace Sys2Proof.Machine

variable {s t x y : State} {c l n : Nat}

section Idle

/-- No NAND operation is in flight, and no LUN runs, holds or contends for one. -/
structure NfcIdle (s : State) : Prop where
  flight : s.core.nfc.flight = []
  ended : s.core.nfc.ended = []
  cur : ∀ l, (lunOf s l).cur = none
  nxt : ∀ l, (lunOf s l).nxt = none
  contend : ∀ l, (lunOf s l).contend = 0

theorem NfcIdle.of_all (hflight : s.core.nfc.flight = []) (hended : s.core.nfc.ended = [])
    (hluns : s.core.nfc.luns.all (fun x => x.cur.isNone && x.nxt.isNone && x.contend == 0) = true) : NfcIdle s := by
  have hlun (l : Nat) : (lunOf s l).cur = none ∧ (lunOf s l).nxt = none ∧ (lunOf s l).contend = 0 := by
    rcases Nat.lt_or_ge l s.core.nfc.luns.length with hl | hl
    · have hall := List.all_eq_true.mp hluns _ (nth_mem hl (d := {}))
      simp only [Bool.and_eq_true, Option.isNone_iff_eq_none, beq_iff_eq] at hall
      exact ⟨hall.1.1, hall.1.2, hall.2⟩
    · rw [show lunOf s l = {} from nth_of_le hl _]
      exact ⟨rfl, rfl, rfl⟩
  exact ⟨hflight, hended, fun l => (hlun l).1, fun l => (hlun l).2.1, fun l => (hlun l).2.2⟩

/-- A change that leaves the flights and what the LUNs run leaves the channels idle. -/
theorem NfcIdle.of_same (h : NfcIdle s) (hflight : t.core.nfc.flight = s.core.nfc.flight) (hended : t.core.nfc.ended = s.core.nfc.ended)
    (hlun : ∀ l, (lunOf t l).cur = none ∧ (lunOf t l).nxt = none ∧ (lunOf t l).contend = 0) : NfcIdle t :=
  ⟨hflight.trans h.flight, hended.trans h.ended, fun l => (hlun l).1, fun l => (hlun l).2.1, fun l => (hlun l).2.2⟩

theorem contendSet_idle (h : s.core.nfc.flight = []) (l : Nat) : contendSet s l = 0 := by
  have hnone : dispatchable s l = fun _ => false := by
    funext p
    unfold dispatchable oldestEntry
    rw [h]
    rfl
  rw [contendSet, hnone]
  rfl

theorem contendUpdate_idle (h : NfcIdle s) (l : Nat) : contendUpdate s l = s := by
  unfold contendUpdate
  rw [contendSet_idle h.flight, h.contend]
  rfl

theorem chooseRun_idle (h : NfcIdle s) (l : Nat) : chooseRun s l = (none, s) := by
  have hchoice : chooseLun s l = (none, s) := by
    unfold chooseLun
    dsimp only
    rw [contendUpdate_idle h, contendSet_idle h.flight]
    rfl
  unfold chooseRun
  rw [hchoice]

theorem foldl_eq_self {α : Type} {f : State → α → State} (h : ∀ a, f s a = s) (l : List α) : l.foldl f s = s := by
  induction l with
  | nil => rfl
  | cons a l ih => rw [List.foldl_cons, h, ih]

theorem admitAll_idle (h : NfcIdle s) : admitAll s = s := by
  unfold admitAll
  rw [h.flight]
  rfl

theorem dispatchAll_idle (h : NfcIdle s) : dispatchAll s = s := by
  refine foldl_eq_self (fun l => ?_) _
  split
  · rw [chooseRun_idle h]
  · exact contendUpdate_idle h l

theorem grantBus_idle (h : NfcIdle s) (c : Nat) : grantBus s c = s := by
  have hwants (l : Nat) : wantsBus (lunOf s l) = false := by
    unfold wantsBus
    rw [h.cur, h.nxt]
    rfl
  have hnone : (((upto 4).map fun i => ((chanOf s c).served + 1 + i) % 4).find? fun k => wantsBus (lunOf s (4 * c + k))) = none :=
    List.find?_eq_none.mpr fun k _ => by
      rw [hwants]
      exact Bool.false_ne_true
  unfold grantBus
  dsimp only
  rw [hnone]
  exact ite_self _

/-- Without work in flight NFC has nothing to do. -/
theorem nfcService_idle (h : NfcIdle s) : nfcService s = s := by
  unfold nfcService
  dsimp only
  rw [admitAll_idle h, dispatchAll_idle h, admitAll_idle h, foldl_eq_self (contendUpdate_idle h), foldl_eq_self (grantBus_idle h)]

theorem modN_eq_self {f : NfcSt → NfcSt} (h : f s.core.nfc = s.core.nfc) : modN s f = s := by
  show ({ s with core := { s.core with nfc := f s.core.nfc } } : State) = s
  rw [h]

/-- Without flights there is nothing to mark and nothing to order. -/
theorem nfcSt_idle {v : NfcSt} {p : Nat → Bool} {g : Flight → Flight} (hflight : v.flight = []) (hended : v.ended = []) :
    ({ v with ended := v.ended.filter p ++ [], flight := v.flight.map g } : NfcSt) = v := by
  cases v
  subst hflight hended
  rfl

theorem postAll_idle (h : NfcIdle s) : postAll s = s := by
  have hnew : freshOrder s = [] := by
    unfold freshOrder
    rw [h.flight]
    rfl
  unfold postAll
  dsimp only
  rw [hnew, modN_eq_self (nfcSt_idle h.flight h.ended), h.ended]
  rfl

theorem nfcAfter_idle (h : NfcIdle s) (hcourse : courseDue s 5 = false) : nfcAfter s = s := by
  unfold nfcAfter
  dsimp only
  rw [nfcService_idle h, hcourse]
  exact postAll_idle h

end Idle

section Rules

variable {f : NfcChan → NfcChan} {g : NfcLun → NfcLun}

theorem chanOf_modChan (hc : c < s.core.nfc.chans.length) : chanOf (modChan s c f) c = f (chanOf s c) := nth_upd_same _ _ _ _ hc

theorem chanOf_modChan_other {d : Nat} (h : d ≠ c) : chanOf (modChan s c f) d = chanOf s d := nth_upd_ne _ _ _ _ _ h

theorem lunOf_modChan : lunOf (modChan s c f) l = lunOf s l := rfl

theorem chanOf_modLun : chanOf (modLun s l g) c = chanOf s c := rfl

theorem lunOf_modLun (hl : l < s.core.nfc.luns.length) : lunOf (modLun s l g) l = g (lunOf s l) := nth_upd_same _ _ _ _ hl

theorem lunOf_modLun_other {m : Nat} (h : m ≠ l) : lunOf (modLun s l g) m = lunOf s m := nth_upd_ne _ _ _ _ _ h

/-- Where a LUN is changed alone, each LUN is the old one or the changed one. -/
theorem lunOf_modLun_or (s : State) (l m : Nat) (g : NfcLun → NfcLun) :
    lunOf (modLun s l g) m = lunOf s m ∨ lunOf (modLun s l g) m = g (lunOf s m) := by
  rcases Decidable.em (m = l) with rfl | hne
  · rcases Nat.lt_or_ge m s.core.nfc.luns.length with hm | hm
    · exact .inr (lunOf_modLun hm)
    · refine .inl ?_
      rw [show lunOf (modLun s m g) m = {} from nth_of_le (by rw [show (modLun s m g).core.nfc.luns.length = s.core.nfc.luns.length from length_upd ..]; exact hm) _]
      exact (nth_of_le hm _).symm
  · exact .inl (lunOf_modLun_other hne)

theorem NfcIdle.modLun (h : NfcIdle s) (l : Nat) (hg : ∀ x : NfcLun, x.cur = none → x.nxt = none → x.contend = 0 →
    (g x).cur = none ∧ (g x).nxt = none ∧ (g x).contend = 0) : NfcIdle (modLun s l g) := by
  refine h.of_same rfl rfl fun m => ?_
  rcases lunOf_modLun_or s l m g with hm | hm
  · rw [hm]
    exact ⟨h.cur m, h.nxt m, h.contend m⟩
  · rw [hm]
    exact hg _ (h.cur m) (h.nxt m) (h.contend m)

/-- The records of the channels alone are others. -/
def ChansOnly (s t : State) : Prop := t = modN s fun v => { v with chans := t.core.nfc.chans }

theorem ChansOnly.refl (s : State) : ChansOnly s s := rfl

theorem ChansOnly.trans (h : ChansOnly s x) (h' : ChansOnly x y) : ChansOnly s y := by
  rw [ChansOnly, h', h]
  rfl

theorem ChansOnly.modChan (h : ChansOnly s x) : ChansOnly s (modChan x c f) := h.trans rfl

theorem ChansOnly.sendTo (h : ChansOnly s x) {e : Nat} {cy : List NandCycle} : ChansOnly s (sendTo x c e cy) := by
  unfold Machine.sendTo
  split
  · exact h
  · exact h.modChan

theorem ChansOnly.lunOf (h : ChansOnly s x) (l : Nat) : lunOf x l = lunOf s l := by
  rw [h]
  rfl

theorem ChansOnly.idle (h : ChansOnly s x) (hidle : NfcIdle s) : NfcIdle x := by
  refine hidle.of_same (by rw [h]; rfl) (by rw [h]; rfl) fun l => ?_
  rw [h.lunOf]
  exact ⟨hidle.cur l, hidle.nxt l, hidle.contend l⟩

/-- A channel is as it was, but for what it sent. -/
def SentOnly (a b : NfcChan) : Prop := ∃ sent sentAt, b = { a with sent := sent, sentAt := sentAt }

theorem SentOnly.refl (a : NfcChan) : SentOnly a a := ⟨a.sent, a.sentAt, rfl⟩

theorem SentOnly.trans {a b d : NfcChan} (h : SentOnly a b) (h' : SentOnly b d) : SentOnly a d := by
  obtain ⟨l, n, rfl⟩ := h
  obtain ⟨l', n', rfl⟩ := h'
  exact ⟨l', n', rfl⟩

theorem sendTo_chan {e : Nat} {cy : List NandCycle} (d : Nat) : SentOnly (chanOf s d) (chanOf (sendTo s c e cy) d) := by
  unfold sendTo
  split
  · exact .refl _
  · rcases Decidable.em (d = c) with rfl | hne
    · rcases Nat.lt_or_ge d s.core.nfc.chans.length with hd | hd
      · rw [chanOf_modChan hd]
        exact ⟨_, _, rfl⟩
      · have hgone : chanOf s d = {} := nth_of_le hd _
        have hgone' : chanOf (modChan s d fun x => { x with
            sent := (if x.sentAt = s.freeCtr then x.sent else []) ++ [(e, cy)], sentAt := s.freeCtr }) d = {} :=
          nth_of_le (by rw [modChan_core_nfc, length_upd]; exact hd) _
        rw [hgone, hgone']
        exact .refl _
    · rw [chanOf_modChan_other hne]
      exact .refl _

theorem sendTo_other {e d : Nat} {cy : List NandCycle} (h : d ≠ c) : chanOf (sendTo s c e cy) d = chanOf s d := by
  unfold sendTo
  split
  · rfl
  · exact chanOf_modChan_other h

theorem length_chans_sendTo {e : Nat} {cy : List NandCycle} : (sendTo s c e cy).core.nfc.chans.length = s.core.nfc.chans.length := by
  unfold sendTo
  split
  · rfl
  · exact length_upd ..

end Rules

section InitGo

variable {e : Nat}

theorem initGo_chansOnly (s : State) (c e : Nat) : ChansOnly s (initGo s c e) := by
  unfold initGo
  dsimp only
  split
  · exact (ChansOnly.refl s).sendTo.modChan
  · exact (ChansOnly.refl s).modChan

/-- The phase that initialisation goes on with after chip enable e. -/
def initNext (s : State) (c e : Nat) : InitPhase := if (nextCe s c e).isSome then .reset else .mode

/-- Initialisation goes on: the phase and the chip enable are others, and what was sent. -/
theorem initGo_chan (hc : c < s.core.nfc.chans.length) : ∃ ce sent sentAt, chanOf (initGo s c e) c =
    { chanOf s c with init := initNext s c e, ce := ce, sent := sent, sentAt := sentAt } := by
  unfold initGo initNext
  dsimp only
  cases hnext : nextCe s c e with
  | none =>
    simp only [hnext]
    rw [chanOf_modChan hc]
    exact ⟨_, _, _, rfl⟩
  | some k =>
    have hnext' : nextCe (sendTo s c k [.cmd 0xFF]) c e = some k := hnext
    simp only [hnext']
    obtain ⟨l, n, hsent⟩ := sendTo_chan (s := s) (c := c) (e := k) (cy := [.cmd 0xFF]) c
    rw [chanOf_modChan (length_chans_sendTo.symm ▸ hc), hsent]
    exact ⟨_, _, _, rfl⟩

theorem initGo_other {d : Nat} (h : d ≠ c) : chanOf (initGo s c e) d = chanOf s d := by
  unfold initGo
  dsimp only
  split
  · exact (chanOf_modChan_other h).trans (sendTo_other h)
  · exact chanOf_modChan_other h

end InitGo

section Fault

/-- The records of the channels and the LUNs alone are others. -/
def NandOnly (s t : State) : Prop := t = modN s fun v => { v with chans := t.core.nfc.chans, luns := t.core.nfc.luns }

theorem NandOnly.refl (s : State) : NandOnly s s := rfl

theorem NandOnly.trans (h : NandOnly s x) (h' : NandOnly x y) : NandOnly s y := by
  rw [NandOnly, h', h]
  rfl

theorem NandOnly.modChan (h : NandOnly s x) {f : NfcChan → NfcChan} : NandOnly s (modChan x c f) := h.trans rfl

theorem NandOnly.modLun (h : NandOnly s x) {g : NfcLun → NfcLun} : NandOnly s (modLun x l g) := h.trans rfl

theorem NandOnly.sendTo (h : NandOnly s x) {e : Nat} {cy : List NandCycle} : NandOnly s (sendTo x c e cy) := by
  unfold Machine.sendTo
  split
  · exact h
  · exact h.modChan

theorem NandOnly.initGo (h : NandOnly s x) {e : Nat} : NandOnly s (initGo x c e) := by
  unfold Machine.initGo
  dsimp only
  split
  · exact h.sendTo.modChan
  · exact h.modChan

theorem NandOnly.foldl {α : Type} {f : State → α → State} (h : NandOnly s x) (hf : ∀ y a, NandOnly y (f y a)) (as : List α) :
    NandOnly s (as.foldl f x) := by
  induction as generalizing x with
  | nil => exact h
  | cons a as ih => exact ih (h.trans (hf x a))

theorem NandOnly.used (h : NandOnly s x) (a : Nat) : used x a = used s a := by
  rw [h]
  rfl

theorem NandOnly.lunEn (h : NandOnly s x) (l : Nat) : lunEn x l = lunEn s l := by
  unfold Machine.lunEn
  rw [h.used]

theorem NandOnly.courseDue (h : NandOnly s x) (b : Nat) : courseDue x b = courseDue s b := by
  rw [h]
  rfl

theorem NandOnly.flight (h : NandOnly s x) : x.core.nfc.flight = s.core.nfc.flight := by
  rw [h]
  rfl

theorem NandOnly.ended (h : NandOnly s x) : x.core.nfc.ended = s.core.nfc.ended := by
  rw [h]
  rfl

theorem NandOnly.counts (h : NandOnly s x) : x.core.nfc.counts = s.core.nfc.counts := by
  rw [h]
  rfl

theorem slotsWhere_idle {p : Flight → Bool} (h : s.core.nfc.flight = []) : slotsWhere s p = [] := by
  unfold slotsWhere
  rw [h]
  rfl

/-- A LUN of a channel in fault. -/
def faultLun (s : State) (l : Nat) : State :=
  let s := lunIdle s l
  modLun s l (fun x => { x with
    resetting := false, resetDone := false
    wasReady := x.wasReady || x.state == 2 || x.known.isSome && x.state == 1
    state := if lunEn s l && x.state != 7 then 1 else x.state
    geomOk := false, paramOk := false })

theorem faultLun_nandOnly (s : State) (l : Nat) : NandOnly s (faultLun s l) := ((NandOnly.refl s).modLun.modChan).modLun

theorem NfcIdle.faultLun (h : NfcIdle s) (l : Nat) : NfcIdle (faultLun s l) := by
  have hidle : NfcIdle (lunIdle s l) :=
    (ChansOnly.refl _).modChan.idle (h.modLun l (g := fun x => { x with cur := none, nxt := none, nn := none }) fun _ _ _ hc => ⟨rfl, rfl, hc⟩)
  exact hidle.modLun l fun _ hcur hnxt hc => ⟨hcur, hnxt, hc⟩

theorem chanOf_faultLun (hl : l / 4 = c) (hc : c < s.core.nfc.chans.length) : ∃ b, chanOf (faultLun s l) c = { chanOf s c with bus := b } := by
  subst hl
  exact ⟨_, chanOf_modChan (s := modLun s l _) hc⟩

theorem chanOf_faultLun_other {d : Nat} (hl : l / 4 ≠ d) : chanOf (faultLun s l) d = chanOf s d :=
  chanOf_modChan_other (s := modLun s l _) (Ne.symm hl)

theorem length_chans_faultLun : (faultLun s l).core.nfc.chans.length = s.core.nfc.chans.length := length_upd ..

/-- The LUNs of channel c as a fault leaves them, one after the other. -/
theorem faultLuns (h : NfcIdle s) (hc : c < s.core.nfc.chans.length) (ls : List Nat) (hls : ∀ l ∈ ls, l / 4 = c) :
    NfcIdle (ls.foldl faultLun s) ∧ (∃ b, chanOf (ls.foldl faultLun s) c = { chanOf s c with bus := b }) ∧
      (∀ d, d ≠ c → chanOf (ls.foldl faultLun s) d = chanOf s d) ∧ c < (ls.foldl faultLun s).core.nfc.chans.length := by
  induction ls generalizing s with
  | nil => exact ⟨h, ⟨_, rfl⟩, fun _ _ => rfl, hc⟩
  | cons l ls ih =>
    obtain ⟨hidle, ⟨b, hb⟩, hother, hlen⟩ := ih (h.faultLun l) (length_chans_faultLun.symm ▸ hc) fun m hm => hls m (List.mem_cons_of_mem _ hm)
    have hl := hls l List.mem_cons_self
    obtain ⟨b', hb'⟩ := chanOf_faultLun hl hc
    refine ⟨hidle, ⟨b, hb.trans (by rw [hb'])⟩, fun d hd => (hother d hd).trans (chanOf_faultLun_other (by rw [hl]; exact Ne.symm hd)), hlen⟩

/-- What a channel fault leaves (12 R344). -/
structure ChannelFaulted (s y : State) (c : Nat) : Prop where
  chan : ∃ ce sent sentAt, chanOf y c = { chanOf s c with
    faults := sat 255 ((chanOf s c).faults + 1), fault := true, iface := false, mode := 0, modeDue := false, bus := none,
    init := if (chanOf s c).vccq = 0 then .none else initNext s c 0, ce := ce, sent := sent, sentAt := sentAt }
  other : ∀ d, d ≠ c → chanOf y d = chanOf s d
  counts : y.core.nfc.counts = upd s.core.nfc.counts 0 fun k => sat 255 (k + 1)
  reported : ∀ q ∈ y.core.irq, bit q.pend 33 = true
  idle : NfcIdle y
  course : courseDue y 5 = courseDue s 5

theorem core_capoFault (n : Nat) : (capoFault s n).core = { s.core with capo := (capoFault s n).core.capo } := by
  unfold capoFault
  split <;> rfl

theorem used_capoFault (n a : Nat) : used (capoFault s n) a = used s a := by
  unfold capoFault
  split <;> rfl

/-- A fault takes the channel's LUNs, counts and is reported. -/
def faultReported (s : State) (c : Nat) : State :=
  let z := modN (((upto 4).map fun k => 4 * c + k).foldl faultLun s) fun n => { n with counts := upd n.counts 0 (fun k => sat 255 (k + 1)) }
  capoFault (raiseAll (modChan z c fun x => { x with
    faults := sat 255 (x.faults + 1), fault := true, iface := false, mode := 0, modeDue := false, bus := none, init := .none }) 33) 22

theorem channelFaultOp_idle (h : NfcIdle s) (hc : c < s.core.nfc.chans.length) :
    channelFaultOp s c none = whenS ((chanOf s c).vccq != 0) (faultReported s c) fun s => initGo s c 0 := by
  obtain ⟨-, ⟨b, hb⟩, -⟩ := faultLuns h hc ((upto 4).map fun k => 4 * c + k) fun l hl => by
    obtain ⟨k, hk, rfl⟩ := List.mem_map.mp hl
    have := List.mem_range.mp hk
    omega
  have hup : (chanOf (((upto 4).map fun k => 4 * c + k).foldl faultLun s) c).vccq = (chanOf s c).vccq := by rw [hb]
  unfold channelFaultOp
  extract_lets luns bad s1 s2 s3 up s4 s5
  have h1 : s1 = s := by
    show endAll s (bad.map _) = s
    rw [show bad = [] from slotsWhere_idle h.flight]
    rfl
  have h2 : s2 = ((upto 4).map fun k => 4 * c + k).foldl faultLun s := congrArg (fun z => luns.foldl faultLun z) h1
  clear_value s2
  have hchans : s3.core.nfc.chans = s2.core.nfc.chans := rfl
  have hup' : up = ((chanOf s c).vccq != 0) := by
    rw [← hup, ← h2]
    exact congrArg (fun l : List NfcChan => ((nth l c {}).vccq != 0)) hchans
  have h5 : s5 = faultReported s c := by
    rw [faultReported, ← h2]
  rw [hup', h5]

theorem faultReported_left (h : NfcIdle s) (hc : c < s.core.nfc.chans.length) :
    chanOf (faultReported s c) c = { chanOf s c with
      faults := sat 255 ((chanOf s c).faults + 1), fault := true, iface := false, mode := 0, modeDue := false, bus := none, init := .none } ∧
    (∀ d, d ≠ c → chanOf (faultReported s c) d = chanOf s d) ∧
    (faultReported s c).core.nfc.counts = upd s.core.nfc.counts 0 (fun k => sat 255 (k + 1)) ∧
    (∀ q ∈ (faultReported s c).core.irq, bit q.pend 33 = true) ∧ NfcIdle (faultReported s c) ∧
    (∀ a, used (faultReported s c) a = used s a) ∧ (faultReported s c).core.course = s.core.course ∧
    c < (faultReported s c).core.nfc.chans.length := by
  have hnand : NandOnly s (((upto 4).map fun k => 4 * c + k).foldl faultLun s) := (NandOnly.refl s).foldl faultLun_nandOnly _
  obtain ⟨hidle, ⟨b, hb⟩, hother, hlen⟩ := faultLuns h hc ((upto 4).map fun k => 4 * c + k) fun l hl => by
    obtain ⟨k, hk, rfl⟩ := List.mem_map.mp hl
    have := List.mem_range.mp hk
    omega
  unfold faultReported
  generalize ((upto 4).map fun k => 4 * c + k).foldl faultLun s = z at hnand hidle hb hother hlen
  dsimp only
  have hcore := core_capoFault (s := raiseAll (modChan (modN z fun n => { n with counts := upd n.counts 0 (fun k => sat 255 (k + 1)) }) c fun x => { x with
    faults := sat 255 (x.faults + 1), fault := true, iface := false, mode := 0, modeDue := false, bus := none, init := .none }) 33) 22
  have hused := used_capoFault (s := raiseAll (modChan (modN z fun n => { n with counts := upd n.counts 0 (fun k => sat 255 (k + 1)) }) c fun x => { x with
    faults := sat 255 (x.faults + 1), fault := true, iface := false, mode := 0, modeDue := false, bus := none, init := .none }) 33) 22
  generalize capoFault _ 22 = y at hcore hused
  have hnfc : y.core.nfc = { z.core.nfc with counts := upd z.core.nfc.counts 0 (fun k => sat 255 (k + 1)), chans := upd z.core.nfc.chans c fun x => { x with
    faults := sat 255 (x.faults + 1), fault := true, iface := false, mode := 0, modeDue := false, bus := none, init := .none } } := by rw [hcore]; rfl
  have hirq : y.core.irq = z.core.irq.map fun q => q.set 33 := by rw [hcore]; rfl
  have hcourse : y.core.course = z.core.course := by rw [hcore]; rfl
  refine ⟨?_, fun d hd => ?_, ?_, ?_, ?_, fun a => (hused a).trans (hnand.used a), ?_, ?_⟩
  · have hch : chanOf y c = _ := (congrArg (fun v : NfcSt => nth v.chans c {}) hnfc).trans (nth_upd_same _ _ _ _ hlen)
    rw [hch, show nth z.core.nfc.chans c {} = chanOf z c from rfl, hb]
  · have hch : chanOf y d = chanOf z d := (congrArg (fun v : NfcSt => nth v.chans d {}) hnfc).trans (nth_upd_ne _ _ _ _ _ hd)
    exact hch.trans (hother d hd)
  · rw [hnfc, hnand.counts]
  · rw [hirq]
    intro q hq
    obtain ⟨r, -, rfl⟩ := List.mem_map.mp hq
    exact bit_setBit_same (w := 64) _ 33 true (by decide)
  · have hlun (l : Nat) : lunOf y l = lunOf z l := (congrArg (fun v : NfcSt => nth v.luns l {}) hnfc :)
    refine hidle.of_same (congrArg NfcSt.flight hnfc :) (congrArg NfcSt.ended hnfc :) fun l => ?_
    rw [hlun]
    exact ⟨hidle.cur l, hidle.nxt l, hidle.contend l⟩
  · rw [hcourse, hnand]
    rfl
  · rw [hnfc]
    exact (length_upd ..).symm ▸ hlen

theorem nextCe_congr (h : ∀ a, used t a = used s a) (c e : Nat) : nextCe t c e = nextCe s c e := by
  unfold nextCe lunEn
  simp only [h]

theorem channelFaulted (h : NfcIdle s) (hc : c < s.core.nfc.chans.length) : ChannelFaulted s (channelFaultOp s c none) c := by
  rw [channelFaultOp_idle h hc]
  obtain ⟨hchan, hother, hcounts, hirq, hidle, hused, hcourse, hlen⟩ := faultReported_left h hc
  generalize faultReported s c = y at hchan hother hcounts hirq hidle hused hcourse hlen
  have hdue (z : State) (hz : z.core.course = y.core.course) : courseDue z 5 = courseDue s 5 := by
    unfold courseDue
    rw [hz, hcourse]
  by_cases hvccq : (chanOf s c).vccq = 0
  · have hstop : whenS ((chanOf s c).vccq != 0) y (fun s => initGo s c 0) = y := if_neg (by simp [hvccq])
    rw [hstop]
    exact ⟨⟨_, _, _, hchan.trans (by rw [if_pos hvccq])⟩, hother, hcounts, hirq, hidle, hdue y rfl⟩
  · have hgo : whenS ((chanOf s c).vccq != 0) y (fun s => initGo s c 0) = initGo y c 0 := if_pos (by simp [hvccq])
    rw [hgo]
    obtain ⟨ce, sent, sentAt, hinit⟩ := initGo_chan (e := 0) hlen
    have hnext : initNext y c 0 = initNext s c 0 := by rw [initNext, initNext, nextCe_congr hused]
    have honly := initGo_chansOnly y c 0
    refine ⟨⟨ce, sent, sentAt, hinit.trans ?_⟩, fun d hd => (initGo_other hd).trans (hother d hd), ?_, ?_, honly.idle hidle, hdue _ ?_⟩
    · rw [hchan, hnext, if_neg hvccq]
    · rw [← hcounts, honly]
      rfl
    · have hsame : (initGo y c 0).core.irq = y.core.irq := by
        rw [honly]
        rfl
      rw [hsame]
      exact hirq
    · rw [honly]
      rfl

/-- The four LUNs of a channel start initialisation when one of them is enabled. -/
theorem initNext_first (s : State) (c : Nat) : initNext s c 0 = if (upto 4).any (fun k => lunEn s (4 * c + k)) then .reset else .mode := by
  have hsome : (nextCe s c 0).isSome = (upto 4).any fun k => lunEn s (4 * c + k) := by
    have h4 : upto 4 = [0, 1, 2, 3] := rfl
    have h2 : (upto 2).filter (fun k => decide (0 ≤ k)) = [0, 1] := rfl
    rw [nextCe, h2, h4, Bool.eq_iff_iff, List.find?_isSome]
    simp [or_assoc]
  rw [initNext, hsome]

end Fault

end Sys2Proof.Machine
end

section
/-! PROOFS. Chapter 12: banks, faults, initialisation and mode changes of a NAND channel (12 R336-R344); O55. -/

set_option Elab.async false

namespace Sys2Proof.Machine

variable {s t x y : State} {c l n : Nat} {f : NfcChan → NfcChan}

section Banks

theorem upd_eq_self {α : Type} {d : α} {f : α → α} {ls : List α} {i : Nat} (h : f (nth ls i d) = nth ls i d) : upd ls i f = ls := by
  have hid : upd ls i f = upd ls i id := upd_congr (d := d) h
  rw [hid]
  clear h hid
  induction ls generalizing i with
  | nil => rfl
  | cons a ls ih =>
    cases i with
    | zero => rfl
    | succ i => exact congrArg (a :: ·) ih

theorem modChan_eq_self (h : f (chanOf s c) = chanOf s c) : modChan s c f = s := modN_eq_self (by rw [upd_eq_self h])

theorem NfcIdle.modChan (h : NfcIdle s) : NfcIdle (modChan s c f) := (ChansOnly.refl s).modChan.idle h

theorem length_chans_modChan : (modChan s c f).core.nfc.chans.length = s.core.nfc.chans.length := length_upd ..

theorem bankClassOp_same {mv : Nat} (h : bankClass mv = (chanOf s c).vccq) : bankClassOp s c mv = s := by
  have hself : modChan s c (fun x => { x with vccq := bankClass mv }) = s := modChan_eq_self (by rw [h])
  unfold bankClassOp
  dsimp only
  rw [hself]
  exact if_pos h

/-- The LUNs of a bank that appears wait for initialisation. -/
def lunAppears (c : Nat) (s : State) (i : Nat) : State :=
  modLun s (4 * c + i) fun x => { x with state := if lunEn s (4 * c + i) && x.state != 7 then 1 else x.state }

theorem bankClassOp_appears {mv : Nat} (hne : bankClass mv ≠ (chanOf s c).vccq) (h : (chanOf s c).vccq = 0) : bankClassOp s c mv =
    modChan ((upto 4).foldl (lunAppears c) (modChan s c fun x => { x with vccq := bankClass mv })) c fun x => { x with init := .settle } := by
  unfold bankClassOp
  dsimp only
  rw [if_neg hne, if_pos h]
  rfl

theorem bankClassOp_lost {mv : Nat} (hne : bankClass mv ≠ (chanOf s c).vccq) (h : (chanOf s c).vccq ≠ 0) :
    bankClassOp s c mv = channelFaultOp (modChan s c fun x => { x with vccq := bankClass mv }) c none := by
  unfold bankClassOp
  dsimp only
  rw [if_neg hne, if_neg h]

theorem chans_lunsAppear (ls : List Nat) (s : State) : (ls.foldl (lunAppears c) s).core.nfc.chans = s.core.nfc.chans := by
  induction ls generalizing s with
  | nil => rfl
  | cons i ls ih => exact ih _

theorem NfcIdle.lunsAppear (h : NfcIdle s) (ls : List Nat) : NfcIdle (ls.foldl (lunAppears c) s) := by
  induction ls generalizing s with
  | nil => exact h
  | cons i ls ih => exact ih (h.modLun _ fun _ hcur hnxt hc => ⟨hcur, hnxt, hc⟩)

theorem bankClassOp_left {mv : Nat} (h : NfcIdle s) (hc : c < s.core.nfc.chans.length) (hdue : courseDue s 5 = false) :
    NfcIdle (bankClassOp s c mv) ∧ courseDue (bankClassOp s c mv) 5 = false ∧ (chanOf (bankClassOp s c mv) c).vccq = bankClass mv ∧
      (bankClass mv ≠ (chanOf s c).vccq → (chanOf s c).vccq = 0 →
        (chanOf (bankClassOp s c mv) c).init = .settle ∧ (chanOf (bankClassOp s c mv) c).faults = (chanOf s c).faults) := by
  by_cases hsame : bankClass mv = (chanOf s c).vccq
  · rw [bankClassOp_same hsame]
    exact ⟨h, hdue, hsame.symm, fun hne => absurd hsame hne⟩
  by_cases hwas : (chanOf s c).vccq = 0
  · rw [bankClassOp_appears hsame hwas]
    have hidle := (h.modChan (c := c) (f := fun x => { x with vccq := bankClass mv })).lunsAppear (c := c) (upto 4)
    have hchans := chans_lunsAppear (c := c) (upto 4) (modChan s c fun x => { x with vccq := bankClass mv })
    have hnand : NandOnly s ((upto 4).foldl (lunAppears c) (modChan s c fun x => { x with vccq := bankClass mv })) :=
      (NandOnly.refl s).modChan.foldl (fun y i => (NandOnly.refl y).modLun) _
    generalize (upto 4).foldl (lunAppears c) (modChan s c fun x => { x with vccq := bankClass mv }) = z at hidle hchans hnand
    have hchan : chanOf z c = { chanOf s c with vccq := bankClass mv } :=
      (congrArg (fun l => nth l c ({} : NfcChan)) hchans).trans (chanOf_modChan hc)
    have hlen : c < z.core.nfc.chans.length := by
      rw [hchans]
      exact length_chans_modChan.symm ▸ hc
    refine ⟨hidle.modChan, (hnand.modChan.courseDue 5).trans hdue, ?_, fun _ _ => ⟨?_, ?_⟩⟩
    all_goals rw [chanOf_modChan hlen, hchan]
  · rw [bankClassOp_lost hsame hwas]
    obtain ⟨⟨ce, sent, sentAt, hchan⟩, -, -, -, hidle, hcourse⟩ := channelFaulted (h.modChan (c := c) (f := fun x => { x with vccq := bankClass mv }))
      (length_chans_modChan.symm ▸ hc)
    refine ⟨hidle, hcourse.trans hdue, ?_, fun _ h => absurd h hwas⟩
    rw [hchan, chanOf_modChan hc]

end Banks

section Phases

variable {g : State → Nat → State} {h : NfcLun → NfcLun} {obs : InitObs} {e : Nat}

/-- A step that changes one LUN's record alone, and nothing that the LUN runs. -/
structure LunStep (g : State → Nat → State) : Prop where
  only : ∀ s l, g s l = modN s fun v => { v with luns := (g s l).core.nfc.luns }
  length : ∀ s l, (g s l).core.nfc.luns.length = s.core.nfc.luns.length
  other : ∀ s l m, m ≠ l → lunOf (g s l) m = lunOf s m
  idle : ∀ s l, NfcIdle s → NfcIdle (g s l)

theorem lunStep_modLun (hh : ∀ x : NfcLun, (h x).cur = x.cur ∧ (h x).nxt = x.nxt ∧ (h x).contend = x.contend) : LunStep fun s l => modLun s l h where
  only _ _ := rfl
  length _ _ := length_upd ..
  other _ _ _ hne := lunOf_modLun_other hne
  idle s l hidle := hidle.modLun l fun x hcur hnxt hc => by
    obtain ⟨h1, h2, h3⟩ := hh x
    exact ⟨h1.trans hcur, h2.trans hnxt, h3.trans hc⟩

/-- What a run of such steps leaves. -/
structure LunsStepped (s t : State) : Prop where
  chans : t.core.nfc.chans = s.core.nfc.chans
  idle : NfcIdle s → NfcIdle t
  used : ∀ a, used t a = used s a
  course : t.core.course = s.core.course
  length : t.core.nfc.luns.length = s.core.nfc.luns.length

theorem LunStep.stepped (hg : LunStep g) (s : State) (l : Nat) : LunsStepped s (g s l) where
  chans := by rw [hg.only]; rfl
  idle := hg.idle s l
  used _ := by rw [hg.only]; rfl
  course := by rw [hg.only]; rfl
  length := hg.length s l

theorem LunsStepped.trans (h : LunsStepped s x) (h' : LunsStepped x y) : LunsStepped s y :=
  ⟨h'.chans.trans h.chans, h'.idle ∘ h.idle, fun a => (h'.used a).trans (h.used a), h'.course.trans h.course, h'.length.trans h.length⟩

theorem LunStep.foldl (hg : LunStep g) (ls : List Nat) (s : State) : LunsStepped s (ls.foldl g s) := by
  induction ls generalizing s with
  | nil => exact ⟨rfl, id, fun _ => rfl, rfl, rfl⟩
  | cons l ls ih => exact (hg.stepped s l).trans (ih _)

theorem LunStep.foldl_other (hg : LunStep g) {ls : List Nat} {m : Nat} (hm : m ∉ ls) : lunOf (ls.foldl g s) m = lunOf s m := by
  induction ls generalizing s with
  | nil => rfl
  | cons l ls ih =>
    rw [List.mem_cons, not_or] at hm
    exact (ih hm.2).trans (hg.other s l m hm.1)

/-- Each LUN of the list takes its step once, with the record that it had. -/
theorem LunStep.foldl_each (hg : LunStep g) {ls : List Nat} (hnodup : ls.Nodup) :
    ∀ l ∈ ls, ∃ z, lunOf z l = lunOf s l ∧ z.core.nfc.luns.length = s.core.nfc.luns.length ∧ lunOf (ls.foldl g s) l = lunOf (g z l) l := by
  induction ls generalizing s with
  | nil => exact nofun
  | cons m ls ih =>
    rw [List.nodup_cons] at hnodup
    intro l hl
    rcases List.mem_cons.mp hl with rfl | hl
    · exact ⟨s, rfl, rfl, hg.foldl_other hnodup.1⟩
    · obtain ⟨z, hz, hlen, hfold⟩ := ih (s := g s m) hnodup.2 l hl
      refine ⟨z, hz.trans (hg.other s m l fun h => hnodup.1 (h ▸ hl)), hlen.trans (hg.length s m), hfold⟩

theorem nodup_ceLuns : (ceLuns s c e).Nodup := List.Nodup.filter _ (by simp)

theorem ceLuns_lt (hc : c < 4) (he : e < 2) : ∀ l ∈ ceLuns s c e, l < 16 := by
  intro l hl
  have hmem := List.mem_of_mem_filter hl
  simp only [List.mem_cons, List.not_mem_nil, or_false] at hmem
  omega

/-- The record of a LUN that leaves initialisation in a state. -/
def leavesIn (st : Nat) (x : NfcLun) : NfcLun := { x with state := if x.wasReady ∧ st ≠ 5 then 7 else st, wasReady := false }

theorem lunStep_lunOut (st : Nat) : LunStep fun s l => lunOut s l st := lunStep_modLun (h := leavesIn st) fun _ => ⟨rfl, rfl, rfl⟩

/-- LUNs that leave initialisation. -/
theorem lunOf_lunsOut {st : Nat} {ls : List Nat} (hst : st ≠ 5) (hnodup : ls.Nodup) (hlen : ∀ l ∈ ls, l < s.core.nfc.luns.length) :
    ∀ l ∈ ls, (lunOf (ls.foldl (fun s l => lunOut s l st) s) l).state = if (lunOf s l).wasReady then 7 else st := by
  intro l hl
  obtain ⟨z, hz, hzlen, hfold⟩ := (lunStep_lunOut st).foldl_each (s := s) hnodup l hl
  have hout : lunOf (lunOut z l st) l = leavesIn st (lunOf z l) := lunOf_modLun (hzlen ▸ hlen l hl)
  rw [hfold, hout, hz, leavesIn]
  simp [hst]

/-- One LUN at the end of its Check (12 Table 12-3, R338). -/
def checkLun (s : State) (l : Nat) : State :=
  let y := lunOf s l
  if !y.geomOk then lunOut s l 4
  else if l % 2 = 1 ∧ y.perCe = 1 then lunOut (modLun s l (fun y => { y with geomOk := false })) l 0
  else match y.known with
    | some k => if k = (y.geom0, y.geom1, y.ident) then s else lunOut (modLun s l (fun y => { y with geomOk := false })) l 5
    | none => modLun s l (fun y => { y with known := some (y.geom0, y.geom1, y.ident) })

/-- A step that is one of several in each state. -/
theorem LunStep.of_cases (hg : ∀ s l, ∃ g', LunStep g' ∧ g s l = g' s l) : LunStep g where
  only s l := by
    obtain ⟨g', hg', h⟩ := hg s l
    rw [h]
    exact hg'.only s l
  length s l := by
    obtain ⟨g', hg', h⟩ := hg s l
    rw [h]
    exact hg'.length s l
  other s l m hne := by
    obtain ⟨g', hg', h⟩ := hg s l
    rw [h]
    exact hg'.other s l m hne
  idle s l hidle := by
    obtain ⟨g', hg', h⟩ := hg s l
    rw [h]
    exact hg'.idle s l hidle

theorem LunStep.after {g' : State → Nat → State} (hg : LunStep g) (hg' : LunStep g') : LunStep fun s l => g (g' s l) l where
  only s l := by
    rw [hg.only, hg'.only]
    rfl
  length s l := (hg.length _ l).trans (hg'.length s l)
  other s l m hne := (hg.other _ l m hne).trans (hg'.other s l m hne)
  idle s l hidle := hg.idle _ l (hg'.idle s l hidle)

theorem lunStep_self : LunStep fun s _ => s := ⟨fun _ _ => rfl, fun _ _ => rfl, fun _ _ _ _ => rfl, fun _ _ h => h⟩

theorem lunStep_checkLun : LunStep checkLun := by
  have hfails (st : Nat) : LunStep fun s l => lunOut (modLun s l fun y => { y with geomOk := false }) l st :=
    (lunStep_lunOut st).after (lunStep_modLun fun _ => ⟨rfl, rfl, rfl⟩)
  refine .of_cases fun s l => ?_
  unfold checkLun
  dsimp only
  split
  · exact ⟨_, lunStep_lunOut 4, rfl⟩
  · split
    · exact ⟨_, hfails 0, rfl⟩
    · split
      · split
        · exact ⟨_, lunStep_self, rfl⟩
        · exact ⟨_, hfails 5, rfl⟩
      · exact ⟨_, lunStep_modLun (h := fun y => { y with known := some (y.geom0, y.geom1, y.ident) }) fun _ => ⟨rfl, rfl, rfl⟩, rfl⟩

theorem lunOf_checkLun (hl : l < s.core.nfc.luns.length) (h : (lunOf s l).geomOk = false) : lunOf (checkLun s l) l = leavesIn 4 (lunOf s l) := by
  have hfail : checkLun s l = lunOut s l 4 := if_pos (by rw [h]; rfl)
  rw [hfail]
  exact lunOf_modLun hl

/-- The end of an initialisation phase, by the phase (12 Table 12-3). -/
theorem initPhaseOp_settle (h : (chanOf s c).init = .settle) : initPhaseOp s c obs = initGo s c 0 := by
  unfold initPhaseOp
  dsimp only
  rw [h]

theorem initPhaseOp_reset (h : (chanOf s c).init = .reset) :
    initPhaseOp s c obs = modChan (sendTo s c (chanOf s c).ce identifyCycles) c fun x => { x with init := .identify } := by
  unfold initPhaseOp
  dsimp only
  rw [h]

theorem initPhaseOp_onfi (h : (chanOf s c).init = .identify) (hsig : obs.sig = [0x4F, 0x4E, 0x46, 0x49]) : initPhaseOp s c obs =
    modChan (sendTo ((ceLuns s c (chanOf s c).ce).foldl (fun s l => modLun s l fun x =>
      { x with ident := BitVec.ofNat 32 (leNat (obs.ident.take 4)) }) s) c (chanOf s c).ce parameterCycles) c fun x =>
        { x with init := .parameter, sigOk := true } := by
  unfold initPhaseOp
  dsimp only
  rw [h]
  exact if_pos hsig

theorem initPhaseOp_noOnfi (h : (chanOf s c).init = .identify) (hsig : obs.sig ≠ [0x4F, 0x4E, 0x46, 0x49]) : initPhaseOp s c obs =
    initGo (modChan ((ceLuns s c (chanOf s c).ce).foldl (fun s l => lunOut s l 0) s) c fun x => { x with sigOk := false }) c ((chanOf s c).ce + 1) := by
  unfold initPhaseOp
  dsimp only
  rw [h]
  exact if_neg hsig

theorem initPhaseOp_noCopy (h : (chanOf s c).init = .parameter) (hcopy : paramCopy obs.copies = none) :
    initPhaseOp s c obs = initGo ((ceLuns s c (chanOf s c).ce).foldl (fun s l => lunOut s l 3) s) c ((chanOf s c).ce + 1) := by
  unfold initPhaseOp
  dsimp only
  rw [h]
  dsimp only
  rw [hcopy]

/-- The record of a LUN with what its parameter page says. -/
def withParameters (cp : List Byte) (x : NfcLun) : NfcLun := { x with
  paramOk := true, geomOk := (paramRead cp).ok, perCe := (paramRead cp).perCe, resetLun := (paramRead cp).resetLun
  rowCycles := (paramRead cp).rowCycles, geom0 := (paramRead cp).geom0, geom1 := (paramRead cp).geom1 }

theorem initPhaseOp_copy {cp : List Byte} (h : (chanOf s c).init = .parameter) (hcopy : paramCopy obs.copies = some cp) : initPhaseOp s c obs =
    modChan ((ceLuns s c (chanOf s c).ce).foldl (fun s l => modLun s l (withParameters cp)) s) c fun x => { x with init := .check } := by
  unfold initPhaseOp
  dsimp only
  rw [h]
  dsimp only
  rw [hcopy]
  rfl

theorem initPhaseOp_check (h : (chanOf s c).init = .check) :
    initPhaseOp s c obs = initGo ((ceLuns s c (chanOf s c).ce).foldl checkLun s) c ((chanOf s c).ce + 1) := by
  unfold initPhaseOp
  dsimp only
  rw [h]
  rfl

theorem initPhaseOp_other (h : (chanOf s c).init = .none ∨ (chanOf s c).init = .mode ∨ (chanOf s c).init = .ready) : initPhaseOp s c obs = s := by
  unfold initPhaseOp
  dsimp only
  rcases h with h | h | h <;> rw [h]

theorem NfcIdle.initGo (hidle : NfcIdle s) : NfcIdle (initGo s c e) := (initGo_chansOnly s c e).idle hidle

theorem NfcIdle.sendTo (hidle : NfcIdle s) {cy : List NandCycle} : NfcIdle (sendTo s c e cy) := (ChansOnly.refl s).sendTo.idle hidle

/-- The steps of the phases on the LUNs of a chip enable. -/
theorem lunStep_ident (v : Word) : LunStep fun s l => modLun s l fun x => { x with ident := v } := lunStep_modLun fun _ => ⟨rfl, rfl, rfl⟩

theorem lunStep_parameters (cp : List Byte) : LunStep fun s l => modLun s l (withParameters cp) := lunStep_modLun fun _ => ⟨rfl, rfl, rfl⟩

theorem NfcIdle.initPhaseOp (hidle : NfcIdle s) : NfcIdle (initPhaseOp s c obs) := by
  cases hinit : (chanOf s c).init with
  | none => rwa [initPhaseOp_other (.inl hinit)]
  | mode => rwa [initPhaseOp_other (.inr (.inl hinit))]
  | ready => rwa [initPhaseOp_other (.inr (.inr hinit))]
  | settle =>
    rw [initPhaseOp_settle hinit]
    exact hidle.initGo
  | reset =>
    rw [initPhaseOp_reset hinit]
    exact hidle.sendTo.modChan
  | identify =>
    by_cases hsig : obs.sig = [0x4F, 0x4E, 0x46, 0x49]
    · rw [initPhaseOp_onfi hinit hsig]
      exact (((lunStep_ident _).foldl _ s).idle hidle).sendTo.modChan
    · rw [initPhaseOp_noOnfi hinit hsig]
      exact (((lunStep_lunOut 0).foldl _ s).idle hidle).modChan.initGo
  | parameter =>
    cases hcopy : paramCopy obs.copies with
    | none =>
      rw [initPhaseOp_noCopy hinit hcopy]
      exact (((lunStep_lunOut 3).foldl _ s).idle hidle).initGo
    | some cp =>
      rw [initPhaseOp_copy hinit hcopy]
      exact (((lunStep_parameters cp).foldl _ s).idle hidle).modChan
  | check =>
    rw [initPhaseOp_check hinit]
    exact ((lunStep_checkLun.foldl _ s).idle hidle).initGo

/-- Steps on LUNs leave the channels. -/
theorem LunsStepped.chanOf (h : LunsStepped s t) (c : Nat) : chanOf t c = chanOf s c :=
  congrArg (fun l => nth l c ({} : NfcChan)) h.chans

theorem LunsStepped.chans_lt (h : LunsStepped s t) (hc : c < s.core.nfc.chans.length) : c < t.core.nfc.chans.length := by
  rw [h.chans]
  exact hc

theorem lunOf_initGo : lunOf (initGo s c e) l = lunOf s l := (initGo_chansOnly s c e).lunOf l

theorem lunOf_sendTo {cy : List NandCycle} : lunOf (sendTo s c e cy) l = lunOf s l := (ChansOnly.refl s).sendTo.lunOf l

/-- Each LUN of the list takes the change. -/
theorem lunOf_lunsChanged (hg : LunStep fun s l => modLun s l h) {ls : List Nat} (hnodup : ls.Nodup) (hlen : ∀ l ∈ ls, l < s.core.nfc.luns.length) :
    ∀ l ∈ ls, lunOf (ls.foldl (fun s l => modLun s l h) s) l = h (lunOf s l) := by
  intro l hl
  obtain ⟨z, hz, hzlen, hfold⟩ := hg.foldl_each (s := s) hnodup l hl
  exact hfold.trans ((lunOf_modLun (hzlen ▸ hlen l hl)).trans (congrArg h hz))

variable (hc : c < s.core.nfc.chans.length) (hls : ∀ l ∈ ceLuns s c (chanOf s c).ce, l < s.core.nfc.luns.length)

include hc in
theorem settle_ends (hinit : (chanOf s c).init = .settle) : (chanOf (initPhaseOp s c obs) c).init = if (nextCe s c 0).isSome then .reset else .mode := by
  obtain ⟨ce, sent, sentAt, hchan⟩ := initGo_chan (e := 0) hc
  rw [initPhaseOp_settle hinit, hchan]
  rfl

include hc in
theorem reset_ends (hinit : (chanOf s c).init = .reset) :
    (chanOf (initPhaseOp s c obs) c).init = .identify ∧ (chanOf (initPhaseOp s c obs) c).ce = (chanOf s c).ce := by
  obtain ⟨sent, sentAt, hchan⟩ := sendTo_chan (s := s) (c := c) (e := (chanOf s c).ce) (cy := identifyCycles) c
  rw [initPhaseOp_reset hinit, chanOf_modChan (length_chans_sendTo.symm ▸ hc), hchan]
  exact ⟨rfl, rfl⟩

include hc hls in
theorem identify_onfi (hinit : (chanOf s c).init = .identify) (hsig : obs.sig = [0x4F, 0x4E, 0x46, 0x49]) :
    (chanOf (initPhaseOp s c obs) c).init = .parameter ∧ (chanOf (initPhaseOp s c obs) c).sigOk = true ∧
      ∀ l ∈ ceLuns s c (chanOf s c).ce, (lunOf (initPhaseOp s c obs) l).ident = BitVec.ofNat 32 (leNat (obs.ident.take 4)) := by
  have hstep := (lunStep_ident (BitVec.ofNat 32 (leNat (obs.ident.take 4)))).foldl (ceLuns s c (chanOf s c).ce) s
  have hlun := lunOf_lunsChanged (lunStep_ident (BitVec.ofNat 32 (leNat (obs.ident.take 4)))) (s := s) nodup_ceLuns hls
  rw [initPhaseOp_onfi hinit hsig]
  generalize (ceLuns s c (chanOf s c).ce).foldl (fun s l => modLun s l fun x => { x with ident := BitVec.ofNat 32 (leNat (obs.ident.take 4)) }) s = z
    at hstep hlun
  have hlen : c < (sendTo z c (chanOf s c).ce parameterCycles).core.nfc.chans.length := length_chans_sendTo.symm ▸ hstep.chans_lt hc
  rw [chanOf_modChan hlen]
  refine ⟨rfl, rfl, fun l hl => ?_⟩
  rw [lunOf_modChan, lunOf_sendTo, hlun l hl]

include hc hls in
theorem identify_noOnfi (hinit : (chanOf s c).init = .identify) (hsig : obs.sig ≠ [0x4F, 0x4E, 0x46, 0x49]) :
    (chanOf (initPhaseOp s c obs) c).sigOk = false ∧
      ((chanOf (initPhaseOp s c obs) c).init = .reset ∨ (chanOf (initPhaseOp s c obs) c).init = .mode) ∧
      ∀ l ∈ ceLuns s c (chanOf s c).ce, (lunOf (initPhaseOp s c obs) l).state = if (lunOf s l).wasReady then 7 else 0 := by
  have hstep := (lunStep_lunOut 0).foldl (ceLuns s c (chanOf s c).ce) s
  have hlun := lunOf_lunsOut (st := 0) (s := s) (by decide) nodup_ceLuns hls
  rw [initPhaseOp_noOnfi hinit hsig]
  generalize (ceLuns s c (chanOf s c).ce).foldl (fun s l => lunOut s l 0) s = z at hstep hlun
  obtain ⟨ce, sent, sentAt, hchan⟩ := initGo_chan (s := modChan z c fun x => { x with sigOk := false }) (c := c) (e := (chanOf s c).ce + 1)
    (length_chans_modChan.symm ▸ hstep.chans_lt hc)
  rw [hchan, chanOf_modChan (hstep.chans_lt hc)]
  refine ⟨rfl, ?_, fun l hl => ?_⟩
  · show initNext _ _ _ = _ ∨ initNext _ _ _ = _
    unfold initNext
    split
    · exact .inl rfl
    · exact .inr rfl
  · rw [lunOf_initGo, lunOf_modChan, hlun l hl]

include hls in
theorem parameter_noCopy (hinit : (chanOf s c).init = .parameter) (hcopy : paramCopy obs.copies = none) :
    ∀ l ∈ ceLuns s c (chanOf s c).ce, (lunOf (initPhaseOp s c obs) l).state = if (lunOf s l).wasReady then 7 else 3 := by
  intro l hl
  rw [initPhaseOp_noCopy hinit hcopy, lunOf_initGo]
  exact lunOf_lunsOut (by decide) nodup_ceLuns hls l hl

include hc hls in
theorem parameter_copy (hinit : (chanOf s c).init = .parameter) (hcopy : paramCopy obs.copies ≠ none) :
    (chanOf (initPhaseOp s c obs) c).init = .check ∧ ∀ l ∈ ceLuns s c (chanOf s c).ce, (lunOf (initPhaseOp s c obs) l).paramOk = true := by
  obtain ⟨cp, hcp⟩ := Option.ne_none_iff_exists'.mp hcopy
  have hstep := (lunStep_parameters cp).foldl (ceLuns s c (chanOf s c).ce) s
  have hlun := lunOf_lunsChanged (lunStep_parameters cp) (s := s) nodup_ceLuns hls
  rw [initPhaseOp_copy hinit hcp]
  generalize (ceLuns s c (chanOf s c).ce).foldl (fun s l => modLun s l (withParameters cp)) s = z at hstep hlun
  rw [chanOf_modChan (hstep.chans_lt hc)]
  refine ⟨rfl, fun l hl => ?_⟩
  rw [lunOf_modChan, hlun l hl]
  rfl

include hls in
theorem check_ends (hinit : (chanOf s c).init = .check) : ∀ l ∈ ceLuns s c (chanOf s c).ce, (lunOf s l).geomOk = false →
    (lunOf (initPhaseOp s c obs) l).state = if (lunOf s l).wasReady then 7 else 4 := by
  intro l hl hgeom
  obtain ⟨z, hz, hzlen, hfold⟩ := lunStep_checkLun.foldl_each (s := s) nodup_ceLuns l hl
  rw [initPhaseOp_check hinit, lunOf_initGo, hfold, lunOf_checkLun (hzlen ▸ hls l hl) (by rw [hz, hgeom]), hz, leavesIn]
  simp

end Phases

section Modes

variable {ok : Bool}

/-- Cycles alone have been sent. -/
structure Sends (s t : State) : Prop where
  only : ChansOnly s t
  chan : ∀ d, SentOnly (chanOf s d) (chanOf t d)
  length : t.core.nfc.chans.length = s.core.nfc.chans.length

theorem Sends.refl (s : State) : Sends s s := ⟨.refl s, fun _ => .refl _, rfl⟩

theorem Sends.trans (h : Sends s x) (h' : Sends x y) : Sends s y :=
  ⟨h.only.trans h'.only, fun d => (h.chan d).trans (h'.chan d), h'.length.trans h.length⟩

theorem Sends.sendTo (h : Sends s x) {e : Nat} {cy : List NandCycle} : Sends s (sendTo x c e cy) :=
  h.trans ⟨(ChansOnly.refl x).sendTo, fun d => sendTo_chan d, length_chans_sendTo⟩

theorem Sends.sendLun (h : Sends s x) {cy : List NandCycle} : Sends s (sendLun x l cy) := h.sendTo

theorem Sends.foldl {α : Type} {g : State → α → State} (h : Sends s x) (hg : ∀ y a, Sends y (g y a)) (as : List α) : Sends s (as.foldl g x) := by
  induction as generalizing x with
  | nil => exact h
  | cons a as ih => exact ih (h.trans (hg x a))

theorem Sends.whenS (h : Sends s x) {b : Bool} {g : State → State} (hg : ∀ y, Sends y (g y)) : Sends s (whenS b x g) := by
  unfold Machine.whenS
  split
  · exact h.trans (hg x)
  · exact h

theorem sends_modeSend (s : State) (c : Nat) (ok : Bool) : Sends s (modeSend s c ok) := by
  unfold modeSend
  extract_lets m luns ces reset each s1 s2 s3
  have hreset (y : State) : Sends y (reset y) := (Sends.refl y).foldl (fun z _ => (Sends.refl z).sendTo) _
  have heach (y : State) (cy : List NandCycle) : Sends y (each y cy) := (Sends.refl y).foldl (fun z _ => (Sends.refl z).sendLun) _
  have h1 : Sends s s1 := (Sends.refl s).whenS hreset
  have h2 : Sends s s2 := h1.whenS fun y => heach y _
  have h3 : Sends s s3 := (h2.trans (heach _ _)).trans (heach _ _)
  exact h3.whenS hreset

/-- A LUN returns to use after a mode sequence. -/
def lunBack (s : State) (l : Nat) : State := modLun (applyHome s l) l fun y => { y with state := 2, resetDone := false, wasReady := false }

theorem lunOf_applyHome_other {m : Nat} (hm : m ≠ l) : lunOf (applyHome s l) m = lunOf s m := by
  unfold applyHome applyEntry
  split
  · rfl
  · exact (lunOf_modLun_other hm).trans lunOf_sendTo

theorem lunOf_lunBack_other {m : Nat} (hm : m ≠ l) : lunOf (lunBack s l) m = lunOf s m :=
  (lunOf_modLun_other hm).trans (lunOf_applyHome_other hm)

theorem length_luns_sendTo {e : Nat} {cy : List NandCycle} : (sendTo s c e cy).core.nfc.luns.length = s.core.nfc.luns.length := by
  unfold sendTo
  split <;> rfl

theorem length_luns_applyHome : (applyHome s l).core.nfc.luns.length = s.core.nfc.luns.length := by
  unfold applyHome applyEntry
  split
  · rfl
  · exact (length_upd ..).trans length_luns_sendTo

theorem length_luns_lunBack : (lunBack s l).core.nfc.luns.length = s.core.nfc.luns.length := (length_upd ..).trans length_luns_applyHome

theorem state_lunBack (hl : l < s.core.nfc.luns.length) : (lunOf (lunBack s l) l).state = 2 := by
  rw [show lunOf (lunBack s l) l = _ from lunOf_modLun (length_luns_applyHome.symm ▸ hl)]

theorem chanOf_lunBack (d : Nat) : SentOnly (chanOf s d) (chanOf (lunBack s l) d) := by
  unfold lunBack applyHome applyEntry
  rw [chanOf_modLun]
  split
  · exact .refl _
  · rw [chanOf_modLun]
    exact sendTo_chan d

theorem NfcIdle.lunBack (h : NfcIdle s) (l : Nat) : NfcIdle (lunBack s l) := by
  have hhome : NfcIdle (applyHome s l) := by
    unfold applyHome applyEntry
    split
    · exact h
    · exact (h.sendTo (c := l / 4) (e := l % 4 / 2) (cy := entryCycles s l 0)).modLun l (g := fun x => { x with entry := 0 })
        fun _ hcur hnxt hc => ⟨hcur, hnxt, hc⟩
  exact hhome.modLun l fun _ hcur hnxt hc => ⟨hcur, hnxt, hc⟩

theorem NfcIdle.lunsBack (h : NfcIdle s) (ls : List Nat) : NfcIdle (ls.foldl Machine.lunBack s) := by
  induction ls generalizing s with
  | nil => exact h
  | cons l ls ih => exact ih (h.lunBack l)

/-- The LUNs of the list are in use; the others stay, and so do the channels but for what was sent. -/
theorem lunsBack (ls : List Nat) (hlen : ∀ l ∈ ls, l < s.core.nfc.luns.length) :
    (∀ l ∈ ls, (lunOf (ls.foldl lunBack s) l).state = 2) ∧ (∀ m, m ∉ ls → lunOf (ls.foldl lunBack s) m = lunOf s m) ∧
      (∀ d, SentOnly (chanOf s d) (chanOf (ls.foldl lunBack s) d)) := by
  induction ls generalizing s with
  | nil => exact ⟨nofun, fun _ _ => rfl, fun _ => .refl _⟩
  | cons l ls ih =>
    obtain ⟨hin, hout, hchan⟩ := ih (s := lunBack s l) fun m hm => length_luns_lunBack.symm ▸ hlen m (List.mem_cons_of_mem _ hm)
    refine ⟨fun m hm => ?_, fun m hm => ?_, fun d => (chanOf_lunBack d).trans (hchan d)⟩
    · by_cases hmem : m ∈ ls
      · exact hin m hmem
      · obtain rfl : m = l := (List.mem_cons.mp hm).resolve_right hmem
        rw [List.foldl_cons, hout m hmem, state_lunBack (hlen m List.mem_cons_self)]
    · rw [List.mem_cons, not_or] at hm
      exact (hout m hm.2).trans (lunOf_lunBack_other hm.1)

theorem modeChangeOp_notDue (hdue : (chanOf s c).modeDue = false) (hinit : (chanOf s c).init ≠ .mode) : modeChangeOp s c ok = s := by
  unfold modeChangeOp
  exact if_pos (by simp [hdue, hinit])

/-- The record of the channel after the mode sequence (12 R341). -/
def modeChanged (s : State) (c : Nat) (ok : Bool) (x : NfcChan) : NfcChan := { x with
  modeDue := false
  iface := ok && (effectiveMode s c).1, mode := if ok then (effectiveMode s c).2 else 0
  fallback := !ok, fallbacks := if ok then x.fallbacks else sat 255 (x.fallbacks + 1)
  init := if (chanOf s c).init == .mode then .ready else x.init, fault := if (chanOf s c).init == .mode then false else x.fault }

/-- The mode sequence is over, and the channel takes its mode. -/
def modeLeft (s : State) (c : Nat) (ok : Bool) : State :=
  whenS (!ok) (modChan (modeSend s c ok) c (modeChanged s c ok)) fun s =>
    raiseAll (modN s fun n => { n with counts := upd n.counts 3 (fun k => sat 255 (k + 1)) }) 33

/-- The LUNs that return to use. -/
def modeBack (s t : State) (c : Nat) : List Nat := ((upto 4).map fun k => 4 * c + k).filter fun l =>
  ((chanOf s c).init == .mode && lunPassed t l && (lunOf t l).state == 1) || (lunOf t l).resetDone

theorem modeLeft_left (h : NfcIdle s) (hc : c < s.core.nfc.chans.length) :
    SentOnly (modeChanged s c ok (chanOf s c)) (chanOf (modeLeft s c ok) c) ∧ NfcIdle (modeLeft s c ok) ∧
      (∀ l, lunOf (modeLeft s c ok) l = lunOf s l) ∧ (∀ a, used (modeLeft s c ok) a = used s a) ∧
      (modeLeft s c ok).core.nfc.luns.length = s.core.nfc.luns.length := by
  obtain ⟨honly, hchan, hlen⟩ := sends_modeSend s c ok
  unfold modeLeft
  generalize modeSend s c ok = y at honly hchan hlen
  obtain ⟨sent, sentAt, hsent⟩ := hchan c
  have hidle := honly.idle h
  have hcy : c < y.core.nfc.chans.length := hlen.symm ▸ hc
  have hused (a : Nat) : used y a = used s a := by
    rw [honly]
    rfl
  have hluns : y.core.nfc.luns.length = s.core.nfc.luns.length := by
    rw [honly]
    rfl
  refine ⟨⟨sent, sentAt, ?_⟩, ?_, fun l => ?_, fun a => ?_, ?_⟩
  · have hkeeps : chanOf (whenS (!ok) (modChan y c (modeChanged s c ok)) fun s =>
        raiseAll (modN s fun n => { n with counts := upd n.counts 3 (fun k => sat 255 (k + 1)) }) 33) c = chanOf (modChan y c (modeChanged s c ok)) c := by
      unfold whenS
      split <;> rfl
    rw [hkeeps, chanOf_modChan hcy, hsent]
    rfl
  · unfold whenS
    split
    · exact hidle.of_same rfl rfl fun l => ⟨hidle.cur l, hidle.nxt l, hidle.contend l⟩
    · exact hidle.modChan
  · rw [← honly.lunOf l]
    unfold whenS
    split <;> rfl
  · rw [← hused a]
    unfold whenS
    split <;> rfl
  · rw [← hluns]
    unfold whenS
    split <;> rfl

theorem modeChangeOp_due (h : NfcIdle s) (hc : c < s.core.nfc.chans.length) (hbusy : chanBusy s c = false)
    (hdue : (chanOf s c).modeDue = true ∨ (chanOf s c).init = .mode) :
    modeChangeOp s c ok = (modeBack s (modeLeft s c ok) c).foldl lunBack (modeLeft s c ok) := by
  have hgo : ¬(chanBusy s c || !((chanOf s c).modeDue || (chanOf s c).init == .mode)) = true := by
    rw [hbusy]
    rcases hdue with hdue | hdue <;> simp [hdue]
  obtain ⟨-, hidle, -⟩ := modeLeft_left (ok := ok) h hc
  have hback : NfcIdle ((modeBack s (modeLeft s c ok) c).foldl lunBack (modeLeft s c ok)) := hidle.lunsBack _
  unfold modeChangeOp
  dsimp only
  rw [if_neg hgo]
  show endAll ((modeBack s (modeLeft s c ok) c).foldl lunBack (modeLeft s c ok)) ((slotsWhere ((modeBack s (modeLeft s c ok) c).foldl lunBack (modeLeft s c ok)) _).map _) = _
  rw [slotsWhere_idle hback.flight]
  rfl

theorem lunPassed_congr (hlun : lunOf t l = lunOf s l) (hused : ∀ a, used t a = used s a) : lunPassed t l = lunPassed s l := by
  unfold lunPassed lunEn
  simp only [hlun, hused]

/-- The mode change of a channel that is due and not busy. -/
theorem modeChange_left (h : NfcIdle s) (hc : c < s.core.nfc.chans.length) (hfour : c < 4) (hlen : s.core.nfc.luns.length = 16)
    (hbusy : chanBusy s c = false) (hdue : (chanOf s c).modeDue = true ∨ (chanOf s c).init = .mode) :
    NfcIdle (modeChangeOp s c ok) ∧ SentOnly (modeChanged s c ok (chanOf s c)) (chanOf (modeChangeOp s c ok) c) ∧
      ((chanOf s c).init = .mode → ∀ k < 4, lunPassed s (4 * c + k) = true → (lunOf (modeChangeOp s c ok) (4 * c + k)).state = 2) := by
  rw [modeChangeOp_due h hc hbusy hdue]
  obtain ⟨hchan, hidle, hlun, hused, hluns⟩ := modeLeft_left (ok := ok) h hc
  generalize modeLeft s c ok = y at hchan hidle hlun hused hluns
  have hlt : ∀ l ∈ modeBack s y c, l < y.core.nfc.luns.length := by
    intro l hl
    obtain ⟨k, hk, rfl⟩ := List.mem_map.mp (List.mem_of_mem_filter hl)
    have := List.mem_range.mp hk
    omega
  obtain ⟨hin, hout, hsent⟩ := lunsBack (modeBack s y c) hlt
  refine ⟨hidle.lunsBack _, hchan.trans (hsent c), fun hinit k hk hpassed => ?_⟩
  by_cases hmem : 4 * c + k ∈ modeBack s y c
  · exact hin _ hmem
  · rw [hout _ hmem, hlun]
    have hpassed' : lunPassed y (4 * c + k) = true := (lunPassed_congr (hlun _) hused).trans hpassed
    have hnot : (lunOf s (4 * c + k)).state ≠ 1 := by
      intro hone
      refine hmem (List.mem_filter.mpr ⟨List.mem_map.mpr ⟨k, List.mem_range.mpr hk, rfl⟩, ?_⟩)
      rw [hinit, hpassed', hlun, hone]
      rfl
    simp only [lunPassed, Bool.and_eq_true, Bool.or_eq_true, beq_iff_eq] at hpassed
    exact hpassed.2.resolve_left hnot

end Modes

section Poll

theorem pollOp_idle (h : NfcIdle s) : pollOp s c =
    if (((upto 4).map fun k => 4 * c + k).filter fun l => (lunOf s l).resetting).length < 2 then s
    else (((upto 4).map fun k => 4 * c + k).filter fun l => (lunOf s l).resetting).foldl (fun s l => sendLun s l (statusCycles s l)) s := by
  unfold pollOp
  simp only [h.cur, h.nxt, Option.filter_none, Bool.or_false]

end Poll

end Sys2Proof.Machine
end

section
/-! PROOFS. Chapter 12: what was sent on the NAND buses shows in no register and in no capo (03 R94, 12 R342); O55. -/

set_option Elab.async false

namespace Sys2Proof.Machine

variable {s t x y : State} {c l n p o : Nat} {L : List NfcChan}

section Shown

/-- The records of the channels are these. -/
def withChans (s : State) (l : List NfcChan) : State := modN s fun v => { v with chans := l }

/-- The record of a channel without what it sent. -/
def NfcChan.unsent (x : NfcChan) : NfcChan := { x with sent := [], sentAt := 0 }

/-- The channels differ in what they sent alone. -/
def SentChans (s : State) (l : List NfcChan) : Prop := l.map NfcChan.unsent = s.core.nfc.chans.map NfcChan.unsent

theorem SentChans.nth (h : SentChans s L) (c : Nat) : (nth L c {}).unsent = (chanOf s c).unsent := by
  rw [chanOf, proj_nth_eq_nth_map NfcChan.unsent, proj_nth_eq_nth_map NfcChan.unsent, h]

theorem SentChans.any (h : SentChans s L) {b : NfcChan → Bool} (hb : ∀ x : NfcChan, b x.unsent = b x) : L.any b = s.core.nfc.chans.any b := by
  have hmap (l : List NfcChan) : l.any b = (l.map NfcChan.unsent).any b := by
    rw [List.any_map]
    exact congrArg (List.any l) (funext fun x => (hb x).symm)
  rw [hmap, hmap s.core.nfc.chans, h]

theorem partLive_withChans : partLive (withChans s L) o = partLive s o := by
  have hshare (q : Nat) : slotShare (withChans s L) q = slotShare s q := rfl
  have hheld (q : Nat) : slotsHeld (withChans s L) q = slotsHeld s q := rfl
  have hpool : poolUsed (withChans s L) = poolUsed s := by simp only [poolUsed, hshare, hheld]
  have hpart : (withChans s L).core.part = s.core.part := rfl
  have hremain (w : WdogSt) : wdogRemain (withChans s L) w = wdogRemain s w := rfl
  unfold partLive
  simp only [hshare, hheld, hpool, hpart, hremain]

theorem mbxLive_withChans : mbxLive (withChans s L) o = mbxLive s o := by
  have hnext (q : Nat) : rxNext (withChans s L) q = rxNext s q := by
    unfold rxNext
    rfl
  have hmbxs : (withChans s L).core.mbxs = s.core.mbxs := rfl
  unfold mbxLive
  simp only [hnext, hmbxs]

theorem irqUsed_withChans (k : Nat) (q : IrqSt) : irqUsed (withChans s L) k q = irqUsed s k q := rfl

theorem irqLive_withChans : irqLive (withChans s L) o = irqLive s o := by
  have hirq : (withChans s L).core.irq = s.core.irq := rfl
  unfold irqLive
  simp only [irqUsed_withChans, hirq]

theorem nfcLive_withChans (h : SentChans s L) : nfcLive (withChans s L) p o = nfcLive s p o := by
  have hstate (l : Nat) : lunState (withChans s L) l = lunState s l := rfl
  have hnfc : (withChans s L).core.nfc = { s.core.nfc with chans := L } := rfl
  have hnwp : nwpLow (withChans s L) = nwpLow s := by
    unfold nwpLow
    rw [show (withChans s L).core.nfc.chans.any (fun c => c.init == .settle || c.fault) = s.core.nfc.chans.any (fun c => c.init == .settle || c.fault) from
      h.any fun _ => rfl]
    rfl
  have hfault (c : Nat) : (nth L c {}).fault = (nth s.core.nfc.chans c {}).fault := (congrArg NfcChan.fault (h.nth c) :)
  have hreduced : reduced (withChans s L) = reduced s := rfl
  have hsel : ladderSel (withChans s L) = ladderSel s := rfl
  have hladder (l : Nat) : lunLadder (withChans s L) l = lunLadder s l := rfl
  have huf (a lo n : Nat) : uf (withChans s L) a lo n = uf s a lo n := rfl
  have hlw (l a : Nat) : lw (withChans s L) l a = lw s l a := rfl
  have hrd (a : Nat) : rd (withChans s L) a = rd s a := rfl
  have hbbt : bbtSel (withChans s L) = bbtSel s := rfl
  have hflight (k : Nat) : flightOf (withChans s L) k = flightOf s k := rfl
  have hentries (l q : Nat) : entriesOf (withChans s L) l q = entriesOf s l q := rfl
  have hlun (l : Nat) : lunOf (withChans s L) l = lunOf s l := rfl
  have hcourse (b : Nat) : courseWord (withChans s L) b = courseWord s b := rfl
  unfold nfcLive
  simp only [hstate, hnfc, hnwp, hfault, hreduced, hsel, hladder, huf, hlw, hrd, hbbt, hflight, hentries, hlun, hcourse]

theorem nfcChLive_withChans (h : SentChans s L) : nfcChLive (withChans s L) c o = nfcChLive s c o := by
  have hchan : ∀ b, (chanOf (withChans s L) b).unsent = (chanOf s b).unsent := h.nth
  have hstate (l : Nat) : lunState (withChans s L) l = lunState s l := rfl
  have hlun (l : Nat) : lunOf (withChans s L) l = lunOf s l := rfl
  have hvccq : (chanOf (withChans s L) c).vccq = (chanOf s c).vccq := (congrArg NfcChan.vccq (hchan c) :)
  have hfault : (chanOf (withChans s L) c).fault = (chanOf s c).fault := (congrArg NfcChan.fault (hchan c) :)
  have hfallback : (chanOf (withChans s L) c).fallback = (chanOf s c).fallback := (congrArg NfcChan.fallback (hchan c) :)
  have hiface : (chanOf (withChans s L) c).iface = (chanOf s c).iface := (congrArg NfcChan.iface (hchan c) :)
  have hmode : (chanOf (withChans s L) c).mode = (chanOf s c).mode := (congrArg NfcChan.mode (hchan c) :)
  have hfaults : (chanOf (withChans s L) c).faults = (chanOf s c).faults := (congrArg NfcChan.faults (hchan c) :)
  have hfallbacks : (chanOf (withChans s L) c).fallbacks = (chanOf s c).fallbacks := (congrArg NfcChan.fallbacks (hchan c) :)
  have hresets : (chanOf (withChans s L) c).resets = (chanOf s c).resets := (congrArg NfcChan.resets (hchan c) :)
  have htimeouts : (chanOf (withChans s L) c).timeouts = (chanOf s c).timeouts := (congrArg NfcChan.timeouts (hchan c) :)
  have hrunning : (chanOf (withChans s L) c).running = (chanOf s c).running := (congrArg NfcChan.running (hchan c) :)
  unfold nfcChLive
  simp only [hstate, hlun, hvccq, hfault, hfallback, hiface, hmode, hfaults, hfallbacks, hresets, htimeouts, hrunning]

theorem regValue_withChans (h : SentChans s L) (a : Nat) : regValue (withChans s L) p a = regValue s p a := by
  have hdev (o : Nat) : devLive (withChans s L) p o = devLive s p o := rfl
  have hport (o : Nat) : portLive (withChans s L) o = portLive s o := rfl
  have hpwr (o : Nat) : pwrLive (withChans s L) o = pwrLive s o := rfl
  have hseq (o : Nat) : seqLive (withChans s L) o = seqLive s o := rfl
  have hthm (o : Nat) : thmLive (withChans s L) o = thmLive s o := rfl
  have hflw (o : Nat) : flwLive (withChans s L) o = flwLive s o := rfl
  have hkey (o : Nat) : keyLive (withChans s L) p o = keyLive s p o := rfl
  have hepd (o : Nat) : epdLive (withChans s L) o = epdLive s o := rfl
  have hefl (o : Nat) : eflLive (withChans s L) o = eflLive s o := rfl
  have hcvu (o : Nat) : cvuLive (withChans s L) o = cvuLive s o := rfl
  have hgng (o : Nat) : gngLive (withChans s L) o = gngLive s o := rfl
  have hstored : stored (withChans s L) a = stored s a := rfl
  unfold regValue
  simp only [hdev, partLive_withChans, hport, mbxLive_withChans, irqLive_withChans, hpwr, hseq, hthm, hflw, hkey, hepd, hefl, nfcLive_withChans h,
    nfcChLive_withChans h, hcvu, hgng, hstored]

theorem capoBanks_withChans (h : SentChans s L) (num : Nat) (src : BitVec 4) : capoBanks (withChans s L) num src = capoBanks s num src := by
  have hstamp (blk : Nat) : stampCourse (withChans s L) blk = stampCourse s blk := by
    have hchan : ∀ b, (chanOf (withChans s L) b).unsent = (chanOf s b).unsent := h.nth
    have hrunning (b : Nat) : (chanOf (withChans s L) b).running = (chanOf s b).running := (congrArg NfcChan.running (hchan b) :)
    have hcourse : (withChans s L).core.course = s.core.course := rfl
    have hlun (l : Nat) : lunOf (withChans s L) l = lunOf s l := rfl
    have hdue (b : Nat) : courseDue (withChans s L) b = courseDue s b := rfl
    unfold stampCourse
    simp only [hrunning, hcourse, hlun, hdue]
  have htime : stamp (withChans s L) = stamp s := rfl
  refine congrArg (fun f => ((upto 19).map f).flatten) (funext fun blk => ?_)
  unfold capoBlock
  simp only [hstamp, htime, funext (regValue_withChans (p := 0) h)]

theorem settle_withChans (h : SentChans s L) : settle (withChans s L) = withChans (settle s) L := by
  have hcapo : capoAfter (withChans s L) = capoAfter s := by
    have hrecord : (withChans s L).core.capo = s.core.capo := rfl
    have hused : used (withChans s L) 0x53 = used s 0x53 := rfl
    unfold capoAfter
    simp only [hrecord, hused, capoBanks_withChans h]
  have hgng : gngAfter (withChans s L) = gngAfter s := rfl
  have hports : portsAfter (withChans s L) = portsAfter s := rfl
  have hirq : irqWithCapo (withChans s L) = irqWithCapo s := rfl
  have hnext (k : Nat) (q : IrqSt) : irqNext (withChans s L) k q = irqNext s k q := rfl
  have hwork : workPresent (withChans s L) = workPresent s := rfl
  unfold settle
  simp only [hcapo, hgng, hports, hirq, hnext, hwork]
  rfl

end Shown

section Poll

theorem Sends.sentChans (h : Sends s t) : SentChans s t.core.nfc.chans :=
  map_eq_of_nth {} h.length fun d _ => by
    obtain ⟨sent, sentAt, hsent⟩ := h.chan d
    exact (congrArg NfcChan.unsent hsent).trans rfl

/-- The LUNs of a channel whose reset runs. -/
def resettingLuns (s : State) (c : Nat) : List Nat := ((upto 4).map fun k => 4 * c + k).filter fun l => (lunOf s l).resetting

/-- A status command goes to a LUN (12 R342). -/
def sendStatus (s : State) (l : Nat) : State := sendLun s l (statusCycles s l)

theorem sends_statuses (ls : List Nat) (s : State) : Sends s (ls.foldl sendStatus s) := (Sends.refl s).foldl (fun y _ => (Sends.refl y).sendLun) _

theorem statusCycles_sent (h : ChansOnly s t) (l : Nat) : statusCycles t l = statusCycles s l := by
  rw [h]
  rfl

theorem chanOf_sendStatus (hl : l / 4 = c) (hc : c < s.core.nfc.chans.length) : chanOf (sendStatus s l) c =
    { chanOf s c with sent := (if (chanOf s c).sentAt = s.freeCtr then (chanOf s c).sent else []) ++ [(l % 4 / 2, statusCycles s l)], sentAt := s.freeCtr } := by
  subst hl
  exact chanOf_modChan hc

theorem freeCtr_sent (h : ChansOnly s t) : t.freeCtr = s.freeCtr := by
  rw [h]
  rfl

/-- In one instant what is sent is kept together. -/
theorem sent_statuses (ls : List Nat) (hls : ∀ l ∈ ls, l / 4 = c) (hc : c < s.core.nfc.chans.length) (hat : (chanOf s c).sentAt = s.freeCtr) :
    (chanOf (ls.foldl sendStatus s) c).sent = (chanOf s c).sent ++ ls.map fun l => (l % 4 / 2, statusCycles s l) := by
  induction ls generalizing s with
  | nil => exact (List.append_nil _).symm
  | cons l ls ih =>
    have hsend : Sends s (sendStatus s l) := (Sends.refl s).sendLun
    have hchan := chanOf_sendStatus (hls l List.mem_cons_self) hc
    have hrest := ih (s := sendStatus s l) (fun m hm => hls m (List.mem_cons_of_mem _ hm)) (hsend.length.symm ▸ hc)
      ((congrArg NfcChan.sentAt hchan).trans (freeCtr_sent hsend.only).symm)
    rw [List.foldl_cons, hrest, hchan, if_pos hat, List.append_assoc]
    exact congrArg (fun g => (chanOf s c).sent ++ ((l % 4 / 2, statusCycles s l) :: ls.map g)) (funext fun m => by rw [statusCycles_sent hsend.only])

theorem resettingLuns_chan : ∀ l ∈ resettingLuns s c, l / 4 = c := by
  intro l hl
  obtain ⟨k, hk, rfl⟩ := List.mem_map.mp (List.mem_of_mem_filter hl)
  have := List.mem_range.mp hk
  omega

theorem sent_first (hc : c < s.core.nfc.chans.length) (hat : (chanOf s c).sentAt ≠ s.freeCtr) {l : Nat} {ls : List Nat} (hls : ∀ m ∈ l :: ls, m / 4 = c) :
    (chanOf ((l :: ls).foldl sendStatus s) c).sent = (l :: ls).map fun l => (l % 4 / 2, statusCycles s l) := by
  have hsend : Sends s (sendStatus s l) := (Sends.refl s).sendLun
  have hchan := chanOf_sendStatus (hls l List.mem_cons_self) hc
  rw [List.foldl_cons, sent_statuses ls (fun m hm => hls m (List.mem_cons_of_mem _ hm)) (hsend.length.symm ▸ hc)
    ((congrArg NfcChan.sentAt hchan).trans (freeCtr_sent hsend.only).symm), hchan, if_neg hat]
  exact congrArg (fun g => (l % 4 / 2, statusCycles s l) :: ls.map g) (funext fun m => by rw [statusCycles_sent hsend.only])

/-- A poll sends status commands alone, to two LUNs or more (12 R342). -/
theorem statusPoll_sends (h : NfcIdle s) (hup : coreUp s = true) (hc : c < s.core.nfc.chans.length) :
    ∃ y, instant (whenCore fun s => pollOp s c) s = .next (settle y) ∧ Sends s y ∧ (∀ d, d ≠ c → chanOf y d = chanOf s d) ∧
      ((resettingLuns s c).length < 2 → y = s) ∧
      (2 ≤ (resettingLuns s c).length → (chanOf s c).sentAt ≠ s.freeCtr →
        (chanOf y c).sent = (resettingLuns s c).map fun l => (l % 4 / 2, statusCycles s l)) := by
  refine ⟨_, instant_core _ hup, ?_⟩
  have hop : pollOp s c = if (resettingLuns s c).length < 2 then s else (resettingLuns s c).foldl sendStatus s := pollOp_idle h
  rw [hop]
  split
  next hfew => exact ⟨.refl s, fun _ _ => rfl, fun _ => rfl, fun h2 => absurd hfew (by omega)⟩
  next hmany =>
    have hother : ∀ (ls : List Nat) (s : State), (∀ l ∈ ls, l / 4 = c) → ∀ d, d ≠ c → chanOf (ls.foldl sendStatus s) d = chanOf s d := by
      intro ls
      induction ls with
      | nil => exact fun _ _ _ _ => rfl
      | cons l ls ih =>
        intro s hls d hd
        exact (ih _ (fun m hm => hls m (List.mem_cons_of_mem _ hm)) d hd).trans (sendTo_other (by rw [hls l List.mem_cons_self]; exact hd))
    refine ⟨sends_statuses _ s, hother _ s resettingLuns_chan, fun hfew => absurd hfew hmany, fun _ hat => ?_⟩
    have hls := resettingLuns_chan (s := s) (c := c)
    generalize resettingLuns s c = ls at hmany hls
    cases ls with
    | nil => exact absurd (Nat.zero_lt_two) hmany
    | cons l ls => exact sent_first hc hat hls

end Poll

/-- What is reported of a channel fault, as registers show it. -/
theorem ChannelFaulted.shown (h : ChannelFaulted s y c) (hcounts : s.core.nfc.counts.length = 4) :
    (chanOf (settle y) c).faults = sat 255 ((chanOf s c).faults + 1) ∧ (chanOf (settle y) c).fault = true ∧ (chanOf (settle y) c).iface = false ∧
      (chanOf (settle y) c).mode = 0 ∧ (chanOf (settle y) c).bus = none ∧
      nth (settle y).core.nfc.counts 0 0 = sat 255 (nth s.core.nfc.counts 0 0 + 1) ∧ (∀ q ∈ (settle y).core.irq, bit q.pend 33 = true) ∧
      (chanOf (settle y) c).init = if (chanOf (settle y) c).vccq = 0 then .none
        else if (upto 4).any (fun k => lunEn s (4 * c + k)) then .reset else .mode := by
  obtain ⟨⟨ce, sent, sentAt, hchan⟩, -, hnum, hirq, -, -⟩ := h
  have hsettled : chanOf (settle y) c = chanOf y c := rfl
  rw [hsettled, hchan]
  refine ⟨rfl, rfl, rfl, rfl, rfl, ?_, ?_, ?_⟩
  · rw [settle_core_nfc, hnum]
    exact nth_upd_same _ _ _ _ (by omega)
  · exact ((Goes.refl _ y).settle (ps := endPieces) (List.Subset.refl _)).pend_all (by decide) hirq
  · show (if (chanOf s c).vccq = 0 then _ else initNext s c 0) = _
    rw [initNext_first]

/-- A command of a channel that has nothing in flight ends with what it has changed. -/
theorem instant_nfcAfter {f : State → State} (hup : coreUp s = true) (hidle : NfcIdle (f s)) (hdue : courseDue (f s) 5 = false) :
    instant (whenCore fun s => nfcAfter (f s)) s = .next (settle (f s)) := by
  rw [instant_core _ hup, nfcAfter_idle hidle hdue]

theorem bankClass_moves (h : NfcIdle s) (hup : coreUp s = true) (hc : c < s.core.nfc.chans.length) (hdue : courseDue s 5 = false) (mv : Nat) :
    instant (whenCore fun s => nfcAfter (bankClassOp s c mv)) s = .next (settle (bankClassOp s c mv)) :=
  instant_nfcAfter hup (bankClassOp_left h hc hdue).1 (bankClassOp_left h hc hdue).2.1

/-- Settles O55: each event of a channel without work in flight, and what it leaves. -/
theorem nandChannelsComeUpAndFault : Obligations.NandChannelsComeUpAndFault := by
  intro s ch hup hflight hended hdue hchans hluns _ hcounts hall x faulted
  have h : NfcIdle s := .of_all hflight hended hall
  have hc : ch.val < s.core.nfc.chans.length := by
    rw [hchans]
    exact ch.isLt
  refine ⟨fun mv => ?_, ?_, ?_, fun obs hce => ?_, fun ok => ?_⟩
  · intro k
    obtain ⟨-, -, hclass, happears⟩ := bankClassOp_left (mv := mv) h hc hdue
    refine ⟨_, bankClass_moves h hup hc hdue mv, hclass, fun hsame => ?_, happears, fun hne hwas => ?_⟩
    · rw [bankClassOp_same hsame]
      exact settle_core_nfc ..
    · have hfault := channelFaulted (h.modChan (c := ch.val) (f := fun x => { x with vccq := bankClass mv })) (length_chans_modChan.symm ▸ hc)
      have hshown := hfault.shown hcounts
      rw [← bankClassOp_lost hne hwas, chanOf_modChan hc] at hshown
      exact hshown
  · have hfault := channelFaulted h hc
    have hexec : exec (.channelFault ch) s = .next (settle (channelFaultOp s ch.val none)) :=
      instant_nfcAfter hup hfault.idle (hfault.course.trans hdue)
    generalize channelFaultOp s ch.val none = y at hfault hexec
    have hother (d : Fin 4) (hd : d ≠ ch) : chanOf y d.val = chanOf s d.val := hfault.other d.val fun h => hd (Fin.ext h)
    refine ⟨_, hexec, hfault.shown hcounts, ?_, hother⟩
    obtain ⟨ce, sent, sentAt, hchan⟩ := hfault.chan
    exact (congrArg NfcChan.vccq hchan :)
  · obtain ⟨y, hexec, hsends, hother, hfew, hmany⟩ := statusPoll_sends h hup hc
    have hy : y = withChans s y.core.nfc.chans := hsends.only
    have hsettle : settle y = withChans (settle s) y.core.nfc.chans := by
      have hsame := settle_withChans hsends.sentChans
      rw [← hy] at hsame
      exact hsame
    obtain ⟨sent, sentAt, hsent⟩ := hsends.chan ch.val
    refine ⟨_, hexec, ?_, ?_, ?_, fun d hd => hother d.val fun h => hd (Fin.ext h), ?_, fun hlt => congrArg settle (hfew hlt), hmany⟩
    · rw [hsettle]
      intro k
      cases k
      case nfc => exact .inl (by decide)
      all_goals exact .inr rfl
    · rw [hsettle]
      rfl
    · rw [hsettle]
      rfl
    · have hsettled : chanOf (settle y) ch.val = chanOf y ch.val := rfl
      rw [hsettled, hsent]
  · have hgoes : Goes [.nfc] s (initPhaseOp s ch.val obs) := (Goes.refl _ s).initPhaseOp (by decide)
    have hls : ∀ l ∈ ceLuns s ch.val (chanOf s ch.val).ce, l < s.core.nfc.luns.length := fun l hl => by
      rw [hluns]
      exact ceLuns_lt ch.isLt hce l hl
    exact ⟨_, instant_nfcAfter hup h.initPhaseOp ((hgoes.courseDue_same (by decide) 5).trans hdue), settle_ends hc, reset_ends hc, identify_onfi hc hls,
      identify_noOnfi hc hls, parameter_noCopy hls, parameter_copy hc hls, check_ends hls⟩
  · have hgoes : Goes [.irqPend, .nfc] s (modeChangeOp s ch.val ok) := (Goes.refl _ s).modeChangeOp (by decide) (by decide)
    have hafter := (hgoes.courseDue_same (by decide) 5).trans hdue
    by_cases hgo : chanBusy s ch.val = false ∧ ((chanOf s ch.val).modeDue = true ∨ (chanOf s ch.val).init = .mode)
    · obtain ⟨hidle, ⟨sent, sentAt, hchan⟩, hready⟩ := modeChange_left (ok := ok) h hc ch.isLt hluns hgo.1 hgo.2
      refine ⟨_, instant_nfcAfter hup hidle hafter, fun hnot hmode => ?_, fun _ _ => ?_⟩
      · exact absurd hgo.2 (by simp [show (chanOf s ch.val).modeDue = false from hnot, show (chanOf s ch.val).init ≠ .mode from hmode])
      · have hsettled : chanOf (settle (modeChangeOp s ch.val ok)) ch.val = chanOf (modeChangeOp s ch.val ok) ch.val := rfl
        rw [hsettled, hchan]
        refine ⟨rfl, fun hok => ?_, fun hok => ?_, fun hinit => ⟨?_, ?_, fun k => hready hinit k.val k.isLt⟩⟩
        · subst hok
          exact ⟨rfl, rfl⟩
        · subst hok
          exact ⟨rfl, rfl, rfl, rfl⟩
        · exact if_pos (beq_iff_eq.mpr hinit)
        · exact if_pos (beq_iff_eq.mpr hinit)
    · refine ⟨_, instant_core _ hup, fun hnot hmode => ?_, fun hmodeDue hbusy => absurd ⟨hbusy, hmodeDue⟩ hgo⟩
      rw [modeChangeOp_notDue hnot hmode, nfcAfter_idle h hdue]
      rfl

end Sys2Proof.Machine
end

section
/-! PROOFS. Chapter 02: what a read frame of registers returns (02 R51-R54, R58, Table 2-5). -/

set_option Elab.async false

namespace Sys2Proof.Machine

variable {s : State} {p : Part}

/-- The frame of a read of n + 1 words from a, in the given clock mode. -/
def rdFrame (p : Part) (seq : Byte) (a : BitVec 16) (n : Nat) (m3 : Bool) : Frame :=
  { sound p [0x01, seq, BitVec.ofNat 8 (a.toNat / 256), BitVec.ofNat 8 a.toNat, BitVec.ofNat 8 n] with mode3 := m3 }

/-- Its header. -/
def rdHdr (seq : Byte) (a : BitVec 16) (n : Nat) : Hdr :=
  { op := 1, seq := seq.toNat, addr := a.toNat, len := n, bulk := false }

/-- The two address bytes of a header give its address. -/
theorem address_of_bytes (a : BitVec 16) :
    256 * (BitVec.ofNat 8 (a.toNat / 256)).toNat + (BitVec.ofNat 8 a.toNat).toNat = a.toNat := by
  have := a.isLt
  simp only [BitVec.toNat_ofNat]
  omega

theorem frameHdr_rdFrame (x : State) (seq : Byte) (a : BitVec 16) {n : Nat} (hn : n < 256) (m3 : Bool) :
    frameHdr x (rdFrame p seq a n m3) (some rdForm) = rdHdr seq a n := by
  have hlen : (BitVec.ofNat 8 n).toNat = n := by simpa using Nat.mod_eq_of_lt hn
  have hdr : frameHdr x (rdFrame p seq a n m3) (some rdForm) =
    { op := 1, seq := seq.toNat, addr := 256 * (BitVec.ofNat 8 (a.toNat / 256)).toNat + (BitVec.ofNat 8 a.toNat).toNat,
      len := (BitVec.ofNat 8 n).toNat, bulk := false } := rfl
  rw [hdr, address_of_bytes, hlen]
  rfl

/-- The response of a read of registers given code: its words when the code is 0, zeros with a wrong CRC otherwise (02 R53, R58). -/
def readResp (s : State) (p : Part) (h : Hdr) (code : Nat) (data sent : List Byte) : List Byte :=
  response s p.val h.seq (reducedFlag s) (if code = 0 then data else List.replicate (4 * (h.len + 1)) 0) (code == 0) sent

/-- A read of registers whose checks pass, in time: it answers its words when none is refused, zeros with a wrong CRC
otherwise, and ends with that code (02 R53, R58, R59). -/
theorem frameRun_rd {f : Frame} {h : Hdr} {data : List Byte} {code : Nat} (hl : f.late = false)
    (hin : inReset s f.port.val = false) (hc : checkOutcome s f rdForm 7 = none)
    (hread : frameRead s f.port.val h rdForm = (code, data, 0)) :
    frameRun s f rdForm h none =
      frameEnd (modPort s f.port.val fun q => { q with resp := readResp s f.port h code data f.bytes }) f.port.val h code
        (hostBytes f) := by
  obtain ⟨hneed, hcrc⟩ := whole_of_checkOutcome_none hc
  have hlen : rdForm.hostLen (h.len + 1) = 7 := by simp [rdForm, OpForm.hostLen, OpForm.hdrLen]
  have hr : rdForm.reads = true := rfl
  have hw : rdForm.writes = false := rfl
  have hbulk : rdForm.bulk = false := rfl
  have hguard : rdForm.guard = false := rfl
  by_cases h0 : code = 0
  · simp [frameRun, responds, readResp, hlen, hl, hin, hr, hw, hbulk, hc, hread, hneed, hcrc, h0]
  · simp [frameRun, responds, readResp, hlen, hl, hin, hr, hw, hbulk, hguard, hc, hread, hneed, hcrc, h0]

/-- The state in which a sound read frame leaves its port, by the code of the read. -/
def readEnd (x : State) (p : Part) (seq : Byte) (a : BitVec 16) (n : Nat) (sent : List Byte) (code : Nat) (data : List Byte) : State :=
  frameEnd (modPort x p.val fun q => { q with resp := readResp x p (rdHdr seq a n) code data sent }) p.val (rdHdr seq a n) code
    sent.length

theorem evalFrame_rdFrame (hl : Listens s p) (seq : Byte) {a : BitVec 16} {n : Nat} (hn : n < 64) (m3 : Bool)
    (hrange : a.toNat + n < 65536) {code : Nat} {data : List Byte}
    (hread : frameRead (received s (rdFrame p seq a n m3)) p.val (rdHdr seq a n) rdForm = (code, data, 0)) :
    evalFrame s (rdFrame p seq a n m3) =
      readEnd (received s (rdFrame p seq a n m3)) p seq a n (rdFrame p seq a n m3).bytes code data := by
  have hport := PortOnly.received s (p := p) (f := rdFrame p seq a n m3) rfl
  have hbad : rangeBad rdForm a.toNat n = false := by
    have h1 : ¬63 < n := by omega
    have h2 : ¬65535 < a.toNat + n := by omega
    simp [rangeBad, rdForm, h1, h2]
  have hok : headerOutcome (rdFrame p seq a n m3) (some rdForm) (rdHdr seq a n) = none := by
    have hlen : (rdFrame p seq a n m3).bytes.length = 7 := length_sound ..
    have hne : (rdFrame p seq a n m3).bytes ≠ [] := fun c => by simp [c] at hlen
    have hhdr : rdForm.hdrLen = 5 := rfl
    simp [headerOutcome, hne, hlen, rdHdr, hbad, hhdr]
  rw [evalFrame_known (f := rdFrame p seq a n m3) (o := rdForm) rfl rfl (frameHdr_rdFrame _ seq a (by omega) m3) hok]
  exact frameRun_rd (f := rdFrame p seq a n m3) rfl (hport.listens hl).notInReset
    (checkOutcome_read (bs := [0x01, seq, BitVec.ofNat 8 (a.toNat / 256), BitVec.ofNat 8 a.toNat, BitVec.ofNat 8 n]) rfl rfl rfl rfl rfl)
    hread

/-- What the end of the instant of a read shows of its port. -/
theorem portOf_readEnd {x : State} (hl : Listens x p) (seq : Byte) (a : BitVec 16) (n : Nat) (sent : List Byte) (code : Nat)
    (data : List Byte) :
    (portOf (settle (readEnd x p seq a n sent code data)) p).lastStatus = BitVec.ofNat 8 code ∧
      (portOf (settle (readEnd x p seq a n sent code data)) p).lastSeq = seq ∧
      (portOf (settle (readEnd x p seq a n sent code data)) p).mode3 = (portOf x p).mode3 ∧
      (portOf (settle (readEnd x p seq a n sent code data)) p).resp = readResp x p (rdHdr seq a n) code data sent := by
  have hlx : Listens (modPort x p.val fun q => { q with resp := readResp x p (rdHdr seq a n) code data sent }) p :=
    listens_modPort _ _ hl
  rw [port_settle _ _ PortSt.resp, port_settle _ _ PortSt.lastStatus, port_settle _ _ PortSt.lastSeq, port_settle _ _ PortSt.mode3,
    readEnd, portOf_frameEnd hlx, portOf_modPort _ _ _ hl.fourPorts]
  refine ⟨rfl, ?_, rfl, rfl⟩
  exact BitVec.ofNat_toNat .. |>.trans (BitVec.setWidth_eq ..)

/-- The clock mode that a received frame leaves on its port. -/
theorem mode3_received (hlen : s.core.ports.length = 4) {f : Frame} (hp : f.port = p) :
    (portOf (received s f) p).mode3 = (decide (p.val < 3) && f.mode3) := by
  subst hp
  have hbegin := portOf_portBegin (p := f.port) hlen f.mode3
  have hlen' : (portBegin s f.port.val f.mode3).core.ports.length = 4 := (length_upd _ _ _).trans hlen
  unfold received
  dsimp only
  split
  next h3 =>
    have hp := portOf_modPort (portBegin s f.port.val f.mode3) f.port (fun q => { q with acks := spAcks (portBegin s f.port.val f.mode3) f }) hlen'
    rw [h3] at hp hbegin ⊢
    rw [hp, hbegin]
  next => rw [hbegin]

/-- A sound read frame of registers, by the code of its read: its response and its outcome; given 0 it leaves everything
but its port, and given another code PORT_ERR may follow. -/
theorem rd_completes (hl : Listens s p) (hs : Settled s) (seq : Byte) {a : BitVec 16} {n : Nat} (hn : n < 64) (m3 : Bool)
    (hrange : a.toNat + n < 65536) {code : Nat} {data : List Byte}
    (hread : frameRead (received s (rdFrame p seq a n m3)) p.val (rdHdr seq a n) rdForm = (code, data, 0)) :
    ∃ t, exec (.rd (rdFrame p seq a n m3)) s = .next t ∧
      (portOf t p).lastStatus = BitVec.ofNat 8 code ∧ (portOf t p).lastSeq = seq ∧ (portOf t p).mode3 = (decide (p.val < 3) && m3) ∧
      (portOf t p).resp = readResp (received s (rdFrame p seq a n m3)) p (rdHdr seq a n) code data (rdFrame p seq a n m3).bytes ∧
      OnlyPort p s t ∧ (code = 0 → KeepsPort p [] s t) := by
  have hrec := PortOnly.received s (p := p) (f := rdFrame p seq a n m3) rfl
  have hmode := mode3_received (p := p) hl.fourPorts (f := rdFrame p seq a n m3) rfl
  refine ⟨_, exec_rd _ hl.up, ?_⟩
  rw [evalFrame_rdFrame hl seq hn m3 hrange hread]
  generalize received s (rdFrame p seq a n m3) = x at hrec hmode ⊢
  have hlr := hrec.listens hl
  obtain ⟨hst, hsq, hm, hresp⟩ := portOf_readEnd hlr seq a n (rdFrame p seq a n m3).bytes code data
  refine ⟨hst, hsq, hm.trans hmode, hresp, ((hrec.modPort _).frameEnd hl.noDeviceReset _ _ _).onlyPort_settle hs, ?_⟩
  rintro rfl
  rw [readEnd, frameEnd_ok (listens_modPort _ _ hlr)]
  exact ((hrec.modPort _).modPort _).keepsPort_settle hs

/-- A word that is in no register reads 0 (16 R432). -/
theorem readWord_reserved (s : State) (p : Nat) {a : Nat} (h : regAt a = none) : readWord s p a = 0 := by
  simp [readWord, h]

/-- The code of a read of registers, by the words it names. -/
theorem frameRead_code (x : State) (q : Nat) (seq : Byte) (a : BitVec 16) (n : Nat) :
    let as := (upto (n + 1)).map fun i => a.toNat + i
    frameRead x q (rdHdr seq a n) rdForm =
      (if as.any (readHidden x q) then 0x20 else if as.any (wordBad x) then 0x24 else 0,
        (as.map fun k => beBytes (readWord x q k)).flatten, 0) := rfl

/-- Settles O14: the frame is received, its read gives a code by the words it names, and the code decides the response. -/
theorem readFrameReturnsTheWord : Obligations.ReadFrameReturnsTheWord := by
  unfold Obligations.ReadFrameReturnsTheWord
  refine ⟨fun s p a h => readWord_reserved s p.val h, fun s p seq a n m3 hl hs hrange => ?_⟩
  extract_lets src f s1 s0 as zeros
  have hf : f = rdFrame p seq a n.val m3 := rfl
  have h0 : s0 = received s (rdFrame p seq a n.val m3) := by
    unfold s0 s1
    rw [hf]
    by_cases h3 : p = 3
    · subst h3
      rfl
    · have hv : p.val ≠ 3 := fun h => h3 (Fin.ext h)
      exact (if_neg h3).trans (if_neg hv).symm
  have hflag : reducedFlag s0 = reducedFlag s := h0 ▸ (PortOnly.received s (p := p) rfl).same reducedFlag
  have hdone := fun {code data} (hread : frameRead s0 p.val (rdHdr seq a n.val) rdForm = (code, data, 0)) =>
    rd_completes hl hs seq n.isLt m3 hrange (h0 ▸ hread)
  have hcode := frameRead_code s0 p.val seq a n.val
  have hany : ∀ {g : Nat → Bool}, (∀ k ∈ as, g k = false) → as.any g = false := fun h => List.any_eq_false.2 fun k hk => by simp [h k hk]
  rw [hf]
  have hbytes : ∀ {code data}, readResp s0 p (rdHdr seq a n.val) code data (rdFrame p seq a n.val m3).bytes =
      response s0 p.val seq.toNat (reducedFlag s) (if code = 0 then data else zeros) (code == 0) (rdFrame p seq a n.val m3).bytes :=
    fun {code data} => by rw [readResp, hflag]; rfl
  dsimp only at hcode
  rw [← h0] at hdone
  clear_value s0 zeros
  refine ⟨fun hgood => ?_, fun ⟨k, hk, hhid⟩ => ?_, fun hvis ⟨k, hk, hbad⟩ => ?_⟩
  · have hread : frameRead s0 p.val (rdHdr seq a n.val) rdForm = (0, (as.map fun k => beBytes (readWord s0 p.val k)).flatten, 0) := by
      rw [hcode, if_neg (by rw [hany fun k hk => (hgood k hk).1]; decide), if_neg (by rw [hany fun k hk => (hgood k hk).2]; decide)]
    obtain ⟨t, ht, hst, hsq, hm, hresp, -, hkeeps⟩ := hdone hread
    exact ⟨t, ht, hst, hsq, hresp.trans (hbytes.trans (by rw [if_pos rfl]; rfl)), hm, hkeeps rfl⟩
  · have hread : frameRead s0 p.val (rdHdr seq a n.val) rdForm = (0x20, (as.map fun k => beBytes (readWord s0 p.val k)).flatten, 0) := by
      rw [hcode, if_pos (List.any_eq_true.2 ⟨k, hk, hhid⟩)]
    obtain ⟨t, ht, hst, hsq, -, hresp, honly, -⟩ := hdone hread
    exact ⟨t, ht, hst, hsq, hresp.trans (hbytes.trans (by rw [if_neg (by decide)]; rfl)), honly⟩
  · have hread : frameRead s0 p.val (rdHdr seq a n.val) rdForm = (0x24, (as.map fun k => beBytes (readWord s0 p.val k)).flatten, 0) := by
      rw [hcode, if_neg (by rw [hany hvis]; decide), if_pos (List.any_eq_true.2 ⟨k, hk, hbad⟩)]
    obtain ⟨t, ht, hst, -, -, hresp, honly, -⟩ := hdone hread
    exact ⟨t, ht, hst, hresp.trans (hbytes.trans (by rw [if_neg (by decide)]; rfl)), honly⟩

end Sys2Proof.Machine
end

section
/-! SUPPORT. Words that store and ask for nothing further, and the sound write frames that carry words (02 R54, R59, 16 R433). -/

set_option Elab.async false

namespace Sys2Proof.Machine

variable {s x : State} {p : Part} {a : Nat} {v : Word}

/-- The written word asks for something beyond its storage, or is judged apart from the others of its frame: a quota, the
commands of a check unit, and the words that act. -/
def actsAt (a : Nat) : Bool :=
  [0x40, 0x50, 0x52, 0x62, 0x274, 0xA03, 0xA04, 0xA0A, 0xA0B, 0xA15, 0xA19, 0xC80, 0xC81, 0xC85, 0xE05, 0x10A3, 0x1203, 0x1278,
    0x12B1, 0x1428, 0x142E, 0x1454, 0x1458, 0x1604, 0x1804, 0x1860, 0x1863, 0x2401, 0x2409].elem a
  || decide (0x210 ≤ a ∧ a < 0x217) || decide (0x230 ≤ a ∧ a < 0x234) || decide (0x260 ≤ a ∧ a < 0x268)
  || decide (0x400 ≤ a ∧ a < 0x440 ∧ a % 16 = 6) || decide (0x600 ≤ a ∧ a < 0x630 ∧ a % 4 < 2) || decide (0x1060 ≤ a ∧ a < 0x1090)
  || decide (0x1620 ≤ a ∧ a < 0x1670 ∧ a % 8 = 1) || decide (0x2200 ≤ a ∧ a < 0x2240 ∧ a % 16 < 3)

/-- What a word that does not act does beyond its storage: nothing. -/
theorem writeAct_of_not {pre : State} (h : actsAt a = false) : writeAct pre x p a v = (x, false) := by
  simp only [actsAt, Bool.or_eq_false_iff, decide_eq_false_iff_not, List.elem_eq_mem, List.mem_cons, List.not_mem_nil, not_or] at h
  obtain ⟨⟨⟨⟨⟨⟨⟨⟨hone, hown⟩, -⟩, hwd⟩, herr⟩, hmbx⟩, hage⟩, hefl⟩, -⟩ := h
  obtain ⟨h1, h2, h3, h4, h5, h6, h7, h8, h9, h10, h11, h12, h13, h14, h15, h16, h17, h18, h19, h20, h21, h22, h23, h24, h25, h26, h27,
    h28, h29, -⟩ := hone
  have hw1 : ¬(0x260 ≤ a ∧ a < 0x264) := by omega
  have hw2 : ¬(0x264 ≤ a ∧ a < 0x268) := by omega
  have hm1 : ¬(0x600 ≤ a ∧ a < 0x630 ∧ a % 4 = 0) := by omega
  have hm2 : ¬(0x600 ≤ a ∧ a < 0x630 ∧ a % 4 = 1) := by omega
  have halarm : ¬(a = 0xA0A ∨ a = 0xA0B) := by omega
  simp only [writeAct, *]
  simp

/-- A frame of one word that does not act: what is stored, and NAND work that goes on. -/
theorem writeRegs_of_not (hden : wordDenied x p.val a v = false) (hact : actsAt a = false) {y : State × Bool}
    (hy : writeStore x x p.val a v = y) (hreqs : y.1.core.seq.reqs.length ≤ x.core.seq.reqs.length + 1) :
    writeRegs x p [(a, v)] = (nfcGoesOn a v y.1, if y.2 = true then 0x01 else 0x00) := by
  have hdo : ∀ z, writeAct x z p a v = (z, false) := fun z => writeAct_of_not hact
  simp only [actsAt, Bool.or_eq_false_iff, decide_eq_false_iff_not] at hact
  obtain ⟨⟨⟨⟨⟨⟨⟨⟨-, -⟩, hquota⟩, -⟩, -⟩, -⟩, -⟩, -⟩, hcvu⟩ := hact
  have hq : ∀ t, writeQuotas t [(a, v)] = (t, false) := fun t => by simp [writeQuotas, hquota]
  have hu : ∀ t, ∀ u ∈ upto 4, writeCvu t [(a, v)] u = (t, false) := fun t u hu => by
    have hu : u < 4 := List.mem_range.mp hu
    have hne : ∀ j < 3, (a == cvuA u j) = false := fun j hj => beq_false_of_ne (by rw [cvuA]; omega)
    simp [writeCvu, hne]
  have hfold : ∀ z : State × Bool, (upto 4).foldl (fun z u => let c := writeCvu z.1 [(a, v)] u; (c.1, z.2 || c.2)) z = z := fun z =>
    List.foldlRecOn (motive := fun w => w = z) (upto 4) _ rfl fun w hw u hmem => by simp [hw, hu z.1 u hmem]
  have hmerge : railMerge x.core.seq.reqs.length y.1 = y.1 := if_pos hreqs
  simp [writeRegs, hden, applyWrites, eachWord, hy, hq, hdo, hfold, hmerge, nfcGoesOn]

/-- The registers that act, one by one: those with an address of their own, and the rows of them. -/
theorem actsAt_ind {P : Nat → Prop} (h : actsAt a = true)
    (hone : ∀ a ∈ [0x40, 0x50, 0x52, 0x62, 0x274, 0xA03, 0xA04, 0xA0A, 0xA0B, 0xA15, 0xA19, 0xC80, 0xC81, 0xC85, 0xE05, 0x10A3, 0x1203,
      0x1278, 0x12B1, 0x1428, 0x142E, 0x1454, 0x1458, 0x1604, 0x1804, 0x1860, 0x1863, 0x2401, 0x2409], P a)
    (hpart : ∀ i < 0x70, actsAt (0x200 + i) = true → P (0x200 + i)) (hport : ∀ i < 0x40, actsAt (0x400 + i) = true → P (0x400 + i))
    (hmbx : ∀ i < 0x30, actsAt (0x600 + i) = true → P (0x600 + i)) (hage : ∀ i < 0x30, P (0x1060 + i))
    (hefl : ∀ i < 0x50, actsAt (0x1620 + i) = true → P (0x1620 + i)) (hcvu : ∀ i < 0x40, actsAt (0x2200 + i) = true → P (0x2200 + i)) :
    P a := by
  have hrow : ∀ {b n : Nat}, (∀ i < n, actsAt (b + i) = true → P (b + i)) → b ≤ a → a < b + n → P a := fun {b n} hr hlo hhi => by
    have hi := hr (a - b) (by omega)
    rw [Nat.add_sub_cancel' hlo] at hi
    exact hi h
  have hall := h
  simp only [actsAt, Bool.or_eq_true, decide_eq_true_eq, List.elem_eq_mem] at hall
  obtain (((((((hl | hl) | hl) | hl) | hl) | hl) | hl) | hl) | hl := hall
  · exact hone a hl
  · exact hrow hpart (by omega) (by omega)
  · exact hrow hpart (by omega) (by omega)
  · exact hrow hpart (by omega) (by omega)
  · exact hrow hport (by omega) (by omega)
  · exact hrow hmbx (by omega) (by omega)
  · exact hrow (b := 0x1060) (n := 0x30) (fun i hi _ => hage i hi) (by omega) (by omega)
  · exact hrow hefl (by omega) (by omega)
  · exact hrow hcvu (by omega) (by omega)

/-- The register has a field that a write to its primary address changes or acts on. -/
def takesWrites (a : Nat) : Bool := (regAt a).any fun r => r.fs.any fun g => g.acc != .ro && g.acc != .st

/-- Every word that acts is a register at a primary address with a field that is written. -/
theorem takesWrites_of_acts (h : actsAt a = true) : takesWrites a = true ∧ a % 0x200 < 0x100 :=
  actsAt_ind (P := fun a => takesWrites a = true ∧ a % 0x200 < 0x100) h (by decide) (by decide) (by decide) (by decide) (by decide)
    (by decide) (by decide)

/-- No reserved word acts (16 R433). -/
theorem actsAt_reserved (h : regAt a = none) : actsAt a = false := by
  by_contra hne
  have hw := (takesWrites_of_acts (Bool.eq_true_of_not_eq_false hne)).1
  simp [takesWrites, h] at hw

/-- No word at a staged address acts. -/
theorem actsAt_staged (h : isStaged a = true) : actsAt a = false := by
  have hst : 0x100 ≤ a % 0x200 ∧ a % 0x200 < 0x1C0 := of_decide_eq_true h
  by_contra hne
  have hp := (takesWrites_of_acts (Bool.eq_true_of_not_eq_false hne)).2
  omega

end Sys2Proof.Machine
end

section
/-! PROOFS. Chapters 00, 03, 04, 16: what a write of one register word stores, by the access codes of its fields (00 R16, 02 R60,
03 R88, 04 R103, R105, 16 R430-R433). -/

set_option Elab.async false

namespace Sys2Proof.Machine

variable {s x : State} {p : Part} {a : Nat} {r : RegSpec} {v : Word}

/-- Every field of the register is an RW field under the lock. -/
def Lockable (r : RegSpec) : Prop := ∀ f ∈ r.fs, f.acc = .rw ∧ f.lk = true

theorem accMask_all {t : FieldS → Bool} (h : ∀ f ∈ r.fs, t f = true) : accMask r t = fsMask r.fs := by
  rw [accMask, List.filter_eq_self.mpr h]

/-- The outcome of a write that something keeps: MASKED where a kept bit differs. -/
theorem maskedCode (w : Word) : (if (w != 0) = true then 0x01 else 0x00 : Nat) = if w = 0 then 0x00 else 0x01 := by
  by_cases h : w = 0 <;> simp [h]

/-- CFG and INIT of a check unit take writes. -/
theorem takesWrites_cvu {a : Nat} (h : 0x2200 ≤ a ∧ a < 0x2240) (hk : a % 16 = 3 ∨ a % 16 = 4) : takesWrites a = true := by
  have hall : ∀ u < 4, takesWrites (0x2203 + 16 * u) = true ∧ takesWrites (0x2204 + 16 * u) = true := by decide
  obtain ⟨h3, h4⟩ := hall ((a - 0x2200) / 16) (by omega)
  rcases hk with hk | hk
  · rwa [show a = 0x2203 + 16 * ((a - 0x2200) / 16) by omega]
  · rwa [show a = 0x2204 + 16 * ((a - 0x2200) / 16) by omega]

/-- A register without a field that a write changes keeps its value (00 R16). -/
theorem writeStore_readOnly (hreg : regAt a = some r) (hprim : a % 0x200 < 0x100) (hgood : badW x a = false)
    (hro : ∀ g ∈ r.fs, g.acc = .ro ∨ g.acc = .st) (q : Nat) :
    writeStore x x q a v = (x, (v ^^^ wordValue x q a) &&& fsMask r.fs != 0) := by
  have hcode : ∀ g ∈ r.fs, (g.acc == .ro || g.acc == .st) = true ∧ (g.acc == .rw) = false ∧ (g.acc == .w1c) = false := fun g hg => by
    rcases hro g hg with h | h <;> rw [h] <;> decide
  have hnot : takesWrites a = false := by
    simp only [takesWrites, hreg, Option.any_some, List.any_eq_false]
    intro g hg
    rcases hro g hg with h | h <;> rw [h] <;> decide
  have hrw : ∀ t : FieldS → Bool, accMask r (fun f => f.acc == .rw && t f) = 0 := fun t =>
    accMask_eq_zero fun g hg => by simp [(hcode g hg).2.1]
  have hw1c : accMask r (fun f => f.acc == .w1c) = 0 := accMask_eq_zero fun g hg => (hcode g hg).2.2
  have hkeep : ∀ t : FieldS → Bool, accMask r (fun f => f.acc == .ro || f.acc == .st || t f) = fsMask r.fs := fun t =>
    accMask_all fun g hg => by rw [(hcode g hg).1, Bool.true_or]
  have hheld : cvuHeld x a = false := by
    by_contra hne
    simp only [cvuHeld, Bool.not_eq_false, Bool.and_eq_true, Bool.or_eq_true, decide_eq_true_eq, beq_iff_eq] at hne
    rw [takesWrites_cvu hne.1.1 hne.1.2] at hnot
    cases hnot
  have hrep : cvuRepaired x a = x := by rw [cvuRepaired, if_neg (fun h => by simp [hgood] at h)]
  have hclear : clearBits x a (v &&& 0) = x := if_pos BitVec.and_zero
  simp only [writeStore, hreg, isStaged_of_primary hprim, Bool.false_eq_true, if_false, if_pos hprim, writePrimary, hrw, hkeep, hw1c,
    hheld, hrep, storeRw, if_true, hclear, Bool.or_false, ite_self]

/-- A lockable word keeps its value once the lock is set; the flag says whether the write differs. -/
theorem writeStore_lk_shut {q : Nat} (hreg : regAt a = some r) (ha : ordinaryAddr a) (hlk : Lockable r) (hlock : locked x = true) :
    writeStore x x q a v = (x, (v ^^^ wordValue x q a) &&& fsMask r.fs != 0) := by
  obtain ⟨hprim, hquota, hcvu, -⟩ := ha
  have hrw : accMask r (fun f => f.acc == .rw && (!f.lk || (q == 0 && !locked x))) = 0 :=
    accMask_eq_zero fun f hf => by simp [(hlk f hf).2, hlock]
  have hkeep : accMask r (fun f => f.acc == .ro || f.acc == .st || (f.lk && !(q == 0 && !locked x))) = fsMask r.fs :=
    accMask_all fun f hf => by simp [(hlk f hf).2, hlock]
  have hw1c : accMask r (fun f => f.acc == .w1c) = 0 := accMask_eq_zero fun f hf => by simp [(hlk f hf).1]
  have hclear : clearBits x a (v &&& 0) = x := if_pos BitVec.and_zero
  rw [writeStore_primary hreg (isStaged_of_primary hprim) hprim hquota hcvu hrw hkeep hw1c rfl]
  simp only [if_true, storeRw, hclear, Bool.or_false]

/-- A write frame of one word that does not act: what is stored, its outcome, and NAND work that goes on. -/
theorem instant_stored (hl : Listens s p) (seq : Byte) (hact : actsAt a = false) {g : State → State} {m : Bool}
    (hden : wordDenied (frameOpen s p seq 1) p.val a v = false)
    (hstore : writeStore (frameOpen s p seq 1) (frameOpen s p seq 1) p.val a v = (g (frameOpen s p seq 1), m))
    (hreqs : (g (frameOpen s p seq 1)).core.seq.reqs = (frameOpen s p seq 1).core.seq.reqs) :
    instant (whenCore fun s => writeFrame s p seq a [v]) s =
      .next (framed s p seq a 1 (if m = true then 0x01 else 0x00) fun y => nfcGoesOn a v (g y)) := by
  have hw := writeRegs_of_not hden hact hstore (by rw [hreqs]; exact Nat.le_succ _)
  refine instant_framed (f := fun y => nfcGoesOn a v (g y)) hl seq ?_
  generalize frameOpen s p seq 1 = x at hw ⊢
  exact hw

/-- A write of a reserved word keeps nothing (16 R433). -/
theorem instant_reserved (hl : Listens s p) (seq : Byte) (hnone : regAt a = none) :
    instant (whenCore fun s => writeFrame s p seq a [v]) s =
      .next (framed s p seq a 1 (if v = 0 then 0x00 else 0x01) fun y => nfcGoesOn a v y) := by
  rw [← maskedCode]
  exact instant_stored (g := id) hl seq (actsAt_reserved hnone) (by simp [wordDenied, hnone]) (by simp [writeStore, hnone]) rfl

/-- A write of a register whose value it cannot change. -/
theorem instant_kept (hl : Listens s p) (seq : Byte) (hact : actsAt a = false)
    (hden : wordDenied (frameOpen s p seq 1) p.val a v = false) {m : Word}
    (hstore : writeStore (frameOpen s p seq 1) (frameOpen s p seq 1) p.val a v =
      (frameOpen s p seq 1, (v ^^^ wordValue (frameOpen s p seq 1) p.val a) &&& m != 0)) :
    instant (whenCore fun s => writeFrame s p seq a [v]) s =
      .next (framed s p seq a 1 (if (v ^^^ wordValue (frameOpen s p seq 1) p.val a) &&& m = 0 then 0x00 else 0x01)
        fun y => nfcGoesOn a v y) := by
  rw [← maskedCode]
  exact instant_stored (g := id) hl seq hact hden hstore rfl

/-- The lockable words that O15 names: those of P0's that the lock holds, and the words of the ports' owners (04 R103). -/
def lockWords : List Nat :=
  [0x43, 0x53, 0x217, 0x218, 0x220, 0x221, 0x222, 0x223, 0x224, 0x225, 0x226, 0x270, 0x271, 0x272, 0x273, 0x401, 0x411, 0x421, 0x430]

/-- Those among them that a write by P0 takes whole. -/
def openWords : List Nat := [0x217, 0x218, 0x220, 0x221, 0x222, 0x223, 0x224, 0x225, 0x226, 0x270, 0x271, 0x272, 0x273]

theorem actsAt_lockWord : ∀ a ∈ lockWords, actsAt a = false := by decide

theorem lockable_lockWord (ha : a ∈ lockWords) (hreg : regAt a = some r) : Lockable r := by
  have hall : ∀ a ∈ lockWords, ((regAt a).all fun r => r.fs.all fun g => g.acc == .rw && g.lk) = true := by decide
  have h := hall a ha
  rw [hreg] at h
  simpa [Lockable] using h

theorem ordinaryAddr_lockWord (ha : a ∈ lockWords) : ordinaryAddr a := by
  have hall : ∀ a ∈ lockWords, a % 0x200 < 0x100 ∧ ¬(0x230 ≤ a ∧ a < 0x234) ∧ ¬(0x2200 ≤ a ∧ a < 0x2240) ∧ a ≠ 0x50 ∧ a ≠ 0x274 ∧
    a ≠ 0xC80 ∧ ¬(0x400 ≤ a ∧ a < 0x440 ∧ a % 16 = 6) := by decide
  exact hall a ha

theorem openWords_sub : ∀ a ∈ openWords, a ∈ lockWords := by decide

/-- These words are P0's alone, and they have bits. -/
theorem openWord_steward (ha : a ∈ openWords) (hreg : regAt a = some r) :
    r.fs ≠ [] ∧ (∀ g ∈ r.fs, g.own = .steward) ∧ severalRes r = false ∧ fsMask r.fs ≠ 0 := by
  have hall : ∀ a ∈ openWords, ((regAt a).all fun r => !r.fs.isEmpty && r.fs.all (fun g => g.own == .steward) && !severalRes r
    && fsMask r.fs != 0) = true := by decide
  have h := hall a ha
  rw [hreg] at h
  simpa [and_assoc] using h

/-- What they read is what they hold, and no description of theirs limits it. -/
theorem openWord_plain (ha : a ∈ openWords) (x : State) (q : Nat) :
    wordValue x q a = rd x a ∧ isAon a = false ∧ ¬(0x800 ≤ a ∧ a < 0x900) ∧ ¬(0x1858 ≤ a ∧ a < 0x1860) ∧ a ≠ 0x1864 ∧ a ≠ 0x1866 ∧
      ∀ w : Word, fixWord x a (rd x a) w = (w, false) := by
  have hrange : ∀ a ∈ openWords, isAon a = false ∧ ¬(0x800 ≤ a ∧ a < 0x900) ∧ ¬(0x1858 ≤ a ∧ a < 0x1860) ∧ a ≠ 0x1864 ∧ a ≠ 0x1866 := by
    decide
  obtain ⟨haon, hirq, hsub, hslot, hqsel⟩ := hrange a ha
  refine ⟨?_, haon, hirq, hsub, hslot, hqsel, fun w => ?_⟩
  · fin_cases ha <;> rfl
  · fin_cases ha <;> rfl

/-- A word of P0's under the lock, once the lock is set (04 R103). -/
theorem instant_locked (hl : Listens s p) (seq : Byte) (ha : a ∈ lockWords) (hreg : regAt a = some r)
    (hden : wordDenied (frameOpen s p seq 1) p.val a v = false) (hlock : locked (frameOpen s p seq 1) = true) :
    instant (whenCore fun s => writeFrame s p seq a [v]) s =
      .next (framed s p seq a 1 (if (v ^^^ wordValue (frameOpen s p seq 1) p.val a) &&& fsMask r.fs = 0 then 0x00 else 0x01)
        fun y => nfcGoesOn a v y) :=
  instant_kept hl seq (actsAt_lockWord a ha) hden
    (writeStore_lk_shut hreg (ordinaryAddr_lockWord ha) (lockable_lockWord ha hreg) hlock)

/-- The same word while the lock is not set takes the written bits. -/
theorem instant_unlocked (hl : Listens s p) (seq : Byte) (ha : a ∈ openWords) (hreg : regAt a = some r)
    (hden : wordDenied (frameOpen s p seq 1) p.val a v = false) (hlock : locked (frameOpen s p seq 1) = false) :
    instant (whenCore fun s => writeFrame s p seq a [v]) s =
      .next (framed s p seq a 1 0x00 fun y => nfcGoesOn a v (putReg y a (blend (rd s a) v (fsMask r.fs)))) := by
  have hmem := openWords_sub a ha
  have hlk := lockable_lockWord hmem hreg
  obtain ⟨hne, hown, hone, hmask⟩ := openWord_steward ha hreg
  have hp : p = 0 := by
    by_contra hp
    have hbad : ∀ g ∈ r.fs, writerOf (frameOpen s p seq 1) p.val g.own ≠ p.val := fun g hg h => by
      rw [hown g hg] at h
      exact hp (Fin.ext h.symm)
    rw [wordDenied_of_noField hreg hne hbad hone] at hden
    cases hden
  subst hp
  have hrd : rd (frameOpen s 0 seq 1) a = rd s a := (PortOnly.frameOpen 0 s seq 1).same fun x => rd x a
  obtain ⟨hval, haon, hirq, hsub, hslot, hqsel, hfix⟩ := openWord_plain ha (frameOpen s 0 seq 1) 0
  refine instant_framed (f := fun y => nfcGoesOn a v (putReg y a (blend (rd s a) v (fsMask r.fs)))) hl seq ?_
  rw [← hrd]
  generalize frameOpen s 0 seq 1 = x at *
  have hrw : accMask r (fun f => f.acc == .rw && (!f.lk || ((0 : Part).val == 0 && !locked x))) = fsMask r.fs :=
    accMask_all fun f hf => by simp [(hlk f hf).1, hlock]
  have hkeep : accMask r (fun f => f.acc == .ro || f.acc == .st || (f.lk && !((0 : Part).val == 0 && !locked x))) = 0 :=
    accMask_eq_zero fun f hf => by simp [(hlk f hf).1, hlock]
  have hw1c : accMask r (fun f => f.acc == .w1c) = 0 := accMask_eq_zero fun f hf => by simp [(hlk f hf).1]
  have hw := writeRegs_rw (v := v) hreg (ordinaryAddr_lockWord hmem) hden hrw hmask hkeep hw1c hval haon hirq hsub hslot hqsel (hfix _)
    fun z => writeAct_of_not (actsAt_lockWord a hmem)
  rw [hw, blend_blend]
  rfl

/-- The word that a write of a staged image's word by partition q would leave: the fields that it owns, and may write, changed. -/
def stagedNew (x : State) (q a : Nat) (r : RegSpec) (v : Word) : Word :=
  blend (rd x a) v (accMask r fun g => (!g.lk || (q == 0 && !locked x)) && writerOf x q g.own == q)

/-- A locked field of the word differs from what it keeps. -/
def stagedKept (x : State) (q a : Nat) (r : RegSpec) (v : Word) : Word :=
  (v ^^^ rd x a) &&& accMask r fun g => g.lk && !(q == 0 && !locked x)

/-- One word of a staged image is taken or refused whole (03 R88, 16 R430). -/
theorem writeStore_staged (hreg : regAt a = some r) (hst : isStaged a = true) (hl : a ≠ 0x1909) (hb : a ≠ 0x190D) (q : Nat) :
    writeStore x x q a v =
      if (v &&& ~~~(fsMask r.fs) != 0 && reservedRefused (a - 0x100)) = true then (x, true)
      else if stagedNew x q a r v = rd x a then (x, stagedKept x q a r v != 0)
      else if stagedOk x (a - 0x100) (stagedNew x q a r v) = true then (setR x a (stagedNew x q a r v), stagedKept x q a r v != 0)
      else (x, true) := by
  have hrange : 0x100 ≤ a % 0x200 ∧ a % 0x200 < 0x1C0 := of_decide_eq_true hst
  have hsmall : a < 0x2600 := by
    by_contra h
    rw [regAt, if_pos (by omega)] at hreg
    cases hreg
  have hof : stagedOf (a - 0x100) = a := by
    rw [stagedOf, if_pos (by omega)]
    omega
  simp only [writeStore, hreg, hst, if_true, writeStaged, if_neg hl, if_neg hb, hof]
  rfl

end Sys2Proof.Machine
end

section
/-! SUPPORT. Sound write frames of registers: they run as the write that they carry (02 R44, R53, R54, R59, R68, R69). -/

set_option Elab.async false

namespace Sys2Proof.Machine

variable {s x : State} {p : Part}

/-- The four bytes of a word give it back (02 R49). -/
theorem word_of_beBytes (w : Word) : BitVec.ofNat 32 (beNat (beBytes w)) = w := by
  refine BitVec.eq_of_toNat_eq ?_
  have hw := w.isLt
  have hb : ∀ k < 4, (BitVec.ofNat 8 (fld w (8 * k) 8)).toNat = w.toNat / 2 ^ (8 * k) % 256 := fun k hk => by
    rw [BitVec.toNat_ofNat, fld]
    omega
  have h0 := hb 0 (by decide)
  have h1 := hb 1 (by decide)
  have h2 := hb 2 (by decide)
  have h3 := hb 3 (by decide)
  simp only [Nat.mul_zero, Nat.reduceMul, Nat.reducePow] at h0 h1 h2 h3
  rw [BitVec.toNat_ofNat]
  simp only [beNat, beBytes, List.foldl_cons, List.foldl_nil, h0, h1, h2, h3]
  omega

/-- Words as bytes, and back. -/
theorem beWords_beBytes (ws : List Word) : beWords (ws.map beBytes).flatten = ws := by
  induction ws with
  | nil => rfl
  | cons w ws ih =>
    have hcons : beWords ((w :: ws).map beBytes).flatten = BitVec.ofNat 32 (beNat (beBytes w)) :: beWords (ws.map beBytes).flatten := rfl
    rw [hcons, ih, word_of_beBytes]

theorem length_beBytes (ws : List Word) : (ws.map beBytes).flatten.length = 4 * ws.length := by
  induction ws with
  | nil => rfl
  | cons w ws ih =>
    have hlen : ((w :: ws).map beBytes).flatten.length = 4 + (ws.map beBytes).flatten.length := by
      rw [List.map_cons, List.flatten_cons, List.length_append]
      rfl
    rw [hlen, ih, List.length_cons]
    omega

/-- The form of an opcode that writes registers (02 Table 2-3). -/
def WritesWords (o : OpForm) : Prop := o.bulk = false ∧ o.guard = false ∧ o.writes = true ∧ o.reads = false

/-- The header bytes of a frame of n units. -/
def hdrBytes (op seq : Byte) (a : BitVec 16) (n : Nat) : List Byte :=
  [op, seq, BitVec.ofNat 8 (a.toNat / 256), BitVec.ofNat 8 a.toNat, BitVec.ofNat 8 (n - 1)]

/-- A sound frame that carries these words. -/
def wordsFrame (s : State) (p : Part) (op seq : Byte) (a : BitVec 16) (n : Nat) (ws : List Word) (m3 : Bool) : Frame :=
  { soundWrite s p (hdrBytes op seq a n ++ (ws.map beBytes).flatten) with mode3 := m3 }

/-- Its header. -/
def wordsHdr (op seq : Byte) (a : BitVec 16) (n : Nat) : Hdr :=
  { op := op.toNat, seq := seq.toNat, addr := a.toNat, len := n - 1, bulk := false }

/-- The bytes of a sound write frame begin with the given ones. -/
theorem bytes_soundWrite (s : State) (p : Part) (bs : List Byte) :
    ∃ rest, (soundWrite s p bs).bytes = bs ++ rest ∧ rest.length = 2 + b2n (p == 3) := by
  unfold soundWrite
  dsimp only
  split
  next h3 =>
    subst h3
    exact ⟨_, List.append_assoc .., rfl⟩
  next h3 => exact ⟨_, rfl, by rw [beq_false_of_ne h3]; rfl⟩

theorem bytes_wordsFrame (s : State) (p : Part) (op seq : Byte) (a : BitVec 16) (n : Nat) (ws : List Word) (m3 : Bool) :
    ∃ rest, (wordsFrame s p op seq a n ws m3).bytes = hdrBytes op seq a n ++ ((ws.map beBytes).flatten ++ rest) ∧
      rest.length = 2 + b2n (p == 3) := by
  obtain ⟨rest, hbytes, hlen⟩ := bytes_soundWrite s p (hdrBytes op seq a n ++ (ws.map beBytes).flatten)
  exact ⟨rest, hbytes.trans (List.append_assoc ..), hlen⟩

theorem length_wordsFrame (s : State) (p : Part) (op seq : Byte) (a : BitVec 16) (n : Nat) (ws : List Word) (m3 : Bool) :
    (wordsFrame s p op seq a n ws m3).bytes.length = 7 + 4 * ws.length + b2n (p == 3) := by
  obtain ⟨rest, hbytes, hlen⟩ := bytes_wordsFrame s p op seq a n ws m3
  rw [hbytes, List.length_append, List.length_append, length_beBytes, hlen]
  have hhdr : (hdrBytes op seq a n).length = 5 := rfl
  omega

theorem port_wordsFrame (s : State) (p : Part) (op seq : Byte) (a : BitVec 16) (n : Nat) (ws : List Word) (m3 : Bool) :
    (wordsFrame s p op seq a n ws m3).port = p := by
  show (soundWrite s p _).port = p
  unfold soundWrite
  dsimp only
  split <;> rfl

/-- A field of a sound write frame that no byte decides. -/
theorem flags_wordsFrame (s : State) (p : Part) (op seq : Byte) (a : BitVec 16) (n : Nat) (ws : List Word) (m3 : Bool) :
    (wordsFrame s p op seq a n ws m3).noEdges = false ∧ (wordsFrame s p op seq a n ws m3).late = false ∧
      (wordsFrame s p op seq a n ws m3).partialByte = false ∧ (wordsFrame s p op seq a n ws m3).extra = false := by
  show (soundWrite s p _).noEdges = false ∧ (soundWrite s p _).late = false ∧ (soundWrite s p _).partialByte = false ∧
    (soundWrite s p _).extra = false
  unfold soundWrite
  dsimp only
  split <;> exact ⟨rfl, rfl, rfl, rfl⟩

/-- Its header is read from its bytes. -/
theorem frameHdr_wordsFrame {o : OpForm} (ho : o.bulk = false) (s y : State) (p : Part) (op seq : Byte) (a : BitVec 16) {n : Nat}
    (hn : n ≤ 256) (ws : List Word) (m3 : Bool) :
    frameHdr y (wordsFrame s p op seq a n ws m3) (some o) = wordsHdr op seq a n := by
  obtain ⟨rest, hbytes, -⟩ := bytes_wordsFrame s p op seq a n ws m3
  have hlen : (BitVec.ofNat 8 (n - 1)).toNat = n - 1 := by
    rw [BitVec.toNat_ofNat]
    omega
  have hget : ∀ i < 5, i < (wordsFrame s p op seq a n ws m3).bytes.length ∧
      nth (wordsFrame s p op seq a n ws m3).bytes i 0 = nth (hdrBytes op seq a n) i 0 := fun i hi => by
    rw [length_wordsFrame, hbytes]
    refine ⟨by omega, ?_⟩
    have hi' : i < (hdrBytes op seq a n).length := hi
    simp [nth, List.getD, List.getElem?_append_left hi']
  have hb : ∀ i k, i < 5 → (if i < (wordsFrame s p op seq a n ws m3).bytes.length then
      (nth (wordsFrame s p op seq a n ws m3).bytes i 0).toNat else free y (0x5000 + k) % 256) = (nth (hdrBytes op seq a n) i 0).toNat :=
    fun i k hi => by rw [if_pos (hget i hi).1, (hget i hi).2]
  have hdr : frameHdr y (wordsFrame s p op seq a n ws m3) (some o) =
      { op := (nth (hdrBytes op seq a n) 0 0).toNat, seq := (nth (hdrBytes op seq a n) 1 0).toNat,
        addr := 256 * (nth (hdrBytes op seq a n) 2 0).toNat + (nth (hdrBytes op seq a n) 3 0).toNat,
        len := (nth (hdrBytes op seq a n) 4 0).toNat, bulk := false } := by
    simp only [frameHdr, ho, hb _ _ (show 0 < 5 by decide), hb _ _ (show 1 < 5 by decide), hb _ _ (show 2 < 5 by decide),
      hb _ _ (show 3 < 5 by decide), hb _ _ (show 4 < 5 by decide)]
    rfl
  have haddr : 256 * (nth (hdrBytes op seq a n) 2 0).toNat + (nth (hdrBytes op seq a n) 3 0).toNat = a.toNat := address_of_bytes a
  have hlast : (nth (hdrBytes op seq a n) 4 0).toNat = n - 1 := hlen
  rw [hdr, haddr, hlast]
  rfl

/-- On SP every byte of a sound write frame is acknowledged (02 R69). -/
theorem spAcks_write {f : Frame} {o : OpForm} {h : Hdr} {need : Nat} (hop : opForm (nth f.bytes 0 0).toNat = some o)
    (hh : frameHdr x f (some o) = h) (ho : o.writes = true) (hneed : o.hostLen (h.len + 1) = need) (hlen : f.bytes.length = need + 1)
    (hhdr : o.hdrLen ≤ need) (hrange : rangeBad o h.addr h.len = false) (hcrc : requestCrcOk f need = true)
    (hpec : pecOk x f need = true) : spAcks x f = List.replicate (need + 1) true := by
  have hff : (nth f.bytes 0 0).toNat ≠ 0xFF := fun h => by
    rw [h] at hop
    cases hop
  have hall : (upto (need + 1)).map (fun i => decide (i < need + 1)) = List.replicate (need + 1) true :=
    List.eq_replicate_iff.2 ⟨by rw [List.length_map]; exact List.length_range, fun b hb => by
      obtain ⟨i, hi, rfl⟩ := List.mem_map.1 hb
      exact decide_eq_true (List.mem_range.1 hi)⟩
  simp only [spAcks, if_neg hff, hop, hh, ho, hneed, hlen, if_neg (show ¬need + 1 < o.hdrLen by omega), hrange, hcrc, hpec,
    Bool.false_eq_true, if_false, if_true, Bool.and_self, hall]

/-- The clock mode that port p holds of a frame in mode m. -/
def withMode (s : State) (p : Part) (m : Bool) : State := modPort s p.val fun q => { q with mode3 := decide (p.val < 3) && m }

/-- The port as a frame finds it does not depend on the clock mode that it holds. -/
theorem portBegin_withMode (hlen : s.core.ports.length = 4) (p : Part) (m : Bool) :
    portBegin (withMode s p m) p.val (nth (withMode s p m).core.ports p.val {}).mode3 = portBegin s p.val m := by
  have hmode : (nth (withMode s p m).core.ports p.val {}).mode3 = (decide (p.val < 3) && m) :=
    congrArg PortSt.mode3 (portOf_modPort s p _ hlen)
  have htwice : (decide (p.val < 3) && (decide (p.val < 3) && m)) = (decide (p.val < 3) && m) := by
    rw [← Bool.and_assoc, Bool.and_self]
  rw [hmode]
  unfold portBegin withMode modPort
  dsimp only [modC]
  rw [upd_upd, htwice]
  rfl

/-- A frame with no fault has a PEC that matches where it needs one (02 R68). -/
theorem pecOk_of_checkOutcome_none {f : Frame} {o : OpForm} {need : Nat} (h : checkOutcome x f o need = none) (hp : f.port = 3)
    (ho : o.writes = true) : pecOk x f need = true := by
  unfold checkOutcome at h
  dsimp only at h
  split at h
  · cases h
  split at h
  · cases h
  split at h
  · cases h
  next hno => simpa [hp, ho] using hno

/-- A sound write frame has no fault, whatever its port has received of it. -/
theorem checkOutcome_wordsFrame {o : OpForm} (ho : WritesWords o) (hx : PortOnly p s x) (op seq : Byte) (a : BitVec 16) (n : Nat)
    (ws : List Word) (m3 : Bool) : checkOutcome x (wordsFrame s p op seq a n ws m3) o (7 + 4 * ws.length) = none := by
  have hsame : soundWrite s p (hdrBytes op seq a n ++ (ws.map beBytes).flatten) = soundWrite x p (hdrBytes op seq a n ++ (ws.map beBytes).flatten) := by
    have hself : selfId x = selfId s := hx.same selfId
    simp only [soundWrite, hself]
  obtain ⟨-, -, hpart, hextra⟩ := flags_wordsFrame s p op seq a n ws m3
  have hlen : (hdrBytes op seq a n ++ (ws.map beBytes).flatten).length + 2 = 7 + 4 * ws.length := by
    rw [List.length_append, length_beBytes]
    have hhdr : (hdrBytes op seq a n).length = 5 := rfl
    omega
  have hbytes : (wordsFrame s p op seq a n ws m3).bytes = (soundWrite x p (hdrBytes op seq a n ++ (ws.map beBytes).flatten)).bytes := by
    rw [← hsame]
    rfl
  rw [← hlen]
  exact checkOutcome_write ho.2.2.1 (port_wordsFrame ..) hbytes hpart hextra

/-- What a sound frame of words needs of its form: each unit has its words, and the frame is no longer than it may be. -/
structure FitsForm (o : OpForm) (op : Byte) (a : BitVec 16) (n : Nat) (ws : List Word) : Prop where
  form : opForm op.toNat = some o
  words : WritesWords o
  acts : op ≠ 0
  some : 1 ≤ n
  units : o.unit * n = 4 * ws.length
  most : n ≤ o.lenMax + 1
  small : n ≤ 64
  last : a.toNat + n ≤ 65536

theorem FitsForm.hostLen {o : OpForm} {op : Byte} {a : BitVec 16} {n : Nat} {ws : List Word} (h : FitsForm o op a n ws) (seq : Byte) :
    o.hostLen ((wordsHdr op seq a n).len + 1) = 7 + 4 * ws.length := by
  obtain ⟨hbulk, hguard, -, -⟩ := h.words
  have hn : n - 1 + 1 = n := Nat.sub_add_cancel h.some
  have hunits := h.units
  simp only [wordsHdr, OpForm.hostLen, OpForm.hdrLen, hbulk, hguard, Bool.and_false, Bool.false_eq_true, if_false, hn, hunits]
  omega

theorem FitsForm.inRange {o : OpForm} {op : Byte} {a : BitVec 16} {n : Nat} {ws : List Word} (h : FitsForm o op a n ws) (seq : Byte) :
    rangeBad o (wordsHdr op seq a n).addr (wordsHdr op seq a n).len = false := by
  obtain ⟨hbulk, -, -, -⟩ := h.words
  have hmost := h.most
  have hlast := h.last
  have hsome := h.some
  have h1 : ¬o.lenMax < n - 1 := by omega
  have h2 : ¬0xFFFF < a.toNat + (n - 1) := by omega
  simp [rangeBad, wordsHdr, hbulk, h1, h2]

/-- The port as the frame finds it, once its response stands: the port that the write opens. -/
theorem received_wordsFrame (hl : Listens s p) {o : OpForm} {op : Byte} {a : BitVec 16} {n : Nat} {ws : List Word} (h : FitsForm o op a n ws)
    (seq : Byte) (m3 : Bool) :
    (if p ≠ 3 then modPort (received s (wordsFrame s p op seq a n ws m3)) p.val fun q => { q with
        resp := response (received s (wordsFrame s p op seq a n ws m3)) p.val seq.toNat
          (reducedFlag (received s (wordsFrame s p op seq a n ws m3))) [] true (wordsFrame s p op seq a n ws m3).bytes }
      else received s (wordsFrame s p op seq a n ws m3)) = frameOpen (withMode s p m3) p seq ws.length := by
  have hport := port_wordsFrame s p op seq a n ws m3
  have hmode : (wordsFrame s p op seq a n ws m3).mode3 = m3 := rfl
  have hbegin := portBegin_withMode hl.fourPorts p m3
  by_cases h3 : p = 3
  · subst h3
    have hx : PortOnly 3 s (portBegin s (3 : Part).val m3) := PortOnly.portBegin 3 s m3
    have hfit := checkOutcome_wordsFrame h.words hx op seq a n ws m3
    have hop : opForm (nth (wordsFrame s 3 op seq a n ws m3).bytes 0 0).toNat = some o := h.form
    have hacks : spAcks (portBegin s (3 : Part).val m3) (wordsFrame s 3 op seq a n ws m3) = List.replicate (7 + 4 * ws.length + 1) true :=
      spAcks_write hop (frameHdr_wordsFrame h.words.1 s _ 3 op seq a (le_trans h.small (by decide)) ws m3) h.words.2.2.1 (h.hostLen seq)
        (length_wordsFrame s 3 op seq a n ws m3) (by rw [OpForm.hdrLen, h.words.1]; simp; omega) (h.inRange seq)
        (whole_of_checkOutcome_none hfit).2 (pecOk_of_checkOutcome_none hfit hport h.words.2.2.1)
    have hcount : 8 + 4 * ws.length = 7 + 4 * ws.length + 1 := by omega
    rw [if_neg (fun h => h rfl), frameOpen, hbegin, if_pos rfl, hcount, ← hacks]
    unfold received
    rw [hport, hmode]
    exact if_pos rfl
  · have hv : p.val ≠ 3 := fun h => h3 (Fin.ext h)
    have hrec : received s (wordsFrame s p op seq a n ws m3) = portBegin s p.val m3 := by
      unfold received
      rw [hport, hmode]
      exact if_neg hv
    rw [if_pos h3, hrec, frameOpen, hbegin, if_neg h3]
    simp only [response, if_neg hv]

/-- A sound frame of words runs as the write that it carries (02 R54, R59). -/
theorem evalFrame_words (hl : Listens s p) {o : OpForm} {op : Byte} {a : BitVec 16} {n : Nat} {ws : List Word} (h : FitsForm o op a n ws)
    (seq : Byte) (m3 : Bool) :
    evalFrame s (wordsFrame s p op seq a n ws m3) =
      frameEnd (writeRegs (frameOpen (withMode s p m3) p seq ws.length) p (frameWrites (frameOpen (withMode s p m3) p seq ws.length) p.val
          (wordsHdr op seq a n) (ws.map beBytes).flatten)).1 p.val (wordsHdr op seq a n)
        (writeRegs (frameOpen (withMode s p m3) p seq ws.length) p (frameWrites (frameOpen (withMode s p m3) p seq ws.length) p.val
          (wordsHdr op seq a n) (ws.map beBytes).flatten)).2 (7 + 4 * ws.length + b2n (p == 3)) := by
  have hport := port_wordsFrame s p op seq a n ws m3
  have hrec := PortOnly.received s hport
  have hopen := received_wordsFrame hl h seq m3
  obtain ⟨hedges, hlate, -, -⟩ := flags_wordsFrame s p op seq a n ws m3
  obtain ⟨rest, hbytes, hrest⟩ := bytes_wordsFrame s p op seq a n ws m3
  have hlen := length_wordsFrame s p op seq a n ws m3
  have hfit := checkOutcome_wordsFrame h.words hrec op seq a n ws m3
  obtain ⟨hwhole, hcrc⟩ := whole_of_checkOutcome_none hfit
  obtain ⟨hbulk, hguard, hw, hr⟩ := h.words
  have hhdr := frameHdr_wordsFrame hbulk s (received s (wordsFrame s p op seq a n ws m3)) p op seq a (le_trans h.small (by decide)) ws m3
  have hlen5 : o.hdrLen = 5 := by rw [OpForm.hdrLen, hbulk]; rfl
  have hop : opForm (nth (wordsFrame s p op seq a n ws m3).bytes 0 0).toNat = some o := by
    have hfirst : nth (wordsFrame s p op seq a n ws m3).bytes 0 0 = op := by rw [hbytes]; rfl
    rw [hfirst]
    exact h.form
  have hok : headerOutcome (wordsFrame s p op seq a n ws m3) (some o) (wordsHdr op seq a n) = none := by
    have hne : (wordsFrame s p op seq a n ws m3).bytes ≠ [] := fun c => by rw [c] at hlen; simp at hlen; omega
    have hact : (wordsHdr op seq a n).op ≠ 0 := fun c => h.acts (BitVec.eq_of_toNat_eq c)
    simp only [headerOutcome, if_neg hne, hlen5, if_neg (show ¬(wordsFrame s p op seq a n ws m3).bytes.length < 5 by omega), h.inRange seq,
      Bool.false_eq_true, if_false, hact, false_and]
  have hbody : (((wordsFrame s p op seq a n ws m3).bytes.drop 5).take (7 + 4 * ws.length - 5 - 2)) = (ws.map beBytes).flatten := by
    have hdrop : (wordsFrame s p op seq a n ws m3).bytes.drop 5 = (ws.map beBytes).flatten ++ rest := by
      rw [hbytes]
      rfl
    have hcount : 7 + 4 * ws.length - 5 - 2 = (ws.map beBytes).flatten.length := by
      rw [length_beBytes]
      omega
    rw [hdrop, hcount, List.take_left']
    rfl
  have hsends : responds (wordsFrame s p op seq a n ws m3) o (7 + 4 * ws.length) = decide (p ≠ 3) := by
    rw [responds, hport, hw, decide_eq_true hwhole]
    by_cases h3 : p = 3 <;> simp [h3]
  rw [evalFrame_known hedges hop hhdr hok]
  generalize hxs : received s (wordsFrame s p op seq a n ws m3) = x at *
  have hlx := hrec.listens hl
  have hseq : (wordsHdr op seq a n).seq = seq.toNat := rfl
  simp only [frameRun, hport, h.hostLen seq, hsends, hbulk, hr, hw, hlx.notInReset, hfit, frameRead, hcrc, Bool.false_eq_true, if_false,
    Bool.not_false, Bool.true_or, Bool.false_and, if_true, hlate, hlen5, hbody, hostBytes, hlen, decide_eq_true_eq, beq_self_eq_true,
    Bool.and_self, Nat.zero_add, hseq, hopen, frameWrite]

end Sys2Proof.Machine
end

section
/-! PROOFS. Chapters 00, 02, 04: the write frames, and the writes of one word (02 R54, R59, R60, 04 R105, R117, R118). -/

set_option Elab.async false

namespace Sys2Proof.Machine

variable {s x : State} {p : Part} {a : Nat} {r : RegSpec} {v : Word}

/-- A sound WR frame is the write of its words at consecutive addresses (02 R54). -/
theorem wr_writes (hl : Listens s p) (seq : Byte) {a : BitVec 16} {vs : List Word} (m3 : Bool) (h1 : 1 ≤ vs.length) (h64 : vs.length ≤ 64)
    (hlast : a.toNat + vs.length ≤ 65536) :
    exec (.wr (wordsFrame s p 0x02 seq a vs.length vs m3)) s = .next (settle (writeFrame (withMode s p m3) p seq a.toNat vs)) := by
  have hfit : FitsForm { lenMax := 0x3F, bulk := false, unit := 4, guard := false, writes := true, reads := false } 0x02 a vs.length vs :=
    ⟨rfl, ⟨rfl, rfl, rfl, rfl⟩, by decide, h1, rfl, h64, h64, hlast⟩
  have hexec : exec (.wr (wordsFrame s p 0x02 seq a vs.length vs m3)) s = .next (settle (evalFrame s (wordsFrame s p 0x02 seq a vs.length vs m3))) :=
    instant_core _ hl.up
  have hin : inReset (frameOpen (withMode s p m3) p seq vs.length) p.val = false := by
    have hopen := PortOnly.frameOpen p (withMode s p m3) seq vs.length
    exact (hopen.listens (listens_modPort _ _ hl)).notInReset
  have hop : ¬(wordsHdr 0x02 seq a vs.length).op = 0x03 := show ¬(2 : Nat) = 3 by decide
  rw [hexec, evalFrame_words hl hfit seq m3, frameWrites, beWords_beBytes, if_neg hop, writeFrame]
  simp only [hin, Bool.false_eq_true, if_false]
  rfl

/-- A sound WRM frame is the write of its pairs (02 R54). -/
theorem wrm_writes (hl : Listens s p) (seq : Byte) {a : BitVec 16} {n : Nat} {ws : List Word} (m3 : Bool) (h1 : 1 ≤ n) (h32 : n ≤ 32)
    (hlast : a.toNat + n ≤ 65536) (hws : ws.length = 2 * n) :
    exec (.wrm (wordsFrame s p 0x03 seq a n ws m3)) s =
      .next (settle (frameEnd
        (writeRegs (frameOpen (withMode s p m3) p seq (2 * n)) p (wrmWrites (frameOpen (withMode s p m3) p seq (2 * n)) p.val a.toNat ws)).1
        p.val (wordsHdr 0x03 seq a n)
        (writeRegs (frameOpen (withMode s p m3) p seq (2 * n)) p (wrmWrites (frameOpen (withMode s p m3) p seq (2 * n)) p.val a.toNat ws)).2
        (7 + 8 * n + b2n (p == 3)))) := by
  have hfit : FitsForm { lenMax := 0x1F, bulk := false, unit := 8, guard := false, writes := true, reads := false } 0x03 a n ws :=
    ⟨rfl, ⟨rfl, rfl, rfl, rfl⟩, by decide, h1, by rw [hws]; show 8 * n = 4 * (2 * n); omega, h32, by omega, hlast⟩
  have hexec : exec (.wrm (wordsFrame s p 0x03 seq a n ws m3)) s = .next (settle (evalFrame s (wordsFrame s p 0x03 seq a n ws m3))) :=
    instant_core _ hl.up
  have hcount : 4 * (2 * n) = 8 * n := by omega
  rw [hexec, evalFrame_words hl hfit seq m3, frameWrites, beWords_beBytes, if_pos (by rfl), hws, hcount]
  rfl

/-- The pairs of a WRM frame, one after the other. -/
theorem length_pairs {ms vs : List Word} (h : ms.length = vs.length) :
    ((ms.zip vs).map fun e => [e.1, e.2]).flatten.length = 2 * vs.length := by
  induction ms generalizing vs with
  | nil =>
    rw [← h]
    rfl
  | cons m ms ih =>
    cases vs with
    | nil => cases h
    | cons v vs =>
      have hcons : (((m :: ms).zip (v :: vs)).map fun e => [e.1, e.2]).flatten.length = 2 + ((ms.zip vs).map fun e => [e.1, e.2]).flatten.length := by
        rw [List.zip_cons_cons, List.map_cons, List.flatten_cons, List.length_append]
        rfl
      rw [hcons, ih (Nat.succ.inj h), List.length_cons]
      omega

/-- The bytes of lists of words, list by list. -/
theorem bytes_pairs (ps : List (List Word)) : (ps.map fun e => (e.map beBytes).flatten).flatten = (ps.flatten.map beBytes).flatten := by
  induction ps with
  | nil => rfl
  | cons e ps ih => simp [ih]

/-- A word of one RW field of a resource's owner: its writes are taken whole, and those of others are refused (04 R105). -/
theorem instant_ownedWord (hl : Listens s p) (seq : Byte) {m : Word} {res : Res} (hreg : regAt a = some { fs := [fRw m (.owner res) (some res)] })
    (ha : ordinaryAddr a) (hact : actsAt a = false) (hm : m ≠ 0) (hval : ∀ x : State, ∀ q, wordValue x q a = rd x a)
    (haon : isAon a = false) (hirq : ¬(0x800 ≤ a ∧ a < 0x900)) (hsub : ¬(0x1858 ≤ a ∧ a < 0x1860)) (hslot : a ≠ 0x1864)
    (hqsel : a ≠ 0x1866) (hnfc : touchesNfc [(a, v)] = false) (hfix : ∀ (x : State) (w : Word), fixWord x a (rd x a) w = (w, false)) :
    (ownerN s res = p.val → instant (whenCore fun s => writeFrame s p seq a [v]) s =
      .next (framed s p seq a 1 0x00 fun y => putReg y a (blend (rd s a) v m))) ∧
    (ownerN s res ≠ p.val → instant (whenCore fun s => writeFrame s p seq a [v]) s = .next (deniedAt s p seq a 1)) := by
  have hopen := PortOnly.frameOpen p s seq 1
  have hown : ownerN (frameOpen s p seq 1) res = ownerN s res := hopen.same fun x => ownerN x res
  have hrd : rd (frameOpen s p seq 1) a = rd s a := hopen.same fun x => rd x a
  refine ⟨fun howner => ?_, fun howner => ?_⟩
  · refine instant_framed (f := fun y => putReg y a (blend (rd s a) v m)) hl seq ?_
    rw [← hrd]
    have hmine : ∀ f ∈ [fRw m (.owner res) (some res)], writerOf (frameOpen s p seq 1) p.val f.own = p.val :=
      List.forall_mem_singleton.2 (hown.trans howner)
    generalize frameOpen s p seq 1 = x at *
    have hden : wordDenied x p.val a v = false := wordDenied_ordinary hreg ha hmine
    have hw := writeRegs_rw hreg ha hden (accMask_one (m := m) rfl rfl) hm (accMask_none rfl) (accMask_none rfl) (hval x p.val) haon hirq hsub hslot hqsel
      (hfix x _) fun z => writeAct_of_not hact
    rw [hw, blend_blend, nfcGoesOn_of_not hnfc]
    rfl
  · have hbad : ∀ f ∈ [fRw m (.owner res) (some res)], writerOf (frameOpen s p seq 1) p.val f.own ≠ p.val :=
      List.forall_mem_singleton.2 fun h => howner (hown.symm.trans h)
    exact instant_denied hl seq (wordDenied_of_noField hreg (List.cons_ne_nil _ _) hbad (by simp [severalRes]))

/-- The demand of a flow channel belongs to the channel's owner (07 R206). -/
theorem instant_flwTarget (hl : Listens s p) (seq : Byte) (n : Fin 6) :
    (ownerN s (.flow n.val) = p.val → instant (whenCore fun s => writeFrame s p seq (0x1005 + 0x10 * n.val) [v]) s =
      .next (framed s p seq (0x1005 + 0x10 * n.val) 1 0x00 fun y =>
        putReg y (0x1005 + 0x10 * n.val) (blend (rd s (0x1005 + 0x10 * n.val)) v 0xFFFF))) ∧
    (ownerN s (.flow n.val) ≠ p.val → instant (whenCore fun s => writeFrame s p seq (0x1005 + 0x10 * n.val) [v]) s =
      .next (deniedAt s p seq (0x1005 + 0x10 * n.val) 1)) := by
  have hn := n.isLt
  have hreg : regAt (0x1005 + 0x10 * n.val) = some { fs := [fRw 0xFFFF (.owner (.flow n.val)) (some (.flow n.val))] } := by
    fin_cases n <;> rfl
  have hval : ∀ (x : State) (q : Nat), wordValue x q (0x1005 + 0x10 * n.val) = rd x (0x1005 + 0x10 * n.val) := fun x q => by
    fin_cases n <;> rfl
  have hfix : ∀ (x : State) (w : Word), fixWord x (0x1005 + 0x10 * n.val) (rd x (0x1005 + 0x10 * n.val)) w = (w, false) := fun x w => by
    fin_cases n <;> rfl
  have hact : actsAt (0x1005 + 0x10 * n.val) = false := by fin_cases n <;> rfl
  have haon : isAon (0x1005 + 0x10 * n.val) = false := by fin_cases n <;> rfl
  have hnfc : touchesNfc [(0x1005 + 0x10 * n.val, v)] = false := by fin_cases n <;> rfl
  have ha : ordinaryAddr (0x1005 + 0x10 * n.val) := ⟨by omega, by omega, by omega, by omega, by omega, by omega, by omega⟩
  exact instant_ownedWord hl seq hreg ha hact (by decide) hval haon (by omega) (by omega) (by omega) (by omega) hnfc hfix

/-- The address of a setup flash channel belongs to the channel's owner (11 R309). -/
theorem instant_eflAddr (hl : Listens s p) (seq : Byte) (c : Fin 8) :
    (ownerN s (.sfr c.val) = p.val → instant (whenCore fun s => writeFrame s p seq (0x1628 + 8 * c.val) [v]) s =
      .next (framed s p seq (0x1628 + 8 * c.val) 1 0x00 fun y =>
        putReg y (0x1628 + 8 * c.val) (blend (rd s (0x1628 + 8 * c.val)) v 0x1FFFFF))) ∧
    (ownerN s (.sfr c.val) ≠ p.val → instant (whenCore fun s => writeFrame s p seq (0x1628 + 8 * c.val) [v]) s =
      .next (deniedAt s p seq (0x1628 + 8 * c.val) 1)) := by
  have hc := c.isLt
  have hreg : regAt (0x1628 + 8 * c.val) = some { fs := [fRw 0x1FFFFF (.owner (.sfr c.val)) (some (.sfr c.val))] } := by
    fin_cases c <;> rfl
  have hval : ∀ (x : State) (q : Nat), wordValue x q (0x1628 + 8 * c.val) = rd x (0x1628 + 8 * c.val) := fun x q => by
    fin_cases c <;> rfl
  have hfix : ∀ (x : State) (w : Word), fixWord x (0x1628 + 8 * c.val) (rd x (0x1628 + 8 * c.val)) w = (w, false) := fun x w => by
    fin_cases c <;> rfl
  have hact : actsAt (0x1628 + 8 * c.val) = false := by fin_cases c <;> rfl
  have haon : isAon (0x1628 + 8 * c.val) = false := by fin_cases c <;> rfl
  have hnfc : touchesNfc [(0x1628 + 8 * c.val, v)] = false := by fin_cases c <;> rfl
  have ha : ordinaryAddr (0x1628 + 8 * c.val) := ⟨by omega, by omega, by omega, by omega, by omega, by omega, by omega⟩
  exact instant_ownedWord hl seq hreg ha hact (by decide) hval haon (by omega) (by omega) (by omega) (by omega) hnfc hfix

/-- Clearing pending bits by a write of their word (04 R117). -/
theorem writeStore_irqPend (x : State) (q : Part) (h : Fin 2) :
    writeStore x x q.val (0x800 + 0x40 * q.val + h.val) v = (if v = 0 then x else modIrq x q.val fun i =>
      { i with pend := putHalf i.pend h.val (BitVec.ofNat 32 (fld i.pend (32 * h.val) 32) &&& ~~~v) }, false) := by
  have hall : v &&& allBits = v := BitVec.and_allOnes
  have hreg : regAt (0x800 + 0x40 * q.val + h.val) = some { fs := [fW1c allBits (.part q.val)] } := by fin_cases q <;> fin_cases h <;> rfl
  have hq := q.isLt
  have hh := h.isLt
  rw [writeStore_primary hreg (isStaged_of_primary (by omega)) (by omega) (by omega) (by omega) (accMask_none rfl) (accMask_none rfl)
    (accMask_one (m := allBits) rfl rfl) rfl]
  have hzero : ∀ w : Word, w &&& 0 = 0 := fun w => BitVec.and_zero
  have hidx : (0x800 + 0x40 * q.val + h.val - 0x800) / 64 = q.val := by omega
  have hhalf : (0x800 + 0x40 * q.val + h.val) % 64 = h.val := by omega
  have hirq : 0x800 ≤ 0x800 + 0x40 * q.val + h.val ∧ 0x800 + 0x40 * q.val + h.val < 0x900 := by omega
  simp only [if_true, storeRw, clearBits, hall, hzero, hidx, hhalf, if_pos hirq]
  rfl

/-- The pending bits are cleared by their own partition, and by no other (04 R117, R118). -/
theorem instant_irqPend (hl : Listens s p) (seq : Byte) (q : Part) (h : Fin 2) :
    (p = q → instant (whenCore fun s => writeFrame s p seq (0x800 + 0x40 * q.val + h.val) [v]) s =
      .next (framed s p seq (0x800 + 0x40 * q.val + h.val) 1 0x00 fun y => if v = 0 then y else modIrq y q.val fun i =>
        { i with pend := putHalf i.pend h.val (BitVec.ofNat 32 (fld i.pend (32 * h.val) 32) &&& ~~~v) })) ∧
    (p ≠ q → instant (whenCore fun s => writeFrame s p seq (0x800 + 0x40 * q.val + h.val) [v]) s =
      .next (deniedAt s p seq (0x800 + 0x40 * q.val + h.val) 1)) := by
  have hreg : regAt (0x800 + 0x40 * q.val + h.val) = some { fs := [fW1c allBits (.part q.val)] } := by fin_cases q <;> fin_cases h <;> rfl
  refine ⟨fun hpq => ?_, fun hpq => ?_⟩
  · subst hpq
    have hp := p.isLt
    have hh := h.isLt
    have hact : actsAt (0x800 + 0x40 * p.val + h.val) = false := by fin_cases p <;> fin_cases h <;> rfl
    have hnfc : touchesNfc [(0x800 + 0x40 * p.val + h.val, v)] = false := by fin_cases p <;> fin_cases h <;> rfl
    have ha : ordinaryAddr (0x800 + 0x40 * p.val + h.val) := ⟨by omega, by omega, by omega, by omega, by omega, by omega, by omega⟩
    have hmine : ∀ f ∈ [fW1c allBits (.part p.val)], writerOf (frameOpen s p seq 1) p.val f.own = p.val := List.forall_mem_singleton.2 rfl
    refine instant_framed (f := fun y => if v = 0 then y else modIrq y p.val fun i =>
      { i with pend := putHalf i.pend h.val (BitVec.ofNat 32 (fld i.pend (32 * h.val) 32) &&& ~~~v) }) hl seq ?_
    have hden : wordDenied (frameOpen s p seq 1) p.val (0x800 + 0x40 * p.val + h.val) v = false := wordDenied_ordinary hreg ha hmine
    generalize frameOpen s p seq 1 = x at hden ⊢
    rw [writeRegs_of_not hden hact (writeStore_irqPend x p h) (by split <;> exact Nat.le_succ _), nfcGoesOn_of_not hnfc]
    rfl
  · exact instant_denied hl seq (wordDenied_of_noField hreg (List.cons_ne_nil _ _)
      (List.forall_mem_singleton.2 fun h => hpq (Fin.ext h.symm)) (by simp [severalRes]))

/-- Staged images are not of PART, nor of the windows of NFC (16 R430). -/
theorem touchesNfc_staged (hreg : regAt a = some r) (hst : isStaged a = true) : touchesNfc [(a, v)] = false := by
  have hrange : 0x100 ≤ a % 0x200 ∧ a % 0x200 < 0x1C0 := of_decide_eq_true hst
  have hpart : ¬(0x200 ≤ a ∧ a < 0x400) := fun h => by
    have hall : ∀ i < 12, ∀ o < 16, regAt (0x300 + (16 * i + o)) = none := by decide
    have hnone := hall ((a - 0x300) / 16) (by omega) ((a - 0x300) % 16) (by omega)
    rw [Nat.div_add_mod, Nat.add_sub_cancel' (by omega), hreg] at hnone
    cases hnone
  simp only [touchesNfc, List.any_cons, List.any_nil, Bool.or_false, Bool.or_eq_false_iff, decide_eq_false_iff_not, beq_eq_false_iff_ne]
  exact ⟨⟨hpart, by omega⟩, by omega⟩

/-- A write of one word of a staged image. -/
theorem instant_staged (hl : Listens s p) (seq : Byte) (hreg : regAt a = some r) (hst : isStaged a = true)
    (hden : wordDenied (frameOpen s p seq 1) p.val a v = false) {g : State → State} {m : Bool}
    (hstore : writeStore (frameOpen s p seq 1) (frameOpen s p seq 1) p.val a v = (g (frameOpen s p seq 1), m))
    (hreqs : (g (frameOpen s p seq 1)).core.seq.reqs = (frameOpen s p seq 1).core.seq.reqs) :
    instant (whenCore fun s => writeFrame s p seq a [v]) s = .next (framed s p seq a 1 (if m = true then 0x01 else 0x00) g) := by
  have h := instant_stored hl seq (actsAt_staged hst) hden hstore hreqs
  simpa only [nfcGoesOn_of_not (touchesNfc_staged hreg hst)] using h

/-- Settles O15: a frame of words runs as its write, and a write of one word goes by the class of the register at its address. -/
theorem writeFrameIsTheWriteItCarries : Obligations.WriteFrameIsTheWriteItCarries := by
  unfold Obligations.WriteFrameIsTheWriteItCarries
  refine ⟨fun s p seq a vs m3 hl h1 => ?_, fun s p seq a v hl => ?_, fun s p q seq v hl => ?_⟩
  · extract_lets hdr s0 src1 s1
    refine ⟨fun h64 hlast => wr_writes hl seq m3 h1 h64 hlast, fun v => instant_core _ hl.up, fun h32 hlast ms hms => ?_⟩
    extract_lets pairs x src2
    have hlen : pairs.flatten.length = 2 * vs.length := length_pairs hms
    have hsrc : src2 = soundWrite s p (hdrBytes 0x03 seq a vs.length ++ (pairs.flatten.map beBytes).flatten) := by
      rw [← bytes_pairs]
      rfl
    rw [hsrc]
    exact wrm_writes hl seq m3 h1 h32 hlast hlen
  · extract_lets x k ack on differs open1
    refine ⟨fun hden => instant_denied hl seq hden, fun hnone => instant_reserved hl seq hnone, fun hden r hreg =>
      ⟨fun hprim hgood hro => ?_, fun hk hlock => instant_locked hl seq hk hreg hden hlock,
        fun hk hlock => instant_unlocked hl seq hk hreg hden hlock, fun hst h1 h2 => ?_⟩⟩
    · have hread : ∀ g ∈ r.fs, g.acc = .ro ∨ g.acc = .st := by simpa using hro
      have hbad : badW x k = false := ((PortOnly.frameOpen p s seq 1).same fun y => badW y k).trans hgood
      have hnot : actsAt k = false := by
        by_contra hne
        have htakes := (takesWrites_of_acts (Bool.eq_true_of_not_eq_false hne)).1
        simp only [takesWrites, hreg, Option.any_some, List.any_eq_true] at htakes
        obtain ⟨g, hg, hacc⟩ := htakes
        rcases hread g hg with h | h <;> rw [h] at hacc <;> cases hacc
      exact instant_kept hl seq hnot hden (writeStore_readOnly hreg hprim hbad hread p.val)
    · extract_lets new kept
      have hstore := writeStore_staged (x := x) (v := v) hreg hst h1 h2 p.val
      have hopen : open1 = (p.val == 0 && !locked x) := congrArg (· && !locked x) (by fin_cases p <;> rfl : (p == 0) = (p.val == 0))
      have hnew : new = stagedNew x p.val k r v := by
        unfold new
        rw [hopen]
        rfl
      have hkept : (if (stagedKept x p.val k r v != 0) = true then 0x01 else 0x00) = kept := by
        rw [maskedCode]
        unfold kept
        rw [hopen]
        rfl
      rw [hnew]
      clear_value new kept open1
      refine ⟨fun hres hrefused => ?_, fun hok => ?_⟩
      · rw [if_pos (by rw [hrefused, Bool.and_true]; exact bne_iff_ne.2 hres)] at hstore
        exact instant_staged (g := id) hl seq hreg hst hden hstore rfl
      · rw [if_neg (by simpa [imp_iff_not_or] using hok)] at hstore
        rw [← hkept]
        refine ⟨fun hsame => ?_, fun hne hgood => ?_, fun hne hbad => ?_⟩
        · rw [if_pos hsame] at hstore
          exact instant_staged (g := id) hl seq hreg hst hden hstore rfl
        · rw [if_neg hne, if_pos hgood] at hstore
          exact instant_staged (g := fun y => setR y k (stagedNew x p.val k r v)) hl seq hreg hst hden hstore rfl
        · rw [if_neg hne, if_neg (by simpa using hbad)] at hstore
          exact instant_staged (g := id) hl seq hreg hst hden hstore rfl
  · extract_lets write
    have hwrite : ∀ k < 65536, write k = instant (whenCore fun s => writeFrame s p seq k [v]) s := fun k hk => by
      have hnat : (BitVec.ofNat 16 k).toNat = k := by rw [BitVec.toNat_ofNat]; omega
      show instant (whenCore fun s => writeFrame s p seq (BitVec.ofNat 16 k).toNat [v]) s = _
      rw [hnat]
    refine ⟨fun h => ?_, fun n => ?_, fun c => ?_⟩
    · extract_lets k
      rw [hwrite k (by have := q.isLt; have := h.isLt; omega)]
      exact instant_irqPend hl seq q h
    · extract_lets k
      rw [hwrite k (by have := n.isLt; omega)]
      exact instant_flwTarget hl seq n
    · extract_lets k
      rw [hwrite k (by have := c.isLt; omega)]
      exact instant_eflAddr hl seq c

end Sys2Proof.Machine
end

section
/-! SUPPORT. What the boot course leaves: none of its writes acts on a mailbox, a port, a check unit, a course or PWR, for it may write
no WO and no W1C bit (11 R326-R328). -/

set_option Elab.async false

namespace Sys2Proof.Machine

/-- What the boot course leaves of the state b in which it starts. -/
structure Booting (b x : State) : Prop where
  counted : Counted x
  mbxs : x.core.mbxs = b.core.mbxs
  ports : x.core.ports = b.core.ports
  units : x.core.cvu = List.replicate 4 {}
  parity : x.core.parity = []
  course : x.core.course = {}
  pwr : x.core.pwr = b.core.pwr
  tbase : x.aon.tbase = b.aon.tbase
  wake : x.aon.wake = b.aon.wake
  phase : x.aon.phase = b.aon.phase
  flash : x.flash = b.flash
  source : x.core.efl.bootSource = b.core.efl.bootSource

/-- The parts that a boot course may change at will. -/
def bootPieces : List Piece :=
  [.hold, .regs, .capo, .dev, .part, .irqPend, .irqSet, .irqRound, .buf, .seq, .thm, .flw, .key, .epd, .pix, .nfc, .gng]

section Rules

variable {b x y : State} {ps : List Piece}

theorem Booting.pwr_same (hg : Goes ps x y) (hps : ∀ k ∈ [Piece.pwr, .doze], k ∉ ps) : y.core.pwr = x.core.pwr := by
  have hpwr : { y.core.pwr with doze := x.core.pwr.doze, devrst := x.core.pwr.devrst } = x.core.pwr := hg.same .pwr (hps _ (by decide))
  have hdoze : y.core.pwr.doze = x.core.pwr.doze := hg.same .doze (hps _ (by decide))
  have hdev := hg.devrst_same (hps _ (by decide))
  rw [← hdoze, ← hdev] at hpwr
  exact hpwr

/-- A change of setup flash that leaves the copy in force, and of other parts at will. -/
theorem Booting.efl (h : Booting b x) (hg : Goes ps x y) (hsource : y.core.efl.bootSource = x.core.efl.bootSource)
    (hps : ∀ k ∈ [Piece.aon, .parity, .course, .ports, .mbxs, .pwr, .doze, .cvu, .flash], k ∉ ps) : Booting b y where
  counted := hg.counted h.counted
  mbxs := (hg.same .mbxs (hps _ (by decide))).trans h.mbxs
  ports := (hg.same .ports (hps _ (by decide))).trans h.ports
  units := (hg.same .cvu (hps _ (by decide))).trans h.units
  parity := (hg.same .parity (hps _ (by decide))).trans h.parity
  course := (hg.same .course (hps _ (by decide))).trans h.course
  pwr := (Booting.pwr_same hg fun k hk => hps k ((by decide : [Piece.pwr, .doze] ⊆ [Piece.aon, .parity, .course, .ports, .mbxs, .pwr, .doze,
    .cvu, .flash]) hk)).trans h.pwr
  tbase := (congrArg Aon.tbase (hg.same .aon (hps _ (by decide)))).trans h.tbase
  wake := (congrArg Aon.wake (hg.same .aon (hps _ (by decide)))).trans h.wake
  phase := (congrArg Aon.phase (hg.same .aon (hps _ (by decide)))).trans h.phase
  flash := (hg.same .flash (hps _ (by decide))).trans h.flash
  source := hsource.trans h.source

theorem Booting.goes (h : Booting b x) (hg : Goes bootPieces x y) : Booting b y :=
  h.efl hg (congrArg EflSt.bootSource (hg.same .efl (by decide))) (by decide)

theorem Booting.cond {c : Prop} [Decidable c] (hx : c → Booting b x) (hy : ¬c → Booting b y) : Booting b (if c then x else y) := by
  split
  next hc => exact hx hc
  next hc => exact hy hc

theorem Booting.foldl {α : Type} {f : State → α → State} {l : List α} (h : Booting b x) (hf : ∀ y a, Booting b y → Booting b (f y a)) :
    Booting b (l.foldl f x) :=
  List.foldlRecOn l f h fun y hy a _ => hf y a hy

/-- No word fails its parity at core start, and none fails it afterwards. -/
theorem Booting.passes (h : Booting b x) (t : Nat → Bool) : Booting b (passes x t) where
  counted := h.counted
  mbxs := h.mbxs
  ports := h.ports
  units := h.units
  parity := by show x.core.parity.filter _ = []; rw [h.parity]; rfl
  course := h.course
  pwr := h.pwr
  tbase := h.tbase
  wake := h.wake
  phase := h.phase
  flash := h.flash
  source := h.source

theorem Booting.badW (h : Booting b x) (a : Nat) : Machine.badW x a = false := by rw [Machine.badW, h.parity]; rfl

/-- Words of the always-on domain. -/
theorem Booting.setA (h : Booting b x) (a : Nat) (v : Word) : Booting b (setA x a v) where
  counted := h.counted
  mbxs := h.mbxs
  ports := h.ports
  units := h.units
  parity := h.parity
  course := h.course
  pwr := h.pwr
  tbase := h.tbase
  wake := h.wake
  phase := h.phase
  flash := h.flash
  source := h.source

theorem Booting.setR (h : Booting b x) (a : Nat) (v : Word) : Booting b (setR x a v) := h.goes ((Goes.refl _ x).setR (by decide))

theorem Booting.raise (h : Booting b x) (p n : Nat) : Booting b (raise x p n) := h.goes ((Goes.refl _ x).raise (by decide))

theorem Booting.modU (h : Booting b x) {u : Nat} {f : CvuUnit → CvuUnit} (hf : upd x.core.cvu u f = List.replicate 4 {}) :
    Booting b (modU x u f) where
  counted := by
    have hc := h.counted
    rw [Counted, h.units] at hc
    show Counted (modC x fun c => { c with cvu := upd c.cvu u f })
    unfold Counted modC
    dsimp only
    rw [hf]
    exact hc
  mbxs := h.mbxs
  ports := h.ports
  units := hf
  parity := h.parity
  course := h.course
  pwr := h.pwr
  tbase := h.tbase
  wake := h.wake
  phase := h.phase
  flash := h.flash
  source := h.source

theorem Booting.unit (h : Booting b x) (u : Nat) : cvuOf x u = {} := by
  rw [cvuOf, h.units]
  rcases Nat.lt_or_ge u 4 with hu | hu
  · exact List.eq_of_mem_replicate (nth_mem (by simpa using hu))
  · exact nth_of_le (by simpa using hu) _

/-- A unit in its reset state has no calculation to lose (14 R405). -/
theorem Booting.cvuMoved (h : Booting b x) (u : Nat) : Booting b (cvuMoved x u) := by
  have hunit := h.unit u
  have hidle : cvuAbandon x u 9 = x := if_neg (by rw [hunit]; decide)
  have hfirst : (fun q : CvuUnit => { q with first := true }) (nth x.core.cvu u {}) = nth x.core.cvu u {} := by
    rw [show nth x.core.cvu u {} = {} from hunit]
  have hsame : upd x.core.cvu u (fun q => { q with first := true }) = x.core.cvu := upd_eq_self hfirst
  rw [Machine.cvuMoved, hidle]
  exact h.modU (hsame.trans h.units)

theorem bootSource_eflDiscard (x : State) (c : Nat) : (eflDiscard x c false).core.efl.bootSource = x.core.efl.bootSource := by
  unfold eflDiscard
  dsimp only
  split <;> rfl

theorem Booting.resMoved (h : Booting b x) (r : Res) (old new : Nat) : Booting b (resMoved x r old new) := by
  unfold Machine.resMoved
  refine (Booting.raise ?_ _ _).raise _ _
  have h1 : Booting b (restage x (resMask x r)) := h.goes ((Goes.refl _ x).restage (by decide))
  cases r with
  | ns n => exact h1.goes ((Goes.refl _ _).nsMoved (by decide))
  | key g => exact h1.goes (.cond ((Goes.refl _ _).keyGroupMoved (by decide) (by decide)) ((Goes.refl _ _).encRef (by decide)))
  | panel q => exact h1.goes ((Goes.refl _ _).epdRegionMoved (by decide))
  | sfr k => exact h1.efl (ps := [.efl, .irqPend]) ((Goes.refl _ _).eflDiscard (by decide) (by decide)) (bootSource_eflDiscard ..) (by decide)
  | cvu u => exact h1.cvuMoved u
  | rail r => exact h1
  | flow n => exact h1
  | blink k => exact h1

theorem Booting.ownersMoved (h : Booting b x) (cls : Nat) (old : Word) : Booting b (ownersMoved x cls old) :=
  h.foldl fun _ _ h => .cond (fun _ => h) fun _ => h.resMoved _ _ _

theorem bootSource_flashSuspend (x : State) : (flashSuspend x).core.efl.bootSource = x.core.efl.bootSource := by
  unfold flashSuspend
  split <;> rfl

theorem bootSource_opStarted (x : State) (n : Nat) : (opStarted x n).core.efl.bootSource = x.core.efl.bootSource := by
  unfold opStarted whenS
  split
  · exact bootSource_flashSuspend x
  · rfl

theorem Booting.advTry (h : Booting b x) : Booting b (advTry x) := by
  refine h.efl (ps := [.efl]) ((Goes.refl _ x).advTry (by decide)) ?_ (by decide)
  unfold Machine.advTry
  split
  · exact bootSource_opStarted _ _
  · rfl

theorem Booting.wfValidateStart (h : Booting b x) (reload : Bool) : Booting b (wfValidateStart x reload) := by
  refine h.efl (ps := [.efl, .pix]) ((Goes.refl _ x).wfValidateStart (by decide) (by decide)) ?_ (by decide)
  unfold Machine.wfValidateStart whenS
  dsimp only
  split
  · exact bootSource_flashSuspend x
  · rfl

theorem Booting.alarmWritten (h : Booting b x) : Booting b (alarmWritten x) := .cond (fun _ => h.setA _ _) fun _ => h

/-- With no course, NAND work that goes on concerns the work alone. -/
theorem Booting.nfcAfter (h : Booting b x) : Booting b (nfcAfter x) := by
  have h1 : Goes bootPieces x (nfcService x) := (Goes.refl _ x).nfcService (by decide) (by decide)
  have hcourse : courseDue (nfcService x) 5 = false := by
    have hnone : (nfcService x).core.course = {} := (h.goes h1).course
    rw [courseDue, hnone]
    rfl
  unfold Machine.nfcAfter
  dsimp only
  rw [hcourse]
  exact h.goes (h1.postAll (by decide) (by decide) (by decide))

end Rules

end Sys2Proof.Machine
end

section
/-! SUPPORT. What a write of the boot course does (11 R327, R328). -/

set_option Elab.async false

namespace Sys2Proof.Machine

/-- The bits of a word that act when they are written: those of its WO and W1C fields. -/
def woMask (a : Nat) : Word :=
  match regAt a with
  | some r => accMask r (fun f => f.acc == .wo || f.acc == .w1c)
  | none => 0

section Rules

variable {b x y : State} {a : Nat} {v : Word}

/-- A bit that acts is not written. -/
theorem bit_quiet (hv : v &&& woMask a = 0) {i : Nat} (hi : bit (woMask a) i = true) : bit v i = false := by
  have hbit := bit_and v (woMask a) i
  rw [hv, hi, Bool.and_true] at hbit
  rw [← hbit]
  simp [bit]

/-- A field that acts is written as 0. -/
theorem fld_quiet (hv : v &&& woMask a = 0) {lo n : Nat} (hm : ∀ i < n, bit (woMask a) (lo + i) = true) : fld v lo n = 0 := by
  have hzero : fld v lo n = fld 0 lo n := fld_congr fun i hlo hhi => by
    have h := bit_quiet hv (hm (i - lo) (by omega))
    rw [Nat.add_sub_cancel' hlo] at h
    rw [h]
    simp [bit]
  rw [hzero]
  simp [fld]

theorem Booting.on (h : Booting b x) (hv : v &&& woMask a = 0) (hm : bit (woMask a) 0 = true) :
    Booting b (if bit v 0 = true then y else x) := by
  rw [bit_quiet hv hm]
  exact h

theorem woMask_kick {i : Nat} (h : i < 4) : ∀ j < 9, bit (woMask (0x264 + i)) j = true := by
  have hall : ∀ i < 4, ∀ j < 9, bit (woMask (0x264 + i)) j = true := by decide
  exact hall i h

theorem woMask_errclr {a : Nat} (h : 0x400 ≤ a ∧ a < 0x440 ∧ a % 16 = 6) : bit (woMask a) 0 = true := by
  have hall : ∀ i < 4, bit (woMask (0x406 + 16 * i)) 0 = true := by decide
  rw [show a = 0x406 + 16 * ((a - 0x400) / 16) by omega]
  exact hall _ (by omega)

theorem woMask_post {a : Nat} (h : 0x600 ≤ a ∧ a < 0x630 ∧ a % 4 = 0) : bit (woMask a) 0 = true := by
  have hall : ∀ i < 12, bit (woMask (0x600 + 4 * i)) 0 = true := by decide
  rw [show a = 0x600 + 4 * ((a - 0x600) / 4) by omega]
  exact hall _ (by omega)

theorem woMask_ack {a : Nat} (h : 0x600 ≤ a ∧ a < 0x630 ∧ a % 4 = 1) : ∀ j < 4, bit (woMask a) (0 + j) = true := by
  have hall : ∀ i < 12, ∀ j < 4, bit (woMask (0x601 + 4 * i)) (0 + j) = true := by decide
  rw [show a = 0x601 + 4 * ((a - 0x600) / 4) by omega]
  exact hall _ (by omega)

theorem woMask_efl {a : Nat} (h : 0x1620 ≤ a ∧ a < 0x1670 ∧ a % 8 = 1) : ∀ j < 4, bit (woMask a) (0 + j) = true := by
  have hall : ∀ i < 10, ∀ j < 4, bit (woMask (0x1621 + 8 * i)) (0 + j) = true := by decide
  rw [show a = 0x1621 + 8 * ((a - 0x1620) / 8) by omega]
  exact hall _ (by omega)

/-- A kick that is none, with no release, does nothing (04 R122). -/
theorem wdogKickOp_none (x : State) (p : Nat) (hk : fld v 0 8 = 0) (hr : bit v 8 = false) : wdogKickOp x p v = x := by
  have hkick : (0 == if (wdogOf x p).expectA5 = true then 0xA5 else 0x5A) = false := by split <;> rfl
  simp only [wdogKickOp, hk, hkick, hr, Bool.and_false, Bool.false_and, Bool.false_eq_true, if_false, if_true]

/-- A write whose acting bits are all 0 leaves what the boot course leaves. -/
theorem Booting.writeAct (h : Booting b x) (hv : v &&& woMask a = 0) (pre : State) : Booting b (writeAct pre x 0 a v).1 := by
  have hgo : ∀ {y}, Goes bootPieces x y → Booting b y := h.goes
  have hr := Goes.refl bootPieces x
  have hgo1 : ∀ {y} {i : Nat}, Goes bootPieces x y → Booting b (if bit v i = true then y else x) :=
    fun hf => .cond (fun _ => h.goes hf) fun _ => h
  simp only [Machine.writeAct, apply_ite Prod.fst]
  refine .cond (fun ha => ?_) fun _ => .cond (fun ha => hgo1 (hr.capoTrigger (by decide))) fun _ =>
    .cond (fun ha => hgo1 (hr.capoReleaseOp (by decide))) fun _ => .cond (fun ha => hgo1 (hr.latchOp (by decide))) fun _ =>
    .cond (fun ha => h.ownersMoved _ _) fun _ => .cond (fun ha => hgo (hr.wdogCfgWritten (by decide))) fun _ =>
    .cond (fun ha => ?_) fun _ => .cond (fun ha => ?_) fun _ => .cond (fun ha => h.on hv (woMask_errclr ha)) fun _ =>
    .cond (fun ha => h.on hv (woMask_post ha)) fun _ => .cond (fun ha => ?_) fun _ => .cond (fun ha => h.advTry) fun _ =>
    .cond (fun ha => ?_) fun _ => .cond (fun ha => h.alarmWritten) fun _ => .cond (fun ha => ?_) fun _ =>
    .cond (fun ha => ?_) fun _ => .cond (fun ha => hgo (hr.railRequestPush (by decide))) fun _ =>
    .cond (fun ha => hgo (hr.railRequestPush (by decide))) fun _ => .cond (fun ha => hgo1 (hr.seqCntclrOp (by decide))) fun _ =>
    .cond (fun ha => hgo1 (hr.thmCntclrOp (by decide))) fun _ => .cond (fun ha => hgo (hr.ageWritten (by decide))) fun _ =>
    .cond (fun ha => hgo1 (hr.flwCntclrOp (by decide))) fun _ => .cond (fun ha => hgo1 (hr.keyCntclrOp (by decide))) fun _ =>
    .cond (fun ha => hgo (hr.lockCtlOp (by decide) (by decide) (by decide))) fun _ => .cond (fun ha => hgo (hr.fifoPopOp (by decide))) fun _ =>
    .cond (fun ha => hgo (hr.epdRequestOp (by decide) (by decide))) fun _ => .cond (fun ha => hgo1 (hr.epdCntclrOp (by decide))) fun _ =>
    .cond (fun ha => .cond (fun _ => h.wfValidateStart true) fun _ => h) fun _ => .cond (fun ha => hgo1 (hr.pixCntclrOp (by decide))) fun _ =>
    .cond (fun ha => .cond (fun _ => h.efl (ps := [.efl]) ((Goes.refl _ x).eflCntclrOp (by decide)) rfl (by decide)) fun _ => h) fun _ =>
    .cond (fun ha => ?_) fun _ => .cond (fun ha => ?_) fun _ =>
    .cond (fun ha => hgo1 (hr.submitOp (by decide) (by decide) (by decide))) fun _ => .cond (fun ha => hgo (hr.ringPopOp (by decide))) fun _ =>
    .cond (fun ha => hgo (hr.voteWritten (by decide) (by decide))) fun _ => .cond (fun ha => hgo1 (hr.gngCntclrOp (by decide))) fun _ => h
  · subst ha
    rw [fld_quiet hv (by decide)]
    exact h
  · have hmask := woMask_kick (i := a - 0x264) (by omega)
    rw [Nat.add_sub_cancel' ha.1] at hmask
    rw [wdogKickOp_none x _ (fld_quiet hv fun i hi => by rw [Nat.zero_add]; exact hmask i (by omega)) (bit_quiet hv (hmask 8 (by decide)))]
    exact h
  · subst ha
    have hnone : bitsOf v 4 = [] := List.filter_eq_nil_iff.2 fun i hi => by
      have hall : ∀ i < 4, bit (woMask 0x274) i = true := by decide
      rw [bit_quiet hv (hall i (List.mem_range.1 hi))]
      decide
    rw [rstWriteOp, hnone]
    exact h
  · have hzero : nmin (fld v 0 4) (nth x.core.mbxs ((a - 0x600) / 4) {}).held = 0 := by
      rw [fld_quiet hv (woMask_ack ha)]
      unfold nmin
      split <;> omega
    rw [mbxAckOp, hzero]
    exact h
  · subst ha
    exact h.on hv (by decide)
  · subst ha
    exact h.on hv (by decide)
  · subst ha
    rw [devrstOp, fld_quiet hv (by decide)]
    exact h
  · rw [eflSubmit, fld_quiet hv (woMask_efl ha)]
    exact h
  · exact .cond (fun _ => hgo ((Goes.cond (hr.nfcCntclrOp (by decide)) hr).nfcWarnclrOp (by decide)))
      fun _ => hgo (.cond (hr.nfcCntclrOp (by decide)) hr)

/-- A bit of a set of fields. -/
theorem bit_fsMask (fs : List FieldS) (i : Nat) : bit (fsMask fs) i = fs.any fun f => bit f.mask i := by
  have hfold : ∀ (l : List FieldS) (m : Word), bit (l.foldl (fun m f => m ||| f.mask) m) i = (bit m i || l.any fun f => bit f.mask i) := by
    intro l
    induction l with
    | nil => simp
    | cons f l ih =>
      intro m
      rw [List.foldl_cons, ih, bit_or, List.any_cons, Bool.or_assoc]
  rw [fsMask, hfold]
  simp [bit]

/-- No W1C bit is written where no bit that acts is. -/
theorem w1c_quiet {r : RegSpec} (hreg : regAt a = some r) (hv : v &&& woMask a = 0) : v &&& accMask r (fun f => f.acc == .w1c) = 0 := by
  refine word_ext fun i _ => ?_
  rw [bit_and]
  by_cases hm : bit (accMask r fun f => f.acc == .w1c) i = true
  · have hwo : bit (woMask a) i = true := by
      rw [accMask, bit_fsMask, List.any_eq_true] at hm
      obtain ⟨f, hf, hbit⟩ := hm
      obtain ⟨hmem, hacc⟩ := List.mem_filter.1 hf
      rw [woMask, hreg]
      show bit (fsMask (r.fs.filter _)) i = true
      rw [bit_fsMask, List.any_eq_true]
      exact ⟨f, List.mem_filter.2 ⟨hmem, by rw [hacc, Bool.or_true]⟩, hbit⟩
    rw [bit_quiet hv hwo]
    simp [bit]
  · rw [Bool.eq_false_of_not_eq_true hm, Bool.and_false]
    simp [bit]

theorem Booting.storeRw (h : Booting b x) (p a : Nat) (m new : Word) : Booting b (storeRw x p a m new) := by
  unfold Machine.storeRw
  extract_lets y t
  have hy : Booting b y := .cond (fun _ => h) fun _ => h.passes _
  have hr := Goes.refl bootPieces y
  refine .cond (fun _ => hy) fun _ => .cond (fun _ => ?_) fun _ => .cond (fun _ => hy.goes (hr.modWin (by decide))) fun _ =>
    .cond (fun _ => hy.goes (hr.modWin (by decide))) fun _ => .cond (fun _ => hy.goes (hr.modWin (by decide))) fun _ =>
    .cond (fun _ => hy.setA _ _) fun _ => hy.setR _ _
  have hirq : ∀ {f : IrqSt → IrqSt}, Booting b (modIrq y t f) := hy.goes (hr.modIrq (by decide) (by decide) (by decide))
  split
  · exact hirq
  · exact hirq
  · exact hirq
  · exact hirq
  · exact hirq
  · exact hy

theorem Booting.writePrimary (h : Booting b x) (hv : v &&& woMask a = 0) {r : RegSpec} (hreg : regAt a = some r) (pre : State) (p : Nat) :
    Booting b (writePrimary pre x p a r v).1 := by
  have hrep : cvuRepaired x a = x := if_neg fun hc => by
    have hbad := hc.2.2
    rw [h.badW] at hbad
    cases hbad
  have hclear : ∀ y, clearBits y a 0 = y := fun y => if_pos rfl
  simp only [Machine.writePrimary, apply_ite Prod.fst, hrep, w1c_quiet hreg hv, hclear]
  exact .cond (fun _ => h) fun _ => .cond (fun _ => h) fun _ => h.storeRw _ _ _ _

theorem Booting.writeStaged (h : Booting b x) (pre : State) (p a : Nat) (r : RegSpec) (v : Word) :
    Booting b (writeStaged pre x p a r v).1 := by
  unfold Machine.writeStaged
  dsimp only
  split
  · exact h
  · simp only [apply_ite Prod.fst]
    exact .cond (fun _ => h) fun _ => .cond (fun _ => h) fun _ => .cond (fun _ => h.setR _ _) fun _ => h

theorem Booting.writeStore (h : Booting b x) (hv : v &&& woMask a = 0) (pre : State) (p : Nat) : Booting b (writeStore pre x p a v).1 := by
  unfold Machine.writeStore
  split
  · exact h
  next r hreg =>
    simp only [apply_ite Prod.fst]
    exact .cond (fun _ => h.writeStaged _ _ _ _ _) fun _ => .cond (fun _ => h.writePrimary hv hreg _ _) fun _ => h

theorem Booting.quotaWrite (h : Booting b x) (ws : List (Nat × Word)) : Booting b (quotaWrite x ws).1 := by
  have hput : Booting b (ws.foldl (fun s e => Machine.setR s (0x230 + e.1) e.2)
      (Machine.passes x fun k => ws.any fun e => 0x230 + e.1 == k)) := (h.passes _).foldl fun _ _ h => h.setR _ _
  simp only [Machine.quotaWrite, apply_ite Prod.fst]
  exact .cond (fun _ => hput) fun _ => .cond (fun _ => hput.foldl fun _ _ h => .cond (fun _ => h) fun _ =>
    h.goes ((Goes.refl _ _).granuleClear (by decide))) fun _ => h

/-- Commands that are none do nothing to a unit that is not open (14 R399). -/
theorem cvuCtlOp_quiet {u : Nat} {ctl : Word} (hctl : ∀ i < 6, bit ctl i = false) (hst : (cvuOf x u).st ≠ 1) (feeds : List Word) :
    (cvuCtlOp x u ctl feeds).1 = x := by
  have hst' : ((cvuOf x u).st != 1) = true := bne_iff_ne.2 hst
  simp only [cvuCtlOp, hctl 0 (by decide), hctl 1 (by decide), hctl 2 (by decide), hctl 3 (by decide), hctl 4 (by decide),
    hctl 5 (by decide), Bool.false_eq_true, if_false, Bool.false_and, hst', Bool.and_true, Bool.and_not_self]

theorem Booting.writeCvu (h : Booting b x) (hv : v &&& woMask a = 0) {u : Nat} (hu : u < 4) : Booting b (writeCvu x [(a, v)] u).1 := by
  have hctl : ∀ i < 6, bit ((([(a, v)].find? fun w => w.1 == cvuA u 0).map fun w => w.2).getD 0) i = false := fun i hi => by
    by_cases ha : a = cvuA u 0
    · subst ha
      have hall : ∀ u < 4, ∀ i < 6, bit (woMask (cvuA u 0)) i = true := by decide
      simpa using bit_quiet hv (hall u hu i hi)
    · simp [ha, bit]
  have hst : (cvuOf x u).st ≠ 1 := by
    rw [h.unit u]
    decide
  simp only [Machine.writeCvu, apply_ite Prod.fst]
  exact .cond (fun _ => by rw [cvuCtlOp_quiet hctl hst]; exact h) fun _ => h

/-- A write by P0 of one word, no bit of which acts. -/
theorem Booting.writeRegs (h : Booting b x) (hv : v &&& woMask a = 0) : Booting b (writeRegs x 0 [(a, v)]).1 := by
  simp only [Machine.writeRegs, apply_ite Prod.fst]
  refine .cond (fun _ => h) fun _ => ?_
  unfold applyWrites
  extract_lets y q w z m
  have hy : Booting b y.1 := h.writeStore hv _ _
  have hq : Booting b q.1 := by
    simp only [q, writeQuotas, apply_ite Prod.fst]
    exact .cond (fun _ => hy) fun _ => hy.quotaWrite _
  have hw : Booting b w.1 := hq.writeAct hv _
  have hz : Booting b z.1 := List.foldlRecOn (upto 4) _ (motive := fun x : State × Bool => Booting b x.1) hw
    fun x hx u hu => hx.writeCvu hv (List.mem_range.1 hu)
  have hm : Booting b m := hz.goes ((Goes.refl _ _).railMerge (by decide))
  exact .cond (fun _ => hm.nfcAfter) fun _ => hm

end Rules

end Sys2Proof.Machine
end

section
/-! SUPPORT. The boot course, section by section (11 R326-R328). -/

set_option Elab.async false

namespace Sys2Proof.Machine

/-- No register has both ST fields and fields that act. -/
theorem stFields_or_quiet : ∀ k < 19, ∀ o < 256, ((primReg (0x200 * k + o)).all fun r =>
    (stFields r).isEmpty || r.fs.all fun f => f.acc != .wo && f.acc != .w1c) = true := by decide +kernel

section Rules

variable {b x y : State} {a : Nat} {v : Word}

/-- A primary register with ST fields has no bit that acts. -/
theorem woMask_of_stFields {r : RegSpec} (hreg : regAt a = some r) (hprim : a % 0x200 < 0x100) (hst : fsMask (stFields r) ≠ 0) : woMask a = 0 := by
  have hsmall : ¬0x2600 ≤ a := fun hge => by
    rw [regAt, if_pos hge] at hreg
    cases hreg
  have hall := stFields_or_quiet (a / 0x200) (by omega) (a % 0x200) (by omega)
  rw [regAt, if_neg hsmall, if_pos hprim] at hreg
  rw [Nat.div_add_mod, hreg, Option.all_some, Bool.or_eq_true, List.isEmpty_iff, List.all_eq_true] at hall
  rcases hall with hnone | hquiet
  · exact absurd (by rw [hnone]; rfl) hst
  · rw [woMask, regAt, if_neg hsmall, if_pos hprim, hreg]
    exact accMask_eq_zero fun f hf => by simpa using hquiet f hf

/-- What an entry of a registers section writes has no bit that acts (11 R328). -/
theorem entry_quiet {r : RegSpec} {m v held : Word} (hreg : regAt a = some r) (hm : m &&& accMask r (fun f => f.acc == .wo || f.acc == .w1c) = 0)
    (p : Nat) (x : State) :
    blend (wrmValue x p a m v) held (if a % 0x200 < 0x100 then fsMask (stFields r) else 0) &&& woMask a = 0 := by
  have hwo : woMask a = accMask r fun f => f.acc == .wo || f.acc == .w1c := by rw [woMask, hreg]
  by_cases hnone : woMask a = 0
  · rw [hnone]
    exact BitVec.and_zero
  · have hst : (if a % 0x200 < 0x100 then fsMask (stFields r) else 0) = (0 : Word) := by
      split
      next hprim =>
        by_contra hne
        exact hnone (woMask_of_stFields hreg hprim hne)
      next => rfl
    rw [hst, wrmValue, hreg]
    dsimp only
    rw [← hwo] at hm ⊢
    refine word_ext fun i hi => ?_
    have hmi := bit_and m (woMask a) i
    rw [hm] at hmi
    have hz : ∀ j, bit (0 : Word) j = false := fun j => by simp [bit]
    rw [bit_and, bit_blend _ _ _ hi, hz, if_neg (by simp), bit_blend _ _ _ hi, bit_and, bit_not _ hi]
    rw [hz] at hmi
    cases hbit : bit (woMask a) i with
    | false => simp
    | true =>
      rw [hbit, Bool.and_true] at hmi
      simp [← hmi]

theorem Booting.regEntry (h : Booting b x) {bs : List Byte} : ∀ u ∈ regEntry x bs, Booting b u := by
  unfold Machine.regEntry
  extract_lets a m v bad new held prim
  split
  · split <;> simp [h]
  next r hreg =>
    extract_lets st other wo z sv
    split
    · simp
    next hgood =>
      have hm : m &&& wo = 0 := by
        by_contra hne
        exact hgood (by rw [bne_iff_ne.2 hne, Bool.or_true])
      have hz : Booting b z.1 := by
        simp only [z, apply_ite Prod.fst]
        exact .cond (fun _ => h) fun _ => h.writeRegs (entry_quiet hreg hm 0 x)
      split
      · simp
      · split
        · simpa using hz
        · split
          · simp
          · split
            · simp
            next q _ =>
              extract_lets y
              have hy : Booting b y.1 := hz.writeStaged _ _ _ _ _
              split
              · simp
              · clear_value prim
                cases prim with
                | none => simp
                | some k => simpa using hy.setR _ _

theorem Booting.regEntries : ∀ {n : Nat} {x : State} (_ : Booting b x) {bs : List Byte}, ∀ u ∈ regEntries x n bs, Booting b u
  | 0, x, h, bs => by simpa [Machine.regEntries] using h
  | n + 1, x, h, bs => by
    unfold Machine.regEntries
    split
    next t ht => exact Booting.regEntries (h.regEntry t ht)
    · simp

theorem Booting.regSection (h : Booting b x) (bs : List Byte) : Booting b (regSection x bs).1 := by
  unfold Machine.regSection
  split
  · exact h
  · split
    next t ht => exact Booting.regEntries h t ht
    · exact h

theorem Booting.layoutSection (h : Booting b x) (bs : List Byte) : Booting b (layoutSection x bs).1 := by
  simp only [Machine.layoutSection, apply_ite Prod.fst]
  exact .cond (fun _ => h.efl (ps := [.efl]) ((Goes.refl _ x).layoutApply (by decide)) rfl (by decide)) fun _ => h

/-- A change of setup flash that leaves the copy in force. -/
theorem Booting.modF (h : Booting b x) {f : EflSt → EflSt} (hf : Goes [.efl] x (modF x f)) (hsource : (f x.core.efl).bootSource = x.core.efl.bootSource) :
    Booting b (modF x f) := h.efl hf hsource (by decide)

theorem Booting.bootSection (h : Booting b x) (img : List Byte) (i : Nat) (e : BootSec) : Booting b (bootSection x img i e) := by
  have hr := Goes.refl bootPieces x
  have hsec : ∀ z ∈ (match e.typ with
      | 1 => some (Machine.regSection x (imgBytes img e.off e.len)) | 2 => some (Machine.railSection x (imgBytes img e.off e.len))
      | 3 => some (Machine.flowSection x (imgBytes img e.off e.len)) | 4 => some (Machine.keySection x (imgBytes img e.off e.len))
      | 5 => some (Machine.layoutSection x (imgBytes img e.off e.len)) | _ => none : Option (State × Bool)), Booting b z.1 := by
    split <;> intro z hz <;> cases hz
    · exact h.regSection _
    · exact h.goes (hr.railSection (by decide) (by decide))
    · exact h.goes (hr.flowSection (by decide) (by decide))
    · exact h.goes (hr.keySection (by decide) (by decide))
    · exact h.layoutSection _
  unfold Machine.bootSection
  dsimp only
  split
  · exact h
  next hz => exact (hsec _ hz).modF ((Goes.refl _ _).modF (by decide)) rfl
  next hz => exact (hsec _ hz).modF ((Goes.refl _ _).modF (by decide)) rfl

theorem Booting.bootApply (h : Booting b x) (img : List Byte) : Booting b (bootApply x img) := by
  unfold Machine.bootApply
  extract_lets d x1 x2 x3 x4 clean
  have h2 : Booting b x2 := (h.foldl fun _ _ h => h.bootSection _ _ _).foldl fun _ _ h => h.bootSection _ _ _
  have h3 : Booting b x3 := h2.modF ((Goes.refl _ _).modF (by decide)) rfl
  have h4 : Booting b x4 := h3.goes ((Goes.refl _ _).core_gng (by decide))
  exact .cond (fun _ => (h4.modF ((Goes.refl _ _).modF (by decide)) rfl).setR _ _) fun _ => h4

/-- The number of the copy in force: 1 or 2, or 0 where none is valid (11 R326). -/
def bootCopy (s : State) : Nat :=
  let a := bootJudge s 0
  let b := bootJudge s 1
  if a.1 = 0 ∧ b.1 = 0 then (if imgNat a.2 8 4 < imgNat b.2 8 4 then 2 else 1) else if a.1 = 0 then 1 else if b.1 = 0 then 2 else 0

/-- The state once the copies are judged. -/
def bootJudged (s : State) : State :=
  modF s fun f => { f with bootSource := bootCopy s, reasonA := (bootJudge s 0).1, reasonB := (bootJudge s 1).1 }

theorem bootCourse_booting (h : Booting (bootJudged x) (bootJudged x)) : Booting (bootJudged x) (bootCourse x) := by
  show Booting (bootJudged x) (if bootCopy x = 1 then bootApply (bootJudged x) _ else if bootCopy x = 2 then bootApply (bootJudged x) _ else bootJudged x)
  exact .cond (fun _ => h.bootApply _) fun _ => .cond (fun _ => h.bootApply _) fun _ => h

theorem bootCourse_none (h : bootCopy x = 0) : bootCourse x = bootJudged x := by
  show (if bootCopy x = 1 then bootApply (bootJudged x) _ else if bootCopy x = 2 then bootApply (bootJudged x) _ else bootJudged x) = _
  rw [h]
  rfl

end Rules

end Sys2Proof.Machine
end

section
/-! SUPPORT. The blocks at core start: KEY, the NAND channels, setup flash and the sequencer as they begin (05 R146). -/

set_option Elab.async false

namespace Sys2Proof.Machine

variable {s x y : State}

/-- KEY with nothing to report: no key held, no event, no column in FILM, no group suspended, every encoder at its reference. -/
structure KeyFresh (x : State) : Prop where
  keys : x.core.key.keys = []
  fifos : x.core.key.fifos = List.replicate 4 {}
  cols : ∀ c, (nth x.core.key.cols c {}).state = 0
  suspended : x.core.key.suspended = 0
  due : x.core.key.encDue = []
  refs : ∀ n, (nth x.core.key.encs n {}).count = (nth x.core.key.encs n {}).ref

/-- No column is in FILM, so that no group is suspended or resumed (08 R228). -/
theorem KeyFresh.suspendOp (h : KeyFresh x) (g : Nat) : suspendOp x g = x := by
  have hfilm : (bitsOf (columnSet x g) 16).filter (fun c => (nth x.core.key.cols c {}).state == 2) = [] :=
    List.filter_eq_nil_iff.2 fun c _ => by rw [h.cols c]; decide
  have hnone : (uf x 0x1210 (4 * g) 4 != 0 && decide (uf x 0x1210 (4 * g) 4 ≤ 0)) = false := by
    cases hneed : uf x 0x1210 (4 * g) 4 <;> simp
  have hwas : bit x.core.key.suspended g = false := by rw [h.suspended]; simp [bit]
  simp only [Machine.suspendOp, hfilm, List.length_nil, hnone, hwas, if_true]

/-- No encoder has moved (08 R239). -/
theorem KeyFresh.encFrameOp (h : KeyFresh x) (n : Nat) : encFrameOp x n = x := by
  have hzero : ∀ det, divZero (sgn 16 ((nth x.core.key.encs n {}).count - (nth x.core.key.encs n {}).ref).toNat) det = 0 := fun det => by
    rw [h.refs n, BitVec.sub_self]
    simp [sgn, divZero]
  simp only [Machine.encFrameOp, hzero, if_true]

theorem foldl_id {α β : Type} {f : α → β → α} {a : α} (l : List β) (hf : ∀ b ∈ l, f a b = a) : l.foldl f a = a :=
  List.foldlRecOn (motive := fun z => z = a) l f rfl fun z hz b hb => by rw [hz, hf b hb]

theorem KeyFresh.matcherOp (h : KeyFresh x) (hidle : x.core.key.mtch.idle = true) : KeyFresh (matcherOp x) := by
  have hset : ∀ m : MatchSt, KeyFresh (modK x fun b => { b with mtch := m }) := fun m =>
    ⟨h.keys, h.fifos, h.cols, h.suspended, h.due, h.refs⟩
  unfold Machine.matcherOp
  dsimp only
  split
  · exact h
  · split
    · exact hset _
    · exact h

/-- The first frame of KEY finds nothing to report, and posts nothing (08 R245). -/
theorem KeyFresh.keyFrameOp (h : KeyFresh x) (hidle : x.core.key.mtch.idle = true) (hfrom : x.core.key.idleFrom = now x) :
    KeyFresh (keyFrameOp x) := by
  have hflush : encFlush x = modK x fun b => { b with encDue := [] } := by rw [encFlush, h.due]; rfl
  unfold Machine.keyFrameOp
  rw [hflush]
  extract_lets s1 s2 s3 s4 s5 every set due s6
  have h1 : KeyFresh s1 := ⟨h.keys, h.fifos, h.cols, h.suspended, rfl, h.refs⟩
  have hidle1 : s1.core.key.mtch.idle = true := hidle
  have hfrom1 : s1.core.key.idleFrom = now s1 := hfrom
  have hlock : autolockDue s1 = false := by
    rw [autolockDue, hfrom1, Nat.sub_self]
    cases hauto : uf s1 0x127A 8 8 <;> simp
  have hs2 : s2 = s1 := by
    show whenS (autolockDue s1) s1 lockOp = s1
    rw [hlock]
    rfl
  clear_value s1
  have h3 : KeyFresh s3 := by
    show KeyFresh (Machine.matcherOp s2)
    rw [hs2]
    exact h1.matcherOp hidle1
  have hs4 : s4 = s3 := foldl_id _ fun g _ => h3.suspendOp g
  have hs5 : s5 = s3 := by
    show (upto 3).foldl Machine.encFrameOp s4 = s3
    rw [hs4]
    exact foldl_id _ fun n _ => h3.encFrameOp n
  have h6 : KeyFresh s6 := by
    show KeyFresh (whenS due s5 _)
    rw [hs5]
    unfold whenS
    split
    · exact ⟨h3.keys, h3.fifos, h3.cols, h3.suspended, h3.due, h3.refs⟩
    · exact h3
  exact ⟨h6.keys, h6.fifos, h6.cols, h6.suspended, h6.due, h6.refs⟩

/-- The encoders with the levels that core start finds. -/
def encsFound (a b : BitVec 3) : List EncSt :=
  (List.replicate 3 ({} : EncSt)).zipIdx.map fun e => { e.1 with a := bit a e.2, b := bit b e.2 }

theorem encsFound_refs (a b : BitVec 3) (n : Nat) : (nth (encsFound a b) n {}).count = (nth (encsFound a b) n {}).ref := by
  rcases Nat.lt_or_ge n 3 with hn | hn
  · interval_cases n <;> rfl
  · rw [nth_of_le (by simpa [encsFound] using hn)]

/-- KEY in its reset state has no event and no key when its first frame has started. -/
theorem keyStart_fresh (hkey : x.core.key = {}) (a b : BitVec 3) : KeyFresh (keyStart x a b) := by
  have hstart : (modK x fun k => { k with
      idleFrom := now x
      encs := k.encs.zipIdx.map (fun x => { x.1 with a := bit a x.2, b := bit b x.2 }) }).core.key =
        { ({} : KeyBlk) with idleFrom := now x, encs := encsFound a b } := by
    simp only [modK, modC, hkey]
    rfl
  have hcols : ∀ c, (nth (List.replicate 16 ({} : ColSt)) c {}).state = 0 := fun c => by
    rcases Nat.lt_or_ge c 16 with hc | hc
    · rw [List.eq_of_mem_replicate (nth_mem (l := List.replicate 16 ({} : ColSt)) (d := {}) (by simpa using hc))]
    · rw [nth_of_le (by simpa using hc)]
  unfold keyStart
  generalize hy : (modK x fun k => { k with
      idleFrom := now x
      encs := k.encs.zipIdx.map (fun x => { x.1 with a := bit a x.2, b := bit b x.2 }) }) = y at hstart
  have hnow : now y = now x := by
    rw [← hy]
    rfl
  refine KeyFresh.keyFrameOp ⟨?_, ?_, ?_, ?_, ?_, ?_⟩ ?_ ?_
  · rw [hstart]
  · rw [hstart]
  · rw [hstart]
    exact hcols
  · rw [hstart]
  · rw [hstart]
  · rw [hstart]
    exact encsFound_refs a b
  · rw [hstart]
  · rw [hstart, hnow]

/-- A bank that is classed for the first time has no work to lose (01 R27). -/
theorem bankClassOp_fresh {c : Nat} (hwas : (chanOf x c).vccq = 0) (mv : Nat) :
    (bankClassOp x c mv).core.nfc.flight = x.core.nfc.flight ∧ (bankClassOp x c mv).core.nfc.wins = x.core.nfc.wins ∧
      ∀ d, d ≠ c → chanOf (bankClassOp x c mv) d = chanOf x d := by
  have hchan : ∀ (z : State) (f : NfcChan → NfcChan) d, d ≠ c → chanOf (modChan z c f) d = chanOf z d := fun z f d hd =>
    chanOf_modChan_other hd
  unfold bankClassOp
  extract_lets k was s1 s2
  have h1 : ∀ d, d ≠ c → chanOf s1 d = chanOf x d := hchan x _
  split
  · exact ⟨rfl, rfl, h1⟩
  · have h2 : s2.core.nfc.flight = x.core.nfc.flight ∧ s2.core.nfc.wins = x.core.nfc.wins ∧ s2.core.nfc.chans = s1.core.nfc.chans :=
      List.foldlRecOn (motive := fun y : State => y.core.nfc.flight = x.core.nfc.flight ∧ y.core.nfc.wins = x.core.nfc.wins ∧
        y.core.nfc.chans = s1.core.nfc.chans) (upto 4) _ ⟨rfl, rfl, rfl⟩ fun y hy i _ => hy
    obtain ⟨hflight, hwins, hchans⟩ := h2
    refine ⟨hflight, hwins, fun d hd => ?_⟩
    rw [hchan s2 _ d hd, ← h1 d hd, chanOf, hchans]
    rfl

/-- All banks are classed at core start (01 R27). -/
theorem bankClasses_fresh (hfresh : ∀ c, (chanOf x c).vccq = 0) (mv : Nat → Nat) :
    ((upto 4).foldl (fun s c => bankClassOp s c (mv c)) x).core.nfc.flight = x.core.nfc.flight ∧
      ((upto 4).foldl (fun s c => bankClassOp s c (mv c)) x).core.nfc.wins = x.core.nfc.wins := by
  have hfold : ∀ (l : List Nat) (y : State), l.Nodup → (∀ c ∈ l, (chanOf y c).vccq = 0) →
      (l.foldl (fun s c => bankClassOp s c (mv c)) y).core.nfc.flight = y.core.nfc.flight ∧
        (l.foldl (fun s c => bankClassOp s c (mv c)) y).core.nfc.wins = y.core.nfc.wins := by
    intro l
    induction l with
    | nil => exact fun y _ _ => ⟨rfl, rfl⟩
    | cons c l ih =>
      intro y hnodup hzero
      obtain ⟨hc, hl⟩ := List.nodup_cons.1 hnodup
      obtain ⟨hflight, hwins, hother⟩ := bankClassOp_fresh (hzero c List.mem_cons_self) (mv c)
      obtain ⟨hf, hw⟩ := ih (bankClassOp y c (mv c)) hl fun d hd => by
        rw [hother d fun h => hc (h ▸ hd)]
        exact hzero d (List.mem_cons_of_mem _ hd)
      exact ⟨hf.trans hflight, hw.trans hwins⟩
  exact hfold _ x List.nodup_range fun c _ => hfresh c

theorem first_railRecord (x : State) (rail kind reaction : Nat) : (railRecord x rail kind reaction).core.seq.first = x.core.seq.first := by
  unfold railRecord
  extract_lets a b y z
  have hr := Goes.refl [.irqPend, .capo] y
  have hz : Goes [.irqPend, .capo] y (capoFault z 17) := (Goes.cond (hr.raiseOwner0 (by decide)) (hr.raise (by decide))).capoFault (by decide)
  have hsame : (capoFault z 17).core.seq = y.core.seq := hz.same .seq (by decide)
  exact (congrArg SeqSt.first hsame).trans rfl

/-- Another step of the sequencer is not its first (06 R180). -/
theorem first_seqStep (x : State) (spg : BitVec 10) (smon : List Nat) : (seqStep x spg smon).core.seq.first = false := by
  unfold seqStep
  extract_lets
  refine List.foldlRecOn (motive := fun y : State => y.core.seq.first = false) _ _ rfl fun y hy r _ => ?_
  have hrec : ∀ c : Prop, [Decidable c] → (if c then railRecord y r 4 0 else y).core.seq.first = false := fun c _ => by
    split
    · rw [first_railRecord, hy]
    · exact hy
  extract_lets evs s1 nst ost
  have hs1 : s1.core.seq.first = false := hrec _
  split
  · have hg : Goes [.irqPend] s1 (raiseOwner s1 (.rail r) 17) := (Goes.refl _ _).raiseOwner (by decide)
    exact (congrArg SeqSt.first (hg.same .seq (by decide))).trans hs1
  · exact hs1

theorem bootSource_logAdopt (x : State) : (logAdopt x).core.efl.bootSource = x.core.efl.bootSource := by
  unfold logAdopt
  dsimp only
  split
  · rfl
  · split
    · rfl
    · split <;> rfl

theorem bootSource_flashResume (x : State) : (flashResume x).core.efl.bootSource = x.core.efl.bootSource := by
  unfold flashResume
  split <;> rfl

theorem bootSource_wfValidateEnd (x : State) : (wfValidateEnd x).core.efl.bootSource = x.core.efl.bootSource := by
  have hlost : ∀ y, (tableLost y).core.efl = y.core.efl := fun _ => rfl
  have hmod : ∀ y (f : PixSt → PixSt), (modP y f).core.efl = y.core.efl := fun _ _ => rfl
  unfold wfValidateEnd
  dsimp only
  split
  · split
    · split
      · rw [hlost, hmod, bootSource_flashResume, hmod]
      · rw [hmod, hmod, bootSource_flashResume, hmod]
    · rw [hlost, bootSource_flashResume, hmod]
  · rfl

end Sys2Proof.Machine
end

section
/-! PROOFS. Chapters 01, 05, 16: core start (05 R142, R146). -/

set_option Elab.async false

namespace Sys2Proof.Machine

variable {s x y : State}

/-- The device as core start finds it: the core domain at its reset values. -/
def coreFresh (s : State) : State :=
  modH (setPhase { s with core := { pwr := { rc48 := decide (s.hold.outcome ≠ 0) } } } .run) fun h => { h with keyExcl := 0 }

theorem counted_coreFresh (s : State) : Counted (coreFresh s) := by
  unfold coreFresh Counted modH setPhase modA
  dsimp only
  decide

theorem bootSource_wfValidateStart (x : State) (reload : Bool) :
    (wfValidateStart x reload).core.efl.bootSource = x.core.efl.bootSource := by
  unfold wfValidateStart whenS
  dsimp only
  split
  · exact bootSource_flashSuspend x
  · rfl

/-- What the boot course leaves, from the state in which it starts. -/
theorem bootCourse_coreFresh (s : State) : Booting (bootJudged (coreFresh s)) (bootCourse (coreFresh s)) :=
  bootCourse_booting ⟨counted_coreFresh s, rfl, rfl, rfl, rfl, rfl, rfl, rfl, rfl, rfl, rfl, rfl⟩

/-- The parts that the blocks change as they start. -/
def startPieces : List Piece := [.hold, .capo, .part, .irqPend, .seq, .flw, .key, .epd, .pix, .efl, .nfc, .gng]

theorem goes_blocksStart (pre x : State) (obs : StartObs) : Goes startPieces x (blocksStart pre x obs) :=
  (Goes.refl _ x).blocksStart (by decide)

/-- The blocks start: the panel, SEQ, KEY and the watchdogs. -/
def blocksKeyed (pre x : State) (obs : StartObs) : State :=
  let y := if rd x 0x1404 != rd pre 0x1404 || bit (rd x 0x1400) 1 != bit (rd pre 0x1400) 1 then panelCopy x else x
  (upto 4).foldl wdogStart (keyStart (seqStart (senHeld pre) y) obs.encA obs.encB)

/-- The blocks start: setup flash and FLW. -/
def blocksReady (x : State) : State :=
  let y := logAdopt (modF x (fun e => { e with banks := e.banks.map (fun b => { b with cfg := rd x 0x1600 }) }))
  (upto 48).foldl (fun s i => ageWritten s (i / 8) (i % 8)) y

/-- The blocks start: the NAND banks. -/
def blocksClassed (x : State) (obs : StartObs) : State :=
  let y := modN x (fun n => { n with luns := n.luns.zipIdx.map (fun z => if lunEn x z.2 then z.1 else { z.1 with state := 6 }) })
  (upto 4).foldl (fun s c => bankClassOp s c (nth obs.vccqMv c 0)) y

/-- The blocks start: the gang link. -/
def blocksLinked (pre x : State) : State := modG (hookGng pre x) (fun g => { g with lastVote := effVote x })

/-- The blocks, once begun. -/
def blocksBegun (pre x : State) (obs : StartObs) : State :=
  blocksLinked pre (blocksClassed (blocksReady (blocksKeyed pre x obs)) obs)

theorem blocksStart_eq (pre x : State) (obs : StartObs) : blocksStart pre x obs =
    seqStep (whenS (decide ((blocksBegun pre x obs).core.efl.bootSource ≠ 0)) (blocksBegun pre x obs)
      fun s => wfValidateEnd (wfValidateStart s false)) obs.spg obs.smonUv := rfl

theorem goes_blocksKeyed (pre x : State) (obs : StartObs) : Goes [.hold, .seq, .irqPend, .key, .part] x (blocksKeyed pre x obs) :=
  ((Goes.cond ((Goes.refl _ x).panelCopy (by decide)) (Goes.refl _ x)).seqStart (by decide)).keyStart (by decide) (by decide) (by decide)
    |>.foldl fun _ _ h => h.wdogStart (by decide)

theorem goes_blocksReady (x : State) : Goes [.efl, .flw] x (blocksReady x) :=
  (((Goes.refl _ x).modF (by decide)).logAdopt (by decide)).foldl fun _ _ h => h.ageWritten (by decide)

theorem goes_blocksClassed (x : State) (obs : StartObs) : Goes [.nfc, .capo, .irqPend] x (blocksClassed x obs) :=
  ((Goes.refl _ x).modN (by decide)).foldl fun _ _ h => h.bankClassOp (by decide) (by decide) (by decide)

theorem goes_blocksLinked (pre x : State) : Goes [.irqPend, .gng] x (blocksLinked pre x) :=
  ((Goes.refl _ x).hookGng (by decide) (by decide)).modG (by decide)

theorem bootSource_blocksReady (x : State) : (blocksReady x).core.efl.bootSource = x.core.efl.bootSource := by
  unfold blocksReady
  extract_lets y
  have hg : Goes [.flw] y ((upto 48).foldl (fun s i => ageWritten s (i / 8) (i % 8)) y) :=
    (Goes.refl _ y).foldl fun _ _ h => h.ageWritten (by decide)
  have hy : y.core.efl.bootSource = x.core.efl.bootSource := (bootSource_logAdopt _).trans rfl
  exact (congrArg EflSt.bootSource (hg.same .efl (by decide))).trans hy

theorem bootSource_blocksBegun (pre x : State) (obs : StartObs) : (blocksBegun pre x obs).core.efl.bootSource = x.core.efl.bootSource := by
  have hkeyed : (blocksKeyed pre x obs).core.efl = x.core.efl := (goes_blocksKeyed pre x obs).same .efl (by decide)
  have hclassed : ∀ y, (blocksClassed y obs).core.efl = y.core.efl := fun y => (goes_blocksClassed y obs).same .efl (by decide)
  have hlinked : ∀ y, (blocksLinked pre y).core.efl = y.core.efl := fun y => (goes_blocksLinked pre y).same .efl (by decide)
  rw [blocksBegun, hlinked, hclassed, bootSource_blocksReady, hkeyed]

theorem bootSource_blocksStart (pre x : State) (obs : StartObs) :
    (blocksStart pre x obs).core.efl.bootSource = x.core.efl.bootSource := by
  have hseq : ∀ y spg smon, (seqStep y spg smon).core.efl = y.core.efl := fun y spg smon =>
    ((Goes.refl [.capo, .irqPend, .seq] y).seqStep (by decide) (by decide) (by decide)).same .efl (by decide)
  rw [blocksStart_eq, hseq, ← bootSource_blocksBegun pre x obs]
  generalize blocksBegun pre x obs = y
  unfold whenS
  split
  · rw [bootSource_wfValidateEnd, bootSource_wfValidateStart]
  · rfl

theorem inReset_wdogs (x : State) (l : List Nat) : (l.foldl wdogStart x).core.part.inReset = x.core.part.inReset :=
  List.foldlRecOn (motive := fun y : State => y.core.part.inReset = x.core.part.inReset) l _ rfl fun _ h _ _ => h

theorem blocksKeyed_fresh {pre : State} {obs : StartObs} (hkey : x.core.key = {}) :
    KeyFresh (blocksKeyed pre x obs) ∧ (blocksKeyed pre x obs).core.part.inReset = x.core.part.inReset := by
  unfold blocksKeyed
  extract_lets y
  have hy : Goes [.hold, .seq] x (seqStart (senHeld pre) y) :=
    (Goes.cond ((Goes.refl _ x).panelCopy (by decide)) (Goes.refl _ x)).seqStart (by decide)
  generalize seqStart (senHeld pre) y = z at hy
  have hz : KeyFresh (keyStart z obs.encA obs.encB) := keyStart_fresh ((hy.same .key (by decide)).trans hkey) _ _
  have hstart : (keyStart z obs.encA obs.encB).core.part = z.core.part :=
    ((Goes.refl [.hold, .irqPend, .key] z).keyStart (by decide) (by decide) (by decide)).same .part (by decide)
  have hpart : z.core.part = x.core.part := hy.same .part (by decide)
  rw [inReset_wdogs, hstart, hpart]
  refine ⟨?_, rfl⟩
  generalize keyStart z obs.encA obs.encB = w at hz
  have hw : ((upto 4).foldl wdogStart w).core.key = w.core.key :=
    ((Goes.refl [.part] w).foldl fun _ _ h => h.wdogStart (by decide)).same .key (by decide)
  generalize (upto 4).foldl wdogStart w = u at hw
  obtain ⟨hkeys, hfifos, hcols, hsusp, hdue, hrefs⟩ := hz
  rw [← hw] at hkeys hfifos hcols hsusp hdue hrefs
  exact ⟨hkeys, hfifos, hcols, hsusp, hdue, hrefs⟩

theorem blocksClassed_fresh {obs : StartObs} (hchans : ∀ c, (chanOf x c).vccq = 0) :
    (blocksClassed x obs).core.nfc.flight = x.core.nfc.flight ∧ (blocksClassed x obs).core.nfc.wins = x.core.nfc.wins := by
  unfold blocksClassed
  extract_lets y
  have hy : ∀ c, (chanOf y c).vccq = 0 := hchans
  exact bankClasses_fresh hy fun c => nth obs.vccqMv c 0

/-- What is as it was after the blocks have started from their reset values without a boot course. -/
structure Idle (x y : State) : Prop where
  epd : y.core.epd = x.core.epd
  pix : y.core.pix = x.core.pix
  inReset : y.core.part.inReset = x.core.part.inReset
  flight : y.core.nfc.flight = x.core.nfc.flight
  wins : y.core.nfc.wins = x.core.nfc.wins
  keys : y.core.key.keys = []
  fifos : y.core.key.fifos = List.replicate 4 {}

/-- Parts that no block of these holds may change. -/
theorem Idle.goes {x y z : State} {ps : List Piece} (h : Idle x y) (hg : Goes ps y z)
    (hps : ∀ k ∈ [Piece.epd, .pix, .part, .nfc, .key], k ∉ ps) : Idle x z where
  epd := (hg.same .epd (hps _ (by decide))).trans h.epd
  pix := (hg.same .pix (hps _ (by decide))).trans h.pix
  inReset := (congrArg PartSt.inReset (hg.same .part (hps _ (by decide)))).trans h.inReset
  flight := (congrArg NfcSt.flight (hg.same .nfc (hps _ (by decide)))).trans h.flight
  wins := (congrArg NfcSt.wins (hg.same .nfc (hps _ (by decide)))).trans h.wins
  keys := (congrArg KeyBlk.keys (hg.same .key (hps _ (by decide)))).trans h.keys
  fifos := (congrArg KeyBlk.fifos (hg.same .key (hps _ (by decide)))).trans h.fifos

theorem blocksBegun_idle {pre : State} {obs : StartObs} (hkey : x.core.key = {}) (hchans : ∀ c, (chanOf x c).vccq = 0) :
    Idle x (blocksBegun pre x obs) := by
  have hkeyed := goes_blocksKeyed pre x obs
  obtain ⟨hfresh, hreset⟩ := blocksKeyed_fresh (pre := pre) (obs := obs) hkey
  unfold blocksBegun
  generalize blocksKeyed pre x obs = y at hkeyed hfresh hreset
  have hnfc : y.core.nfc = x.core.nfc := hkeyed.same .nfc (by decide)
  have hy : Idle x y :=
    ⟨hkeyed.same .epd (by decide), hkeyed.same .pix (by decide), hreset, by rw [hnfc], by rw [hnfc], hfresh.keys, hfresh.fifos⟩
  have hz : Idle x (blocksReady y) := hy.goes (goes_blocksReady y) (by decide)
  have hznfc : (blocksReady y).core.nfc = x.core.nfc := ((goes_blocksReady y).same .nfc (by decide)).trans hnfc
  generalize blocksReady y = z at hz hznfc
  obtain ⟨hflight, hwins⟩ := blocksClassed_fresh (x := z) (obs := obs) fun c => by rw [chanOf, hznfc]; exact hchans c
  have hclassed := goes_blocksClassed z obs
  have hu : Idle x (blocksClassed z obs) :=
    ⟨(hclassed.same .epd (by decide)).trans hz.epd, (hclassed.same .pix (by decide)).trans hz.pix,
      (congrArg PartSt.inReset (hclassed.same .part (by decide))).trans hz.inReset, hflight.trans hz.flight, hwins.trans hz.wins,
      (congrArg KeyBlk.keys (hclassed.same .key (by decide))).trans hz.keys,
      (congrArg KeyBlk.fifos (hclassed.same .key (by decide))).trans hz.fifos⟩
  exact hu.goes (goes_blocksLinked pre _) (by decide)

/-- Without a boot course there is no table to validate (10 R284), and nothing to report. -/
theorem blocksStart_idle {pre : State} {obs : StartObs} (hsource : x.core.efl.bootSource = 0) (hkey : x.core.key = {})
    (hchans : ∀ c, (chanOf x c).vccq = 0) : Idle x (blocksStart pre x obs) := by
  have hbegun := blocksBegun_idle (pre := pre) (obs := obs) hkey hchans
  have hzero : decide ((blocksBegun pre x obs).core.efl.bootSource ≠ 0) = false := by
    rw [bootSource_blocksBegun, hsource]
    rfl
  rw [blocksStart_eq, hzero]
  exact hbegun.goes ((Goes.refl [.capo, .irqPend, .seq] _).seqStep (by decide) (by decide) (by decide)) (by decide)

end Sys2Proof.Machine
end

section
/-! PROOFS. Chapters 01, 05, 16: core start (05 R142, R146). -/

set_option Elab.async false

namespace Sys2Proof.Machine

variable {s : State} {obs : StartObs}

/-- The device with its blocks started and its supplies measured. -/
def coreBegun (s : State) (obs : StartObs) : State :=
  vmeasOp (blocksStart (coreFresh s) (bootCourse (coreFresh s)) obs) obs.mainMv obs.bakMv

/-- The device with its wake told of. -/
def coreTold (s : State) (obs : StartObs) : State :=
  if bit (raiseAll (coreBegun s obs) 0).aon.wake 5 then raiseAll (raiseAll (coreBegun s obs) 0) 2 else raiseAll (coreBegun s obs) 0

theorem coreStartOp_due (hphase : s.aon.phase = .coreStart) : coreStartOp s obs = coreTold s obs := by
  unfold coreStartOp
  exact if_pos hphase

theorem goes_coreBegun (s : State) (obs : StartObs) :
    Goes [.hold, .capo, .part, .irqPend, .seq, .flw, .key, .epd, .pix, .efl, .nfc, .gng, .pwr, .doze] (bootCourse (coreFresh s)) (coreBegun s obs) :=
  ((goes_blocksStart (coreFresh s) (bootCourse (coreFresh s)) obs).mono (by decide)).vmeasOp (by decide) (by decide)

theorem goes_coreTold (s : State) (obs : StartObs) : Goes [.irqPend] (coreBegun s obs) (coreTold s obs) := by
  have hg := (Goes.refl [.irqPend] (coreBegun s obs)).raiseAll (by decide) (n := 0)
  unfold coreTold
  exact .cond (hg.raiseAll (by decide)) hg

theorem pwr_coreTold (s : State) (obs : StartObs) : (coreTold s obs).core.pwr =
    { rc48 := decide (s.hold.outcome ≠ 0), vmain := sat 4095 obs.mainMv, vbak := sat 8191 obs.bakMv, measured := true } := by
  have hboot : (bootCourse (coreFresh s)).core.pwr = { rc48 := decide (s.hold.outcome ≠ 0) } := (bootCourse_coreFresh s).pwr
  have hstart : (blocksStart (coreFresh s) (bootCourse (coreFresh s)) obs).core.pwr = { rc48 := decide (s.hold.outcome ≠ 0) } :=
    (Booting.pwr_same (goes_blocksStart (coreFresh s) (bootCourse (coreFresh s)) obs) (by decide)).trans hboot
  rw [Booting.pwr_same (goes_coreTold s obs) (by decide), coreBegun]
  generalize blocksStart (coreFresh s) (bootCourse (coreFresh s)) obs = y at hstart
  have hmeas : (vmeasOp y obs.mainMv obs.bakMv).core.pwr =
    { y.core.pwr with vmain := sat 4095 obs.mainMv, vbak := sat 8191 obs.bakMv, measured := true } := rfl
  rw [hmeas, hstart]

theorem aon_coreBegun (s : State) (obs : StartObs) : (coreBegun s obs).aon = (bootCourse (coreFresh s)).aon :=
  (goes_coreBegun s obs).same .aon (by decide)

/-- WAKE_DONE, and MAIN_BACK where MAIN is among the causes (05 R146). -/
theorem pend_coreTold (s : State) (obs : StartObs) : ∀ q ∈ (coreTold s obs).core.irq,
    bit q.pend 0 = true ∧ (bit s.aon.wake 5 = true → bit q.pend 2 = true) := by
  have hwake : (raiseAll (coreBegun s obs) 0).aon.wake = s.aon.wake :=
    (congrArg Aon.wake (aon_coreBegun s obs)).trans (bootCourse_coreFresh s).wake
  have h0 : ∀ q ∈ (raiseAll (coreBegun s obs) 0).core.irq, bit q.pend 0 = true := pend_raiseAll_all (by decide)
  unfold coreTold
  rw [hwake]
  generalize raiseAll (coreBegun s obs) 0 = y at h0
  split
  next hmain =>
    have hg : Goes [.irqPend] y (raiseAll y 2) := (Goes.refl _ y).raiseAll (by decide)
    have h1 := hg.pend_all (by decide) h0
    have h2 : ∀ q ∈ (raiseAll y 2).core.irq, bit q.pend 2 = true := pend_raiseAll_all (by decide)
    exact fun q hq => ⟨h1 q hq, fun _ => h2 q hq⟩
  next hmain => exact fun q hq => ⟨h0 q hq, fun h => absurd h hmain⟩

/-- The copy in force stays that of the boot course. -/
theorem bootSource_coreTold (s : State) (obs : StartObs) : (coreTold s obs).core.efl.bootSource = bootCopy (coreFresh s) := by
  have htold : (coreTold s obs).core.efl = (coreBegun s obs).core.efl := (goes_coreTold s obs).same .efl (by decide)
  have hmeas : ∀ x a b, (vmeasOp x a b).core.efl = x.core.efl := fun _ _ _ => rfl
  have hboot : (bootCourse (coreFresh s)).core.efl.bootSource = bootCopy (coreFresh s) := (bootCourse_coreFresh s).source
  rw [htold, coreBegun, hmeas, bootSource_blocksStart, hboot]

/-- Without a boot course nothing but the record of the judged copies has left its reset value before the blocks start. -/
theorem coreTold_idle (hnone : bootCopy (coreFresh s) = 0) : Idle (coreFresh s) (coreTold s obs) := by
  have hcourse : bootCourse (coreFresh s) = bootJudged (coreFresh s) := bootCourse_none hnone
  have hstart : Idle (bootJudged (coreFresh s)) (blocksStart (coreFresh s) (bootJudged (coreFresh s)) obs) := by
    refine blocksStart_idle hnone rfl fun c => ?_
    show (nth (List.replicate 4 ({} : NfcChan)) c {}).vccq = 0
    rcases Nat.lt_or_ge c 4 with hc | hc
    · rw [List.eq_of_mem_replicate (nth_mem (l := List.replicate 4 ({} : NfcChan)) (d := {}) (by simpa using hc))]
    · rw [nth_of_le (by simpa using hc)]
  have hbegun : Idle (bootJudged (coreFresh s)) (coreBegun s obs) := by
    unfold coreBegun
    rw [hcourse]
    exact hstart.goes ((Goes.refl [.pwr, .doze] _).vmeasOp (by decide) (by decide)) (by decide)
  have htold := hbegun.goes (goes_coreTold s obs) (by decide)
  exact ⟨htold.epd, htold.pix, htold.inReset, htold.flight, htold.wins, htold.keys, htold.fifos⟩

/-- Parts that neither the start of the blocks nor the boot course, where there is none, may change. -/
theorem coreTold_same (hnone : bootCopy (coreFresh s) = 0) :
    Goes [.efl, .hold, .capo, .part, .irqPend, .seq, .flw, .key, .epd, .pix, .nfc, .gng, .pwr, .doze] (coreFresh s) (coreTold s obs) := by
  have hjudged : Goes [.efl] (coreFresh s) (bootJudged (coreFresh s)) := (Goes.refl _ _).modF (by decide)
  have hbegun := goes_coreBegun s obs
  rw [bootCourse_none hnone] at hbegun
  exact ((hjudged.mono (by decide)).trans (hbegun.mono (by decide))).trans ((goes_coreTold s obs).mono (by decide))

theorem irqUsed_of_noParity {x : State} (hpar : x.core.parity = []) (p : Nat) (q : IrqSt) (hen : q.en = 0) : (irqUsed x p q).en = 0 := by
  have hword : ∀ k v, irqWord x p k v = v := fun k v => if_neg (by rw [badW, hpar]; simp)
  simp only [irqUsed, irqBits, hword, hen]
  decide

theorem seq_first_coreTold (s : State) (obs : StartObs) : (coreTold s obs).core.seq.first = false := by
  have htold : (coreTold s obs).core.seq = (coreBegun s obs).core.seq := (goes_coreTold s obs).same .seq (by decide)
  have hmeas : ∀ x a b, (vmeasOp x a b).core.seq = x.core.seq := fun _ _ _ => rfl
  rw [htold, coreBegun, hmeas, blocksStart_eq, first_seqStep]

theorem replicate_of_map {α β : Type} {l : List α} {n : Nat} {a : α} {f : α → β} (h : l.map f = (List.replicate n a).map f) :
    ∀ b ∈ l, f b = f a := fun b hb => by
  have hmem : f b ∈ (List.replicate n a).map f := h ▸ List.mem_map_of_mem hb
  rw [List.map_replicate] at hmem
  exact List.eq_of_mem_replicate hmem

/-- Settles O32: the boot course may write no WO and no W1C bit, so that it acts on no mailbox, port, check unit or course; the blocks
start from what it leaves, and without one from their reset values. -/
theorem coreStartTakesResetValues : Obligations.CoreStartTakesResetValues := by
  unfold Obligations.CoreStartTakesResetValues
  intro s obs
  have hexec : exec (.coreStart obs) s = .next (settle (coreStartOp s obs)) := rfl
  refine ⟨fun hphase => ?_, fun hphase => ?_⟩
  · have hnot : coreStartOp s obs = s := if_neg hphase
    rw [hexec, hnot]
  · rw [coreStartOp_due hphase] at hexec
    refine ⟨_, hexec, ?_⟩
    have hboot := bootCourse_coreFresh s
    have hgoes := (goes_coreBegun s obs).trans ((goes_coreTold s obs).mono (by decide))
    have hpwr := pwr_coreTold s obs
    have hfirst := seq_first_coreTold s obs
    have hpend := pend_coreTold s obs
    have hsource := bootSource_coreTold s obs
    have hidle := @coreTold_idle s obs
    have hsame := @coreTold_same s obs
    generalize coreTold s obs = u at hgoes hpwr hfirst hpend hsource hidle hsame ⊢
    have haon : u.aon = (bootCourse (coreFresh s)).aon := hgoes.same .aon (by decide)
    have hports : u.core.ports = List.replicate 4 {} := (hgoes.same .ports (by decide)).trans hboot.ports
    have hset : Goes endPieces u (settle u) := (Goes.refl _ u).settle (by decide)
    refine ⟨?_, ?_, (hgoes.same .mbxs (by decide)).trans hboot.mbxs, ?_, (hgoes.same .cvu (by decide)).trans hboot.units, hfirst, ?_, ?_,
      fun q hq => ?_, fun hzero => ?_, ?_, ?_, (hgoes.same .flash (by decide)).trans hboot.flash⟩
    · show (u.aon.phase == .run) = true
      rw [haon, hboot.phase]
      rfl
    · show u.core.pwr.rc48 = _
      rw [hpwr]
    · show portsAfter u = _
      unfold portsAfter
      dsimp only
      split
      · exact hports
      · rw [hports]
        rfl
    · show u.core.pwr.vmain = _
      rw [hpwr]
    · show u.core.pwr.vbak = _
      rw [hpwr]
    · exact ⟨hset.pend_all (by decide) (fun q hq => (hpend q hq).1) q hq,
        fun hmain => hset.pend_all (by decide) (fun q hq => (hpend q hq).2 hmain) q hq⟩
    · have hnone : bootCopy (coreFresh s) = 0 := hsource.symm.trans hzero
      obtain ⟨hepd, hpix, hreset, hflight, hwins, hkeys, hfifos⟩ := hidle hnone
      have hu := hsame hnone
      have hpar : u.core.parity = [] := hu.same .parity (by decide)
      have hcodes : (settle u).core.irq.map (fun q => (q.en, q.imm, q.count, q.time)) =
          (List.replicate 4 ({} : IrqSt)).map fun q => (q.en, q.imm, q.count, q.time) :=
        Eq.trans (hset.same .irqSet (by decide)) (hu.same .irqSet (by decide))
      refine ⟨hu.same .regs (by decide), hpar, hu.same .course (by decide), hu.same .dev (by decide), hu.same .buf (by decide), hepd, hpix,
        hu.same .thm (by decide), hflight, hwins, hfifos, hkeys, hreset, fun q hq => ?_⟩
      have hcode : (q.en, q.imm, q.count, q.time) = (0, 0, 1, 0) := replicate_of_map hcodes q hq
      obtain ⟨hen, himm, hcount, htime⟩ : q.en = 0 ∧ q.imm = 0 ∧ q.count = 1 ∧ q.time = 0 := by simpa using hcode
      obtain ⟨i, hi, rfl⟩ := List.getElem_of_mem hq
      have hsettled := (settled_settle u).2.1 ((settle u).core.irq[i], i) (List.mk_mem_zipIdx_iff_getElem?.2 (by simp [hi]))
      have hquiet : (irqUsed (settle u) i (settle u).core.irq[i]).en = 0 := irqUsed_of_noParity hpar i _ hen
      obtain ⟨-, -, -, hsummary⟩ := hsettled
      exact ⟨hen, himm, hcount, htime, (hsummary (by simp [hquiet])).1⟩
    · show u.aon.tbase = _
      rw [haon, hboot.tbase]
      rfl
    · show u.aon.wake = _
      rw [haon, hboot.wake]
      rfl

end Sys2Proof.Machine
end

section
/-! SUPPORT. NAND work that goes on leaves each LUN the course that it runs (03 R86). -/

set_option Elab.async false

namespace Sys2Proof.Machine

/-- Each LUN runs the course that it ran, and waits for the pending one if it waited. -/
structure SameTurns (s t : State) : Prop where
  turn : ∀ l, (lunOf t l).running = (lunOf s l).running ∧ (lunOf t l).pending = (lunOf s l).pending

section Rules

variable {s x y : State}

theorem SameTurns.refl (s : State) : SameTurns s s := ⟨fun _ => ⟨rfl, rfl⟩⟩

theorem SameTurns.trans (h : SameTurns s x) (k : SameTurns x y) : SameTurns s y :=
  ⟨fun l => ⟨(k.turn l).1.trans (h.turn l).1, (k.turn l).2.trans (h.turn l).2⟩⟩

theorem SameTurns.luns (h : SameTurns s x) (hluns : y.core.nfc.luns = x.core.nfc.luns) : SameTurns s y := ⟨fun l => by
  rw [lunOf, hluns]
  exact h.turn l⟩

theorem SameTurns.goes {ps : List Piece} (h : SameTurns s x) (hg : Goes ps x y) (hnfc : .nfc ∉ ps) : SameTurns s y :=
  h.luns (congrArg NfcSt.luns (hg.same .nfc hnfc))

theorem SameTurns.modN (h : SameTurns s x) {f : NfcSt → NfcSt} (hf : (f x.core.nfc).luns = x.core.nfc.luns) : SameTurns s (modN x f) :=
  h.luns hf

theorem SameTurns.modLun (h : SameTurns s x) {l : Nat} {g : NfcLun → NfcLun}
    (hg : ∀ q, (g q).running = q.running ∧ (g q).pending = q.pending) : SameTurns s (modLun x l g) := ⟨fun m => by
  rcases lunOf_modLun_or x l m g with hm | hm
  · rw [hm]
    exact h.turn m
  · rw [hm, (hg _).1, (hg _).2]
    exact h.turn m⟩

theorem SameTurns.cond {c : Prop} {_ : Decidable c} (hx : SameTurns s x) (hy : SameTurns s y) : SameTurns s (if c then x else y) := by
  split
  · exact hx
  · exact hy

theorem SameTurns.cond_fst {α : Type} {c : Prop} {_ : Decidable c} {x y : State × α} (hx : SameTurns s x.1) (hy : SameTurns s y.1) :
    SameTurns s (if c then x else y).1 := by
  split
  · exact hx
  · exact hy

theorem SameTurns.foldl {α : Type} {f : State → α → State} (h : SameTurns s x) (hf : ∀ y a, SameTurns s y → SameTurns s (f y a)) {l : List α} :
    SameTurns s (l.foldl f x) :=
  List.foldlRecOn l f h fun y hy a _ => hf y a hy

theorem SameTurns.modChan (h : SameTurns s x) {c : Nat} {f : NfcChan → NfcChan} : SameTurns s (modChan x c f) := h.modN rfl

theorem SameTurns.modFl (h : SameTurns s x) {num : Nat} {f : Flight → Flight} : SameTurns s (modFl x num f) := h.modN rfl

theorem SameTurns.sendTo (h : SameTurns s x) {c ce : Nat} {cy : List NandCycle} : SameTurns s (sendTo x c ce cy) := .cond h h.modChan

theorem SameTurns.sendLun (h : SameTurns s x) {l : Nat} {cy : List NandCycle} : SameTurns s (sendLun x l cy) := h.sendTo

theorem SameTurns.applyEntry (h : SameTurns s x) {l k : Nat} : SameTurns s (applyEntry x l k) := h.sendLun.modLun fun _ => ⟨rfl, rfl⟩

theorem SameTurns.endFlight (h : SameTurns s x) {num status : Nat} : SameTurns s (endFlight x num status) := by
  unfold Machine.endFlight
  dsimp only
  split
  · exact h
  · exact .cond (h.modN rfl) (h.modFl.modN rfl)

theorem SameTurns.endAll (h : SameTurns s x) {es : List (Nat × Nat)} : SameTurns s (endAll x es) := h.foldl fun _ _ h => h.endFlight

theorem SameTurns.contendUpdate (h : SameTurns s x) {l : Nat} : SameTurns s (contendUpdate x l) := .cond h (h.modLun fun _ => ⟨rfl, rfl⟩)

theorem SameTurns.chooseLun (h : SameTurns s x) {l : Nat} : SameTurns s (chooseLun x l).2 := by
  unfold Machine.chooseLun
  dsimp only
  split
  · exact h.contendUpdate
  · exact h.contendUpdate.modLun fun _ => ⟨rfl, rfl⟩

theorem SameTurns.rawAdvance (h : SameTurns s x) {l : Nat} {r : RunSt} : SameTurns s (rawAdvance x l r).2 := h.sendLun

theorem SameTurns.runStart (h : SameTurns s x) {l : Nat} {r : RunSt} : SameTurns s (runStart x l r) := by
  unfold Machine.runStart
  dsimp only
  split
  · exact h
  · exact .cond (SameTurns.cond h h.applyEntry).sendLun (.cond h.sendLun (.cond (.cond h (h.rawAdvance.modLun fun _ => ⟨rfl, rfl⟩))
      (.cond h.sendLun (.cond h h.sendLun))))

theorem SameTurns.dispatchRun (h : SameTurns s x) {l : Nat} {f : Flight} {prog : Bool} : SameTurns s (dispatchRun x l f prog).2 :=
  h.foldl fun _ _ h => (h.foldl fun _ _ h => h.goes ((Goes.refl [.buf] _).bufTouch (by decide)) (by decide)).modFl

theorem SameTurns.chooseRun (h : SameTurns s x) {l : Nat} : SameTurns s (chooseRun x l).2 := by
  have h1 : SameTurns s (Machine.chooseLun x l).2 := h.chooseLun
  unfold Machine.chooseRun
  split
  next e => rwa [e] at h1
  next e =>
    rw [e] at h1
    split
    · exact h1
    · exact h1.dispatchRun.contendUpdate

theorem SameTurns.dispatchAll (h : SameTurns s x) : SameTurns s (dispatchAll x) := by
  unfold Machine.dispatchAll
  dsimp only
  refine h.foldl fun x l h => .cond ?_ h.contendUpdate
  split
  · refine SameTurns.runStart (SameTurns.modLun (g := fun q => { q with cur := some _ }) h.chooseRun fun q => ?_)
    exact ⟨rfl, rfl⟩
  · exact h.chooseRun

theorem SameTurns.admitAll (h : SameTurns s x) : SameTurns s (admitAll x) := by
  unfold Machine.admitAll
  refine List.foldlRecOn _ _ (motive := fun x : State × List (Nat × Nat) => SameTurns s x.1) h fun x h f _ => ?_
  dsimp only
  split
  · exact h
  · have hheld {c : Prop} {_ : Decidable c} {n : Nat} {f : Flight → Flight} :
        SameTurns s (if c then Machine.modFl x.1 n f else x.1) := .cond h.modFl h
    exact .cond_fst h (.cond_fst hheld (.cond_fst (hheld.foldl fun _ _ h => h.modFl) hheld.endAll))

theorem SameTurns.xferSend (h : SameTurns s x) {l : Nat} {r : RunSt} : SameTurns s (xferSend x l r) := by
  unfold Machine.xferSend
  dsimp only
  refine .cond h.sendLun (.cond h.sendLun (h.foldl fun x e h => ?_))
  split
  · exact .cond h.sendLun h
  · exact h.sendLun

theorem SameTurns.grantBus (h : SameTurns s x) {c : Nat} : SameTurns s (grantBus x c) := by
  unfold Machine.grantBus
  dsimp only
  refine .cond h ?_
  split
  · exact h
  · refine SameTurns.modLun ?_ fun q => ?_
    · split
      · exact h.modChan.xferSend
      · exact h.modChan
    · split
      · split <;> exact ⟨rfl, rfl⟩
      · exact ⟨rfl, rfl⟩

theorem SameTurns.nfcService (h : SameTurns s x) : SameTurns s (nfcService x) :=
  (h.admitAll.dispatchAll.admitAll.foldl fun _ _ h => h.contendUpdate).foldl fun _ _ h => h.grantBus

theorem SameTurns.postOne (h : SameTurns s x) {f : Flight} : SameTurns s (postOne x f) := by
  unfold Machine.postOne
  extract_lets p w s1 s2 s3
  have hbuf : ∀ a bs, SameTurns s (bufStore x a bs) := fun a bs => h.goes ((Goes.refl [.buf] x).bufStore (by decide)) (by decide)
  exact (((hbuf _ _).modN rfl).modN rfl).goes ((Goes.refl [.irqPend] _).raise (by decide)) (by decide)

theorem SameTurns.postAll (h : SameTurns s x) : SameTurns s (postAll x) := by
  unfold Machine.postAll
  extract_lets new s1
  have h1 : SameTurns s s1 := h.modN rfl
  refine h1.foldl fun x n h => ?_
  split
  · exact .cond h.postOne h
  · exact h

end Rules

end Sys2Proof.Machine
end

section
/-! SUPPORT. What a course carries of a word comes into force with the block, the bank or the LUN that takes it up (03 R83, R85). -/

set_option Elab.async false

namespace Sys2Proof.Machine

variable {s x y : State}

/-- The word at an address holds v in the bits of m, and passes its parity where m has any bit. -/
structure Carried (x : State) (a : Nat) (m v : Word) : Prop where
  bits : rd x a &&& m = v &&& m
  passes : m ≠ 0 → badW x a = false

theorem Carried.of_none (x : State) (a : Nat) (v : Word) : Carried x a 0 v := ⟨by simp, fun h => absurd rfl h⟩

theorem Carried.of_same {a : Nat} {m v : Word} (h : Carried x a m v) (hrd : rd y a = rd x a) (hpar : badW y a = badW x a) : Carried y a m v :=
  ⟨hrd ▸ h.bits, fun hm => hpar ▸ h.passes hm⟩

theorem Carried.goes {a : Nat} {m v : Word} {ps : List Piece} (h : Carried x a m v) (hg : Goes ps x y) (hregs : .regs ∉ ps)
    (hparity : .parity ∉ ps) : Carried y a m v :=
  h.of_same (congrArg (fun r => sget regReset r a) (hg.same .regs hregs)) (congrArg (fun l : List Nat => l.elem a) (hg.same .parity hparity))

/-- A carried word comes into force, and passes its parity. -/
def carryIn (x : State) (c : Carry) : State :=
  modC (setR x c.addr (blend (rd x c.addr) c.val c.mask)) fun k => { k with parity := k.parity.filter fun a => a != c.addr }

theorem courseApply_eq (s : State) (t : Nat → Bool) :
    courseApply s t = ((courseCarry s).filter fun c => t c.addr).foldl carryIn s := rfl

theorem blend_and_mask (w v m : Word) : blend w v m &&& m = v &&& m := by
  refine word_ext fun i hi => ?_
  rw [bit_and, bit_blend _ _ _ hi, bit_and]
  cases bit m i <;> simp

theorem carryIn_same (hregs : swf regReset x.core.regs = true) (c : Carry) : Carried (carryIn x c) c.addr c.mask c.val where
  bits := by
    have hrd : rd (carryIn x c) c.addr = blend (rd x c.addr) c.val c.mask := sget_sset _ _ _ _ hregs
    rw [hrd, blend_and_mask]
  passes _ := (elem_filter c.addr).trans (by simp)

theorem carryIn_other {a : Nat} {m v : Word} (h : Carried x a m v) {c : Carry} (hc : c.addr ≠ a) : Carried (carryIn x c) a m v :=
  h.of_same (sget_sset_ne _ _ _ _ _ (Ne.symm hc)) ((elem_filter a).trans (by
    show (x.core.parity.elem a && (a != c.addr)) = badW x a
    rw [bne_iff_ne.2 (Ne.symm hc), Bool.and_true]
    rfl))

/-- The words come into force one by one: the one at a, if it is among them, in its fields of m with v. -/
theorem carried_foldl {a : Nat} {m v : Word} {l : List Carry} (hl : ∀ c ∈ l, c.addr = a → c.mask = m ∧ c.val = v)
    (hregs : swf regReset x.core.regs = true) (h : Carried x a m v ∨ ∃ c ∈ l, c.addr = a) : Carried (l.foldl carryIn x) a m v := by
  induction l generalizing x with
  | nil => simpa using h
  | cons c l ih =>
    have hin : swf regReset (carryIn x c).core.regs = true := swf_sset _ _ _ _ hregs
    refine ih (fun c hc => hl c (List.mem_cons_of_mem _ hc)) hin ?_
    by_cases hc : c.addr = a
    · obtain ⟨hm, hv⟩ := hl c List.mem_cons_self hc
      exact .inl (hc ▸ hm ▸ hv ▸ carryIn_same hregs c)
    · rcases h with h | ⟨d, hd, hda⟩
      · exact .inl (carryIn_other h hc)
      · rcases List.mem_cons.1 hd with rfl | hd
        · exact absurd hda hc
        · exact .inr ⟨d, hd, hda⟩

/-- The fields of a word that the committing partition carries (03 R83). -/
def carriedMask (s : State) (a : Nat) : Word := carryMask (atCommit s) s.core.course.owner.val a

/-- The staged value of a word at the commit instant (03 R83). -/
def carriedWord (s : State) (a : Nat) : Word := sget regReset s.core.course.image (stagedOf a)

theorem carryOf_some {a b : Nat} (hb : courseBlock a = some b) (hbit : bit s.core.course.blocks b = true) (hm : carriedMask s a ≠ 0) :
    carryOf s a = some ⟨a, carriedMask s a, carriedWord s a⟩ := by
  have hcond : (bit s.core.course.blocks b && carryMask (atCommit s) s.core.course.owner.val a != 0) = true := by
    rw [hbit, Bool.true_and, bne_iff_ne]
    exact hm
  unfold carryOf
  rw [hb]
  exact if_pos hcond

theorem carryOf_value {a : Nat} {c : Carry} (h : carryOf s a = some c) :
    c.addr = a ∧ c.mask = carriedMask s a ∧ c.val = carriedWord s a := by
  unfold carryOf at h
  split at h
  · exact absurd h (by simp)
  · dsimp only at h
    split at h
    · obtain rfl := Option.some.inj h
      exact ⟨rfl, rfl, rfl⟩
    · exact absurd h (by simp)

theorem courseCarry_value {a : Nat} {c : Carry} (h : c ∈ courseCarry s) (ha : c.addr = a) :
    c.mask = carriedMask s a ∧ c.val = carriedWord s a := by
  obtain ⟨k, -, hk⟩ := List.mem_filterMap.1 h
  obtain ⟨haddr, hmask, hval⟩ := carryOf_value hk
  obtain rfl : k = a := haddr.symm.trans ha
  exact ⟨hmask, hval⟩

theorem mem_insertNats {l acc : List Nat} {a : Nat} : a ∈ l.foldl (fun acc k => insertNat k acc) acc ↔ a ∈ l ∨ a ∈ acc := by
  induction l generalizing acc with
  | nil => simp
  | cons k l ih =>
    have hone : a ∈ insertNat k acc ↔ a = k ∨ a ∈ acc := by
      rw [← List.elem_iff, elem_insertNat, Bool.or_eq_true, beq_iff_eq, List.elem_iff]
    rw [List.foldl_cons, ih, hone, List.mem_cons]
    tauto

/-- Fields behind a staged image lie below the capo bank and the course register (16 R430). -/
theorem stFields_below : ∀ k < 19, ∀ o < 64, ((primReg (0x200 * k + (0xC0 + o))).all fun r => (stFields r).isEmpty) = true := by
  decide +kernel

theorem primReg_bounds {a : Nat} (h : (primReg a).isSome = true) : a % 0x200 < 0x100 ∧ a < 0x2600 := by
  unfold primReg at h
  extract_lets o at h
  split at h
  · exact absurd h (by simp)
  next ho =>
    refine ⟨by omega, ?_⟩
    by_contra hlt
    have hbig : 19 ≤ a / 0x200 := by omega
    split at h <;> simp_all

/-- A register whose committing partition carries a field of it has a staged image. -/
theorem carriedMask_cases {a : Nat} (hprim : (primReg a).isSome = true) :
    carriedMask s a = 0 ∨ (isStaged (stagedOf a) = true ∧ ∃ r, primReg a = some r ∧ (stFields r).isEmpty = false ∧
      carriedMask s a &&& fsMask (stFields r) = carriedMask s a) := by
  obtain ⟨hoff, hlt⟩ := primReg_bounds hprim
  obtain ⟨r, hr⟩ := Option.isSome_iff_exists.1 hprim
  have hmask : carriedMask s a =
      fsMask ((stFields r).filter fun f => writerOf (atCommit s) s.core.course.owner.val f.own == s.core.course.owner.val) := by
    unfold carriedMask carryMask
    rw [if_neg (by omega), hr]
  have hempty : (stFields r).isEmpty = true → carriedMask s a = 0 := fun h => by
    rw [hmask, List.isEmpty_iff.1 h]
    rfl
  cases he : (stFields r).isEmpty with
  | true => exact .inl (hempty he)
  | false =>
    rcases Nat.lt_or_ge (a % 0x200) 0xC0 with ho | ho
    · refine .inr ⟨?_, r, hr, he, ?_⟩
      · rw [stagedOf, if_pos (by omega), isStaged]
        exact decide_eq_true ⟨by omega, by omega⟩
      · refine word_ext fun i hi => ?_
        rw [bit_and, hmask, bit_fsMask, bit_fsMask, List.any_filter]
        cases hany : (stFields r).any fun f => (writerOf (atCommit s) s.core.course.owner.val f.own == s.core.course.owner.val) && bit f.mask i with
        | false => rfl
        | true =>
          obtain ⟨f, hf, hboth⟩ := List.any_eq_true.1 hany
          exact (Bool.true_and _).trans (List.any_eq_true.2 ⟨f, hf, (Bool.and_eq_true _ _ ▸ hboth).2⟩)
    · have hnone := stFields_below (a / 0x200) (by omega) (a % 0x200 - 0xC0) (by omega)
      rw [show 0x200 * (a / 0x200) + (0xC0 + (a % 0x200 - 0xC0)) = a by omega, hr] at hnone
      exact .inl (hempty hnone)

/-- A word that no course names holds its reset value, and so does its staged image. -/
theorem regReset_stagedOf {a : Nat} (hprim : (primReg a).isSome = true) :
    regReset a &&& carriedMask s a = regReset (stagedOf a) &&& carriedMask s a := by
  rcases carriedMask_cases (s := s) hprim with h | ⟨hstaged, r, hr, he, hmask⟩
  · simp [h]
  · obtain ⟨hoff, hlt⟩ := primReg_bounds hprim
    have hnot : isStaged a = false := decide_eq_false (by omega)
    have hstagedOf : stagedOf a = a + 0x100 := if_pos (by omega)
    have himage : stagedReg (stagedOf a) = some { reset := r.reset &&& fsMask (stFields r), fs := stFields r } := by
      unfold stagedReg
      rw [if_pos hstaged, hstagedOf, Nat.add_sub_cancel, hr]
      simp only [he, Bool.false_eq_true, if_false]
    have ha : regReset a = r.reset := by
      unfold regReset
      rw [if_pos (by omega), hnot, if_neg (by decide), hr]
    have hs : regReset (stagedOf a) = r.reset &&& fsMask (stFields r) := by
      unfold regReset
      rw [if_pos (by omega), hstaged, if_pos rfl, himage]
    rw [ha, hs, BitVec.and_assoc, BitVec.and_comm (fsMask _), hmask]

theorem primOf_prim {a : Nat} (hprim : (primReg a).isSome = true) : primOf a = a := by
  obtain ⟨hoff, hlt⟩ := primReg_bounds hprim
  have hnot : isStaged a = false := decide_eq_false (by omega)
  rw [primOf, if_pos (by omega), hnot]
  rfl

theorem primOf_stagedOf {a : Nat} (hprim : (primReg a).isSome = true) (hstaged : isStaged (stagedOf a) = true) : primOf (stagedOf a) = a := by
  obtain ⟨hoff, hlt⟩ := primReg_bounds hprim
  have hstagedOf : stagedOf a = a + 0x100 := if_pos (by omega)
  rw [primOf, hstaged, if_pos (by omega), hstagedOf]
  exact Nat.add_sub_cancel _ _

/-- A word that the course need not touch is in force as it was staged. -/
theorem carried_of_notWord {a : Nat} (hprim : (primReg a).isSome = true) (ha : a ∉ courseWords s) :
    Carried s a (carriedMask s a) (carriedWord s a) := by
  rcases carriedMask_cases (s := s) hprim with h | ⟨hstaged, -⟩
  · rw [h]
    exact .of_none _ _ _
  · have hwords : ∀ k, k ∈ (s.core.course.image ++ s.core.regs).map (fun e => primOf e.1) ++ s.core.parity ++
        (s.core.nfc.luns.map fun x => x.diffs.map fun e => e.1).flatten → k ≠ a := fun k hk hka =>
      ha (mem_insertNats.2 (.inl (hka ▸ hk)))
    have hkey : ∀ e ∈ s.core.course.image ++ s.core.regs, primOf e.1 ≠ a := fun e he =>
      hwords _ (List.mem_append_left _ (List.mem_append_left _ (List.mem_map_of_mem he)))
    have hrd : rd s a = regReset a := sget_of_forall_ne fun e he h =>
      hkey e (List.mem_append_right _ he) (by rw [h]; exact primOf_prim hprim)
    have hword : carriedWord s a = regReset (stagedOf a) := sget_of_forall_ne fun e he h =>
      hkey e (List.mem_append_left _ he) (by rw [h]; exact primOf_stagedOf hprim hstaged)
    refine ⟨?_, fun _ => ?_⟩
    · rw [hrd, hword, regReset_stagedOf hprim]
    · exact Bool.eq_false_iff.2 fun h => hwords a (List.mem_append_left _ (List.mem_append_right _ (List.elem_iff.1 h))) rfl

/-- The words of a block that takes the course up come into force as they were staged at the commit instant (03 R83, R85). -/
theorem carried_courseApply {a b : Nat} {t : Nat → Bool} (hregs : swf regReset s.core.regs = true) (hb : courseBlock a = some b)
    (hbit : bit s.core.course.blocks b = true) (hprim : (primReg a).isSome = true) (ht : t a = true) :
    Carried (courseApply s t) a (carriedMask s a) (carriedWord s a) := by
  by_cases hm : carriedMask s a = 0
  · rw [hm]
    exact .of_none _ _ _
  · rw [courseApply_eq]
    refine carried_foldl (fun c hc ha => courseCarry_value (List.mem_filter.1 hc).1 ha) hregs ?_
    by_cases ha : a ∈ courseWords s
    · exact .inr ⟨_, List.mem_filter.2 ⟨List.mem_filterMap.2 ⟨a, ha, carryOf_some hb hbit hm⟩, ht⟩, rfl⟩
    · exact .inl (carried_of_notWord hprim ha)

/-- Words that come into force afterwards bring the same fields with the same values. -/
theorem Carried.courseApply {a : Nat} {t : Nat → Bool} (hregs : swf regReset s.core.regs = true)
    (h : Carried s a (carriedMask s a) (carriedWord s a)) : Carried (courseApply s t) a (carriedMask s a) (carriedWord s a) := by
  rw [courseApply_eq]
  exact carried_foldl (fun c hc ha => courseCarry_value (List.mem_filter.1 hc).1 ha) hregs (.inl h)

end Sys2Proof.Machine
end

section
/-! SUPPORT. A block takes the pending course up (03 R85-R87). -/

set_option Elab.async false

namespace Sys2Proof.Machine

variable {s x y : State}

theorem goes_encFlush (s : State) : Goes [.irqPend, .key] s (encFlush s) := (Goes.refl _ s).encFlush (by decide) (by decide)

/-- The hook of a block changes parts of the block, and FLW its ageing words. -/
theorem goes_courseHook (b : Nat) (old x : State) :
    Goes [.hold, .regs, .irqPend, .buf, .seq, .flw, .key, .epd, .pix, .efl, .gng] x (courseHook b old x) := by
  have h := Goes.refl [.hold, .regs, .irqPend, .buf, .seq, .flw, .key, .epd, .pix, .efl, .gng] x
  unfold courseHook
  split
  · exact h.hookThm
  · exact h.hookFlw (by decide) (by decide)
  · exact h.hookKey (by decide) (by decide)
  · exact h.hookEpd (by decide) (by decide) (by decide) (by decide) (by decide)
  · exact h.hookSeq (by decide)
  · exact h.hookGng (by decide) (by decide)
  · exact h

theorem goes_courseHook_keepsRegs {b : Nat} (hb : b ≠ 1) (old x : State) :
    Goes [.hold, .irqPend, .buf, .seq, .key, .epd, .pix, .efl, .gng] x (courseHook b old x) := by
  have h := Goes.refl [.hold, .irqPend, .buf, .seq, .key, .epd, .pix, .efl, .gng] x
  unfold courseHook
  split
  · exact h.hookThm
  · exact absurd rfl hb
  · exact h.hookKey (by decide) (by decide)
  · exact h.hookEpd (by decide) (by decide) (by decide) (by decide) (by decide)
  · exact h.hookSeq (by decide)
  · exact h.hookGng (by decide) (by decide)
  · exact h

/-- The ageing words have no staged image (07 R211). -/
theorem stFields_ageing : ∀ n < 6, ∀ b < 8, ((primReg (0x1060 + 8 * n + b)).all fun r => (stFields r).isEmpty) = true := by decide

theorem carriedMask_ageing {n b : Nat} (hn : n < 6) (hb : b < 8) : carriedMask s (0x1060 + 8 * n + b) = 0 := by
  have hnone := stFields_ageing n hn b hb
  unfold carriedMask carryMask
  rw [if_neg (by omega)]
  cases hr : primReg (0x1060 + 8 * n + b) with
  | none => rfl
  | some r =>
    rw [hr] at hnone
    dsimp only
    rw [List.isEmpty_iff.1 hnone]
    rfl

/-- A new baseline begins in the ageing words alone (07 R212). -/
theorem rd_hookFlw {a : Nat} (ha : ∀ n < 6, ∀ b < 8, a ≠ 0x1060 + 8 * n + b) (old x : State) : rd (hookFlw old x) a = rd x a := by
  have hcond : ∀ (c : Bool) (y : State) (f : State → State), rd (f y) a = rd x a → rd y a = rd x a → rd (whenS c y f) a = rd x a :=
    fun c y f h1 h2 => by
      unfold whenS
      split
      · exact h1
      · exact h2
  refine List.foldlRecOn (motive := fun y : State => rd y a = rd x a) _ _ rfl fun y hy n hn => ?_
  have h1 : ∀ c, rd (whenS c y fun s => modFsw s n fun w => { w with restart := true }) a = rd x a := fun c => hcond c _ _ hy hy
  extract_lets ch z w
  have hz : rd z a = rd x a := h1 _
  have hw : rd w a = rd x a := hcond _ _ _ hz hz
  refine hcond _ _ _ ?_ hw
  refine List.foldlRecOn (motive := fun y : State => rd y a = rd x a) _ _ hw fun y hy b hb => ?_
  exact (sget_sset_ne _ _ _ _ _ (ha n (List.mem_range.1 hn) b (List.mem_range.1 hb))).trans hy

theorem Carried.courseHook {a : Nat} (h : Carried x a (carriedMask s a) (carriedWord s a)) (b : Nat) (old : State) :
    Carried (courseHook b old x) a (carriedMask s a) (carriedWord s a) := by
  by_cases hb : b = 1
  · subst hb
    by_cases ha : ∀ n < 6, ∀ b < 8, a ≠ 0x1060 + 8 * n + b
    · exact h.of_same (rd_hookFlw ha old x) (congrArg (fun l : List Nat => l.elem a) ((goes_courseHook 1 old x).same .parity (by decide)))
    · push Not at ha
      obtain ⟨n, hn, i, hi, rfl⟩ := ha
      rw [carriedMask_ageing hn hi]
      exact .of_none _ _ _
  · exact h.goes (goes_courseHook_keepsRegs hb old x) (by decide) (by decide)

/-- What the pending course carries is the same where the course, the registers and the list of failed words are. -/
theorem carriedMask_congr (hc : y.core.course.image = s.core.course.image) (hbad : y.core.course.imageBad = s.core.course.imageBad)
    (hown : y.core.course.owner = s.core.course.owner) (a : Nat) :
    carriedMask y a = carriedMask s a ∧ carriedWord y a = carriedWord s a := by
  have hused : ∀ k, used (atCommit y) k = used (atCommit s) k := fun k =>
    used_congr (congrArg (fun m => sget regReset m k) hc) (congrArg (fun m : List Nat => m.elem k) hbad)
  have hwriter : ∀ p o, writerOf (atCommit y) p o = writerOf (atCommit s) p o := fun p o => by
    cases o with
    | owner r => exact ownerN_congr hused r
    | any => rfl
    | part q => rfl
    | steward => rfl
  refine ⟨?_, ?_⟩
  · unfold carriedMask carryMask
    simp only [hown, hwriter]
  · unfold carriedWord
    rw [hc]

/-- The course record with block b published (03 R85). -/
def published (c : CourseSt) (b : Nat) : CourseSt :=
  { c with running := upd c.running b fun _ => c.number, taken := setBit c.taken b true }

theorem course_coursePublish (x : State) (b : Nat) : (coursePublish x b).core.course = published x.core.course b := rfl

/-- A block as it takes up: KEY reports the detents that wait first. -/
def flushed (s : State) (b : Nat) : State := if b = 2 then encFlush s else s

theorem goes_flushed (s : State) (b : Nat) : Goes [.irqPend, .key] s (flushed s b) := .cond (goes_encFlush s) (Goes.refl _ s)

theorem takeUpRaw_due {b : Nat} (hdue : courseDue s b = true) : takeUpRaw s b =
    courseHook b (flushed s b) (coursePublish (courseApply (flushed s b) fun a => courseBlock a == some b) b) := if_pos hdue

theorem goes_takeUpRaw_apply (s : State) (b : Nat) :
    Goes [.irqPend, .key, .regs, .parity] s (courseApply (flushed s b) fun a => courseBlock a == some b) :=
  ((goes_flushed s b).mono (by decide)).courseApply (by decide) (by decide)

/-- What a block that takes up changes (03 R85). -/
theorem takeUpRaw_course {b : Nat} (hdue : courseDue s b = true) : (takeUpRaw s b).core.course = published s.core.course b := by
  rw [takeUpRaw_due hdue, (goes_courseHook b _ _).same .course (by decide), course_coursePublish,
    (goes_takeUpRaw_apply s b).same .course (by decide)]

theorem goes_takeUpRaw {b : Nat} (hdue : courseDue s b = true) :
    Goes [.hold, .regs, .parity, .course, .irqPend, .buf, .seq, .flw, .key, .epd, .pix, .efl, .gng] s (takeUpRaw s b) := by
  rw [takeUpRaw_due hdue]
  exact (((goes_takeUpRaw_apply s b).mono (by decide)).coursePublish (by decide)).trans ((goes_courseHook b _ _).mono (by decide))

/-- The words of the block are in force as they were staged (03 R83, R85). -/
theorem takeUpRaw_carried {a b : Nat} (hcan : Canonical s) (hdue : courseDue s b = true) (ha : courseBlock a = some b)
    (hprim : (primReg a).isSome = true) : Carried (takeUpRaw s b) a (carriedMask s a) (carriedWord s a) := by
  obtain ⟨-, hbit⟩ : s.core.course.state = 1 ∧ bit s.core.course.blocks b = true := by
    simp only [courseDue, Bool.and_eq_true, beq_iff_eq] at hdue
    exact hdue.1
  have hflush := goes_flushed s b
  have hcourse : (flushed s b).core.course = s.core.course := hflush.same .course (by decide)
  obtain ⟨hmask, hword⟩ := carriedMask_congr (s := s) (y := flushed s b) (by rw [hcourse]) (by rw [hcourse]) (by rw [hcourse]) a
  have hregs : swf regReset (flushed s b).core.regs = true := by
    rw [hflush.same .regs (by decide)]
    exact hcan.1
  have happly := carried_courseApply (s := flushed s b) (t := fun a => courseBlock a == some b) hregs ha (by rw [hcourse]; exact hbit) hprim
    (by simp [ha])
  rw [hmask, hword] at happly
  rw [takeUpRaw_due hdue]
  exact (happly.goes ((Goes.refl [.course] _).coursePublish (by decide)) (by decide) (by decide)).courseHook b _

theorem courseNext_of_noQueue (h : x.core.course.queued = none) : courseNext x = x := by
  unfold courseNext
  rw [h]

theorem courseComplete_queued (x : State) : (courseComplete x).core.course.queued = x.core.course.queued := by
  unfold courseComplete
  dsimp only
  split <;> rfl

theorem courseCheck_of_noQueue (h : x.core.course.queued = none) : courseCheck x = courseComplete x :=
  courseNext_of_noQueue ((courseComplete_queued x).trans h)

/-- The course record of a course that every block has taken up (03 R87). -/
def completed (c : CourseSt) (t : Nat) : CourseSt := { courseLog c 1 t with state := 2, image := [], imageBad := [] }

theorem goes_courseComplete (x : State) : Goes [.course, .irqPend] x (courseComplete x) := (Goes.refl _ x).courseComplete (by decide) (by decide)

theorem courseComplete_done (hstate : x.core.course.state = 1) (hall : x.core.course.blocks &&& ~~~x.core.course.taken = 0) :
    courseComplete x = raise (modCourse x fun c => completed c (now x)) x.core.course.owner.val 6 := if_pos ⟨hstate, hall⟩

/-- The log entry of a course (03 Table 3-5). -/
theorem courseLog_eq (c : CourseSt) (outcome t : Nat) : (courseLog c outcome t).log =
    (mkW [(0, 16, c.number), (16, 8, c.blocks.toNat), (24, 2, c.owner.val), (26, 2, outcome)],
      mkW [(0, 14, if 16383 ≤ ((t - c.commitTick) * 1000 + 16384) / 32768 then 16383 else ((t - c.commitTick) * 1000 + 16384) / 32768),
        (16, 8, c.taken.toNat)]) :: c.log.take 3 := by
  have hmin : ∀ k : Nat, nmin 16383 k = if 16383 ≤ k then 16383 else k := fun k => by
    unfold nmin
    split <;> split <;> omega
  unfold courseLog
  dsimp only
  rw [hmin]

end Sys2Proof.Machine
end

section
/-! SUPPORT. The end of a take-up: a block, the banks of the setup flash, a LUN (03 R85-R87, 11 R309). -/

set_option Elab.async false

namespace Sys2Proof.Machine

variable {s x y : State}

theorem courseDue_iff {b : Nat} : courseDue s b = true ↔
    s.core.course.state = 1 ∧ bit s.core.course.blocks b = true ∧ bit s.core.course.taken b = false := by
  simp [courseDue, and_assoc]

/-- The first end of a course that has been taken up by its last block. -/
theorem completed_log (c : CourseSt) (t b : Nat) : (completed (published c b) t).log =
    (mkW [(0, 16, c.number), (16, 8, c.blocks.toNat), (24, 2, c.owner.val), (26, 2, 1)],
      mkW [(0, 14, if 16383 ≤ ((t - c.commitTick) * 1000 + 16384) / 32768 then 16383 else ((t - c.commitTick) * 1000 + 16384) / 32768),
        (16, 8, (setBit c.taken b true).toNat)]) :: c.log.take 3 :=
  courseLog_eq (published c b) 1 t

/-- Whether or not the course is complete, its record names the same course, and the same blocks have taken it up. -/
theorem courseComplete_record (x : State) :
    (courseComplete x).core.course.running = x.core.course.running ∧ (courseComplete x).core.course.number = x.core.course.number ∧
      (courseComplete x).core.course.taken = x.core.course.taken := by
  unfold courseComplete
  dsimp only
  split <;> exact ⟨rfl, rfl, rfl⟩

theorem raise_pend_settled {p n : Nat} (hp : p < x.core.irq.length) (hn : n < 64) : bit (nth (settle (raise x p n)).core.irq p {}).pend n = true :=
  ((Goes.refl endPieces (raise x p n)).settle (by decide)).pend_of (by decide) (raise_pend x p n hp hn)

/-- The log entry of the course, with the blocks that have taken it up. -/
def courseEntry (s : State) (outcome : Nat) (taken : BitVec 8) : Word × Word :=
  (mkW [(0, 16, s.core.course.number), (16, 8, s.core.course.blocks.toNat), (24, 2, s.core.course.owner.val), (26, 2, outcome)],
    mkW [(0, 14, if 16383 ≤ ((now s - s.core.course.commitTick) * 1000 + 16384) / 32768 then 16383
      else ((now s - s.core.course.commitTick) * 1000 + 16384) / 32768), (16, 8, taken.toNat)])

/-- What block b leaves of the course when it takes it up: its number, the mark of the block, and, with the last block, the end. -/
structure TookUp (s t : State) (b : Nat) : Prop where
  running : nth t.core.course.running b 0 = s.core.course.number
  number : t.core.course.number = s.core.course.number
  taken : t.core.course.taken = setBit s.core.course.taken b true
  done : s.core.course.blocks &&& ~~~(setBit s.core.course.taken b true) = 0 →
    t.core.course.state = 2 ∧ t.core.course.image = [] ∧ t.core.course.imageBad = [] ∧
      t.core.course.log = courseEntry s 1 (setBit s.core.course.taken b true) :: s.core.course.log.take 3 ∧
      bit (nth t.core.irq s.core.course.owner.val {}).pend 6 = true
  waits : s.core.course.blocks &&& ~~~(setBit s.core.course.taken b true) ≠ 0 →
    t.core.course.state = 1 ∧ t.core.course.log = s.core.course.log

/-- A block that has published, and the end of the course where it was the last. -/
theorem tookUp_courseComplete {b : Nat} (hdue : courseDue s b = true) (hlen : b < s.core.course.running.length) (hirq : s.core.irq.length = 4)
    (hcourse : x.core.course = published s.core.course b) (haon : x.aon = s.aon) (hirqs : x.core.irq.length = s.core.irq.length) :
    TookUp s (settle (courseComplete x)) b := by
  obtain ⟨hstate, -, -⟩ := courseDue_iff.1 hdue
  obtain ⟨hrunning, hnumber, htaken⟩ := courseComplete_record x
  have hnow : now x = now s := congrArg Aon.osc haon
  refine ⟨?_, ?_, ?_, fun hall => ?_, fun hall => ?_⟩
  · rw [settle_core_course, hrunning, hcourse]
    exact nth_upd_same _ _ _ _ hlen
  · rw [settle_core_course, hnumber, hcourse]
    rfl
  · rw [settle_core_course, htaken, hcourse]
    rfl
  · have hdone := courseComplete_done (x := x) (by rw [hcourse]; exact hstate) (by rw [hcourse]; exact hall)
    have hrecord : (courseComplete x).core.course = completed (published s.core.course b) (now s) := by
      rw [hdone, ← hcourse, ← hnow]
      rfl
    have howner : x.core.course.owner = s.core.course.owner := by
      rw [hcourse]
      rfl
    rw [settle_core_course, hrecord]
    refine ⟨rfl, rfl, rfl, completed_log _ _ _, ?_⟩
    rw [hdone, howner]
    refine raise_pend_settled ?_ (by decide)
    show s.core.course.owner.val < x.core.irq.length
    rw [hirqs, hirq]
    exact s.core.course.owner.isLt
  · have hsame : courseComplete x = x := courseComplete_of_waiting (by rw [hcourse]; exact hall)
    rw [hsame, settle_core_course, hcourse]
    exact ⟨hstate, rfl⟩

/-- A block that is not made of banks or LUNs takes the course up. -/
theorem tookUp_takeUp {b : Nat} (hdue : courseDue s b = true) (hlen : b < s.core.course.running.length) (hirq : s.core.irq.length = 4)
    (hqueue : s.core.course.queued = none) : TookUp s (settle (takeUp s b)) b := by
  have hcourse := takeUpRaw_course hdue
  have hg := goes_takeUpRaw hdue
  have htake : takeUp s b = courseComplete (takeUpRaw s b) := by
    rw [takeUp, if_pos hdue, courseCheck_of_noQueue]
    rw [hcourse]
    exact hqueue
  rw [htake]
  exact tookUp_courseComplete hdue hlen hirq hcourse (hg.same .aon (by decide)) (hg.irq_length (by decide))

theorem carried_takeUp {a b : Nat} (hcan : Canonical s) (hdue : courseDue s b = true) (hqueue : s.core.course.queued = none)
    (ha : courseBlock a = some b) (hprim : (primReg a).isSome = true) :
    Carried (settle (takeUp s b)) a (carriedMask s a) (carriedWord s a) := by
  have hcourse := takeUpRaw_course hdue
  have htake : takeUp s b = courseComplete (takeUpRaw s b) := by
    rw [takeUp, if_pos hdue, courseCheck_of_noQueue]
    rw [hcourse]
    exact hqueue
  rw [htake]
  exact ((takeUpRaw_carried hcan hdue ha hprim).goes (goes_courseComplete _) (by decide) (by decide)).of_same rfl rfl

/-- The turn of a block that is not made of banks or LUNs. -/
theorem courseTakeUpOp_block {b : Block} (hnfc : b ≠ .nfc) (hefl : b ≠ .efl) (hepd : b = .epd → s.core.epd.run = none)
    (hgng : b = .gng → s.core.gng.busy = false) : courseTakeUpOp s (blockIndex b) = takeUp s (blockIndex b) := by
  cases b with
  | nfc => exact absurd rfl hnfc
  | efl => exact absurd rfl hefl
  | epd =>
    show (if s.core.epd.run.isNone then takeUp s 3 else s) = takeUp s 3
    rw [hepd rfl]
    rfl
  | gng =>
    show (if s.core.gng.busy then s else takeUp s 7) = takeUp s 7
    rw [hgng rfl]
    rfl
  | thm => rfl
  | flw => rfl
  | key => rfl
  | seq => rfl

theorem blockIndex_lt (b : Block) : blockIndex b < 8 := by cases b <;> decide

/-- A bank of the setup flash has taken the course up: its EFL_CFG as the course carries it, and its number (11 R309). -/
def eflBank (s : State) (b : Nat) : State :=
  modCourse (modBank s b fun k => { k with
      cfg := ((courseCarry s).filter fun c => c.addr == 0x1600).foldl (fun w c => blend w c.val c.mask) k.cfg, course := s.core.course.number })
    fun c => { c with eflTaken := setBit c.eflTaken b true }

/-- EFL publishes, with its second bank (11 R309). -/
def eflPublish (s : State) : State := coursePublish (courseApply s fun a => courseBlock a == some 6) 6

theorem eflTakeBank_takes {b : Nat} (hdue : courseDue s 6 = true) (hidle : bankBetween s b = true) (hnot : bit s.core.course.eflTaken b = false) :
    eflTakeBank s b = if (eflBank s b).core.course.eflTaken = 3 then eflPublish (eflBank s b) else eflBank s b := by
  have hcond : (courseDue s 6 && bankBetween s b && !bit s.core.course.eflTaken b) = true := by rw [hdue, hidle, hnot]; rfl
  exact if_pos hcond

theorem eflTakeBank_not {b : Nat} (h : courseDue s 6 = false ∨ bankBetween s b = false ∨ bit s.core.course.eflTaken b = true) :
    eflTakeBank s b = s := by
  have hcond : ¬(courseDue s 6 && bankBetween s b && !bit s.core.course.eflTaken b) = true := by
    rcases h with h | h | h <;> rw [h] <;> simp
  exact if_neg hcond

theorem goes_eflBank (s : State) (b : Nat) : Goes [.efl, .course] s (eflBank s b) :=
  ((Goes.refl _ s).modBank (by decide)).modCourse (by decide)

theorem goes_eflPublish (s : State) : Goes [.regs, .parity, .course] s (eflPublish s) :=
  ((Goes.refl _ s).courseApply (by decide) (by decide)).coursePublish (by decide)

theorem course_eflBank (s : State) (b : Nat) :
    (eflBank s b).core.course = { s.core.course with eflTaken := setBit s.core.course.eflTaken b true } := rfl

theorem course_eflPublish (s : State) : (eflPublish s).core.course = published s.core.course 6 := by
  rw [eflPublish, course_coursePublish, ((Goes.refl [.regs, .parity] s).courseApply (by decide) (by decide)).same .course (by decide)]

theorem bank_eflBank_other {b c : Nat} (h : c ≠ b) : nth (eflBank s b).core.efl.banks c {} = nth s.core.efl.banks c {} := nth_upd_ne _ _ _ _ _ h

theorem bankBetween_eflBank {b c : Nat} (h : c ≠ b) : bankBetween (eflBank s b) c = bankBetween s c := by
  have hruns : advRuns (eflBank s b) c = advRuns s c := rfl
  unfold bankBetween
  rw [hruns, bank_eflBank_other h]
  rfl

/-- EFL_CFG of a bank as the course carries it. -/
structure BankTook (s y : State) (b : Nat) : Prop where
  course : (nth y.core.efl.banks b {}).course = s.core.course.number
  cfg : (nth y.core.efl.banks b {}).cfg &&& carriedMask s 0x1600 = carriedWord s 0x1600 &&& carriedMask s 0x1600

theorem foldl_blend {l : List Carry} {m v : Word} (hl : ∀ c ∈ l, c.mask = m ∧ c.val = v) {w : Word} (h : w &&& m = v &&& m ∨ l ≠ []) :
    l.foldl (fun w c => blend w c.val c.mask) w &&& m = v &&& m := by
  induction l generalizing w with
  | nil => simpa using h
  | cons c l ih =>
    obtain ⟨hm, hv⟩ := hl c List.mem_cons_self
    refine ih (fun c hc => hl c (List.mem_cons_of_mem _ hc)) (.inl ?_)
    dsimp only
    rw [hm, hv, blend_and_mask]

theorem bankTook_eflBank {b : Nat} (hb : b < s.core.efl.banks.length) (hbit : bit s.core.course.blocks 6 = true) : BankTook s (eflBank s b) b := by
  have hbank : nth (eflBank s b).core.efl.banks b {} = { nth s.core.efl.banks b {} with
      cfg := ((courseCarry s).filter fun c => c.addr == 0x1600).foldl (fun w c => blend w c.val c.mask) (nth s.core.efl.banks b {}).cfg
      course := s.core.course.number } := nth_upd_same _ _ _ _ hb
  refine ⟨by rw [hbank], ?_⟩
  rw [hbank]
  by_cases hm : carriedMask s 0x1600 = 0
  · simp [hm]
  · refine foldl_blend (fun c hc => ?_) (.inr fun hnil => ?_)
    · obtain ⟨hmem, haddr⟩ := List.mem_filter.1 hc
      exact courseCarry_value hmem (beq_iff_eq.1 haddr)
    · have hin : (⟨0x1600, carriedMask s 0x1600, carriedWord s 0x1600⟩ : Carry) ∈ (courseCarry s).filter fun c => c.addr == 0x1600 :=
        List.mem_filter.2 ⟨List.mem_filterMap.2 ⟨0x1600, mem_insertNats.2 (.inr (by simp)), carryOf_some (b := 6) rfl hbit hm⟩, rfl⟩
      rw [hnil] at hin
      exact absurd hin List.not_mem_nil

/-- The banks that took the course up with EFL keep what it brought them. -/
theorem BankTook.keep {b : Nat} (h : BankTook s x b) (hb : nth y.core.efl.banks b {} = nth x.core.efl.banks b {}) : BankTook s y b :=
  ⟨by rw [hb]; exact h.course, by rw [hb]; exact h.cfg⟩

/-- EFL with each bank having taken the course up, as it publishes. -/
structure EflReady (s w : State) : Prop where
  goes : Goes [.efl, .course] s w
  course : w.core.course = { s.core.course with eflTaken := 3 }
  banks : ∀ b : Fin 2, bit s.core.course.eflTaken b.val = false → BankTook s w b.val

theorem eflTaken_cases : ∀ v : BitVec 2, v ≠ 3 → v = 0 ∨ v = 1 ∨ v = 2 := by decide

/-- Both banks take the course up where each is between two operations, and EFL publishes (11 R309). -/
theorem eflTakeRaw_both (hdue : courseDue s 6 = true) (hnot : s.core.course.eflTaken ≠ 3) (hlen : s.core.efl.banks.length = 2)
    (h0 : bankBetween s 0 = true) (h1 : bankBetween s 1 = true) : ∃ w, EflReady s w ∧ eflTakeRaw s = eflPublish w := by
  obtain ⟨hstate, hbit, htaken⟩ := courseDue_iff.1 hdue
  have hpub : ∀ x : State, eflTakeBank (eflPublish x) 1 = eflPublish x := fun x => by
    refine eflTakeBank_not (.inl ?_)
    simp only [courseDue, course_eflPublish, published]
    rw [bit_setBit_same _ _ _ (by decide)]
    simp
  rcases eflTaken_cases _ hnot with h | h | h
  · have hdue1 : courseDue (eflBank s 0) 6 = true := hdue
    have htaken1 : (eflBank s 0).core.course.eflTaken = 1 := by
      rw [course_eflBank, h]
      rfl
    have htaken2 : (eflBank (eflBank s 0) 1).core.course.eflTaken = 3 := by
      rw [course_eflBank, htaken1]
      rfl
    have hb0 := bankTook_eflBank (b := 0) (by omega) hbit
    have hb1 : BankTook s (eflBank (eflBank s 0) 1) 1 := by
      have hlen1 : (eflBank s 0).core.efl.banks.length = 2 := (length_upd _ _ _).trans hlen
      obtain ⟨hcourse, hcfg⟩ := bankTook_eflBank (s := eflBank s 0) (b := 1) (by omega) hbit
      exact ⟨hcourse, hcfg⟩
    refine ⟨eflBank (eflBank s 0) 1, ⟨(goes_eflBank s 0).trans (goes_eflBank _ 1), ?_, fun b _ => ?_⟩, ?_⟩
    · have hcourse : (eflBank (eflBank s 0) 1).core.course =
        { s.core.course with eflTaken := (eflBank (eflBank s 0) 1).core.course.eflTaken } := rfl
      rw [hcourse, htaken2]
    · match b with
      | 0 => exact hb0.keep (bank_eflBank_other (by decide))
      | 1 => exact hb1
    · unfold eflTakeRaw
      rw [eflTakeBank_takes hdue h0 (by rw [h]; decide), htaken1, if_neg (by decide),
        eflTakeBank_takes hdue1 ((bankBetween_eflBank (by decide)).trans h1) (by rw [htaken1]; decide), htaken2, if_pos rfl]
  · have htaken2 : (eflBank s 1).core.course.eflTaken = 3 := by
      rw [course_eflBank, h]
      rfl
    refine ⟨eflBank s 1, ⟨goes_eflBank s 1, ?_, fun b hb => ?_⟩, ?_⟩
    · rw [course_eflBank, h]
      rfl
    · match b with
      | 0 =>
        rw [h] at hb
        exact absurd hb (by decide)
      | 1 => exact bankTook_eflBank (by omega) hbit
    · have hskip : eflTakeBank s 0 = s := eflTakeBank_not (.inr (.inr (by rw [h]; decide)))
      unfold eflTakeRaw
      rw [hskip, eflTakeBank_takes hdue h1 (by rw [h]; decide), htaken2, if_pos rfl]
  · have htaken2 : (eflBank s 0).core.course.eflTaken = 3 := by
      rw [course_eflBank, h]
      rfl
    refine ⟨eflBank s 0, ⟨goes_eflBank s 0, ?_, fun b hb => ?_⟩, ?_⟩
    · rw [course_eflBank, h]
      rfl
    · match b with
      | 0 => exact bankTook_eflBank (by omega) hbit
      | 1 =>
        rw [h] at hb
        exact absurd hb (by decide)
    · unfold eflTakeRaw
      rw [eflTakeBank_takes hdue h0 (by rw [h]; decide), htaken2, if_pos rfl, hpub]

/-- One bank takes the course up while the other goes on: EFL does not publish yet (11 R309). -/
theorem eflTakeRaw_first (hdue : courseDue s 6 = true) (hnone : s.core.course.eflTaken = 0) (h0 : bankBetween s 0 = true)
    (h1 : bankBetween s 1 = false) : eflTakeRaw s = eflBank s 0 := by
  have htaken1 : (eflBank s 0).core.course.eflTaken = 1 := by
    rw [course_eflBank, hnone]
    rfl
  unfold eflTakeRaw
  rw [eflTakeBank_takes hdue h0 (by rw [hnone]; decide), htaken1, if_neg (by decide),
    eflTakeBank_not (.inr (.inl ((bankBetween_eflBank (by decide)).trans h1)))]

/-- The course as it was when the LUN's turn came: its number, what it carries, and that the words are in force. -/
structure LunTook (s y : State) (l : Nat) : Prop where
  running : (lunOf y l).running = s.core.course.number
  pending : (lunOf y l).pending = false
  carried : Canonical s → Carried y (lunCfgA l) (carriedMask s (lunCfgA l)) (carriedWord s (lunCfgA l))

theorem LunTook.step {l : Nat} (h : LunTook s x l) (hturn : SameTurns x y)
    (hcar : Canonical s → Carried x (lunCfgA l) (carriedMask s (lunCfgA l)) (carriedWord s (lunCfgA l)) →
      Carried y (lunCfgA l) (carriedMask s (lunCfgA l)) (carriedWord s (lunCfgA l))) : LunTook s y l :=
  ⟨(hturn.turn l).1.trans h.running, (hturn.turn l).2.trans h.pending, fun hc => hcar hc (h.carried hc)⟩

theorem LunTook.goes {l : Nat} {ps : List Piece} (h : LunTook s x l) (hturn : SameTurns x y) (hg : Goes ps x y) (hregs : .regs ∉ ps)
    (hparity : .parity ∉ ps) : LunTook s y l := h.step hturn fun _ hc => hc.goes hg hregs hparity

/-- Further words come into force with a channel, or with NFC. -/
theorem LunTook.courseApply {l : Nat} {ps : List Piece} (h : LunTook s x l) (hg : Goes ps s x) (hcourse : .course ∉ ps) (t : Nat → Bool) :
    LunTook s (courseApply x t) l :=
  h.step ((SameTurns.refl x).goes ((Goes.refl [.regs, .parity] x).courseApply (by decide) (by decide)) (by decide)) fun hcan hc => by
    have hrecord : x.core.course = s.core.course := hg.same .course hcourse
    obtain ⟨hmask, hword⟩ := carriedMask_congr (s := s) (y := x) (by rw [hrecord]) (by rw [hrecord]) (by rw [hrecord]) (lunCfgA l)
    rw [← hmask, ← hword] at hc ⊢
    exact hc.courseApply (hg.canonical hcan).1

/-- The words that a LUN holds back, but for those that have come into force. -/
def lunDropped (x : State) (q : NfcLun) : NfcLun := { q with diffs := q.diffs.filter fun e => decide (rd x e.1 ≠ e.2) }

/-- The words that the LUNs hold back, but for those that have come into force. -/
def diffsDropped (x : State) : State :=
  modN x fun n => { n with
    running := x.core.course.number
    luns := n.luns.map (lunDropped x) }

theorem nfcPublish_eq (x : State) :
    nfcPublish x = coursePublish (diffsDropped (courseApply x fun a => courseBlock a == some 5 && !lunTaken a)) 5 := rfl

theorem goes_diffsDropped (x : State) : Goes [.nfc] x (diffsDropped x) := (Goes.refl _ x).modN (by decide)

theorem sameTurns_diffsDropped (x : State) : SameTurns x (diffsDropped x) where
  turn l := by
    rcases Nat.lt_or_ge l x.core.nfc.luns.length with hl | hl
    · have hmap : lunOf (diffsDropped x) l = lunDropped x (lunOf x l) := nth_map (lunDropped x) _ hl {} {}
      rw [hmap]
      exact ⟨rfl, rfl⟩
    · have hmap : lunOf (diffsDropped x) l = {} := nth_of_le (by simpa [diffsDropped] using hl) _
      have hwas : lunOf x l = {} := nth_of_le hl _
      rw [hmap, hwas]
      exact ⟨rfl, rfl⟩

theorem LunTook.nfcPublish {l : Nat} {ps : List Piece} (h : LunTook s x l) (hg : Goes ps s x) (hcourse : .course ∉ ps) :
    LunTook s (nfcPublish x) l := by
  have happly := h.courseApply hg hcourse fun a => courseBlock a == some 5 && !lunTaken a
  rw [nfcPublish_eq]
  generalize Machine.courseApply x (fun a => courseBlock a == some 5 && !lunTaken a) = y at happly
  have hdrop := happly.goes (sameTurns_diffsDropped y) (goes_diffsDropped y) (by decide) (by decide)
  have hpub : Goes [.course] (diffsDropped y) (coursePublish (diffsDropped y) 5) := (Goes.refl _ _).coursePublish (by decide)
  exact hdrop.goes ((SameTurns.refl _).goes hpub (by decide)) hpub (by decide) (by decide)

theorem queued_lunTakeRaw (s : State) (l : Nat) : (lunTakeRaw s l).core.course.queued = s.core.course.queued := by
  unfold lunTakeRaw
  extract_lets s1 n en cs s2 s3
  have h3 : s3.core.course = s.core.course := congrArg Prod.fst (show courseView s3 = courseView s by simp [s3, s2, s1, chanTake])
  split
  · split
    · rw [h3]
    · have happly : ∀ t, (Machine.courseApply s3 t).core.course = s3.core.course := fun t =>
        ((Goes.refl [.regs, .parity] s3).courseApply (by decide) (by decide)).same .course (by decide)
      rw [nfcPublish_eq, course_coursePublish, published, (goes_diffsDropped _).same .course (by decide), happly, h3]
  · rfl

theorem courseBlock_lunCfgA : ∀ l : Fin 16, courseBlock (lunCfgA l.val) = some 5 ∧ (primReg (lunCfgA l.val)).isSome = true := by decide

/-- A LUN takes the course up: its own words, then those of its channel with the last LUN of it, and those of NFC with the last of all
(03 R86). -/
theorem lunTook_lunTakeRaw {l : Fin 16} (hmay : lunMayTake s l.val = true) (hlen : s.core.nfc.luns.length = 16) :
    LunTook s (lunTakeRaw s l.val) l.val := by
  obtain ⟨hb, hprim⟩ := courseBlock_lunCfgA l
  have hdue : courseDue s 5 = true := by
    simp only [lunMayTake, Bool.and_eq_true] at hmay
    exact hmay.1.1
  obtain ⟨-, hbit, -⟩ := courseDue_iff.1 hdue
  unfold lunTakeRaw
  rw [if_pos hmay]
  extract_lets s1 n en cs s2 s3
  have hg1 : Goes [.regs, .parity] s s1 := (Goes.refl _ s).courseApply (by decide) (by decide)
  have hnfc1 : s1.core.nfc = s.core.nfc := hg1.same .nfc (by decide)
  have hn : n = s.core.course.number := congrArg CourseSt.number (hg1.same .course (by decide))
  have hg2 : Goes [.regs, .parity, .nfc] s s2 := (hg1.mono (by decide)).modLun (by decide)
  have hlun : lunOf s2 l.val = _ := lunOf_modLun (s := s1) (l := l.val) (by rw [hnfc1]; omega)
  have h2 : LunTook s s2 l.val := by
    refine ⟨?_, ?_, fun hcan => ?_⟩
    · rw [hlun]
      exact hn
    · rw [hlun]
    · have hown : lunOwn l.val (lunCfgA l.val) = true := by simp [lunOwn]
      exact (carried_courseApply hcan.1 hb hbit hprim hown).goes ((Goes.refl [.nfc] s1).modLun (by decide)) (by decide) (by decide)
  have h3 : LunTook s s3 l.val := by
    show LunTook s (if _ then s2 else chanTake s2 (l.val / 4)) l.val
    split
    · exact h2
    · exact (h2.courseApply hg2 (by decide) _).goes (SameTurns.refl _).modChan ((Goes.refl [.nfc] _).modChan (by decide)) (by decide) (by decide)
  have hg3 : Goes [.regs, .parity, .nfc] s s3 := .cond hg2 (hg2.chanTake (by decide) (by decide) (by decide))
  split
  · exact h3
  · exact h3.nfcPublish hg3 (by decide)

theorem lunTook_lunTakeUp {l : Fin 16} (hmay : lunMayTake s l.val = true) (hlen : s.core.nfc.luns.length = 16)
    (hqueue : s.core.course.queued = none) : LunTook s (settle (lunTakeUp s l.val)) l.val := by
  have hraw := lunTook_lunTakeRaw hmay hlen
  have hnone : (lunTakeRaw s l.val).core.course.queued = none := (queued_lunTakeRaw s l.val).trans hqueue
  rw [lunTakeUp, if_pos hmay, courseCheck_of_noQueue hnone]
  generalize lunTakeRaw s l.val = x at hraw
  have hdone : LunTook s (courseComplete x) l.val := hraw.goes ((SameTurns.refl x).goes (goes_courseComplete x) (by decide)) (goes_courseComplete x)
    (by decide) (by decide)
  generalize courseComplete x = y at hdone
  have hwork : Goes [.irqPend, .buf, .nfc] y (postAll (nfcService y)) :=
    ((Goes.refl _ y).nfcService (by decide) (by decide)).postAll (by decide) (by decide) (by decide)
  have hpost := hdone.goes (SameTurns.refl y).nfcService.postAll hwork (by decide) (by decide)
  generalize postAll (nfcService y) = z at hpost
  exact hpost.goes ((SameTurns.refl z).luns (by rw [settle_core_nfc])) ((Goes.refl endPieces _).settle (by decide)) (by decide) (by decide)

end Sys2Proof.Machine
end

section
/-! PROOFS. Chapter 03: take-up, completion and stall of courses (03 R85-R88). -/

set_option Elab.async false

namespace Sys2Proof.Machine

variable {s x y : State}

/-- The course record of a course that no block took up in time (03 R88). -/
def stalled (c : CourseSt) (t : Nat) : CourseSt :=
  { courseLog c 2 t with
    state := 3, blocking := lowest (c.blocks &&& ~~~c.taken) 15, stalls := sat 65535 (c.stalls + 1), image := [], imageBad := [] }

/-- The course is dropped, no LUN waits for it any more, and its owner and P0 are told. -/
def stallTold (s : State) : State :=
  raise (raise (modN (modCourse s fun c => stalled c (now s)) fun n => { n with
    luns := n.luns.map fun x => { x with pending := false, held := false } }) s.core.course.owner.val 5) 0 5

theorem courseStallOp_pending (hstate : s.core.course.state = 1) :
    courseStallOp s = postAll (nfcService (courseNext (capoFault (stallTold s) 23))) := if_pos hstate

theorem goes_stallTold (s : State) : Goes [.course, .nfc, .irqPend] s (stallTold s) :=
  ((((Goes.refl _ s).modCourse (by decide) rfl fun _ => rfl).modN (by decide)).raise (by decide)).raise (by decide)

theorem course_stallTold (s : State) : (stallTold s).core.course = stalled s.core.course (now s) := rfl

theorem pend_stallTold (hirq : s.core.irq.length = 4) :
    bit (nth (stallTold s).core.irq s.core.course.owner.val {}).pend 5 = true ∧ bit (nth (stallTold s).core.irq 0 {}).pend 5 = true := by
  unfold stallTold
  generalize hx : modN (modCourse s fun c => stalled c (now s)) (fun n => { n with
    luns := n.luns.map fun x => { x with pending := false, held := false } }) = x
  have hlen : x.core.irq.length = 4 := by
    rw [← hx]
    exact hirq
  have hfirst := raise_pend x s.core.course.owner.val 5 (by rw [hlen]; exact s.core.course.owner.isLt) (by decide)
  have hlen' : (raise x s.core.course.owner.val 5).core.irq.length = 4 := (length_upd _ _ _).trans hlen
  exact ⟨((Goes.refl [.irqPend] _).raise (by decide)).pend_of (by decide) hfirst, raise_pend _ 0 5 (by omega) (by decide)⟩

/-- A course that no block took up in time, after NAND work has gone on. -/
structure Stalled (s t : State) : Prop where
  course : t.core.course = stalled s.core.course (now s)
  regs : t.core.regs = s.core.regs
  owner : bit (nth t.core.irq s.core.course.owner.val {}).pend 5 = true
  steward : bit (nth t.core.irq 0 {}).pend 5 = true

theorem stalled_courseStallOp (hstate : s.core.course.state = 1) (hqueue : s.core.course.queued = none) (hirq : s.core.irq.length = 4) :
    Stalled s (settle (courseStallOp s)) := by
  have hg := goes_stallTold s
  have hcourse := course_stallTold s
  obtain ⟨howner, hsteward⟩ := pend_stallTold hirq
  rw [courseStallOp_pending hstate]
  generalize stallTold s = x at hg hcourse howner hsteward
  have hcapo : Goes [.capo] x (capoFault x 23) := (Goes.refl _ x).capoFault (by decide)
  have hnext : courseNext (capoFault x 23) = capoFault x 23 := by
    refine courseNext_of_noQueue ?_
    rw [hcapo.same .course (by decide), hcourse]
    exact hqueue
  rw [hnext]
  have hwork : Goes [.irqPend, .buf, .nfc, .capo] x (postAll (nfcService (capoFault x 23))) :=
    (((hcapo.mono (by decide)).nfcService (by decide) (by decide)).postAll (by decide) (by decide) (by decide))
  generalize postAll (nfcService (capoFault x 23)) = y at hwork
  have hend := (hwork.mono (by decide) : Goes (.buf :: .nfc :: endPieces) x y).settle (by decide)
  exact ⟨(hend.same .course (by decide)).trans hcourse, (hend.same .regs (by decide)).trans (hg.same .regs (by decide)),
    hend.pend_of (by decide) howner, hend.pend_of (by decide) hsteward⟩

/-- The second bank goes on: EFL has not taken the course up, which is not complete (11 R309). -/
theorem courseComplete_eflBank (hdue : courseDue s 6 = true) : courseComplete (eflBank s 0) = eflBank s 0 := by
  obtain ⟨-, hbit, htaken⟩ := courseDue_iff.1 hdue
  refine courseComplete_of_waiting fun h => ?_
  have hsix : bit (s.core.course.blocks &&& ~~~s.core.course.taken) 6 = true := by
    have hbits : ∀ u v : BitVec 8, bit u 6 = true → bit v 6 = false → bit (u &&& ~~~v) 6 = true := fun u v hu hv => by
      have hand : bit (u &&& ~~~v) 6 = (bit u 6 && !bit v 6) := by
        show (u &&& ~~~v).getLsbD 6 = _
        rw [BitVec.getLsbD_and, BitVec.getLsbD_not]
        rfl
      rw [hand, hu, hv]
      rfl
    exact hbits _ _ hbit htaken
  rw [show s.core.course.blocks &&& ~~~s.core.course.taken = 0 from h] at hsix
  exact absurd hsix (by decide)

/-- Each bank that takes up has the course's EFL_CFG, and with the second one the register (11 R309). -/
structure EflTook (s t : State) : Prop where
  running : nth t.core.course.running 6 0 = s.core.course.number
  banks : ∀ b : Fin 2, bit s.core.course.eflTaken b.val = false → BankTook s t b.val
  carried : Canonical s → Carried t 0x1600 (carriedMask s 0x1600) (carriedWord s 0x1600)

theorem eflTook_eflCourse (hlen : s.core.course.running.length = 8) (hqueue : s.core.course.queued = none) (hdue : courseDue s 6 = true)
    (hnot : s.core.course.eflTaken ≠ 3) (hbanks : s.core.efl.banks.length = 2) (h0 : bankBetween s 0 = true) (h1 : bankBetween s 1 = true) :
    EflTook s (settle (eflCourse s)) := by
  obtain ⟨-, hbit, -⟩ := courseDue_iff.1 hdue
  obtain ⟨w, hready, hraw⟩ := eflTakeRaw_both hdue hnot hbanks h0 h1
  have hrecord : (eflPublish w).core.course = published { s.core.course with eflTaken := 3 } 6 := by
    rw [course_eflPublish, hready.course]
  have hcourse : eflCourse s = courseComplete (eflPublish w) := by
    rw [eflCourse, if_pos hdue, hraw, courseCheck_of_noQueue]
    rw [hrecord]
    exact hqueue
  have hpub := goes_eflPublish w
  have hcarried : Canonical s → Carried (eflPublish w) 0x1600 (carriedMask s 0x1600) (carriedWord s 0x1600) := fun hcan => by
    have hw := hready.course
    obtain ⟨hmask, hword⟩ := carriedMask_congr (s := s) (y := w) (by rw [hw]) (by rw [hw]) (by rw [hw]) 0x1600
    have happly := carried_courseApply (s := w) (a := 0x1600) (b := 6) (t := fun a => courseBlock a == some 6) (hready.goes.canonical hcan).1 rfl
      (by rw [hw]; exact hbit) rfl rfl
    rw [hmask, hword] at happly
    exact happly.goes ((Goes.refl [.course] _).coursePublish (by decide)) (by decide) (by decide)
  have hefl : (eflPublish w).core.efl = w.core.efl := hpub.same .efl (by decide)
  rw [hcourse]
  generalize eflPublish w = x at hrecord hcarried hefl
  obtain ⟨hrunning, -, -⟩ := courseComplete_record x
  refine ⟨?_, fun b hb => (hready.banks b hb).keep ?_, fun hcan => ?_⟩
  · rw [settle_core_course, hrunning, hrecord]
    exact nth_upd_same _ _ _ _ (by rw [hlen]; decide)
  · rw [settle_core_efl, (goes_courseComplete x).same .efl (by decide), hefl]
  · exact ((hcarried hcan).goes (goes_courseComplete x) (by decide) (by decide)).of_same rfl rfl

/-- The first bank takes the course up while the second goes on (11 R309). -/
theorem eflCourse_first (hqueue : s.core.course.queued = none) (hdue : courseDue s 6 = true) (hnone : s.core.course.eflTaken = 0)
    (h0 : bankBetween s 0 = true) (h1 : bankBetween s 1 = false) : eflCourse s = eflBank s 0 := by
  rw [eflCourse, if_pos hdue, eflTakeRaw_first hdue hnone h0 h1, courseCheck_of_noQueue, courseComplete_eflBank hdue]
  rw [course_eflBank]
  exact hqueue

/-- Settles O19: a block that takes up brings into force what the course carries, publishes, and, where it is the last, ends the
course; EFL goes bank by bank, NFC LUN by LUN. -/
theorem coursesAreTakenUpOrStall : Obligations.CoursesAreTakenUpOrStall := by
  unfold Obligations.CoursesAreTakenUpOrStall
  refine ⟨?_, fun s hup => ⟨fun hstate => ?_, fun hstate hqueue hirq => ?_⟩⟩
  · intro s hup hlen hqueue hirq c ms entry mine staged
    refine ⟨fun b hnfc hefl hepd hgng => ?_, ?_, fun hrun => ?_, fun hbusy => ?_, fun hdue => ?_, fun hdue hnot hbanks h0 h1 => ?_,
      fun hdue hnone hbanks h0 h1 => ?_, fun l hluns => ?_⟩
    · intro i
      have hexec : exec (.courseTakeUp b) s = .next (settle (courseTakeUpOp s i)) := instant_core (fun s => courseTakeUpOp s i) hup
      rw [courseTakeUpOp_block hnfc hefl hepd hgng] at hexec
      refine ⟨_, hexec, fun hdue => ?_, fun hdue => ?_⟩
      · rw [takeUp, if_neg (by rw [hdue]; decide)]
      · obtain ⟨hrunning, hnumber, htaken, hdone, hwaits⟩ := tookUp_takeUp hdue (by rw [hlen]; exact blockIndex_lt b) hirq hqueue
        refine ⟨hrunning, hnumber, htaken, hdone, hwaits, fun hcan a ha hprim _ => ?_⟩
        obtain ⟨hbits, hpasses⟩ := carried_takeUp hcan hdue hqueue ha hprim
        exact ⟨hbits, hpasses⟩
    · exact instant_core (fun s => courseTakeUpOp s (blockIndex .nfc)) hup
    · have hskip : courseTakeUpOp s (blockIndex .epd) = s := by
        show (if s.core.epd.run.isNone then takeUp s 3 else s) = s
        rw [if_neg (by simpa [Option.isNone_iff_eq_none] using hrun)]
      exact (instant_core (fun s => courseTakeUpOp s (blockIndex .epd)) hup).trans (by rw [hskip])
    · have hskip : courseTakeUpOp s (blockIndex .gng) = s := by
        show (if s.core.gng.busy then s else takeUp s 7) = s
        rw [if_pos hbusy]
      exact (instant_core (fun s => courseTakeUpOp s (blockIndex .gng)) hup).trans (by rw [hskip])
    · have hskip : courseTakeUpOp s (blockIndex .efl) = s := by
        show (if courseDue s 6 then courseCheck (eflTakeRaw s) else s) = s
        rw [if_neg (by rw [hdue]; decide)]
      exact (instant_core (fun s => courseTakeUpOp s (blockIndex .efl)) hup).trans (by rw [hskip])
    · obtain ⟨hrunning, htook, hcarried⟩ := eflTook_eflCourse hlen hqueue hdue hnot hbanks h0 h1
      refine ⟨_, instant_core (fun s => courseTakeUpOp s (blockIndex .efl)) hup, hrunning, fun b hb => ?_, fun hcan => ?_⟩
      · obtain ⟨hcourse, hcfg⟩ := htook b hb
        exact ⟨hcourse, hcfg⟩
      · obtain ⟨hbits, hpasses⟩ := hcarried hcan
        exact ⟨hbits, hpasses⟩
    · obtain ⟨-, hbit, -⟩ := courseDue_iff.1 hdue
      obtain ⟨hcourse, hcfg⟩ := bankTook_eflBank (s := s) (b := 0) (by omega) hbit
      have hexec : exec (.courseTakeUp .efl) s = .next (settle (eflCourse s)) := instant_core (fun s => courseTakeUpOp s (blockIndex .efl)) hup
      rw [eflCourse_first hqueue hdue hnone h0 h1] at hexec
      exact ⟨_, hexec, rfl, hcourse, bank_eflBank_other (by decide), hcfg, rfl⟩
    · refine ⟨_, instant_core (fun s => lunTakeUp s l.val) hup, fun hmay => ?_, fun hmay => ?_⟩
      · rw [lunTakeUp, if_neg (by rw [hmay]; decide)]
      · obtain ⟨hrunning, hpending, hcarried⟩ := lunTook_lunTakeUp hmay hluns hqueue
        refine ⟨hrunning, hpending, fun hcan => ?_⟩
        obtain ⟨hbits, hpasses⟩ := hcarried hcan
        exact ⟨hbits, hpasses⟩
  · have hskip : courseStallOp s = s := if_neg hstate
    exact (instant_core courseStallOp hup).trans (by rw [hskip])
  · obtain ⟨hcourse, hregs, howner, hsteward⟩ := stalled_courseStallOp hstate hqueue hirq
    have hlog := courseLog_eq s.core.course 2 (now s)
    refine ⟨_, instant_core courseStallOp hup, ?_⟩
    rw [hcourse]
    exact ⟨rfl, rfl, rfl, rfl, rfl, rfl, hlog, hregs, howner, hsteward⟩

end Sys2Proof.Machine
end

section
/-! PROOFS. Chapters 01, 11: a read of the setup flash window where an error is marked in a word of it. -/

set_option Elab.async false

namespace Sys2Proof.Machine

/-- The first 64-bit word of the setup flash window is marked as one with a single-bit error, which the premises of O17 do not exclude. -/
def errorInWindow : State := settle (modC State.reset fun c => { c with buf := { c.buf with soft := [0x40000] } })

theorem errorInWindow_listens : Listens errorInWindow 0 := by
  unfold Listens
  decide +kernel

/-- The count of corrected errors after a command. -/
def correctedAfter : Host.Outcome State Fault Refusal → Nat
  | .next t => t.core.buf.corrected
  | _ => 0

/-- A read of that word counts the error. -/
theorem correctedAfter_read : correctedAfter (exec (.brd (sound 0 [0x10, 0, 0x20, 0, 0, 0])) errorInWindow) = 1 := by decide +kernel

/-- Refutes O17: it says that a sound read of the setup flash window leaves the buffer space and its counts, but the model counts the
single-bit error of a word of the range whatever row it is in, and nothing in the premises keeps such marks out of the window. -/
theorem not_bulkFramesReachTheQuota : ¬ Obligations.BulkFramesReachTheQuota := by
  unfold Obligations.BulkFramesReachTheQuota
  intro h
  obtain ⟨-, -, -, -, hwindow⟩ := h errorInWindow 0 0 ⟨0x80000, by decide⟩ [0] 0 errorInWindow_listens (settled_settle _) (by decide +kernel)
    (by decide) (by decide)
  obtain ⟨-, -, hread⟩ := hwindow (by decide) (by decide)
  obtain ⟨t, hexec, -, hsound, -⟩ := hread (by decide +kernel)
  obtain ⟨⟨hkeeps, -⟩, -⟩ := hsound (by decide +kernel)
  have hbuf : t.core.buf = errorInWindow.core.buf := (hkeeps .buf).resolve_left (by decide)
  have hcount : correctedAfter (exec (.brd (sound 0 [0x10, 0, 0x20, 0, 0, 0])) errorInWindow) = 0 := by
    refine (congrArg correctedAfter hexec).trans ?_
    show t.core.buf.corrected = 0
    rw [hbuf]
    rfl
  exact absurd (correctedAfter_read.symm.trans hcount) (by decide)

end Sys2Proof.Machine
end
